-- ==== Sys2Proof/Word.lean ====
section
/-!
DEFINITION. Words of the FT-1152: the widths the manual gives (R5 to R7) and their plainest arithmetic.
-/
namespace Sys2Proof

abbrev Byte := BitVec 8
abbrev W16 := BitVec 16
abbrev W32 := BitVec 32
abbrev W64 := BitVec 64

/-- A fabric time (R11): an unsigned 64-bit count of nanoseconds. -/
abbrev FTime := BitVec 64

/-- A core number, generation-1 range of Table 0-3. -/
abbrev Core := Fin 192
/-- A port number, generation-1 range of Table 0-3. -/
abbrev Port := Fin 48
/-- A register number of a tile sequencer, `s0` to `s15` (R115). -/
abbrev Reg := Fin 16
/-- A semaphore number of a core (R144). -/
abbrev Sem := Fin 48

/-- A map from numbers, held as plain data: the pairs (key, value) with keys rising and no value equal to the
default that an unlisted key reads as. `Host.Cell` lists are `SMap Byte`. -/
abbrev SMap (α : Type) := List (Nat × α)

end Sys2Proof
end

