-- ==== Sys2Proof/Syntax.lean ====
section
/-!
DEFINITION. The commands of the FT-1152: one constructor for each row of the table of operations and events
(opcode_table.json). The rows of the table carry no bits and no operands; the operands here are those that the
rule named by the row gives the command. An operand `t` is the fabric time at which the command takes place (R10).
-/
namespace Sys2Proof

/-- Who makes a dictionary access (R434): an FDP session (slots 0 to 3 class M, 4 to 7 class H, R440) with the
request ID and version byte of its message (Table 15-4), or a running program's core through the dictionary
map (R174). -/
inductive Origin where
  | fdp (slot : Fin 8) (req : W32) (ver : Byte)
  | prog (core : Core)
deriving DecidableEq, Repr

/-- The header of a flit other than SCHED (Table 13-2) and of a SCHED flit (Table 13-3). -/
structure Flit where
  kind : BitVec 4
  vc : BitVec 3
  last : Bool
  seq : BitVec 11
  ack : BitVec 11
  creditVc : BitVec 3
  credits : BitVec 4
  dst : W16
  src : W16
  tag : BitVec 12
  /-- Flit index; 18 bits wide in a SCHED flit, 15 bits in the others. -/
  index : BitVec 18
  /-- SCHED only: stream number. -/
  stream : BitVec 14
  /-- SCHED only: low 16 bits of the repetition number. -/
  rep : W16
  /-- The 240 payload bytes; bytes beyond the list are zero. -/
  payload : List Byte
deriving DecidableEq, Repr

/-- Conditions of BRC (Table 4-2). -/
inductive Cond where
  | eq | ne | lt | ge | ltu | geu
deriving DecidableEq, Repr

/-- Operations of ALU (Table 4-2). -/
inductive AluOp where
  | add | sub | mul | and | or | xor | shl | shr | sar | minu | maxu | mins | maxs
deriving DecidableEq, Repr

/-- The second operand of ALU: register b, or the immediate with IMM set. -/
inductive AluB where
  | reg (b : Reg)
  | imm (v : W32)
deriving DecidableEq, Repr

/-- Access sizes of LD and ST (Table 4-2). -/
inductive MemSize where
  | b4 | b8
deriving DecidableEq, Repr

/-- The POST field of APASS, MPASS, RFUNC and MOVE (R117): the semaphore posted, if any. -/
abbrev PostField := Option Sem

/-- The mode operand of APASS and MPASS: an index of the mode store, or a register with MODEREG. -/
inductive ModeSrc where
  | store (i : BitVec 12)
  | reg (r : Reg)
deriving DecidableEq, Repr

/-- The fields of an APASS (Table 4-2). -/
structure APassF where
  mode : ModeSrc
  keep : Bool
  m : Reg
  x : Reg
  w : Reg
  c : Reg
  post : PostField
deriving DecidableEq, Repr

/-- The fields of an MPASS (Table 4-2). -/
structure MPassF where
  mode : ModeSrc
  wstream : Bool
  m : Reg
  x : Reg
  w : Reg
  post : PostField
deriving DecidableEq, Repr

/-- The fields of an RFUNC (Table 4-2) other than its op. -/
structure RFuncF where
  srcAcc : Bool
  dstAcc : Bool
  accTiled : Bool
  fromPass : Bool
  src : Reg
  dst : Reg
  len : Reg
  rows : Reg
  p : Reg
  pad : Fin 4
  post : PostField
  param : Byte
  outFmt : BitVec 4
deriving DecidableEq, Repr

/-- Payload of a TRAIN flit (Table 13-7). -/
structure TrainP where
  version : Byte
  phase : Byte
  lowest : Byte
  highest : Byte
  chosen : Byte
  generation : Byte
  role : Byte
  port : Byte
  device : W16
  features : W32
  fingerprint : W64
  credits : List W16
  replayDepth : W16
deriving DecidableEq, Repr

/-- Payload of a TIME flit (Table 2-1). -/
structure TimeP where
  version : Byte
  flags : Byte
  sender : W16
  root : W16
  rootPrio : Byte
  hops : Byte
  seq : W16
  echoSeq : W16
  txFrac : W16
  echoFrac : W16
  txTime : W64
  echoTime : W64
  bound : W32
deriving DecidableEq, Repr

/-- Payload of an ABORT flit (Table 2-6). -/
structure AbortP where
  version : Byte
  originator : W16
  reason : W16
  raiseTime : FTime
  step : W32
deriving DecidableEq, Repr

/-- A chip unit that a scrubber or a rewrite reads (Table 18-2): an HBM unit by its number in the stack order of
R176, an SRAM word of a core's CLM or wide buffer, or an accumulator word. -/
inductive EccLoc where
  | hbm (unit : Nat)
  | clm (core : Core) (word : Nat)
  | wide (core : Core) (word : Nat)
  | acc (core : Core) (word : Nat)
  | cache (line word : Nat)
  | store (core : Core) (word : Nat)
  | link (die : Fin 2) (word : Nat)
  | front (word : Nat)
  | mgmt (word : Nat)
deriving DecidableEq, Repr

/-- The four 256-byte windows by which a receiver in training finds flit lock (R381). -/
structure LockWindows where
  port : Port
  windows : List (List Byte)
deriving DecidableEq, Repr

/-- A 256-byte window as a port receives it, and whether a codeword it covers is marked uncorrectable (R381, R382). -/
structure FlitWindow where
  port : Port
  bytes : List Byte
  uncorrectable : Bool
deriving DecidableEq, Repr

/-- The rows of the table of operations and events, in its order. -/
inductive Instr where
  -- power and start-up
  | powerApplied (mv : Int)
  | standbyPowerLoss
  | supplyLow (mv : Nat)
  | supplyHalt (t : FTime) (mv : Nat)
  | holdupExpiry
  | supplyRecovered (mv : Nat)
  | autoPowerUp
  | railsReady
  | railTimeout (rail : W32)
  | hbmTrainingDone (failed : Option (Fin 12))
  | memoryFillDone
  | selfTestDone (passed : List Bool) (found : List (List Byte)) (spares : Bool)
  | mainFirmwareVerified
  | portStartTimeout (p : Port)
  | startComplete
  -- dictionary, FDP, audit, events
  | dictionaryWrite (o : Origin) (t : FTime) (index : W16) (sub : Byte) (value : List Byte)
  | fdpHandshake (slot : Fin 8) (suite group scheme : W16) (chain : List (List Byte)) (port : Port) (channel : W16)
  | fdpClose (slot : Fin 8)
  | fdpSessionTimeout (slot : Fin 8)
  | hello (slot : Fin 8) (req : W32) (lowest highest : Byte) (mask : W16)
  | fdpRead (slot : Fin 8) (req : W32) (ver : Byte) (op : Byte) (body : List Byte)
  | events (slot : Fin 8) (req : W32) (ver : Byte) (start : W32) (count : W16)
  | auditEntries (slot : Fin 8) (req : W32) (ver : Byte) (count : W16) (start : W32)
  | auditCheckpointRead (slot : Fin 8) (req : W32) (ver : Byte) (count : W16) (number offset : W32)
  | auditEntryDurable (written : Bool)
  | eventRecord
  | powerUp (o : Origin) (t : FTime)
  | powerDown (o : Origin) (t : FTime)
  | restart (o : Origin) (t : FTime)
  | enterTest (o : Origin) (t : FTime)
  | enterRecovery (o : Origin) (t : FTime)
  | leave (o : Origin) (t : FTime)
  | arm (o : Origin) (t : FTime)
  | pause (o : Origin) (t : FTime)
  | resume (o : Origin) (t : FTime)
  | abort (o : Origin) (t : FTime)
  | armingWrite (o : Origin) (t : FTime) (start : FTime)
  | armingChecksDone (t : FTime)
  | tabMeasured
  | armingDeadline
  | rampStep
  | startFabricTimeReached
  -- capo points, the commit and the abort
  | capoSwitch
  | digestWalk
  | verdict
  | commitCapo
  | runEnd
  | lateTransfer (p : Port) (stream : BitVec 14)
  | abortFlitReceive (t : FTime) (p : Port) (f : Flit)
  | abortingComplete
  -- fabric time
  | timeExchange (t : FTime) (frac : W16) (p : Port)
  | timeFlitReceive (t : FTime) (frac : W16) (p : Port) (f : Flit)
  | becomeRoot
  | upstreamReselect
  | holdoverBoundExceeded (t : FTime)
  | ppsInEdge (t : FTime) (widthNs : Nat)
  | ppsLost (t : FTime)
  | ppsOutPulse
  -- links
  | flitLockAcquired (w : LockWindows)
  | linkDown (t : FTime) (p : Port)
  | laserFault (src : Fin 6)
  | trainReceive (p : Port) (f : Flit)
  | heldPortRetrain (p : Port)
  | corruptFlit (w : FlitWindow)
  | retryRepeat (p : Port)
  | retryReceive (t : FTime) (p : Port) (f : Flit)
  | mapSend
  | mapReceive (p : Port) (f : Flit)
  | headFlitReceive (t : FTime) (p : Port) (f : Flit)
  | dataFlitReceive (t : FTime) (p : Port) (f : Flit)
  | landingCommit (t : FTime) (src : W16) (transfer : W16) (bytes : Nat)
  | readFlitReceive (t : FTime) (p : Port) (f : Flit)
  | respReceive (t : FTime) (p : Port) (f : Flit)
  | ackReceive (t : FTime) (p : Port) (f : Flit)
  | postFlitReceive (t : FTime) (p : Port) (f : Flit)
  | hostmsgReceive (t : FTime) (p : Port) (f : Flit)
  | schedFlitReceive (t : FTime) (p : Port) (f : Flit)
  | completionTimeout (t : FTime) (tag : BitVec 12)
  -- collectives
  | sendInstanceStart (t : FTime) (entry : Nat)
  | sendReadDone (t : FTime) (entry : Nat)
  | localInputStart (t : FTime) (entry : Nat)
  | groupBlockReduce (t : FTime) (entry : Nat)
  | stagedCopy (t : FTime) (entry : Nat)
  -- tile sequencer
  | nop (c : Core)
  | halt (c : Core)
  | programEnd (c : Core)
  | br (c : Core) (imm : W32)
  | brc (c : Core) (cond : Cond) (a b : Reg) (imm : W32)
  | loop (c : Core) (counter : Option (Fin 4)) (live : Option Reg) (planned : W32)
  | endl (c : Core)
  | rdl (c : Core) (counter : Fin 4) (d : Reg)
  | movi (c : Core) (d : Reg) (imm : W32)
  | movhi (c : Core) (d : Reg) (imm : W32)
  | alu (c : Core) (op : AluOp) (d a : Reg) (b : AluB)
  | cdiv (c : Core) (d a : Reg) (imm : W32)
  | ld (c : Core) (size : MemSize) (d a : Reg) (imm : W32)
  | st (c : Core) (size : MemSize) (a b : Reg) (imm : W32)
  | shape (c : Core) (d a : Reg) (slot : Fin 64) (imm : W32)
  | shapeValueArrival (c : Core)
  | setpad (c : Core) (pad : Fin 4) (imm : W32)
  | wcbind (c : Core) (d : Reg) (counter : Byte)
  | wcbindServe (c : Core)
  | wcinit (c : Core) (a : Reg) (counter : Byte)
  | wcinitApply (c : Core)
  | take (c : Core) (d a : Reg) (imm : W32)
  | takeServe (c : Core)
  | apass (c : Core) (f : APassF) (gather : Bool)
  | convPass (c : Core) (f : APassF)
  | mpass (c : Core) (f : MPassF)
  | passRetire (c : Core) (id : Nat)
  | postFieldApply (c : Core) (id : Nat)
  | add (c : Core) (f : RFuncF)
  | mul (c : Core) (f : RFuncF)
  | scale (c : Core) (f : RFuncF)
  | min (c : Core) (f : RFuncF)
  | max (c : Core) (f : RFuncF)
  | exp (c : Core) (f : RFuncF)
  | log (c : Core) (f : RFuncF)
  | recip (c : Core) (f : RFuncF)
  | rsqrt (c : Core) (f : RFuncF)
  | div (c : Core) (f : RFuncF)
  | act (c : Core) (f : RFuncF)
  | actd (c : Core) (f : RFuncF)
  | rowmax (c : Core) (f : RFuncF)
  | rowsum (c : Core) (f : RFuncF)
  | poolRowmax (c : Core) (f : RFuncF)
  | poolRowsum (c : Core) (f : RFuncF)
  | softmax (c : Core) (f : RFuncF)
  | softmaxd (c : Core) (f : RFuncF)
  | stats (c : Core) (f : RFuncF)
  | output (c : Core) (f : RFuncF)
  | delta (c : Core) (f : RFuncF)
  | grad (c : Core) (f : RFuncF)
  | lnorm (c : Core) (f : RFuncF)
  | rmsnorm (c : Core) (f : RFuncF)
  | cast (c : Core) (f : RFuncF)
  | move (c : Core) (a : Reg) (post : PostField)
  | moveStart (t : FTime) (c : Core)
  | moveRetire (c : Core) (id : Nat)
  | wait (c : Core) (sem : Sem) (a : Reg) (imm : W32)
  | waitRelease (c : Core)
  | waitft (c : Core) (a : Reg) (imm : W32)
  | waitftRelease (t : FTime) (c : Core)
  | waitLong (t : FTime) (c : Core)
  | post (c : Core) (remote : Bool) (sem : Sem) (a : Reg) (imm : W32)
  | drainComplete
  | contextSaved
  | drainTimeout (t : FTime)
  | semForce (o : Origin) (t : FTime) (value : W32)
  -- memory, shards, pages, regions
  | regionModeWrite (o : Origin) (t : FTime) (region : Fin 24) (mode : Byte)
  | exportShard (o : Origin) (t : FTime)
  | verify (o : Origin) (t : FTime)
  | shardWalkDone (t : FTime)
  | clearHold (o : Origin) (t : FTime)
  | pageAreaSet (o : Origin) (t : FTime) (sub : Byte) (value : List Byte)
  | openSlot (o : Origin) (t : FTime) (cmd : List Byte)
  | map (o : Origin) (t : FTime) (cmd : List Byte)
  | free (o : Origin) (t : FTime) (cmd : List Byte)
  | close (o : Origin) (t : FTime) (cmd : List Byte)
  | decode (o : Origin) (t : FTime) (die : Fin 4) (cmd : List Byte)
  | nms (o : Origin) (t : FTime) (die : Fin 4) (cmd : List Byte)
  | crop (o : Origin) (t : FTime) (die : Fin 4) (cmd : List Byte)
  | regionCommandDone (t : FTime) (die : Fin 4)
  -- media and video
  | streamEnable (o : Origin) (t : FTime) (s : Fin 16)
  | streamDisable (o : Origin) (t : FTime) (s : Fin 16)
  | batchRelease (o : Origin) (t : FTime) (s : Fin 16) (count : Byte)
  | listHeaderRead (t : FTime) (s : Fin 16)
  | sampleDispatch (t : FTime) (s : Fin 16)
  | sampleFinish (t : FTime) (s : Fin 16) (sample : Nat)
  | sampleEmit (t : FTime) (s : Fin 16)
  | sampleTimeout (t : FTime) (s : Fin 16) (sample : Nat)
  | decodePipeFree (p : Fin 4)
  | encode (o : Origin) (t : FTime) (cmd : List Byte)
  | transcodeFrameDecoded (t : FTime) (p : Fin 4)
  | encodeFrameDone (t : FTime) (p : Fin 2)
  -- trust
  | reportRequest (o : Origin) (t : FTime) (nonce : List Byte)
  | reportReady
  | enroll (o : Origin) (t : FTime)
  | challenge (o : Origin) (t : FTime)
  | release (o : Origin) (t : FTime)
  | install (o : Origin) (t : FTime)
  | installDone
  | raiseFloor (o : Origin) (t : FTime)
  | galenaRestart (o : Origin) (t : FTime)
  -- governor, throttle, inputs
  | governorTick (t : FTime) (mv watts avg1ms avg10ms : Nat)
  | powerCapRelease
  | taperStep
  | clockReturnStep (t : FTime)
  | throttleInAssert (t : FTime)
  | throttleInRelease (t : FTime)
  | haltInAssert (t : FTime)
  | haltInRelease (t : FTime)
  | inputReminder (t : FTime) (haltPin : Bool)
  | thermalThrottle (t : FTime) (die : Fin 7) (mC : Nat)
  | thermalRelease (t : FTime) (temps : List Int)
  | thermalHalt (t : FTime) (die : Fin 7) (mC : Nat)
  -- stored data
  | scrubRead (t : FTime) (scrubber : Fin 6) (loc : EccLoc) (lapMs : Nat) (lapEnds : Bool)
  | scrubOverdue (scrubber : Fin 6) (elapsedMs : W32)
  | sramRewrite (loc : EccLoc)
  | writeRaw (o : Origin) (t : FTime)
  | readRaw (o : Origin) (t : FTime)
  -- link slots
  | pcsLock (p : Port)
  | trainAdvertise (p : Port)
  | flitSlot (t : FTime) (p : Port)
  | idleReceive (p : Port) (f : Flit)
  | checkpointSignatureDone
deriving DecidableEq, Repr

end Sys2Proof
end

