-- ==== Sys2Proof/Decode.lean ====
section
/-!
DEFINITION. The command that a word of the operation table spells. The table gives its rows no bits, so no word spells a
command (log entry 11).
-/
namespace Sys2Proof

def decodeTableWord (_nbits _w : Nat) : Option Instr := none

end Sys2Proof
end

