-- ==== Sys2Proof/Config.lean ====
section
/-!
DEFINITION. What an FT-1152 fixes that the manual does not state, and the free values: constants without a body, so
that nothing can be proved of their values (log entries 3 to 9). A statement about the model holds for every value.
-/
namespace Sys2Proof.Config

/-- The row unit's result for function `code` on these FP32 operands, where R104 gives only a bound; the model uses
it only when it meets that bound (log entry 4). Fixed in silicon: a function of the operands (R105). -/
opaque rowFn (code : Nat) (args : List W32) : W32

/-- The 32-bit word a standard's hash gives: SHA-384 of the bytes, 48 bytes (FIPS 180-4 is not restated; log entry 5). -/
opaque sha384 (bytes : List Byte) : List Byte

/-- Whether an RSASSA-PSS signature verifies under a key over a 48-byte digest (R470; log entry 5). -/
opaque rsaVerifies (key digest sig : List Byte) : Bool
/-- Whether an SLH-DSA-SHA2-192s signature verifies under a key over a 48-byte digest (R470; log entry 5). -/
opaque slhVerifies (key digest sig : List Byte) : Bool
/-- The RSA-3072 signature the module's identity key makes over a digest, with its random salt (R470). -/
opaque rsaSign (nonce : Nat) (digest : List Byte) : List Byte
/-- The SLH-DSA signature the module's identity key makes over a digest. -/
opaque slhSign (nonce : Nat) (digest : List Byte) : List Byte
/-- The Tampowick firmware keys in Flint's ROM (R471). -/
opaque firmwareRsaKey : List Byte
opaque firmwareSlhKey : List Byte
/-- Serial number, as set in the factory (Table 15-3; log entry 2). -/
opaque serial : List Byte
/-- The module's certificates in DER (R469) around the subject's serialNumber attribute, which holds the serial number: before
and after it, for the RSA key and for the SLH-DSA key. -/
opaque certHead (slh : Bool) : List Byte
opaque certTail (slh : Bool) : List Byte
/-- The serialNumber attribute of a subject: OID 2.5.4.5 and a PrintableString. PRESUMED: RFC 5280 is not restated (log entry 142). -/
def serialAttribute : List Byte :=
  let v := (serial.take 16).takeWhile fun b => decide (b ≠ 0)
  [0x06, 0x03, 0x55, 0x04, 0x05, 0x13, BitVec.ofNat 8 v.length] ++ v
/-- The module's certificates in DER (R469). -/
def rsaCertificate : List Byte := certHead false ++ serialAttribute ++ certTail false
def slhCertificate : List Byte := certHead true ++ serialAttribute ++ certTail true
/-- What the module signs as DTLS server in the handshake of a session (R439, R470): RFC 9147 is not restated (log entry 143). -/
opaque dtlsTranscript (sid : Nat) : List Byte
/-- The record, sealed under the session's keys, that carries a message of the module in band (R407; log entry 143). -/
opaque dtlsRecord (sid number : Nat) (message : List Byte) : List Byte
/-- The DER SubjectPublicKeyInfo of a certificate (R479). -/
opaque certKey (cert : List Byte) : List Byte
/-- Whether a client chain validates under RFC 5280 up to a key whose hash is one of the anchors, at a wall time
when one is set (R479). -/
opaque chainValid (anchors : List (List Byte)) (wallMs : Option Nat) (chain : List (List Byte)) : Bool
/-- Fresh random bytes of Flint for a challenge (R481). -/
opaque random32 (counter : Nat) : List Byte

/-- What the headers of a picture or a sound declare, under its standard (Table 11-3; log entry 6). -/
structure MediaHeader where
  /-- Width, height and components of a picture; sample rate, channels and frames (0 where not known before the decode) of a sound. -/
  extent : Nat × Nat × Nat
  /-- Bits of a sample. -/
  bits : Nat
  /-- JPEG process (0 baseline, 1 extended sequential, others progressive, lossless or hierarchical), PNG colour type, or Opus mapping family. -/
  mode : Nat
  /-- Arithmetic coding (JPEG), an extension of a later part (JPEG 2000), Ogg encapsulation (FLAC). -/
  special : Bool
  /-- Sampling factors of the components (JPEG), or XRsiz and YRsiz (JPEG 2000). -/
  factors : List Nat
  /-- Decomposition levels (JPEG 2000). -/
  levels : Nat
deriving DecidableEq, Repr, Inhabited
/-- The headers of a source, from its first 1 MiB; none where they cannot be parsed there (R337; log entry 6). -/
opaque mediaHeader (media : Nat) (bytes : List Byte) : Option MediaHeader
/-- A picture decoded by its standard: the sample codes, component-major; none for an error of the bitstream (log entry 6). -/
opaque decodePicture (media : Nat) (bytes : List Byte) : Option (List Int)
/-- A FLAC stream: interleaved codes. An Opus stream: interleaved output values (R331; log entry 6). -/
opaque decodeFlac (bytes : List Byte) : Option (List Int)
opaque decodeOpus (bytes : List Byte) : Option (List W32)
/-- An inflated RFC 1950 stream; whether its header asks for a preset dictionary (log entry 6). -/
opaque inflate (bytes : List Byte) : Option (List Byte)
opaque presetDictionary (bytes : List Byte) : Bool
/-- Log-mel output of one frame, one value for each band, not defined bit by bit (R334; log entry 6): the model uses one only
where it meets the rule's bound. The arguments are rate and stage parameters, and the frame's samples. -/
opaque logmel (params : List Nat) (frame : List W32) : List W32
/-- A mean of FP32 values with weights, each step rounded: the order of its steps is not stated (R332, R333 and Table 11-6;
log entry 40). The model uses it only where the rounding of its steps allows it. -/
opaque weightedMean (weights : List Nat) (values : List W32) : W32

/-- What the headers of a clip's sequence declare (Tables 12-1 and 12-2; log entry 6). -/
structure ClipHeader where
  /-- Output frame size; no chroma, and the bit depths of luma and chroma. -/
  width : Nat
  height : Nat
  mono : Bool
  bits : Nat
  chromaBits : Nat
  /-- An Annex B byte stream (HEVC) or a low-overhead OBU stream with temporal delimiters (AV1). -/
  bare : Bool
  /-- HEVC: 1 Main, 2 Main 10, others. AV1: seq_profile. -/
  profile : Nat
  /-- The level, as 6 and 2 for 6.2. -/
  level : Nat × Nat
  /-- Chroma, where there is some, is 4:2:0. -/
  quarter : Bool
  /-- AV1: large_scale_tile. -/
  largeTiles : Bool
deriving DecidableEq, Repr, Inhabited
/-- An output frame, with the headers in force for it: Y, Cb and Cr codes. -/
structure ClipFrame where
  head : ClipHeader
  y : List Nat
  cb : List Nat
  cr : List Nat
deriving DecidableEq, Repr, Inhabited
/-- What follows the output frames before: a frame, the end of the clip, or an error of the bitstream. -/
inductive ClipStep where
  | frame (f : ClipFrame)
  | ended
  | broken
deriving DecidableEq, Repr, Inhabited
/-- The first headers of a clip source (2 HEVC, 3 AV1), from its first 1 MiB; none where they cannot be parsed (log entry 6). -/
opaque clipHeader (kind : Nat) (bytes : List Byte) : Option ClipHeader
/-- Output frame `frame` of a clip, in output order (R355); of AV1 the operating point, and whether film grain is applied (R354). -/
opaque clipFrame (kind operatingPoint : Nat) (grain : Bool) (bytes : List Byte) (frame : Nat) : ClipStep
/-- The per-CTU-row bits and the one slice that the encoder writes for a frame, whose mode decisions the manual does not specify
(R364; log entry 7), given its coding history and the frames it is predicted from, as distances back: none for the I slice of an IDR picture. The
bits of row r may depend on the QPs of rows 0 to r. -/
opaque encodeRowBits (history : List Byte) (refs planes : List Nat) (qps : List Int) : Nat
opaque encodeSlice (history : List Byte) (refs planes : List Nat) (qps : List Int) : List Byte
/-- The parameter sets of an encoded clip, as H.265 spells what R364 gives them: general_profile_idc, the high tier, general_level_idc, bit depth, the base-2 logarithm of the CTU size, frame size, chroma, VUI and
HRD, and cu_qp_delta (log entry 7). -/
opaque vpsBytes (profile : Nat) (highTier : Bool) (levelIdc : Nat) (hrd : Bool) : List Byte
opaque spsBytes (profile : Nat) (highTier : Bool) (levelIdc depth ctuLog2 width height : Nat) (mono vui : Bool) : List Byte
opaque ppsBytes (cuQpDelta : Bool) : List Byte

/-- The set of its home cache that holds a line: the index function is not stated (R179; log entry 8). -/
opaque cacheSet (line : Nat) : Nat
/-- A free 64-bit value, fresh for each counter value (log entry 3). -/
opaque freeWord (counter : Nat) : W64

/-- Which element of block `block` of column `col` lends the block its stationary MX scale byte: R225 gives each element of a lane
row a byte, R80 takes one for the whole block (log entry 23). -/
opaque mxPlace (fmt block col : Nat) : Nat

/-- The last-flit deadline, as an offset of the run, that the peer's tab gives a vote stream landing on a port before a commit
capo (R265; how the module comes to know it is not stated). -/
opaque peerVoteDeadline (port stream capo : Nat) : Nat

/-- The servo's new rate in ppb, clamped by the model to ±100 ppm (R40, R46: the gains are not stated). -/
opaque servoRate (offsetPs : Int) (oldRate : Int) : Int

/-- The letter, A to Z, and the digit of the silicon stepping (R3, Table 15-3). -/
opaque steppingLetter : Fin 26
opaque steppingDigit : Fin 10
/-- The bank and the row that hold a location (R541): the arrays' geometry is not stated (log entry 150). -/
opaque repairRow (kind unit key : Nat) : Nat × Nat
/-- Date of manufacture, as set in the factory (Table 19-9; log entry 2). -/
opaque manufactured : W32
/-- The hash of the Tampowick service root, anchor 1 at manufacture (R479). -/
opaque serviceRoot : List Byte
/-- HBM spare rows and SRAM spares at manufacture (Table 18-5, no default stated). -/
opaque stackSpares (stack : Nat) : Nat
opaque sramSpares : W32
/-- The factory Galena image (R471, slot 2) and the images the other slots hold when the module is shipped. -/
opaque shippedImage (kind slot : Nat) : List Byte

end Sys2Proof.Config
end

