-- ==== Sys2Proof/Machine/Num.lean ====
section
/-!
DEFINITION. Numbers of the FT-1152 (chapters 3 and 7): exact values, the encodings of Table 7-1, the rounding of
R209 to R212, FP32 arithmetic by RNE, and the functions of Table 3-7 within their bounds.
-/
namespace Sys2Proof.Machine

/-- An exact value: NaN, an infinity, or (−1)^neg · m · 2^e. -/
inductive FNum where
  | nan
  | inf (neg : Bool)
  | fin (neg : Bool) (m : Nat) (e : Int)
deriving DecidableEq, Repr

/-- The floating-point element formats of Table 7-1. -/
inductive EFmt where
  | f32 | bf16 | fp16 | e4m3 | e5m2 | e2m1
deriving DecidableEq, Repr

/-- Mantissa bits. -/
def EFmt.mant : EFmt → Nat
  | .f32 => 23 | .bf16 => 7 | .fp16 => 10 | .e4m3 => 3 | .e5m2 => 2 | .e2m1 => 1
/-- Exponent bits. -/
def EFmt.exps : EFmt → Nat
  | .f32 => 8 | .bf16 => 8 | .fp16 => 5 | .e4m3 => 4 | .e5m2 => 5 | .e2m1 => 2
/-- Exponent bias. -/
def EFmt.bias : EFmt → Nat
  | .f32 => 127 | .bf16 => 127 | .fp16 => 15 | .e4m3 => 7 | .e5m2 => 15 | .e2m1 => 1
/-- Largest finite magnitude, as m · 2^e. -/
def EFmt.largest : EFmt → Nat × Int
  | .f32 => (2 ^ 24 - 1, 104) | .bf16 => (255, 120) | .fp16 => (2047, 5) | .e4m3 => (7, 6) | .e5m2 => (7, 13)
  | .e2m1 => (3, 1)
/-- Whether the format has infinities. -/
def EFmt.hasInf : EFmt → Bool
  | .f32 => true | .bf16 => true | .fp16 => true | .e4m3 => false | .e5m2 => true | .e2m1 => false
/-- The NaN a unit produces (Table 7-1, last column); E2M1 has none. -/
def EFmt.nanBits : EFmt → Nat
  | .f32 => 0x7FC00000 | .bf16 => 0x7FC0 | .fp16 => 0x7E00 | .e4m3 => 0x7F | .e5m2 => 0x7E | .e2m1 => 0
/-- Position of the sign bit. -/
def EFmt.sign (f : EFmt) : Nat := f.mant + f.exps

/-- The exact value of an encoding (R204, R205). -/
def decF (f : EFmt) (b : Nat) : FNum :=
  let m := b % 2 ^ f.mant
  let e := b / 2 ^ f.mant % 2 ^ f.exps
  let neg := b / 2 ^ f.sign % 2 == 1
  let top := 2 ^ f.exps - 1
  let lo : Int := 1 - (f.bias : Int) - (f.mant : Int)
  if f.hasInf && e == top then (if m == 0 then .inf neg else .nan)
  else if f == .e4m3 && e == top && m == 7 then .nan
  else if e == 0 then .fin neg m lo
  else .fin neg (m + 2 ^ f.mant) (lo + (e - 1 : Int))

/-- m · 2^e as a fraction. -/
def fracOf (m : Nat) (e : Int) : Nat × Nat :=
  if 0 ≤ e then (m * 2 ^ e.toNat, 1) else (m, 2 ^ (-e).toNat)

/-- ⌊log2 (n / d)⌋ for n and d above 0. -/
def floorLog2 (n d : Nat) : Int :=
  let k : Int := (Nat.log2 n : Int) - (Nat.log2 d : Int)
  let ge (j : Int) : Bool := if 0 ≤ j then decide (d * 2 ^ j.toNat ≤ n) else decide (d ≤ n * 2 ^ (-j).toNat)
  if ge k then k else k - 1

/-- Rounding modes of Table 7-2; `sr` carries its noise word (R211). -/
inductive RMode where
  | rne | rtz | rdn | rup
  | sr (noise : Nat)
deriving DecidableEq, Repr

/-- Whether the magnitude q + r/d (0 ≤ r < d) goes up to q + 1 in a mode. -/
def roundsUp (mode : RMode) (neg : Bool) (q r d : Nat) : Bool :=
  match mode with
  | .rne => decide (d < 2 * r) || (decide (2 * r = d) && decide (q % 2 = 1))
  | .rtz => false
  | .rdn => neg && decide (0 < r)
  | .rup => !neg && decide (0 < r)
  | .sr noise => decide (noise * d < r * 2 ^ 32)

/-- The grid exponent of a format at a value n / d (R209): unbounded above, subnormal spacing below. -/
def gridExp (f : EFmt) (n d : Nat) : Int :=
  let lo : Int := 1 - (f.bias : Int) - (f.mant : Int)
  if n = 0 then lo else
  let k := floorLog2 n d - (f.mant : Int)
  if k < lo then lo else k

/-- Round n / d onto a format's grid: the magnitude q · 2^e (R209). -/
def roundMag (f : EFmt) (mode : RMode) (neg : Bool) (n d : Nat) : Nat × Int :=
  let e := gridExp f n d
  let (n', d') := if 0 ≤ e then (n, d * 2 ^ e.toNat) else (n * 2 ^ (-e).toNat, d)
  let q := n' / d'
  let r := n' % d'
  (if roundsUp mode neg q r d' then q + 1 else q, e)

/-- Encode a magnitude q · 2^e that lies on the format's grid and within its range. -/
def encMag (f : EFmt) (neg : Bool) (q : Nat) (e : Int) : Nat :=
  let s := if neg then 2 ^ f.sign else 0
  let (q, e) := if q = 2 ^ (f.mant + 1) then (2 ^ f.mant, e + 1) else (q, e)
  if q < 2 ^ f.mant then s + q
  else s + (e + (f.mant : Int) + (f.bias : Int)).toNat * 2 ^ f.mant + (q - 2 ^ f.mant)

/-- Whether q · 2^e exceeds the largest finite magnitude. -/
def overLargest (f : EFmt) (q : Nat) (e : Int) : Bool :=
  let (a, b) := fracOf q e
  let (m, k) := f.largest
  let (c, d) := fracOf m k
  decide (c * b < a * d)

/-- How a narrowed element is classed (Table 7-7), where `ok` is none of the classes. -/
inductive NClass where
  | ok | zero | saturated | nonfinite | vanished
deriving DecidableEq, Repr

/-- The encoding of an infinity, or of the largest finite value. -/
def infBits (f : EFmt) (neg : Bool) : Nat :=
  (if neg then 2 ^ f.sign else 0) + (2 ^ f.exps - 1) * 2 ^ f.mant
def largestBits (f : EFmt) (neg : Bool) : Nat :=
  encMag f neg (f.largest.1 * 2 ^ (f.mant + 1 - (Nat.log2 f.largest.1 + 1)))
    (f.largest.2 - ((f.mant + 1 - (Nat.log2 f.largest.1 + 1) : Nat) : Int))

/-- The result of a saturation (R210): IEEE 754 for the 16- and 32-bit formats, a clamp for the others. -/
def saturate (f : EFmt) (mode : RMode) (neg : Bool) : Nat :=
  match f with
  | .e4m3 => largestBits f neg
  | .e5m2 => largestBits f neg
  | .e2m1 => largestBits f neg
  | _ =>
    match mode with
    | .rtz => largestBits f neg
    | .rdn => if neg then infBits f true else largestBits f false
    | .rup => if neg then largestBits f true else infBits f false
    | _ => infBits f neg

/-- Narrow the value ±n / d to a format (R209, R210): the encoding and its class. -/
def narrowFrac (f : EFmt) (mode : RMode) (neg : Bool) (n d : Nat) : Nat × NClass :=
  if n = 0 then ((if neg then 2 ^ f.sign else 0), .zero) else
  let (q, e) := roundMag f mode neg n d
  if q = 0 then ((if neg then 2 ^ f.sign else 0), .vanished)
  else if overLargest f q e then (saturate f mode neg, .saturated)
  else (encMag f neg q e, .ok)

/-- Narrow an exact value (R209 to R212). -/
def narrow (f : EFmt) (mode : RMode) : FNum → Nat × NClass
  | .nan => (f.nanBits, .nonfinite)
  | .inf neg => (if f.hasInf then infBits f neg else f.nanBits, .nonfinite)
  | .fin neg m e =>
    let (n, d) := fracOf m e
    narrowFrac f mode neg n d

/-- FP32 of an exact value by RNE, and the exact value of an FP32 pattern. -/
def toF32 (x : FNum) : W32 := BitVec.ofNat 32 (narrow .f32 .rne x).1
def ofF32 (x : W32) : FNum := decF .f32 x.toNat
/-- FP32 of a fraction by RNE. -/
def fracF32 (neg : Bool) (n d : Nat) : W32 := BitVec.ofNat 32 (narrowFrac .f32 .rne neg n d).1

/-- The signed integer m · 2^(e − k) for k ≤ e. -/
def scaledInt (neg : Bool) (m : Nat) (e k : Int) : Int :=
  let a : Int := (m * 2 ^ (e - k).toNat : Nat)
  if neg then -a else a

/-- Exact sum (R82): opposite infinities give NaN; an exact zero of unlike signs is +0. -/
def FNum.add : FNum → FNum → FNum
  | .nan, _ => .nan
  | _, .nan => .nan
  | .inf a, .inf b => if a = b then .inf a else .nan
  | .inf a, _ => .inf a
  | _, .inf b => .inf b
  | .fin a m e, .fin b n k =>
    let j := if e ≤ k then e else k
    let v := scaledInt a m e j + scaledInt b n k j
    if v = 0 then .fin (a && b) 0 j else .fin (decide (v < 0)) v.natAbs j

/-- Exact product (R82): infinity times zero gives NaN. -/
def FNum.mul : FNum → FNum → FNum
  | .nan, _ => .nan
  | _, .nan => .nan
  | .inf a, .inf b => .inf (xor a b)
  | .inf a, .fin b n _ => if n = 0 then .nan else .inf (xor a b)
  | .fin a m _, .inf b => if m = 0 then .nan else .inf (xor a b)
  | .fin a m e, .fin b n k => .fin (xor a b) (m * n) (e + k)

def FNum.neg : FNum → FNum
  | .nan => .nan
  | .inf a => .inf (!a)
  | .fin a m e => .fin (!a) m e

def FNum.isNan : FNum → Bool
  | .nan => true
  | _ => false
def FNum.isFinite : FNum → Bool
  | .fin _ _ _ => true
  | _ => false
/-- Zero of either sign. -/
def FNum.isZero : FNum → Bool
  | .fin _ m _ => decide (m = 0)
  | _ => false

/-- Exact comparison of values that are not NaN: −1, 0 or 1; zeros of either sign are equal. -/
def FNum.cmp : FNum → FNum → Int
  | .inf a, .inf b => if a = b then 0 else if a then -1 else 1
  | .inf a, _ => if a then -1 else 1
  | _, .inf b => if b then 1 else -1
  | .fin a m e, .fin b n k =>
    let j := if e ≤ k then e else k
    let v := scaledInt a m e j - scaledInt b n k j
    if v < 0 then -1 else if v = 0 then 0 else 1
  | _, _ => 0

def FNum.lt (a b : FNum) : Bool := !a.isNan && !b.isNan && decide (a.cmp b = -1)
def FNum.le (a b : FNum) : Bool := !a.isNan && !b.isNan && decide (a.cmp b ≠ 1)

/-- FP32 constants and arithmetic, each step rounded once by RNE. -/
def f32Nan : W32 := 0x7FC00000#32
def f32Inf : W32 := 0x7F800000#32
def f32NegInf : W32 := 0xFF800000#32
def f32One : W32 := 0x3F800000#32
def f32Zero : W32 := 0#32
def fadd (a b : W32) : W32 := toF32 ((ofF32 a).add (ofF32 b))
def fneg (a : W32) : W32 := a ^^^ 0x80000000#32
def fsub (a b : W32) : W32 := toF32 ((ofF32 a).add (ofF32 b).neg)
def fmul (a b : W32) : W32 := toF32 ((ofF32 a).mul (ofF32 b))
def ffma (a b c : W32) : W32 := toF32 (((ofF32 a).mul (ofF32 b)).add (ofF32 c))

/-- FP32 of an integer by RNE. -/
def fOfInt (i : Int) : W32 := toF32 (.fin (decide (i < 0)) i.natAbs 0)

/-- Correctly rounded division (used where the manual writes a quotient rounded by RNE: R236, R313, R315). -/
def fdiv (a b : W32) : W32 :=
  match ofF32 a, ofF32 b with
  | .nan, _ => f32Nan
  | _, .nan => f32Nan
  | .inf _, .inf _ => f32Nan
  | .inf x, .fin y _ _ => BitVec.ofNat 32 (infBits .f32 (xor x y))
  | .fin x _ _, .inf y => if xor x y then 0x80000000#32 else 0#32
  | .fin x m e, .fin y n k =>
    if n = 0 then (if m = 0 then f32Nan else BitVec.ofNat 32 (infBits .f32 (xor x y)))
    else if m = 0 then (if xor x y then 0x80000000#32 else 0#32)
    else
      let (a, b) := fracOf m e
      let (c, d) := fracOf n k
      fracF32 (xor x y) (a * d) (b * c)

/-- MIN and MAX of the row unit (Table 3-8). -/
def fmin (a b : W32) : W32 :=
  let x := ofF32 a
  let y := ofF32 b
  if x.isNan || y.isNan then f32Nan
  else if x.isZero && y.isZero then (if a = b then a else 0x80000000#32)
  else if x.cmp y ≤ 0 then a else b
def fmax (a b : W32) : W32 :=
  let x := ofF32 a
  let y := ofF32 b
  if x.isNan || y.isNan then f32Nan
  else if x.isZero && y.isZero then (if a = b then a else 0#32)
  else if 0 ≤ x.cmp y then a else b

/-! ### Fixed-point approximations, 160 fractional bits, for the bounds of Table 3-7 -/

/-- Fractional bits. -/
def fxP : Nat := 160
def fxOne : Int := 2 ^ fxP
/-- ln 2 and 1 / √(2π), rounded down to 160 fractional bits. -/
def fxLn2 : Int := 1013035739299659071135698605846798551586536899366
def fxInvSqrt2Pi : Int := 583054796007218040734191730443699882195345907504
def fxSqrt2OverPi : Int := 1166109592014436081468383460887399764390691815008
def fxMul (a b : Int) : Int := a * b / fxOne
def fxDiv (a b : Int) : Int := a * fxOne / b
/-- The fixed-point value of a finite number, rounded down. -/
def fxOf (neg : Bool) (m : Nat) (e : Int) : Int :=
  let a : Int := if 0 ≤ e + fxP then ((m * 2 ^ (e + fxP).toNat : Nat) : Int) else ((m / 2 ^ (-(e + fxP)).toNat : Nat) : Int)
  if neg then -a else a

/-- Σ terms of the exponential series at r from the n-th on, given the n-th term. -/
def fxExpSeries (r : Int) : Nat → Nat → Int → Int → Int
  | 0, _, _, acc => acc
  | fuel + 1, n, term, acc => fxExpSeries r fuel (n + 1) (fxMul term r / (n + 1 : Int)) (acc + term)

/-- exp x as (mantissa, k): mantissa / 2^160 · 2^k. -/
def fxExp (x : Int) : Int × Int :=
  let k := x / fxLn2
  (fxExpSeries (x - k * fxLn2) 45 0 fxOne 0, k)

/-- exp x in fixed point, for x not far above 0. -/
def fxExpV (x : Int) : Int :=
  let (m, k) := fxExp x
  if 0 ≤ k then m * 2 ^ k.toNat else m / 2 ^ (-k).toNat

/-- Σ z^(2n+1) / (2n+1), the series of atanh. -/
def fxAtanhSeries (z2 : Int) : Nat → Nat → Int → Int → Int
  | 0, _, _, acc => acc
  | fuel + 1, n, pow, acc => fxAtanhSeries z2 fuel (n + 2) (fxMul pow z2) (acc + pow / (n : Int))

/-- ln of m / 2^160 · 2^k for a mantissa in [1, 2). -/
def fxLn (m : Int) (k : Int) : Int :=
  let z := fxDiv (m - fxOne) (m + fxOne)
  2 * fxAtanhSeries (fxMul z z) 55 1 z 0 + k * fxLn2

/-- Σ x^(2n+1) / (1·3·5···(2n+1)), so that Φ(x) = 1/2 + φ(x) · Σ. -/
def fxPhiSeries (x2 : Int) : Nat → Nat → Int → Int → Int
  | 0, _, _, acc => acc
  | fuel + 1, n, term, acc => fxPhiSeries x2 fuel (n + 2) (fxMul term x2 / (n : Int)) (acc + term)

/-- φ and Φ of the normal distribution for |x| at most 14. -/
def fxDensity (x : Int) : Int := fxMul fxInvSqrt2Pi (fxExpV (-(fxMul x x) / 2))
def fxNormal (x : Int) : Int := fxOne / 2 + fxMul (fxDensity x) (fxPhiSeries (fxMul x x) 220 3 x 0)

def fxSigmoid (x : Int) : Int := fxDiv fxOne (fxOne + fxExpV (-x))
def fxTanh (x : Int) : Int := 2 * fxSigmoid (2 * x) - fxOne

/-- The unit in the last place of FP32 at ±n / d, as an exponent of 2. -/
def ulpExp (n d : Nat) : Int := gridExp .f32 n d

/-- Whether a finite FP32 value lies within `k` ulp of ±n / d, or, with `abs24`, within 2^-24. -/
def withinUlp (c : FNum) (neg : Bool) (n d k : Nat) (abs24 : Bool) : Bool :=
  match c with
  | .fin cn cm ce =>
    let (a, b) := fracOf cm ce
    let l : Int := (if cn then -1 else 1) * (a * d : Nat) - (if neg then -1 else 1) * (n * b : Nat)
    let u := ulpExp n d
    let (p, q) := fracOf k u
    decide (l.natAbs * q ≤ p * (b * d)) || (abs24 && decide (l.natAbs * 2 ^ 24 ≤ b * d))
  | _ => false

/-- A function value within its bound (R104): the free value of Config when it meets the bound, else the nearest
FP32 value. -/
def bounded (code : Nat) (args : List W32) (neg : Bool) (n d k : Nat) (abs24 : Bool) : W32 :=
  let c := Config.rowFn code args
  if withinUlp (ofF32 c) neg n d k abs24 then c else fracF32 neg n d

/-- `bounded` at a fixed-point value. -/
def boundedFx (code : Nat) (args : List W32) (v : Int) (k : Nat) (abs24 : Bool) : W32 :=
  bounded code args (decide (v < 0)) v.natAbs (2 ^ fxP) k abs24

/-- exp within k ulp, or with `abs24` 2^-24 (Tables 3-7 and 3-8), the free value that of function `code`. -/
def fexpBy (code k : Nat) (abs24 : Bool) (x : W32) : W32 :=
  match ofF32 x with
  | .nan => f32Nan
  | .inf neg => if neg then f32Zero else f32Inf
  | .fin neg m e =>
    if !neg && FNum.lt (.fin false 89 0) (.fin neg m e) then f32Inf
    else if neg && FNum.lt (.fin false 104 0) (.fin false m e) then f32Zero
    else
      let (v, j) := fxExp (fxOf neg m e)
      let (n, d) := fracOf v.natAbs (j - fxP)
      if overLargest .f32 v.natAbs (j - fxP) then f32Inf
      else if n * 2 ^ 149 < d then f32Zero
      else bounded code [x] false n d k abs24

/-- EXP of the row unit. -/
def fexp (x : W32) : W32 := fexpBy 0x06 2 false x

/-- log (Tables 3-7 and 3-8). -/
def flog (x : W32) : W32 :=
  match ofF32 x with
  | .nan => f32Nan
  | .inf neg => if neg then f32Nan else f32Inf
  | .fin neg m e =>
    if m = 0 then f32NegInf else if neg then f32Nan
    else
      let l := Nat.log2 m
      boundedFx 0x07 [x] (fxLn (((m * 2 ^ (fxP - l) : Nat)) : Int) (e + (l : Int))) 2 false

/-- Reciprocal (Tables 3-7 and 3-8). -/
def frecip (x : W32) : W32 :=
  match ofF32 x with
  | .nan => f32Nan
  | .inf neg => if neg then 0x80000000#32 else 0#32
  | .fin neg m e =>
    if m = 0 then BitVec.ofNat 32 (infBits .f32 neg)
    else
      let (a, b) := fracOf m e
      if (narrowFrac .f32 .rne neg b a).2 = .saturated then BitVec.ofNat 32 (infBits .f32 neg)
      else bounded 0x08 [x] neg b a 1 false

/-- Square root of n, rounded down, by fuel steps of Newton's rule from above. -/
def isqrtAux (n : Nat) : Nat → Nat → Nat
  | 0, x => x
  | fuel + 1, x => let y := (x + n / x) / 2; if y < x then isqrtAux n fuel y else x
def isqrt (n : Nat) : Nat := if n = 0 then 0 else isqrtAux n 400 (2 ^ (Nat.log2 n / 2 + 1))

/-- rsqrt (Tables 3-7 and 3-8). -/
def frsqrt (x : W32) : W32 :=
  match ofF32 x with
  | .nan => f32Nan
  | .inf neg => if neg then f32Nan else f32Zero
  | .fin neg m e =>
    if m = 0 then BitVec.ofNat 32 (infBits .f32 neg) else if neg then f32Nan
    else
      let (a, b) := fracOf m e
      bounded 0x09 [x] false (isqrt (b * 2 ^ 400 / a)) (2 ^ 200) 1 false

/-- Divide of the row unit: x × reciprocal(y), where that product of finite operands lies within the 2 ulp of Table 3-7, else the rounded
quotient (log entry 4). -/
def fdivRow (x y : W32) : W32 :=
  let v := fmul x (frecip y)
  match ofF32 x, ofF32 y with
  | .fin a m e, .fin b n k =>
    if n = 0 then v
    else
      let (p, q) := fracOf m e
      let (c, d) := fracOf n k
      if m ≠ 0 ∧ withinUlp (ofF32 v) (xor a b) (p * d) (q * c) 2 false then v else fdiv x y
  | _, _ => v

/-- A built-in activation's value by its fixed-point expression, within 4 ulp or 2^-24 (Table 3-7). `extra` holds the activation's
parameter, if it has one. DESIGN CHOICE (log entry 139): beyond |x| = 100 and at the infinities the value is the limit, which lies within
the bound of R104. -/
def actFx (code : Nat) (extra : List W32) (x : W32) (low high : W32) (f : Int → Int) : W32 :=
  match ofF32 x with
  | .nan => f32Nan
  | .inf neg => if neg then low else high
  | .fin neg m e =>
    if FNum.lt (.fin false 100 0) (.fin false m e) then (if neg then low else high)
    else boundedFx code (x :: extra) (f (fxOf neg m e)) 4 true

/-- u = √(2/π) (x + 0.044715 x³) of the tanh form of GELU, and its derivative (PRESUMED: the usual form; log entry 4). -/
def fxGeluU (x : Int) : Int := fxMul fxSqrt2OverPi (x + fxMul (fxMul x x) x * 44715 / 1000000)
def fxGeluU' (x : Int) : Int := fxMul fxSqrt2OverPi (fxOne + 3 * fxMul x x * 44715 / 1000000)
/-- Φ beyond 14 is 0 or 1 to within 2^-100. -/
def fxNormalC (x : Int) : Int := if 14 * fxOne < x then fxOne else if x < -14 * fxOne then 0 else fxNormal x
def fxDensityC (x : Int) : Int := if 14 * fxOne < x || x < -14 * fxOne then 0 else fxDensity x
def fxGeluTanh (x : Int) : Int := fxMul (x / 2) (fxOne + fxTanh (fxGeluU x))
def fxGeluTanhD (x : Int) : Int :=
  let t := fxTanh (fxGeluU x)
  (fxOne + t) / 2 + fxMul (fxMul (x / 2) (fxOne - fxMul t t)) (fxGeluU' x)

/-- σ, Φ and φ as the row unit forms them (log entry 4). -/
def fsigmoid (x : W32) : W32 := actFx 0x103 [] x f32Zero f32One fxSigmoid
def fnormal (x : W32) : W32 := actFx 0x118 [] x f32Zero f32One fxNormalC
def fdensity (x : W32) : W32 := actFx 0x119 [] x f32Zero f32Zero fxDensityC

end Sys2Proof.Machine
end

