-- ==== Sys2Proof/Machine/SMap.lean ====
section
/-!
DEFINITION. Reading and writing the sparse maps of `Word.lean`. A write replaces a run of keys and drops every value
equal to the default, so that maps that read alike are equal data.
-/
namespace Sys2Proof.Machine

/-- The value of key `i`: the first listed, else the default. -/
def sget {α : Type} (d : α) : SMap α → Nat → α
  | [], _ => d
  | (k, v) :: r, i => if k = i then v else sget d r i

/-- The pairs that give keys `i`, `i + 1`, … the listed values, defaults left out. -/
def scells {α : Type} [DecidableEq α] (d : α) : Nat → List α → SMap α
  | _, [] => []
  | i, v :: r => if v = d then scells d (i + 1) r else (i, v) :: scells d (i + 1) r

/-- Write the values at keys `i`, `i + 1`, …; every other key keeps its value. -/
def swrite {α : Type} [DecidableEq α] (d : α) (m : SMap α) (i : Nat) (vs : List α) : SMap α :=
  m.filter (fun c => decide (c.1 < i)) ++ scells d i vs ++ m.filter (fun c => decide (i + vs.length ≤ c.1))

/-- Write one key. -/
def sset {α : Type} [DecidableEq α] (d : α) (m : SMap α) (i : Nat) (v : α) : SMap α := swrite d m i [v]

/-- The values of keys `i` to `i + n - 1`. -/
def sread {α : Type} (d : α) (m : SMap α) (i n : Nat) : List α := (List.range n).map fun j => sget d m (i + j)

/-- Forget every key from `i` to `i + n - 1`. -/
def sclear {α : Type} (m : SMap α) (i n : Nat) : SMap α :=
  m.filter fun c => !(decide (i ≤ c.1) && decide (c.1 < i + n))

/-- The canonical form: keys rising, no listed default. -/
def swf {α : Type} [DecidableEq α] (d : α) : SMap α → Bool
  | [] => true
  | [(_, v)] => decide (v ≠ d)
  | (k, v) :: (k', v') :: r => decide (v ≠ d) && decide (k < k') && swf d ((k', v') :: r)

/-- The canonical form of a memory of bytes whose unlisted addresses read 0: HBM by physical place, CLM by byte. -/
def Memory.wf (m : SMap Byte) : Bool := swf 0 m

end Sys2Proof.Machine
end

