-- ==== Sys2Proof/Machine/State.lean ====
section
/-!
DEFINITION. The state of the module: every register, buffer, queue, mode and pin that the manual gives it, as plain
data. The numbered entries of the object dictionary live in `dict` and `octs`, keyed by index · 256 + subindex; the
values of `Tables.lean` are what an unlisted key reads as. What is internal to a unit stands in that unit's group.
-/
namespace Sys2Proof.Machine

/-- Device states (Table 15-7). -/
inductive Dev where
  | off | standby | init | start | ready | armed | run | pause | aborting | test | recovery | fault
deriving DecidableEq, Repr

/-- Device control: state, TEST phase (R447), what an arming selected, the reason of a RUN end, and start-up. -/
structure Ctl where
  dev : Dev
  /-- The state READY would have shown, in TEST only (R447). -/
  phase : Dev
  /-- The arming in force is a resume (R454). -/
  resuming : Bool
  /-- An accepted arming write has used the selection that `0x5000:03` shows (R454: for the next arming write). -/
  armSpent : Bool
  /-- The module has been LOCKED since 52 V was applied (the last transition reads 0 before it, Table 15-17). -/
  everLocked : Bool
  /-- Galena is held in reset: no valid image (R474). -/
  galenaHeld : Bool
  /-- The main side is powered. -/
  powered : Bool
  /-- Main rails in regulation, HBM trained, memory filled (stages `0x03` to `0x05` of Table 17-7 done). -/
  railsOk : Bool
  trained : Bool
  filled : Bool
  /-- The four main-side images are verified since START was entered (R473). -/
  firmwareOk : Bool
  /-- Kinds `0x02` to `0x05` with no valid image, until an install of the kind succeeds (R474). -/
  missing : List Nat
  /-- Fabric time or stand-in at which INIT and START were entered (durations of `0x2400`). -/
  initAt : FTime
  startAt : FTime
  /-- When the memory fill of this INIT began (R521). -/
  fillAt : FTime
  /-- Ports whose 3 s of R393 have passed in this START. -/
  portsPast : List Nat
deriving DecidableEq, Repr

/-- The power governor, supply and inputs (chapter 17) beside their entries. -/
structure Power where
  /-- Input voltage in mV at the last report; its samples of the last ms, the newest first (Table 17-8). -/
  mv : Nat
  mvs : List Nat
  /-- The condition of R491 in force: the supply-halt condition (source code), until SUPPLY_RECOVERED. -/
  supplyHalt : Option Nat
  /-- Hold-up of R492 is running. -/
  holdup : Bool
  /-- Nanoseconds above 58.0 V since 52 V, and since when the input is above it. -/
  highNs : Nat
  highSince : Option FTime
  /-- Nanoseconds with the clocks below 1,500 MHz since START, and since when. -/
  slowNs : Nat
  slowSince : Option FTime
  /-- Energy in microjoules since 52 V. -/
  energyUJ : Nat
  /-- Steps of the clock return of R505 still to come, and the time of the next. -/
  returnLeft : Nat
  returnAt : FTime
  /-- The arming ramp: start fabric time, W_r, u₀ and steps taken (R495). -/
  ramp : Option (FTime × Nat × Nat × Nat)
  /-- Steps of the taper still to come; its beginning, W_r and steps in all (R498). -/
  taperLeft : Nat
  taper : FTime × Nat × Nat
  /-- POWER_DOWN is under way: the rails are shed when u is 0 (R498). -/
  sheds : Bool
  /-- STANDBY follows the abort (Table 17-4, POWER_DOWN in RUN or ABORTING). -/
  downAfterAbort : Bool
  /-- Fabric time of each input's last event, and since START whether kinds STRETCHED, EXCEEDED were raised this step. -/
  haltEventAt : Option FTime
  throttleEventAt : Option FTime
  stretched : Bool
  exceeded : Bool
  /-- Power-up is refused until every die is below 60 °C (R507); auto power-up withheld until a POWER_UP (R521). -/
  thermalHold : Bool
  railHold : Bool
  /-- The last 1 µs draw, in W, and since when the 10 ms draw is below 3,400 W (R501). -/
  lastW : Nat
  below : Option FTime
  /-- When throttle last came into force (R503). -/
  throttleAt : Option FTime
  /-- When each die, by the subindex of its temperature, last gave its reading (Table 17-8). -/
  tempAt : SMap (Option FTime)
deriving DecidableEq, Repr

/-- An event raised and not yet recorded, or a record of the ring (Table 15-15) without its sequence number. -/
structure EvRec where
  code : W16
  device : W16
  time : FTime
  detail : List Byte
deriving DecidableEq, Repr

/-- Galena's event ring (R462): records oldest first, the count of records since 52 V, the ALERT_OUT pin. -/
structure Events where
  raised : List EvRec
  ring : List EvRec
  count : Nat
  alertLow : Bool
deriving DecidableEq, Repr

/-- An FDP session (R440 to R443). -/
structure Session where
  /-- Serial number of the session, so that a late response never goes to a later session of the slot. -/
  sid : Nat
  fingerprint : List Byte
  port : Port
  channel : W16
  /-- The version an accepted HELLO chose. -/
  chosen : Option Byte
  /-- No common version: carries nothing further (R442). -/
  dead : Bool
  mask : W16
  /-- The certificate that the module presented in the handshake and its signature there (R439, R470). -/
  presented : List Byte × List Byte
  last : Option W32
  /-- Kept responses, newest first, at most 64; `none` for a write whose entry is not durable yet. -/
  kept : List (W32 × Option (List Byte))
  lastRx : FTime
  /-- Messages sent and not yet taken by the line, oldest first; in band, those that no HOSTMSG carries yet. -/
  sent : List (List Byte)
  /-- Records of the session that have left in band (R407). -/
  records : Nat
deriving DecidableEq, Repr

/-- Sessions by slot (0 to 3 class M, 4 to 7 class H). -/
structure Fdp where
  sessions : SMap (Option Session)
  nextSid : Nat
deriving DecidableEq, Repr

/-- A write as Galena takes it: who, entry, the bytes attempted. -/
structure WriteReq where
  o : Origin
  index : Nat
  sub : Nat
  value : List Byte
  /-- Class P: the issue number of the mover descriptor that waits for the completion. -/
  moveId : Nat
  /-- Serial number of the session, port it was received on, and fingerprint of its peer; 0 for P. -/
  sid : Nat
  source : Nat
  print : List Byte
  /-- The descriptor that a region or encode command names, as it stood when the command arrived (R307). -/
  copy : Option (List Byte)
deriving DecidableEq, Repr

/-- A dictionary access that waits to be taken up: a write, or a READ of a session with its request (R437). -/
inductive Access where
  | write (w : WriteReq)
  | read (slot : Nat) (sid : Nat) (req : W32) (index sub : Nat)
deriving DecidableEq, Repr

/-- An access that waits, with the time it arrived at and its rank among those of one cycle: M 0, H 1, P 2 + core (R437). -/
structure Held where
  at_ : FTime
  rank : Nat
  what : Access
deriving DecidableEq, Repr

/-- Where the answer of a write goes: a session (slot, serial, request, status), or a mover descriptor. -/
inductive Answer where
  | fdp (slot : Fin 8) (sid : Nat) (req : W32) (status : Byte)
  | mover (core : Core) (id : Nat)
deriving DecidableEq, Repr

/-- The audit log (R457 to R461). -/
structure Audit where
  /-- Entries made since manufacture, durable and waiting. -/
  made : Nat
  /-- Chain of the last entry made. -/
  chain : List Byte
  /-- The flash ring: the 64 bytes of the durable entry with sequence q at key q mod 1,048,576. -/
  ring : SMap (List Byte)
  /-- Entries not yet durable, oldest first, with their answers. -/
  waiting : List (List Byte × Answer)
  failed : Bool
  /-- Kept checkpoints, newest first, at most 257: number and bytes. -/
  checkpoints : List (Nat × List Byte)
  /-- Checkpoint heads waiting for Flint's signatures, oldest first. -/
  unsigned : List (Nat × List Byte)
  /-- Accesses that wait to be taken up, in their order: behind 64 entries that are not durable (R458), or behind a region command
  whose unit is full (R309, R437). -/
  held : List Held
  /-- The time of arrival and the rank of the write that was taken up last (R437). -/
  taken : Option (FTime × Nat)
deriving DecidableEq, Repr

/-- Flint's stores beside the entries (chapter 16). -/
structure Trust where
  /-- Image bytes by kind · 4 + slot. -/
  images : SMap (List Byte)
  /-- The chunk buffers of an image and of a token, by byte. -/
  chunks : SMap Byte
  token : SMap Byte
  /-- The challenge in force has not served a RELEASE. -/
  challengeLive : Bool
  /-- The enrolled owner's RSA modulus and SLH-DSA key, 432 bytes; none without an owner (R480). -/
  owner : List Byte
  /-- What Flint signs: 0 nothing, 1 a checkpoint, 2 a report (R470). -/
  signing : Nat
  /-- Report body waiting for signatures; report as readable. -/
  reportBody : Option (List Byte)
  report : List Byte
  /-- Install in progress: kind and image; the slot is chosen as it is written (R484, R485). -/
  install : Option (Nat × List Byte)
  /-- While the main side starts: the preferred slot of each kind, as it was at the POWER_UP or RESTART (R485). -/
  startSlots : SMap (Option Nat)
  /-- The measurement engine is hashing a tab (R477). -/
  hashing : Bool
  /-- The measurement engine's hash of the run that is paused (R477). -/
  pausedHash : Option (List Byte)
  /-- An accepted tab whose hash is still under way though its run is paused or over. -/
  owedTab : Option Nat
  /-- Counter of Flint's random draws. -/
  draws : Nat
deriving DecidableEq, Repr

/-- A port's memory of the time exchange (R42 to R44). Times are in units of 2^-16 ns. -/
structure TimePort where
  seq : W16
  /-- Own messages sent: sequence and t1. -/
  sentAt : List (W16 × Int)
  /-- The peer's last message: sequence and our receive time. -/
  peerSeq : Option W16
  peerRx : Int
  /-- The neighbour's last advertised root, priority, hops and flags, while the port delivers time. -/
  advert : Option (W16 × Byte × Byte × Byte)
  sender : W16
  /-- Since the port entered service its neighbour has shown the root that this module followed (R37, R41). -/
  mine : Bool
deriving DecidableEq, Repr

/-- The timebase and servo (chapter 2) beside their entries. -/
structure TimeS where
  ports : SMap TimePort
  /-- Consecutive exchanges within ±2 ns (Table 2-2). -/
  good : Nat
  /-- The slew of R50 is under way: the bound is fixed. -/
  slewing : Bool
  /-- When HOLDOVER was entered, and the rate in force then, the one last used while LOCKED (R49). -/
  holdAt : FTime
  holdRate : Nat
  /-- UNLOCKED until START is passed (R41, R50). -/
  stuck : Bool
  /-- When the listening of R38 began: at START, and anew when ACQUIRING falls back to FREE (R49). -/
  listenAt : FTime
  isRoot : Bool
  /-- Root priority of the root followed, whose address `0x3000:05` holds (Table 2-1). -/
  rootPrio : Byte
  /-- Values of 0x3010 in force since START (R73). -/
  prio : Byte
  ppsUse : Byte
  cable : W32
  /-- Fabric time of the last accepted pulse, of the last reports of R53 and R54, and counts since them. -/
  ppsLast : Option FTime
  oowAt : Option FTime
  oowSince : Nat
  mergedAt : Option FTime
  mergedSince : Nat
  ppsLostRaised : Bool
  /-- Pulses that a module counts while it ignores PPS_IN (R52); no entry shows them. -/
  ppsCount : Nat
  /-- The current upstream neighbour's device address. -/
  neighbour : W16
  /-- The followed root has changed, and no offset to the upstream neighbour has been measured since (R41). -/
  changed : Bool
  /-- PPS_OUT: the whole second at which the last pulse began (`State.ppsHigh` is the level of the pin). -/
  ppsOut : Option FTime
deriving DecidableEq, Repr

/-- One port (chapter 13) beside its entries of 0x3300 to 0x3305. -/
structure PortS where
  /-- Next sequence number to give, and next expected (R383), modulo 2,048. -/
  txSeq : Nat
  rxSeq : Nat
  /-- Replay buffer, oldest first: the flit and how often it was resent. -/
  replay : List (Flit × Nat)
  /-- Index in the replay buffer of the next flit to resend, while a replay is under way. -/
  resend : Option Nat
  /-- Windows in a row that failed (R381). -/
  failures : Nat
  /-- The receiver discards until the expected flit arrives (R384); a RETRY waits for a slot. -/
  discarding : Bool
  retryDue : Bool
  /-- Credits held toward the peer, credits owed to it, flits held in the open buffer, and how often each VC was
  passed over, per VC. -/
  credits : List Nat
  owed : List Nat
  held : List Nat
  passed : List Nat
  /-- Flits waiting to leave: TIME and ABORT; TRAIN and MAP; and open flits per VC, oldest first. SCHED flits are formed in
  their slot from the collective engines' state. -/
  urgent : List Flit
  control : List Flit
  /-- A relayed flit carries the port and VC whose buffer place it holds until it leaves. -/
  vcs : List (List (Flit × Option (Nat × Nat)))
  /-- Open flits received that wait in their VC for room (R399). -/
  waiting : List Flit
  /-- The flit sent in the last flit slot. -/
  sentFlit : Option Flit
  /-- The peer's ADVERTISE, the version chosen and confirmed by us, and the peer's CONFIRM. -/
  advert : Option TrainP
  chosen : Option Byte
  confirmed : Option Byte
  /-- A CONFIRM of ours has left. -/
  confirmSent : Bool
  fingerprint : W64
  adapter : Bool
  /-- A hold event was raised in this hold (R391); the held port trains again, from the retraining of R391 on. -/
  holdRaised : Bool
  retraining : Bool
  /-- Left service in RUN: no SCHED flits before the next start (R394). -/
  noSched : Bool
  /-- Fabric times of the replays of the last second and of the last LINK_DEGRADED (R411). -/
  replayTimes : List FTime
  degradedAt : Option FTime
  /-- The initial credits per VC that this training advertises, once they are chosen (R387). -/
  grants : List Nat
  /-- Schedule set in force: slot and the fabric time of its capo point (R60, R64). -/
  inForce : Option (Nat × FTime)
deriving DecidableEq, Repr

/-- A transfer open at this module as destination (R399, R147): bytes of it in all, committed so far, the landing
word's core and semaphore, and, for a local transfer, nothing is answered. -/
structure Transfer where
  total : Nat
  committed : Nat
  land : Option (Nat × Nat)
  /-- The landing units advanced so far, and the bytes of segments answered. -/
  landed : Nat
  answered : Nat
deriving DecidableEq, Repr

/-- A segment being received (R398), keyed by port, VC, source and tag. -/
structure Segment where
  port : Port
  vc : Nat
  src : W16
  tag : BitVec 12
  transfer : W16
  base : Nat
  bytes : Nat
  /-- Bytes received so far and the next flit index. -/
  got : Nat
  index : Nat
  /-- Bytes committed so far. -/
  done : Nat
  /-- Answered at once: the segment was refused and its bytes are dropped (R400). -/
  refused : Bool
  /-- Bytes received and not committed: address and value. -/
  pendingBytes : List Byte
  /-- Where the ACK goes: the response VC. -/
  complete : Bool
deriving DecidableEq, Repr

/-- Kinds of the module's own requests (R400). -/
inductive ReqKind where
  | segment | read | post | hostmsg
deriving DecidableEq, Repr

/-- An own request that waits for its answer (R401), keyed by tag. -/
structure Request where
  kind : ReqKind
  dst : W16
  core : Core
  /-- Mover descriptor, 0 for a POST. -/
  moveId : Nat
  deadline : FTime
  /-- The global address asked, for the fault record. -/
  addr : Nat
  bytes : Nat
  /-- READ: where the bytes go in the descriptor's payload, the bytes got and the status of the first RESP. Segment: its transfer number. -/
  offset : Nat
  got : List Byte
  status : Option Byte
deriving DecidableEq, Repr

/-- A HOSTMSG being received: port, source, tag, channel, message bytes, bytes so far. -/
structure HostMsg where
  port : Port
  src : W16
  tag : BitVec 12
  channel : W16
  bytes : Nat
  got : List Byte
deriving DecidableEq, Repr

/-- Links, routes and open transfers (chapter 13). -/
structure Links where
  ports : SMap PortS
  /-- Failed laser sources. -/
  lasers : List Nat
  /-- The latest map of each course position (72 bytes, R395). -/
  maps : SMap (List Byte)
  transfers : SMap (Option Transfer)
  segments : List Segment
  requests : SMap (Option Request)
  hostMsgs : List HostMsg
  /-- Host messages delivered to Galena: channel and bytes. -/
  galenaIn : List (W16 × List Byte)
  /-- Routes in progress (R396): source, destination, tag, kind class (0 segment, 1 response, 2 message), and the port that
  the first flit took, 99 where it was discarded. -/
  routes : List (W16 × W16 × BitVec 12 × Nat × Nat)
  nextTransfer : Nat
deriving DecidableEq, Repr

/-- A transmitting entry (SEND or ONWARD) in progress (R415 to R417), keyed by its entry index. -/
structure SendS where
  /-- Instances started since the start fabric time. -/
  count : Nat
  /-- An instance is in progress: its ordinal; the first repetition since the capo point not used yet; its flits sent. -/
  active : Bool
  ordinal : Nat
  rep : Nat
  sent : Nat
  /-- Memory source: the instance is being read; its bytes once read, trailer included. -/
  reading : Bool
  bytes : List Byte
  /-- Instances of memory read in full (the gate order of R417). -/
  readDone : Nat
  /-- Memory source: instances read, or being read, before the flits of the one in progress have left: ordinal and bytes. -/
  ahead : List (Nat × List Byte)
deriving DecidableEq, Repr

/-- A receiving stream: RECV, RELAY or non-LOCAL INPUT (R418 to R420), keyed by its entry index. -/
structure RecvS where
  /-- Instances begun since the start fabric time. -/
  count : Nat
  /-- The instance in progress: flits got, bytes got, discarded or malformed. -/
  active : Bool
  got : Nat
  bytes : List Byte
  dropped : Bool
  /-- Landing units advanced of the instance in progress. -/
  landed : Nat
  /-- RELAY and INPUT: the slots held, oldest first: ordinal, index, LAST, payload. -/
  slots : List (Nat × Nat × Bool × List Byte)
deriving DecidableEq, Repr

/-- A GROUP in progress (R422, R423), keyed by its entry index: group instances finished, blocks of the instance in
progress reduced, its output bytes, its NONFINITE so far, whether its LOCAL inputs have started. -/
structure GroupS where
  done : Nat
  blocks : Nat
  out : List Byte
  /-- Per input, in order, the trailer bytes that the last data flit carried, once that block is reduced. -/
  tails : List (List Byte)
  nonfinite : Bool
  /-- LOCAL inputs read: entry index, ordinal, bytes. -/
  locals : List (Nat × Nat × List Byte)
  /-- Whole output instances that a SEND of source GROUP has not started yet. -/
  ready : List (List Byte)
deriving DecidableEq, Repr

/-- A staged instance waiting for its copy (R426): entry index, ordinal, capo entry index at arrival. -/
structure Staged where
  entry : Nat
  ordinal : Nat
  capo : Nat
deriving DecidableEq, Repr

/-- The collective engines (chapter 14). -/
structure Coll where
  /-- The collective schedule image: 128-bit entries. -/
  image : List Nat
  /-- Stage table: arena base, size, micro-batches. -/
  stages : List (Nat × Nat × Nat)
  sends : SMap SendS
  recvs : SMap RecvS
  groups : SMap GroupS
  /-- RECORD store: the version kept against a shard number (R418, Table 14-6). -/
  record : SMap (Option W32)
  staged : List Staged
  /-- Highest arena offset + 1 of each stage in this step (R428). -/
  high : SMap Nat
  /-- The vote: inputs of VOTE groups landed whole; the OR (R423, R266). -/
  voteOr : W32
  voteDone : List Nat
deriving DecidableEq, Repr

/-- A tab as the arming loaded it (R448, R449), and the run made of it. -/
structure Run where
  /-- Tab base; start fabric time, the requested one while arming. -/
  tab : Nat
  start : FTime
  /-- Checks and loading are done (R452); the arming has failed or passed. -/
  checked : Bool
  /-- Schedule sets by port · 4 + slot: the fret entries. -/
  sets : SMap (List W32)
  /-- Capo table: offset, kind, slot, port mask. -/
  capos : List (Nat × Nat × Nat × BitVec 48)
  /-- Index of the next capo entry. -/
  nextCapo : Nat
  /-- The 32-byte entries of the shard table (Table 8-4), as loaded. -/
  shards : List (List Byte)
  /-- Shape slots of the tab and planned maxima (also in 0x5110). -/
  shapeSlots : Nat
  /-- PAUSE requested (R162); the pause point was reached and the drain is under way since. -/
  pauseAsked : Bool
  drainSince : Option FTime
  drained : Bool
  /-- The measurement recorded for the run. -/
  measurement : Option (List Byte)
  /-- Raise times of the aborts raised or passed on for the step, and for the step just committed (R69, R71). -/
  aborts : List FTime
  prevAborts : List FTime
  /-- A deferred abort is held for the step: originator, reason, raise time. -/
  deferred : Option (W16 × W16 × FTime)
  /-- Commit capo of the step just committed, and its step number. -/
  lastCommit : Option (FTime × W32)
  /-- Verdict taken for the coming commit: the outcome word; none before it. -/
  verdict : Option W32
  /-- The step's non-finite flag (R249). -/
  nonfinite : Bool
  /-- BLOCK_OVERFLOW was raised in this step, and the step's count (R220). -/
  blockRaised : Bool
  blockCount : Nat
  blockCore : Nat
  blockIndex : Nat
  /-- The digest walk of the step is done; own digests by shard · 65,536 + block (R261). -/
  walked : Bool
  digests : SMap W64
  /-- Divergent blocks to repair: shard index and block; and those repaired. -/
  divergent : List (Nat × Nat)
  repaired : List (Nat × Nat)
  /-- Blocks that repair streams of this module have carried: entry, shard index and block (R263). -/
  repairsSent : List (Nat × Nat × Nat)
  /-- Digest records that came before the walk was done, to be compared after it (R262). -/
  early : List (List Byte)
  diverged : Bool
  voteRepaired : Bool
  /-- Shard walk in progress (R271): command, shard index. -/
  walk : Option (Nat × Nat)
  /-- Streams of this step marked late: port and stream. -/
  late : List (Nat × Nat)
  /-- `SHARD_VERSION`, and a run-time collective fault, were recorded in this run (first of the run kept). -/
  versionFault : Bool
  collFault : Bool
deriving DecidableEq, Repr

/-- Counts for one numeric counter slot (R229, Table 7-7) and the destination format. -/
structure SlotCount where
  slot : Nat
  total : Nat
  zero : Nat
  saturated : Nat
  nonfinite : Nat
  vanished : Nat
  format : Nat
deriving DecidableEq, Repr

/-- One outstanding pass, row function or cast of a core (R95, R96): its results, computed at issue, are written when
it retires, in its unit's order. -/
structure Pass where
  id : Nat
  /-- 0 array, 1 matrix-vector unit, 2 row unit. -/
  unit : Nat
  /-- The writes: (space, address, bytes), spaces of `Machine/Core memory`: 0 CLM bytes, 1 wide-buffer words,
  2 accumulator words. -/
  writes : List (Nat × Nat × List W32)
  clm : List (Nat × List Byte)
  /-- Locations read: space, first, count; and written, for the holds of R95. -/
  reads : List (Nat × Nat × Nat)
  dests : List (Nat × Nat × Nat)
  post : Option Sem
  /-- Cycle counts added at retirement: busy cycles of its unit. -/
  busy : Nat
  counts : List SlotCount
  /-- An overwriting pass in skip mode (Table 4-5, R128). -/
  skipped : Bool
deriving DecidableEq, Repr

/-- A mover descriptor of a core (chapter 6): the 64 bytes captured at issue, its pad value and POST, and its progress. -/
structure Move where
  id : Nat
  desc : List Byte
  pad : W32
  clmAddr : Nat
  post : Option Sem
  transfer : W16
  /-- The mover has begun it; it is complete at the source (R117). -/
  started : Bool
  retired : Bool
  /-- Reads of a remote source not yet requested: global address, bytes, place in `payload`; the bytes read so far; READs
  not answered yet. -/
  reads : List (Nat × Nat × Nat)
  payload : List Byte
  awaiting : Nat
  /-- Destination runs not yet committed (local) or not yet sent (remote): global address and bytes. -/
  writes : List (Nat × List Byte)
  /-- Segments that wait for their ACK. -/
  remote : Nat
  /-- Writes to the dictionary map still to be made, in order; and those that wait for their completion. -/
  mapWrites : List (Nat × Nat × List Byte)
  mapWaits : Nat
  /-- Page-table entries whose in-flight count it holds (R293): their local addresses. -/
  granules : List Nat
deriving DecidableEq, Repr

/-- What a core waits for (R157 to R160, R126, R132 to R134). -/
inductive WaitFor where
  | none
  | sem (s : Sem) (target : W64)
  | time (t : FTime)
  /-- A SHAPE: its slot, global address and register; for a remote address, the value once its RESP is in. -/
  | shape (slot : Nat) (addr : Nat) (d : Reg) (got : Option W32)
  | take (d : Reg) (counter : Nat) (want : Nat) (epoch : W16)
  | wcbind (d : Reg) (counter : Nat)
  | wcinit (counter : Nat) (limit : W32)
  /-- A HALT has issued; queued instructions have still to retire. -/
  | halt
deriving DecidableEq, Repr

/-- A loop level of the loop stack (R123). -/
structure LoopL where
  body : Nat
  planned : W32
  live : W32
  index : W32
  counter : Option (Fin 4)
  skipping : Bool
deriving DecidableEq, Repr

/-- One core (chapters 3 to 7). -/
structure CoreS where
  regs : List W64
  counters : List W32
  loops : List LoopL
  pads : List W32
  /-- Shape slots: accepted value. -/
  shapes : SMap W32
  pc : Nat
  /-- Sequencer status (R121, 0x5141). -/
  status : Nat
  wait : WaitFor
  waitSince : FTime
  waitRaised : Bool
  /-- Instruction store and mode store. -/
  program : List W64
  modes : List W64
  landing : BitVec 48
  sems : SMap W32
  /-- Core-local memory by byte; wide buffer and accumulator by row · 128 + column. -/
  clm : SMap Byte
  wide : SMap W32
  acc : SMap W32
  /-- Array latches, 128 lane rows of 256 bytes each (R84), and the last pass's mode word (R87, R160). -/
  active : SMap Byte
  shadow : SMap Byte
  lastMode : Option W64
  /-- Mode word of the previous array pass, run or skipped. -/
  prevMode : Option W64
  /-- Rows streamed since the last swap marker, behind which the next operand loads (R84, R111). -/
  rowsSince : Nat
  /-- MX scale bytes of the active operand, lane row by lane row (R225). -/
  activeScales : List Byte
  /-- Activation table images 0 to 3 as loaded (R109). -/
  acts : SMap (List Byte)
  passes : List Pass
  moves : List Move
  /-- Rows of passes to the row unit that no FROMPASS has consumed (R119), oldest first: rows, columns, values. -/
  fromPass : List (Nat × Nat × List W32)
  nextId : Nat
  /-- Posts of POST fields and POST instructions not yet applied, in program order: id, semaphore. -/
  posts : List (Nat × Sem)
  /-- Counter slots: total, zero, saturated, non-finite, vanished, format by slot · 8 + field. -/
  slots : SMap Nat
  /-- Per core, what was raised once: stale epochs, misdirected semaphores; and whether its fault image is written (R166). -/
  stale : List (Nat × Nat)
  misdirected : List Nat
  saved : Bool
deriving DecidableEq, Repr

/-- Home-die work counter (R132 to R136): value, limit, epoch. Values also show in 0x5120 to 0x512B. -/
structure WorkC where
  value : Nat
  limit : Nat
  epoch : Nat
deriving DecidableEq, Repr

/-- Stored code of one unit or word that differs from that of its data (chapter 18). -/
structure RawCode where
  /-- Check symbols and tag (HBM) or the check byte (SRAM), and the stored data if it differs from what decodes. -/
  data : List Byte
  check : List Byte
deriving DecidableEq, Repr

/-- A valid line of a shared cache (R179): the number of its 256 physical bytes, whether it is dirty, and its 64-bit words
whose stored code does not decode (R531, R533). The model keeps the data itself in `Mem.hbm`. -/
structure CacheLine where
  line : Nat
  dirty : Bool
  bad : List Nat
deriving DecidableEq, Repr

/-- Memory, its protection and the shared cache beside their entries (chapters 6 and 18). -/
structure Mem where
  /-- HBM by physical byte: stack · 103,079,215,104 + offset (R176). -/
  hbm : SMap Byte
  /-- Units of HBM poisoned or with stored errors, by physical unit number. -/
  hbmRaw : SMap (Option RawCode)
  /-- SRAM words with stored errors, of kinds `0x02` to `0x04` and `0x06` to `0x09` (Table 18-2): kind · 2^48 + unit · 2^24 + word number;
  and those waiting to be rewritten (R530). -/
  sramRaw : SMap (Option RawCode)
  rewrites : List Nat
  /-- Locations written raw (R540): kind and key (physical unit, or SRAM key). -/
  rawList : List (Nat × Nat)
  /-- Repair candidates (R541): kind, origin of Table 18-4, unit, location key. -/
  candidates : List (Nat × Nat × Nat × Nat)
  /-- INITs since manufacture (Table 18-4). -/
  inits : Nat
  /-- Fuse map (Table 18-4): 16-byte entries. -/
  fuses : List (List Byte)
  /-- Scrubbers: laps done since the fill by scrubber, when the lap in progress began, overdue raised, locations corrected last lap. -/
  laps : SMap Nat
  lapStart : SMap FTime
  overdue : List Nat
  corrected : List (Nat × Nat)
  correctedLast : List (Nat × Nat)
  /-- ECC_CORRECTED by kind · 65,536 + unit: time of the last event and corrections since (R532). -/
  eccEvents : List (Nat × FTime × Nat)
  /-- Fabric times of the ECC_UNCORRECTED events of the last second (R534), and of the last SCRUB_LAP (R536). -/
  uncorrected : List FTime
  lapEvent : Option FTime
  /-- Locations whose scrub finding was reported (R537). -/
  scrubbed : List Nat
  /-- Raw data and check bits of 0x4600:03, :04 live in `octs`. The valid lines of the four shared caches, the most recently
  used first (R179). -/
  cache : List CacheLine
  /-- Step's lookups and hits by die (0x4023). -/
  stepLookups : SMap Nat
  stepHits : SMap Nat
  /-- Lend windows whose violation was raised for a device in this run: window · 65,536 + device. -/
  lendRaised : List Nat
deriving DecidableEq, Repr

/-- Key/value page slots (chapter 9): state 0 closed, 1 open, 2 closing; page exponent; mapped pages; pages freed while
reads are in flight. -/
structure PageSlot where
  st : Nat
  e : Nat
  mapped : Nat
  pending : Nat
deriving DecidableEq, Repr

/-- The page slots; page-table entries with their in-flight counts, and ownership records, live in HBM (R287). -/
structure Pages where
  slots : SMap PageSlot
deriving DecidableEq, Repr

/-- A queued region command (R307 to R310). -/
structure RegionCmd where
  core : Option Core
  op : Nat
  desc : List Byte
  /-- False for the command that an abort stops: its outputs are undefined and it lands nothing (R311). -/
  live : Bool
deriving DecidableEq, Repr

/-- A sample of a stream's reorder window (R339 to R344). -/
structure Sample where
  /-- Sample number in the stream; index of the descriptor in its list; from the reserve list. -/
  number : Nat
  index : Nat
  reserve : Bool
  /-- Attempts dispatched, the present one included. -/
  attempts : Nat
  desc : List Byte
  /-- REPLACE was in force when the present attempt was dispatched (R343). -/
  replace : Bool
  /-- 0 in decoding, 1 finished or rejected, 2 a replacement that waits for a decode pipe. -/
  st : Nat
  at_ : FTime
  /-- Nanoseconds from dispatch to finish. -/
  took : Nat
  instance_ : Option Nat
  pipe : Option Nat
  /-- Reason of the last failed attempt (Table 11-8), 0 for none; whether that attempt timed out; the sample is valid. -/
  reason : Nat
  timedOut : Bool
  valid : Bool
  /-- The bytes of the batch slot; extents 0 and 1 of the slot record; actual rows (Table 11-9). -/
  result : List Byte
  extents : Nat × Nat
  rows : Nat
deriving DecidableEq, Repr

/-- A batch of a stream's ring, begun and not released (R345 to R349). -/
structure Batch where
  number : Nat
  full : Bool
  delivered : Bool
  emitted : Nat
  valid : Nat
  rejected : Nat
  rows : Nat
  mask : Nat
  replaced : Bool
  timedOut : Bool
deriving DecidableEq, Repr

/-- One media stream (chapter 11) beside its entries. -/
structure Stream where
  on : Bool
  stopped : Bool
  published : Nat
  reservePublished : Nat
  /-- The stage programs as the enable checked them (2,048 bytes). -/
  program : List Byte
  /-- Main-list and reserve-list descriptors dispatched. -/
  next : Nat
  reserveNext : Nat
  window : List Sample
  /-- Batches begun and not released, oldest first; batches begun since the enable. -/
  batches : List Batch
  nextBatch : Nat
  owed : Nat
  /-- What was raised or counted once in a batch: event code, or 0 for a ring wait, and batch number. -/
  once : List (Nat × Nat)
deriving DecidableEq, Repr

/-- The media front end: its streams, and the stream that is served next (R339). -/
structure Mfe where
  streams : SMap Stream
  nextStream : Nat
deriving DecidableEq, Repr

/-- An encode context that is encoding (chapter 12). -/
structure EncCtx where
  desc : List Byte
  /-- Frames encoded and source frames decoded. -/
  frames : Nat
  decoded : Nat
  /-- The source's frame size: width, height, monochrome, bit depth, once a clip's first header is parsed. -/
  size : Option (Nat × Nat × Bool × Nat)
  /-- A decoded source frame that no encode pipe has taken: Y, Cb and Cr. -/
  waiting : Option (List Nat × List Nat × List Nat)
  /-- The frame that an encode pipe has taken. -/
  coding : Option (List Nat × List Nat × List Nat)
  /-- Its size: width, height, monochrome, bit depth. -/
  codingSize : Option (Nat × Nat × Bool × Nat)
  /-- How the source ended: 0 not yet, 1 its last frame is decoded, 3 it failed (Table 12-7). -/
  ended : Nat
  qpI : Int
  qpP : Int
  largest : Nat
  start : FTime
  /-- Since when the context waits for an encode pipe. -/
  readyAt : FTime
  /-- The descriptor and the bitstream written so far. -/
  history : List Byte
deriving DecidableEq, Repr

/-- Bitstream bytes written. -/
def EncCtx.bytes (x : EncCtx) : Nat := x.history.length - 64

/-- The video engine: contexts; what each decode pipe does (0 free; 1 an MFE clip: stream, sample; 2 a transcode source frame:
context, frame); the context that each encode pipe encodes, and the one that it last ran. -/
structure Video where
  ctxs : SMap (Option EncCtx)
  decode : List (Nat × Nat × Nat)
  encode : List (Option Nat)
  lastCtx : List (Option Nat)
deriving DecidableEq, Repr

/-- The whole module. -/
structure State where
  /-- Commands that wait, first in, first out. -/
  pending : List Instr
  /-- The module's copy of fabric time (R11). -/
  now : FTime
  /-- The model's own field: how many free values were drawn (log entry 3). -/
  freeCtr : Nat
  /-- Numeric entries of the object dictionary that differ from their defaults: key index · 256 + subindex. -/
  dict : SMap (Option Nat)
  /-- OCTETS and STRING entries that were written. -/
  octs : SMap (Option (List Byte))
  ctl : Ctl
  power : Power
  ev : Events
  fdp : Fdp
  audit : Audit
  trust : Trust
  time : TimeS
  links : Links
  coll : Coll
  run : Run
  cores : SMap CoreS
  work : SMap WorkC
  mem : Mem
  pages : Pages
  regions : SMap (List RegionCmd)
  mfe : Mfe
  video : Video
deriving DecidableEq, Repr

/-- Why the module stops. -/
inductive Fault where
  /-- Raised by POWER_APPLIED, SUPPLY_HALT and GOVERNOR_TICK for an input voltage beyond the absolute ratings of Table 19-6, where no statement of the manual binds the device (R557). Safe. -/
  | outsideRatings
deriving DecidableEq, Repr

/-- Why a command has no meaning here. -/
inductive Refusal where
  /-- Raised by an arm of `exec` that has no meaning yet. Safe. -/
  | notModelled (mnemonic : String)
  /-- Raised by a command whose operands no command of the manual can carry (R120: an instruction that arming
  refuses; `WellFormed.lean`). Safe. -/
  | illFormed
deriving DecidableEq, Repr

/-- A core at reset (Table 4-1): all zero, idle. -/
def CoreS.reset : CoreS where
  regs := List.replicate 16 0
  counters := List.replicate 4 0
  loops := []
  pads := [0, 0xFF800000#32, 0, 0]
  shapes := []
  pc := 0
  status := 1
  wait := .none
  waitSince := 0
  waitRaised := false
  program := []
  modes := []
  landing := 0
  sems := []
  clm := []
  wide := []
  acc := []
  active := []
  shadow := []
  lastMode := none
  prevMode := none
  rowsSince := 0
  activeScales := []
  acts := []
  passes := []
  moves := []
  fromPass := []
  nextId := 0
  posts := []
  slots := []
  stale := []
  misdirected := []
  saved := false

def PortS.reset : PortS where
  txSeq := 0
  rxSeq := 0
  replay := []
  resend := none
  failures := 0
  discarding := false
  retryDue := false
  credits := List.replicate 6 0
  owed := List.replicate 6 0
  held := List.replicate 6 0
  passed := List.replicate 6 0
  urgent := []
  control := []
  vcs := List.replicate 6 []
  waiting := []
  sentFlit := none
  advert := none
  chosen := none
  confirmed := none
  confirmSent := false
  fingerprint := 0
  adapter := false
  holdRaised := false
  retraining := false
  noSched := false
  replayTimes := []
  degradedAt := none
  grants := []
  inForce := none

def TimePort.reset : TimePort where
  seq := 0
  sentAt := []
  peerSeq := none
  peerRx := 0
  advert := none
  sender := 0xFFFF#16
  mine := false

def SendS.reset : SendS where
  count := 0
  active := false
  ordinal := 0
  rep := 0
  sent := 0
  reading := false
  bytes := []
  readDone := 0
  ahead := []

def RecvS.reset : RecvS where
  count := 0
  active := false
  got := 0
  bytes := []
  dropped := false
  landed := 0
  slots := []

def GroupS.reset : GroupS where
  done := 0
  blocks := 0
  out := []
  tails := []
  nonfinite := false
  locals := []
  ready := []

def WorkC.reset : WorkC := { value := 0, limit := 0, epoch := 0 }
def PageSlot.reset : PageSlot := { st := 0, e := 0, mapped := 0, pending := 0 }

def Stream.reset : Stream where
  on := false
  stopped := false
  published := 0
  reservePublished := 0
  program := []
  next := 0
  reserveNext := 0
  window := []
  batches := []
  nextBatch := 0
  owed := 0
  once := []

def Ctl.reset : Ctl where
  dev := .off
  phase := .ready
  resuming := false
  armSpent := false
  everLocked := false
  galenaHeld := false
  powered := false
  railsOk := false
  trained := false
  filled := false
  firmwareOk := false
  missing := []
  initAt := 0
  startAt := 0
  fillAt := 0
  portsPast := []

def Power.reset : Power where
  mv := 0
  mvs := []
  supplyHalt := none
  holdup := false
  highNs := 0
  highSince := none
  slowNs := 0
  slowSince := none
  energyUJ := 0
  returnLeft := 0
  returnAt := 0
  ramp := none
  taperLeft := 0
  taper := (0, 0, 0)
  sheds := false
  downAfterAbort := false
  haltEventAt := none
  throttleEventAt := none
  stretched := false
  exceeded := false
  thermalHold := false
  railHold := false
  lastW := 0
  below := none
  throttleAt := none
  tempAt := []

def Run.reset : Run where
  tab := 0
  start := 0
  checked := false
  sets := []
  capos := []
  nextCapo := 0
  shards := []
  shapeSlots := 0
  pauseAsked := false
  drainSince := none
  drained := false
  measurement := none
  aborts := []
  prevAborts := []
  deferred := none
  lastCommit := none
  verdict := none
  nonfinite := false
  blockRaised := false
  blockCount := 0
  blockCore := 0xFFFF
  blockIndex := 0
  walked := false
  digests := []
  divergent := []
  repaired := []
  repairsSent := []
  early := []
  diverged := false
  voteRepaired := false
  walk := none
  late := []
  versionFault := false
  collFault := false

def Links.reset : Links where
  ports := []
  lasers := []
  maps := []
  transfers := []
  segments := []
  requests := []
  hostMsgs := []
  galenaIn := []
  routes := []
  nextTransfer := 0

def Coll.reset : Coll where
  image := []
  stages := []
  sends := []
  recvs := []
  groups := []
  record := []
  staged := []
  high := []
  voteOr := 0
  voteDone := []

def TimeS.reset : TimeS where
  ports := []
  good := 0
  slewing := false
  holdAt := 0
  holdRate := 0
  stuck := false
  listenAt := 0
  isRoot := false
  rootPrio := 0
  prio := 0x80
  ppsUse := 0
  cable := 0
  ppsLast := none
  ppsCount := 0
  oowAt := none
  oowSince := 0
  mergedAt := none
  mergedSince := 0
  ppsLostRaised := false
  neighbour := 0xFFFF
  changed := false
  ppsOut := none

def Mem.reset : Mem where
  hbm := []
  hbmRaw := []
  sramRaw := []
  rewrites := []
  rawList := []
  candidates := []
  inits := 0
  fuses := []
  laps := []
  lapStart := []
  overdue := []
  corrected := []
  correctedLast := []
  eccEvents := []
  uncorrected := []
  lapEvent := none
  scrubbed := []
  cache := []
  stepLookups := []
  stepHits := []
  lendRaised := []

def Trust.reset : Trust where
  images := []
  chunks := []
  token := []
  challengeLive := false
  owner := []
  signing := 0
  reportBody := none
  report := []
  install := none
  startSlots := []
  hashing := false
  pausedHash := none
  owedTab := none
  draws := 0

def Mfe.reset : Mfe := { streams := [], nextStream := 0 }
def Video.reset : Video where
  ctxs := []
  decode := List.replicate 4 (0, 0, 0)
  encode := List.replicate 2 none
  lastCtx := List.replicate 2 none

/-- The module as it is shipped, before 52 V is first applied (log entry 1): OFF, every entry at its default, every
Saved entry at its factory value, nothing in any memory or queue. -/
def State.reset : State where
  pending := []
  now := 0
  freeCtr := 0
  dict := []
  octs := []
  ctl := Ctl.reset
  power := Power.reset
  ev := { raised := [], ring := [], count := 0, alertLow := false }
  fdp := { sessions := [], nextSid := 0 }
  audit := { made := 0, chain := List.replicate 16 0, ring := [], waiting := [], failed := false, checkpoints := [],
             unsigned := [], held := [], taken := none }
  trust := Trust.reset
  time := TimeS.reset
  links := Links.reset
  coll := Coll.reset
  run := Run.reset
  cores := []
  work := []
  mem := Mem.reset
  pages := { slots := [] }
  regions := []
  mfe := Mfe.reset
  video := Video.reset

end Sys2Proof.Machine
end

