-- ==== Sys2Proof/Machine/Tables.lean ====
section
/-!
DEFINITION. The entries of the object dictionary (R433 to R436): one row for each row of the chapters' tables of entries
(Tables 1-2 and 2-8, 3-11, 4-6, 5-5, 6-9, 7-10, 8-11, 9-10, 10-8, 11-12, 12-9, 13-13, 14-12, 15-3, 15-17, 16-4, 16-5, 17-8, 18-5,
19-9), in the order index range, subindex range, type, access, writers, default, Saved, least and greatest value that the
row's meaning allows a writer.
-/
namespace Sys2Proof.Machine

/-- Entry types (Table 15-1). -/
inductive EType where
  | u8 | u16 | u32 | u64 | i32 | f32 | ftime
  | octets (n : Nat)
  | string (n : Nat)
deriving DecidableEq, Repr

/-- Type code that FDP reports. -/
def EType.code : EType → Nat
  | .u8 => 1 | .u16 => 2 | .u32 => 3 | .u64 => 4 | .i32 => 5 | .f32 => 6 | .ftime => 7 | .octets _ => 8 | .string _ => 9
/-- Size in bytes. -/
def EType.size : EType → Nat
  | .u8 => 1 | .u16 => 2 | .u32 => 4 | .u64 => 8 | .i32 => 4 | .f32 => 4 | .ftime => 8 | .octets n => n | .string n => n
/-- Types held in `State.octs`. -/
def EType.isBytes : EType → Bool
  | .octets _ => true
  | .string _ => true
  | _ => false

/-- Access codes (Table 15-2). -/
inductive Acc where
  | ro | rw | wo | rws | const
deriving DecidableEq, Repr

/-- A row of an entry table; writers: bit 0 H, bit 1 M, bit 2 P. -/
structure EntryDef where
  i0 : Nat
  i1 : Nat
  s0 : Nat
  s1 : Nat
  ty : EType
  acc : Acc
  writers : Nat
  dflt : Nat
  saved : Bool
  lo : Nat
  hi : Nat
deriving DecidableEq, Repr

def entry (i0 i1 s0 s1 : Nat) (ty : EType) (acc : Acc) (writers dflt : Nat) (saved : Bool) (lo hi : Nat) : EntryDef :=
  { i0 := i0, i1 := i1, s0 := s0, s1 := s1, ty := ty, acc := acc, writers := writers, dflt := dflt, saved := saved,
    lo := lo, hi := hi }

/-- Entries of index range 0x1000, part 1. -/
def entries1a : List EntryDef := [
  entry 0x1000 0x1000 0x01 0x01 (.string 16) .const 0 0x0 false 0x0 0x0,
  entry 0x1000 0x1000 0x02 0x02 (.string 16) .const 0 0x0 false 0x0 0x0,
  entry 0x1000 0x1000 0x03 0x03 (.string 16) .const 0 0x0 false 0x0 0x0,
  entry 0x1000 0x1000 0x04 0x04 (.string 2) .const 0 0x0 false 0x0 0x0,
  entry 0x1008 0x1008 0x01 0x01 .u8 .const 0 0x1 false 0x0 0xFF,
  entry 0x1010 0x1010 0x01 0x01 .u64 .const 0 0x1FF false 0x0 0xFFFFFFFFFFFFFFFF,
  entry 0x1011 0x1011 0x01 0x01 .u16 .const 0 0x101 false 0x0 0xFFFF,
  entry 0x1012 0x1012 0x01 0x01 .u16 .const 0 0x101 false 0x0 0xFFFF,
  entry 0x1020 0x1020 0x01 0x01 (.string 16) .const 0 0x0 false 0x0 0x0,
  entry 0x1020 0x1020 0x02 0x02 .u32 .const 0 0x0 false 0x0 0xFFFFFFFF,
  entry 0x1020 0x1020 0x03 0x03 .u32 .const 0 0x38A4 false 0x0 0xFFFFFFFF]

def entries1 : List EntryDef := entries1a

/-- Entries of index range 0x2000, part 1. -/
def entries2a : List EntryDef := [
  entry 0x2000 0x2000 0x01 0x01 .u16 .ro 0 0x5DC false 0x0 0xFFFF,
  entry 0x2000 0x2000 0x02 0x02 .u32 .ro 0 0x0 false 0x0 0xFFFFFFFF,
  entry 0x2000 0x2000 0x03 0x03 .u32 .ro 0 0x0 false 0x0 0xFFFFFFFF,
  entry 0x2000 0x2000 0x04 0x04 .u32 .ro 0 0x0 false 0x0 0xFFFFFFFF,
  entry 0x2000 0x2000 0x05 0x05 .u64 .ro 0 0x0 false 0x0 0xFFFFFFFFFFFFFFFF,
  entry 0x2000 0x2000 0x06 0x06 .u32 .ro 0 0x0 false 0x0 0xFFFFFFFF,
  entry 0x2000 0x2000 0x07 0x07 .u32 .ro 0 0x0 true 0x0 0xFFFFFFFF,
  entry 0x2100 0x2100 0x01 0x01 .u8 .ro 0 0x0 false 0x0 0xFF,
  entry 0x2100 0x2100 0x02 0x02 .u32 .ro 0 0x0 false 0x0 0xFFFFFFFF,
  entry 0x2100 0x2100 0x03 0x03 .u8 .rws 3 0x2 true 0x1 0x2,
  entry 0x2100 0x2100 0x04 0x04 .u8 .ro 0 0x0 false 0x0 0xFF,
  entry 0x2100 0x2100 0x05 0x05 .u32 .ro 0 0x0 false 0x0 0xFFFFFFFF,
  entry 0x2100 0x2100 0x06 0x06 .u8 .rws 3 0x1 true 0x0 0x1,
  entry 0x2100 0x2100 0x07 0x07 .u8 .ro 0 0x0 false 0x0 0xFF,
  entry 0x2100 0x2100 0x08 0x08 .u64 .ro 0 0x0 false 0x0 0xFFFFFFFFFFFFFFFF,
  entry 0x2100 0x2100 0x09 0x09 .u32 .ro 0 0x0 false 0x0 0xFFFFFFFF,
  entry 0x2100 0x2100 0x0A 0x0A .u32 .const 0 0x3E8 false 0x0 0xFFFFFFFF,
  entry 0x2100 0x2100 0x0B 0x0B .u32 .const 0 0x3C false 0x0 0xFFFFFFFF,
  entry 0x2200 0x2200 0x01 0x01 .u32 .rws 3 0x28 true 0x5 0x64,
  entry 0x2200 0x2200 0x02 0x02 .u32 .const 0 0xBB8 false 0x0 0xFFFFFFFF,
  entry 0x2200 0x2200 0x03 0x03 .u32 .const 0 0x1E848 false 0x0 0xFFFFFFFF,
  entry 0x2200 0x2200 0x04 0x04 .u32 .ro 0 0x124F8 false 0x0 0xFFFFFFFF,
  entry 0x2200 0x2200 0x05 0x05 .u16 .ro 0 0x0 false 0x0 0xFFFF,
  entry 0x2200 0x2200 0x06 0x06 .u32 .ro 0 0x0 false 0x0 0xFFFFFFFF,
  entry 0x2200 0x2200 0x07 0x07 .u64 .ro 0 0x0 false 0x0 0xFFFFFFFFFFFFFFFF,
  entry 0x2200 0x2200 0x08 0x08 .u32 .ro 0 0x0 false 0x0 0xFFFFFFFF,
  entry 0x2300 0x2300 0x01 0x04 .i32 .ro 0 0x0 false 0x0 0xFFFFFFFF,
  entry 0x2300 0x2300 0x05 0x06 .i32 .ro 0 0x0 false 0x0 0xFFFFFFFF,
  entry 0x2300 0x2300 0x07 0x07 .i32 .ro 0 0x0 false 0x0 0xFFFFFFFF,
  entry 0x2300 0x2300 0x08 0x08 .i32 .ro 0 0x0 false 0x0 0xFFFFFFFF,
  entry 0x2300 0x2300 0x09 0x09 .i32 .ro 0 0x0 false 0x0 0xFFFFFFFF,
  entry 0x2300 0x2300 0x0A 0x0A .u32 .ro 0 0x0 false 0x0 0xFFFFFFFF,
  entry 0x2310 0x2310 0x01 0x01 .i32 .const 0 0x186A0 false 0x0 0xFFFFFFFF,
  entry 0x2310 0x2310 0x02 0x02 .i32 .const 0 0x17318 false 0x0 0xFFFFFFFF,
  entry 0x2310 0x2310 0x03 0x03 .i32 .const 0 0x1ADB0 false 0x0 0xFFFFFFFF,
  entry 0x2400 0x2400 0x01 0x01 .u32 .ro 0 0x0 false 0x0 0xFFFFFFFF,
  entry 0x2400 0x2400 0x02 0x02 .u32 .ro 0 0x0 false 0x0 0xFFFFFFFF,
  entry 0x2400 0x2400 0x03 0x03 .u8 .ro 0 0x0 false 0x0 0xFF,
  entry 0x2320 0x2320 0x01 0x01 .i32 .const 0 0x3A98 false 0x0 0xFFFFFFFF,
  entry 0x2320 0x2320 0x02 0x02 .i32 .const 0 0x9C40 false 0x0 0xFFFFFFFF]

/-- Entries of index range 0x2000, part 2. -/
def entries2b : List EntryDef := [
  entry 0x2320 0x2320 0x03 0x03 .u32 .const 0 0xBB8 false 0x0 0xFFFFFFFF,
  entry 0x2320 0x2320 0x04 0x04 .u32 .const 0 0x1770 false 0x0 0xFFFFFFFF]

def entries2 : List EntryDef := entries2a ++ entries2b

/-- Entries of index range 0x3000, part 1. -/
def entries3a : List EntryDef := [
  entry 0x3200 0x3200 0x01 0x01 .u16 .rws 3 0x7FF true 0x0 0x13F,
  entry 0x3200 0x3200 0x02 0x02 .u8 .rws 3 0xFF true 0x0 0x1F,
  entry 0x3200 0x3200 0x03 0x03 .u8 .rws 3 0x1 true 0x1 0x3,
  entry 0x3200 0x3200 0x04 0x04 .u16 .ro 0 0x0 false 0x0 0xFFFF,
  entry 0x3200 0x3200 0x05 0x05 .u8 .ro 0 0x0 false 0x0 0xFF,
  entry 0x3000 0x3000 0x01 0x01 .ftime .ro 0 0x0 false 0x0 0xFFFFFFFFFFFFFFFF,
  entry 0x3000 0x3000 0x02 0x02 .u8 .ro 0 0x1 false 0x0 0xFF,
  entry 0x3000 0x3000 0x03 0x03 .u32 .ro 0 0x0 false 0x0 0xFFFFFFFF,
  entry 0x3000 0x3000 0x04 0x04 .u8 .ro 0 0xFF false 0x0 0xFF,
  entry 0x3000 0x3000 0x05 0x05 .u16 .ro 0 0x0 false 0x0 0xFFFF,
  entry 0x3000 0x3000 0x06 0x06 .u8 .ro 0 0x0 false 0x0 0xFF,
  entry 0x3000 0x3000 0x07 0x07 .i32 .ro 0 0x0 false 0x0 0xFFFFFFFF,
  entry 0x3010 0x3010 0x01 0x01 .u8 .rws 3 0x80 true 0x0 0xFF,
  entry 0x3010 0x3010 0x02 0x02 .u8 .rws 3 0x0 true 0x0 0x1,
  entry 0x3010 0x3010 0x03 0x03 .ftime .rws 3 0x0 false 0x0 0xFFFFFFFFFFFFFFFF,
  entry 0x3010 0x3010 0x04 0x04 .u32 .rws 3 0x0 true 0x0 0xFFFFFFFF,
  entry 0x3010 0x3010 0x05 0x05 .u32 .ro 0 0x0 false 0x0 0xFFFFFFFF,
  entry 0x3010 0x3010 0x06 0x06 .u32 .ro 0 0x0 false 0x0 0xFFFFFFFF,
  entry 0x3020 0x3020 0x01 0x30 .i32 .rws 3 0x0 true 0x0 0xFFFFFFFF,
  entry 0x3021 0x3021 0x01 0x30 .u32 .ro 0 0x0 false 0x0 0xFFFFFFFF,
  entry 0x3100 0x3100 0x01 0x01 .u16 .ro 0 0x0 false 0x0 0xFFFF,
  entry 0x3100 0x3100 0x02 0x02 .ftime .ro 0 0x0 false 0x0 0xFFFFFFFFFFFFFFFF,
  entry 0x3100 0x3100 0x03 0x03 .u32 .const 0 0x1770 false 0x0 0xFFFFFFFF,
  entry 0x3110 0x3110 0x01 0x01 .u32 .ro 0 0x0 false 0x0 0xFFFFFFFF,
  entry 0x3110 0x3110 0x02 0x02 .u16 .ro 0 0x0 false 0x0 0xFFFF,
  entry 0x3110 0x3110 0x03 0x03 .u8 .ro 0 0xFF false 0x0 0xFF,
  entry 0x3110 0x3110 0x04 0x04 .ftime .ro 0 0x0 false 0x0 0xFFFFFFFFFFFFFFFF,
  entry 0x3110 0x3110 0x05 0x05 .u32 .ro 0 0x0 false 0x0 0xFFFFFFFF,
  entry 0x3300 0x3300 0x01 0x30 .u8 .ro 0 0x1 false 0x0 0xFF,
  entry 0x3301 0x3301 0x01 0x30 .u16 .ro 0 0xFFFF false 0x0 0xFFFF,
  entry 0x3302 0x3302 0x01 0x30 .u8 .ro 0 0xFF false 0x0 0xFF,
  entry 0x3303 0x3303 0x01 0x30 .u64 .ro 0 0x0 false 0x0 0xFFFFFFFFFFFFFFFF,
  entry 0x3304 0x3304 0x01 0x30 .u32 .ro 0 0x0 false 0x0 0xFFFFFFFF,
  entry 0x3305 0x3305 0x01 0x30 .u16 .ro 0 0x0 false 0x0 0xFFFF,
  entry 0x3310 0x3310 0x01 0x01 .u32 .rws 3 0x3E8 true 0xA 0xF4240,
  entry 0x3310 0x3310 0x02 0x02 .u32 .rws 3 0x64 true 0x0 0xFFFFFFFF,
  entry 0x3320 0x3320 0x01 0x01 .u64 .ro 0 0x0 false 0x0 0xFFFFFFFFFFFFFFFF,
  entry 0x3320 0x3320 0x02 0x02 .u32 .ro 0 0x0 false 0x0 0xFFFFFFFF,
  entry 0x3320 0x3320 0x03 0x03 .u64 .ro 0 0x0 false 0x0 0xFFFFFFFFFFFFFFFF,
  entry 0x3330 0x3330 0x01 0x01 .u64 .ro 0 0x0 false 0x0 0xFFFFFFFFFFFFFFFF]

/-- Entries of index range 0x3000, part 2. -/
def entries3b : List EntryDef := [
  entry 0x3330 0x3330 0x02 0x02 .u32 .ro 0 0x0 false 0x0 0xFFFFFFFF,
  entry 0x3340 0x3340 0x01 0x01 .u8 .const 0 0x1 false 0x0 0xFF,
  entry 0x3340 0x3340 0x02 0x02 .u16 .const 0 0x400 false 0x0 0xFFFF,
  entry 0x3340 0x3340 0x03 0x03 .u16 .const 0 0x400 false 0x0 0xFFFF,
  entry 0x3340 0x3340 0x04 0x04 .u32 .const 0 0x400000 false 0x0 0xFFFFFFFF,
  entry 0x3340 0x3340 0x05 0x05 .u16 .const 0 0x4000 false 0x0 0xFFFF,
  entry 0x3400 0x3400 0x01 0x01 .u32 .ro 0 0x0 false 0x0 0xFFFFFFFF,
  entry 0x3400 0x3400 0x02 0x02 .u64 .ro 0 0x0 false 0x0 0xFFFFFFFFFFFFFFFF,
  entry 0x3400 0x3400 0x03 0x03 .u64 .const 0 0x40000000 false 0x0 0xFFFFFFFFFFFFFFFF,
  entry 0x3400 0x3400 0x04 0x04 .u32 .const 0 0x10000 false 0x0 0xFFFFFFFF,
  entry 0x3400 0x3400 0x05 0x05 .u16 .const 0 0x400 false 0x0 0xFFFF,
  entry 0x3400 0x3400 0x06 0x06 .u32 .const 0 0xBB8 false 0x0 0xFFFFFFFF,
  entry 0x3410 0x3410 0x01 0x02 .u32 .ro 0 0x0 false 0x0 0xFFFFFFFF,
  entry 0x3410 0x3410 0x03 0x04 .u32 .ro 0 0x0 false 0x0 0xFFFFFFFF,
  entry 0x3420 0x3420 0x01 0x01 .u64 .ro 0 0x0 false 0x0 0xFFFFFFFFFFFFFFFF,
  entry 0x3420 0x3420 0x02 0x02 .u64 .ro 0 0x0 false 0x0 0xFFFFFFFFFFFFFFFF,
  entry 0x3420 0x3420 0x03 0x03 .u64 .ro 0 0x0 false 0x0 0xFFFFFFFFFFFFFFFF,
  entry 0x3420 0x3420 0x04 0x04 .u64 .ro 0 0x0 false 0x0 0xFFFFFFFFFFFFFFFF,
  entry 0x3420 0x3420 0x05 0x05 .u32 .ro 0 0x0 false 0x0 0xFFFFFFFF,
  entry 0x3430 0x3430 0x01 0x01 .u16 .ro 0 0x0 false 0x0 0xFFFF,
  entry 0x3430 0x3430 0x02 0x02 .u8 .ro 0 0xFF false 0x0 0xFF,
  entry 0x3430 0x3430 0x03 0x03 .u16 .ro 0 0x0 false 0x0 0xFFFF,
  entry 0x3430 0x3430 0x04 0x04 .u32 .ro 0 0x0 false 0x0 0xFFFFFFFF]

def entries3 : List EntryDef := entries3a ++ entries3b

/-- Entries of index range 0x4000, part 1. -/
def entries4a : List EntryDef := [
  entry 0x4000 0x4000 0x01 0x01 .u64 .const 0 0x12000000000 false 0x0 0xFFFFFFFFFFFFFFFF,
  entry 0x4000 0x4000 0x02 0x02 .u64 .const 0 0xC00000000 false 0x0 0xFFFFFFFFFFFFFFFF,
  entry 0x4000 0x4000 0x03 0x03 .u32 .const 0 0x1000 false 0x0 0xFFFFFFFF,
  entry 0x4000 0x4000 0x04 0x04 .u16 .const 0 0x100 false 0x0 0xFFFF,
  entry 0x4000 0x4000 0x05 0x05 .u16 .const 0 0x400 false 0x0 0xFFFF,
  entry 0x4010 0x4010 0x01 0x18 .u8 .rws 3 0x0 true 0x0 0x1,
  entry 0x4020 0x4020 0x01 0x04 .u64 .ro 0 0x0 false 0x0 0xFFFFFFFFFFFFFFFF,
  entry 0x4021 0x4021 0x01 0x04 .u64 .ro 0 0x0 false 0x0 0xFFFFFFFFFFFFFFFF,
  entry 0x4022 0x4022 0x01 0x04 .u64 .ro 0 0x0 false 0x0 0xFFFFFFFFFFFFFFFF,
  entry 0x4023 0x4023 0x01 0x04 .u16 .ro 0 0x0 false 0x0 0xFFFF,
  entry 0x4030 0x4030 0x01 0xC0 .u64 .ro 0 0x0 false 0x0 0xFFFFFFFFFFFFFFFF,
  entry 0x4031 0x4031 0x01 0xC0 .u64 .ro 0 0x0 false 0x0 0xFFFFFFFFFFFFFFFF,
  entry 0x4040 0x4040 0x01 0x01 .u16 .ro 0 0xFFFF false 0x0 0xFFFF,
  entry 0x4040 0x4040 0x02 0x02 .u16 .ro 0 0x0 false 0x0 0xFFFF,
  entry 0x4040 0x4040 0x03 0x03 .u64 .ro 0 0x0 false 0x0 0xFFFFFFFFFFFFFFFF,
  entry 0x4040 0x4040 0x04 0x04 .u64 .ro 0 0x0 false 0x0 0xFFFFFFFFFFFFFFFF,
  entry 0x4500 0x4507 0x01 0x01 .u64 .rws 3 0x0 false 0x0 0xFFFFFFFFFFFFFFFF,
  entry 0x4500 0x4507 0x02 0x02 .u64 .rws 3 0x0 false 0x0 0xFFFFFFFFFFFFFFFF,
  entry 0x4500 0x4507 0x03 0x03 .u8 .rws 3 0x0 false 0x0 0x2,
  entry 0x4500 0x4507 0x04 0x04 .u32 .ro 0 0x0 false 0x0 0xFFFFFFFF,
  entry 0x4100 0x4100 0x01 0x09 .u64 .ro 0 0x0 false 0x0 0xFFFFFFFFFFFFFFFF,
  entry 0x4101 0x4101 0x01 0x09 .u64 .ro 0 0x0 false 0x0 0xFFFFFFFFFFFFFFFF,
  entry 0x4110 0x4110 0x01 0x01 .u8 .ro 0 0x0 false 0x0 0xFF,
  entry 0x4110 0x4110 0x02 0x02 .u8 .ro 0 0x0 false 0x0 0xFF,
  entry 0x4110 0x4110 0x03 0x03 .u16 .ro 0 0x0 false 0x0 0xFFFF,
  entry 0x4110 0x4110 0x04 0x04 .u64 .ro 0 0x0 false 0x0 0xFFFFFFFFFFFFFFFF,
  entry 0x4110 0x4110 0x05 0x05 .ftime .ro 0 0x0 false 0x0 0xFFFFFFFFFFFFFFFF,
  entry 0x4200 0x4200 0x01 0x01 .u32 .ro 0 0x0 false 0x0 0xFFFFFFFF,
  entry 0x4200 0x4200 0x02 0x02 .u32 .rws 3 0x2710 true 0x3E8 0x36EE80,
  entry 0x4200 0x4200 0x03 0x03 .u64 .ro 0 0x0 false 0x0 0xFFFFFFFFFFFFFFFF,
  entry 0x4200 0x4200 0x04 0x04 .u32 .ro 0 0x0 false 0x0 0xFFFFFFFF,
  entry 0x4201 0x4201 0x01 0x06 .u32 .ro 0 0x0 false 0x0 0xFFFFFFFF,
  entry 0x4300 0x4300 0x01 0x01 .u16 .ro 0 0x0 true 0x0 0xFFFF,
  entry 0x4300 0x4300 0x02 0x02 .u32 .ro 0 0x0 true 0x0 0xFFFFFFFF,
  entry 0x4300 0x4300 0x03 0x03 .u16 .ro 0 0x0 true 0x0 0xFFFF,
  entry 0x4300 0x4300 0x04 0x04 .u32 .ro 0 0x0 true 0x0 0xFFFFFFFF,
  entry 0x4300 0x4300 0x05 0x05 .u32 .ro 0 0x0 false 0x0 0xFFFFFFFF,
  entry 0x4300 0x4300 0x06 0x06 .u32 .ro 0 0x0 false 0x0 0xFFFFFFFF,
  entry 0x4300 0x4300 0x07 0x07 .u32 .ro 0 0x0 true 0x0 0xFFFFFFFF,
  entry 0x4310 0x4310 0x01 0x01 .u16 .rw 3 0x0 false 0x0 0x7FF]

/-- Entries of index range 0x4000, part 2. -/
def entries4b : List EntryDef := [
  entry 0x4310 0x4310 0x02 0x02 (.octets 16) .ro 0 0x0 false 0x0 0x0,
  entry 0x4600 0x4600 0x01 0x01 .u8 .rw 3 0x1 false 0x1 0x3,
  entry 0x4600 0x4600 0x02 0x02 .u64 .rw 3 0x0 false 0x0 0xFFFFFFFFFFFFFFFF,
  entry 0x4600 0x4600 0x03 0x03 (.octets 64) .rw 3 0x0 false 0x0 0x0,
  entry 0x4600 0x4600 0x04 0x04 (.octets 8) .rw 3 0x0 false 0x0 0x0,
  entry 0x4600 0x4600 0x05 0x05 .u8 .wo 3 0x0 false 0x1 0x2,
  entry 0x4600 0x4600 0x06 0x06 .u8 .ro 0 0x0 false 0x0 0xFF]

def entries4 : List EntryDef := entries4a ++ entries4b

/-- Entries of index range 0x5000, part 1. -/
def entries5a : List EntryDef := [
  entry 0x5A00 0x5A00 0x01 0xC0 .u64 .ro 0 0x0 false 0x0 0xFFFFFFFFFFFFFFFF,
  entry 0x5A01 0x5A01 0x01 0xC0 .u64 .ro 0 0x0 false 0x0 0xFFFFFFFFFFFFFFFF,
  entry 0x5A02 0x5A02 0x01 0xC0 .u64 .ro 0 0x0 false 0x0 0xFFFFFFFFFFFFFFFF,
  entry 0x5A03 0x5A03 0x01 0xC0 .u64 .ro 0 0x0 false 0x0 0xFFFFFFFFFFFFFFFF,
  entry 0x5A10 0x5A10 0x01 0x01 .u32 .const 0 0x10000 false 0x0 0xFFFFFFFF,
  entry 0x5A10 0x5A10 0x02 0x02 .u16 .const 0 0x200 false 0x0 0xFFFF,
  entry 0x5A10 0x5A10 0x03 0x03 .u8 .const 0 0x4 false 0x0 0xFF,
  entry 0x5100 0x5100 0x01 0x01 .u16 .ro 0 0xFFFF false 0x0 0xFFFF,
  entry 0x5100 0x5100 0x02 0x02 .u8 .ro 0 0xFF false 0x0 0xFF,
  entry 0x5100 0x5100 0x03 0x03 .u32 .ro 0 0x0 false 0x0 0xFFFFFFFF,
  entry 0x5100 0x5100 0x04 0x04 .u32 .ro 0 0x0 false 0x0 0xFFFFFFFF,
  entry 0x5110 0x5110 0x01 0x40 .u32 .ro 0 0x0 false 0x0 0xFFFFFFFF,
  entry 0x5120 0x5123 0x01 0x40 .u32 .ro 0 0x0 false 0x0 0xFFFFFFFF,
  entry 0x5124 0x5127 0x01 0x40 .u32 .ro 0 0x0 false 0x0 0xFFFFFFFF,
  entry 0x5128 0x512B 0x01 0x40 .u16 .ro 0 0x0 false 0x0 0xFFFF,
  entry 0x5130 0x5130 0x01 0x01 .u32 .ro 0 0x0 false 0x0 0xFFFFFFFF,
  entry 0x5130 0x5130 0x02 0x02 .u64 .ro 0 0x0 false 0x0 0xFFFFFFFFFFFFFFFF,
  entry 0x5140 0x5140 0x01 0xC0 .u16 .ro 0 0x0 false 0x0 0xFFFF,
  entry 0x5141 0x5141 0x01 0xC0 .u8 .ro 0 0x1 false 0x0 0xFF,
  entry 0x5150 0x5150 0x01 0x01 .u16 .const 0 0x4000 false 0x0 0xFFFF,
  entry 0x5150 0x5150 0x02 0x02 .u8 .const 0 0x6 false 0x0 0xFF,
  entry 0x5150 0x5150 0x03 0x03 .u8 .const 0 0x4 false 0x0 0xFF,
  entry 0x5150 0x5150 0x04 0x04 .u8 .const 0 0x40 false 0x0 0xFF,
  entry 0x5150 0x5150 0x05 0x05 .u16 .const 0 0x1000 false 0x0 0xFFFF,
  entry 0x5150 0x5150 0x06 0x06 .u16 .const 0 0x200 false 0x0 0xFFFF,
  entry 0x5500 0x5500 0x01 0x01 .u16 .rw 3 0x0 false 0x0 0xBF,
  entry 0x5500 0x5500 0x02 0x31 .u32 .ro 0 0x0 false 0x0 0xFFFFFFFF,
  entry 0x5501 0x5501 0x01 0x30 .u8 .ro 0 0x0 false 0x0 0xFF,
  entry 0x5502 0x5502 0x01 0xC0 .u8 .ro 0 0xFF false 0x0 0xFF,
  entry 0x5503 0x5503 0x01 0xC0 .u64 .ro 0 0x0 false 0x0 0xFFFFFFFFFFFFFFFF,
  entry 0x5504 0x5504 0x01 0xC0 .u64 .ro 0 0x0 false 0x0 0xFFFFFFFFFFFFFFFF,
  entry 0x5510 0x5510 0x01 0x01 .ftime .rw 3 0x0 false 0x0 0xFFFFFFFFFFFFFFFF,
  entry 0x5510 0x5510 0x02 0x02 .u64 .rws 3 0x0 false 0x0 0xFFFFFFFFFFFFFFFF,
  entry 0x5510 0x5510 0x03 0x03 .u32 .rws 3 0x2710 true 0x0 0xFFFFFFFF,
  entry 0x5510 0x5510 0x04 0x04 .u32 .const 0 0x800000 false 0x0 0xFFFFFFFF,
  entry 0x5520 0x5520 0x01 0x01 .u32 .ro 0 0x0 false 0x0 0xFFFFFFFF,
  entry 0x5520 0x5520 0x02 0x02 .u32 .ro 0 0x0 false 0x0 0xFFFFFFFF,
  entry 0x5010 0x5010 0x01 0x01 .u64 .rws 3 0x0 false 0x0 0xFFFFFFFFFFFFFFFF,
  entry 0x5010 0x5010 0x02 0x02 .u32 .ro 0 0x0 false 0x0 0xFFFFFFFF,
  entry 0x5010 0x5010 0x03 0x03 .u8 .ro 0 0x0 false 0x0 0xFF]

/-- Entries of index range 0x5000, part 2. -/
def entries5b : List EntryDef := [
  entry 0x5010 0x5010 0x04 0x04 .u32 .rws 3 0x0 false 0x0 0xFFFFFFFF,
  entry 0x5010 0x5010 0x05 0x05 .u32 .ro 0 0x0 false 0x0 0xFFFFFFFF,
  entry 0x5010 0x5010 0x06 0x06 .u32 .const 0 0x2000 false 0x0 0xFFFFFFFF,
  entry 0x5400 0x5400 0x01 0x01 .u64 .ro 0 0x0 false 0x0 0xFFFFFFFFFFFFFFFF,
  entry 0x5400 0x5400 0x02 0x02 .u16 .ro 0 0x0 false 0x0 0xFFFF,
  entry 0x5400 0x5400 0x03 0x03 .u64 .ro 0 0x0 false 0x0 0xFFFFFFFFFFFFFFFF,
  entry 0x5400 0x5400 0x04 0x04 .u32 .ro 0 0x0 false 0x0 0xFFFFFFFF,
  entry 0x5400 0x5400 0x05 0x05 .u16 .ro 0 0x0 false 0x0 0xFFFF,
  entry 0x5401 0x5401 0x01 0x01 .u32 .ro 0 0x0 false 0x0 0xFFFFFFFF,
  entry 0x5401 0x5401 0x02 0x02 .u32 .ro 0 0x0 false 0x0 0xFFFFFFFF,
  entry 0x5401 0x5401 0x03 0x03 .u32 .ro 0 0x0 false 0x0 0xFFFFFFFF,
  entry 0x5401 0x5401 0x04 0x04 .u16 .ro 0 0xFFFF false 0x0 0xFFFF,
  entry 0x5410 0x5410 0x01 0x01 .u16 .rw 3 0x0 false 0x0 0x1FFF,
  entry 0x5410 0x5410 0x02 0x02 .u8 .wo 3 0x0 false 0x1 0x2,
  entry 0x5410 0x5410 0x03 0x03 .u8 .ro 0 0x0 false 0x0 0xFF,
  entry 0x5410 0x5410 0x04 0x04 .u64 .ro 0 0x0 false 0x0 0xFFFFFFFFFFFFFFFF,
  entry 0x5200 0x5200 0x01 0x01 (.octets 16) .wo 7 0x0 false 0x0 0x0,
  entry 0x5200 0x5200 0x02 0x02 .u64 .ro 0 0x0 false 0x0 0xFFFFFFFFFFFFFFFF,
  entry 0x5200 0x5200 0x03 0x03 .u32 .ro 0 0x0 false 0x0 0xFFFFFFFF,
  entry 0x5200 0x5200 0x04 0x04 (.octets 16) .ro 0 0x0 false 0x0 0x0,
  entry 0x5210 0x5210 0x01 0x01 .u64 .rws 3 0x0 false 0x0 0xFFFFFFFFFFFFFFFF,
  entry 0x5210 0x5210 0x02 0x02 .u32 .rws 3 0x1000 false 0x1 0x10000,
  entry 0x5210 0x5210 0x03 0x03 .u64 .rws 3 0x0 false 0x0 0xFFFFFFFFFFFFFFFF,
  entry 0x5210 0x5210 0x04 0x04 .u32 .rws 3 0x10000 false 0x0 0xFFFFFFFF,
  entry 0x5210 0x5210 0x05 0x05 .u32 .rws 3 0x0 false 0x0 0x400000,
  entry 0x5210 0x5210 0x06 0x06 .u64 .ro 0 0x0 false 0x0 0xFFFFFFFFFFFFFFFF,
  entry 0x5220 0x5220 0x01 0x80 .u64 .ro 0 0x0 false 0x0 0xFFFFFFFFFFFFFFFF,
  entry 0x5221 0x5221 0x01 0x80 .u64 .ro 0 0x0 false 0x0 0xFFFFFFFFFFFFFFFF,
  entry 0x5230 0x5230 0x01 0x01 .u32 .ro 0 0x0 false 0x0 0xFFFFFFFF,
  entry 0x5230 0x5230 0x02 0x02 .u32 .ro 0 0x0 false 0x0 0xFFFFFFFF,
  entry 0x5240 0x5240 0x01 0x01 .u16 .ro 0 0xFFFF false 0x0 0xFFFF,
  entry 0x5240 0x5240 0x02 0x02 .u16 .ro 0 0x0 false 0x0 0xFFFF,
  entry 0x5240 0x5240 0x03 0x03 .u8 .ro 0 0x0 false 0x0 0xFF,
  entry 0x5240 0x5240 0x04 0x04 .u32 .ro 0 0x0 false 0x0 0xFFFFFFFF,
  entry 0x5250 0x5250 0x01 0x01 .u16 .const 0 0x100 false 0x0 0xFFFF,
  entry 0x5250 0x5250 0x02 0x02 .u8 .const 0 0x10 false 0x0 0xFF,
  entry 0x5250 0x5250 0x03 0x03 .u8 .const 0 0xD false 0x0 0xFF,
  entry 0x5250 0x5250 0x04 0x04 .u16 .const 0 0x100 false 0x0 0xFFFF,
  entry 0x5250 0x5250 0x05 0x05 .u8 .const 0 0x80 false 0x0 0xFF,
  entry 0x5300 0x5300 0x01 0x01 .u8 .const 0 0xF false 0x0 0xFF]

/-- Entries of index range 0x5000, part 3. -/
def entries5c : List EntryDef := [
  entry 0x5300 0x5300 0x02 0x02 .u8 .const 0 0x7 false 0x0 0xFF,
  entry 0x5300 0x5300 0x03 0x03 .u8 .const 0 0xFF false 0x0 0xFF,
  entry 0x5300 0x5300 0x04 0x04 .u8 .const 0 0x8 false 0x0 0xFF,
  entry 0x5300 0x5300 0x05 0x05 .u32 .const 0 0x10000 false 0x0 0xFFFFFFFF,
  entry 0x5300 0x5300 0x06 0x06 .u16 .const 0 0x1000 false 0x0 0xFFFF,
  entry 0x5300 0x5300 0x07 0x07 .u16 .const 0 0x4000 false 0x0 0xFFFF,
  entry 0x5300 0x5300 0x08 0x08 .u16 .const 0 0x100 false 0x0 0xFFFF,
  entry 0x5310 0x5313 0x01 0x01 (.octets 16) .wo 7 0x0 false 0x0 0x0,
  entry 0x5310 0x5313 0x02 0x02 .u64 .ro 0 0x0 false 0x0 0xFFFFFFFFFFFFFFFF,
  entry 0x5310 0x5313 0x03 0x03 .u32 .ro 0 0x0 false 0x0 0xFFFFFFFF,
  entry 0x5310 0x5313 0x04 0x04 .u8 .ro 0 0x0 false 0x0 0xFF,
  entry 0x5320 0x5320 0x01 0x01 .u16 .ro 0 0xFFFF false 0x0 0xFFFF,
  entry 0x5320 0x5320 0x02 0x02 .u16 .ro 0 0x0 false 0x0 0xFFFF,
  entry 0x5320 0x5320 0x03 0x03 .u8 .ro 0 0x0 false 0x0 0xFF,
  entry 0x5320 0x5320 0x04 0x04 .u32 .ro 0 0x0 false 0x0 0xFFFFFFFF,
  entry 0x5330 0x5330 0x01 0x04 .u64 .ro 0 0x0 false 0x0 0xFFFFFFFFFFFFFFFF,
  entry 0x5060 0x5060 0x01 0x08 .u64 .ro 0 0x0 false 0x0 0xFFFFFFFFFFFFFFFF,
  entry 0x5061 0x5061 0x01 0x08 .u64 .ro 0 0x0 false 0x0 0xFFFFFFFFFFFFFFFF,
  entry 0x5062 0x5062 0x01 0x08 .u8 .ro 0 0x0 false 0x0 0xFF,
  entry 0x5000 0x5000 0x01 0x01 .u64 .rw 3 0x0 false 0x0 0xFFFFFFFFFFFFFFFF,
  entry 0x5000 0x5000 0x02 0x02 .ftime .rw 3 0x0 false 0x0 0xFFFFFFFFFFFFFFFF,
  entry 0x5000 0x5000 0x03 0x03 .u8 .rw 3 0x1 false 0x1 0x4,
  entry 0x5000 0x5000 0x04 0x04 .u16 .ro 0 0x0 false 0x0 0xFFFF,
  entry 0x5000 0x5000 0x05 0x05 .u32 .rws 3 0x30D40 true 0x186A0 0x5F5E100,
  entry 0x5000 0x5000 0x06 0x06 .ftime .ro 0 0x0 false 0x0 0xFFFFFFFFFFFFFFFF,
  entry 0x5000 0x5000 0x07 0x07 (.octets 48) .ro 0 0x0 false 0x0 0x0,
  entry 0x5002 0x5002 0x01 0x01 .u8 .ro 0 0x2 false 0x0 0xFF,
  entry 0x5002 0x5002 0x02 0x02 .u8 .ro 0 0x1 false 0x0 0xFF,
  entry 0x5002 0x5002 0x03 0x03 .ftime .ro 0 0x0 false 0x0 0xFFFFFFFFFFFFFFFF,
  entry 0x5002 0x5002 0x04 0x04 .u16 .ro 0 0x0 false 0x0 0xFFFF,
  entry 0x5002 0x5002 0x05 0x05 .u8 .ro 0 0x0 false 0x0 0xFF,
  entry 0x5003 0x5003 0x01 0x01 .u8 .wo 3 0x0 false 0x1 0x6,
  entry 0x5003 0x5003 0x02 0x02 .u8 .rw 2 0x1 true 0x0 0x1]

def entries5 : List EntryDef := entries5a ++ entries5b ++ entries5c

/-- Entries of index range 0x6000, part 1. -/
def entries6a : List EntryDef := [
  entry 0x6000 0x6000 0x01 0x01 .u8 .const 0 0x18 false 0x0 0xFF,
  entry 0x6000 0x6000 0x02 0x02 .u8 .const 0 0x40 false 0x0 0xFF,
  entry 0x6000 0x6000 0x03 0x03 .u8 .const 0 0x10 false 0x0 0xFF,
  entry 0x6000 0x6000 0x04 0x04 .u16 .const 0 0x100 false 0x0 0xFFFF,
  entry 0x6010 0x6010 0x01 0x01 .u8 .rw 3 0x1 true 0x1 0x2,
  entry 0x6010 0x6010 0x02 0x02 .u8 .ro 0 0x1 false 0x0 0xFF,
  entry 0x6020 0x6020 0x01 0x01 .u16 .const 0 0xFFFF false 0x0 0xFFFF,
  entry 0x6020 0x6020 0x02 0x02 .u32 .const 0 0x10000000 false 0x0 0xFFFFFFFF,
  entry 0x6020 0x6020 0x03 0x03 .u8 .const 0 0x10 false 0x0 0xFF,
  entry 0x6020 0x6020 0x04 0x04 .u32 .const 0 0x40000000 false 0x0 0xFFFFFFFF,
  entry 0x6020 0x6020 0x05 0x05 .u32 .const 0 0x4000000 false 0x0 0xFFFFFFFF,
  entry 0x6020 0x6020 0x06 0x06 .u32 .const 0 0x1000000 false 0x0 0xFFFFFFFF,
  entry 0x6020 0x6020 0x07 0x07 .u32 .const 0 0x40000 false 0x0 0xFFFFFFFF,
  entry 0x6030 0x6030 0x01 0x06 .u32 .rw 3 0x7A120 true 0x3E8 0x989680,
  entry 0x6030 0x6030 0x08 0x09 .u32 .rw 3 0x1E8480 true 0x3E8 0x989680,
  entry 0x6030 0x6030 0x10 0x12 .u32 .rw 3 0x30D40 true 0x3E8 0x989680,
  entry 0x6030 0x6030 0x20 0x20 .u32 .rw 3 0xC350 true 0x3E8 0x989680,
  entry 0x6100 0x610F 0x01 0x01 .u8 .rw 3 0x0 false 0x0 0x1,
  entry 0x6100 0x610F 0x02 0x02 .u64 .rw 3 0x0 false 0x0 0xFFFFFFFFFFFFFFFF,
  entry 0x6100 0x610F 0x03 0x03 .u32 .rw 3 0x0 false 0x1 0x100000,
  entry 0x6100 0x610F 0x04 0x04 .u64 .rw 3 0x0 false 0x0 0xFFFFFFFFFFFFFFFF,
  entry 0x6100 0x610F 0x05 0x05 .u32 .rw 3 0x0 false 0x0 0x100000,
  entry 0x6100 0x610F 0x06 0x06 .u64 .rw 3 0x0 false 0x0 0xFFFFFFFFFFFFFFFF,
  entry 0x6100 0x610F 0x07 0x07 .u64 .rw 3 0x0 false 0x0 0xFFFFFFFFFFFFFFFF,
  entry 0x6100 0x610F 0x08 0x08 .u64 .rw 3 0x0 false 0x0 0xFFFFFFFFFFFFFFFF,
  entry 0x6100 0x610F 0x09 0x09 .u8 .rw 3 0x2 false 0x2 0x10,
  entry 0x6100 0x610F 0x0A 0x0A .u16 .rw 3 0x1 false 0x1 0x100,
  entry 0x6100 0x610F 0x0B 0x0B .u64 .ro 0 0x0 false 0x0 0xFFFFFFFFFFFFFFFF,
  entry 0x6100 0x610F 0x0C 0x0C .u8 .rw 3 0x1 false 0x1 0x40,
  entry 0x6100 0x610F 0x0D 0x0D .u64 .rw 3 0xFFFFFFFFFFFFFFFF false 0x0 0xFFFFFFFFFFFFFFFF,
  entry 0x6100 0x610F 0x0E 0x0E .u8 .rw 3 0x0 false 0x0 0x8,
  entry 0x6100 0x610F 0x0F 0x0F .u64 .rw 3 0x0 false 0x0 0xFFFFFFFFFFFFFFFF,
  entry 0x6100 0x610F 0x10 0x10 .u64 .rw 3 0x0 false 0x0 0xFFFFFFFFFFFFFFFF,
  entry 0x6100 0x610F 0x11 0x11 .u32 .rw 3 0x0 false 0x0 0xFFFFFFFF,
  entry 0x6100 0x610F 0x12 0x12 .u32 .rw 3 0xFFFF false 0x0 0xFFFFFFFF,
  entry 0x6100 0x610F 0x13 0x13 .u32 .rw 3 0xFFFF false 0x0 0xFFFFFFFF,
  entry 0x6100 0x610F 0x14 0x14 .u32 .rw 3 0x10000000 false 0x0 0xFFFFFFFF,
  entry 0x6100 0x610F 0x15 0x15 .u8 .rw 3 0x10 false 0x1 0x10,
  entry 0x6100 0x610F 0x16 0x16 .u32 .rw 3 0x40000000 false 0x0 0xFFFFFFFF,
  entry 0x6100 0x610F 0x17 0x17 .u32 .rw 3 0x4000000 false 0x0 0xFFFFFFFF]

/-- Entries of index range 0x6000, part 2. -/
def entries6b : List EntryDef := [
  entry 0x6100 0x610F 0x18 0x18 .u32 .rw 3 0x0 false 0x0 0xFFFFFFFF,
  entry 0x6100 0x610F 0x19 0x19 .u32 .rw 3 0x1000000 false 0x0 0xFFFFFFFF,
  entry 0x6100 0x610F 0x1A 0x1A .u64 .rw 3 0x0 false 0x0 0xFFFFFFFFFFFFFFFF,
  entry 0x6200 0x620F 0x01 0x01 .u32 .ro 0 0x0 false 0x0 0xFFFFFFFF,
  entry 0x6200 0x620F 0x02 0x02 .u64 .ro 0 0x0 false 0x0 0xFFFFFFFFFFFFFFFF,
  entry 0x6200 0x620F 0x03 0x03 .u64 .ro 0 0x0 false 0x0 0xFFFFFFFFFFFFFFFF,
  entry 0x6200 0x620F 0x04 0x04 .u64 .ro 0 0x0 false 0x0 0xFFFFFFFFFFFFFFFF,
  entry 0x6200 0x620F 0x05 0x05 .u64 .ro 0 0x0 false 0x0 0xFFFFFFFFFFFFFFFF,
  entry 0x6200 0x620F 0x06 0x06 .u64 .ro 0 0x0 false 0x0 0xFFFFFFFFFFFFFFFF,
  entry 0x6200 0x620F 0x07 0x07 .u64 .ro 0 0x0 false 0x0 0xFFFFFFFFFFFFFFFF,
  entry 0x6200 0x620F 0x08 0x08 .u64 .ro 0 0x0 false 0x0 0xFFFFFFFFFFFFFFFF,
  entry 0x6200 0x620F 0x09 0x09 .u64 .ro 0 0x0 false 0x0 0xFFFFFFFFFFFFFFFF,
  entry 0x6200 0x620F 0x0A 0x0A .u8 .wo 3 0x0 false 0x1 0x10,
  entry 0x6200 0x620F 0x0B 0x0B .u64 .ro 0 0x0 false 0x0 0xFFFFFFFFFFFFFFFF,
  entry 0x6400 0x6400 0x01 0x01 .u8 .const 0 0x4 false 0x0 0xFF,
  entry 0x6400 0x6400 0x02 0x02 .u8 .const 0 0x2 false 0x0 0xFF,
  entry 0x6400 0x6400 0x03 0x03 .u8 .const 0 0x40 false 0x0 0xFF,
  entry 0x6400 0x6400 0x04 0x04 .u32 .const 0 0x2EE0 false 0x0 0xFFFFFFFF,
  entry 0x6400 0x6400 0x05 0x05 .u32 .const 0 0x2200000 false 0x0 0xFFFFFFFF,
  entry 0x6400 0x6400 0x06 0x06 .u32 .const 0 0x880000 false 0x0 0xFFFFFFFF,
  entry 0x6410 0x6410 0x01 0x01 (.octets 16) .wo 7 0x0 false 0x0 0x0,
  entry 0x6410 0x6410 0x02 0x02 .u64 .ro 0 0x0 false 0x0 0xFFFFFFFFFFFFFFFF,
  entry 0x6410 0x6410 0x03 0x03 .u32 .ro 0 0x0 false 0x0 0xFFFFFFFF,
  entry 0x6420 0x6420 0x01 0x40 .u64 .ro 0 0x0 false 0x0 0xFFFFFFFFFFFFFFFF,
  entry 0x6430 0x6430 0x01 0x04 .u64 .ro 0 0x0 false 0x0 0xFFFFFFFFFFFFFFFF,
  entry 0x6430 0x6430 0x05 0x06 .u64 .ro 0 0x0 false 0x0 0xFFFFFFFFFFFFFFFF,
  entry 0x6430 0x6430 0x07 0x07 .u64 .ro 0 0x0 false 0x0 0xFFFFFFFFFFFFFFFF,
  entry 0x6440 0x6440 0x01 0x01 .u16 .ro 0 0xFFFF false 0x0 0xFFFF,
  entry 0x6440 0x6440 0x02 0x02 .u8 .ro 0 0x0 false 0x0 0xFF,
  entry 0x6440 0x6440 0x03 0x03 .u8 .ro 0 0x0 false 0x0 0xFF]

def entries6 : List EntryDef := entries6a ++ entries6b

/-- Entries of index range 0x7000, part 1. -/
def entries7a : List EntryDef := [
  entry 0x7000 0x7000 0x01 0x01 .u8 .const 0 0x40 false 0x0 0xFF,
  entry 0x7000 0x7000 0x02 0x02 .u8 .const 0 0x80 false 0x0 0xFF,
  entry 0x7000 0x7000 0x03 0x03 .u8 .const 0 0x20 false 0x0 0xFF,
  entry 0x7000 0x7000 0x04 0x04 .f32 .rws 3 0x3A83126F true 0x0 0xFFFFFFFF,
  entry 0x7000 0x7000 0x05 0x05 .u32 .ro 0 0x0 false 0x0 0xFFFFFFFF,
  entry 0x7000 0x7000 0x06 0x06 .ftime .ro 0 0x0 false 0x0 0xFFFFFFFFFFFFFFFF,
  entry 0x7000 0x7000 0x07 0x07 .u32 .ro 0 0x0 false 0x0 0xFFFFFFFF,
  entry 0x7010 0x7010 0x01 0x40 .u64 .ro 0 0x0 false 0x0 0xFFFFFFFFFFFFFFFF,
  entry 0x7011 0x7011 0x01 0x40 .u64 .ro 0 0x0 false 0x0 0xFFFFFFFFFFFFFFFF,
  entry 0x7012 0x7012 0x01 0x40 .u64 .ro 0 0x0 false 0x0 0xFFFFFFFFFFFFFFFF,
  entry 0x7013 0x7013 0x01 0x40 .u64 .ro 0 0x0 false 0x0 0xFFFFFFFFFFFFFFFF,
  entry 0x7014 0x7014 0x01 0x40 .u64 .ro 0 0x0 false 0x0 0xFFFFFFFFFFFFFFFF,
  entry 0x7015 0x7015 0x01 0x40 .u8 .ro 0 0x0 false 0x0 0xFF,
  entry 0x7016 0x7016 0x01 0x40 .f32 .ro 0 0x0 false 0x0 0xFFFFFFFF,
  entry 0x7017 0x7017 0x01 0x40 .f32 .ro 0 0x0 false 0x0 0xFFFFFFFF,
  entry 0x7018 0x7018 0x01 0x01 .u32 .ro 0 0x0 false 0x0 0xFFFFFFFF,
  entry 0x7018 0x7018 0x02 0x02 .u64 .ro 0 0x0 false 0x0 0xFFFFFFFFFFFFFFFF,
  entry 0x7018 0x7018 0x03 0x03 .u16 .ro 0 0xFFFF false 0x0 0xFFFF,
  entry 0x7018 0x7018 0x04 0x04 .u32 .ro 0 0x0 false 0x0 0xFFFFFFFF,
  entry 0x7019 0x7019 0x01 0x01 .u16 .ro 0 0xFFFF false 0x0 0xFFFF,
  entry 0x7019 0x7019 0x02 0x02 .u32 .ro 0 0x0 false 0x0 0xFFFFFFFF,
  entry 0x7200 0x7200 0x01 0x01 .u8 .rws 3 0x1 true 0x1 0x2,
  entry 0x7200 0x7200 0x02 0x02 .u32 .ro 0 0x0 false 0x0 0xFFFFFFFF,
  entry 0x7200 0x7200 0x03 0x03 .u32 .ro 0 0x0 false 0x0 0xFFFFFFFF,
  entry 0x7200 0x7200 0x04 0x04 .u16 .ro 0 0x0 false 0x0 0xFFFF,
  entry 0x7200 0x7200 0x05 0x05 .u8 .ro 0 0x0 false 0x0 0xFF,
  entry 0x7200 0x7200 0x06 0x06 .u8 .wo 3 0x0 false 0x1 0x1,
  entry 0x7210 0x7210 0x01 0x01 .u32 .rws 3 0x10 false 0x0 0x18,
  entry 0x7210 0x7210 0x02 0x02 .u32 .rws 3 0x7D0 true 0x1 0xF4240,
  entry 0x7210 0x7210 0x03 0x03 .u32 .ro 0 0x0 false 0x0 0xFFFFFFFF,
  entry 0x7210 0x7210 0x04 0x04 .u32 .const 0 0x18 false 0x0 0xFFFFFFFF,
  entry 0x7220 0x7220 0x01 0x01 .u64 .rws 3 0x0 false 0x0 0xFFFFFFFFFFFFFFFF,
  entry 0x7230 0x7230 0x01 0x01 .u32 .const 0 0x960 false 0x0 0xFFFFFFFF,
  entry 0x7F00 0x7F00 0x01 0x01 .u32 .ro 0 0x0 false 0x0 0xFFFFFFFF,
  entry 0x7F00 0x7F00 0x02 0x02 .u32 .ro 0 0x0 false 0x0 0xFFFFFFFF,
  entry 0x7F00 0x7F00 0x03 0x03 .u32 .rw 3 0x0 false 0x0 0xFFFFFFFF,
  entry 0x7F00 0x7F00 0x04 0x04 .u16 .rw 3 0x1FE true 0x0 0xFFFF,
  entry 0x7F00 0x7F00 0x05 0x05 .u32 .ro 0 0x0 false 0x0 0xFFFFFFFF]

def entries7 : List EntryDef := entries7a

/-- Entries of index range 0x8000, part 1. -/
def entries8a : List EntryDef := [
  entry 0x8010 0x8010 0x01 0x01 .u64 .rw 2 0x0 false 0x0 0xFFFFFFFFFFFFFFFF,
  entry 0x8300 0x8300 0x01 0x01 .u32 .ro 0 0x0 true 0x0 0xFFFFFFFF,
  entry 0x8300 0x8300 0x02 0x02 .u64 .ro 0 0x0 true 0x0 0xFFFFFFFFFFFFFFFF,
  entry 0x8300 0x8300 0x03 0x03 .u32 .ro 0 0x0 true 0x0 0xFFFFFFFF,
  entry 0x8300 0x8300 0x04 0x04 .u32 .const 0 0x100000 false 0x0 0xFFFFFFFF,
  entry 0x8300 0x8300 0x05 0x05 .u16 .const 0 0x1000 false 0x0 0xFFFF,
  entry 0x8400 0x8400 0x01 0x01 .u16 .rws 2 0x1BD4 true 0x400 0xFFFF,
  entry 0x8400 0x8400 0x02 0x02 .u8 .rws 2 0x0 true 0x1 0x8,
  entry 0x8400 0x8400 0x03 0x03 (.octets 16) .rws 2 0x0 true 0x0 0x0,
  entry 0x8400 0x8400 0x04 0x04 .u8 .ro 0 0x0 false 0x0 0xFF,
  entry 0x8000 0x8000 0x01 0x01 .u32 .const 0 0x989680 false 0x0 0xFFFFFFFF,
  entry 0x8000 0x8000 0x02 0x02 .u32 .const 0 0x8 false 0x0 0xFFFFFFFF,
  entry 0x8110 0x8110 0x01 0x04 (.octets 48) .rws 2 0x0 true 0x0 0x0,
  entry 0x8120 0x8120 0x01 0x01 (.octets 32) .wo 3 0x0 false 0x0 0x0,
  entry 0x8120 0x8120 0x02 0x02 .u8 .ro 0 0x0 false 0x0 0xFF,
  entry 0x8130 0x8130 0x01 0x01 (.octets 384) .rws 2 0x0 true 0x0 0x0,
  entry 0x8130 0x8130 0x02 0x02 (.octets 48) .rws 2 0x0 true 0x0 0x0,
  entry 0x8130 0x8130 0x03 0x03 .u8 .wo 2 0x0 false 0x1 0x3,
  entry 0x8130 0x8130 0x04 0x04 (.octets 32) .ro 0 0x0 false 0x0 0x0,
  entry 0x8130 0x8130 0x05 0x05 .u32 .rw 2 0x0 false 0x0 0x40DF,
  entry 0x8130 0x8130 0x06 0x06 (.octets 1024) .wo 2 0x0 false 0x0 0x0,
  entry 0x8130 0x8130 0x07 0x07 .u8 .ro 0 0x0 true 0x0 0xFF,
  entry 0x8140 0x8140 0x01 0x01 .u32 .rw 3 0x0 false 0x0 0xFFFFFFFF,
  entry 0x8140 0x8140 0x02 0x02 (.octets 1024) .wo 3 0x0 false 0x0 0x0,
  entry 0x8140 0x8140 0x03 0x03 .u64 .rw 3 0x0 false 0x0 0xFFFFFFFFFFFFFFFF,
  entry 0x8140 0x8140 0x04 0x04 .u8 .wo 3 0x0 false 0x1 0x3,
  entry 0x8140 0x8140 0x05 0x05 .u32 .rw 3 0x0 false 0x41A0 0x1004160,
  entry 0x8140 0x8140 0x06 0x06 .u8 .ro 0 0x0 false 0x0 0xFF,
  entry 0x8140 0x8140 0x07 0x07 .u8 .rw 2 0x1 false 0x1 0x5,
  entry 0x8200 0x8200 0x01 0x05 .u8 .ro 0 0x0 true 0x0 0xFF,
  entry 0x8200 0x8200 0x06 0x0A .u8 .ro 0 0xFF false 0x0 0xFF,
  entry 0x8200 0x8200 0x0B 0x0F .u8 .ro 0 0x0 true 0x0 0xFF,
  entry 0x8200 0x8200 0x10 0x14 .u32 .ro 0 0x0 false 0x0 0xFFFFFFFF,
  entry 0x8210 0x8210 0x01 0x08 (.octets 48) .ro 0 0x0 false 0x0 0x0,
  entry 0x8100 0x8100 0x01 0x01 .u8 .rw 3 0x1 false 0x1 0x3,
  entry 0x8100 0x8100 0x02 0x02 .u32 .rw 3 0x0 false 0x0 0xFFFFFFFF,
  entry 0x8100 0x8100 0x03 0x03 .u32 .ro 0 0x0 false 0x0 0xFFFFFFFF,
  entry 0x8100 0x8100 0x04 0x04 (.octets 1024) .ro 0 0x0 false 0x0 0x0]

def entries8 : List EntryDef := entries8a

/-- Entries of index range 0x9000, part 1. -/
def entries9a : List EntryDef := [
  entry 0x9100 0x9100 0x01 0x01 .u16 .rw 3 0x0 false 0x0 0xBF,
  entry 0x9100 0x9100 0x02 0x02 .u8 .rw 3 0x0 false 0x0 0x2F,
  entry 0x9100 0x9100 0x03 0x03 .u8 .rw 3 0x1 false 0x1 0x2,
  entry 0x9100 0x9100 0x04 0x04 .u32 .wo 3 0x0 false 0x0 0xFFFFFFFF,
  entry 0x9100 0x9100 0x05 0x05 .u32 .ro 0 0x0 false 0x0 0xFFFFFFFF,
  entry 0x9100 0x9100 0x06 0x06 .ftime .ro 0 0x0 false 0x0 0xFFFFFFFFFFFFFFFF,
  entry 0x9100 0x9100 0x07 0x07 .u32 .ro 0 0x0 false 0x0 0xFFFFFFFF]

def entries9 : List EntryDef := entries9a

/-- The rows that may hold an index, by its high digit (Table 15-18). -/
def entryRows (index : Nat) : List EntryDef :=
  match index / 4096 with
  | 1 => entries1
  | 2 => entries2
  | 3 => entries3
  | 4 => entries4
  | 5 => entries5
  | 6 => entries6
  | 7 => entries7
  | 8 => entries8
  | 9 => entries9
  | _ => []

/-- The row of an entry, if the manual defines it (R467). -/
def entryOf (index sub : Nat) : Option EntryDef :=
  (entryRows index).find? fun e =>
    decide (e.i0 ≤ index) && decide (index ≤ e.i1) && decide (e.s0 ≤ sub) && decide (sub ≤ e.s1)

end Sys2Proof.Machine
end

