-- ==== Sys2Proof/Machine/Ops.lean ====
section
/-!
DEFINITION. The named operations over the state that every family of commands uses: bytes, dictionary entries, device
states, events, memory, cores and ports. A block takes no exception: what stands in its place, the system-wide abort,
is in `Abort.lean`.
-/
namespace Sys2Proof.Machine

abbrev Out := Host.Outcome State Fault Refusal

/-! ### Bytes -/

/-- The n low bytes of a number, least significant first (R7). -/
def le : Nat → Nat → List Byte
  | 0, _ => []
  | n + 1, v => BitVec.ofNat 8 v :: le n (v / 256)
/-- The number that bytes spell, least significant first. -/
def ofLe : List Byte → Nat
  | [] => 0
  | b :: r => b.toNat + 256 * ofLe r
/-- The first n bytes, zero bytes where there are fewer. -/
def padTo (n : Nat) (b : List Byte) : List Byte := b.take n ++ List.replicate (n - b.length) 0
/-- n bytes at offset o. -/
def slice (b : List Byte) (o n : Nat) : List Byte := (b.drop o).take n
/-- The unsigned number in n bytes at offset o. -/
def field (b : List Byte) (o n : Nat) : Nat := ofLe (padTo n (slice b o n))
/-- The two's complement number in n bytes at offset o. -/
def fieldI (b : List Byte) (o n : Nat) : Int :=
  let v := field b o n
  if v < 2 ^ (8 * n - 1) then (v : Int) else (v : Int) - 2 ^ (8 * n)
/-- Two's complement of an integer in n bits. -/
def unsigned (n : Nat) (i : Int) : Nat := (i % 2 ^ n).toNat
/-- The signed value of an n-bit pattern. -/
def signed (n : Nat) (v : Nat) : Int := if v % 2 ^ n < 2 ^ (n - 1) then ((v % 2 ^ n : Nat) : Int) else ((v % 2 ^ n : Nat) : Int) - 2 ^ n
def ceilDiv (a b : Nat) : Nat := (a + b - 1) / b
/-- Bits hi to lo of a number. -/
def bits (v hi lo : Nat) : Nat := v / 2 ^ lo % 2 ^ (hi + 1 - lo)
def allZero (b : List Byte) : Bool := b.all fun x => decide (x = 0)

/-- The 16 detail bytes of an event record: each value (size, value) at its natural alignment (Table 15-15). -/
def detailAux : List (Nat × Nat) → List Byte → List Byte
  | [], acc => acc
  | (n, v) :: r, acc => detailAux r (acc ++ List.replicate ((n - acc.length % n) % n) 0 ++ le n v)
def detail (vs : List (Nat × Nat)) : List Byte := padTo 16 (detailAux vs [])

/-! ### Dictionary entries -/

/-- The key of an entry in `State.dict` and `State.octs`. -/
def ekey (index sub : Nat) : Nat := index * 256 + sub

/-- A numeric entry's default (R436). -/
def entryDefault (index sub : Nat) : Nat :=
  match entryOf index sub with
  | some e => e.dflt
  | none => 0

/-- The value held for a numeric entry. -/
def State.ent (s : State) (index sub : Nat) : Nat :=
  match sget none s.dict (ekey index sub) with
  | some v => v
  | none => entryDefault index sub

/-- The dictionary with one numeric entry set; a default is not listed. -/
def setDict (d : SMap (Option Nat)) (index sub v : Nat) : SMap (Option Nat) :=
  sset none d (ekey index sub) (if v = entryDefault index sub then none else some v)

/-- Set a numeric entry. -/
def State.setEnt (s : State) (index sub v : Nat) : State := { s with dict := setDict s.dict index sub v }

/-- The number of values of an entry's type. -/
def entryMod (index sub : Nat) : Nat :=
  match entryOf index sub with
  | some e => 2 ^ (8 * e.ty.size)
  | none => 2 ^ 64

/-- Count an entry up by n, modulo its type's range. -/
def State.addEnt (s : State) (index sub n : Nat) : State :=
  s.setEnt index sub ((s.ent index sub + n) % entryMod index sub)

/-- Return an entry to its default. -/
def State.clearEnt (s : State) (index sub : Nat) : State := { s with dict := sset none s.dict (ekey index sub) none }

/-- Return a list of entries (index, first and last subindex) to their defaults. -/
def clearEnts (l : List (Nat × Nat × Nat)) (s : State) : State :=
  { s with dict := l.foldl (fun d r => sclear d (ekey r.1 r.2.1) (r.2.2 + 1 - r.2.1)) s.dict }

def asciiBytes (l : List Nat) : List Byte := l.map (BitVec.ofNat 8)

/-- Defaults of the OCTETS and STRING entries: vendor "Tampowick", part and ordering code "FT-1152" (Tables 15-3,
19-9), the factory values, and zero bytes. -/
def octDefault (index sub : Nat) : List Byte :=
  if index = 0x1000 ∧ sub = 1 then asciiBytes [84, 97, 109, 112, 111, 119, 105, 99, 107]
  else if (index = 0x1000 ∧ sub = 2) ∨ (index = 0x1020 ∧ sub = 1) then asciiBytes [70, 84, 45, 49, 49, 53, 50]
  else if index = 0x1000 ∧ sub = 3 then Config.serial
  else if index = 0x1000 ∧ sub = 4 then asciiBytes [65 + Config.steppingLetter.val, 48 + Config.steppingDigit.val]
  else if index = 0x8110 ∧ sub = 1 then Config.serviceRoot
  else []

/-- The bytes of an OCTETS or STRING entry, at its full size. -/
def State.oct (s : State) (index sub : Nat) : List Byte :=
  let b := match sget none s.octs (ekey index sub) with
    | some b => b
    | none => octDefault index sub
  match entryOf index sub with
  | some e => padTo e.ty.size b
  | none => b

/-- Set an OCTETS or STRING entry. -/
def State.setOct (s : State) (index sub : Nat) (b : List Byte) : State :=
  { s with octs := sset none s.octs (ekey index sub) (some b) }

/-- Return an OCTETS or STRING entry to its default. -/
def State.clearOct (s : State) (index sub : Nat) : State := { s with octs := sset none s.octs (ekey index sub) none }

/-! ### Free values -/

/-- A fresh free value below n, and the state after drawing it (log entry 3). -/
def drawNat (s : State) (n : Nat) : Nat × State :=
  ((Config.freeWord s.freeCtr).toNat % n, { s with freeCtr := s.freeCtr + 1 })

/-- n fresh free bytes. -/
def drawBytes (s : State) (n : Nat) : List Byte × State :=
  ((List.range n).map fun i => (Config.freeWord (s.freeCtr + i)).setWidth 8, { s with freeCtr := s.freeCtr + n })

/-! ### Time and device state -/

/-- A command that takes place at t: none where t lies before the module's time (time never runs back, R40). -/
def atTime (s : State) (t : FTime) (f : State → Out) : Out :=
  if s.now ≤ t then f { s with now := t } else .next s

/-- Device-state codes (Table 15-7). -/
def Dev.code : Dev → Nat
  | .off => 1 | .standby => 2 | .init => 3 | .start => 4 | .ready => 5 | .armed => 6 | .run => 7 | .pause => 8
  | .aborting => 9 | .test => 10 | .recovery => 11 | .fault => 12

/-- The state for the rules of arming and running: in TEST, the phase (R447). -/
def State.eff (s : State) : Dev := if s.ctl.dev = .test then s.ctl.phase else s.ctl.dev

/-- The module runs a tab: RUN, or TEST with the phase RUN. -/
def State.running (s : State) : Bool := decide (s.eff = .run)

/-- Enter a device state: previous state and time of the transition are recorded (Table 15-17). -/
def State.enter (s : State) (d : Dev) : State :=
  let s := (s.setEnt 0x5002 2 s.ctl.dev.code).setEnt 0x5002 3 (if s.ctl.everLocked then s.now.toNat else 0)
  { s with ctl := { s.ctl with dev := d } }

/-- Enter READY, ARMED, RUN, PAUSE or ABORTING; in TEST the phase changes and the state stays TEST (R447). -/
def State.enterEff (s : State) (d : Dev) : State :=
  if s.ctl.dev = .test then { s with ctl := { s.ctl with phase := d } } else s.enter d

/-- The active device address (0x3200:04). -/
def State.device (s : State) : Nat := s.ent 0x3200 4
/-- Course [15:5] and position [4:0] of a device address. -/
def courseOf (d : Nat) : Nat := d / 32
def positionOf (d : Nat) : Nat := d % 32
/-- The active role is BRIDGE. -/
def State.isBridge (s : State) : Bool := decide (s.ent 0x3200 5 = 3)

/-! ### Events (R462) -/

/-- Raise an event: it waits to be recorded in Galena's ring. -/
def State.raise (s : State) (code : Nat) (vs : List (Nat × Nat)) : State :=
  { s with ev := { s.ev with raised := s.ev.raised ++
      [{ code := BitVec.ofNat 16 code, device := BitVec.ofNat 16 s.device, time := s.now, detail := detail vs }] } }

/-! ### HBM (R172 to R176) -/

/-- Bytes of HBM, of a region, of a stack. -/
def hbmSize : Nat := 0x012000000000
def regionSize : Nat := 0xC00000000
def stackSize : Nat := 103079215104

/-- The stack and the offset within the stack of a local HBM address (R176). -/
def stackOf (s : State) (a : Nat) : Nat × Nat :=
  let g := a / regionSize
  let o := a % regionSize
  if s.ent 0x4010 (g + 1) = 1 then
    let q := o / 12884901888
    let u := o % 12884901888 / 4096
    (3 * q + u % 3, g * 4294967296 + u / 3 * 4096 + o % 4096)
  else
    let u := o / 4096
    (u % 12, g * 4294967296 + u / 12 * 4096 + o % 4096)

/-- The physical number of an HBM byte, and of the 64-byte unit that holds it. -/
def phys (s : State) (a : Nat) : Nat := (stackOf s a).1 * stackSize + (stackOf s a).2
def unitOf (s : State) (a : Nat) : Nat := phys s a / 64
/-- The home die of an HBM address (R16). -/
def homeDie (s : State) (a : Nat) : Nat := (stackOf s a).1 / 3

/-- One byte of HBM. -/
def hbyte (s : State) (a : Nat) : Byte := sget 0 s.mem.hbm (phys s a)
/-- n bytes of HBM from a local address. -/
def hread (s : State) (a n : Nat) : List Byte := (List.range n).map fun i => hbyte s (a + i)

/-- Arena offsets written in this step (R428): the highest offset + 1 per stage. -/
def noteArena (stages : List (Nat × Nat × Nat)) (high : SMap Nat) (a n : Nat) : SMap Nat :=
  (stages.zipIdx).foldl (fun h st =>
    let (base, size, _) := st.1
    if n ≠ 0 ∧ a < base + size ∧ base < a + n then
      let e := (if a + n < base + size then a + n else base + size) - base
      if sget 0 h st.2 < e then sset 0 h st.2 e else h
    else h) high

/-- Write bytes into the physical store, cut at 4,096-byte boundaries. -/
def hstore (s : State) : Nat → Nat → List Byte → SMap Byte → SMap Byte
  | 0, _, _, m => m
  | fuel + 1, a, b, m =>
    if b = [] then m else
    let n := 4096 - a % 4096
    hstore s fuel (a + n) (b.drop n) (swrite 0 m (phys s a) (b.take n))

/-- Write bytes to local HBM, noting arena high-water marks. The stored codes of the units touched are kept by
`Ecc.lean`, which calls this. -/
def hput (s : State) (a : Nat) (b : List Byte) : State :=
  { s with
    mem := { s.mem with hbm := hstore s (b.length + 1) a b s.mem.hbm }
    coll := { s.coll with high := noteArena s.coll.stages s.coll.high a b.length } }

def inHbm (a n : Nat) : Bool := decide (a + n ≤ hbmSize)

/-! ### Cores -/

def State.core (s : State) (c : Nat) : CoreS := sget CoreS.reset s.cores c
def State.setCore (s : State) (c : Nat) (x : CoreS) : State := { s with cores := sset CoreS.reset s.cores c x }
def State.modCore (s : State) (c : Nat) (f : CoreS → CoreS) : State := s.setCore c (f (s.core c))

/-- A list with position i replaced. -/
def setAt {α : Type} (l : List α) (i : Nat) (v : α) : List α := l.set i v
/-- Register read and write: `s0` reads 0 (Table 4-1). -/
def CoreS.reg (x : CoreS) (r : Reg) : W64 := if r = 0 then 0 else x.regs.getD r.val 0
def CoreS.setReg (x : CoreS) (r : Reg) (v : W64) : CoreS := { x with regs := x.regs.set r.val v }

/-- Bytes of core-local memory. -/
def CoreS.clmBytes (x : CoreS) (a n : Nat) : List Byte := sread 0 x.clm a n
def CoreS.setClm (x : CoreS) (a : Nat) (b : List Byte) : CoreS := { x with clm := swrite 0 x.clm a b }
def CoreS.word (x : CoreS) (a : Nat) : W32 := BitVec.ofNat 32 (ofLe (x.clmBytes a 4))
def clmSize : Nat := 0x400000

/-! ### Ports -/

def State.port (s : State) (p : Nat) : PortS := sget PortS.reset s.links.ports p
def State.setPort (s : State) (p : Nat) (x : PortS) : State :=
  { s with links := { s.links with ports := sset PortS.reset s.links.ports p x } }
def State.modPort (s : State) (p : Nat) (f : PortS → PortS) : State := s.setPort p (f (s.port p))
/-- Port state (0x3300). -/
def State.portSt (s : State) (p : Nat) : Nat := s.ent 0x3300 (p + 1)
def State.inService (s : State) (p : Nat) : Bool := decide (s.portSt p = 4)

/-- A flit with only its kind and payload set. -/
def bareFlit (kind : Nat) (payload : List Byte) : Flit where
  kind := BitVec.ofNat 4 kind
  vc := 0
  last := false
  seq := 0
  ack := 0
  creditVc := 0
  credits := 0
  dst := 0
  src := 0
  tag := 0
  index := 0
  stream := 0
  rep := 0
  payload := payload

end Sys2Proof.Machine
end

