-- ==== Sys2Proof/Machine/Ecc.lean ====
section
/-!
DEFINITION. Protection of stored data (chapter 18): the symbol code of HBM, the code of SRAM words, writes that keep the
stored codes, and reads that correct, count and report. `hbm`, `clm` and `wide` hold the value a read delivers; a unit or
word whose stored code is not the code of that value with a data tag is listed in `hbmRaw` or `sramRaw`.
-/
namespace Sys2Proof.Machine

/-! ### GF(2^8) and RS(68,65) (R524, R525) -/

/-- Multiplication by α = 2 under x^8 + x^4 + x^3 + x^2 + 1. -/
def gfx (a : Byte) : Byte := if a.getLsbD 7 then (a <<< 1) ^^^ 0x1D#8 else a <<< 1
/-- a · b, over the bits of b from bit 7 down. -/
def gfMul (a b : Byte) : Byte :=
  [7, 6, 5, 4, 3, 2, 1, 0].foldl (fun r k => let r := gfx r; if b.getLsbD k then r ^^^ a else r) 0
/-- α^m · a. -/
def gfPow (a : Byte) : Nat → Byte
  | 0 => a
  | m + 1 => gfx (gfPow a m)

/-- Check symbols c65, c66, c67 of 65 symbols: the remainder by x³ + 7x² + 14x + 8 = (x + 1)(x + α)(x + α²). -/
def rsCheck (sym : List Byte) : Byte × Byte × Byte :=
  sym.foldl (fun (r : Byte × Byte × Byte) c =>
    let f := r.1 ^^^ c
    (r.2.1 ^^^ gfMul 7#8 f, r.2.2 ^^^ gfMul 14#8 f, gfMul 8#8 f)) (0, 0, 0)

/-- Metadata bytes (Table 18-1) of 64 data bytes with a tag. -/
def hbmMeta (d : List Byte) (tag : Byte) : List Byte :=
  let (a, b, c) := rsCheck (padTo 64 d ++ [tag])
  [a, b, c, tag]

/-- Syndrome S_j = c(α^j) of the 68 symbols c0 to c67. -/
def syndrome (j : Nat) (sym : List Byte) : Byte := sym.foldl (fun r c => gfPow r j ^^^ c) 0

/-- What a read of a unit or word finds. -/
inductive Found where
  | clean
  | corrected
  | bad (poisoned : Bool)
deriving DecidableEq, Repr

/-- Decode a unit from its data and metadata bytes (R525): the data delivered and what was found. -/
def hbmDecode (r : RawCode) : List Byte × Found :=
  let d := padTo 64 r.data
  let m := padTo 4 r.check
  let sym := d ++ [m.getD 3 0] ++ m.take 3
  let s0 := syndrome 0 sym
  let s1 := syndrome 1 sym
  let s2 := syndrome 2 sym
  let verdict (sym : List Byte) (f : Found) : List Byte × Found :=
    let tag := sym.getD 64 0
    if tag = 0 then (sym.take 64, f) else (sym.take 64, .bad (decide (tag = 0xFF#8)))
  if s0 = 0 ∧ s1 = 0 ∧ s2 = 0 then verdict sym .clean
  else if s0 ≠ 0 ∧ s1 ≠ 0 ∧ s2 ≠ 0 ∧ gfMul s1 s1 = gfMul s0 s2 then
    match (List.range 68).find? fun k => decide (gfPow s0 k = s1) with
    | some k => verdict (sym.set (67 - k) (sym.getD (67 - k) 0 ^^^ s0)) .corrected
    | none => (d, .bad false)
  else (d, .bad false)

/-! ### The SRAM code (R526, R527) -/

/-- Positions of the 64 data bits among 1 to 71. -/
def sramPos : List Nat := (List.range 72).filter fun p => decide (p ≠ 0) && !decide (p ∈ [1, 2, 4, 8, 16, 32, 64])

def parity (b : List Bool) : Bool := b.foldl xor false

/-- Check bits 0 to 6 of a 64-bit word. -/
def sramLow (d : W64) : List Bool :=
  (List.range 7).map fun k =>
    parity ((sramPos.zipIdx).map fun p => Nat.testBit p.1 k && d.getLsbD p.2)

def ofBools (l : List Bool) : Nat := l.foldr (fun b n => 2 * n + (if b then 1 else 0)) 0

/-- The 8 check bits of a word. -/
def sramCheck (d : W64) : Byte :=
  let low := sramLow d
  BitVec.ofNat 8 (ofBools (low ++ [xor (parity low) (parity ((List.range 64).map d.getLsbD))]))

/-- Decode a word from its data and check byte (R527). -/
def sramDecode (d : W64) (c : Byte) : W64 × Found :=
  let s := ofBools ((sramLow d).zipIdx.map fun b => xor b.1 (c.getLsbD b.2))
  let p := xor (parity ((List.range 64).map d.getLsbD)) (parity ((List.range 8).map c.getLsbD))
  if !p && decide (s = 0) then (d, .clean)
  else if p then
    match (sramPos.zipIdx).find? fun q => decide (q.1 = s) with
    | some q => (d ^^^ (1#64 <<< q.2), .corrected)
    | none => if s = 0 ∨ s ∈ [1, 2, 4, 8, 16, 32, 64] then (d, .corrected) else (d, .bad false)
  else (d, .bad false)

/-- Key of an SRAM word of a kind and unit of Table 18-2. Of the kinds beside CLM and the wide buffer the places of the words within their
unit are the model's (log entry 151). -/
def sramKey (kind c word : Nat) : Nat := kind * 2 ^ 48 + c * 2 ^ 24 + word

/-- The 64-bit word number w of CLM (kind 2) or the wide buffer (kind 3) of a core. -/
def CoreS.word64 (x : CoreS) (kind w : Nat) : W64 :=
  if kind = 2 then BitVec.ofNat 64 (ofLe (x.clmBytes (8 * w) 8))
  else BitVec.ofNat 64 ((sget 0 x.wide (2 * w)).toNat + 2 ^ 32 * (sget 0 x.wide (2 * w + 1)).toNat)
def CoreS.setWord64 (x : CoreS) (kind w : Nat) (v : W64) : CoreS :=
  if kind = 2 then x.setClm (8 * w) (le 8 v.toNat)
  else { x with wide := swrite 0 x.wide (2 * w) [BitVec.ofNat 32 v.toNat, BitVec.ofNat 32 (v.toNat / 2 ^ 32)] }

/-- Places of the words of kind `0x06` in their unit, in bytes: instruction store, mode store, activation images of 8,224 bytes; and their
number of words (log entry 151). -/
def storeModes : Nat := 0x20000
def storeActs (k : Nat) : Nat := 0x28000 + 8224 * k
def storeWords : Nat := storeActs 4 / 8

/-! ### Addresses of units -/

/-- The local address of a physical HBM unit under the mode in force (the inverse of R176). -/
def localOf (s : State) (u : Nat) : Nat :=
  let stack := u * 64 / stackSize
  let off := u * 64 % stackSize
  let g := off / 4294967296
  let so := off % 4294967296
  let k := so / 4096
  if s.ent 0x4010 (g + 1) = 1 then g * regionSize + stack / 3 * 12884901888 + (3 * k + stack % 3) * 4096 + so % 4096
  else g * regionSize + (12 * k + stack) * 4096 + so % 4096

def globalOf (s : State) (a : Nat) : Nat := s.device * 2 ^ 48 + a
def windowBase : Nat := 0xF00000000000
/-- Kind and unit of an SRAM key. -/
def sramWhere (k : Nat) : Nat × Nat := (k / 2 ^ 48, k / 2 ^ 24 % 2 ^ 24)
/-- The global address of an SRAM key: 0 for a kind without one (Table 18-5). -/
def sramAddr (s : State) (k : Nat) : Nat :=
  let local_ (o : Nat) : Nat := globalOf s (windowBase + (sramWhere k).2 * 2 ^ 24 + o + 8 * (k % 2 ^ 24))
  if (sramWhere k).1 = 2 then local_ 0 else if (sramWhere k).1 = 3 then local_ 0x800000 else 0
/-- The stored code of a listed word does not decode (R527). -/
def wordBad (r : RawCode) : Bool := decide ((sramDecode (BitVec.ofNat 64 (ofLe r.data)) (r.check.getD 0 0)).2 = .bad false)

/-! ### Laps (R535, R536) -/

/-- Scrubbers run from the end of the fill until the main side powers down (R535). -/
def scrubs (s : State) : Bool := s.ctl.powered && s.ctl.filled
/-- Milliseconds since the scrubber's lap in progress began (R538, Table 18-5). -/
def lapElapsed (s : State) (b : Nat) : Nat :=
  if scrubs s then (s.now.toNat - (sget 0 s.mem.lapStart b).toNat) / 1000000 else 0
/-- The longest lap in progress (`0x4200:04`). -/
def longestLap (s : State) : Nat := (List.range 6).foldl (fun m b => Nat.max m (lapElapsed s b)) 0

/-! ### Counting and reporting -/

/-- Count a correction and raise ECC_CORRECTED as R532 limits it; `addr` is a global address, 0 without one. -/
def noteCorrected (s : State) (kind unit addr : Nat) : State :=
  let s := s.addEnt 0x4100 kind 1
  let key := kind * 65536 + unit
  let (last, n) := match s.mem.eccEvents.find? fun e => decide (e.1 = key) with
    | some e => (some e.2.1, e.2.2 + 1)
    | none => (none, 1)
  let rest := s.mem.eccEvents.filter fun e => decide (e.1 ≠ key)
  let due := match last with
    | none => true
    | some t => decide (t.toNat + 60000000000 ≤ s.now.toNat)
  if due then
    { s with mem := { s.mem with eccEvents := (key, s.now, 0) :: rest } }.raise 0x4101
      [(1, kind), (1, 0), (2, unit), (4, n % 2 ^ 32), (8, addr)]
  else { s with mem := { s.mem with eccEvents := (key, last.getD 0, n) :: rest } }

/-- A candidate of this kind and unit stands for the row that holds the location (R541); which locations share a row is not stated, a free
choice (log entry 150). -/
def sameRow (kind unit key : Nat) (c : Nat × Nat × Nat × Nat) : Bool :=
  decide (c.1 = kind ∧ c.2.2.1 = unit ∧ Config.repairRow kind unit c.2.2.2 = Config.repairRow kind unit key)

/-- Keep a repair candidate, at most 256, one for a row (R541); a raw-written location is never one (R540). -/
def addCandidate (s : State) (kind origin unit key : Nat) : State :=
  if (kind, key) ∈ s.mem.rawList ∨ s.mem.candidates.any (sameRow kind unit key) then s
  else if 256 ≤ s.mem.candidates.length then s.addEnt 0x4300 7 1
  else
    let s := { s with mem := { s.mem with candidates := s.mem.candidates ++ [(kind, origin, unit, key)] } }
    s.setEnt 0x4300 1 s.mem.candidates.length

/-- Count an uncorrectable read, record the first of the run, and raise ECC_UNCORRECTED, at most 64 a second (R534). -/
def noteBad (s : State) (kind cause unit addr : Nat) : State :=
  let s := s.addEnt 0x4101 kind 1
  let s := if s.running && decide (s.ent 0x4110 1 = 0) then
      ((((s.setEnt 0x4110 1 kind).setEnt 0x4110 2 cause).setEnt 0x4110 3 unit).setEnt 0x4110 4 addr).setEnt
        0x4110 5 s.now.toNat
    else s
  let recent := s.mem.uncorrected.filter fun t => decide (s.now.toNat < t.toNat + 1000000000)
  if recent.length < 64 then
    { s with mem := { s.mem with uncorrected := s.now :: recent } }.raise 0x4102
      [(1, kind), (1, cause), (2, unit), (4, 0), (8, addr)]
  else s

/-! ### Writes that keep the stored codes -/

/-- A poisoned codeword of these 64 bytes (R533). -/
def poisonCode (d : List Byte) : RawCode := { data := d, check := hbmMeta d 0xFF#8 }

/-- Replace the stored code of a unit. -/
def State.setUnit (s : State) (u : Nat) (r : Option RawCode) : State :=
  { s with mem := { s.mem with hbmRaw := sset none s.mem.hbmRaw u r } }

/-- What a write of n bytes at a, made already, leaves of a listed unit's code: a whole write clears the entry; a partial write of a unit
that decodes leaves the unit corrected, and counts the correction (R532); of one that does not, poisoned with the merged data (R533). -/
def mergeUnit (a n : Nat) (s : State) (u : Nat × Option RawCode) : State :=
  let la := localOf s u.1
  if la + 64 ≤ a ∨ a + n ≤ la then s
  else if a ≤ la ∧ la + 64 ≤ a + n then s.setUnit u.1 none
  else match u.2 with
    | none => s
    | some r =>
      match (hbmDecode r).2 with
      | .bad _ => s.setUnit u.1 (some (poisonCode (hread s la 64)))
      | .corrected => noteCorrected (s.setUnit u.1 none) 1 (u.1 * 64 / stackSize) (globalOf s la)
      | .clean => s.setUnit u.1 none

/-- Write bytes to local HBM and keep the codes of the listed units it touches; a whole write takes a unit from the list of R540. -/
def hwrite (s : State) (a : Nat) (b : List Byte) : State :=
  if (s.mem.hbmRaw = [] ∧ s.mem.rawList = []) ∨ b = [] then hput s a b else
  let t := s.mem.hbmRaw.foldl (mergeUnit a b.length) (hput s a b)
  let gone := s.mem.rawList.filter fun e =>
    !(decide (e.1 = 1) && decide (a ≤ localOf s e.2) && decide (localOf s e.2 + 64 ≤ a + b.length))
  { t with mem := { t.mem with rawList := gone } }.setEnt 0x4600 6 gone.length

/-- Replace the stored code of an SRAM word. -/
def State.setSramWord (s : State) (k : Nat) (r : Option RawCode) : State :=
  { s with mem := { s.mem with sramRaw := sset none s.mem.sramRaw k r } }

/-- What a write of bytes first to first + n − 1 of a unit leaves of a listed word's code: a whole word is fresh; a word written in part
keeps a code that does not decode (R533), and is corrected otherwise, which counts (R532). -/
def mergeChecked (kind c first n : Nat) (s : State) (u : Nat × Option RawCode) : State :=
  let w := u.1 % 2 ^ 24
  if u.1 / 2 ^ 24 ≠ sramKey kind c 0 / 2 ^ 24 ∨ first + n ≤ 8 * w ∨ 8 * w + 8 ≤ first then s
  else if first ≤ 8 * w ∧ 8 * w + 8 ≤ first + n then s.setSramWord u.1 none
  else match u.2 with
    | none => s
    | some r => if wordBad r then s else noteCorrected (s.setSramWord u.1 none) kind c (sramAddr s u.1)

/-- Stored codes of SRAM words after a write of bytes first to first + n − 1 of a unit of a kind: a word written whole is fresh, leaves the list
of R540, and its pending rewrite is cancelled (R530). -/
def touchSram (s : State) (kind c first n : Nat) : State :=
  if s.mem.sramRaw = [] ∧ s.mem.rawList = [] then s else
  let whole (w : Nat) : Bool := decide (first ≤ 8 * w) && decide (8 * w + 8 ≤ first + n)
  let mine (k : Nat) : Bool := decide (k / 2 ^ 24 = sramKey kind c 0 / 2 ^ 24)
  let t := s.mem.sramRaw.foldl (mergeChecked kind c first n) s
  let gone := s.mem.rawList.filter fun e => !(decide (e.1 = kind) && mine e.2 && whole (e.2 % 2 ^ 24))
  { t with mem := { t.mem with rawList := gone,
                               rewrites := t.mem.rewrites.filter fun k => !(mine k && whole (k % 2 ^ 24)) } }.setEnt
    0x4600 6 gone.length

/-- Every word of a unit of a kind is written whole. -/
def freshSram (s : State) (kind c : Nat) : State := touchSram s kind c 0 (8 * 2 ^ 24)

/-- Store bytes in a core's CLM. -/
def State.writeClm (s : State) (c a : Nat) (b : List Byte) : State :=
  touchSram (s.modCore c fun x => x.setClm a b) 2 c a b.length
/-- Store words in a core's accumulator file, from word number w (row · 128 + column). -/
def State.writeAcc (s : State) (c w : Nat) (v : List W32) : State :=
  touchSram (s.modCore c fun x => { x with acc := swrite 0 x.acc w v }) 4 c (4 * w) (4 * v.length)
/-- Store words in a core's wide buffer, from word number w (row · 128 + column). -/
def State.writeWide (s : State) (c w : Nat) (v : List W32) : State :=
  touchSram (s.modCore c fun x => { x with wide := swrite 0 x.wide w v }) 3 c (4 * w) (4 * v.length)

/-! ### Reads -/

/-- Read-check of local HBM (R525, R530, R532, R534): each listed unit of the range is corrected, counted and rewritten,
or counted and reported; the flag says whether some unit is uncorrectable. -/
def hcheck (s : State) (a n : Nat) : State × Bool :=
  s.mem.hbmRaw.foldl (fun (sb : State × Bool) u =>
    let la := localOf s u.1
    if n = 0 ∨ la + 64 ≤ a ∨ a + n ≤ la then sb else
    match u.2 with
    | none => sb
    | some r =>
      let stack := u.1 * 64 / stackSize
      match (hbmDecode r).2 with
      | .clean => sb
      | .corrected =>
        ((noteCorrected sb.1 1 stack (globalOf s la)).setUnit u.1 none, sb.2)
      | .bad p =>
        let t := noteBad sb.1 1 (if p then 3 else 1) stack (globalOf s la)
        (if p then t else addCandidate t 1 2 stack u.1, true)) (s, false)

/-- Read-check of bytes first to first + n − 1 of a unit of an SRAM kind; a corrected word waits to be rewritten. -/
def sramReadCheck (s : State) (kind c first n : Nat) : State × Bool :=
  s.mem.sramRaw.foldl (fun (sb : State × Bool) u =>
    let w := u.1 % 2 ^ 24
    if n = 0 ∨ u.1 / 2 ^ 24 ≠ sramKey kind c 0 / 2 ^ 24 ∨ first + n ≤ 8 * w ∨ 8 * w + 8 ≤ first then sb else
    match u.2 with
    | none => sb
    | some r =>
      match (sramDecode (BitVec.ofNat 64 (ofLe r.data)) (r.check.getD 0 0)).2 with
      | .clean => sb
      | .corrected =>
        let t := noteCorrected sb.1 kind c (sramAddr s u.1)
        let others := t.mem.rewrites.filter fun k => decide (k ≠ u.1)
        ({ t with mem := { t.mem with rewrites := u.1 :: others } }, sb.2)
      | .bad _ => (addCandidate (noteBad sb.1 kind 1 c (sramAddr s u.1)) kind 2 c u.1, true)) (s, false)

/-! ### The shared cache (R178 to R181, R531, R533) -/

/-- The physical 256-byte line of an HBM address, its home die, and its set (R179: 16 ways, so 32,768 sets). -/
def lineOf (s : State) (a : Nat) : Nat := phys s a / 256
def lineDie (l : Nat) : Nat := l * 256 / stackSize / 3
def lineSet (l : Nat) : Nat := Config.cacheSet l % 32768

/-- Replace the list of valid lines. -/
def State.setCache (s : State) (l : List CacheLine) : State := { s with mem := { s.mem with cache := l } }

/-- The 64-byte units of a line that hold an uncorrectable word, written back poisoned (R533). -/
def poisonUnits (s : State) (x : CacheLine) : State :=
  x.bad.foldl (fun t w =>
    let u := 4 * x.line + w / 8
    t.setUnit u (some (poisonCode (hread t (localOf t u) 64)))) s

/-- A line is written back if it is dirty, and counted (R181). -/
def writeBack (s : State) (x : CacheLine) : State :=
  if x.dirty then poisonUnits (s.addEnt 0x4022 (lineDie x.line + 1) 1) x else s

/-- Room for line l in its set: where all 16 ways hold a line, the least recently used one is replaced (R179). -/
def makeRoom (s : State) (l : Nat) : State :=
  let same := s.mem.cache.filter fun x => decide (lineDie x.line = lineDie l ∧ lineSet x.line = lineSet l)
  if s.mem.cache.length < 16 ∨ same.length < 16 then s
  else match same.getLast? with
    | some x => writeBack (s.setCache (s.mem.cache.filter fun y => decide (y.line ≠ x.line))) x
    | none => s

/-- Count a lookup and whether it hit, for the die and for the step (R181). -/
def countLookup (s : State) (d : Nat) (hit : Bool) : State :=
  let s := s.addEnt 0x4020 (d + 1) 1
  let s := if hit then s.addEnt 0x4021 (d + 1) 1 else s
  { s with mem := { s.mem with
      stepLookups := sset 0 s.mem.stepLookups d (sget 0 s.mem.stepLookups d + 1)
      stepHits := if hit then sset 0 s.mem.stepHits d (sget 0 s.mem.stepHits d + 1) else s.mem.stepHits } }

/-- An access of n bytes from byte o of a line that the cache holds: the line as it is left, and the state. A word that a write
covers whole is fresh. A clean line with an uncorrectable word that the access uses is refilled, a correction of kind `0x05` (R531);
a dirty one is written back poisoned first, and read again from HBM (R533, Table 18-3). -/
def useLine (s : State) (x : CacheLine) (a o n : Nat) (write : Bool) : CacheLine × State :=
  let left := if write then x.bad.filter fun w => !(decide (o ≤ 8 * w) && decide (8 * w + 8 ≤ o + n)) else x.bad
  if left.any fun w => decide (8 * w < o + n) && decide (o < 8 * w + 8) then
    ({ x with dirty := write, bad := [] },
      if x.dirty then writeBack s { x with bad := left } else noteCorrected s 5 (lineDie x.line) (globalOf s a))
  else ({ x with dirty := x.dirty || write, bad := left }, s)

/-- One access of n bytes within a line at its home cache: a read or a write, which allocates unless it is a read marked
NOALLOC (R178, R179). -/
def lookup (s : State) (a n : Nat) (write alloc : Bool) : State :=
  let l := lineOf s a
  match s.mem.cache.find? fun x => decide (x.line = l) with
  | some x =>
    let u := useLine (countLookup s (lineDie l) true) x a (phys s a % 256) n write
    u.2.setCache (u.1 :: s.mem.cache.filter fun y => decide (y.line ≠ l))
  | none =>
    let s := countLookup s (lineDie l) false
    if write || alloc then
      let s := makeRoom s l
      s.setCache ({ line := l, dirty := write, bad := [] } :: s.mem.cache)
    else s

/-- An access to each aligned piece of g bytes of n bytes of HBM at a. -/
def accesses (g : Nat) (s : State) (a n : Nat) (write alloc : Bool) : State :=
  if n = 0 then s else
  (List.range ((a + n - 1) / g - a / g + 1)).foldl (fun s k =>
    let lo := Nat.max a ((a / g + k) * g)
    lookup s lo (Nat.min (a + n) ((a / g + k + 1) * g) - lo) write alloc) s

/-- An access to every line of n bytes of HBM at a: what a longer access counts is one lookup a line (log entry 8). -/
def lookups (s : State) (a n : Nat) (write alloc : Bool) : State := accesses 256 s a n write alloc

/-- The lines that satisfy a test are written back and stay valid (R177). -/
def flushLines (s : State) (p : CacheLine → Bool) : State :=
  let t := (s.mem.cache.filter p).foldl writeBack s
  t.setCache (s.mem.cache.map fun x => if p x && x.dirty then { x with dirty := false, bad := [] } else x)

/-- The line that holds an address is written back and dropped (R539). -/
def dropLine (s : State) (a : Nat) : State :=
  let l := lineOf s a
  let t := (s.mem.cache.filter fun x => decide (x.line = l)).foldl writeBack s
  t.setCache (s.mem.cache.filter fun x => decide (x.line ≠ l))

/-- HBM as a unit of the module reads it: the bytes at their home caches, the state after the lookups and the read's corrections, and
whether a unit was uncorrectable. -/
def memRead (s : State) (a n : Nat) (alloc : Bool) : List Byte × State × Bool :=
  let r := hcheck (lookups s a n false alloc) a n
  (hread s a n, r.1, r.2)
/-- HBM as a unit of the module writes it. -/
def memWrite (s : State) (a : Nat) (b : List Byte) : State := hwrite (lookups s a b.length true true) a b

/-- What reading ranges of HBM does: lookups, corrections, counts (R178, R530, R534). -/
def readRanges (s : State) (l : List (Nat × Nat)) : State := l.foldl (fun t r => (memRead t r.1 r.2 true).2.1) s

/-! ### Raw access (R539, R540) -/

/-- Store 64 data bytes and 4 metadata bytes unchanged at a physical unit. -/
def putRawHbm (s : State) (u : Nat) (d m : List Byte) : State :=
  let r : RawCode := { data := padTo 64 d, check := padTo 4 m }
  let (v, f) := hbmDecode r
  (hput s (localOf s u) v).setUnit u (if f = .clean then none else some r)

/-- Store a word and its check byte unchanged. -/
def putRawSram (s : State) (key : Nat) (d : W64) (c : Byte) : State :=
  let (v, f) := sramDecode d c
  let (kind, core) := sramWhere key
  let t := s.modCore core fun x => x.setWord64 kind (key % 2 ^ 24) v
  let code : Option RawCode := if f = .clean then none else some { data := le 8 d.toNat, check := [c] }
  t.setSramWord key code

/-- The stored data and metadata of a unit, undecoded. -/
def getRawHbm (s : State) (u : Nat) : List Byte × List Byte :=
  match sget none s.mem.hbmRaw u with
  | some r => (r.data, r.check)
  | none => let d := hread s (localOf s u) 64; (d, hbmMeta d 0)

def getRawSram (s : State) (key : Nat) : List Byte × List Byte :=
  match sget none s.mem.sramRaw key with
  | some r => (r.data, r.check)
  | none =>
    let d := (s.core (sramWhere key).2).word64 (sramWhere key).1 (key % 2 ^ 24)
    (le 8 d.toNat, [sramCheck d])

end Sys2Proof.Machine
end

