-- ==== Sys2Proof/Machine/Image.lean ====
section
/-!
DEFINITION. The context image of a core (R164, Tables 5-3, 5-4, 7-8): written at a pause or a fault, read back for a resume.
-/
namespace Sys2Proof.Machine

def imageStride : Nat := 0x800000
/-- Local address of a core's image. -/
def imageAt (s : State) (c : Nat) : Nat := s.ent 0x5510 2 + c * imageStride

def leWords (n : Nat) (l : List Nat) : List Byte := l.flatMap (le n)

/-- One level of the loop stack (32 bytes); `0xFF` names no bound counter (log entry 12). -/
def loopBytes (l : LoopL) : List Byte :=
  le 4 l.body ++ le 4 l.planned.toNat ++ le 4 l.live.toNat ++ le 4 l.index.toNat ++
    le 1 (match l.counter with | some k => k.val | none => 0xFF) ++ le 1 (if l.skipping then 1 else 0) ++ le 14 0

/-- Numeric counter state (Table 7-8). -/
def numericBytes (x : CoreS) : List Byte :=
  (List.range 64).flatMap (fun k => (List.range 5).flatMap fun j => le 6 (sget 0 x.slots (k * 8 + j))) ++
    (List.range 64).flatMap fun k => le 1 (sget 0 x.slots (k * 8 + 5))

/-- Header bytes 0 to 4,031 (Table 5-4). DESIGN CHOICE (log entry 152): the loop levels lie innermost first. -/
def headerBytes (s : State) (c : Nat) (x : CoreS) (point : Nat) (offset : Nat) : List Byte :=
  le 1 1 ++ le 1 x.status ++ le 2 c ++ le 2 s.device ++ le 2 0 ++ le 4 (s.ent 0x5010 1) ++ le 4 (x.pc % 16384) ++
  le 8 point ++ le 8 offset ++
  leWords 8 (x.regs.map BitVec.toNat) ++ leWords 4 (x.counters.map BitVec.toNat) ++
  leWords 4 (x.pads.map BitVec.toNat) ++
  (List.range 48).flatMap (fun k => le 4 (sget 0 x.sems k).toNat) ++ le 8 x.landing.toNat ++ le 56 0 ++
  padTo 192 (x.loops.flatMap loopBytes) ++
  (List.range 64).flatMap (fun k => le 4 (s.ent 0x5110 (k + 1)) ++ le 4 (sget 0 x.shapes k).toNat) ++
  padTo 1984 (numericBytes x) ++ le 896 0

/-- Image bytes 4,096 to 7,340,031 (Table 5-3). -/
def bodyBytes (x : CoreS) : List Byte :=
  padTo 131072 (leWords 8 (x.program.map BitVec.toNat)) ++ padTo 32768 (leWords 8 (x.modes.map BitVec.toNat)) ++
  sread 0 x.active 0 32768 ++ sread 0 x.shadow 0 32768 ++
  (List.range 4).flatMap (fun k => padTo 8224 (sget [] x.acts k)) ++ le 3968 0 ++
  leWords 4 ((sread 0 x.acc 0 65536).map BitVec.toNat) ++ le 516096 0 ++
  sread 0 x.clm 0 clmSize ++ leWords 4 ((sread 0 x.wide 0 524288).map BitVec.toNat)

/-- Write a core's image: header, digest over header and body, body (R164). -/
def saveImage (s : State) (c point offset : Nat) : State :=
  let x := s.core c
  let h := headerBytes s c x point offset
  let b := bodyBytes x
  memWrite s (imageAt s c) (h ++ padTo 64 (padTo 48 (Config.sha384 (h ++ b))) ++ b)

/-- The digest that an image in memory must carry. -/
def imageDigest (s : State) (c : Nat) : List Byte :=
  padTo 48 (Config.sha384 (hread s (imageAt s c) 4032 ++ hread s (imageAt s c + 4096) (7340032 - 4096)))

/-- Whether an image passes the checks of R165: version, core number, digest. -/
def imageOk (s : State) (c : Nat) : Bool :=
  decide (hread s (imageAt s c) 1 = le 1 1) && decide (ofLe (hread s (imageAt s c + 2) 2) = c) &&
    decide (hread s (imageAt s c + 4032) 48 = imageDigest s c)

def wordsAt (n : Nat) (b : List Byte) (k : Nat) : List Nat := (List.range k).map fun i => field b (i * n) n

def loopOf (b : List Byte) : LoopL where
  body := field b 0 4
  planned := BitVec.ofNat 32 (field b 4 4)
  live := BitVec.ofNat 32 (field b 8 4)
  index := BitVec.ofNat 32 (field b 12 4)
  counter := if h : field b 16 1 < 4 then some ⟨field b 16 1, h⟩ else none
  skipping := decide (field b 17 1 = 1)

/-- The non-zero values of a list as a map. -/
def mapOf {α : Type} [DecidableEq α] (d : α) (l : List α) : SMap α := scells d 0 l

/-- A core restored from its image (R165, R237), its program the first `count` words of the instruction store: a wait that the pause
ended issues again at its instruction (R159). A level of the loop stack is in use when its first body instruction is not 0: no body
begins at instruction 0. What no image holds of the array and the row unit stays as the core has it (log entry 141). -/
def loadImage (s : State) (c count : Nat) : CoreS :=
  let h := hread s (imageAt s c) 4096
  let at_ (o n : Nat) := hread s (imageAt s c + o) n
  { CoreS.reset with
    status := if field h 1 1 = 3 then 2 else field h 1 1
    pc := field h 12 4 % 16384
    regs := (wordsAt 8 (slice h 32 128) 16).map (BitVec.ofNat 64)
    counters := (wordsAt 4 (slice h 160 16) 4).map (BitVec.ofNat 32)
    pads := (wordsAt 4 (slice h 176 16) 4).map (BitVec.ofNat 32)
    sems := mapOf 0 ((wordsAt 4 (slice h 192 192) 48).map (BitVec.ofNat 32))
    landing := BitVec.ofNat 48 (field h 384 8)
    loops := ((List.range 6).map fun k => loopOf (slice h (448 + 32 * k) 32)).filter fun l => decide (l.body ≠ 0)
    shapes := mapOf 0 ((List.range 64).map fun k => BitVec.ofNat 32 (field h (640 + 8 * k + 4) 4))
    slots := mapOf 0 ((List.range 512).map fun k =>
      if k % 8 < 5 then field h (1152 + 30 * (k / 8) + 6 * (k % 8)) 6
      else if k % 8 = 5 then field h (1152 + 1920 + k / 8) 1 else 0)
    program := (wordsAt 8 (at_ 0x1000 131072) (Nat.min count 16384)).map (BitVec.ofNat 64)
    lastMode := (s.core c).lastMode
    prevMode := (s.core c).prevMode
    rowsSince := (s.core c).rowsSince
    activeScales := (s.core c).activeScales
    fromPass := (s.core c).fromPass
    modes := (wordsAt 8 (at_ 0x21000 32768) 4096).map (BitVec.ofNat 64)
    active := mapOf 0 (at_ 0x29000 32768)
    shadow := mapOf 0 (at_ 0x31000 32768)
    acts := (List.range 4).map fun k => (k, at_ (0x39000 + 8224 * k) 8224)
    acc := mapOf 0 ((wordsAt 4 (at_ 0x42000 262144) 65536).map (BitVec.ofNat 32))
    clm := mapOf 0 (at_ 0x100000 clmSize)
    wide := mapOf 0 ((wordsAt 4 (at_ 0x500000 2097152) 524288).map (BitVec.ofNat 32)) }

end Sys2Proof.Machine
end

