-- ==== Sys2Proof/Machine/PageTable.lean ====
section
/-!
DEFINITION. Page tables and ownership records in HBM (R285 to R287), and what retiring a gather does to them (R293, R294).
-/
namespace Sys2Proof.Machine

def pageBase (s : State) : Nat := s.ent 0x5210 1
def pageEntries (s : State) : Nat := s.ent 0x5210 2
def poolBase (s : State) : Nat := s.ent 0x5210 3
def granuleBytes (s : State) : Nat := s.ent 0x5210 4
def granuleCount (s : State) : Nat := s.ent 0x5210 5

/-- Bytes of the ownership table for G granules (Table 9-5). -/
def ownBytes (g : Nat) : Nat := ceilDiv (4 * g) 4096 * 4096
/-- Bytes of the page area (Table 9-10). -/
def areaBytes (s : State) : Nat := ownBytes (granuleCount s) + 2048 * pageEntries s
/-- The page area returns to zero (R286). -/
def zeroArea (s : State) : State := if pageBase s = 0 then s else memWrite s (pageBase s) (List.replicate (areaBytes s) 0)
/-- Address of entry j of slot k, and of the record of granule n. -/
def pageEntryAt (s : State) (k j : Nat) : Nat := pageBase s + ownBytes (granuleCount s) + 8 * (k * pageEntries s + j)
def recordAt (s : State) (n : Nat) : Nat := pageBase s + 4 * n

/-- A page-table entry (Table 9-6). -/
structure PageEntry where
  first : Nat
  owner : Nat
  size : Nat
  mapped : Bool
  pending : Bool
  inFlight : Nat
deriving DecidableEq, Repr

def pageEntryOf (v : Nat) : PageEntry :=
  { first := bits v 31 0, owner := bits v 39 32, size := bits v 43 40, mapped := Nat.testBit v 44, pending := Nat.testBit v 45,
    inFlight := bits v 63 48 }
def PageEntry.word (e : PageEntry) : Nat :=
  e.first + e.owner * 2 ^ 32 + e.size * 2 ^ 40 + (if e.mapped then 2 ^ 44 else 0) + (if e.pending then 2 ^ 45 else 0) + e.inFlight * 2 ^ 48

/-- One access to an entry or a record at its home cache (R287), which sets it: what it held is read in the same access, its code checked
(R530, R534). -/
def pageWrite (s : State) (a n v : Nat) : State := hwrite (hcheck (lookups s a n true true) a n).1 a (le n v)

/-- Granules of a page with this size code. -/
def pageGranules (size : Nat) : Nat := 2 ^ size

/-- Set the records of g granules from n (Table 9-7). -/
def setRecords (s : State) (n g v : Nat) : State :=
  (List.range g).foldl (fun s i => pageWrite s (recordAt s (n + i)) 4 v) s

def State.pageSlot (s : State) (k : Nat) : PageSlot := sget PageSlot.reset s.pages.slots k
def State.setPageSlot (s : State) (k : Nat) (x : PageSlot) : State := { s with pages := { s.pages with slots := sset PageSlot.reset s.pages.slots k x } }

/-- Add to the counts of free and pending granules (`0x5230`). -/
def noteGranules (s : State) (free pending : Int) : State :=
  (s.setEnt 0x5230 1 ((s.ent 0x5230 1 : Int) + free).toNat).setEnt 0x5230 2 ((s.ent 0x5230 2 : Int) + pending).toNat

/-- A closing slot with no page pending is closed (Table 9-9). -/
def closeIfDone (s : State) (k : Nat) : State :=
  let x := s.pageSlot k
  if x.st = 2 ∧ x.pending = 0 then s.setPageSlot k PageSlot.reset else s

/-- A gather that held the page at entry address a retires or is dropped: one read less; the last one of a freed page clears
the entry and its records. -/
def releasePage (s : State) (a : Nat) : State :=
  let e := pageEntryOf (ofLe (hread s a 8))
  if e.inFlight ≤ 1 ∧ e.pending then
    let s := setRecords (pageWrite s a 8 0) e.first (pageGranules e.size) 0
    let s := noteGranules s (pageGranules e.size) (-(pageGranules e.size : Int))
    let x := s.pageSlot e.owner
    closeIfDone (s.setPageSlot e.owner { x with pending := x.pending - 1 }) e.owner
  else pageWrite s a 8 { e with inFlight := e.inFlight - 1 }.word

/-- Release every page that a core's descriptors hold. -/
def releaseMoves (s : State) (x : CoreS) : State := (x.moves.flatMap fun m => m.granules).foldl releasePage s

end Sys2Proof.Machine
end

