-- ==== Sys2Proof/Machine/Abort.lean ====
section
/-!
DEFINITION. The system-wide abort (R67 to R72): raising it, deciding on it, abandoning the step. The block has no
exception entry; this shared operation is what a failing command does instead.
-/
namespace Sys2Proof.Machine

def commitGuard : Nat := 6000

/-- Apply a function to the state of each port. -/
def mapPorts (f : PortS → PortS) (s : State) : State :=
  (List.range 48).foldl (fun s p => s.modPort p f) s

/-- Every port returns to all open at once; scheduled flits are no longer sent (R72, R64). -/
def openPorts (s : State) : State := mapPorts (fun x => { x with inForce := none }) s

/-- Payload of an ABORT flit (Table 2-6). -/
def abortPayload (orig reason raise step : Nat) : List Byte :=
  padTo 240 (le 1 1 ++ le 1 0 ++ le 2 orig ++ le 2 reason ++ le 2 0 ++ le 8 raise ++ le 4 step ++ le 4 0)

/-- Queue an ABORT flit on every port in service but one (R68, R69). -/
def floodAbort (s : State) (orig reason raise step : Nat) (except : Option Nat) : State :=
  let f := bareFlit 0xA (abortPayload orig reason raise step)
  (List.range 48).foldl (fun s p =>
    if s.inService p && decide (except ≠ some p) then s.modPort p fun x => { x with urgent := x.urgent ++ [f] } else s) s

/-- Write the destination words of a pass. -/
def applyPass (x : CoreS) (p : Pass) : CoreS :=
  let x := p.clm.foldl (fun x w => x.setClm w.1 w.2) x
  p.writes.foldl (fun x w =>
    match w.1 with
    | 1 => { x with wide := swrite 0 x.wide w.2.1 w.2.2 }
    | _ => { x with acc := swrite 0 x.acc w.2.1 w.2.2 }) x

/-- What an outstanding pass still writes when its core halts is not stated: each of its destination rows is written or not,
a free choice for each (log entry 13). -/
def leftWrites (ctr : Nat) (p : Pass) : Pass :=
  let kept := fun (k : Nat) => decide ((Config.freeWord (ctr + 2 ^ 64 * (k + 1))).toNat % 2 = 1)
  { p with
    writes := (p.writes.zipIdx.filter fun w => kept (2 * w.2)).map Prod.fst
    clm := (p.clm.zipIdx.filter fun w => kept (2 * w.2 + 1)).map Prod.fst }

/-- A core halted by the abort (R72, R563). -/
def haltCore (ctr : Nat) (x : CoreS) : CoreS :=
  let x := (x.passes.zipIdx).foldl (fun x p => applyPass x (leftWrites (ctr + p.2) p.1)) x
  { x with
    status := if x.status = 2 ∨ x.status = 3 then 1 else x.status
    wait := .none
    waitRaised := false
    passes := []
    moves := []
    posts := []
    fromPass := []
    slots := [] }

/-- Stored codes of the words that a pass's destination rows cover (R533). -/
def touchPass (c : Nat) (s : State) (p : Pass) : State :=
  let s := p.clm.foldl (fun s w => touchSram s 2 c w.1 w.2.length) s
  p.writes.foldl (fun s w => touchSram s (if w.1 = 1 then 3 else 4) c (4 * w.2.1) (4 * w.2.2.length)) s

/-- Those that the outstanding passes of a core still write as it halts. -/
def touchLeft (s : State) (c : Nat × CoreS) : State :=
  (c.2.passes.zipIdx).foldl (fun t p => touchPass c.1 t (leftWrites (s.freeCtr + c.1 * 64 + p.2) p.1)) s

/-- Halt every core; the pages that dropped descriptors hold are released first (R293). -/
def haltCores (s : State) : State :=
  let s := s.cores.foldl (fun t c => touchLeft (releaseMoves t c.2) c) s
  { s with
    links := { s.links with transfers := s.links.transfers.filter fun k => decide (k.1 / 65536 ≠ s.device) }
    cores := s.cores.map (fun c => (c.1, haltCore (s.freeCtr + c.1 * 64) c.2))
    freeCtr := s.freeCtr + 192 * 64 }

/-- Ballast rows of a wait that ends (R160, R161): at most one an arithmetic cycle of its length; a free number, since the
clock edges are not modelled (log entry 3). -/
def noteBallast (s : State) (c : Nat) : State :=
  let d := drawNat s ((s.now.toNat - (s.core c).waitSince.toNat) * 3 / 2 + 2)
  d.2.addEnt 0x5504 (c + 1) d.1

/-- The ballast of a core that waits, at the end of its wait. -/
def endBallast (s : State) (c : Nat) : State := if (s.core c).status = 3 then noteBallast s c else s

/-- Rows of ballast of the cores that wait when a run stops. -/
def waitBallast (s : State) : State := (List.range 192).foldl endBallast s

/-- A core halts by fault: its wait, if it waits, is over. -/
def stopFaulted (s : State) (c : Nat) : State :=
  (endBallast s c).modCore c fun x => { x with status := 5, wait := .none }

/-- The image of a core that halts by fault is written as it halts, once, without a drain (R166). -/
def saveFaulted (s : State) : State :=
  if s.ent 0x5510 2 = 0 then s else
  (List.range 192).foldl (fun t c =>
    if (s.core c).status = 5 ∧ (s.core c).saved = false then
      (saveImage t c s.now.toNat (s.now.toNat - s.run.start.toNat)).modCore c fun x => { x with saved := true }
    else t) s

/-- The collective engines on abort (R430): slots freed, nothing further lands or signals, RECORD store cleared. -/
def abortColl (c : Coll) : Coll :=
  { c with sends := [], recvs := [], groups := [], record := [], staged := [], high := [], voteOr := 0, voteDone := [] }

/-- Hit rate of the step in units of 0.01 % (R181), rounded down, and 0 for a die with no lookup in the step (DESIGN CHOICE, log entry 152). -/
def hitRates (s : State) : State :=
  let s := (List.range 4).foldl (fun s d =>
    let n := sget 0 s.mem.stepLookups d
    s.setEnt 0x4023 (d + 1) (if n = 0 then 0 else sget 0 s.mem.stepHits d * 10000 / n)) s
  { s with mem := { s.mem with stepLookups := [], stepHits := [] } }

/-- W_r (R495). -/
def rampWindow (s : State) : Nat := ceilDiv 3000000 (s.ent 0x2200 1)

/-- The governor lowers the duty from u in steps of 1, each W_r / 256 after the one before (R493, R498). -/
def taperFrom (s : State) (u : Nat) : State :=
  { (s.setEnt 0x2200 5 u) with power := { s.power with taperLeft := u, taper := (s.now, rampWindow s, u), ramp := none } }

/-- The taper that ends a run: from u = 256 in 256 steps (R498). -/
def startTaper (s : State) : State := taperFrom s 256

/-- Parts of the run that end with it: pause request, verdict, flags of the step (R162, R235). -/
def clearStep (r : Run) : Run :=
  { r with pauseAsked := false, drainSince := none, drained := false, deferred := none, verdict := none, nonfinite := false,
           blockRaised := false, blockCount := 0, walked := false, digests := [], divergent := [], repaired := [], repairsSent := [], early := [],
           diverged := false, voteRepaired := false, late := [], aborts := [] }

/-- On abort a region unit discards its queue; the command that runs is stopped and lands nothing (R311). -/
def killQueue (l : List RegionCmd) : List RegionCmd := (l.take 1).map fun c => { c with live := false }

/-- Abandon the step (R72): ABORTING; ports open; cores halted; next copy unflipped; batches kept; taper begun. -/
def abandon (s : State) : State :=
  let s := waitBallast (hitRates s)
  let s := (((openPorts (haltCores s)).setEnt 0x5010 3 3).addEnt 0x7000 7 1).setEnt 0x3100 2 0
  let s := { s with
    coll := abortColl s.coll
    regions := s.regions.map (fun (r : Nat × List RegionCmd) => (r.1, killQueue r.2))
    run := { clearStep s.run with aborts := s.run.aborts }
    power := { s.power with stretched := false, exceeded := false } }
  startTaper (s.enterEff .aborting)

/-- The commit capo of the step in progress: the next COMMIT entry, if one is left. -/
def commitCapo (r : Run) : Option Nat :=
  ((r.capos.drop r.nextCapo).find? fun c => decide (c.2.1 = 2)).map fun c => r.start.toNat + c.1

/-- Whether an abort of this raise time abandons the step (R71): it is earlier than the commit capo less the guard. Where
no commit capo is left no commit can be stopped, and the abort abandons (log entry 14). -/
def abandons (r : Run) (raise : Nat) : Bool :=
  match commitCapo r with
  | some c => decide (raise + commitGuard < c)
  | none => true

/-- Send an abort on and decide on it (R68, R71). A step that is being abandoned already only sends it on. -/
def actAbort (s : State) (orig reason raise : Nat) (except : Option Nat) : State :=
  let s := floodAbort s orig reason raise (s.ent 0x5010 1 % 2 ^ 32) except
  let s := if s.run.aborts = [] then s.setEnt 0x3110 4 raise else s
  let s := { s with run := { s.run with aborts := BitVec.ofNat 64 raise :: s.run.aborts } }
  if !s.running then s
  else if abandons s.run raise then abandon s
  else { s with run := { s.run with deferred := match s.run.deferred with
    | none => some (BitVec.ofNat 16 orig, BitVec.ofNat 16 reason, BitVec.ofNat 64 raise)
    | some d => if raise < d.2.2.toNat then some (BitVec.ofNat 16 orig, BitVec.ofNat 16 reason, BitVec.ofNat 64 raise)
                else some d } }

/-- Raise the system-wide abort for a reason at this time, whatever aborts of the step are held already (R68); outside a run there
is no step to abort. -/
def abortRun (s : State) (reason : Nat) : State :=
  if s.running then actAbort s s.device reason s.now.toNat none else s

/-- A core halts by fault at an instruction: status, event, image, system-wide abort with the event as its reason. -/
def coreFault (s : State) (c : Nat) (code : Nat) (vs : List (Nat × Nat)) : State :=
  abortRun (saveFaulted ((stopFaulted s c).raise code vs)) code

end Sys2Proof.Machine
end

