-- ==== Sys2Proof/Machine/Flint.lean ====
section
/-!
DEFINITION. Firmware images and their selection (R471 to R476), shared by the start-up and trust commands.
-/
namespace Sys2Proof.Machine

/-- The bytes of an image slot. -/
def imageBytes (s : State) (kind slot : Nat) : List Byte :=
  match sget [] s.trust.images (kind * 4 + slot) with
  | [] => Config.shippedImage kind slot
  | b => b

def imageTag : List Byte := asciiBytes [70, 73, 77, 71]

/-- The header fields of an image (Table 16-1). -/
def imageBody (b : List Byte) : Nat := field b 12 4
def imageSecurity (b : List Byte) : Nat := field b 7 1
def imageVersion (b : List Byte) : Nat := field b 8 4
/-- Offset of the signatures, and the image's length (R471). -/
def imageSigAt (b : List Byte) : Nat := 128 + ceilDiv (imageBody b) 64 * 64
def imageLength (b : List Byte) : Nat := imageSigAt b + 16608

/-- Measurement: the hash of the header followed by the body (R471). -/
def imageMeasure (b : List Byte) : List Byte := padTo 48 (Config.sha384 (slice b 0 (128 + imageBody b)))

/-- Whether the header is well formed for a kind (Table 16-1, R472); reserved bytes are ignored (R8). -/
def imageHeaderOk (b : List Byte) (kind : Nat) : Bool :=
  decide (b.take 4 = imageTag) && decide (field b 4 1 = 1) && decide (field b 5 1 = kind) && decide (field b 6 1 = 1) &&
    decide (imageSecurity b ≤ 63) && decide (1 ≤ imageBody b) && decide (imageBody b ≤ 16777216) &&
    decide (imageLength b ≤ b.length)

/-- Failure bits of an image (R475): 0 RSA, 1 SLH-DSA, 2 header, 3 below the floor. 0 for a valid image (R472). -/
def imageFailure (s : State) (b : List Byte) (kind : Nat) : Nat :=
  let m := imageMeasure b
  (if Config.rsaVerifies Config.firmwareRsaKey m (slice b (imageSigAt b) 384) then 0 else 1) +
  (if Config.slhVerifies Config.firmwareSlhKey m (slice b (imageSigAt b + 384) 16224) then 0 else 2) +
  (if imageHeaderOk b kind then 0 else 4) +
  (if s.ent 0x8200 (kind + 10) ≤ imageSecurity b then 0 else 8)

/-- Raise SIG_FAIL with object, slot and failure bits (R475). -/
def sigFail (s : State) (object slot bits_ : Nat) : State := s.raise 0x8201 [(1, object), (1, slot), (1, bits_)]

/-- Run an image: its slot is active, its version is shown, its measurement enters its register (R473, R476). -/
def runImage (s : State) (kind slot : Nat) : State :=
  let b := imageBytes s kind slot
  ((s.setEnt 0x8200 (kind + 5) slot).setEnt 0x8200 (kind + 15) (imageVersion b)).setOct 0x8210 kind (imageMeasure b)

/-- Try the slots in order; the first valid one runs and each that fails raises SIG_FAIL. -/
def trySlots (kind : Nat) : List Nat → State → State × Bool
  | [], s => ((s.setEnt 0x8200 (kind + 5) 0xFF).setEnt 0x8200 (kind + 15) 0, false)
  | k :: r, s =>
    let f := imageFailure s (imageBytes s kind k) kind
    if f = 0 then (runImage s kind k, true) else trySlots kind r (sigFail s kind k f)

/-- The slot with which a start of a kind begins: while the main side starts, the one preferred at the POWER_UP or RESTART (R485). -/
def startSlot (s : State) (kind : Nat) : Nat := (sget none s.trust.startSlots kind).getD (s.ent 0x8200 kind)

/-- A start of the main side begins: it runs the images preferred now (R485). -/
def noteSlots (s : State) : State :=
  { s with trust := { s.trust with startSlots := [2, 3, 4, 5].foldl (fun m k => sset none m k (some (s.ent 0x8200 k))) [] } }

/-- Select a kind's image (R473): the preferred slot, the other, and for Galena the factory slot. -/
def selectImage (s : State) (kind : Nat) : State × Bool :=
  let p := startSlot s kind
  trySlots kind ([p, 1 - p] ++ if kind = 1 then [2] else []) s

end Sys2Proof.Machine
end

