-- ==== Sys2Proof/Machine/Power.lean ====
section
/-!
DEFINITION. Power, clocks, external inputs and start-up (chapter 17, and R445, R446, R473, R528, R542): shared operations
first, then one meaning for each command.
-/
namespace Sys2Proof.Machine

/-! ### Entering and leaving the powered main side -/

/-- Volatile entries take their defaults (R436). -/
def keepSaved {α : Type} (m : SMap α) : SMap α :=
  m.filter fun e => match entryOf (e.1 / 256) (e.1 % 256) with
    | some d => d.saved
    | none => false

/-- The ports a laser source feeds (R378). -/
def laserPorts (src : Nat) : List Nat :=
  match src with
  | 0 => [0, 1, 2, 3, 4, 5, 6, 7]
  | 1 => [8, 9, 10, 11, 12, 13, 14, 15]
  | 2 => [32, 33, 34, 35, 36, 37, 38, 39]
  | 3 => [16, 17, 18, 19, 20, 21, 22, 23]
  | 4 => [24, 25, 26, 27, 28, 29, 30, 31]
  | _ => [40, 41, 42, 43, 44, 45, 46, 47]

/-- The ports of failed laser sources stay dark: laser off (R378, Table 13-13). -/
def darkPorts (s : State) : State :=
  s.links.lasers.foldl (fun s k => (laserPorts k).foldl (fun s p => s.setEnt 0x3300 (p + 1) 6) s) s

/-- The main side is reset (R518): its units, memories, ports and queues stand as at reset. Galena's dictionary, log, ring,
sessions and memory stay; the entries that show reset units return to their defaults. -/
def mainReset (s : State) : State :=
  let s := clearEnts [(0x3000, 2, 7), (0x3021, 1, 0x30), (0x3300, 1, 0x30), (0x3301, 1, 0x30), (0x3302, 1, 0x30),
    (0x2200, 5, 5), (0x3100, 2, 2), (0x4600, 6, 6), (0x5220, 1, 0x80), (0x5221, 1, 0x80)] s
  let s := darkPorts s
  { s with
    ctl := { s.ctl with railsOk := false, trained := false, filled := false, firmwareOk := false, portsPast := [],
                        resuming := false, phase := .ready }
    power := { s.power with ramp := none, taperLeft := 0, taper := (0, 0, 0), sheds := false, downAfterAbort := false, holdup := false }
    time := TimeS.reset
    links := { Links.reset with lasers := s.links.lasers }
    trust := { s.trust with hashing := false, owedTab := none }
    coll := Coll.reset
    run := Run.reset
    cores := []
    work := []
    mem := { s.mem with hbm := [], hbmRaw := [], sramRaw := s.mem.sramRaw.filter fun u => decide ((sramWhere u.1).1 = 9),
                        rewrites := s.mem.rewrites.filter fun k => decide ((sramWhere k).1 = 9), rawList := [], cache := [], stepLookups := [], stepHits := [], lendRaised := [], laps := [], lapStart := [], overdue := [], corrected := [],
                        correctedLast := [], scrubbed := [] }
    pages := { slots := [] }
    regions := []
    mfe := Mfe.reset
    video := Video.reset }

/-- Entries that are not durable are lost with the power: the log goes on from the last durable one (R459, R460). -/
def Audit.dropWaiting (a : Audit) : Audit :=
  let n := a.made - a.waiting.length
  { a with made := n, waiting := [], held := [],
           chain := if n = 0 then List.replicate 16 0 else slice (sget [] a.ring ((n - 1) % 1048576)) 48 16 }

/-- Clips that are stopped have decoded a free number of frames on their pipes, which the counts of R373 hold. -/
def countCuts (s : State) (stopped : Nat × Nat × Nat → Bool) : State :=
  (List.range 4).foldl (fun s p =>
    if stopped (s.video.decode.getD p (0, 0, 0)) then let (n, s) := drawNat s (2 ^ 32); s.addEnt 0x6430 (p + 1) n else s) s

/-- Streams are disabled and encode commands stop on entry into FAULT, INIT, STANDBY or OFF (R321, R372). -/
def disableStreams (s : State) : State :=
  { (clearEnts ((List.range 16).map fun k => (0x6100 + k, 1, 1)) (countCuts s fun d => decide (d.1 = 1))) with mfe := Mfe.reset, video := Video.reset }

/-- The ballast rows of waits that a run's end cuts off are counted (R161). -/
def endWaits (s : State) : State := if s.running then waitBallast s else s

/-- Every main-side rail is removed: STANDBY, main side held in reset (R492, R518). -/
def toStandby (s : State) : State :=
  let s := ((mainReset (disableStreams (endWaits s))).enter .standby).setOct 0x8210 7 []
  { s with ctl := { s.ctl with powered := false }, trust := { s.trust with startSlots := [] } }

/-- Entry to INIT (R518, R476, R373, R485, R543): the main side is reset, its image registers and the video engine's counts cleared; one more INIT
is counted. -/
def toInit (s : State) : State :=
  let s := clearEnts [(0x6410, 2, 3), (0x6430, 1, 7), (0x6440, 1, 3)] ((mainReset (disableStreams s)).enter .init)
  let s := [2, 3, 4, 5, 7].foldl (fun s k => s.setOct 0x8210 k []) (noteSlots s)
  { (s.setEnt 0x2400 3 3) with
    ctl := { s.ctl with powered := true, initAt := s.now }
    mem := { s.mem with inits := s.mem.inits + 1 } }

/-- Counts and entries that return to zero or their defaults when the main side passes through START (R111, R143, R169,
R202, R295, R317, R410, R431, R451, R522; 0x7018:02 counts since START). -/
def startEntries : List (Nat × Nat × Nat) :=
  [(0x2000, 4, 4), (0x2100, 8, 9), (0x2200, 6, 8), (0x3303, 1, 0x30), (0x3304, 1, 0x30), (0x3320, 1, 3), (0x3330, 1, 2),
   (0x3400, 1, 2), (0x3410, 1, 4), (0x3420, 1, 5), (0x3430, 1, 4), (0x5060, 1, 8), (0x5061, 1, 8), (0x5062, 1, 8),
   (0x4020, 1, 4), (0x4021, 1, 4), (0x4022, 1, 4), (0x4030, 1, 0xC0), (0x4031, 1, 0xC0), (0x5000, 2, 2),
   (0x5100, 1, 4), (0x5110, 1, 0x40), (0x5130, 1, 2), (0x5504, 1, 0xC0), (0x5520, 1, 2), (0x9100, 5, 5), (0x7018, 2, 2),
   (0x5200, 2, 4), (0x5210, 1, 6), (0x5220, 1, 0x80), (0x5221, 1, 0x80), (0x5230, 1, 2), (0x5240, 1, 4),
   (0x5320, 1, 4), (0x5330, 1, 4), (0x5A00, 1, 0xC0), (0x5A01, 1, 0xC0), (0x5A02, 1, 0xC0), (0x5A03, 1, 0xC0),
   (0x3300, 1, 0x30), (0x3301, 1, 0x30), (0x3302, 1, 0x30)] ++
  (List.range 12).map (fun k => (0x5120 + k, 1, 0x40)) ++ (List.range 8).map (fun k => (0x4500 + k, 4, 4)) ++
  (List.range 4).map fun k => (0x5310 + k, 2, 4)

/-- Sequencer state at START: memory is kept (R446, R563). -/
def idleCore (x : CoreS) : CoreS :=
  { CoreS.reset with clm := x.clm, wide := x.wide, acc := x.acc, active := x.active, shadow := x.shadow }

/-- The main side passes through START (R22, R38, R73, R390): entries cleared, address, role and root values taken into
force, ports train anew (log entry 15), fabric time is sought again; the 100 ms of listening of R38 count from here (DESIGN CHOICE, log entry
152). A measurement under way is dropped with the run. -/
def toStart (s : State) : State :=
  let s := ((darkPorts (clearEnts startEntries (zeroArea s))).clearOct 0x5200 4).enter .start
  let s := (s.setEnt 0x3200 4 ((s.ent 0x3200 1 * 32 + s.ent 0x3200 2) % 65536)).setEnt 0x3200 5 (s.ent 0x3200 3)
  let s := (((s.setEnt 0x3000 2 1).setEnt 0x3000 4 0xFF).setEnt 0x2400 3 8).setOct 0x8210 7 []
  { s with
    ctl := { s.ctl with startAt := s.now, firmwareOk := false, portsPast := [], phase := .ready, resuming := false }
    time := { TimeS.reset with prio := BitVec.ofNat 8 (s.ent 0x3010 1), ppsUse := BitVec.ofNat 8 (s.ent 0x3010 2),
                               cable := BitVec.ofNat 32 (s.ent 0x3010 4), listenAt := s.now }
    links := { s.links with ports := [], transfers := [], segments := [], requests := [], routes := [], hostMsgs := [],
                            maps := [] }
    run := Run.reset
    trust := { s.trust with hashing := false, owedTab := none }
    coll := Coll.reset
    work := []
    pages := { slots := [] }
    regions := []
    power := { s.power with slowNs := 0, slowSince := s.power.slowSince.map fun _ => s.now }
    cores := s.cores.map fun c => (c.1, idleCore c.2) }

/-- The output of an encode command that FAULT stops is undefined (R372): free bytes over its whole range. -/
def spoilOutputs (s : State) : State :=
  (s.video.ctxs.filterMap Prod.snd).foldl (fun s x =>
    let r := drawBytes s (field x.desc 56 4)
    memWrite r.2 (field x.desc 48 6) r.1) s

/-- A run that ends without its END entry or an abort: its waits' ballast is counted, the draw tapers (R489), and a power-down that a halt has
asked for follows (R512). -/
def endRun (s : State) : State :=
  if s.running then
    startTaper { (waitBallast s) with power := { s.power with sheds := s.power.sheds || s.power.downAfterAbort, downAfterAbort := false } }
  else s

/-- Enter FAULT with a reason (R446): the code is kept and STATE_FAULT raised; streams are disabled (R321). -/
def toFault (s : State) (reason : Nat) : State :=
  let s := endRun s
  let s := (openPorts (disableStreams (spoilOutputs (s.enter .fault)))).setEnt 0x3100 2 0
  ((s.setEnt 0x5002 4 reason).setOct 0x8210 7 []).raise 0x5005 [(2, reason)]

/-- Course and position are assigned (R21). -/
def assigned (s : State) : Bool := decide (s.ent 0x3200 1 ≠ 0x07FF) && decide (s.ent 0x3200 2 ≠ 0xFF)
/-- Some die sensor reads 60 °C or more (R507). -/
def dieHot (s : State) (limit : Int) : Bool := [1, 2, 3, 4, 5, 6, 7].any fun k => decide (limit ≤ signed 32 (s.ent 0x2300 k))
/-- What withholds power-up: HALT_IN held (R511), a supply halt (R491), heat (R507), missing firmware (R474). -/
def powerBlocked (s : State) : Bool :=
  decide (s.ent 0x2100 1 = 1) || s.power.supplyHalt.isSome || (s.power.thermalHold && dieHot s 60000) ||
    decide (s.ctl.missing ≠ [])

/-! ### Supply -/

/-- Take note of the input voltage and of the time above 58.0 V (Table 17-2). -/
def noteSupply (s : State) (mv : Nat) : State :=
  let hi := match s.power.highSince with
    | some t => s.power.highNs + (s.now.toNat - t.toNat)
    | none => s.power.highNs
  let since := if 58000 < mv then some s.now else none
  { s with power := { s.power with mv := mv, highNs := hi, highSince := since } }
/-- The sample of one microsecond joins the average of the last 1 ms that `0x2000:02` shows (Table 17-8, R493), rounded down (log entry 153). -/
def sampleSupply (s : State) (mv : Nat) : State :=
  let l := (mv :: s.power.mvs).take 1000
  { ((noteSupply s mv).setEnt 0x2000 2 (l.sum / l.length)) with power := { (noteSupply s mv).power with mvs := l } }

/-- The absolute ratings of the input (R549, Table 19-6). -/
def rated (mv : Int) (f : Out) : Out := if 64000 < mv ∨ mv < -60000 then .fault .outsideRatings else f

/-- HALT_IN with its detail (Table 17-9). -/
def haltEvent (s : State) (source reminder value : Nat) : State :=
  s.raise 0x1102 [(1, source), (1, reminder), (1, s.ctl.dev.code), (1, 0), (4, value % 2 ^ 32)]
/-- THROTTLE_IN with its detail. -/
def throttleEvent (s : State) (source reminder mhz : Nat) : State :=
  s.raise 0x1101 [(1, source), (1, reminder), (2, mhz), (4, s.ent 0x2100 5)]

/-- A throttle source enters (R502, R503): when throttle comes into force the clocks change to 1,000 MHz. -/
def throttleEnter (s : State) (source : Nat) (announce : Bool) : State :=
  let m := s.ent 0x2100 7
  if Nat.testBit m (source - 1) then s else
  let t := s.setEnt 0x2100 7 (m + 2 ^ (source - 1))
  if m ≠ 0 then t else
  let since := match t.power.slowSince with
    | some x => some x
    | none => some t.now
  let t := { (t.setEnt 0x2000 1 1000).addEnt 0x2100 9 1 with power := { t.power with returnLeft := 0, slowSince := since, throttleAt := some t.now } }
  if announce then throttleEvent t source 0 1000 else t

/-- One 50 MHz step of the return (R505). -/
def clockStep (s : State) : State :=
  let mhz := s.ent 0x2000 1 + 50
  let s := s.setEnt 0x2000 1 mhz
  let p := { s.power with returnLeft := s.power.returnLeft - 1, returnAt := s.power.returnAt + BitVec.ofNat 64 (ceilDiv 80000 (s.ent 0x2200 1)) }
  if mhz = 1500 then
    let slow := match s.power.slowSince with
      | some t => s.power.slowNs + (s.now.toNat - t.toNat)
      | none => s.power.slowNs
    { s with power := { p with slowNs := slow, slowSince := none } }
  else { s with power := p }

/-- A throttle source releases; after the last the clocks return in 10 steps, the first at the release (R505). -/
def throttleRelease (s : State) (source : Nat) : State :=
  let m := s.ent 0x2100 7
  if !Nat.testBit m (source - 1) then s else
  let t := s.setEnt 0x2100 7 (m - 2 ^ (source - 1))
  if m = 2 ^ (source - 1) then clockStep { t with power := { t.power with returnLeft := 10, returnAt := t.now } } else t

/-- POWER_APPLIED (R490, R520): 52 V arrives; volatile entries take their defaults; the memory of the management die is filled (R528); Flint starts
Galena (R473, R474). With another voltage, one of reversed polarity too, the module stays OFF (R549). -/
def execPowerApplied (mv : Int) (s : State) : Out :=
  rated mv <|
  if s.ctl.dev = .off ∧ 46000 ≤ mv ∧ mv ≤ 58000 then
    let mv := mv.toNat
    let s := { s with
      dict := keepSaved s.dict
      octs := keepSaved s.octs
      ev := { raised := [], ring := [], count := 0, alertLow := false }
      fdp := { s.fdp with sessions := [] }
      audit := { s.audit.dropWaiting with failed := false }
      trust := { s.trust with install := none, signing := 0, reportBody := none, report := [], chunks := [], token := [],
                              challengeLive := false, startSlots := [] }
      ctl := { s.ctl with everLocked := false, galenaHeld := false }
      mem := { s.mem with eccEvents := [], uncorrected := [], lapEvent := none }
      power := { Power.reset with mv := mv } }
    let s := freshSram (mainReset (sampleSupply s mv)) 9 0
    let (s, ok) := selectImage { s with ctl := { s.ctl with dev := .standby } } 1
    let s := (s.setEnt 0x2400 3 (if ok then 2 else 1)).setOct 0x8210 8 (Config.sha384 ([1, 2, 3, 4].flatMap (s.oct 0x8110)))
    let s := if s.ent 0x8130 7 = 1 then
        s.setOct 0x8210 6 (Config.sha384 s.trust.owner)
      else s
    .next (if ok then s else { s with ctl := { s.ctl with galenaHeld := true }, ev := { s.ev with alertLow := true } })
  else .next s

/-- STANDBY_POWER_LOSS (Table 17-2): below 38.0 V for 1 ms the standby side turns off. -/
def execStandbyPowerLoss (s : State) : Out :=
  if s.ctl.dev = .off then .next s
  else
    let s := ((mainReset (disableStreams (endWaits s))).setEnt 0x2100 1 0).setEnt 0x2100 4 0
    .next { s with
      ctl := { Ctl.reset with missing := s.ctl.missing }
      ev := { raised := [], ring := [], count := 0, alertLow := false }
      fdp := { s.fdp with sessions := [] }
      audit := s.audit.dropWaiting
      power := Power.reset }

/-- SUPPLY_LOW (Table 17-2): 44.0 V to below 46.0 V for 10 µs enters the source supply low. -/
def execSupplyLow (mv : Nat) (s : State) : Out :=
  if s.ctl.dev ≠ .off ∧ 44000 ≤ mv ∧ mv < 46000 then .next (throttleEnter (noteSupply s mv) 4 true) else .next s

/-- SUPPLY_HALT (R491, R492): the main side halts; in RUN the abort is raised; hold-up runs for 50 µs. With the main side
unpowered only the condition is in force (log entry 16). -/
def execSupplyHalt (t : FTime) (mv : Nat) (s : State) : Out :=
  rated mv <| atTime s t fun s =>
    if s.ctl.dev = .off ∨ (44000 ≤ mv ∧ mv ≤ 60000) ∨ s.power.supplyHalt.isSome then .next s else
    let src := if mv < 44000 then 2 else 3
    let s := noteSupply s mv
    let s := { s with power := { s.power with supplyHalt := some src } }
    if s.ctl.powered then
      let s := haltEvent (s.addEnt 0x2000 7 1) src 0 mv
      let s := abortRun s 0x1102
      .next { s with power := { s.power with holdup := true } }
    else .next s

/-- HOLDUP_EXPIRY (R492): every main-side rail is removed at once, without a taper. -/
def execHoldupExpiry (s : State) : Out :=
  if s.power.holdup then .next (toStandby s) else .next s

/-- SUPPLY_RECOVERED (R491, Table 17-3): the condition ends and the source supply low releases. -/
def execSupplyRecovered (mv : Nat) (s : State) : Out :=
  if s.ctl.dev ≠ .off ∧ 46000 ≤ mv ∧ mv ≤ 58000 then
    let s := noteSupply s mv
    .next (throttleRelease { s with power := { s.power with supplyHalt := none } } 4)
  else .next s

/-! ### Start-up -/

/-- AUTO_POWER_UP (R445, R21, R474, R507, R511, R521). -/
def execAutoPowerUp (s : State) : Out :=
  if s.ctl.dev = .standby ∧ s.ctl.galenaHeld = false ∧ s.ent 0x5003 2 = 1 ∧ assigned s ∧ powerBlocked s = false ∧
      s.power.railHold = false then .next (toInit s)
  else .next s

/-- RAILS_READY (Table 17-7): main rails in regulation; HBM training begins. -/
def execRailsReady (s : State) : Out :=
  if s.ctl.dev = .init ∧ s.ctl.railsOk = false then
    .next { (s.setEnt 0x2400 3 4) with ctl := { s.ctl with railsOk := true } }
  else .next s

/-- RAIL_TIMEOUT (R521): HALT_IN with source rail; STANDBY; auto power-up withheld until a POWER_UP. -/
def execRailTimeout (rail : W32) (s : State) : Out :=
  if s.ctl.dev = .init ∧ s.ctl.railsOk = false then
    let s := toStandby (haltEvent s 5 0 rail.toNat)
    .next { s with power := { s.power with railHold := true } }
  else .next s

/-- HBM_TRAINING_DONE (R520, R542, R543): the memory fill begins, or a failed stack enters FAULT with cause training. -/
def execHbmTrainingDone (failed : Option (Fin 12)) (s : State) : Out :=
  if s.ctl.dev = .init ∧ s.ctl.railsOk = true ∧ s.ctl.trained = false then
    match failed with
    | some k => .next (toFault (s.raise 0x4102 [(1, 1), (1, 4), (2, k.val), (4, 0), (8, 0)]) 0x4102)
    | none => .next { (s.setEnt 0x2400 3 5) with
        ctl := { s.ctl with trained := true, fillAt := s.now } }
  else .next s

/-- MEMORY_FILL_DONE (R528): every unit and every word of kinds `0x02` to `0x08` holds zero with its check bits; no line is valid; raw locations have
left their list (R540); the scrubbers begin (R535). -/
def execMemoryFillDone (s : State) : Out :=
  if s.ctl.dev = .init ∧ s.ctl.trained = true ∧ s.ctl.filled = false then
    let s := (s.setEnt 0x2400 3 6).setEnt 0x4200 3 0
    .next { s with
      ctl := { s.ctl with filled := true }
      cores := []
      mem := { s.mem with hbm := [], hbmRaw := [], sramRaw := s.mem.sramRaw.filter fun u => decide ((sramWhere u.1).1 = 9),
                          rewrites := s.mem.rewrites.filter fun k => decide ((sramWhere k).1 = 9), rawList := [], cache := [], laps := [],
                          lapStart := (List.range 6).foldl (fun m b => sset 0 m b s.now) [], overdue := [], corrected := [],
                          correctedLast := [], scrubbed := [] } }
  else .next s

/-- Fuse one confirmed fault (R542, R543): the entry with the INIT number, and REPAIR_APPLIED. -/
def fuse (s : State) (f : List Byte) : State :=
  if 2048 ≤ s.mem.fuses.length then s else
  let i := s.mem.fuses.length
  let e := padTo 12 f ++ le 4 s.mem.inits
  let s := { s with mem := { s.mem with fuses := s.mem.fuses ++ [e] } }
  ((s.addEnt 0x4300 2 1).setEnt 0x4300 3 (i + 1)).raise 0x4201
    [(1, field f 0 1), (1, field f 1 1), (2, field f 2 2), (4, field f 4 4), (2, i)]

/-- Spares of each stack and of each SRAM bank of 64 KiB (R542) that its fuse entries of a type have used. -/
def usedSpares (s : State) (f : List Byte) : Nat :=
  (s.mem.fuses.filter fun e => decide (field e 0 1 = field f 0 1 ∧ field e 2 2 = field f 2 2) &&
    (decide (field f 0 1 = 1) || decide (field e 8 2 = field f 8 2 ∧ field e 10 1 = field f 10 1))).length

/-- A spare is left for a fault (R542): of the 4 rows or 2 columns of its SRAM bank, or of the spare rows of its stack, whose number is not
stated (Config.stackSpares, log entry 154). -/
def spareLeft (s : State) (f : List Byte) : Bool :=
  decide (s.mem.fuses.length < 2048) && decide (usedSpares s f <
    if field f 0 1 = 1 then Config.stackSpares (field f 2 2) else if field f 10 1 = 1 then 4 else 2)

/-- Repair the faults in order while spares last; the faults left without one. -/
def repairAll : List (List Byte) → State → State × List (List Byte)
  | [], s => (s, [])
  | f :: r, s => if spareLeft s f then repairAll r (fuse s f) else let u := repairAll r s; (u.1, f :: u.2)

/-- A candidate is of a fault that was repaired: of its kind, unit and row. -/
def repairedBy (l : List (List Byte)) (c : Nat × Nat × Nat × Nat) : Bool :=
  l.any fun f => decide (field f 0 1 = c.1 ∧ field f 2 2 = c.2.2.1 ∧ (field f 8 2, field f 4 4) = Config.repairRow c.1 c.2.2.1 c.2.2.2)

/-- SELF_TEST_DONE (R542): candidates that passed are dropped and counted, those of a fault that is repaired leave the list; each fault is repaired
and fused; one without a spare, or that `spares` says no spare is left for, enters FAULT with cause self test; otherwise START. -/
def execSelfTestDone (passed : List Bool) (found : List (List Byte)) (spares : Bool) (s : State) : Out :=
  if s.ctl.dev = .init ∧ s.ctl.filled = true ∧ passed.length = s.mem.candidates.length then
    let failed := (s.mem.candidates.zip passed).filterMap fun c => if c.2 then none else some c.1
    let r := if spares then repairAll found s else (s, found)
    let fixed := found.filter fun f => !decide (f ∈ r.2)
    let left := failed.filter fun c => !repairedBy fixed c
    let s := (r.1.addEnt 0x4300 4 (passed.filter id).length).setEnt 0x4300 1 left.length
    let s := { s with mem := { s.mem with candidates := left } }
    match r.2 with
    | [] => .next (toStart (s.setEnt 0x2400 1 (((s.now.toNat - s.ctl.initAt.toNat) / 1000000) % 2 ^ 32)))
    | f :: _ => .next (toFault (s.raise 0x4102 [(1, field f 0 1), (1, 5), (2, field f 2 2), (4, 0), (8, 0)]) 0x4102)
  else .next s

/-- MAIN_FIRMWARE_VERIFIED (R473, R474, R485): the four main-side images are selected; a kind with none powers down. -/
def execMainFirmwareVerified (s : State) : Out :=
  if s.ctl.dev = .start ∧ s.ctl.firmwareOk = false then
    let (s, bad) := [2, 3, 4, 5].foldl (fun (sb : State × List Nat) k =>
      let (t, ok) := selectImage sb.1 k
      (t, if ok then sb.2 else sb.2 ++ [k])) (s, [])
    if bad = [] then .next { s with ctl := { s.ctl with firmwareOk := true }, trust := { s.trust with startSlots := [] } }
    else
      let s := toStandby s
      .next { s with ctl := { s.ctl with missing := bad } }
  else .next s

/-- PORT_START_TIMEOUT (R393): a port not in service 3 s after START was entered stays out, and START goes on. -/
def execPortStartTimeout (p : Port) (s : State) : Out :=
  if s.ctl.dev = .start ∧ s.inService p.val = false ∧ p.val ∉ s.ctl.portsPast then
    .next { s with ctl := { s.ctl with portsPast := p.val :: s.ctl.portsPast } }
  else .next s

/-- Every port is in service or past R393. -/
def portsSettled (s : State) : Bool := (List.range 48).all fun p => s.inService p || decide (p ∈ s.ctl.portsPast)

/-- START_COMPLETE (R445, R47). -/
def execStartComplete (s : State) : Out :=
  if s.ctl.dev = .start ∧ s.ent 0x3000 2 = 3 ∧ s.ctl.firmwareOk ∧ portsSettled s then
    .next ((s.setEnt 0x2400 2 (((s.now.toNat - s.ctl.startAt.toNat) / 1000000) % 2 ^ 32)).enter .ready)
  else .next s

/-! ### Ramp, taper, governor -/

/-- Duty after step i of the arming ramp (R495). -/
def rampDuty (u0 i : Nat) : Nat := u0 + ceilDiv (i * (256 - u0)) 256

/-- The duty that a taper under way leaves at an instant: k of its steps have fallen where the k-th, due ⌈k × W_r / 256⌉ ns after its beginning, is
not later (R498). -/
def taperDuty (s : State) (at_ : Nat) : Nat :=
  let (start, w, total) := s.power.taper
  if s.power.taperLeft = 0 then s.ent 0x2200 5
  else Nat.min s.power.taperLeft (if w = 0 then 0 else total - (at_ - start.toNat) * 256 / w)

/-- u₀ of the ramp: once a step has fallen as it was, before it the duty in force at the start fabric time less W_r (R495). -/
def rampBase (s : State) (start : FTime) (w u0 i : Nat) : Nat := if i = 0 then taperDuty s (start.toNat - w) else u0

/-- RAMP_STEP (R495): the next of the 256 steps falls, at its instant. The ramp takes over from a taper that is still under way. -/
def execRampStep (s : State) : Out :=
  match s.power.ramp with
  | some (start, w, u0, i) =>
    if s.eff = .armed ∧ s.run.checked ∧ i < 256 then
      let at_ := start.toNat - w + ceilDiv ((i + 1) * w) 256
      let now := if s.now.toNat ≤ at_ then BitVec.ofNat 64 at_ else s.now
      let u0 := rampBase s start w u0 i
      .next { (s.setEnt 0x2200 5 (rampDuty u0 (i + 1))) with
        now := now, power := { s.power with ramp := some (start, w, u0, i + 1), taperLeft := 0 } }
    else .next s
  | none => .next s

/-- The draw of STANDBY, in W (Table 17-1). -/
def standbyW : Nat := 25
/-- The rails are shed after a POWER_DOWN taper, once the last of the draw can go within the ramp limit (R493, R498). -/
def shedIfDue (s : State) : State :=
  if s.power.sheds ∧ s.power.taperLeft = 0 ∧ s.power.lastW < standbyW + s.ent 0x2200 1 then toStandby s else s

/-- The step that falls at an instant belongs to the arming ramp, which has begun (R495). -/
def rampOwns (s : State) (at_ : Nat) : Bool :=
  match s.power.ramp with
  | some (start, w, _, _) => decide (s.eff = .armed) && s.run.checked && decide (start.toNat - w < at_)
  | none => false

/-- TAPER_STEP (R498): u falls by one of its 256 equal steps over W_r, at its instant (R493); at 0 a POWER_DOWN sheds the rails. -/
def execTaperStep (s : State) : Out :=
  if s.power.taperLeft = 0 then .next s else
  let n := s.power.taperLeft - 1
  let (start, w, total) := s.power.taper
  let at_ := start.toNat + ceilDiv ((total - n) * w) 256
  if rampOwns s at_ then .next s else
  .next (shedIfDue { (s.setEnt 0x2200 5 n) with
    now := if s.now.toNat ≤ at_ then BitVec.ofNat 64 at_ else s.now
    power := { s.power with taperLeft := n } })

/-- RAMP_LIMITED (Table 17-9). -/
def rampLimited (s : State) (kind rate : Nat) : State :=
  s.raise 0x1201 [(1, kind), (1, 0), (1, 0), (1, 0), (4, rate), (4, s.ent 0x5010 1 % 2 ^ 32)]

/-- Array cycles of 1 µs at the clock in force. -/
def tickCycles (s : State) : Nat := s.ent 0x2000 1

/-- Fill ballast rows of one tick, just enough to hold the fall (R499): how many that takes, and how many cycles each core has free for them, is
not stated (log entry 3); cores take them in ascending number. -/
def fillRows (s : State) : State :=
  let need := drawNat s (192 * tickCycles s)
  ((List.range 192).foldl (fun (sn : State × Nat) c =>
    let room := drawNat sn.1 (tickCycles s + 1)
    let n := Nat.min sn.2 room.1
    ((room.2.addEnt 0x5504 (c + 1) n).addEnt 0x2200 7 n, sn.2 - n)) (need.2, need.1 + 1)).1

/-- The least and the most of N cycles that lie in u of every 256 (R494). -/
def dutyLeast (u n : Nat) : Nat := n / 256 * u + (u - (256 - n % 256))
def dutyMost (u n : Nat) : Nat := n / 256 * u + Nat.min u (n % 256)

/-- Ballast rows of the last 1 µs outside a wait: in the arming ramp and the taper, in u of every 256 cycles (R494, R495, R498), the clock's phase
free; in a run, in every cycle of the cores that have ended by HALT (R160). -/
def tickBallast (s : State) : State :=
  let n := tickCycles s
  (List.range 192).foldl (fun t c =>
    let u := if s.running then (if (s.core c).status = 4 then 256 else 0) else s.ent 0x2200 5
    if u = 0 then t else
    let d := drawNat t (dutyMost u n - dutyLeast u n + 1)
    d.2.addEnt 0x5504 (c + 1) (dutyLeast u n + d.1)) s

/-- The governor's own change of load is under way outside a run: the rails of INIT and of a power-down, the arming ramp, the taper, the return
from throttle (R493). -/
def governs (s : State) : Bool :=
  !s.running && (decide (s.ctl.dev = .init) || s.power.sheds || decide (s.power.taperLeft ≠ 0) || decide (s.power.returnLeft ≠ 0) ||
    (match s.power.ramp with | some (_, _, _, i) => decide (i ≠ 0) | none => false))

/-- Throttle came into force within the last 2 µs: a fall of up to 800 W is not held to the limit (R503). -/
def throttleFall (s : State) : Nat :=
  match s.power.throttleAt with
  | some t => if s.now.toNat ≤ t.toNat + 2000 then 800 else 0
  | none => 0

/-- A draw that the governor lets happen: where the change of load is its own, the 1 µs draw moves by no more than the ramp limit; one that moves
further is no draw of this machine (R493; log entry 144). -/
def drawOk (s : State) (watts : Nat) : Bool :=
  !governs s || decide (watts ≤ s.power.lastW + s.ent 0x2200 1 ∧ s.power.lastW ≤ watts + s.ent 0x2200 1 + throttleFall s)

/-- The memory fill of INIT has failed: it is not complete 60 ms after it began (R521, R528; log entry 155). -/
def fillOverdue (s : State) : Bool :=
  decide (s.ctl.dev = .init) && s.ctl.trained && !s.ctl.filled && decide (s.ctl.fillAt.toNat + 60000000 < s.now.toNat)

/-- Readings of one tick: supply, power, peak, energy, and since when the 10 ms draw is low. -/
def noteDraw (s : State) (mv watts avg1ms avg10ms : Nat) : State :=
  let s := (sampleSupply s mv).setEnt 0x2000 3 (avg1ms % 2 ^ 32)
  let s := if s.ent 0x2000 4 < watts then s.setEnt 0x2000 4 watts else s
  let e := s.power.energyUJ + watts
  let below := if avg10ms < 3400 then (match s.power.below with | some x => some x | none => some s.now) else none
  { (s.setEnt 0x2000 5 (e / 1000000)) with power := { s.power with energyUJ := e, below := below, lastW := watts } }

/-- The draw of a running tab would fall faster than the ramp limit (R499): fill rows hold it, and STRETCHED is raised once a step. -/
def holdFall (s : State) (fall : Nat) : State :=
  let s := fillRows s
  if s.power.stretched then s else { (rampLimited s 1 fall) with power := { s.power with stretched := true } }

/-- The draw of a running tab has risen (R500): the largest rise is kept, one past the ramp limit is counted, and EXCEEDED raised once a step. -/
def noteRise (s : State) (rise : Nat) : State :=
  let s := if s.ent 0x2200 8 < rise then s.setEnt 0x2200 8 rise else s
  if rise ≤ s.ent 0x2200 1 then s else
  let s := s.addEnt 0x2200 6 1
  if s.power.exceeded then s else { (rampLimited s 2 rise) with power := { s.power with exceeded := true } }

/-- GOVERNOR_TICK (R493, R499 to R501): readings, energy, peak; the power cap; fill ballast and the ramp counts; the shedding of rails that waits
for the draw (R498). `watts` is the 1 µs draw before fill ballast, which holds it to the limit. -/
def execGovernorTick (t : FTime) (mv watts avg1ms avg10ms : Nat) (s : State) : Out :=
  rated mv <| atTime s t fun s =>
    if s.ctl.dev = .off ∨ drawOk s watts = false then .next s
    else if fillOverdue s then .next (toFault s 0x4102)
    else
      let old := s.power.lastW
      let limit := s.ent 0x2200 1
      let falls := s.running && decide (watts + limit < old)
      let draw := if falls then old - limit else watts
      let s := noteDraw (tickBallast s) mv draw avg1ms avg10ms
      let s := if falls then holdFall s (old - watts) else s
      let s := if s.running && decide (old < draw) then noteRise s (draw - old) else s
      .next (shedIfDue (if 4200 < draw ∨ 3600 < avg10ms then throttleEnter s 2 true else s))

/-- POWER_CAP_RELEASE (R501): the 10 ms draw has stayed below 3,400 W for 10 ms. -/
def execPowerCapRelease (s : State) : Out :=
  match s.power.below with
  | some t => if t.toNat + 10000000 ≤ s.now.toNat then .next (throttleRelease s 2) else .next s
  | none => .next s

/-- CLOCK_RETURN_STEP (R505). -/
def execClockReturnStep (t : FTime) (s : State) : Out :=
  atTime s t fun s =>
    if s.power.returnLeft ≠ 0 ∧ s.power.returnAt ≤ s.now then .next (clockStep s) else .next s

/-! ### Pins and heat -/

/-- Whether an input's event is due (R509): 60 s since its last. -/
def eventDue (last : Option FTime) (now : FTime) : Bool :=
  match last with
  | none => true
  | some t => decide (t.toNat + 60000000000 ≤ now.toNat)

/-- THROTTLE_IN_ASSERT (R503, R508 to R510). -/
def execThrottleInAssert (t : FTime) (s : State) : Out :=
  atTime s t fun s =>
    if s.ctl.dev = .off ∨ s.ent 0x2100 4 = 1 then .next s else
    let s := (s.setEnt 0x2100 4 1).addEnt 0x2100 5 1
    if s.ent 0x2100 6 ≠ 1 then .next s else
    let s := throttleEnter s 1 false
    if eventDue s.power.throttleEventAt s.now then
      .next { (throttleEvent s 1 0 (s.ent 0x2000 1)) with power := { s.power with throttleEventAt := some s.now } }
    else .next s

/-- THROTTLE_IN_RELEASE (R505, R508). -/
def execThrottleInRelease (t : FTime) (s : State) : Out :=
  atTime s t fun s => if s.ctl.dev ≠ .off ∧ s.ent 0x2100 4 = 1 then .next (throttleRelease (s.setEnt 0x2100 4 0) 1) else .next s

/-- An arming is cancelled: READY, or PAUSE for a resume (R452, R454, R51, R511); u stays where it was unless the ramp has
begun, when it is lowered as a taper (log entry 17). A measurement that was under way for it is dropped. -/
def cancelArming (s : State) : State :=
  let begun := match s.power.ramp with
    | some (_, _, _, i) => decide (i ≠ 0)
    | none => false
  let s := if begun then taperFrom s (s.ent 0x2200 5) else { s with power := { s.power with ramp := none } }
  let s := { s with run := { s.run with checked := false }, trust := { s.trust with hashing := false } }
  s.enterEff (if s.ctl.resuming then .pause else .ready)

/-- The main side powers down under R498: taper to 0, then the rails are shed. -/
def powerDown (s : State) : State :=
  let s := startTaper s
  { s with power := { s.power with sheds := true } }

/-- Table 17-4 for the action POWER_DOWN. -/
def haltPowerDown (s : State) : State :=
  if !s.ctl.powered then s else
  match s.eff with
  | .armed => powerDown (cancelArming s)
  | .run =>
    let s := abortRun s 0x1102
    { s with power := { s.power with downAfterAbort := true } }
  | .aborting => { s with power := { s.power with downAfterAbort := true } }
  | _ => powerDown s

/-- Table 17-4 for the action ABORT_HOLD. -/
def haltAbortHold (s : State) : State :=
  match s.eff with
  | .armed => cancelArming s
  | .run => abortRun s 0x1102
  | _ => s

/-- HALT_IN_ASSERT (R508, R509, R511). -/
def execHaltInAssert (t : FTime) (s : State) : Out :=
  atTime s t fun s =>
    if s.ctl.dev = .off ∨ s.ent 0x2100 1 = 1 then .next s else
    let s := (s.setEnt 0x2100 1 1).addEnt 0x2100 2 1
    let s := if eventDue s.power.haltEventAt s.now then
        { (haltEvent s 1 0 s.power.mv) with power := { s.power with haltEventAt := some s.now } }
      else s
    .next (if s.ent 0x2100 3 = 1 then haltAbortHold s else haltPowerDown s)

/-- HALT_IN_RELEASE (R511): power-up is no longer withheld by the pin. -/
def execHaltInRelease (t : FTime) (s : State) : Out :=
  atTime s t fun s => if s.ctl.dev ≠ .off ∧ s.ent 0x2100 1 = 1 then .next (s.setEnt 0x2100 1 0) else .next s

/-- INPUT_REMINDER (R509): every 60 s while an input stays asserted. -/
def execInputReminder (t : FTime) (haltPin : Bool) (s : State) : Out :=
  atTime s t fun s =>
    if s.ctl.dev = .off then .next s
    else if haltPin then
      if s.ent 0x2100 1 = 1 ∧ eventDue s.power.haltEventAt s.now then
        .next { (haltEvent s 1 1 s.power.mv) with power := { s.power with haltEventAt := some s.now } }
      else .next s
    else
      if s.ent 0x2100 4 = 1 ∧ s.ent 0x2100 6 = 1 ∧ eventDue s.power.throttleEventAt s.now then
        .next { (throttleEvent s 1 1 (s.ent 0x2000 1)) with power := { s.power with throttleEventAt := some s.now } }
      else .next s

/-- A die's temperature is reported now. -/
def noteTemp (s : State) (sub v : Nat) : State :=
  { (s.setEnt 0x2300 sub v) with power := { s.power with tempAt := sset none s.power.tempAt sub (some s.now) } }

/-- THERMAL_THROTTLE (Table 17-3): a die sensor at or above 100 °C. -/
def execThermalThrottle (t : FTime) (die : Fin 7) (mC : Nat) (s : State) : Out :=
  atTime s t fun s =>
    if s.ctl.dev = .off ∨ mC < 100000 ∨ 2 ^ 31 ≤ mC then .next s
    else .next (throttleEnter (noteTemp s (die.val + 1) mC) 3 true)

/-- THERMAL_RELEASE (Table 17-3, R507): every die sensor below 95 °C for 10 ms; the readings are the operands. -/
def execThermalRelease (t : FTime) (temps : List Int) (s : State) : Out :=
  atTime s t fun s =>
    if s.ctl.dev = .off ∨ temps.length ≠ 7 ∨ temps.any (fun x => decide (95000 ≤ x)) then .next s else
    let s := (temps.zipIdx).foldl (fun s x => noteTemp s (x.2 + 1) (unsigned 32 x.1)) s
    let s := { s with power := { s.power with thermalHold := s.power.thermalHold && dieHot s 60000 } }
    .next (throttleRelease s 3)

/-- THERMAL_HALT (R507): 110 °C or more for 1 ms; HALT_IN with source thermal; as the action POWER_DOWN. -/
def execThermalHalt (t : FTime) (die : Fin 7) (mC : Nat) (s : State) : Out :=
  atTime s t fun s =>
    if s.ctl.dev = .off ∨ mC < 110000 ∨ 2 ^ 31 ≤ mC ∨ s.ctl.powered = false then .next s else
    let s := haltEvent (noteTemp s (die.val + 1) mC) 4 0 mC
    .next (haltPowerDown { s with power := { s.power with thermalHold := true } })

end Sys2Proof.Machine
end

