-- ==== Sys2Proof/Machine/Flits.lean ====
section
/-!
DEFINITION. The flit layer of a port (R379 to R389): the 256 bytes of a flit and its CRC, which flits are sequenced and use
credits, reception, sequence and replay, credits.
-/
namespace Sys2Proof.Machine

/-! ### Layout (R379, R380) -/

/-- One bit of the CRC-32 of IEEE 802.3, least significant bit first. -/
def crcBit (c : W32) : W32 := if c.getLsbD 0 then (c >>> 1) ^^^ 0xEDB88320#32 else c >>> 1
def crcByte (c : W32) (b : Byte) : W32 := crcBit (crcBit (crcBit (crcBit (crcBit (crcBit (crcBit (crcBit (c ^^^ b.setWidth 32))))))))
/-- The CRC-32 of a run of bytes (R380). -/
def crc32 (b : List Byte) : W32 := ~~~(b.foldl crcByte 0xFFFFFFFF#32)

/-- The 96-bit header (Tables 13-2 and 13-3). -/
def headerOfFlit (f : Flit) : Nat :=
  f.kind.toNat + f.vc.toNat * 2 ^ 4 + (if f.last then 2 ^ 7 else 0) + f.seq.toNat * 2 ^ 8 + f.ack.toNat * 2 ^ 19 + f.creditVc.toNat * 2 ^ 30 +
    f.credits.toNat * 2 ^ 33 +
    (if f.kind = 1 then f.stream.toNat + f.index.toNat * 2 ^ 14 + f.rep.toNat * 2 ^ 32
     else f.dst.toNat + f.src.toNat * 2 ^ 16 + f.tag.toNat * 2 ^ 32 + f.index.toNat % 2 ^ 15 * 2 ^ 44) * 2 ^ 37

/-- The 256 bytes of a flit: header, payload, CRC-32. -/
def wireOf (f : Flit) : List Byte :=
  let b := le 12 (headerOfFlit f) ++ padTo 240 f.payload
  b ++ le 4 (crc32 b).toNat

/-- The flit that 256 bytes carry. -/
def flitOf (b : List Byte) : Flit :=
  let h := field b 0 12
  let sched := decide (bits h 3 0 = 1)
  { kind := BitVec.ofNat 4 (bits h 3 0)
    vc := BitVec.ofNat 3 (bits h 6 4)
    last := Nat.testBit h 7
    seq := BitVec.ofNat 11 (bits h 18 8)
    ack := BitVec.ofNat 11 (bits h 29 19)
    creditVc := BitVec.ofNat 3 (bits h 32 30)
    credits := BitVec.ofNat 4 (bits h 36 33)
    dst := if sched then 0 else BitVec.ofNat 16 (bits h 52 37)
    src := if sched then 0 else BitVec.ofNat 16 (bits h 68 53)
    tag := if sched then 0 else BitVec.ofNat 12 (bits h 80 69)
    index := BitVec.ofNat 18 (if sched then bits h 68 51 else bits h 95 81)
    stream := if sched then BitVec.ofNat 14 (bits h 50 37) else 0
    rep := if sched then BitVec.ofNat 16 (bits h 84 69) else 0
    payload := slice b 12 240 }

/-- A window of 256 bytes passes the CRC and carries a kind that is not reserved (R381). -/
def goodWindow (b : List Byte) : Bool :=
  decide (b.length = 256) && decide (field b 252 4 = (crc32 (b.take 252)).toNat) && decide (bits (field b 0 1) 3 0 < 0xE)

/-- Kinds of Table 13-4. -/
def kSched : Nat := 1
def kHead : Nat := 2
def kData : Nat := 3
def kRead : Nat := 4
def kResp : Nat := 5
def kAck : Nat := 6
def kPost : Nat := 7
def kHostmsg : Nat := 8
def kTime : Nat := 9
def kAbort : Nat := 0xA
def kTrain : Nat := 0xB
def kRetry : Nat := 0xC
def kMap : Nat := 0xD

/-- Sequenced kinds, and kinds that use credits. -/
def sequenced (k : Nat) : Bool := (decide (1 ≤ k) && decide (k ≤ 8)) || decide (k = kAbort) || decide (k = kMap)
def credited (k : Nat) : Bool := decide (2 ≤ k) && decide (k ≤ 8)

/-- The status field of an answer, where the flit carries one. -/
def answerStatus (f : Flit) : Option Nat :=
  if f.kind.toNat = kAck ∨ f.kind.toNat = kResp ∧ f.index = 0 then some (field f.payload 0 1) else none

/-- The payload of a MAP carries no reserved encoding: version 1, a written role of Table 1-3, and port states of Table 13-13. -/
def mapOk (b : List Byte) : Bool :=
  decide (field b 0 1 = 1) && decide (1 ≤ field b 1 1 ∧ field b 1 1 ≤ 3) &&
    (List.range 17).all fun k => decide (1 ≤ field b (5 + 4 * k) 1 ∧ field b (5 + 4 * k) 1 ≤ 6)

/-- A reserved kind or encoding (R9, R382): in the header, the status of an ACK or of the first flit of a RESP (Table 13-11), the version of a
TIME or ABORT payload, the flags of a TIME payload (Tables 2-1 and 2-6), or the payload of a MAP. -/
def badHeader (f : Flit) : Bool :=
  decide (0xE ≤ f.kind.toNat) || decide (6 ≤ f.creditVc.toNat) || (credited f.kind.toNat && decide (6 ≤ f.vc.toNat)) ||
    (match answerStatus f with | some v => decide (8 ≤ v) | none => false) ||
    (decide (f.kind.toNat = kTime ∨ f.kind.toNat = kAbort) && decide (field f.payload 0 1 ≠ 1)) ||
    (decide (f.kind.toNat = kTime) && decide (32 ≤ field f.payload 1 1)) || (decide (f.kind.toNat = kMap) && !mapOk f.payload)

/-- A difference of sequence numbers, modulo 2,048 (R383). -/
def seqDiff (a b : Nat) : Nat := (a + 2048 - b % 2048) % 2048

/-- The peer's Ack passes the flits before it in the replay buffer (R383). -/
def takeAck (x : PortS) (ack : Nat) : PortS :=
  let rest := x.replay.dropWhile fun e => decide (1 ≤ seqDiff ack e.1.seq.toNat ∧ seqDiff ack e.1.seq.toNat ≤ 1024)
  let gone := x.replay.length - rest.length
  { x with
    replay := rest
    resend := match x.resend with
      | some i => if rest.length ≤ i - gone then none else some (i - gone)
      | none => none }

/-- Credits returned by the peer (R387). -/
def takeCredits (x : PortS) (vc n : Nat) : PortS := { x with credits := x.credits.set vc (x.credits.getD vc 0 + n) }

/-- A discard starts a replay: a RETRY leaves in the next slot (R384). -/
def askReplay (x : PortS) : PortS :=
  if x.discarding then x else { x with discarding := true, retryDue := true }

/-- One buffer place of a VC is freed: its credit is owed to the peer (R387; log entry 19). -/
def freeCredit (s : State) (p vc : Nat) : State := s.modPort p fun x => { x with owed := x.owed.set vc (x.owed.getD vc 0 + 1) }

/-- Reception of a flit of one of the given kinds on a port in service (R382 to R384): the state, and whether the flit is
accepted. The Ack and credit fields of a discarded flit are ignored. -/
def receive (s : State) (p : Nat) (f : Flit) : State × Bool :=
  if s.inService p = false then ((if badHeader f then s else s.modPort p fun x => { x with failures := 0 }), false)
  else if badHeader f then (if sequenced f.kind.toNat then s.modPort p askReplay else s, false)
  else
    let x := { s.port p with failures := 0 }
    if sequenced f.kind.toNat ∧ f.seq.toNat ≠ x.rxSeq then (s.setPort p (askReplay x), false)
    else
      let x := takeCredits (takeAck x f.ack.toNat) f.creditVc.toNat f.credits.toNat
      let x := if sequenced f.kind.toNat then
          { x with rxSeq := (x.rxSeq + 1) % 2048, discarding := false, retryDue := false }
        else x
      let s := s.setPort p x
      (if credited f.kind.toNat then freeCredit s p f.vc.toNat else s, true)

/-- A flit received and accepted is handled by `f`; a discarded one changes no more than `receive` does. -/
def accepted (s : State) (p : Nat) (f : Flit) (kind : Nat) (g : State → Out) : Out :=
  if f.kind.toNat ≠ kind then .next s else
  match receive s p f with
  | (s, true) => g s
  | (s, false) => .next s

end Sys2Proof.Machine
end

