-- ==== Sys2Proof/Machine/Time.lean ====
section
/-!
DEFINITION. Fabric time (R34 to R56): the exchange of time flits, the servo and lock states, the root, PPS.
-/
namespace Sys2Proof.Machine

/-! ### Shared operations -/

def State.lock (s : State) : Nat := s.ent 0x3000 2
def State.timePort (s : State) (p : Nat) : TimePort := sget TimePort.reset s.time.ports p
def State.setTimePort (s : State) (p : Nat) (x : TimePort) : State :=
  { s with time := { s.time with ports := sset TimePort.reset s.time.ports p x } }

/-- A fraction of a nanosecond at the resolution of a timestamp, 125 ps or 2^13 units of 2^-16 ns (R42). -/
def fine (frac : W16) : W16 := frac &&& 0xE000
/-- A timestamp in units of 2^-16 ns (R42). -/
def stamp (t : Nat) (frac : Nat) : Int := ((t * 65536 + frac : Nat) : Int)
/-- Picoseconds of a difference of timestamps. -/
def toPs (x : Int) : Int := x * 1000 / 65536

/-- The pair that a neighbour advertises as root, where it delivers fabric time: it is LOCKED, within 14 hops (R35; log
entry 18). -/
def delivers (s : State) (p : Nat) : Bool :=
  s.inService p && !(s.port p).adapter && (match (s.timePort p).advert with
    | some (_, _, hops, flags) => flags.getLsbD 1 && decide (hops.toNat < 15)
    | none => false)

/-- Order of ports as upstream (R35): root priority, root address, hops, port. -/
def upKey (s : State) (p : Nat) : Nat :=
  match (s.timePort p).advert with
  | some (root, prio, hops, _) => ((prio.toNat * 65536 + root.toNat) * 256 + hops.toNat) * 64 + p
  | none => 2 ^ 40

/-- The port R35 takes, if some port delivers fabric time. -/
def bestPort (s : State) : Option Nat :=
  ((List.range 48).filter (delivers s)).foldl (fun b p =>
    match b with
    | none => some p
    | some q => if upKey s p < upKey s q then some p else some q) none

/-- The module's own pair as a root (R34). -/
def ownKey (s : State) : Nat := s.time.prio.toNat * 65536 + s.device
def portRootKey (s : State) (p : Nat) : Nat := upKey s p / 16384

/-- TIME_UNLOCK (R41, R49 to R51): event, then the effect by state. -/
def timeUnlock (s : State) (cause : Nat) (offsetPs : Int) : State :=
  let before := s.lock
  let s := (s.setEnt 0x3000 2 5).raise 0x2101
    [(1, cause), (1, before), (2, s.time.neighbour.toNat), (4, s.ent 0x3000 3 % 2 ^ 32),
     (8, if cause = 1 then 0 else unsigned 64 offsetPs)]
  match s.eff with
  | .armed => cancelArming s
  | .run => abortRun s 0x2101
  | _ => s

/-- Follow a root through a port: entries, and ROOT_CHANGE when an earlier root was followed (R37). -/
def follow (s : State) (p : Nat) : State :=
  match (s.timePort p).advert with
  | none => s
  | some (root, prio, hops, _) =>
    let old := s.ent 0x3000 5
    let had := decide (s.lock ≠ 1) || s.time.isRoot
    let s := ((s.setEnt 0x3000 4 p).setEnt 0x3000 5 root.toNat).setEnt 0x3000 6 (hops.toNat + 1)
    let s := { s with time := { s.time with isRoot := false, rootPrio := prio, neighbour := (s.timePort p).sender,
                                            changed := s.time.changed || (had && decide (old ≠ root.toNat)) } }
    if had && decide (old ≠ root.toNat) then
      s.raise 0x2105 [(2, root.toNat), (2, old), (1, prio.toNat), (1, hops.toNat + 1), (1, p), (1, 0), (8, 0)]
    else s

/-- Fabric time is stepped (R38, R39, R53): what is measured across the step keeps its length. -/
def stepTime (s : State) (v : FTime) : State :=
  let d := v - s.now
  { s with
    now := v
    ctl := { s.ctl with startAt := s.ctl.startAt + d }
    time := { s.time with
      listenAt := s.time.listenAt + d
      ppsLast := s.time.ppsLast.map (· + d)
      oowAt := s.time.oowAt.map (· + d)
      mergedAt := s.time.mergedAt.map (· + d) }
    fdp := { s.fdp with sessions := s.fdp.sessions.map fun e => (e.1, e.2.map fun x => { x with lastRx := x.lastRx + d }) }
    links := { s.links with
      ports := s.links.ports.map fun e => (e.1, { e.2 with
        replayTimes := e.2.replayTimes.map (· + d), degradedAt := e.2.degradedAt.map (· + d) })
      requests := s.links.requests.map fun e => (e.1, e.2.map fun r => { r with deadline := r.deadline + d }) }
    mem := { s.mem with
      lapStart := s.mem.lapStart.map fun e => (e.1, e.2 + d)
      eccEvents := s.mem.eccEvents.map fun e => (e.1, e.2.1 + d, e.2.2)
      lapEvent := s.mem.lapEvent.map (· + d) }
    power := { s.power with
      highSince := s.power.highSince.map (· + d)
      slowSince := s.power.slowSince.map (· + d)
      below := s.power.below.map (· + d)
      taper := (s.power.taper.1 + d, s.power.taper.2)
      returnAt := s.power.returnAt + d
      haltEventAt := s.power.haltEventAt.map (· + d)
      throttleEventAt := s.power.throttleEventAt.map (· + d)
      throttleAt := s.power.throttleAt.map (· + d) } }

/-- The servo's rate, within ±100 ppm (R40; its gains are not stated, log entry 3). -/
def servo (s : State) (offsetPs : Int) : State :=
  let r := Config.servoRate offsetPs (signed 32 (s.ent 0x3000 7))
  let r := if 100000 < r then 100000 else if r < -100000 then -100000 else r
  s.setEnt 0x3000 7 (unsigned 32 r)

/-- The module becomes LOCKED; its bound, at most 10 ns (R48), is not stated: a free value. -/
def becomeLocked (s : State) : State :=
  let (b, s) := drawNat s 10001
  let s := (s.setEnt 0x3000 2 3).setEnt 0x3000 3 b
  { s with time := { s.time with slewing := false }, ctl := { s.ctl with everLocked := true } }

/-- Discipline the copy by an offset to the upstream neighbour (R38, R40, R41, R46, R50). How far the bound has grown in
HOLDOVER, at most 20 ns a second (R49), is free. -/
def discipline (s : State) (offsetPs : Int) (joined : Bool) : State :=
  let big := decide (1000000 < offsetPs.natAbs)
  if s.lock = 1 then
    if s.ctl.dev = .start then
      let v := BitVec.ofInt 64 (s.now.toNat + offsetPs / 1000)
      let s := (stepTime s v).setEnt 0x3000 2 2
      { s with time := { s.time with good := 0 } }
    else s
  else if s.time.stuck then s
  else if joined && decide (s.ctl.dev = .start) then
    let s := (stepTime s (BitVec.ofInt 64 (s.now.toNat + offsetPs / 1000))).setEnt 0x3000 2 2
    { s with time := { s.time with good := 0, slewing := false } }
  else if joined && big then
    timeUnlock { s with time := { s.time with stuck := true } } 2 offsetPs
  else if decide (s.lock = 4 ∨ s.lock = 5) && big then
    timeUnlock { s with time := { s.time with stuck := true, slewing := true } } 3 offsetPs
  else
    let regain := decide (s.lock = 4 ∨ s.lock = 5) && !s.time.slewing
    let s : State := if regain then
        let d := drawNat s (20000 * (s.now.toNat - s.time.holdAt.toNat) / 1000000000 + 1)
        let s := if s.lock = 4 then d.2.setEnt 0x3000 3 (max (s.ent 0x3000 3 + d.1) offsetPs.natAbs)
          else s.setEnt 0x3000 3 (max (s.ent 0x3000 3) offsetPs.natAbs)
        let s := { s with time := { s.time with slewing := true, good := 0 } }
        if s.lock = 4 ∧ 32000 < s.ent 0x3000 3 then timeUnlock s 1 0 else s
      else s
    let s : State := servo s offsetPs
    let good : Nat := if offsetPs.natAbs ≤ 2000 then s.time.good + 1 else 0
    let s : State := { s with time := { s.time with good := good } }
    if 64 ≤ good ∧ s.lock ≠ 3 then becomeLocked s else s

/-! ### Commands -/

/-- Payload bytes of a time message (Table 2-1). -/
def timePayload (m : TimeP) : List Byte :=
  padTo 240 (le 1 m.version.toNat ++ le 1 m.flags.toNat ++ le 2 m.sender.toNat ++ le 2 m.root.toNat ++ le 1 m.rootPrio.toNat ++
    le 1 m.hops.toNat ++ le 2 m.seq.toNat ++ le 2 m.echoSeq.toNat ++ le 2 m.txFrac.toNat ++ le 2 m.echoFrac.toNat ++
    le 8 m.txTime.toNat ++ le 8 m.echoTime.toNat ++ le 4 m.bound.toNat)

/-- A time payload as received. -/
def timeOf (b : List Byte) : TimeP where
  version := BitVec.ofNat 8 (field b 0 1)
  flags := BitVec.ofNat 8 (field b 1 1)
  sender := BitVec.ofNat 16 (field b 2 2)
  root := BitVec.ofNat 16 (field b 4 2)
  rootPrio := BitVec.ofNat 8 (field b 6 1)
  hops := BitVec.ofNat 8 (field b 7 1)
  seq := BitVec.ofNat 16 (field b 8 2)
  echoSeq := BitVec.ofNat 16 (field b 10 2)
  txFrac := BitVec.ofNat 16 (field b 12 2)
  echoFrac := BitVec.ofNat 16 (field b 14 2)
  txTime := BitVec.ofNat 64 (field b 16 8)
  echoTime := BitVec.ofNat 64 (field b 24 8)
  bound := BitVec.ofNat 32 (field b 32 4)

/-- The message a port sends at a time (R42, R43): a module without fabric time names itself as candidate (log entry 18);
every other names the root it follows, or followed last, with the priority of that root. -/
def timeMessage (s : State) (p : Nat) (frac : W16) : TimeP :=
  let x := s.timePort p
  let own := decide (s.lock = 1) || s.time.isRoot
  { version := 1
    flags := BitVec.ofNat 8 ((if x.peerSeq.isSome then 1 else 0) + (if s.lock = 3 then 2 else 0) + (if s.lock = 4 then 4 else 0) +
      (if s.time.isRoot then 8 else 0) +
      (if s.time.isRoot ∧ s.time.ppsUse = 1 ∧ s.time.ppsLast.isSome ∧ s.time.ppsLostRaised = false then 16 else 0))
    sender := BitVec.ofNat 16 s.device
    root := BitVec.ofNat 16 (if own then s.device else s.ent 0x3000 5)
    rootPrio := if own then s.time.prio else s.time.rootPrio
    hops := BitVec.ofNat 8 (if own then 0 else s.ent 0x3000 6)
    seq := x.seq
    echoSeq := x.peerSeq.getD 0
    txFrac := frac
    echoFrac := BitVec.ofNat 16 (x.peerRx % 65536).toNat
    txTime := s.now
    echoTime := BitVec.ofInt 64 (x.peerRx / 65536)
    bound := BitVec.ofNat 32 (s.ent 0x3000 3) }

/-- TIME_EXCHANGE (R42 to R44): the port has a time flit to send; `frac` is the fraction of a nanosecond at which its first
bit leaves. t1 is kept against the sequence number, and taken anew in the slot in which the flit leaves (`departs`). -/
def execTimeExchange (t : FTime) (frac : W16) (p : Port) (s : State) : Out :=
  atTime s t fun s =>
    if !s.inService p.val then .next s else
    let x := s.timePort p.val
    let m := timeMessage s p.val (fine frac)
    let s := s.setTimePort p.val { x with
      seq := x.seq + 1, sentAt := (x.seq, stamp s.now.toNat (fine frac).toNat) :: x.sentAt.take 15 }
    .next (s.modPort p.val fun y => { y with urgent := y.urgent ++ [bareFlit 9 (timePayload m)] })

/-- A LOCKED module whose own pair is better than the best root delivered to it takes over as root and keeps counting from
its own value (R34, R37; log entry 30). -/
def takeOver (s : State) (q : Nat) : State :=
  if s.lock = 3 ∧ s.time.isRoot = false ∧ s.time.prio ≠ 0xFF ∧ ownKey s < portRootKey s q then
    let old := s.ent 0x3000 5
    let s := (((s.setEnt 0x3000 3 0).setEnt 0x3000 4 0xFF).setEnt 0x3000 5 s.device).setEnt 0x3000 6 0
    let s := { s with time := { s.time with isRoot := true, neighbour := 0xFFFF } }
    s.raise 0x2105 [(2, s.device), (2, old), (1, s.time.prio.toNat), (1, 0), (1, 0xFF), (1, 0), (8, 0)]
  else s

/-- Every neighbour's advert that the module holds names a root worse than the module itself, or the root that is lost: the
root a module in HOLDOVER followed last (R34). -/
def bestSeen (s : State) : Bool :=
  (List.range 48).all fun p => !s.inService p || (match (s.timePort p).advert with
    | some a => decide (ownKey s < portRootKey s p) || (decide (s.lock = 4) && decide (a.1.toNat = s.ent 0x3000 5))
    | none => true)

/-- A course number above 319 names no module (R14). -/
def noDevice (a : W16) : Bool := decide (319 < courseOf a.toNat)

/-- TIME_FLIT_RECEIVE (R35, R37, R43, R44): delay and offset, then discipline to the upstream neighbour. A payload with another
version or a reserved flag is discarded, and so is one from an adapter (R409). Two systems are joined where the followed root changes through a
port whose neighbour has never shown the root followed before, or at an offset above 1 µs; any other change of root steps nothing (R37;
DEDUCED, log entry 149). -/
def execTimeFlitReceive (t : FTime) (frac : W16) (p : Port) (f : Flit) (s : State) : Out :=
  atTime s t fun s => accepted s p.val f kTime fun s =>
    let m := timeOf f.payload
    if noDevice m.sender ∨ noDevice m.root ∨ (s.port p.val).adapter then .next s else
    let x := s.timePort p.val
    let t4 := stamp s.now.toNat (fine frac).toNat
    let s := s.setTimePort p.val { x with
      peerSeq := some m.seq, peerRx := t4, advert := some (m.root, m.rootPrio, m.hops, m.flags), sender := m.sender }
    let known := x.mine
    let s := if s.lock ≠ 1 ∧ s.ent 0x3000 5 = m.root.toNat then s.setTimePort p.val { s.timePort p.val with mine := true } else s
    let t1 := if m.flags.getLsbD 0 then (x.sentAt.find? fun e => decide (e.1 = m.echoSeq)).map Prod.snd else none
    match t1 with
    | none => .next s
    | some t1 =>
      let t2 := stamp m.echoTime.toNat m.echoFrac.toNat
      let t3 := stamp m.txTime.toNat m.txFrac.toNat
      let delay := toPs (((t4 - t1) - (t3 - t2)) / 2)
      let offset := toPs (((t2 - t1) - (t4 - t3)) / 2) - signed 32 (s.ent 0x3020 (p.val + 1))
      let s := s.setEnt 0x3021 (p.val + 1) (unsigned 32 delay)
      match bestPort s with
      | none => .next s
      | some q =>
        if q ≠ p.val ∨ (s.time.isRoot ∧ ownKey s ≤ portRootKey s q) then .next s else
        let s := follow s q
        let joined := s.time.changed && (!known || decide (1000000 < offset.natAbs))
        let s := { s with time := { s.time with changed := false } }
        .next (takeOver (discipline (s.setTimePort p.val { s.timePort p.val with mine := true }) offset joined) q)

/-- BECOME_ROOT (R34, R37 to R39): 100 ms have passed in START with no fabric time delivered, and no candidate seen is
better. A module in HOLDOVER whose root is lost takes over when it is the best candidate left, and keeps counting from its
own value (log entry 30). -/
def execBecomeRoot (s : State) : Out :=
  if s.lock = 4 ∧ s.time.isRoot = false ∧ (bestPort s).isNone ∧ s.time.prio ≠ 0xFF ∧ bestSeen s then
    let old := s.ent 0x3000 5
    let s := ((((s.setEnt 0x3000 2 3).setEnt 0x3000 3 0).setEnt 0x3000 4 0xFF).setEnt 0x3000 5 s.device).setEnt 0x3000 6 0
    let s := { s with time := { s.time with isRoot := true, slewing := false, neighbour := 0xFFFF } }
    .next (s.raise 0x2105 [(2, s.device), (2, old), (1, s.time.prio.toNat), (1, 0), (1, 0xFF), (1, 0), (8, 0)])
  else if s.ctl.dev = .start ∧ s.lock = 1 ∧ (bestPort s).isNone ∧ s.time.prio ≠ 0xFF ∧ bestSeen s ∧
      s.time.listenAt.toNat + 100000000 ≤ s.now.toNat then
    let s := stepTime s (BitVec.ofNat 64 (s.ent 0x3010 3))
    let s := (((((s.setEnt 0x2400 3 9).setEnt 0x3000 2 3).setEnt 0x3000 3 0).setEnt 0x3000 4 0xFF).setEnt 0x3000 5 s.device).setEnt 0x3000 6 0
    .next { s with time := { s.time with isRoot := true }, ctl := { s.ctl with everLocked := true } }
  else .next s

/-- UPSTREAM_RESELECT (R36, R37, R49): a new upstream port by R35, or HOLDOVER from LOCKED and FREE from ACQUIRING. A slew
that is broken off in HOLDOVER gives the rate last used while LOCKED back. -/
def execUpstreamReselect (s : State) : Out :=
  let up := s.ent 0x3000 4
  if s.time.isRoot ∨ s.lock = 1 ∨ up = 0xFF ∨ delivers s up then .next s else
  match bestPort s with
  | some q => .next (follow s q)
  | none =>
    let s := s.setEnt 0x3000 4 0xFF
    if s.lock = 3 then
      let s := s.setEnt 0x3000 2 4
      .next { s with time := { s.time with slewing := false, holdAt := s.now, holdRate := s.ent 0x3000 7, neighbour := 0xFFFF } }
    else if s.lock = 2 then
      let s := s.setEnt 0x3000 2 1
      .next { s with time := { s.time with listenAt := s.now, good := 0, neighbour := 0xFFFF } }
    else
      let since := if s.time.slewing then s.now else s.time.holdAt
      let s := if s.lock = 4 then s.setEnt 0x3000 7 s.time.holdRate else s
      .next { s with time := { s.time with slewing := false, holdAt := since, neighbour := 0xFFFF } }

/-- HOLDOVER_BOUND_EXCEEDED (R49): the bound, growing by at most 20 ns a second, passes 32 ns. -/
def execHoldoverBoundExceeded (t : FTime) (s : State) : Out :=
  atTime s t fun s =>
    if s.lock = 4 ∧ s.time.slewing = false ∧
        32000 * 1000000000 < s.ent 0x3000 3 * 1000000000 + 20000 * (s.now.toNat - s.time.holdAt.toNat) then
      .next (timeUnlock (s.setEnt 0x3000 3 32001) 1 0)
    else .next s

/-- The nearest whole second to a time in picoseconds, in nanoseconds. -/
def nearestSecond (ps : Nat) : Nat := (ps + 500000000000) / 1000000000000 * 1000000000

/-- PPS_IN_EDGE (R52 to R54): the edge less the cable delay, in picoseconds, against the nearest whole second. An edge merged
within 60 s of the last report raises nothing, though it begin a new run of merged edges (DESIGN CHOICE, log entry 131). -/
def execPpsInEdge (t : FTime) (widthNs : Nat) (s : State) : Out :=
  atTime s t fun s =>
    if widthNs < 50 ∨ s.ctl.dev = .off then .next s
    else if s.time.isRoot = false ∨ s.time.ppsUse ≠ 1 then .next { s with time := { s.time with ppsCount := s.time.ppsCount + 1 } }
    else
    let recent := match s.time.ppsLast with
      | some l => decide (s.now.toNat < l.toNat + 500000000)
      | none => false
    if recent then
      let s := s.addEnt 0x3010 5 1
      let n := s.time.mergedSince + 1
      if eventDue s.time.mergedAt s.now then
        .next { (s.raise 0x2102 [(4, n), (4, 0), (8, s.now.toNat)]) with
          time := { s.time with mergedAt := some s.now, mergedSince := 0 } }
      else .next { s with time := { s.time with mergedSince := n } }
    else
      let at_ := s.now.toNat * 1000 - s.time.cable.toNat
      let off : Int := (at_ : Int) - ((nearestSecond at_ * 1000 : Nat) : Int)
      if s.ctl.dev = .start ∧ s.time.ppsLast.isNone then
        let v := BitVec.ofNat 64 ((nearestSecond at_ * 1000 + s.time.cable.toNat) / 1000)
        let s := stepTime s v
        .next { s with time := { s.time with ppsLast := some v, ppsLostRaised := false } }
      else if s.ctl.dev = .start ∨ off.natAbs ≤ 1000000 then
        .next { (servo s (-off)) with time := { s.time with ppsLast := some s.now, ppsLostRaised := false } }
      else
        let s := s.addEnt 0x3010 6 1
        let n := s.time.oowSince + 1
        let ns := off / 1000
        let o := if 2147483647 < ns then 2147483647 else if ns < -2147483648 then -2147483648 else ns
        if eventDue s.time.oowAt s.now then
          .next { (s.raise 0x2103 [(4, unsigned 32 o), (4, n), (8, s.now.toNat)]) with
            time := { s.time with oowAt := some s.now, oowSince := 0 } }
        else .next { s with time := { s.time with oowSince := n } }

/-- PPS_LOST (R55). Where no pulse was ever accepted, the 2.0 s count from the entry into START and the last pulse is reported as
0; a root that took over counts from the same instant (DESIGN CHOICE, log entry 130). -/
def execPpsLost (t : FTime) (s : State) : Out :=
  atTime s t fun s =>
    let last := s.time.ppsLast.getD s.ctl.startAt
    if s.time.isRoot ∧ s.time.ppsUse = 1 ∧ s.time.ppsLostRaised = false ∧ last.toNat + 2000000000 ≤ s.now.toNat then
      .next { (s.raise 0x2104 [(4, (s.now.toNat - last.toNat) / 1000000 % 2 ^ 32), (4, 0), (8, (s.time.ppsLast.getD 0).toNat)]) with
        time := { s.time with ppsLostRaised := true } }
    else .next s

/-- PPS_OUT_PULSE (R56): at the next whole second that has had no pulse PPS_OUT rises for 1 ms; it is held low while FREE (R556). -/
def execPpsOutPulse (s : State) : Out :=
  if s.ctl.powered = false ∨ s.lock = 1 then .next s else
  let k0 := BitVec.ofNat 64 (ceilDiv s.now.toNat 1000000000 * 1000000000)
  let k := if s.time.ppsOut = some k0 then k0 + 1000000000#64 else k0
  .next { s with now := k, time := { s.time with ppsOut := some k } }

/-- The level of PPS_OUT (R56, R556): high for 1 ms from the whole second at which its last pulse began, low while FREE. -/
def State.ppsHigh (s : State) : Bool :=
  match s.time.ppsOut with
  | some k => s.ctl.powered && decide (s.lock ≠ 1) && decide (k ≤ s.now) && decide (s.now.toNat < k.toNat + 1000000)
  | none => false

end Sys2Proof.Machine
end

