-- ==== Sys2Proof/Machine/Access.lean ====
section
/-!
DEFINITION. Access by local address (Tables 6-1 and 6-2), the shared cache's counters (R179, R181), and the semaphores
of a core (R144 to R153).
-/
namespace Sys2Proof.Machine

/-! ### The local address map (R172, R173) -/

/-- What a run of bytes at a local address names. -/
inductive Place where
  | hbm
  | clm (c : Nat) (off : Nat)
  | wide (c : Nat) (off : Nat)
  | host (h : Nat)
  | dictionary (off : Nat)
  | reserved
deriving DecidableEq, Repr

/-- Where n bytes at local address a lie; a run that leaves its range is reserved. -/
def placeOf (a n : Nat) : Place :=
  if a + n ≤ hbmSize then .hbm
  else if 0xE00000000000 ≤ a ∧ a + n ≤ 0xF00000000000 then .host (a - 0xE00000000000)
  else if windowBase ≤ a ∧ a + n ≤ windowBase + 192 * 2 ^ 24 then
    let c := (a - windowBase) / 2 ^ 24
    let o := (a - windowBase) % 2 ^ 24
    if o + n ≤ 0x400000 then .clm c o
    else if 0x800000 ≤ o ∧ o + n ≤ 0xA00000 then .wide c (o - 0x800000)
    else .reserved
  else if 0xFF0000000000 ≤ a ∧ a + n ≤ 0xFF0010000000 then .dictionary (a - 0xFF0000000000)
  else .reserved

/-- n bytes of the wide buffer from byte o (R173: FP32 elements in column order). -/
def CoreS.wideBytes (x : CoreS) (o n : Nat) : List Byte :=
  ((((List.range ((o + n + 3) / 4 - o / 4)).flatMap fun k => le 4 (sget 0 x.wide (o / 4 + k)).toNat)).drop (o % 4)).take n
/-- The words that hold bytes b from byte o of the wide buffer once they are written. -/
def wideWords (x : CoreS) (o : Nat) (b : List Byte) : List W32 :=
  let n := b.length
  let words := (o + n + 3) / 4 - o / 4
  let all := x.wideBytes (o / 4 * 4) (o % 4) ++ b ++ x.wideBytes (o + n) (words * 4 - o % 4 - n)
  (List.range words).map fun k => BitVec.ofNat 32 (field all (4 * k) 4)

/-- Read n bytes at a local address of HBM, CLM or a wide buffer: the bytes, the state after the read's corrections and
counts, and whether the read met an uncorrectable unit or word. -/
def localRead (s : State) (a n : Nat) : List Byte × State × Bool :=
  match placeOf a n with
  | .hbm =>
    memRead s a n true
  | .clm c o =>
    let b := (s.core c).clmBytes o n
    let (s, bad) := sramReadCheck s 2 c o n
    (b, s, bad)
  | .wide c o =>
    let b := (s.core c).wideBytes o n
    let (s, bad) := sramReadCheck s 3 c o n
    (b, s, bad)
  | _ => (List.replicate n 0, s, false)

/-- Write bytes at a local address of HBM, CLM or a wide buffer. -/
def localWrite (s : State) (a : Nat) (b : List Byte) : State :=
  match placeOf a b.length with
  | .hbm => memWrite s a b
  | .clm c o => s.writeClm c o b
  | .wide c o =>
    if b = [] then s
    else touchSram (s.modCore c fun x => { x with wide := swrite 0 x.wide (o / 4) (wideWords x o b) }) 3 c o b.length
  | _ => s

/-- HBM, CLM and wide buffers are what data can be committed to. -/
def isMemory (a n : Nat) : Bool :=
  match placeOf a n with
  | .hbm => true
  | .clm _ _ => true
  | .wide _ _ => true
  | _ => false

/-! ### Semaphores -/

/-- The value of a semaphore. -/
def State.sem (s : State) (c k : Nat) : Nat := (sget 0 (s.core c).sems k).toNat
/-- Store a semaphore's value. -/
def State.setSem (s : State) (c k v : Nat) : State :=
  s.modCore c fun x => { x with sems := sset 0 x.sems k (BitVec.ofNat 32 v) }
/-- Landing semaphore (R145). -/
def State.isLanding (s : State) (c k : Nat) : Bool := (s.core c).landing.getLsbD k

/-- An increment of the wrong kind is discarded and counted; the event is raised once per core and semaphore in each
run (R151). -/
def misdirect (s : State) (c k n : Nat) : State :=
  let s := s.addEnt 0x5520 1 n
  if k ∈ (s.core c).misdirected then s
  else (s.modCore c fun x => { x with misdirected := k :: x.misdirected }).raise 0x5506 []

/-- An increment by n of semaphore k of core c, by a landing or by a post (R146, R147, R151, R153). -/
def incSem (s : State) (c k n : Nat) (landing : Bool) : State :=
  if n = 0 then s
  else if !(s.running || decide (s.ctl.dev = .test)) || (s.isLanding c k != landing) then misdirect s c k n
  else if s.sem c k + n < 2 ^ 32 then s.setSem c k (s.sem c k + n)
  else abortRun ((s.setSem c k 0xFFFFFFFF).raise 0x5503 []) 0x5503

/-- Units of 64 bytes that `done` committed bytes of a transfer of `total` bytes have advanced (R147). -/
def landUnits (total done : Nat) : Nat := if total ≤ done then ceilDiv total 64 else done / 64

/-- Whether a SYNC gate or a wait holds: the semaphore has at least the target, as signed 64-bit values (R417). -/
def gateHolds (s : State) (c k : Nat) (target : Int) : Bool := decide (target ≤ (s.sem c k : Int))

end Sys2Proof.Machine
end

