-- ==== Sys2Proof/Machine/Shards.lean ====
section
/-!
DEFINITION. Shards, copies and the live bank (R250 to R254), digests (R260 to R263) and version checks (R255).
-/
namespace Sys2Proof.Machine

/-! ### The shard table in force (Tables 8-3, 8-4, 8-10) -/

def shardAt (s : State) (i : Nat) : List Byte := s.run.shards.getD i []
def shCopyA (e : List Byte) : Nat := field e 0 8
def shCopyB (e : List Byte) : Nat := field e 8 8
def shHeader (e : List Byte) : Nat := field e 16 8
def shTrainable (e : List Byte) : Bool := Nat.testBit (field e 24 2) 0
def shReplicated (e : List Byte) : Bool := Nat.testBit (field e 24 2) 1
def shLocalOpt (e : List Byte) : Bool := Nat.testBit (field e 24 2) 2
def shIndex (e : List Byte) : Nat := field e 28 2

/-- The live copy and the next copy of a shard (R251). -/
def liveCopy (s : State) (e : List Byte) : Nat :=
  if shTrainable e ∧ s.ent 0x5010 2 = 1 then shCopyB e else shCopyA e
def nextCopy (s : State) (e : List Byte) : Nat := if s.ent 0x5010 2 = 1 then shCopyA e else shCopyB e

/-- The 128 header bytes of a shard. -/
def shardHead (s : State) (e : List Byte) : List Byte := hread s (shHeader e) 128
def hdTensor (h : List Byte) : Nat := field h 4 4
def hdVersion (h : List Byte) : Nat := field h 8 4
def hdNumber (h : List Byte) : Nat := field h 12 4
def hdCount (h : List Byte) : Nat := field h 24 8
/-- Bytes of an element, by format (Table 8-10). -/
def hdSize (h : List Byte) : Nat := if field h 1 1 = 3 then 4 else 2
def hdExtents (h : List Byte) (o : Nat) : List Nat := (List.range 4).map fun k => field h (o + 8 * k) 8

/-- The version of R254. -/
def shardVersion (s : State) (e : List Byte) : Nat :=
  if shTrainable e then s.ent 0x5010 4 else hdVersion (shardHead s e)

/-- The first shard of the table with a logical shard number. -/
def shardByNumber (s : State) (n : Nat) : Option (List Byte) :=
  s.run.shards.find? fun e => decide (hdNumber (shardHead s e) = n)

/-! ### Digests (R260) -/

def mask64 (n : Nat) : Nat := n % 2 ^ 64

/-- mix(tensor, unit, bits), R260. -/
def mix (tensor unit bits : Nat) : Nat :=
  let z := mask64 (unit * 65536 + bits)
  let z := z ^^^ mask64 (tensor * 0x9E3779B185EBCA87)
  let z := mask64 ((z ^^^ (z >>> 29)) * 0xC2B2AE3D27D4EB4F)
  let z := mask64 ((z ^^^ (z >>> 32)) * 0x165667B19E3779F9)
  z ^^^ (z >>> 29)

/-- The logical index of element k of a shard in its storage order (R270). -/
def logicalIndex (h : List Byte) (k : Nat) : Nat :=
  let t := hdExtents h 32
  let o := hdExtents h 64
  let e := hdExtents h 96
  let a3 := k % e.getD 3 1
  let a2 := k / e.getD 3 1 % e.getD 2 1
  let a1 := k / e.getD 3 1 / e.getD 2 1 % e.getD 1 1
  let a0 := k / e.getD 3 1 / e.getD 2 1 / e.getD 1 1
  ((((o.getD 0 0 + a0) * t.getD 1 1 + (o.getD 1 0 + a1)) * t.getD 2 1) + (o.getD 2 0 + a2)) * t.getD 3 1 +
    (o.getD 3 0 + a3)

/-- The digest of n elements of a shard from element k, the shard's copy at `copy`. -/
def digestRange (s : State) (h : List Byte) (copy k n : Nat) : Nat :=
  (List.range n).foldl (fun acc i =>
    let z := hdSize h
    let b := hread s (copy + (k + i) * z) z
    let u := logicalIndex h (k + i)
    let d := if z = 4 then mix (hdTensor h) (2 * u) (field b 0 2) + mix (hdTensor h) (2 * u + 1) (field b 2 2)
      else mix (hdTensor h) u (field b 0 2)
    mask64 (acc + d)) 0

/-- Elements of a digest block (R261), and the number of blocks and the elements of block b of a shard. -/
def blockElems : Nat := 2 ^ 24
def blockCount (h : List Byte) : Nat := ceilDiv (hdCount h) blockElems
def blockLen (h : List Byte) (b : Nat) : Nat :=
  if hdCount h < (b + 1) * blockElems then hdCount h - b * blockElems else blockElems

/-- The digest of block b of a shard's next copy. -/
def blockDigest (s : State) (e : List Byte) (b : Nat) : Nat :=
  let h := shardHead s e
  digestRange s h (nextCopy s e) (b * blockElems) (blockLen h b)

/-- The replicated shards with their table indices. -/
def replicated (s : State) : List (Nat × List Byte) :=
  (s.run.shards.zipIdx.filter fun e => shReplicated e.1).map fun e => (e.2, e.1)

/-- Key of a block digest in `Run.digests`. -/
def digestKey (shard block : Nat) : Nat := shard * 65536 + block

/-- The records a SEND of source DIGEST carries (R262): 16 bytes for each block of each replicated shard. -/
def digestRecords (s : State) : List Byte :=
  (replicated s).flatMap fun (i, e) =>
    let h := shardHead s e
    (List.range (blockCount h)).flatMap fun b =>
      le 4 (hdNumber h) ++ le 2 b ++ le 2 (shIndex e) ++ le 8 (sget 0 s.run.digests (digestKey i b)).toNat

/-- One received record against the module's own digest of the same shard and block (R262, R263); one that comes before the walk is kept
until it is done. A record of a block that the module does not hold is not compared. -/
def compareRecord (s : State) (r : List Byte) : State :=
  match (replicated s).find? fun e => decide (hdNumber (shardHead s e.2) = field r 0 4) with
  | none => s
  | some (i, e) =>
    let b := field r 4 2
    if blockCount (shardHead s e) ≤ b then s
    else if !s.run.walked then { s with run := { s.run with early := s.run.early ++ [r] } }
    else if (sget 0 s.run.digests (digestKey i b)).toNat = field r 8 8 then s
    else
      let s := (((s.addEnt 0x7200 2 1).setEnt 0x7200 3 (field r 0 4)).setEnt 0x7200 4 b).raise 0x7201 []
      let d := if (i, b) ∈ s.run.divergent then s.run.divergent else s.run.divergent ++ [(i, b)]
      let s := { s with run := { s.run with divergent := d } }
      if s.ent 0x7200 1 = 1 ∨ s.ent 0x5400 5 < d.length then
        { (s.setEnt 0x7200 5 1) with run := { s.run with diverged := true } }
      else s

/-- Divergent blocks that have not been repaired here (R263). -/
def unrepaired (s : State) : List (Nat × Nat) :=
  s.run.divergent.filter fun d => !decide (d ∈ s.run.repaired)
/-- Divergent blocks are repaired: REBROADCAST, and no more of them than the tab's repair streams carry (R263). -/
def rebroadcasts (s : State) : Bool :=
  decide (s.ent 0x7200 1 = 2) && !s.run.diverged && decide (s.run.divergent.length ≤ s.ent 0x5400 5)
/-- The blocks that a repair stream of this module with instances of `most` data bytes has still to carry, as replica 0: each stream carries
each differing block once, if the block fits its instances. The schedule names no replica group for a stream (log entry 145). -/
def toRepair (s : State) (entry most : Nat) : List (Nat × Nat) :=
  if rebroadcasts s then
    s.run.divergent.filter fun d =>
      let h := shardHead s (shardAt s d.1)
      decide (shIndex (shardAt s d.1) = 0) && decide (blockLen h d.2 * hdSize h ≤ most) && !decide ((entry, d.1, d.2) ∈ s.run.repairsSent)
  else []

/-- The module's vote word (Table 8-7). -/
def voteWord (s : State) : Nat :=
  let d := s.run.diverged || (unrepaired s).any fun d => decide (shIndex (shardAt s d.1) ≠ 0)
  (if s.run.nonfinite then 1 else 0) + (if d then 2 else 0) + (if s.run.voteRepaired then 4 else 0)

/-! ### Version checks (R255) -/

/-- A failed version check: the first of the run is kept, the event raised and the step aborted. -/
def versionFault (s : State) (shard expected found sender : Nat) : State :=
  let s := if s.run.versionFault then s
    else ((((s.setEnt 0x5401 1 shard).setEnt 0x5401 2 expected).setEnt 0x5401 3 found).setEnt 0x5401 4 sender)
  abortRun ({ s with run := { s.run with versionFault := true } }.raise 0x5401 []) 0x5401

end Sys2Proof.Machine
end

