-- ==== Sys2Proof/Machine/Coll.lean ====
section
/-!
DEFINITION. Collectives (chapter 14): the schedule's entries, instances and trailers, landings, reductions, relays,
staging, and the sending of scheduled flits (R57 to R61, R67).
-/
namespace Sys2Proof.Machine

/-! ### Entries of the collective schedule (Tables 14-2 to 14-4) -/

def centry (s : State) (i : Nat) : Nat := s.coll.image.getD i 0
def ceOp (e : Nat) : Nat := bits e 7 0
def ceStream (e : Nat) : Nat := bits e 21 8
def cePort (e : Nat) : Nat := bits e 27 22
def ceVersionSource (e : Nat) : Nat := bits e 29 28
def ceCheck (e : Nat) : Nat := bits e 30 28
def ceStaged (e : Nat) : Bool := Nat.testBit e 31
def ceLocal (e : Nat) : Bool := Nat.testBit e 28
def ceVersioned (e : Nat) : Bool := Nat.testBit e 29
def ceSource (e : Nat) : Nat := bits e 35 32
def ceR0 (e : Nat) : Nat := bits e 63 40
def ceP (e : Nat) : Nat := bits e 79 64
def ceC (e : Nat) : Nat := bits e 95 80
def ceD (e : Nat) : Nat := bits e 127 96
def ceShare (e : Nat) : Nat := bits e 111 96
def grOp (e : Nat) : Nat := bits e 11 8
def grOutput (e : Nat) : Nat := bits e 13 12
def grDie (e : Nat) : Nat := bits e 14 14
def grCheck (e : Nat) : Nat := bits e 17 15
def grInputs (e : Nat) : Nat := bits e 35 24
def grShare (e : Nat) : Nat := bits e 63 48
def bufAddr (e j : Nat) : Nat := bits e 55 8 + j % bits e 63 56 * bits e 95 64
def bufShard (e : Nat) : Nat := bits e 108 96

def opSend : Nat := 1
def opRecv : Nat := 2
def opRelay : Nat := 3
def opGroup : Nat := 4
def opInput : Nat := 5
def opOnward : Nat := 8

def isOnward (e : Nat) : Bool := decide (ceOp e = opOnward)
/-- A SEND or an ONWARD transmits; a RECV, a RELAY or an INPUT that is not LOCAL receives (R414). -/
def transmits (e : Nat) : Bool := decide (ceOp e = opSend) || isOnward e
def receives (e : Nat) : Bool :=
  decide (ceOp e = opRecv) || decide (ceOp e = opRelay) || (decide (ceOp e = opInput) && !ceLocal e)

def findEntry (s : State) (f : Nat → Bool) (p stream : Nat) : Option Nat :=
  (List.range s.coll.image.length).find? fun i =>
    f (centry s i) && decide (cePort (centry s i) = p) && decide (ceStream (centry s i) = stream)

/-- Index of the SYNC of a stream head, and of a group's output. -/
def syncOf (s : State) (i : Nat) : Nat :=
  let e := centry s i
  if ceSource e ≠ 0 then i + 1 else if ceOp e = opRecv ∧ ceStaged e then i + 3 else i + 2

/-- The INPUT entries of a group, and the index after them. -/
def inputsFrom (s : State) : Nat → Nat → List Nat × Nat
  | 0, i => ([], i)
  | n + 1, i =>
    let e := centry s i
    let (l, j) := inputsFrom s n (if ceLocal e ∧ ceSource e = 0 then i + 3 else i + 1)
    (i :: l, j)
def groupInputs (s : State) (g : Nat) : List Nat × Nat := inputsFrom s (grInputs (centry s g)) (g + 1)

/-- The GROUP above an entry. -/
def groupAbove (s : State) (i : Nat) : Nat :=
  ((List.range i).reverse.find? fun g => decide (ceOp (centry s g) = opGroup)).getD 0

/-- The link die of a port (R17). -/
def linkDie (p : Nat) : Nat := if p < 16 ∨ (32 ≤ p ∧ p < 40) then 0 else 1

def State.csend (s : State) (i : Nat) : SendS := sget SendS.reset s.coll.sends i
def State.setCsend (s : State) (i : Nat) (x : SendS) : State :=
  { s with coll := { s.coll with sends := sset SendS.reset s.coll.sends i x } }
def State.crecv (s : State) (i : Nat) : RecvS := sget RecvS.reset s.coll.recvs i
def State.setCrecv (s : State) (i : Nat) (x : RecvS) : State :=
  { s with coll := { s.coll with recvs := sset RecvS.reset s.coll.recvs i x } }
def State.cgroup (s : State) (i : Nat) : GroupS := sget GroupS.reset s.coll.groups i
def State.setCgroup (s : State) (i : Nat) (x : GroupS) : State :=
  { s with coll := { s.coll with groups := sset GroupS.reset s.coll.groups i x } }

/-! ### Gates, signals, trailers, faults -/

/-- A SYNC's gate for instance j (R417). -/
def syncGate (s : State) (e j : Nat) : Bool :=
  decide (bits e 103 72 = 0) ||
    gateHolds s (bits e 17 8) (bits e 23 18) (signed 32 (bits e 71 40) + (j * bits e 103 72 : Nat))
/-- A SYNC's signal, advanced by n. -/
def syncSignal (s : State) (e n : Nat) (landing : Bool) : State :=
  if Nat.testBit e 104 then incSem s (bits e 33 24) (bits e 39 34) n landing else s

/-- Flits of an instance of D data bytes (R416). -/
def flitsOf (d : Nat) : Nat := ceilDiv (d + 16) 240

/-- An instance trailer (Table 14-5). -/
def trailerOf (nonfinite versioned : Bool) (version shard inst : Nat) : List Byte :=
  le 1 1 ++ le 1 ((if nonfinite then 1 else 0) + (if versioned then 2 else 0)) ++ le 2 0 ++ le 4 version ++ le 4 shard ++ le 4 inst
def trNonfinite (t : List Byte) : Bool := Nat.testBit (field t 1 1) 0
def trVersioned (t : List Byte) : Bool := Nat.testBit (field t 1 1) 1
def trVersion (t : List Byte) : Nat := field t 4 4
def trShard (t : List Byte) : Nat := field t 8 4

/-- A run-time collective fault (R420): the first of the run is kept, the event raised and the step aborted. -/
def collFault (s : State) (code port stream j : Nat) : State :=
  let s := if s.run.collFault then s
    else (((s.setEnt 0x3430 1 code).setEnt 0x3430 2 port).setEnt 0x3430 3 stream).setEnt 0x3430 4 (j % 2 ^ 32)
  abortRun ({ s with run := { s.run with collFault := true } }.raise code []) code

/-- The trailer check of Table 14-6; a failure has the effects of R255. The own-step check is not made for LOCAL_OPT shards (Table 8-5). -/
def trailerCheck (s : State) (kind : Nat) (t : List Byte) (sender : Nat) : State × Bool :=
  let v := trVersion t
  let n := trShard t
  let against (want : Nat) : State × Bool :=
    if trVersioned t ∧ v = want then (s, true) else (versionFault s n want v sender, false)
  match kind with
  | 0 => (s, true)
  | 1 =>
    if trVersioned t then
      ({ s with coll := { s.coll with record := sset none s.coll.record n (some (BitVec.ofNat 32 v)) } }, true)
    else (versionFault s n 0 v sender, false)
  | 2 =>
    match sget none s.coll.record n with
    | some w => against w.toNat
    | none => (versionFault s n 0 v sender, false)
  | 3 => against (s.ent 0x5010 4)
  | _ => if trVersioned t && (shardByNumber s n).any shLocalOpt then (s, true) else against (s.ent 0x5010 1 % 2 ^ 32)

/-- A trailer's NONFINITE sets the module's flag (R418, R249). -/
def takeNonfinite (s : State) (nf : Bool) : State :=
  if nf then { s with run := { s.run with nonfinite := true } } else s

/-- Where the last unit of D data bytes begins (R418). -/
def lastUnit (d : Nat) : Nat := 64 * ((d - 1) / 64)

/-- Write the bytes of an instance from `have` to `till`, and advance its landing. -/
def landPart (s : State) (base : Nat) (data : List Byte) (d from_ till sync landed : Nat) (signals : Bool) : State × Nat :=
  let s := if from_ < till then localWrite s (base + from_) (slice data from_ (till - from_)) else s
  let units := landUnits d till
  if signals ∧ landed < units then (syncSignal s (centry s sync) (units - landed) true, units) else (s, landed)

/-! ### Slots (R421) -/

/-- Slots held by an entry. -/
def slotsOf (s : State) (i : Nat) : Nat := (s.crecv i).slots.length
/-- The entry whose share a receiving entry uses, and the slots held under it. -/
def shareOf (s : State) (i : Nat) : Nat × Nat :=
  if ceOp (centry s i) = opRelay then (ceShare (centry s (i + 1)), slotsOf s i)
  else
    let g := groupAbove s i
    (grShare (centry s g), ((groupInputs s g).1.map (slotsOf s)).sum)
/-- The link die whose pool an entry uses. -/
def poolDie (s : State) (i : Nat) : Nat :=
  if ceOp (centry s i) = opRelay then linkDie (cePort (centry s i)) else grDie (centry s (groupAbove s i))
/-- The pool slot of flit k of instance j that an entry holds: a place in the share of its GROUP or ONWARD, the shares of a die standing in
the order of their entries (log entry 151). -/
def slotAt (s : State) (i j k : Nat) : Nat :=
  let relay := decide (ceOp (centry s i) = opRelay)
  let head := if relay then i + 1 else groupAbove s i
  let share (e : Nat) : Nat := if ceOp e = opGroup then grShare e else if isOnward e then ceShare e else 0
  let dieOf (h : Nat) : Nat := if ceOp (centry s h) = opGroup then grDie (centry s h) else linkDie (cePort (centry s (h - 1)))
  let base := ((List.range head).map fun h => if dieOf h = poolDie s i then share (centry s h) else 0).sum
  let ins := if relay then [i] else (groupInputs s head).1
  base + ((j * flitsOf (ceD (centry s i)) + k) * ins.length + ins.idxOf i) % Nat.max 1 (share (centry s head))
/-- Read-check of the slot that holds a flit (kind `0x07`). -/
def checkSlot (s : State) (i j k : Nat) : State × Bool := sramReadCheck s 7 (poolDie s i) (256 * slotAt s i j k) 240
/-- Record the peak of a die's slots in use. -/
def notePeak (s : State) (die : Nat) : State :=
  let n := ((s.coll.recvs.filter fun r => decide (poolDie s r.1 = die)).map fun r => r.2.slots.length).sum
  if s.ent 0x3410 (3 + die) < n then s.setEnt 0x3410 (3 + die) n else s

/-! ### Receiving (R418 to R421) -/

/-- Put a flit's payload at its index. -/
def putFlit (b : List Byte) (k : Nat) (p : List Byte) : List Byte :=
  padTo (240 * k) b ++ padTo 240 p ++ b.drop (240 * k + 240)

/-- The end of a whole instance of a RECV: trailer, check, last unit, staging. -/
def recvDone (s : State) (i j : Nat) (r : RecvS) : State :=
  let e := centry s i
  let d := ceD e
  let t := slice r.bytes d 16
  let dev := s.ent 0x3301 (cePort e + 1)
  let (s, ok) := if ceSource e = 0 then trailerCheck s (ceCheck e) t dev else (s, true)
  if !ok then s else
  let s := takeNonfinite s (trNonfinite t)
  let s := s.addEnt 0x3420 2 1
  if ceSource e = 1 then
    (List.range (d / 16)).foldl (fun s k => compareRecord s (slice r.bytes (16 * k) 16)) s
  else if ceSource e = 3 then
    let s := match (replicated s).find? fun x => decide (hdNumber (shardHead s x.2) = trShard t) with
      | none => s
      | some (k, x) =>
        let h := shardHead s x
        let b := field t 12 4
        let n := blockLen h b * hdSize h
        let s := memWrite s (nextCopy s x + b * blockElems * hdSize h) (r.bytes.take (if d < n then d else n))
        if d < n then s else
        let s := s.raise 0x7202 []
        { s with run := { s.run with
            digests := sset 0 s.run.digests (digestKey k b) (BitVec.ofNat 64 (blockDigest s x b))
            repaired := (k, b) :: s.run.repaired, voteRepaired := true } }
    syncSignal s (centry s (i + 1)) (ceilDiv d 64) true
  else
    let (s, _) := landPart s (bufAddr (centry s (i + 1)) j) r.bytes d (lastUnit d) d (syncOf s i) r.landed (!ceStaged e)
    if ceStaged e then
      { s with coll := { s.coll with staged := s.coll.staged ++ [{ entry := i, ordinal := j, capo := s.ent 0x3100 1 }] } }
    else s

/-- An instance in progress is malformed (R419): a GROUP reduces no more of it, and it lands no further unit. -/
def malformed (s : State) (i : Nat) (r : RecvS) (more : Bool) : State :=
  let e := centry s i
  let slots := if ceOp e = opInput then r.slots.filter fun q => decide (q.1 ≠ r.count - 1) else r.slots
  collFault (s.setCrecv i { r with dropped := true, active := more, slots := slots }) 0x3404 (cePort e) (ceStream e) (r.count - 1)

/-- One flit of an instance of a receiving entry. -/
def instanceFlit (s : State) (i : Nat) (f : Flit) : State :=
  let e := centry s i
  let d := ceD e
  let n := flitsOf d
  let k := f.index.toNat
  let r := s.crecv i
  let fault (code : Nat) (r : RecvS) : State :=
    collFault (s.setCrecv i { r with dropped := true, active := !f.last }) code (cePort e) (ceStream e) (r.count - 1)
  let r := if k = 0 then
      { r with count := r.count + 1, active := true, got := 0, bytes := [], dropped := false, landed := 0 }
    else r
  if n ≤ k ∨ (f.last ∧ k + 1 ≠ n) then malformed s i r !f.last
  else if !r.active then s
  else
    let j := r.count - 1
    if r.dropped then s.setCrecv i { r with active := !f.last }
    else if ceOp e = opRecv then
      if k = 0 ∧ ceSource e = 0 ∧ !ceStaged e ∧ !syncGate s (centry s (syncOf s i)) j then fault 0x3403 r
      else
        let data := putFlit r.bytes k f.payload
        let have_ := if r.got < d then r.got else d
        let now := if 240 * (k + 1) < d then 240 * (k + 1) else d
        let cut (x : Nat) : Nat := if x < lastUnit d then x else lastUnit d
        let (s, landed) := if ceSource e = 0 then
            landPart s (bufAddr (centry s (i + 1)) j) data d (cut have_) (cut now) (syncOf s i) r.landed (!ceStaged e)
          else (s, 0)
        let r := { r with bytes := data, got := 240 * (k + 1), landed := landed, active := !f.last }
        if !f.last then s.setCrecv i r
        else if field data d 1 ≠ 1 then malformed s i r false
        else recvDone (s.setCrecv i { r with bytes := [] }) i j r
    else
      let (share, held) := shareOf s i
      if ceOp e = opInput ∧ j < (s.cgroup (groupAbove s i)).done then s.setCrecv i { r with active := !f.last, dropped := true }
      else if share ≤ held then fault 0x3402 r
      else
        let data := putFlit r.bytes k f.payload
        let r := { r with bytes := if f.last then [] else data, active := !f.last,
                          slots := r.slots ++ [(j, k, f.last, padTo 240 f.payload)] }
        let s := touchSram (notePeak (s.setCrecv i r) (poolDie s i)) 7 (poolDie s i) (256 * slotAt s i j k) 240
        if ceOp e = opInput ∧ f.last ∧ field data d 1 ≠ 1 then malformed s i r false else s

/-- A flit for a receiving entry: one that opens an instance before LAST of the current one leaves that one malformed (R419). -/
def recvFlit (s : State) (i : Nat) (f : Flit) : State :=
  if f.index = 0 ∧ (s.crecv i).active then
    let t := malformed s i (s.crecv i) false
    if t.running then instanceFlit t i f else t
  else instanceFlit s i f

/-- SCHED_FLIT_RECEIVE (R389, R418 to R421): landed, held for relay or reduction, or discarded as stray. -/
def execSchedFlitReceive (t : FTime) (p : Port) (f : Flit) (s : State) : Out :=
  atTime s t fun s => accepted s p.val f kSched fun s =>
    if (s.port p.val).adapter then .next s
    else match findEntry s receives p.val f.stream.toNat with
      | none => .next (s.addEnt 0x3320 3 1)
      | some i => if s.running then .next (recvFlit s i f) else .next (s.addEnt 0x3320 3 1)

/-! ### Sending (R415 to R417) -/

/-- The trailer of instance j of a SEND or a LOCAL input that names a shard. -/
def sourceTrailer (s : State) (source shardIndex j : Nat) : List Byte :=
  let e := shardAt s shardIndex
  let n := hdNumber (shardHead s e)
  match source with
  | 1 => trailerOf false true (shardVersion s e) n (j % 2 ^ 32)
  | 2 => trailerOf false true (s.ent 0x5010 1 % 2 ^ 32) n (j % 2 ^ 32)
  | _ => trailerOf false false 0 0 (j % 2 ^ 32)

/-- The trailer of a SEND that has no BUFFER (Table 14-5): a version source gives it the VERSIONED flag, and STEP the step counter.
Which shard it would name is not stated, nor the version that SHARD gives then: free values (log entry 133). -/
def bareTrailer (s : State) (source j : Nat) : List Byte × State :=
  if source = 0 then (trailerOf false false 0 0 (j % 2 ^ 32), s)
  else
    let shard := drawNat s (2 ^ 32)
    let version := drawNat shard.2 (2 ^ 32)
    (trailerOf false true (if source = 2 then s.ent 0x5010 1 % 2 ^ 32 else version.1) shard.1 (j % 2 ^ 32), version.2)

/-- The bytes of a GROUP's output for instance j, as far as formed. -/
def groupBytes (s : State) (g j : Nat) : List Byte :=
  let x := s.cgroup g
  if j = x.done then x.out else if x.done < j then [] else x.ready.getD (j + x.ready.length - x.done) []

/-- The next instance of a SEND has its bytes: it is sent at once, or behind the one that is being sent. -/
def startSend (s : State) (entry : Nat) (b : List Byte) (reading : Bool) : State :=
  let x := s.csend entry
  s.setCsend entry (if x.active then { x with count := x.count + 1, reading := reading, ahead := x.ahead ++ [(x.count, b)] }
    else { x with count := x.count + 1, active := true, ordinal := x.count, sent := 0, reading := reading, bytes := b })

/-- An instance read from a buffer: the engine reads its D bytes (R417). -/
def sendBuffer (s : State) (entry : Nat) : Out :=
  let j := (s.csend entry).count
  let buf := centry s (entry + 1)
  let r := localRead s (bufAddr buf j) (ceD (centry s entry))
  if r.2.2 then .next (abortRun r.2.1 0x4102)
  else .next (startSend r.2.1 entry (r.1 ++ sourceTrailer r.2.1 (ceVersionSource (centry s entry)) (bufShard buf) j) true)

/-- An instance of the digest records, once the walk is done. -/
def sendDigest (s : State) (entry : Nat) : Out :=
  let e := centry s entry
  let tr := bareTrailer s (ceVersionSource e) (s.csend entry).count
  if s.run.walked then .next (startSend tr.2 entry (padTo (ceD e) (digestRecords s) ++ tr.1) false) else .next s

/-- An instance of the vote word. -/
def sendVote (s : State) (entry : Nat) : Out :=
  let e := centry s entry
  let tr := bareTrailer s (ceVersionSource e) (s.csend entry).count
  .next (startSend tr.2 entry (padTo (ceD e) (le 4 (voteWord s)) ++ tr.1) false)

/-- A block of a stream's repairs is on its way. -/
def noteRepair (s : State) (entry k b : Nat) : State := { s with run := { s.run with repairsSent := (entry, k, b) :: s.run.repairsSent } }

/-- An instance of the next block that the stream has to repair (R263). -/
def sendRepair (s : State) (entry : Nat) : Out :=
  match toRepair s entry (ceD (centry s entry)) with
  | [] => .next s
  | (k, b) :: _ =>
    let e := centry s entry
    let sh := shardAt s k
    let h := shardHead s sh
    let r := memRead s (nextCopy s sh + b * blockElems * hdSize h) (blockLen h b * hdSize h) true
    let s := noteRepair r.2.1 entry k b
    let v := if ceVersionSource e = 2 then s.ent 0x5010 1 % 2 ^ 32 else shardVersion s sh
    if r.2.2 then .next (abortRun s 0x4102)
    else .next (startSend s entry (padTo (ceD e) r.1 ++ trailerOf false (decide (ceVersionSource e ≠ 0)) v (hdNumber h) b) false)

/-- An instance of a group's output, which leaves as it is formed. -/
def sendGroup (s : State) (entry : Nat) : Out :=
  if groupBytes s (groupAbove s entry) (s.csend entry).count = [] then .next s else .next (startSend s entry [] false)

/-- SEND_INSTANCE_START (R415, R417): the gate of the next instance holds and the one before is read. The bytes are those in memory
at this instant (log entry 20); they wait while flits of an earlier instance have still to leave. A source that reads no memory
starts once the instance before has left. -/
def execSendInstanceStart (t : FTime) (entry : Nat) (s : State) : Out :=
  atTime s t fun s =>
    let e := centry s entry
    let x := s.csend entry
    if s.running = false ∨ s.run.drainSince.isSome ∨ ceOp e ≠ opSend ∨ (x.active ∧ ceSource e ≠ 0) ∨ x.reading ∨
        syncGate s (centry s (syncOf s entry)) x.count = false then .next s
    else match ceSource e with
      | 0 => sendBuffer s entry
      | 1 => sendDigest s entry
      | 2 => sendVote s entry
      | 3 => sendRepair s entry
      | _ => sendGroup s entry

/-- SEND_READ_DONE (R417): all D bytes are read; with SIGNAL set the signal semaphore rises by 1. -/
def execSendReadDone (t : FTime) (entry : Nat) (s : State) : Out :=
  atTime s t fun s =>
    let x := s.csend entry
    if s.running ∧ x.reading then
      .next (syncSignal (s.setCsend entry { x with reading := false, readDone := x.readDone + 1 })
        (centry s (syncOf s entry)) 1 false)
    else .next s

/-! ### Slots of the schedule sets (R57 to R62) -/

/-- The fret entries of the set in force on a port, and its capo point. -/
def setInForce (s : State) (p : Nat) : Option (List W32 × Nat) :=
  (s.port p).inForce.map fun x => (sget [] s.run.sets (p * 4 + x.1), x.2.toNat)

/-- Repetition number and fret index at a time, in a set of L frets from a capo point (R60). -/
def repetition (l capo t : Nat) : Nat := (t - capo) / (l * 128)
def fretIndex (l capo t : Nat) : Nat := (t - capo) / 128 % l

def fretStream (f : W32) : Nat := bits f.toNat 29 16
def fretKind (f : W32) : Nat := bits f.toNat 31 30
/-- The frets of a stream in a set, and how many of them are SLACK. -/
def fretsOf (set : List W32) (stream : Nat) : List Nat :=
  ((set.zipIdx).filter fun f => decide (fretKind f.1 ≠ 0) && decide (fretStream f.1 = stream)).map Prod.snd
def slackOf (set : List W32) (stream : Nat) : Nat :=
  (set.filter fun f => decide (fretKind f = 2) && decide (fretStream f = stream)).length

/-- A transmitting entry sends an instance in this repetition (R415). -/
def repDue (e n : Nat) : Bool :=
  decide (ceR0 e ≤ n) && decide ((n - ceR0 e) % ceP e = 0) && (decide (ceC e = 0) || decide ((n - ceR0 e) / ceP e < ceC e))

/-- The payload of flit k that a transmitting entry has ready, if any. -/
def readyPayload (s : State) (i : Nat) : Option (List Byte) :=
  let e := centry s i
  let x := s.csend i
  if isOnward e then
    ((s.crecv (i - 1)).slots.find? fun f => decide (f.1 = x.count ∧ f.2.1 = x.sent)).map fun f => f.2.2.2
  else if !x.active then none
  else
    let b := if ceSource e = 4 then groupBytes s (groupAbove s i) x.ordinal else x.bytes
    let need := if 240 * (x.sent + 1) < ceD e + 16 then 240 * (x.sent + 1) else ceD e + 16
    if need ≤ b.length then some (padTo 240 (slice b (240 * x.sent) 240)) else none

/-- Data bytes of a transmitting entry: an ONWARD carries the D of its RELAY. -/
def sendD (s : State) (i : Nat) : Nat := if isOnward (centry s i) then ceD (centry s (i - 1)) else ceD (centry s i)

/-- The lock state permits scheduled traffic (Table 2-2). -/
def sendsScheduled (s : State) : Bool := decide (s.lock = 3) || (decide (s.lock = 4) && decide (s.ent 0x3000 3 ≤ 32000))

/-- The SCHED flit that may leave port p in the slot at time t: a flit of the owning stream, within R61; and the state
once it has left. Where the slot of a relayed flit does not decode, the run aborts and the slot stays idle (Table 18-3). -/
def schedFlit (s : State) (p t : Nat) : Option (Flit × State) :=
  if !s.running ∨ (s.port p).noSched ∨ !sendsScheduled s then none else
  match setInForce s p with
  | none => none
  | some (set, capo) =>
    if set.length = 0 ∨ t < capo then none else
    let at_ := fretIndex set.length capo t
    let n := repetition set.length capo t
    let fr := set.getD at_ 0
    let stream := fretStream fr
    if fretKind fr = 0 ∨ (p, stream) ∈ s.run.late then none else
    match findEntry s transmits p stream with
    | none => none
    | some i =>
      let e := centry s i
      let x := s.csend i
      let place := (fretsOf set stream).idxOf at_
      let fits := if x.sent = 0 then decide (x.rep ≤ n) && decide (place ≤ slackOf set stream) else decide (x.rep = n)
      if !repDue e n ∨ !fits then none else
      match readyPayload s i with
      | none => none
      | some b =>
        let pool := if isOnward e then checkSlot s (i - 1) x.count x.sent else (s, false)
        if pool.2 then some (bareFlit 0 [], abortRun pool.1 0x4102) else
        let s := pool.1
        let last := decide (x.sent + 1 = flitsOf (sendD s i))
        let f := { bareFlit kSched b with
          last := last, stream := BitVec.ofNat 14 stream, index := BitVec.ofNat 18 x.sent, rep := BitVec.ofNat 16 n }
        let s := if isOnward e then
            let r := s.crecv (i - 1)
            s.setCrecv (i - 1) { r with slots := r.slots.filter fun q => !decide (q.1 = x.count ∧ q.2.1 = x.sent) }
          else s
        if last then
          let s := s.addEnt 0x3420 1 1
          let s := if isOnward e then s.addEnt 0x3420 3 1 else s
          let s := if ceOp e = opSend ∧ ceSource e = 4 then
              let g := groupAbove s i
              let y := s.cgroup g
              s.setCgroup g { y with ready := y.ready.drop 1 }
            else s
          let y := { x with sent := 0, rep := n + 1, active := false, bytes := [], count := if isOnward e then x.count + 1 else x.count }
          some (f, s.setCsend i (match x.ahead with
            | [] => y
            | (o, b) :: r => { y with active := true, ordinal := o, bytes := b, ahead := r }))
        else some (f, s.setCsend i { x with sent := x.sent + 1, rep := n })

/-- Detail of SCHEDULE_MISS and LATE_TRANSFER (Table 2-9). -/
def missDetail (stream p which n at_ : Nat) : List (Nat × Nat) :=
  [(2, stream), (1, p), (1, which), (4, n % 2 ^ 32), (8, at_)]

/-- LATE_TRANSFER (R67, R68, R420): at the deadline of the first or the last flit of a stream's instance in the repetition
under way, it is incomplete. -/
def execLateTransfer (p : Port) (stream : BitVec 14) (s : State) : Out :=
  match setInForce s p.val, findEntry s transmits p.val stream.toNat with
  | some (set, capo), some i =>
    let e := centry s i
    let x := s.csend i
    let frets := fretsOf set stream.toNat
    let slack := slackOf set stream.toNat
    let n := repetition set.length capo s.now.toNat
    let idle := decide (ceOp e = opSend ∧ ceSource e = 3) && !x.active && decide (toRepair s i (ceD e) = [])
    if s.running = false ∨ frets = [] ∨ s.now.toNat < capo ∨ repDue e n = false ∨ idle ∨ (p.val, stream.toNat) ∈ s.run.late ∨
        (x.sent = 0 ∧ n < x.rep) ∨ (x.sent ≠ 0 ∧ x.rep ≠ n) then .next s
    else
      let first := decide (x.sent = 0)
      let fret := if first then frets.getD slack 0 else frets.getD (frets.length - 1) 0
      let at_ := capo + (n * set.length + fret + 1) * 128
      let s := if s.now.toNat ≤ at_ then { s with now := BitVec.ofNat 64 at_ } else s
      let d := missDetail stream.toNat p.val (if first then 1 else 2) n at_
      let s := ((s.addEnt 0x3110 1 1).setEnt 0x3110 2 stream.toNat).setEnt 0x3110 3 p.val
      let s := (s.raise 0x3202 d).raise 0x3201 d
      let s := (s.setCsend i { x with active := false }).setEnt 0x3110 3 p.val
      let s := { s with run := { s.run with late := (p.val, stream.toNat) :: s.run.late } }
      .next (actAbort s s.device 0x3201 at_ none)
  | _, _ => .next s

/-! ### Reductions (R422, R423) -/

/-- LOCAL_INPUT_START (R422): the gate holds; the buffer is read into the group and the signal posted. -/
def execLocalInputStart (t : FTime) (entry : Nat) (s : State) : Out :=
  atTime s t fun s =>
    let e := centry s entry
    let r := s.crecv entry
    let j := r.count
    let g := groupAbove s entry
    if s.running = false ∨ s.run.drainSince.isSome ∨ ceOp e ≠ opInput ∨ ceLocal e = false then .next s
    else if ceSource e = 2 then
      let y := s.cgroup g
      let s := if j < y.done then s else
        s.setCgroup g { y with locals := y.locals ++ [(entry, j, padTo (ceD e) (le 4 (voteWord s)) ++ sourceTrailer s 0 0 j)] }
      .next (s.setCrecv entry { r with count := j + 1 })
    else if syncGate s (centry s (entry + 2)) j = false then .next s
    else
      let buf := centry s (entry + 1)
      let (b, s, bad) := localRead s (bufAddr buf j) (ceD e)
      if bad then .next (abortRun s 0x4102)
      else
        let y := s.cgroup g
        let tr := sourceTrailer s (if ceVersioned e then 1 else 0) (bufShard buf) j
        let s := if j < y.done then s else s.setCgroup g { y with locals := y.locals ++ [(entry, j, b ++ tr)] }
        .next (syncSignal (s.setCrecv entry { r with count := j + 1 }) (centry s (entry + 2)) 1 false)

/-- Bytes of flit k of instance j of one input of a group, if present. -/
def inputFlit (s : State) (g i j k : Nat) : Option (List Byte) :=
  if ceLocal (centry s i) then
    ((s.cgroup g).locals.find? fun l => decide (l.1 = i ∧ l.2.1 = j)).map fun l => slice l.2.2 (240 * k) 240
  else ((s.crecv i).slots.find? fun f => decide (f.1 = j ∧ f.2.1 = k)).map fun f => f.2.2.2

def fp16 (b : List Byte) (o : Nat) : FNum := decF .fp16 (field b o 2)

/-- SUM_FP16 of one element over the inputs in order (R422). -/
def sumFp16 (xs : List (List Byte)) (o : Nat) : Nat :=
  match xs with
  | [] => 0
  | x :: r =>
    let acc := r.foldl (fun acc y => fadd acc (toF32 (fp16 y o))) (toF32 (fp16 x o))
    (narrow .fp16 .rne (ofF32 acc)).1

/-- One block of a group's output, and whether a non-finite element was met or produced (R423). -/
def reduceBlock (op : Nat) (n : Nat) (xs : List (List Byte)) : List Byte × Bool :=
  if op = 2 then
    ((List.range (n / 4)).flatMap fun k => le 4 (xs.foldl (fun acc x => acc ||| field x (4 * k) 4) 0), false)
  else
    let out := (List.range (n / 2)).flatMap fun k => le 2 (sumFp16 xs (2 * k))
    let nf (b : List Byte) : Bool := (List.range (n / 2)).any fun k => !(fp16 b (2 * k)).isFinite
    (out, nf out || xs.any nf)

/-- The trailers of a group's inputs agree where one is VERSIONED: all carry the same version and shard number (R423). -/
def versionsAgree (ts : List (List Byte)) : Bool :=
  !ts.any trVersioned || ts.all fun t => trVersioned t && decide (trVersion t = trVersion (ts.getD 0 [])) &&
    decide (trShard t = trShard (ts.getD 0 []))

/-- The end of a group instance: trailer and output. -/
def groupDone (s : State) (g j : Nat) (ins : List Nat) (next : Nat) (ts : List (List Byte)) : State :=
  let e := centry s g
  let y := s.cgroup g
  let d := ceD e
  let nf := y.nonfinite || ts.any trNonfinite
  let s := takeNonfinite (s.addEnt 0x3420 4 1) nf
  let s := if nf then s.addEnt 0x3420 5 1 else s
  let first := ts.getD 0 []
  if !versionsAgree ts then
    let odd := (ts.find? fun t => !trVersioned t || decide (trVersion t ≠ trVersion first) || decide (trShard t ≠ trShard first)).getD first
    let who := ins.getD (ts.idxOf odd) 0
    versionFault s (trShard odd) (trVersion first) (trVersion odd)
      (if ceLocal (centry s who) then s.device else s.ent 0x3301 (cePort (centry s who) + 1))
  else
    let tr := trailerOf nf (ts.any trVersioned) (if ts.any trVersioned then trVersion first else 0)
      (if ts.any trVersioned then trShard first else 0) (j % 2 ^ 32)
    let z : GroupS := { done := j + 1, blocks := 0, out := [], tails := [], nonfinite := false,
                        locals := y.locals.filter fun l => decide (l.2.1 ≠ j), ready := y.ready }
    match grOutput e with
    | 0 =>
      let (s, ok) := trailerCheck s (grCheck e) tr s.device
      if !ok then s else
      let (s, _) := landPart s (bufAddr (centry s next) j) y.out d (lastUnit d) d (next + 1) (s.crecv g).landed true
      let r := s.crecv g
      (s.setCgroup g z).setCrecv g { r with landed := 0 } |>.addEnt 0x3420 2 1
    | 1 => s.setCgroup g { z with ready := y.ready ++ [y.out ++ tr] }
    | _ =>
      let s := s.setCgroup g z
      { s with coll := { s.coll with voteOr := s.coll.voteOr ||| BitVec.ofNat 32 (field y.out 0 4), voteDone := g :: s.coll.voteDone } }

/-- Slots of instance j's flits of which `gone` holds are freed. -/
def freeSlots (s : State) (ins : List Nat) (j : Nat) (gone : Nat → Bool) : State :=
  ins.foldl (fun s i =>
    let r := s.crecv i
    s.setCrecv i { r with slots := r.slots.filter fun f => !(decide (f.1 = j) && gone f.2.1) }) s

/-- A group instance is discarded (R418): what has come of it is dropped, and what is still to come (`recvFlit`). -/
def dropInstance (s : State) (g j : Nat) (ins : List Nat) : State :=
  let s := freeSlots s ins j fun _ => true
  let y := s.cgroup g
  s.setCgroup g { y with done := j + 1, blocks := 0, out := [], tails := [], nonfinite := false,
                         locals := y.locals.filter fun l => decide (l.2.1 ≠ j) }

/-- GROUP_BLOCK_REDUCE (R422, R423): block b of every input is present and is reduced. The trailers follow the last block, in its
flits or in one more: the instance ends when they are whole. -/
def execGroupBlockReduce (t : FTime) (entry : Nat) (s : State) : Out :=
  atTime s t fun s =>
    let e := centry s entry
    let y := s.cgroup entry
    let j := y.done
    let b := y.blocks
    let d := ceD e
    let (ins, next) := groupInputs s entry
    let present := ins.all fun i => (inputFlit s entry i j b).isSome
    if s.running = false ∨ ceOp e ≠ opGroup ∨ ins = [] ∨ !present then .next s
    else if b = 0 ∧ grOutput e = 0 ∧ !syncGate s (centry s (next + 1)) j then
      .next (collFault (dropInstance s entry j ins) 0x3403 0xFF 0 j)
    else
      let pool := ins.foldl (fun (a : State × Bool) i =>
        if ceLocal (centry s i) then a else let r := checkSlot a.1 i j b; (r.1, a.2 || r.2)) (s, false)
      if pool.2 then .next (abortRun pool.1 0x4102) else
      let s := pool.1
      let n := if 240 * (b + 1) < d then 240 else d - 240 * b
      let xs := ins.map fun i => (inputFlit s entry i j b).getD []
      let tails := if d ≤ 240 * b then (y.tails.zip xs).map fun x => x.1 ++ x.2 else xs.map (·.drop n)
      let (out, nf) := reduceBlock (grOp e) n xs
      let s := freeSlots s ins j fun k => decide (k = b)
      let data := y.out ++ out
      let s := s.setCgroup entry { y with blocks := b + 1, out := data, tails := tails, nonfinite := y.nonfinite || nf }
      let s := takeNonfinite s nf
      let cut (x : Nat) : Nat := if x < lastUnit d then x else lastUnit d
      let s := if grOutput e = 0 then
          let (s, landed) := landPart s (bufAddr (centry s next) j) data d (cut (240 * b)) (cut data.length) (next + 1)
            (s.crecv entry).landed true
          let r := s.crecv entry
          s.setCrecv entry { r with landed := landed }
        else s
      if b + 1 = flitsOf d then .next (groupDone s entry j ins next (tails.map (slice · 0 16))) else .next s

/-- STAGED_COPY (R426): the staged instance has passed its check and the gate holds; it is copied and its landing
signalled. -/
def execStagedCopy (t : FTime) (entry : Nat) (s : State) : Out :=
  atTime s t fun s =>
    match s.coll.staged.find? fun x => decide (x.entry = entry) with
    | none => .next s
    | some x =>
      let d := ceD (centry s entry)
      let sync := centry s (entry + 3)
      if s.running = false ∨ syncGate s sync x.ordinal = false then .next s
      else
        let (b, s, bad) := localRead s (bufAddr (centry s (entry + 1)) x.ordinal) d
        if bad then .next (abortRun s 0x4102)
        else
          let s := localWrite s (bufAddr (centry s (entry + 2)) x.ordinal) b
          let s := { s with coll := { s.coll with staged := s.coll.staged.filter fun y => !decide (y = x) } }
          .next (syncSignal s sync (ceilDiv d 64) true)

end Sys2Proof.Machine
end

