-- ==== Sys2Proof/Machine/Links.lean ====
section
/-!
DEFINITION. Links, courses and host attachment (chapter 13): training, routes, open transfers at the destination and in
transit, the slot order, maps. What an answer does at the requester is in `Mover.lean`.
-/
namespace Sys2Proof.Machine

/-! ### Routes (R396, R397, R404) -/

/-- The mesh port to a position of the own course (Table 13-8). -/
def meshPort (s : State) (pos : Nat) : Nat := (pos + 31 - positionOf s.device % 32) % 32
/-- The position of the module on a mesh port. -/
def meshPeer (s : State) (p : Nat) : Nat := (positionOf s.device + p + 1) % 32
def meshHop (s : State) (pos : Nat) : Option Nat :=
  let p := meshPort s pos
  if p < 31 ∧ s.inService p then some p else none

/-- Own ports that lead to a course. -/
def globalPorts (s : State) (course : Nat) : List Nat :=
  (List.range 48).filter fun p =>
    decide (31 ≤ p) && s.inService p && !(s.port p).adapter && decide (courseOf (s.ent 0x3301 (p + 1)) = course)

/-- The gateways (position, port) of the course's maps that lead to a course, in ascending order. -/
def gateways (s : State) (course : Nat) : List (Nat × Nat) :=
  (List.range 32).flatMap fun a =>
    let m := sget [] s.links.maps a
    ((List.range 17).filter fun k =>
      decide (field m (5 + 4 * k) 1 = 4) && decide (courseOf (field m (6 + 4 * k) 2) = course)).map fun k => (a, 31 + k)

/-- The position of the course's bridge, where that is another module, as the maps show it: the lowest with written role BRIDGE (R26). -/
def bridgePosition (s : State) : Option Nat :=
  if s.isBridge then none else
  (List.range 32).find? fun a => decide (field (sget [] s.links.maps a) 1 1 = 3) && decide (a ≠ positionOf s.device)

/-- The port for the first flit from a source device to a destination device (R396); the host is reached through port 47 of
the bridge (R406). -/
def routePort (s : State) (src dst : Nat) : Option Nat :=
  if dst = 0xFFFF then
    if s.isBridge then (if s.inService 47 ∧ (s.port 47).adapter then some 47 else none)
    else (bridgePosition s).bind (meshHop s)
  else if courseOf dst = courseOf s.device then meshHop s (positionOf dst)
  else
    let own := globalPorts s (courseOf dst)
    match own.find? fun p => decide (s.ent 0x3301 (p + 1) = dst) with
    | some p => some p
    | none =>
      if own ≠ [] then own[(src + dst) % own.length]?
      else
        let gs := gateways s (courseOf dst)
        match gs[(src + dst) % gs.length]? with
        | some g => meshHop s g.1
        | none => none

/-- Put an open flit in its VC's queue on a port; `from_` is the port and VC whose buffer place a relayed flit holds. -/
def queueOpen (s : State) (p : Nat) (f : Flit) (from_ : Option (Nat × Nat)) : State :=
  s.modPort p fun x => { x with vcs := x.vcs.set f.vc.toNat (x.vcs.getD f.vc.toNat [] ++ [(f, from_)]) }
/-- Send an open flit of this module. -/
def sendOpen (s : State) (p : Nat) (f : Flit) : State := queueOpen s p f none

/-- A buffer place of a port's VC stays held, or is given back (R387). -/
def holdPlace (s : State) (p vc : Nat) : State :=
  s.modPort p fun x => { x with held := x.held.set vc (x.held.getD vc 0 + 1), owed := x.owed.set vc (x.owed.getD vc 0 - 1) }
def freePlace (s : State) (p vc : Nat) : State :=
  s.modPort p fun x => { x with held := x.held.set vc (x.held.getD vc 0 - 1), owed := x.owed.set vc (x.owed.getD vc 0 + 1) }

/-- Flits of an answer or request of this module leave on one route; with none they are discarded and counted. -/
def emit (s : State) (dst : Nat) (fs : List Flit) : State × Bool :=
  match routePort s s.device dst with
  | some p => (fs.foldl (fun s f => sendOpen s p f) s, true)
  | none => (s.addEnt 0x3320 1 1, false)

/-- An open flit of this module. -/
def openFlit (s : State) (kind vc : Nat) (dst : W16) (tag : BitVec 12) (index : Nat) (last : Bool) (payload : List Byte) : Flit :=
  { bareFlit kind payload with
    vc := BitVec.ofNat 3 vc, dst := dst, src := BitVec.ofNat 16 s.device, tag := tag, index := BitVec.ofNat 18 index, last := last }

/-- Count a refused host request on the bridge (Table 13-13). -/
def noteRefused (s : State) (dst : W16) (status : Nat) : State :=
  if dst = 0xFFFF#16 ∧ status ≠ 0 ∧ s.isBridge then s.addEnt 0x3330 2 1 else s

/-- An ACK (Table 13-10). -/
def sendAck (s : State) (dst : W16) (tag : BitVec 12) (status transfer bytes : Nat) : State :=
  let b := le 1 status ++ le 1 0 ++ le 2 transfer ++ le 4 bytes
  (emit (noteRefused s dst status) dst.toNat [openFlit s kAck 3 dst tag 0 true b]).1

/-- The RESP flits of a READ (Table 13-10). -/
def sendResp (s : State) (dst : W16) (tag : BitVec 12) (status : Nat) (data : List Byte) : State :=
  let all := le 1 status ++ le 3 0 ++ le 4 data.length ++ le 8 0 ++ data
  let n := ceilDiv all.length 240
  (emit (noteRefused s dst status) dst.toNat ((List.range n).map fun k =>
    openFlit s kResp 3 dst tag k (decide (k + 1 = n)) (slice all (240 * k) 240))).1

/-- The answer of a refused request: an ACK, or a RESP for a READ. -/
def refuseFlit (s : State) (f : Flit) (status : Nat) : State :=
  if f.kind.toNat = kRead then sendResp s f.src f.tag status []
  else sendAck s f.src f.tag status (if f.kind.toNat = kHead then field f.payload 16 2 else 0) 0

/-! ### Transit -/

/-- Class of a kind for the routes in progress; none where every flit is a first flit. -/
def routeClass (k : Nat) : Option Nat :=
  if k = kHead ∨ k = kData then some 0 else if k = kResp then some 1 else if k = kHostmsg then some 2 else none

def isRoute (f : Flit) (c : Nat) (r : W16 × W16 × BitVec 12 × Nat × Nat) : Bool :=
  decide (r.1 = f.src) && decide (r.2.1 = f.dst) && decide (r.2.2.1 = f.tag) && decide (r.2.2.2.1 = c)

/-- The relayed flit: its hop index rises by 1 (R386). -/
def nextHop (f : Flit) : Flit :=
  { f with vc := if f.vc = 2#3 ∨ f.vc = 5#3 then f.vc else f.vc + 1 }

/-- A request that is answered opens with this flit. -/
def opensRequest (f : Flit) : Bool :=
  decide (f.kind.toNat = kHead ∨ f.kind.toNat = kRead ∨ f.kind.toNat = kPost) ||
    (decide (f.kind.toNat = kHostmsg) && decide (f.index.toNat = 0) && decide (f.vc.toNat < 3))

/-- Relay an open flit for another destination (R396, R397, R404, R406). Its buffer place is held until it leaves (R387). -/
def relay (s : State) (p : Nat) (f : Flit) : State :=
  let fromHost := (s.port p).adapter
  let c := routeClass f.kind.toNat
  let first := decide (f.index.toNat = 0) && decide (f.kind.toNat ≠ kData)
  let others := match c with
    | some c => s.links.routes.filter fun r => !isRoute f c r
    | none => s.links.routes
  let found := match c with
    | some c => (s.links.routes.find? (isRoute f c)).map fun r => r.2.2.2.2
    | none => none
  let refused : Option Nat :=
    if fromHost ∧ f.dst ≠ 0xFFFF#16 ∧ courseOf f.dst.toNat ≠ courseOf s.device then some 4
    else if f.dst = 0xFFFF#16 ∧ !fromHost ∧ f.src.toNat ≠ 0xFFFF ∧ opensRequest f ∧ courseOf f.src.toNat ≠ courseOf s.device then some 1
    else none
  let port : Option Nat :=
    if first then (if refused.isSome then none else routePort s f.src.toNat f.dst.toNat)
    else match found with
      | some q => if q = 99 then none else some q
      | none => none
  let s := { s with links := { s.links with routes :=
    match c with
    | some c => if f.last then others else if first then (f.src, f.dst, f.tag, c, port.getD 99) :: others else s.links.routes
    | none => s.links.routes } }
  match port with
  | some q =>
    let s := if fromHost ∧ opensRequest f then s.addEnt 0x3330 1 1 else s
    let s := if q = 47 ∧ first ∧ (f.kind.toNat = kAck ∨ f.kind.toNat = kResp) then noteRefused s f.dst (field f.payload 0 1) else s
    queueOpen (holdPlace s p f.vc.toNat) q (nextHop f) (some (p, f.vc.toNat))
  | none =>
    if !first then s
    else
      let s := if refused.isSome then s else s.addEnt 0x3320 1 1
      if opensRequest f then refuseFlit s f (refused.getD 3) else s

/-! ### Access at the destination (R198 to R200, R405) -/

/-- An enabled lend window that holds the bytes from a to a + n − 1 and, for a write, permits it. -/
def windowFor (s : State) (a n : Nat) (write : Bool) : Bool :=
  (List.range 8).any fun w =>
    let base := s.ent (0x4500 + w) 1
    let size := s.ent (0x4500 + w) 2
    let acc := s.ent (0x4500 + w) 3
    (decide (acc = 2) || (decide (acc = 1) && !write)) && decide (base ≤ a) && decide (a + n ≤ base + size)

/-- The cuts of a request at 256-byte boundaries. -/
def pieces (a n : Nat) : List (Nat × Nat) :=
  if n = 0 then [] else
  (List.range ((a + n - 1) / 256 - a / 256 + 1)).map fun k =>
    let lo := if k = 0 then a else (a / 256 + k) * 256
    let hi := if a + n ≤ (a / 256 + k + 1) * 256 then a + n else (a / 256 + k + 1) * 256
    (lo, hi - lo)

/-- Count a refusal of R200 and raise LEND_VIOLATION once per requesting device in each run. -/
def lendRefused (s : State) (src a : Nat) : State :=
  let w := ((List.range 8).find? fun w =>
    decide (s.ent (0x4500 + w) 3 ≠ 0) && decide (s.ent (0x4500 + w) 1 ≤ a) &&
      decide (a < s.ent (0x4500 + w) 1 + s.ent (0x4500 + w) 2)).getD 0
  let s := s.addEnt (0x4500 + w) 4 1
  if src ∈ s.mem.lendRaised then s
  else { s with mem := { s.mem with lendRaised := src :: s.mem.lendRaised } }.raise 0x4404 []

/-- RUN or TEST. -/
def runOrTest (s : State) : Bool := decide (s.ctl.dev = .run) || decide (s.ctl.dev = .test)

/-- The status that a request of n bytes at local address a gets (Table 13-11; log entry 21 for its order), and the state
after counting a refusal under R200. -/
def accessStatus (s : State) (src : W16) (a n : Nat) (write : Bool) : State × Nat :=
  if src = 0xFFFF#16 then
    match placeOf a n with
    | .hbm =>
      if s.ctl.filled ∧ s.ctl.dev ∈ [Dev.ready, .armed, .run, .pause, .aborting, .test, .recovery] then (s, 0) else (s, 5)
    | .clm _ _ => if s.ctl.dev ∈ [Dev.pause, .test] then (s, 0) else (s, 5)
    | .wide _ _ => if s.ctl.dev ∈ [Dev.pause, .test] then (s, 0) else (s, 5)
    | _ => (s, 1)
  else
    match placeOf a n with
    | .hbm =>
      if courseOf src.toNat ≠ courseOf s.device then (lendRefused s src.toNat a, 4)
      else if !runOrTest s ∨ !s.ctl.filled then (lendRefused s src.toNat a, 5)
      else if (pieces a n).all fun q => windowFor s q.1 q.2 write then (s, 0)
      else (lendRefused s src.toNat a, 2)
    | .clm _ _ => if runOrTest s then (s, 0) else (lendRefused s src.toNat a, 5)
    | .wide _ _ => if runOrTest s then (s, 0) else (lendRefused s src.toNat a, 5)
    | _ => (s, 1)

/-! ### Open transfers at the destination (R398 to R400) -/

def transferKey (src transfer : Nat) : Nat := src * 65536 + transfer
def openTransfers (s : State) : Nat := s.links.transfers.length
def State.transfer (s : State) (k : Nat) : Option Transfer := sget none s.links.transfers k
def State.setTransfer (s : State) (k : Nat) (x : Option Transfer) : State :=
  { s with links := { s.links with transfers := sset none s.links.transfers k x } }

/-- Bytes of a segment are answered; the transfer closes with its last segment (R399). -/
def answered (s : State) (k n : Nat) : State :=
  match s.transfer k with
  | none => s
  | some x => if x.total ≤ x.answered + n then s.setTransfer k none else s.setTransfer k (some { x with answered := x.answered + n })

/-- The segment header of a HEAD is well-formed (Table 13-9). -/
def headOk (b : List Byte) : Bool :=
  decide (field b 0 1 = 1) && decide (1 ≤ field b 4 4) && decide (field b 4 4 ≤ 4194304) &&
    (!Nat.testBit (field b 1 1) 0 || (decide (field b 2 2 % 1024 ≤ 191) && decide (field b 2 2 / 1024 ≤ 47)))

/-- A source address that names neither a module nor the host (R14). -/
def badSource (f : Flit) : Bool := noDevice f.src && decide (f.src ≠ 0xFFFF#16)

/-- A HEAD for this module: the segment is opened, or refused at once; from no device it is malformed. -/
def takeHead (s : State) (p : Nat) (f : Flit) : State :=
  let b := f.payload
  let n := field b 4 4
  let a := field b 8 6
  let tid := field b 16 2
  let key := transferKey f.src.toNat tid
  let total := field b 20 4 + 1
  let land := if Nat.testBit (field b 1 1) 0 then some (field b 2 2 % 1024, field b 2 2 / 1024) else none
  let (s, status) := if headOk b && !badSource f then accessStatus s f.src a n true else (s, 7)
  let s := if (s.transfer key).isSome ∨ (status ≠ 0 ∧ total ≤ n) ∨ status = 7 then s
    else s.setTransfer key (some { total := total, committed := 0, land := land, landed := 0, answered := 0 })
  let first := if n < 208 then n else 208
  let seg : Segment :=
    { port := ⟨p % 48, Nat.mod_lt _ (by decide)⟩, vc := f.vc.toNat, src := f.src, tag := f.tag, transfer := BitVec.ofNat 16 tid,
      base := a, bytes := n, got := first, index := 1, done := 0, refused := decide (status ≠ 0),
      pendingBytes := if status = 0 then slice (padTo 240 b) 32 first else [], complete := f.last }
  let wrong := decide (status = 0) && (f.last != decide (n ≤ 208))
  let s := if wrong then answered (sendAck s f.src f.tag 7 tid 0) key n
    else if status = 0 then s else answered (sendAck s f.src f.tag status tid 0) key n
  if (status ≠ 0 ∨ wrong) ∧ f.last then s
  else { s with links := { s.links with segments := s.links.segments ++ [{ seg with refused := seg.refused || wrong }] } }

def isSegment (p : Nat) (f : Flit) (g : Segment) : Bool :=
  decide (g.port.val = p) && decide (g.vc = f.vc.toNat) && decide (g.src = f.src) && decide (g.tag = f.tag) && !g.complete

/-- A DATA flit for this module: its bytes join the segment's. -/
def takeData (s : State) (p : Nat) (f : Flit) : State :=
  match s.links.segments.find? (isSegment p f) with
  | none => s
  | some g =>
    let others := s.links.segments.filter fun h => !decide (h = g)
    let put (g : List Segment) : State := { s with links := { s.links with segments := others ++ g } }
    if g.refused then (if f.last then put [] else s)
    else
      let n := if g.bytes - g.got < 240 then g.bytes - g.got else 240
      if f.index.toNat ≠ g.index ∨ n = 0 ∨ f.last ≠ decide (g.got + n = g.bytes) then
        let s := put (if f.last then [] else [{ g with refused := true, pendingBytes := [] }])
        answered (sendAck s g.src g.tag 7 g.transfer.toNat g.done) (transferKey g.src.toNat g.transfer.toNat) g.bytes
      else put [{ g with got := g.got + n, index := g.index + 1, pendingBytes := g.pendingBytes ++ padTo n f.payload, complete := f.last }]

/-- The destination is this module. -/
def isMine (s : State) (f : Flit) : Bool := decide (f.dst.toNat = s.device)

/-- A HEAD for this module that would open one transfer more than 16,384 (R399). -/
def opensTooMany (s : State) (f : Flit) : Bool :=
  decide (f.kind.toNat = kHead) && isMine s f && decide (16384 ≤ openTransfers s) &&
    (s.transfer (transferKey f.src.toNat (field f.payload 16 2))).isNone

/-- Such a HEAD waits in its VC, and so does every flit behind it there: flits of one VC leave in order (R387, R399). -/
def mustWait (s : State) (p : Nat) (f : Flit) : Bool :=
  (s.port p).waiting.any (fun g => decide (g.vc = f.vc)) || opensTooMany s f

/-- A READ for this module (R400): the bytes, or a refusal's status. -/
def takeRead (s : State) (f : Flit) : State :=
  let a := field f.payload 0 6
  let n := field f.payload 8 4
  if n = 0 ∨ 4096 < n ∨ badSource f then sendResp s f.src f.tag 7 []
  else
    let (s, status) := accessStatus s f.src a n false
    if status ≠ 0 then sendResp s f.src f.tag status []
    else
      let (b, s, bad) := localRead s a n
      if bad then sendResp s f.src f.tag 6 [] else sendResp s f.src f.tag 0 b

/-- A POST for this module (R402): the target semaphore rises by 1, and the POST is acknowledged. A host posts nothing. -/
def takePost (s : State) (f : Flit) : State :=
  let c := field f.payload 0 2 % 1024
  let k := field f.payload 2 1
  if f.src = 0xFFFF#16 then sendAck s f.src f.tag 1 0 0
  else if 191 < c ∨ 47 < k ∨ badSource f then sendAck s f.src f.tag 7 0 0
  else sendAck (incSem s c k 1 false) f.src f.tag 0 0 0

def isHostMsg (p : Nat) (f : Flit) (m : HostMsg) : Bool :=
  decide (m.port.val = p) && decide (m.src = f.src) && decide (m.tag = f.tag)

/-- A session in band that uses this channel of the port has received a record (R440). -/
def heardSession (now : FTime) (channel : W16) (k : Nat) (x : Option Session) : Option Session :=
  x.map fun x => if 4 ≤ k ∧ x.channel = channel then { x with lastRx := now } else x

/-- A HOSTMSG for this module (R407): gathered until the message reaches Galena, and acknowledged. -/
def takeHostmsg (s : State) (p : Nat) (f : Flit) : State :=
  let open_ := s.links.hostMsgs.find? (isHostMsg p f)
  let others := s.links.hostMsgs.filter fun m => !isHostMsg p f m
  let m : Option HostMsg :=
    if f.index.toNat = 0 then
      some { port := ⟨p % 48, Nat.mod_lt _ (by decide)⟩, src := f.src, tag := f.tag, channel := BitVec.ofNat 16 (field f.payload 0 2),
             bytes := field f.payload 2 2, got := slice (padTo 240 f.payload) 16 224 }
    else open_.map fun m => { m with got := m.got ++ padTo 240 f.payload }
  match m with
  | none => s
  | some m =>
    if f.last = false then { s with links := { s.links with hostMsgs := m :: others } }
    else
      let s := { s with links := { s.links with hostMsgs := others } }
      if f.src ≠ 0xFFFF#16 ∨ m.bytes = 0 ∨ 2048 < m.bytes ∨ m.got.length < m.bytes then sendAck s f.src f.tag 7 0 0
      else
        let s := { s with
          links := { s.links with galenaIn := s.links.galenaIn ++ [(m.channel, m.got.take m.bytes)] }
          fdp := { s.fdp with sessions := s.fdp.sessions.map fun e => (e.1, heardSession s.now m.channel e.1 e.2) } }
        sendAck s f.src f.tag 0 0 m.bytes

/-- An open request flit once it leaves its buffer: relayed, or taken by its kind. -/
def handleRequest (s : State) (p : Nat) (f : Flit) : State :=
  if !isMine s f then relay s p f
  else if f.kind.toNat = kHead then takeHead s p f
  else if f.kind.toNat = kData then takeData s p f
  else if f.kind.toNat = kRead then takeRead s f
  else if f.kind.toNat = kPost then takePost s f
  else takeHostmsg s p f

/-- A flit waits in its VC: its buffer place is still held. -/
def holdFlit (s : State) (p : Nat) (f : Flit) : State :=
  holdPlace (s.modPort p fun x => { x with waiting := x.waiting ++ [f] }) p f.vc.toNat

/-- The first waiting flit that no longer has to wait, and the others: flits of one VC leave in order, and no VC waits for another (R388). -/
def takeReady (s : State) (before : List Flit) : List Flit → Option (Flit × List Flit)
  | [] => none
  | f :: r => if before.any (fun g => decide (g.vc = f.vc)) || opensTooMany s f then takeReady s (before ++ [f]) r else some (f, before ++ r)

/-- Flits that waited on a port and no longer have to are handled in order. -/
def drainWaiting : Nat → Nat → State → State
  | 0, _, s => s
  | n + 1, p, s =>
    match takeReady s [] (s.port p).waiting with
    | none => s
    | some (f, r) => drainWaiting n p (handleRequest (freePlace (s.modPort p fun x => { x with waiting := r }) p f.vc.toNat) p f)
/-- Places of open transfers may have come free: what waits for one is handled (R399). -/
def drainAll (s : State) : State := (List.range 48).foldl (fun s p => drainWaiting 1024 p s) s

/-- An open request flit arrives, behind what may go before it: it waits, or is handled and what it frees is given on. -/
def arriveRequest (s : State) (p : Nat) (f : Flit) : State :=
  let s := drainAll s
  if mustWait s p f then holdFlit s p f else drainAll (handleRequest s p f)

/-- HEAD_FLIT_RECEIVE. -/
def execHeadFlitReceive (t : FTime) (p : Port) (f : Flit) (s : State) : Out :=
  atTime s t fun s => accepted s p.val f kHead fun s => .next (arriveRequest s p.val f)

/-- DATA_FLIT_RECEIVE. -/
def execDataFlitReceive (t : FTime) (p : Port) (f : Flit) (s : State) : Out :=
  atTime s t fun s => accepted s p.val f kData fun s => .next (arriveRequest s p.val f)

/-- READ_FLIT_RECEIVE (R400). -/
def execReadFlitReceive (t : FTime) (p : Port) (f : Flit) (s : State) : Out :=
  atTime s t fun s => accepted s p.val f kRead fun s => .next (arriveRequest s p.val f)

/-- POST_FLIT_RECEIVE (R402). -/
def execPostFlitReceive (t : FTime) (p : Port) (f : Flit) (s : State) : Out :=
  atTime s t fun s => accepted s p.val f kPost fun s => .next (arriveRequest s p.val f)

/-- HOSTMSG_RECEIVE (R407). -/
def execHostmsgReceive (t : FTime) (p : Port) (f : Flit) (s : State) : Out :=
  atTime s t fun s => accepted s p.val f kHostmsg fun s => .next (arriveRequest s p.val f)

/-! ### Training and leaving service (R390 to R394) -/

/-- The main side can train its ports: it is at or past START and powered. -/
def portsAlive (s : State) : Bool :=
  s.ctl.powered && !decide (s.ctl.dev ∈ [Dev.off, .standby, .init])

/-- PCS_LOCK. -/
def execPcsLock (p : Port) (s : State) : Out :=
  if portsAlive s ∧ s.portSt p.val = 1 then .next (s.setEnt 0x3300 (p.val + 1) 2) else .next s

/-- What training has reached on a port is given up. -/
def forgetTraining (x : PortS) : PortS := { x with advert := none, chosen := none, confirmed := none, confirmSent := false, failures := 0, grants := [] }

/-- FLIT_LOCK_ACQUIRED (R381): four windows in a row that are good give flit lock, and training proceeds. -/
def execFlitLockAcquired (w : LockWindows) (s : State) : Out :=
  if portsAlive s ∧ s.portSt w.port.val = 2 ∧ w.windows.length = 4 ∧ w.windows.all goodWindow then
    .next ((s.setEnt 0x3300 (w.port.val + 1) 3).modPort w.port.val forgetTraining)
  else .next s

/-- A port leaves service (R394): the replay buffer is discarded and training begins again; in RUN it carries no SCHED flits
before the next start. -/
def leaveService (s : State) (p st : Nat) : State :=
  let s := (((s.setEnt 0x3300 (p + 1) st).addEnt 0x3304 (p + 1) 1).raise 0x3101 [])
  s.modPort p fun x => { PortS.reset with
    vcs := x.vcs, waiting := x.waiting, held := x.held, inForce := x.inForce, holdRaised := x.holdRaised, replayTimes := x.replayTimes,
    degradedAt := x.degradedAt, noSched := x.noSched || s.running }

/-- A port loses light, PCS lock or flit lock and stands in port state `st` (R381, R394): in service it leaves service; in
training it begins again; a held port stays held. -/
def loseLock (s : State) (p st : Nat) : State :=
  if s.inService p then leaveService s p st
  else if s.portSt p = 2 ∨ s.portSt p = 3 then (s.setEnt 0x3300 (p + 1) st).modPort p forgetTraining
  else if s.portSt p = 5 then s.modPort p fun x => { forgetTraining x with retraining := false }
  else s

/-- LINK_DOWN (R394). -/
def execLinkDown (t : FTime) (p : Port) (s : State) : Out := atTime s t fun s => .next (loseLock s p.val 1)

/-- LASER_FAULT (R378): raised once; the eight ports leave service together, each with LINK_DOWN. -/
def execLaserFault (src : Fin 6) (s : State) : Out :=
  if s.ctl.powered = false ∨ src.val ∈ s.links.lasers then .next s
  else
    let s := { s with links := { s.links with lasers := src.val :: s.links.lasers } }.raise 0x3105 [(1, src.val)]
    .next ((laserPorts src.val).foldl (fun s p => leaveService s p 6) s)

/-- A TRAIN payload as received (Table 13-7). -/
def trainOf (b : List Byte) : TrainP where
  version := BitVec.ofNat 8 (field b 0 1)
  phase := BitVec.ofNat 8 (field b 1 1)
  lowest := BitVec.ofNat 8 (field b 2 1)
  highest := BitVec.ofNat 8 (field b 3 1)
  chosen := BitVec.ofNat 8 (field b 4 1)
  generation := BitVec.ofNat 8 (field b 5 1)
  role := BitVec.ofNat 8 (field b 6 1)
  port := BitVec.ofNat 8 (field b 7 1)
  device := BitVec.ofNat 16 (field b 8 2)
  features := BitVec.ofNat 32 (field b 12 4)
  fingerprint := BitVec.ofNat 64 (field b 16 8)
  credits := (List.range 6).map fun k => BitVec.ofNat 16 (field b (24 + 2 * k) 2)
  replayDepth := BitVec.ofNat 16 (field b 36 2)

/-- The initial credits of a training are chosen once, free values within R387 (log entry 3): with the h flits that still wait in a VC, whose
credits are owed as they leave, at least 16, and never more than the VC's share of the buffer. -/
def chooseGrants (s : State) (p : Nat) : State :=
  if (s.port p).grants ≠ [] then s else
  let r := (List.range 6).foldl (fun (a : List Nat × State) v =>
    let h := (s.port p).held.getD v 0
    let d := drawNat a.2 (Nat.max 1 (171 - h - (16 - h)))
    (a.1 ++ [16 - h + d.1], d.2)) ([], s)
  r.2.modPort p fun x => { x with grants := r.1, owed := List.replicate 6 0 }

/-- The TRAIN payload that a port sends. -/
def trainPayload (s : State) (p phase chosen : Nat) : List Byte × State :=
  let s := chooseGrants s p
  let cr := (s.port p).grants.flatMap (le 2)
  (padTo 240 (le 1 1 ++ le 1 phase ++ le 1 1 ++ le 1 1 ++ le 1 chosen ++ le 1 (s.ent 0x1008 1) ++ le 1 (s.ent 0x3200 5) ++
    le 1 0 ++ le 2 s.device ++ le 2 0 ++ le 4 7 ++ padTo 8 (Config.sha384 Config.rsaCertificate) ++ cr ++ le 2 1024), s)

/-- The wiring rules of Table 13-8 hold for a peer on port p. -/
def wiringOk (s : State) (p : Nat) (m : TrainP) : Bool :=
  let adapter := decide (m.role = 0x10#8)
  if p = 47 ∧ s.isBridge then adapter
  else if adapter then false
  else if p ≤ 30 then
    decide (courseOf m.device.toNat = courseOf s.device) && decide (positionOf m.device.toNat = meshPeer s p) &&
      decide (m.port.toNat = 30 - p)
  else
    decide (courseOf m.device.toNat ≠ courseOf s.device) && decide (courseOf m.device.toNat ≤ 319) && decide (31 ≤ m.port.toNat) && decide (m.port.toNat ≤ 47)

/-- The peer shows a duplicate address (Table 13-8, last row). -/
def duplicate (s : State) (p : Nat) (m : TrainP) : Bool :=
  decide (m.role ≠ 0x10#8) && (decide (m.device.toNat = s.device) ||
    (List.range 48).any fun q => decide (q ≠ p) && (match (s.port q).advert with
      | some a => decide (a.device = m.device) && decide (a.fingerprint ≠ m.fingerprint)
      | none => false))

/-- The event with which a port is held, if any (R391, R392). SCHEDULED and TIME are required between modules, HOST of a
bridge's adapter. -/
def holdCode (s : State) (p : Nat) (m : TrainP) : Option Nat :=
  let need := if m.role ≠ 0x10#8 then 3 else if p = 47 ∧ s.isBridge then 4 else 0
  if 1 < m.lowest.toNat ∨ m.highest.toNat < 1 ∨ m.features.toNat &&& need ≠ need then some 0x3102
  else if duplicate s p m then some 0x3104
  else if wiringOk s p m then none
  else some 0x3103

/-- Hold a port out of service; the event is raised once per hold. -/
def holdPort (s : State) (p code : Nat) : State :=
  let x := s.port p
  let s := (s.setEnt 0x3300 (p + 1) 5).setPort p { forgetTraining x with holdRaised := true, retraining := false }
  if x.holdRaised then s else (s.setEnt 0x3305 (p + 1) code).raise code []

/-- Two bridges in one course (R26): the one at the higher position becomes a WORKER, whose port 47 is a global port: where an
adapter is attached to it, it leaves service and trains as one (DESIGN CHOICE, log entry 132). -/
def roleConflict (s : State) (position : Nat) : State :=
  if s.isBridge ∧ position < positionOf s.device then
    let s := (s.setEnt 0x3200 5 1).raise 0x3301 []
    if (s.port 47).adapter then leaveService s 47 1
    else if !s.inService 47 && (match (s.port 47).advert with | some m => decide (m.role = 0x10#8) | none => false) then s.modPort 47 forgetTraining
    else s
  else s

/-- A port that has sent and received CONFIRMs of one version enters service (R390), but for one that R393 keeps out; in START the
first begins the stage of fabric time (Table 17-7). -/
def tryService (s : State) (p : Nat) : State :=
  let x := s.port p
  match x.advert, x.chosen with
  | some m, some v =>
    if x.confirmSent ∧ x.confirmed = some v ∧ p ∉ s.ctl.portsPast ∧ wiringOk s p m then
      let s := s.setPort p { x with
        txSeq := 0, rxSeq := 0, replay := [], resend := none, discarding := false, retryDue := false,
        credits := m.credits.map BitVec.toNat, passed := List.replicate 6 0,
        fingerprint := m.fingerprint, adapter := decide (m.role = 0x10#8), holdRaised := false, retraining := false }
      let s := s.setTimePort p { s.timePort p with advert := none, mine := false }
      let s := ((s.setEnt 0x3300 (p + 1) 4).setEnt 0x3301 (p + 1) m.device.toNat).setEnt 0x3302 (p + 1) m.port.toNat
      let s := if s.ctl.dev = .start then s.setEnt 0x2400 3 9 else s
      if m.role = 3 ∧ courseOf m.device.toNat = courseOf s.device then roleConflict s (positionOf m.device.toNat) else s
    else s
  | _, _ => s

/-- A port that trains: in training, or held and training again since its last HELD_PORT_RETRAIN (R391). -/
def trains (s : State) (p : Nat) : Bool := decide (s.portSt p = 3) || (decide (s.portSt p = 5) && (s.port p).retraining)

/-- TRAIN_ADVERTISE (R390): a TRAIN flit with phase ADVERTISE, or CONFIRM once the peer's ADVERTISE has been accepted, waits for
its slot. -/
def execTrainAdvertise (p : Port) (s : State) : Out :=
  if portsAlive s ∧ trains s p.val then
    let x := s.port p.val
    let (b, s) := trainPayload s p.val (if x.chosen.isSome then 2 else 1) (match x.chosen with | some v => v.toNat | none => 0)
    let b := b.set 7 (BitVec.ofNat 8 p.val)
    .next (s.modPort p.val fun x => { x with control := x.control ++ [bareFlit kTrain b] })
  else .next s

/-- TRAIN_RECEIVE (R390 to R392): an ADVERTISE and a CONFIRM both pass the checks. A flit or payload with a reserved encoding is
discarded. -/
def execTrainReceive (p : Port) (f : Flit) (s : State) : Out :=
  let m := trainOf f.payload
  let okRole := decide (m.role.toNat ∈ [1, 2, 3, 0x10])
  if f.kind.toNat ≠ kTrain ∨ badHeader f ∨ portsAlive s = false then .next s
  else
  let s := s.modPort p.val fun x => { x with failures := 0 }
  if trains s p.val = false ∨ m.version ≠ 1 ∨ okRole = false then .next s
  else if m.phase = 1 then
    let s := s.modPort p.val fun x => { x with advert := some m }
    match holdCode s p.val m with
    | some c => .next (holdPort s p.val c)
    | none => .next (s.modPort p.val fun x => { x with chosen := some 1 })
  else if m.phase = 2 ∧ (s.port p.val).chosen.isSome then
    match holdCode s p.val m with
    | some c => .next (holdPort s p.val c)
    | none => .next (tryService (s.modPort p.val fun x => { x with confirmed := some m.chosen }) p.val)
  else .next s

/-- HELD_PORT_RETRAIN (R391): a held port trains again; the hold stands until it enters service. -/
def execHeldPortRetrain (p : Port) (s : State) : Out :=
  if s.portSt p.val = 5 then
    .next (s.modPort p.val fun x => { forgetTraining x with retraining := true })
  else .next s

/-! ### Replay -/

/-- CORRUPT_FLIT (R381, R382, R384): a window that covers a codeword marked uncorrectable, fails its CRC or carries a reserved
kind or encoding is discarded, and a replay begins. After eight windows in a row that fail the test of R381 flit lock is lost. Any
other window is a flit, which its own command receives. -/
def execCorruptFlit (w : FlitWindow) (s : State) : Out :=
  if s.inService w.port.val = false ∧ trains s w.port.val = false then .next s
  else if !w.uncorrectable && goodWindow w.bytes && !badHeader (flitOf w.bytes) then .next s
  else
    let n := if goodWindow w.bytes then 0 else (s.port w.port.val).failures + 1
    if 8 ≤ n then .next (loseLock s w.port.val 2)
    else if s.inService w.port.val then .next (s.modPort w.port.val fun x => { askReplay x with failures := n })
    else .next (s.modPort w.port.val fun x => { x with failures := n })

/-- RETRY_REPEAT (R384): another RETRY while the expected flit is missing. -/
def execRetryRepeat (p : Port) (s : State) : Out :=
  if s.inService p.val ∧ (s.port p.val).discarding then .next (s.modPort p.val fun x => { x with retryDue := true }) else .next s

/-- LINK_DEGRADED (R411): replays of the last second above the threshold, at most once a minute. -/
def noteReplay (s : State) (p : Nat) : State :=
  let s := s.addEnt 0x3303 (p + 1) 1
  let x := s.port p
  let ts := s.now :: x.replayTimes.filter fun t => decide (s.now.toNat < t.toNat + 1000000000)
  let limit := s.ent 0x3310 2
  if limit ≠ 0 ∧ limit < ts.length ∧ eventDue x.degradedAt s.now then
    (s.setPort p { x with replayTimes := ts, degradedAt := some s.now }).raise 0x3106 []
  else s.setPort p { x with replayTimes := ts }

/-- RETRY_RECEIVE (R385): the buffered flits from the named number onwards are resent; a flit resent 8 times takes the port
out of service. -/
def execRetryReceive (t : FTime) (p : Port) (f : Flit) (s : State) : Out :=
  atTime s t fun s => accepted s p.val f kRetry fun s =>
    match (s.port p.val).replay.findIdx? fun e => decide (e.1.seq = f.seq) with
    | none => .next s
    | some i =>
      let s := noteReplay s p.val
      if 8 ≤ (((s.port p.val).replay.getD i (f, 0)).2) then .next (leaveService s p.val 3)
      else .next (s.modPort p.val fun x => { x with resend := some i })

/-- IDLE_RECEIVE (R383, R387): its Ack and credit fields are taken. -/
def execIdleReceive (p : Port) (f : Flit) (s : State) : Out := accepted s p.val f 0 fun s => .next s

/-! ### Maps (R395) -/

/-- The payload of a MAP flit. -/
def mapPayload (s : State) : List Byte :=
  padTo 240 (le 1 1 ++ le 1 (s.ent 0x3200 3) ++ le 2 0 ++ (List.range 17).flatMap fun k =>
    le 1 (31 + k) ++ le 1 (s.portSt (31 + k)) ++ le 2 (s.ent 0x3301 (32 + k)))

/-- MAP_SEND. -/
def execMapSend (s : State) : Out :=
  .next ((List.range 31).foldl (fun s p =>
    if s.inService p then s.modPort p fun x => { x with control := x.control ++ [bareFlit kMap (mapPayload s)] } else s) s)

/-- MAP_RECEIVE: the latest map of each module of the course is kept; a second written BRIDGE applies R26. -/
def execMapReceive (p : Port) (f : Flit) (s : State) : Out :=
  accepted s p.val f kMap fun s =>
    if (s.port p.val).adapter ∨ 30 < p.val then .next s
    else
      let a := meshPeer s p.val
      let s := { s with links := { s.links with maps := sset [] s.links.maps a (padTo 72 f.payload) } }
      .next (if field f.payload 1 1 = 3 then roleConflict s a else s)

/-! ### The flit slot (R386) -/

/-- The first open VC that takes the slot (Table 13-5, rank 5): ready VCs in order 5 to 0, one passed over for 256 slots first. -/
def pickVc (x : PortS) : Option Nat :=
  let ready := [5, 4, 3, 2, 1, 0].filter fun v => decide (x.vcs.getD v [] ≠ []) && decide (x.credits.getD v 0 ≠ 0)
  match ready.find? fun v => decide (256 ≤ x.passed.getD v 0) with
  | some v => some v
  | none => ready.head?

/-- A VC takes the slot: its first flit leaves with a credit; the other ready VCs are passed over. -/
def takeVc (x : PortS) (v : Nat) : PortS :=
  { x with
    vcs := x.vcs.set v ((x.vcs.getD v []).drop 1)
    credits := x.credits.set v (x.credits.getD v 0 - 1)
    passed := (List.range 6).map fun w =>
      if w = v then 0 else if x.vcs.getD w [] ≠ [] ∧ x.credits.getD w 0 ≠ 0 then x.passed.getD w 0 + 1 else 0 }

/-- The flit of a slot before its link fields are set, the state once it is taken, and whether it is a replayed one. -/
def slotFlit (s : State) (p t : Nat) : Flit × State × Bool :=
  let x := s.port p
  let room := decide (x.replay.length < 1024)
  match x.urgent.find? fun f => room || !sequenced f.kind.toNat with
  | some f => (f, s.setPort p { x with urgent := x.urgent.erase f }, false)
  | none =>
    if x.retryDue then ({ bareFlit kRetry [] with seq := BitVec.ofNat 11 x.rxSeq }, s.setPort p { x with retryDue := false }, true)
    else match x.resend with
      | some i =>
        let (f, n) := x.replay.getD i (bareFlit 0 [], 0)
        (f, s.setPort p { x with replay := x.replay.set i (f, n + 1), resend := if i + 1 < x.replay.length then some (i + 1) else none }, true)
      | none =>
        match (if room then schedFlit s p t else none) with
        | some (f, s) => (f, s, false)
        | none =>
          match x.control with
          | f :: r =>
            if room || !sequenced f.kind.toNat then (f, s.setPort p { x with control := r }, false) else (bareFlit 0 [], s, false)
          | [] =>
            match (if room then pickVc x else none) with
            | some v =>
              let e := (x.vcs.getD v []).headD (bareFlit 0 [], none)
              let s := s.setPort p (takeVc x v)
              (e.1, (match e.2 with | some q => freePlace s q.1 q.2 | none => s), false)
            | none => (bareFlit 0 [], s, false)

/-- Where a replay buffer holds a sequence number, in words of its link die's SRAM (log entry 151). -/
def replayWord (p seq : Nat) : Nat := 2 ^ 21 + p * 2 ^ 15 + seq % 1024 * 32

/-- Give a flit its link fields: sequence number, Ack, and credits of one VC with credits owed; which VC is not stated, a
free value (log entry 3). -/
def stampFlit (s : State) (p : Nat) (f : Flit) (again : Bool) : Flit × State :=
  let (k, s) := drawNat s 6
  let x := s.port p
  let vc := ((List.range 6).map fun i => (i + k) % 6).find? fun v => decide (x.owed.getD v 0 ≠ 0)
  let n := match vc with
    | some v => if x.owed.getD v 0 < 15 then x.owed.getD v 0 else 15
    | none => 0
  let v := vc.getD 0
  let new := sequenced f.kind.toNat && !again
  let f := { f with
    seq := if new then BitVec.ofNat 11 x.txSeq else f.seq, ack := BitVec.ofNat 11 x.rxSeq,
    creditVc := BitVec.ofNat 3 v, credits := BitVec.ofNat 4 n }
  let s := if new then touchSram s 7 (linkDie p) (8 * replayWord p x.txSeq) 256 else s
  (f, s.setPort p { x with
    txSeq := if new then (x.txSeq + 1) % 2048 else x.txSeq
    replay := if new then x.replay ++ [(f, 0)] else x.replay
    owed := x.owed.set v (x.owed.getD v 0 - n)
    sentFlit := some f })

/-- Read-check of the flit that a replay would send in this slot (Table 18-3). -/
def replayCheck (s : State) (p : Nat) : State × Bool :=
  let x := s.port p
  if (x.urgent.find? fun f => decide (x.replay.length < 1024) || !sequenced f.kind.toNat).isSome ∨ x.retryDue then (s, false)
  else match x.resend.bind fun i => x.replay[i]? with
    | some e => sramReadCheck s 7 (linkDie p) (8 * replayWord p e.1.seq.toNat) 256
    | none => (s, false)

/-- A time flit leaves: the hardware inserts its transmit time, and t1 is kept against its sequence number (R42). -/
def departs (s : State) (p : Nat) (f : Flit) : State × Flit :=
  if f.kind.toNat ≠ kTime then (s, f)
  else
    let m := { timeOf f.payload with txTime := s.now }
    let x := s.timePort p
    (s.setTimePort p { x with sentAt := (m.seq, stamp s.now.toNat m.txFrac.toNat) :: x.sentAt.filter fun e => decide (e.1 ≠ m.seq) },
     { f with payload := timePayload m })

/-- A CONFIRM has left (R390). -/
def confirms (f : Flit) : Bool := decide (f.kind.toNat = kTrain) && decide (field f.payload 1 1 = 2)

/-- FLIT_SLOT (R386): the first ready flit of Table 13-5 leaves. A port in training sends TRAIN and IDLE flits only; once its
CONFIRM has left it may enter service. -/
def execFlitSlot (t : FTime) (p : Port) (s : State) : Out :=
  atTime s t fun s =>
    if s.inService p.val then
      let r := replayCheck s p.val
      if r.2 then .next (leaveService r.1 p.val 3) else
      let (f, s, again) := slotFlit r.1 p.val s.now.toNat
      let d := departs s p.val f
      .next (stampFlit d.1 p.val d.2 again).2
    else if portsAlive s ∧ trains s p.val then
      match (s.port p.val).control with
      | f :: r =>
        .next (tryService (s.modPort p.val fun x => { x with control := r, sentFlit := some f, confirmSent := x.confirmSent || (confirms f && x.chosen.isSome) }) p.val)
      | [] => .next (s.modPort p.val fun x => { x with sentFlit := some (bareFlit 0 []) })
    else .next s

end Sys2Proof.Machine
end

