-- ==== Sys2Proof/Machine/Operands.lean ====
section
/-!
DEFINITION. Operand forms of the tile sequencer's instructions (R115, R120, Table 4-2): the instruction word that a command spells, the
operands that no instruction can carry, and the address sum. The other commands of the block take their operands as the rule of their
row gives them (`Syntax.lean`); descriptors are read by the chapters that define them.
-/
namespace Sys2Proof.Machine

/-! ### Instruction words (R115, Table 4-2) -/

/-- An instruction word: opcode, flags and operands. -/
def iw (op flags operands : Nat) : W64 := BitVec.ofNat 64 (op * 2 ^ 56 + flags * 2 ^ 48 + operands)
/-- The operand bits of fields d, a, b and imm. -/
def fd (r : Reg) : Nat := r.val * 2 ^ 44
def fa (r : Reg) : Nat := r.val * 2 ^ 40
def fb (r : Reg) : Nat := r.val * 2 ^ 36
def fi (imm : W32) : Nat := imm.toNat
/-- POST and sem fields of APASS, MPASS, RFUNC and MOVE. -/
def fpost (p : PostField) : Nat :=
  match p with
  | none => 0
  | some k => 2 ^ 19 + k.val * 2 ^ 12

def condCode : Cond → Nat
  | .eq => 0 | .ne => 1 | .lt => 2 | .ge => 3 | .ltu => 4 | .geu => 5
def aluCode : AluOp → Nat
  | .add => 0 | .sub => 1 | .mul => 2 | .and => 3 | .or => 4 | .xor => 5 | .shl => 6 | .shr => 7 | .sar => 8
  | .minu => 9 | .maxu => 10 | .mins => 11 | .maxs => 12
def sizeCode : MemSize → Nat
  | .b4 => 0 | .b8 => 1
def sizeBytes : MemSize → Nat
  | .b4 => 4 | .b8 => 8

/-! ### RFUNC words and the fields that R120 refuses -/

/-- The instruction word of an RFUNC. -/
def rfuncWord (op : Nat) (f : RFuncF) : W64 :=
  iw 0x32 ((if f.srcAcc then 1 else 0) + (if f.dstAcc then 2 else 0) + (if f.accTiled then 4 else 0) + if f.fromPass then 8 else 0)
    (op * 2 ^ 42 + f.src.val * 2 ^ 38 + f.dst.val * 2 ^ 34 + f.len.val * 2 ^ 30 + f.rows.val * 2 ^ 26 + f.p.val * 2 ^ 22 +
      f.pad.val * 2 ^ 20 + fpost f.post + f.param.toNat * 16 + f.outFmt.toNat)

/-- Function codes of Table 3-9. -/
def actCodeOk (c : Nat) : Bool := (decide (1 ≤ c) && decide (c ≤ 0x0A)) || (decide (0x10 ≤ c) && decide (c ≤ 0x13))

/-- The fields of an RFUNC other than CAST carry no reserved encoding (R119, R120). -/
def rfOk (op : Nat) (f : RFuncF) : Bool :=
  decide (f.outFmt.toNat ≤ 2) && (!decide (op = 0x0B ∨ op = 0x0C) || actCodeOk f.param.toNat)

/-- Arming refuses a CAST with another input code, rounding mode or flag combination (R226). -/
def castFieldsOk (f : RFuncF) : Bool :=
  let inp := f.param.toNat % 16
  decide (1 ≤ inp ∧ inp ≤ 6) && decide (f.param.toNat / 16 ≤ 4) && decide (f.outFmt = 0) && !f.dstAcc &&
    (!(f.srcAcc || f.accTiled || f.fromPass) || decide (inp = 3))

/-! ### Register-derived addresses -/

/-- The address a + imm of LD, ST and SHAPE, formed without wrapping (R115). -/
def sumAddr (x : CoreS) (a : Reg) (imm : W32) : Option Nat :=
  let v : Int := ((x.reg a).toNat : Int) + imm.toInt
  if 0 ≤ v ∧ v < 2 ^ 64 then some v.toNat else none

end Sys2Proof.Machine
end

