-- ==== Sys2Proof/Machine/Sequencer.lean ====
section
/-!
DEFINITION. The tile sequencer (chapter 4): issue, scalar and control instructions, loops, work counters, waits and posts
(R154 to R159). A command carries the fields of the instruction; it takes effect when the instruction store holds exactly
that instruction at the core's program counter. A held or stalled instruction leaves the state as it is.
-/
namespace Sys2Proof.Machine

/-! ### Reads of a core's memories (R530, R534) -/

/-- Read-check of ranges (kind, first byte, bytes) of a core's memories. -/
def checkSram (s : State) (c : Nat) (rs : List (Nat × Nat × Nat)) : State × Bool :=
  rs.foldl (fun (sb : State × Bool) r =>
    let (s, b) := sramReadCheck sb.1 r.1 c r.2.1 r.2.2
    (s, sb.2 || b)) (s, false)

/-- Read-check of words that a held instruction has read already: one that waits for its rewrite has been corrected and counted. -/
def readOnce (s : State) (kind c first n : Nat) : State × Bool :=
  checkSram s c (((List.range (ceilDiv n 8)).filter fun k => !decide (sramKey kind c (first / 8 + k) ∈ s.mem.rewrites)).map fun k =>
    (kind, 8 * (first / 8 + k), 8))

/-- A core whose unit reads an uncorrectable word halts at the instruction, and a run aborts (Table 18-3). -/
def eccHalt (s : State) (c : Nat) : State :=
  abortRun (saveFaulted (stopFaulted s c)) 0x4102

/-- Go on after such a read, or halt the core. -/
def afterCheck (c : Nat) (r : State × Bool) (f : State → Out) : Out := if r.2 then .next (eccHalt r.1 c) else f r.1

/-! ### Issue -/

/-- A core halts at an instruction with an invalid operand (R121). -/
def instrInvalid (s : State) (c : Nat) : State := coreFault s c 0x5103 []

/-- Issue of the instruction word `w` by core c: the core is issuing, its program counter holds this instruction, and no
pause has stopped it. A program counter at the instruction count halts the core (R121), and so does an instruction word that does not
decode (Table 18-3). -/
def issue (s : State) (c : Nat) (w : W64) (f : State → CoreS → Out) : Out :=
  let x := s.core c
  if !s.running ∨ s.run.drainSince.isSome ∨ x.status ≠ 2 ∨ x.wait ≠ .none then .next s
  else if x.program.length ≤ x.pc then .next (instrInvalid s c)
  else if x.program.getD x.pc 0 ≠ w then .next s
  else afterCheck c (readOnce s 6 c (8 * x.pc) 8) fun s => f s x

/-- The core goes on to the next instruction. -/
def CoreS.advance (x : CoreS) : CoreS := { x with pc := x.pc + 1 }
/-- Write of a scalar register: writes to `s0` are discarded (Table 4-1). -/
def CoreS.wreg (x : CoreS) (d : Reg) (v : W64) : CoreS := if d = 0 then x else x.setReg d v
/-- The core is in skip mode (R123, R127). -/
def CoreS.inSkip (x : CoreS) : Bool := x.loops.any fun l => l.skipping

/-- An instruction that only sets a register. -/
def setAndGo (s : State) (c : Nat) (x : CoreS) (d : Reg) (v : W64) : Out := .next (s.setCore c (x.wreg d v).advance)

/-- The core waits: status 3 from now. -/
def startWait (s : State) (c : Nat) (x : CoreS) (w : WaitFor) : Out :=
  .next (s.setCore c { x with status := 3, wait := w, waitSince := s.now, waitRaised := false })

/-- A wait ends: the core issues again from the next instruction. -/
def endWait (s : State) (c : Nat) (f : CoreS → CoreS) : State :=
  (noteBallast s c).modCore c fun x => (f { x with status := 2, wait := .none }).advance

/-! ### Holds (R95) -/

/-- The issue queue of a unit is full (R113): 4 instructions wait behind the one that the unit works on. -/
def unitFull (x : CoreS) (unit : Nat) : Bool := decide (5 ≤ (x.passes.filter fun p => decide (p.unit = unit)).length)

/-- Ranges (space, first unit, count) overlap. -/
def rangesMeet (a b : List (Nat × Nat × Nat)) : Bool :=
  a.any fun p => b.any fun q =>
    decide (p.1 = q.1) && decide (p.2.1 < q.2.1 + q.2.2) && decide (q.2.1 < p.2.1 + p.2.2)

/-- CLM bytes as 256-byte units (R95). -/
def clmUnits (a n : Nat) : List (Nat × Nat × Nat) := if n = 0 then [] else [(0, a / 256, (a + n - 1) / 256 - a / 256 + 1)]

/-- An earlier instruction still has a write outstanding to a location read or written, or has yet to read one written.
Destinations are not compared with those of the instruction's own unit, array or MVU. -/
def held (x : CoreS) (unit : Nat) (reads dests : List (Nat × Nat × Nat)) : Bool :=
  x.passes.any fun p =>
    rangesMeet p.dests reads || (!(decide (p.unit = unit) && decide (unit < 2)) && (rangesMeet p.dests dests || rangesMeet p.reads dests))

/-! ### Scalar instructions -/

/-- NOP. -/
def execNop (c : Core) (s : State) : Out :=
  issue s c.val (iw 0x01 0 0) fun s x => .next (s.setCore c.val x.advance)

/-- Every earlier instruction of the core has retired and every post has taken effect. -/
def CoreS.settled (x : CoreS) : Bool := decide (x.passes = []) && x.moves.all (fun m => m.retired) && decide (x.posts = [])

/-- HALT: the program ends once every queued instruction has retired. -/
def execHalt (c : Core) (s : State) : Out :=
  issue s c.val (iw 0x02 0 0) fun s x => .next (s.setCore c.val { x with wait := .halt, waitSince := s.now })

/-- PROGRAM_END: the instructions before a HALT have retired; the core reports ended by HALT. -/
def execProgramEnd (c : Core) (s : State) : Out :=
  let x := s.core c.val
  if s.running ∧ x.wait = .halt ∧ x.settled then
    .next (s.setCore c.val { x with status := 4, wait := .none })
  else .next s

/-- The core's program counter moves by a signed offset (R116); before the first instruction there is none. -/
def branch (s : State) (c : Nat) (x : CoreS) (imm : W32) : Out :=
  let t := (x.pc : Int) + imm.toInt
  if t < 0 then .next (instrInvalid s c) else .next (s.setCore c { x with pc := t.toNat })

/-- BR: pc = pc + imm. -/
def execBr (c : Core) (imm : W32) (s : State) : Out :=
  issue s c.val (iw 0x03 0 (fi imm)) fun s x => branch s c.val x imm

/-- A condition of BRC. -/
def condHolds (k : Cond) (a b : W64) : Bool :=
  match k with
  | .eq => decide (a = b) | .ne => decide (a ≠ b)
  | .lt => decide (a.toInt < b.toInt) | .ge => decide (b.toInt ≤ a.toInt)
  | .ltu => decide (a.toNat < b.toNat) | .geu => decide (b.toNat ≤ a.toNat)

/-- BRC: pc = pc + imm if a cond b. -/
def execBrc (c : Core) (k : Cond) (a b : Reg) (imm : W32) (s : State) : Out :=
  issue s c.val (iw 0x04 (condCode k) (fa a + fb b + fi imm)) fun s x =>
    if condHolds k (x.reg a) (x.reg b) then branch s c.val x imm else .next (s.setCore c.val x.advance)

/-- Record the first SHAPE_OVER of the run and halt the core (R126). DESIGN CHOICE (log entry 152): of a live count of 2^32 or more `0x5100:03`
shows the low 32 bits. -/
def shapeOver (s : State) (c slot value maximum : Nat) : State :=
  let s := if s.ent 0x5100 1 = 0xFFFF then
      (((s.setEnt 0x5100 1 c).setEnt 0x5100 2 slot).setEnt 0x5100 3 (value % 2 ^ 32)).setEnt 0x5100 4 maximum
    else s
  coreFault s c 0x5101 []

/-- Opcode of an instruction word. -/
def opcodeOf (w : W64) : Nat := w.toNat / 2 ^ 56
/-- The instruction after the ENDL that matches a LOOP: `depth` levels are open at position i. -/
def afterEndl (p : List W64) : Nat → Nat → Nat → Nat
  | 0, i, _ => i
  | fuel + 1, i, depth =>
    let op := opcodeOf (p.getD i 0)
    if op = 5 then afterEndl p fuel (i + 1) (depth + 1)
    else if op = 6 then (if depth = 1 then i + 1 else afterEndl p fuel (i + 1) (depth - 1))
    else afterEndl p fuel (i + 1) depth

/-- LOOP (R122, R123). DESIGN CHOICE (log entry 152): a loop with P = 0 leaves its counter as it was. -/
def execLoop (c : Core) (counter : Option (Fin 4)) (live : Option Reg) (planned : W32) (s : State) : Out :=
  let flags := (match counter with | some k => k.val + 4 | none => 0) + (if live.isSome then 8 else 0)
  issue s c.val (iw 0x05 flags ((match live with | some a => fa a | none => 0) + fi planned)) fun s x =>
    let n := if x.inSkip then planned.toNat else match live with | some a => (x.reg a).toNat | none => planned.toNat
    if planned.toNat < n then .next (shapeOver s c.val 0xFF n planned.toNat)
    else if planned = 0 then .next (s.setCore c.val { x with pc := afterEndl x.program x.program.length (x.pc + 1) 1 })
    else
      let l : LoopL := { body := x.pc + 1, planned := planned, live := BitVec.ofNat 32 n, index := 0, counter := counter,
                         skipping := x.inSkip || decide (n = 0) }
      let counters := match counter with | some k => x.counters.set k.val 0 | none => x.counters
      .next (s.setCore c.val ({ x with loops := l :: x.loops, counters := counters }.advance))

/-- ENDL (R123): the innermost level is the head of the stack. -/
def execEndl (c : Core) (s : State) : Out :=
  issue s c.val (iw 0x06 0 0) fun s x =>
    match x.loops with
    | [] => .next (instrInvalid s c.val)
    | l :: r =>
      let i := l.index + 1
      let setC (v : W32) := match l.counter with | some k => x.counters.set k.val v | none => x.counters
      if i.toNat < l.planned.toNat then
        let outer := r.any fun l => l.skipping
        .next (s.setCore c.val { x with
          loops := { l with index := i, skipping := outer || decide (l.live.toNat ≤ i.toNat) } :: r
          counters := setC i, pc := l.body })
      else .next (s.setCore c.val ({ x with loops := r, counters := setC l.planned }.advance))

/-- RDL. -/
def execRdl (c : Core) (k : Fin 4) (d : Reg) (s : State) : Out :=
  issue s c.val (iw 0x07 k.val (fd d)) fun s x =>
    setAndGo s c.val x d (BitVec.ofNat 64 (x.counters.getD k.val 0).toNat)

/-- MOVI: sign-extended immediate. -/
def execMovi (c : Core) (d : Reg) (imm : W32) (s : State) : Out :=
  issue s c.val (iw 0x10 0 (fd d + fi imm)) fun s x => setAndGo s c.val x d (imm.signExtend 64)

/-- MOVHI: bits [63:32] of d. -/
def execMovhi (c : Core) (d : Reg) (imm : W32) (s : State) : Out :=
  issue s c.val (iw 0x11 0 (fd d + fi imm)) fun s x => setAndGo s c.val x d (imm ++ (x.reg d).setWidth 32)

/-- The integer operations of ALU. -/
def aluApply (op : AluOp) (a b : W64) : W64 :=
  match op with
  | .add => a + b | .sub => a - b | .mul => a * b
  | .and => a &&& b | .or => a ||| b | .xor => a ^^^ b
  | .shl => a <<< (b.toNat % 64) | .shr => a >>> (b.toNat % 64) | .sar => a.sshiftRight (b.toNat % 64)
  | .minu => if a.toNat ≤ b.toNat then a else b
  | .maxu => if a.toNat ≤ b.toNat then b else a
  | .mins => if a.toInt ≤ b.toInt then a else b
  | .maxs => if a.toInt ≤ b.toInt then b else a

/-- ALU. -/
def execAlu (c : Core) (op : AluOp) (d a : Reg) (b : AluB) (s : State) : Out :=
  let (flag, field) := match b with | .reg b => (0, fb b) | .imm v => (16, fi v)
  issue s c.val (iw 0x12 (aluCode op + flag) (fd d + fa a + field)) fun s x =>
    setAndGo s c.val x d (aluApply op (x.reg a) (match b with | .reg b => x.reg b | .imm v => v.signExtend 64))

/-- CDIV: ⌈a / imm⌉, unsigned, imm 1 to 2^31. -/
def execCdiv (c : Core) (d a : Reg) (imm : W32) (s : State) : Out :=
  if imm = 0 ∨ 2 ^ 31 < imm.toNat then .refused .illFormed else
  issue s c.val (iw 0x13 0 (fd d + fa a + fi imm)) fun s x =>
    setAndGo s c.val x d (BitVec.ofNat 64 (ceilDiv (x.reg a).toNat imm.toNat))

/-- LD: 4 bytes zero-extended, or 8. -/
def execLd (c : Core) (size : MemSize) (d a : Reg) (imm : W32) (s : State) : Out :=
  issue s c.val (iw 0x14 (sizeCode size) (fd d + fa a + fi imm)) fun s x =>
    match sumAddr x a imm with
    | none => .next (instrInvalid s c.val)
    | some v =>
      if v % (sizeBytes size) ≠ 0 ∨ clmSize < v + (sizeBytes size) then .next (instrInvalid s c.val)
      else if held x 9 (clmUnits v (sizeBytes size)) [] then .next s
      else afterCheck c.val (sramReadCheck s 2 c.val v (sizeBytes size)) fun s =>
        setAndGo s c.val (s.core c.val) d (BitVec.ofNat 64 (ofLe (x.clmBytes v (sizeBytes size))))

/-- ST: the low 4 bytes of b, or 8. -/
def execSt (c : Core) (size : MemSize) (a b : Reg) (imm : W32) (s : State) : Out :=
  issue s c.val (iw 0x15 (sizeCode size) (fa a + fb b + fi imm)) fun s x =>
    match sumAddr x a imm with
    | none => .next (instrInvalid s c.val)
    | some v =>
      if v % (sizeBytes size) ≠ 0 ∨ clmSize < v + (sizeBytes size) then .next (instrInvalid s c.val)
      else if held x 9 [] (clmUnits v (sizeBytes size)) then .next s
      else .next ((s.writeClm c.val v (le (sizeBytes size) (x.reg b).toNat)).modCore c.val CoreS.advance)

/-- SETPAD. -/
def execSetpad (c : Core) (pad : Fin 4) (imm : W32) (s : State) : Out :=
  issue s c.val (iw 0x21 pad.val (fi imm)) fun s x =>
    .next (s.setCore c.val ({ x with pads := x.pads.set pad.val imm }.advance))

/-! ### Work counters (R132 to R135) -/

def State.wc (s : State) (k : Nat) : WorkC := sget WorkC.reset s.work k
def State.setWc (s : State) (k : Nat) (w : WorkC) : State := { s with work := sset WorkC.reset s.work k w }

/-- WCBIND: a request for the handle goes to the home die. -/
def execWcbind (c : Core) (d : Reg) (counter : Byte) (s : State) : Out :=
  issue s c.val (iw 0x22 0 (fd d + counter.toNat * 2 ^ 32)) fun s x => startWait s c.val x (.wcbind d counter.toNat)

/-- WCBIND_SERVE: the handle with the epoch current at the home die. -/
def execWcbindServe (c : Core) (s : State) : Out :=
  match (s.core c.val).wait with
  | .wcbind d k =>
    if s.running then .next (endWait s c.val fun x => x.wreg d (BitVec.ofNat 64 (k + (s.wc k).epoch * 65536))) else .next s
  | _ => .next s

/-- WCINIT: a limit above 0xFFFF_FFFD is an invalid operand. -/
def execWcinit (c : Core) (a : Reg) (counter : Byte) (s : State) : Out :=
  issue s c.val (iw 0x23 0 (fa a + counter.toNat * 2 ^ 32)) fun s x =>
    if 0xFFFFFFFD < (x.reg a).toNat then .next (instrInvalid s c.val)
    else startWait s c.val x (.wcinit counter.toNat (BitVec.ofNat 32 (x.reg a).toNat))

/-- WCINIT_APPLY (R133). -/
def execWcinitApply (c : Core) (s : State) : Out :=
  match (s.core c.val).wait with
  | .wcinit k limit =>
    if s.running then
      .next (endWait (s.setWc k { value := 0, limit := limit.toNat, epoch := ((s.wc k).epoch + 1) % 65536 }) c.val id)
    else .next s
  | _ => .next s

def exhausted : W64 := 0xFFFFFFFF#64
def staleHandle : W64 := 0xFFFFFFFE#64

/-- TAKE: a fetch-and-add goes to the home die; in skip mode it returns EXHAUSTED. A handle with a reserved bit is bad. -/
def execTake (c : Core) (d a : Reg) (imm : W32) (s : State) : Out :=
  if imm = 0 ∨ 65536 < imm.toNat then .refused .illFormed else
  issue s c.val (iw 0x24 0 (fd d + fa a + fi imm)) fun s x =>
    if x.inSkip then setAndGo s c.val x d exhausted
    else
      let h := (x.reg a).toNat
      if bits h 15 8 ≠ 0 ∨ bits h 63 32 ≠ 0 then .next (instrInvalid s c.val)
      else startWait s c.val x (.take d (h % 256) imm.toNat (BitVec.ofNat 16 (bits h 31 16)))

/-- TAKE_SERVE (R134, R135). -/
def execTakeServe (c : Core) (s : State) : Out :=
  match (s.core c.val).wait with
  | .take d k n epoch =>
    if !s.running then .next s else
    let w := s.wc k
    if w.epoch ≠ epoch.toNat then
      let s := s.addEnt 0x5130 1 1
      let seen := decide ((k, epoch.toNat) ∈ (s.core c.val).stale)
      let s := if seen then s
        else (s.modCore c.val fun x => { x with stale := (k, epoch.toNat) :: x.stale }).raise 0x5102 []
      .next (endWait s c.val fun x => x.wreg d staleHandle)
    else if w.limit ≤ w.value then
      .next (endWait (s.addEnt 0x5130 2 1) c.val fun x => x.wreg d exhausted)
    else
      let v := if w.value + n < w.limit then w.value + n else w.limit
      .next (endWait (s.setWc k { w with value := v }) c.val fun x => x.wreg d (BitVec.ofNat 64 w.value))
  | _ => .next s

/-! ### Waiting (R157 to R159) -/

/-- WAIT: a target above 0xFFFF_FFFF is an invalid operand. -/
def execWait (c : Core) (sem : Sem) (a : Reg) (imm : W32) (s : State) : Out :=
  issue s c.val (iw 0x50 0 (sem.val * 2 ^ 42 + a.val * 2 ^ 38 + fi imm)) fun s x =>
    let t := (x.reg a).toNat + imm.toNat
    if 2 ^ 32 ≤ t then .next (instrInvalid s c.val) else startWait s c.val x (.sem sem (BitVec.ofNat 64 t))

/-- WAIT_RELEASE: the semaphore holds a value at or above the target. -/
def execWaitRelease (c : Core) (s : State) : Out :=
  match (s.core c.val).wait with
  | .sem k t => if s.running ∧ t.toNat ≤ s.sem c.val k.val then .next (endWait s c.val id) else .next s
  | _ => .next s

/-- WAITFT: the target is a + imm, imm zero-extended; one above 2^64 − 1 is no fabric time (log entry 22). -/
def execWaitft (c : Core) (a : Reg) (imm : W32) (s : State) : Out :=
  issue s c.val (iw 0x52 0 (a.val * 2 ^ 38 + fi imm)) fun s x =>
    let t := (x.reg a).toNat + imm.toNat
    if 2 ^ 64 ≤ t then .next (instrInvalid s c.val) else startWait s c.val x (.time (BitVec.ofNat 64 t))

/-- WAITFT_RELEASE (R158). -/
def execWaitftRelease (t : FTime) (c : Core) (s : State) : Out :=
  atTime s t fun s =>
    match (s.core c.val).wait with
    | .time w => if s.running ∧ w ≤ s.now then .next (endWait s c.val id) else .next s
    | _ => .next s

/-- Code of what a core waits for (0x5502), its semaphore's value, and the target (0x5503). -/
def waitView (s : State) (c : Nat) : Nat × Nat × Nat :=
  match (s.core c).wait with
  | .none => (0xFF, 0, 0)
  | .halt => (0xFF, 0, 0)
  | .sem k t => (k.val, s.sem c k.val, t.toNat)
  | .time t => (0x40, 0, t.toNat)
  | _ => (0x41, 0, 0)

/-- WAIT_LONG (R159): once for a wait longer than the threshold in 0x5510:03, in ms; 0 disables it. -/
def execWaitLong (t : FTime) (c : Core) (s : State) : Out :=
  atTime s t fun s =>
    let x := s.core c.val
    let limit := s.ent 0x5510 3
    if s.running = false ∨ x.status ≠ 3 ∨ x.waitRaised ∨ limit = 0 ∨ s.now.toNat ≤ x.waitSince.toNat + limit * 1000000 then .next s
    else
      let (k, v, g) := waitView s c.val
      .next (((s.addEnt 0x5520 2 1).raise 0x5504 [(2, c.val), (1, k), (4, v), (8, g)]).modCore c.val fun x => { x with waitRaised := true })

/-! ### Posts (R117, R154, R155) -/

/-- The lowest tag that no request of the module uses. -/
def freeTag (s : State) : Option Nat := (List.range 4096).find? fun k => (sget none s.links.requests k).isNone

/-- A request of this module found no route (R397). -/
def noRoute (s : State) : State := abortRun (s.raise 0x3302 []) 0x3302

/-- Record a request that waits for its answer (R401). -/
def addRequest (s : State) (tag : Nat) (kind : ReqKind) (dst : Nat) (core : Core) (moveId addr bytes offset : Nat) : State :=
  let r : Request := { kind := kind, dst := BitVec.ofNat 16 dst, core := core, moveId := moveId,
                       deadline := s.now + BitVec.ofNat 64 (s.ent 0x3310 1 * 1000), addr := addr, bytes := bytes, offset := offset,
                       got := [], status := none }
  { s with links := { s.links with requests := sset none s.links.requests tag (some r) } }

/-! ### Sessions and their messages (R407, R440) -/

def State.session (s : State) (slot : Nat) : Option Session := sget none s.fdp.sessions slot
def State.setSession (s : State) (slot : Nat) (x : Option Session) : State :=
  { s with fdp := { s.fdp with sessions := sset none s.fdp.sessions slot x } }

def Session.send (x : Session) (m : List Byte) : Session := { x with sent := x.sent ++ [m] }

/-- The DTLS record of a message, 1 to 2,048 bytes as a HOSTMSG carries (Table 13-10). -/
def sealed (x : Session) (m : List Byte) : List Byte :=
  match (Config.dtlsRecord x.sid x.records m).take 2048 with
  | [] => [0]
  | b => b

/-- The flits of a HOSTMSG to the host, on the response VC (Table 13-10). -/
def hostFlits (s : State) (tag : Nat) (channel : W16) (b : List Byte) : List Flit :=
  let all := le 2 channel.toNat ++ le 2 b.length ++ le 12 0 ++ b
  let n := ceilDiv all.length 240
  (List.range n).map fun k => openFlit s kHostmsg 3 0xFFFF#16 (BitVec.ofNat 12 tag) k (decide (k + 1 = n)) (slice all (240 * k) 240)

/-- The oldest message of a session in band leaves as one record in a HOSTMSG on the session's channel, once a tag is free; without
a route it is lost (R397), and the peer asks again (R443). -/
def leaveInBand (s : State) (slot : Nat) : State :=
  match s.session slot, freeTag s with
  | some x, some tag =>
    (match x.sent with
    | [] => s
    | m :: r =>
      if slot < 4 then s else
      let b := sealed x m
      let t := emit (s.setSession slot (some { x with sent := r, records := x.records + 1 })) 0xFFFF (hostFlits s tag x.channel b)
      if t.2 then addRequest t.1 tag .hostmsg 0xFFFF 0 0 0 b.length 0 else t.1)
  | _, _ => s

/-- A message of a session: the line of the management port takes it from `sent`, in band it leaves as a HOSTMSG. -/
def transmit (s : State) (slot : Nat) (x : Session) (m : List Byte) : State := leaveInBand (s.setSession slot (some (x.send m))) slot

/-- POST: a local post of imm, or a bare remote post of 1 to the target of Table 5-2, once every earlier instruction has
retired. A target on the own module is reached directly. -/
def execPost (c : Core) (remote : Bool) (sem : Sem) (a : Reg) (imm : W32) (s : State) : Out :=
  issue s c.val (iw 0x51 (if remote then 1 else 0) (sem.val * 2 ^ 42 + a.val * 2 ^ 38 + fi imm)) fun s x =>
    if remote then
      let t := (x.reg a).toNat
      let dev := bits t 15 0
      let core := bits t 25 16
      if bits t 63 26 ≠ 0 ∨ 191 < core ∨ 319 < courseOf dev then .next (instrInvalid s c.val)
      else if !x.settled then .next s
      else if dev = s.device then .next (incSem (s.setCore c.val x.advance) core sem.val 1 false)
      else match freeTag s with
        | none => .next s
        | some tag =>
          let s := s.setCore c.val x.advance
          let f := openFlit s kPost 0 (BitVec.ofNat 16 dev) (BitVec.ofNat 12 tag) 0 true (le 2 core ++ le 1 sem.val)
          match emit s dev [f] with
          | (s, true) => .next (addRequest s tag .post dev c 0 0 0 0)
          | (s, false) => .next (noRoute s)
    else if !x.settled then .next s
    else .next (incSem (s.setCore c.val x.advance) c.val sem.val imm.toNat false)

/-- POST_FIELD_APPLY (R117, R128): the instruction has retired and every earlier post of its core to the same semaphore
has taken effect; the semaphore rises by 1. -/
def execPostFieldApply (c : Core) (id : Nat) (s : State) : Out :=
  let x := s.core c.val
  match x.posts.find? fun p => decide (p.1 = id) with
  | none => .next s
  | some p =>
    let earlier := (x.posts.takeWhile fun q => !decide (q.1 = id)).any fun q => decide (q.2 = p.2)
    if earlier ∨ x.passes.any (fun q => decide (q.id = id)) ∨ x.moves.any (fun m => decide (m.id = id) && !m.retired) then .next s
    else .next (incSem (s.setCore c.val { x with posts := x.posts.filter fun q => !decide (q.1 = id) }) c.val p.2.val 1 false)

/-- A POST field joins the core's posts in program order. -/
def CoreS.addPost (x : CoreS) (id : Nat) (p : PostField) : CoreS :=
  match p with
  | some k => { x with posts := x.posts ++ [(id, k)] }
  | none => x

/-- An instruction that does nothing in skip mode retires at once; its POST follows in order (R127, R128). -/
def skipGo (s : State) (c : Nat) (x : CoreS) (p : PostField) : Out :=
  .next (s.setCore c (({ x with nextId := x.nextId + 1 }.addPost x.nextId p).advance))

end Sys2Proof.Machine
end

