-- ==== Sys2Proof/Machine/Dict.lean ====
section
/-!
DEFINITION. Reading an entry of the object dictionary (R433 to R437). Most entries hold their value in `State.dict` or
`State.octs`; those that show another part of the state are computed here. Galena answers every entry in every state that is not
OFF: no entry is named as one that only the main side holds (R517; log entry 27).
-/
namespace Sys2Proof.Machine

/-- Audit entries that are durable. -/
def durable (a : Audit) : Nat := a.made - a.waiting.length

/-- The object that `0x8100:01` selects (Table 16-4). -/
def selectedObject (s : State) : List Byte :=
  match s.ent 0x8100 1 with
  | 1 => Config.rsaCertificate
  | 2 => Config.slhCertificate
  | _ => s.trust.report

/-- A fuse map entry (Table 18-4), zero when unused. -/
def fuseEntry (s : State) (i : Nat) : List Byte := padTo 16 (s.mem.fuses.getD i [])

/-- An encode context as `0x6420` shows it. -/
def ctxView (s : State) (c : Nat) : Nat :=
  match sget none s.video.ctxs c with
  | none => 0
  | some x => 1 + (x.frames % 2 ^ 24) * 2 ^ 8 + (x.bytes % 2 ^ 32) * 2 ^ 32

/-- REPLACE is in force (R343). -/
def replaces (s : State) : Bool :=
  decide (s.ent 0x6010 1 = 2) && decide (s.ctl.dev = .start ∨ s.ctl.dev = .test ∨ s.ctl.dev = .recovery)

/-- A page slot as `0x5220` and `0x5221` show it. -/
def slotView (x : PageSlot) : Nat := x.st + x.e * 2 ^ 8 + x.mapped * 2 ^ 16

def openSessions (s : State) (lo : Nat) : Nat := ((List.range 4).filter fun k => (sget none s.fdp.sessions (lo + k)).isSome).length

/-- The entries whose value is another part of the state. DESIGN CHOICE (log entry 129): the default PLCA node ID of `0x8400:02` follows the written position
`0x3200:02` at once. A temperature is free but at the instant at which a
command reports it (log entry 153). -/
def computedEnt (s : State) (index sub : Nat) : Option Nat :=
  match index with
  | 0x2100 => if sub = 8 then some (s.power.slowNs + (match s.power.slowSince with | some t => s.now.toNat - t.toNat | none => 0)) else none
  | 0x2000 => if sub = 6 then some ((s.power.highNs + (match s.power.highSince with | some t => s.now.toNat - t.toNat | none => 0)) / 1000000) else none
  | 0x2200 => if sub = 4 then some (rampWindow s) else none
  | 0x2300 => if sget none s.power.tempAt sub = some s.now then none else some ((Config.freeWord (s.freeCtr + sub)).toNat % 2 ^ 32)
  | 0x3000 => if sub = 1 then some s.now.toNat else none
  | 0x1020 => if sub = 2 then some Config.manufactured.toNat else none
  | 0x4200 => if sub = 4 then some (Nat.min (longestLap s) (2 ^ 32 - 1)) else none
  | 0x4300 =>
    if sub = 5 then some (((List.range 12).map Config.stackSpares).sum - (s.mem.fuses.filter fun f => decide (field f 0 1 = 1)).length)
    else if sub = 6 then some (Config.sramSpares.toNat - (s.mem.fuses.filter fun f => decide (field f 0 1 ≠ 1)).length) else none
  | 0x5002 =>
    if sub = 1 then some s.ctl.dev.code
    else if sub = 5 then some (if s.ctl.dev = .test then s.ctl.phase.code else 0) else none
  | 0x5140 => some (s.core (sub - 1)).pc
  | 0x5141 => some (s.core (sub - 1)).status
  | 0x5220 => some (slotView (s.pageSlot (sub - 1)))
  | 0x5221 => some (slotView (s.pageSlot (sub + 127)))
  | 0x5500 => if sub = 1 then none else some (s.sem (s.ent 0x5500 1) (sub - 2))
  | 0x5501 => some (if s.isLanding (s.ent 0x5500 1) (sub - 1) then 1 else 0)
  | 0x5502 => some (waitView s (sub - 1)).1
  | 0x5503 => some (waitView s (sub - 1)).2.2
  | 0x6010 => if sub = 2 then some (if replaces s then 2 else 1) else none
  | 0x6420 => some (ctxView s (sub - 1))
  | 0x7F00 =>
    if sub = 1 then some ((s.ev.count - 1) % 2 ^ 32)
    else if sub = 2 then some ((s.ev.count - s.ev.ring.length) % 2 ^ 32) else none
  | 0x8100 => if sub = 3 then some (selectedObject s).length else none
  | 0x8300 =>
    if sub = 1 then some ((durable s.audit - 1) % 2 ^ 32)
    else if sub = 2 then some (durable s.audit)
    else if sub = 3 then some (match s.audit.checkpoints with | c :: _ => c.1 | [] => 0) else none
  | 0x8400 =>
    if sub = 2 then some (if s.ent 0x8400 2 = 0 then s.ent 0x3200 2 % 8 + 1 else s.ent 0x8400 2)
    else if sub = 4 then some (openSessions s 0 + openSessions s 4 * 16) else none
  | i =>
    if 0x5310 ≤ i ∧ i ≤ 0x5313 ∧ sub = 4 then some (sget [] s.regions (i - 0x5310)).length
    else if 0x5120 ≤ i ∧ i ≤ 0x5123 then some (s.wc ((i - 0x5120) * 64 + sub - 1)).value
    else if 0x5124 ≤ i ∧ i ≤ 0x5127 then some (s.wc ((i - 0x5124) * 64 + sub - 1)).limit
    else if 0x5128 ≤ i ∧ i ≤ 0x512B then some (s.wc ((i - 0x5128) * 64 + sub - 1)).epoch
    else none

/-- The value of a numeric entry as a read returns it. -/
def entValue (s : State) (index sub : Nat) : Nat := (computedEnt s index sub).getD (s.ent index sub)

/-- The bytes of an entry as a read returns them. -/
def entryBytes (s : State) (index sub : Nat) : List Byte :=
  match entryOf index sub with
  | none => []
  | some e =>
    if index = 0x8100 ∧ sub = 4 then padTo 1024 ((selectedObject s).drop (s.ent 0x8100 2))
    else if index = 0x4310 ∧ sub = 2 then fuseEntry s (s.ent 0x4310 1)
    else if e.ty.isBytes then s.oct index sub
    else le e.ty.size (entValue s index sub)

/-! ### The dictionary map (R174) -/

/-- The entry that a run of bytes in the dictionary map names, if it covers the whole of a value of at most 16 bytes. -/
def mapEntry (off n : Nat) : Option (Nat × Nat × EntryDef) :=
  match entryOf (off / 4096) (off / 16 % 256) with
  | some e => if off % 16 = 0 ∧ n = e.ty.size ∧ n ≤ 16 then some (off / 4096, off / 16 % 256, e) else none
  | none => none
/-- A readable entry of the map. -/
def mapReadable (off n : Nat) : Bool := match mapEntry off n with | some (_, _, e) => decide (e.acc ≠ .wo) | none => false
/-- An entry that originator class P may write. -/
def mapWritable (off n : Nat) : Bool :=
  match mapEntry off n with | some (_, _, e) => Nat.testBit e.writers 2 && decide (e.acc ≠ .ro ∧ e.acc ≠ .const) | none => false

end Sys2Proof.Machine
end

