-- ==== Sys2Proof/Machine/Array.lean ====
section
/-!
DEFINITION. The array, the matrix-vector unit and the window former (chapters 3 and 10): mode words, operands, the order of
sums, passes and their retirement.
-/
namespace Sys2Proof.Machine

/-! ### Mode words (Table 3-5, R93) -/

def mwFormat (w : W64) : Nat := bits w.toNat 3 0
def mwStreamKind (w : W64) : Nat := bits w.toNat 5 4
def mwStatKind (w : W64) : Nat := bits w.toNat 7 6
def mwK (w : W64) : Nat := bits w.toNat 17 8 + 1
def mwN (w : W64) : Nat := bits w.toNat 24 18 + 1
def mwDest (w : W64) : Nat := bits w.toNat 26 25
def mwBase (w : W64) : Nat := bits w.toNat 38 27
def mwVectors (w : W64) : Nat := bits w.toNat 41 39 + 1
def mwUnit (w : W64) : Nat := bits w.toNat 42 42

/-- Elements per lane per cycle (Table 3-2). -/
def density (fmt : Nat) : Nat := if fmt ≤ 2 then 1 else if fmt = 6 then 4 else 2

/-- The mode word without its destination fields (R87). -/
def mwKept (w : W64) : W64 := w &&& ~~~(0x7FFE000000#64)

/-- A mode word is valid but for its row count and kept pass (R93). The base of a pass to the row unit and the vectors field
of the array are 0 (Table 3-5). -/
def mwFieldsOk (w : W64) (unit : Nat) : Bool :=
  let f := mwFormat w
  decide (1 ≤ f ∧ f ≤ 6) && decide (mwStreamKind w ≤ 1 ∧ mwStatKind w ≤ 1) &&
    (decide (f = 3 ∨ f = 5) || decide (mwStreamKind w = 0 ∧ mwStatKind w = 0)) &&
    decide (mwK w ≤ 128 * density f) && decide (mwUnit w = unit) &&
    (if unit = 0 then decide (mwVectors w = 1) else decide (f ≤ 2) && decide (mwDest w ≠ 3)) &&
    decide (if mwDest w = 2 then mwBase w = 0 else if mwDest w = 3 then True else mwBase w ≤ 511)

/-- The destination rows fit (R93). -/
def mwRowsOk (w : W64) (rows : Nat) : Bool :=
  if mwDest w = 2 then true else if mwDest w = 3 then decide (mwBase w + rows ≤ 4096) else decide (mwBase w + rows ≤ 512)

/-! ### Elements and sums (R79 to R82) -/

/-- Element k of an operand's bytes in a format of Table 3-2. -/
def elemVal (fmt kind : Nat) (b : List Byte) (k : Nat) : FNum :=
  match fmt with
  | 1 => decF .bf16 (field b (2 * k) 2)
  | 2 => decF .fp16 (field b (2 * k) 2)
  | 4 => let v := fieldI b k 1; .fin (decide (v < 0)) v.natAbs 0
  | 6 => decF .e2m1 (field b (k / 2) 1 / 16 ^ (k % 2) % 16)
  | _ => decF (if kind = 1 then .e5m2 else .e4m3) (field b k 1)

/-- One level of the tree: neighbours are added. -/
def pairUp : List W32 → List W32
  | a :: b :: r => fadd a b :: pairUp r
  | l => l
/-- n levels. -/
def treeUp : Nat → List W32 → List W32
  | 0, l => l
  | n + 1, l => treeUp n (pairUp l)

/-- The sum of a lane, element positions at and beyond K giving +0 (R88). -/
def laneSum (dens k l : Nat) (p : Nat → W32) : W32 :=
  let q (i : Nat) : W32 := if dens * l + i < k then p (dens * l + i) else 0
  if dens = 1 then q 0 else if dens = 2 then fadd (q 0) (q 1) else fadd (fadd (q 0) (q 1)) (fadd (q 2) (q 3))

/-- A block sum scaled at its level; a block wholly beyond K keeps its +0. -/
def scaleAt (sums : List W32) (width k : Nat) (f : Nat → W32 → W32) : List W32 :=
  (sums.zipIdx).map fun v => if width * v.2 < k then f v.2 v.1 else v.1

/-- E8M0 scaling by 2^(e_streamed + e_stationary − 254); 0xFF makes the block NaN (R80). -/
def mxScale (a b : Byte) (v : W32) : W32 :=
  if a = 0xFF#8 ∨ b = 0xFF#8 then f32Nan
  else toF32 ((ofF32 v).mul (.fin false 1 ((a.toNat : Int) + b.toNat - 254)))

/-- The root of a column (R79, R80): products by element, square scales by half, MX scale pairs by block. -/
def columnRoot (fmt k : Nat) (p : Nat → W32) (half : Nat → W32) (mx : Nat → Byte × Byte) : W32 :=
  let lanes := (List.range 128).map fun l => laneSum (density fmt) k l p
  let sums :=
    if fmt = 3 ∨ fmt = 4 then pairUp (scaleAt (treeUp 6 lanes) 128 k fun j v => fmul v (half j))
    else if fmt = 5 then treeUp 3 (scaleAt (treeUp 4 lanes) 32 k fun j v => mxScale (mx j).1 (mx j).2 v)
    else if fmt = 6 then treeUp 4 (scaleAt (treeUp 3 lanes) 32 k fun j v => mxScale (mx j).1 (mx j).2 v)
    else treeUp 7 lanes
  sums.headD 0

/-! ### The window former (R297 to R305) -/

def convBlockAt : Nat := 0x3FD840
/-- The convolution control block of a core. -/
def CoreS.conv (x : CoreS) : List Byte := x.clmBytes convBlockAt 64
def cvMode (b : List Byte) : Nat := field b 1 1
def cvPad (b : List Byte) : Nat := field b 3 1 % 4

/-- Input coordinates (frame, row, column) of tap t at output position o; none in padding (R299). -/
def tapAt (b : List Byte) (o t : Nat) : Option (Nat × Nat × Nat) :=
  let ow := field b 42 2
  let oh := field b 44 2
  let kw := field b 24 1
  let kh := field b 25 1
  let ix : Int := ((o % ow * field b 32 1 + t % kw * field b 28 1 : Nat) : Int) - field b 36 2
  let iy : Int := ((o / ow % oh * field b 33 1 + t / kw % kh * field b 29 1 : Nat) : Int) - field b 38 2
  let it : Int := ((o / ow / oh * field b 34 1 + t / kw / kh * field b 30 1 : Nat) : Int) - field b 40 2
  if 0 ≤ ix ∧ ix < field b 16 2 ∧ 0 ≤ iy ∧ iy < field b 18 2 ∧ 0 ≤ it ∧ it < field b 20 2 then
    some (it.toNat, iy.toNat, ix.toNat)
  else none

/-- CLM offset of an element of plane (c, τ). -/
def planeAt (b : List Byte) (c size : Nat) (p : Nat × Nat × Nat) : Nat :=
  field b 4 4 + (c * field b 20 2 + p.1) * field b 12 4 + p.2.1 * field b 8 4 + p.2.2 * size
/-- The first byte past the planes. -/
def planesEnd (b : List Byte) (size : Nat) : Nat :=
  planeAt b (field b 22 2 - 1) size (field b 20 2 - 1, field b 18 2 - 1, field b 16 2 - 1) + size

/-- The fields of the block with their limits (Tables 10-1 and 10-2), in offset order: offset, size, whether it holds. -/
def convLimits (b : List Byte) (rows size : Nat) (pool : Bool) : List (Nat × Nat × Bool) :=
  let f (o n : Nat) : Nat := field b o n
  let within (o n lo hi : Nat) : Nat × Nat × Bool := (o, n, decide (lo ≤ f o n ∧ f o n ≤ hi))
  [within 0 1 1 1, within 1 1 1 2,
   (4, 4, decide (f 4 4 % size = 0) && decide (planesEnd b size ≤ 0x400000)), (8, 4, decide (f 8 4 % size = 0)),
   (12, 4, decide (f 12 4 % size = 0)), within 16 2 1 65535, within 18 2 1 65535, within 20 2 1 65535, within 22 2 1 65535,
   within 24 1 1 15, within 25 1 1 15, within 26 1 1 7, within 28 1 1 255, within 29 1 1 255, within 30 1 1 255,
   within 32 1 1 8, within 33 1 1 8, within 34 1 1 8,
   within 36 2 0 ((f 24 1 - 1) * f 28 1), within 38 2 0 ((f 25 1 - 1) * f 29 1), within 40 2 0 ((f 26 1 - 1) * f 30 1),
   within 42 2 1 65535, within 44 2 1 65535, within 46 1 1 255,
   (48, 4, decide (f 48 4 + rows ≤ f 46 1 * f 44 2 * f 42 2)), (52, 2, decide (f 52 2 + f 54 2 ≤ f 22 2)),
   within 54 2 1 (if pool then 1 else 65535), (56, 2, decide (f 56 2 + f 58 2 ≤ f 24 1 * f 25 1 * f 26 1)), within 58 2 1 65535]

/-- The first failing field of a CONV or POOL instruction (R301): a limit of the instruction itself is shown at the field
it is compared with, or at the mode byte (log entry 24). -/
def convFail (b : List Byte) (rows size : Nat) (pool : Bool) (formatOk : Bool) (lanes : Nat) : Option (Nat × Nat) :=
  match (convLimits b rows size pool).find? fun l => !l.2.2 with
  | some l => some (l.1, field b l.1 l.2.1)
  | none =>
    if !formatOk then some (1, field b 1 1)
    else if pool ∧ lanes ≠ field b 58 2 then some (58, field b 58 2)
    else if !pool ∧ lanes ≠ field b 54 2 * field b 58 2 then some (54, field b 54 2)
    else none

/-- FILTER_LIMIT (R301): the first of the run is recorded. -/
def filterLimit (s : State) (c off value : Nat) : State :=
  let s := if s.ent 0x5320 1 = 0xFFFF then
      (((s.setEnt 0x5320 1 c).setEnt 0x5320 2 0x5301).setEnt 0x5320 3 off).setEnt 0x5320 4 value
    else s
  coreFault s c 0x5301 []

/-! ### An array pass -/

def latch (m : SMap Byte) (l : Nat) : List Byte := sread 0 m (l * 256) 256

/-- Real value of stationary element (k, n) in the active latches. -/
def statVal (x : CoreS) (w : W64) (k n : Nat) : FNum :=
  let d := density (mwFormat w)
  elemVal (mwFormat w) (mwStatKind w) (latch x.active (k / d)) (k % d * 128 + n)

/-- A float32 of a scale list, by entry (R118). -/
def scaleEntry (x : CoreS) (c i : Nat) : W32 := x.word (c + 4 * i)

/-- Scale byte of MX block q of a 256-byte chunk at CLM offset a (R225). -/
def mxByte (x : CoreS) (a q : Nat) : Byte := sget 0 x.clm (0x3C0000 + a / 16 + q)
def mxBytes (fmt : Nat) : Nat := if fmt = 6 then 16 else 8

/-- Stationary scale byte of block `block` of column `col` under K elements (R225): the byte that governs, in the lane row that holds it,
one element of the block; which one is a free choice (log entry 23). -/
def mxStat (x : CoreS) (fmt k block col : Nat) : Byte :=
  let d := density fmt
  let e := 32 * block + Config.mxPlace fmt block col % Nat.min 32 (k - 32 * block)
  x.activeScales.getD (e / d * mxBytes fmt + (e % d * 128 + col) / 32) 0

/-- A streamed element of row r: from its CLM row, or from the window former. -/
structure Streamed where
  val : Nat → Nat → FNum
  /-- Lanes that read nothing (R304). -/
  idle : Nat → Bool
  /-- Address of row r, for MX scales. -/
  row : Nat → Nat

/-- The product of two elements (R79); one of integers that is zero is +0. -/
def product (fmt : Nat) (a b : FNum) : W32 :=
  let v := a.mul b
  if fmt = 4 && v.isZero then 0 else toF32 v

/-- Output row r, columns 0 to N − 1 (R76, R79 to R81), before accumulation; `fix` is the correction of R305. -/
def passRow (x : CoreS) (w : W64) (cAddr : Nat) (st : Streamed) (r : Nat) (fix : Nat → Option W32) : List W32 :=
  let fmt := mwFormat w
  let k := mwK w
  (List.range (mwN w)).map fun n =>
    let p (i : Nat) : W32 := if st.idle i then 0 else product fmt (st.val r i) (statVal x w i n)
    let half (j : Nat) : W32 := fmul (scaleEntry x cAddr (2 * (r / 128) + 2 + j)) (scaleEntry x cAddr j)
    let mx (j : Nat) : Byte × Byte := (mxByte x (st.row r) j, mxStat x fmt k j n)
    let root := columnRoot fmt k p half mx
    match fix n with
    | some c => fadd root c
    | none => root

/-- The destination row before the pass, and the rows written: space, first word, words. -/
def destRows (x : CoreS) (w : W64) (rows : List (List W32)) : List (Nat × Nat × List W32) :=
  (rows.zipIdx).map fun r =>
    let key := (mwBase w + r.2) * 128
    match mwDest w with
    | 0 => (2, key, r.1)
    | 1 => (2, key, (r.1.zipIdx).map fun v => fadd (sget 0 x.acc (key + v.2)) v.1)
    | _ => (1, key, (r.1.zipIdx).map fun v => fadd (sget 0 x.wide (key + v.2)) v.1)

/-- Destination rows as ranges for the holds of R95. -/
def destRange (w : W64) (rows : Nat) : List (Nat × Nat × Nat) :=
  if rows = 0 ∨ mwDest w = 2 then [] else [(if mwDest w = 3 then 1 else 2, mwBase w, rows)]

/-- The core as its unit sees it: outstanding passes of the same unit have written (R95). -/
def unitView (x : CoreS) (unit : Nat) : CoreS := (x.passes.filter fun p => decide (p.unit = unit)).foldl applyPass x

/-- The operand scales a pass reads from its list (R118). -/
def scaleBytesRead (w : W64) (m : Nat) : Nat :=
  if mwFormat w = 3 ∨ mwFormat w = 4 then 4 * (2 * ceilDiv m 128 + 1 + if 128 < mwK w then 1 else 0)
  else 0

/-- Read-check of several CLM ranges. -/
def checkRanges (s : State) (c : Nat) (rs : List (Nat × Nat)) : State × Bool := checkSram s c (rs.map fun r => (2, r))

/-- What an accumulating pass reads of its destination: its rows' first N words, of the accumulator file or the wide buffer. -/
def destReads (w : W64) (rows : Nat) : List (Nat × Nat × Nat) :=
  if mwDest w = 1 ∨ mwDest w = 3 then
    (List.range rows).map fun r => (if mwDest w = 3 then 3 else 4, (mwBase w + r) * 512, 4 * mwN w)
  else []

/-- The mode operand of a pass. -/
def modeWord (x : CoreS) (m : ModeSrc) : W64 :=
  match m with
  | .store i => x.modes.getD i.toNat 0
  | .reg r => x.reg r
def fmode (m : ModeSrc) : Nat :=
  match m with
  | .store i => i.toNat * 2 ^ 20
  | .reg r => r.val * 2 ^ 20
def modeFlag (m : ModeSrc) : Nat :=
  match m with
  | .store _ => 0
  | .reg _ => 1

/-- Read-check of the word of the mode store that a pass names. -/
def modeCheck (s : State) (c : Nat) (m : ModeSrc) : State × Bool :=
  match m with
  | .store i => readOnce s 6 c (storeModes + 8 * i.toNat) 8
  | .reg _ => (s, false)

/-- The instruction word of an APASS. -/
def apassWord (f : APassF) (gather : Bool) : W64 :=
  iw 0x30 (modeFlag f.mode + (if f.keep then 2 else 0) + if gather then 4 else 0)
    (fd f.m + fa f.x + fb f.w + f.c.val * 2 ^ 32 + fmode f.mode + fpost f.post)

/-- A pass joins its unit's work. -/
def queuePass (s : State) (c : Nat) (x : CoreS) (unit : Nat) (writes : List (Nat × Nat × List W32))
    (reads dests : List (Nat × Nat × Nat)) (busy : Nat) (p : PostField) (skipped : Bool) : State :=
  let q : Pass := { id := x.nextId, unit := unit, writes := writes, clm := [], reads := reads, dests := dests, post := p,
                    busy := busy, counts := [], skipped := skipped }
  s.setCore c (({ x with passes := x.passes ++ [q], nextId := x.nextId + 1 }.addPost x.nextId p).advance)

/-- The mode word of a pass that keeps the active operand equals the previous one but for the destination fields (R87). -/
def keptOk (last : Option W64) (keep : Bool) (w : W64) : Bool :=
  !keep || (match last with | some l => decide (mwKept l = mwKept w) | none => false)

/-- A pass in skip mode (Table 4-5): with an overwriting accumulator destination and a valid mode word (R93), +0 in its rows and
columns. DESIGN CHOICE (log entry 156): the previous pass of a kept one is here the array pass before it, skipped or run; of a kept pass
that runs it is the last that ran, whose operand it keeps. -/
def skipPass (s : State) (c : Nat) (x : CoreS) (w : W64) (unit rows : Nat) (keep : Bool) (p : PostField) : Out :=
  let y := if unit = 0 then { x with prevMode := some w } else x
  if mwDest w = 0 ∧ mwFieldsOk w unit ∧ mwRowsOk w rows ∧ keptOk x.prevMode keep w ∧ rows ≠ 0 then
    if unitFull x unit ∨ held x unit [] (destRange w rows) then .next s
    else
      let x := y
      let z := List.replicate (mwN w) (0 : W32)
      .next (queuePass s c x unit ((List.range rows).map fun r => (2, (mwBase w + r) * 128, z)) [] (destRange w rows) 0 p true)
  else skipGo s c y p

/-- Values that the window former delivers: element k of row r (R302), the pad value in padding. -/
def convStream (x : CoreS) (b : List Byte) (w : W64) (m : Nat) : Streamed :=
  let size := if mwFormat w ≤ 2 then 2 else 1
  let nt := field b 58 2
  let tap (k : Nat) : Nat := field b 56 2 + k % nt
  let pad := elemVal (mwFormat w) (mwStreamKind w) (le 4 (x.pads.getD (cvPad b) 0).toNat) 0
  let read (r k : Nat) : FNum :=
    match tapAt b (field b 48 4 + r) (tap k) with
    | none => pad
    | some p => elemVal (mwFormat w) (mwStreamKind w) (x.clmBytes (planeAt b (field b 52 2 + k / nt) size p) size) 0
  { val := read
    idle := fun k => (List.range m).all fun r => (tapAt b (field b 48 4 + r) (tap k)).isNone
    row := fun _ => 0 }

/-- CLM bytes that a CONV pass reads of the planes (R299, R304): those of its taps in range; a wholly padded lane reads none. -/
def convReads (b : List Byte) (w : W64) (m : Nat) : List (Nat × Nat) :=
  let size := if mwFormat w ≤ 2 then 2 else 1
  let nt := field b 58 2
  (List.range m).flatMap fun r => (List.range (mwK w)).filterMap fun k =>
    (tapAt b (field b 48 4 + r) (field b 56 2 + k % nt)).map fun p => (planeAt b (field b 52 2 + k / nt) size p, size)

/-- The correction of a CONV pass (R305): p times the sum of the wholly padded weights, rounded once. With square scales p is the
pad code times the streamed scale of the half that the lanes lie in; where those scales differ within the pass p is a free value (log
entry 24). -/
def convFix (s : State) (x : CoreS) (b : List Byte) (w : W64) (cAddr m : Nat) (st : Streamed) : State × (Nat → Option W32) :=
  let code := elemVal (mwFormat w) (mwStreamKind w) (le 4 (x.pads.getD (cvPad b) 0).toNat) 0
  let any := (List.range (mwK w)).any st.idle
  if code.isZero ∨ !any ∨ m = 0 then (s, fun _ => none)
  else
    let square := decide (mwFormat w = 3 ∨ mwFormat w = 4)
    let halves := [0, 1].filter fun j => (List.range (mwK w)).any fun k => st.idle k && decide (k / 128 = j)
    let scales := (List.range (ceilDiv m 128)).flatMap fun g => halves.map fun j => scaleEntry x cAddr (2 * g + 2 + j)
    let s0 := scales.headD 0
    let same := scales.all fun v => decide (v = s0)
    let (free, s') := drawNat s (2 ^ 32)
    let p := if !square then code else if same then code.mul (ofF32 s0) else ofF32 (BitVec.ofNat 32 free)
    let sum (n : Nat) : W32 := columnRoot (mwFormat w) (mwK w)
      (fun k => if st.idle k then toF32 (statVal x w k n) else 0) (fun j => scaleEntry x cAddr j) (fun _ => (127, 127))
    (if square ∧ !same then s' else s, fun n => some (toF32 (p.mul (ofF32 (sum n)))))

/-- Gap cycles before a pass with a new operand of h lane rows (R84 to R87, R111): its marker, a change of format, and what of the load did not
fit behind the rows streamed since the last marker. Behind an idle array the whole load is a gap. Behind a busy one at least h less those
rows is; how much more depends on the cycle of its issue, a free number (log entry 3). -/
def loadGap (s : State) (c : Nat) (keep : Bool) (h behind : Nat) (change : Bool) : State :=
  if keep then s
  else if behind = 0 then s.addEnt 0x5A01 (c + 1) (h + 1 + if change then 1 else 0)
  else
    let d := drawNat s (behind + 1)
    d.2.addEnt 0x5A01 (c + 1) (h - behind + d.1 + 1 + if change then 1 else 0)

/-- The common meaning of APASS and of a CONV pass. DESIGN CHOICE (log entry 152): the pass's rows are counted in `0x5A00` as it issues, as the
weight rows of an MPASS are in `0x5A02`; an abort that finds it outstanding leaves them counted. -/
def arrayPass (s : State) (c : Nat) (x : CoreS) (f : APassF) (gather conv : Bool) : Out :=
  let w := modeWord x f.mode
  let m := (x.reg f.m).toNat
  let xa := (x.reg f.x).toNat
  let wa := (x.reg f.w).toNat
  let ca := (x.reg f.c).toNat
  let fmt := mwFormat w
  let h := ceilDiv (mwK w) (density fmt)
  let isMx := decide (fmt = 5 ∨ fmt = 6)
  if unitFull x 0 then .next s
  else if !mwFieldsOk w 0 ∨ !mwRowsOk w m ∨ !keptOk x.lastMode f.keep w then .next (coreFault s c 0x5601 [])
  else
    let b := x.conv
    let size := if fmt ≤ 2 then 2 else 1
    match (if conv then convFail b m size false (decide (1 ≤ fmt ∧ fmt ≤ 4) && decide (mwDest w ≠ 3)) (mwK w) else none) with
    | some (off, v) => .next (filterLimit s c off v)
    | none =>
      let listOk := !gather || conv || decide (m = 0) || decide (xa + 4 * m ≤ clmSize)
      if !listOk then .next (instrInvalid s c)
      else if gather ∧ !conv ∧ held x 0 (clmUnits xa (4 * m)) [] then .next s
      else
        let rowAt (r : Nat) : Nat := if gather then (x.word (xa + 4 * r)).toNat else xa + 256 * r
        let limit := if isMx then 0x3C0000 else clmSize
        let rowsOk := conv || (if gather then (List.range m).all fun r => decide (rowAt r % 256 = 0) && decide (rowAt r + 256 ≤ limit)
          else decide (m = 0) || (decide (xa + 256 * m ≤ limit) && (!isMx || decide (xa % 256 = 0))))
        let statOk := f.keep || (decide (wa + 256 * h ≤ limit) && (!isMx || decide (wa % 256 = 0)))
        if !rowsOk ∨ !statOk ∨ (scaleBytesRead w m ≠ 0 ∧ clmSize < ca + scaleBytesRead w m) then .next (instrInvalid s c)
        else
          let rowRanges : List (Nat × Nat) :=
            if conv then convReads b w m
            else if gather then (List.range m).map fun r => (rowAt r, 256)
            else [(xa, 256 * m)]
          let statRange : List (Nat × Nat) := if f.keep then [] else [(wa, 256 * h)]
          let mxRanges : List (Nat × Nat) := if isMx then (rowRanges ++ statRange).map fun r => (0x3C0000 + r.1 / 16, r.2 / 16) else []
          let ranges := (if gather && !conv then [(xa, 4 * m)] else []) ++ rowRanges ++ mxRanges ++ statRange ++ [(ca, scaleBytesRead w m)]
          let reads := ranges.flatMap fun r => clmUnits r.1 r.2
          if held x 0 reads (destRange w m) then .next s
          else
            afterCheck c (checkSram s c ((ranges.map fun r => (2, r)) ++ destReads w m)) fun s =>
              let x := s.core c
              let loaded := (List.range h).flatMap fun l => x.clmBytes (wa + 256 * l) 256
              let x := if f.keep then x else { x with
                shadow := swrite 0 x.shadow 0 loaded
                active := swrite 0 x.active 0 loaded
                activeScales := if isMx then (List.range h).flatMap fun l => x.clmBytes (0x3C0000 + (wa + 256 * l) / 16) (mxBytes fmt) else [] }
              let st : Streamed := if conv then convStream x b w m else
                { val := fun r k => elemVal fmt (mwStreamKind w) (x.clmBytes (rowAt r) 256) k, idle := fun _ => false, row := rowAt }
              let (s, fix) := if conv then convFix s x b w ca m st else (s, fun _ => none)
              let rows := (List.range m).map fun r => passRow x w ca st r fix
              let v := unitView x 0
              let change := match x.lastMode with | some l => decide (mwFormat l ≠ fmt ∨ mwStreamKind l ≠ mwStreamKind w ∨ mwStatKind l ≠ mwStatKind w) | none => false
              let idle := !x.passes.any fun p => decide (p.unit = 0)
              let behind := if idle then 0 else Nat.min h x.rowsSince
              let x := { x with lastMode := some w, prevMode := some w, rowsSince := if f.keep then x.rowsSince + m else m, fromPass := if mwDest w = 2 then x.fromPass ++ [(m, mwN w, rows.flatten)] else x.fromPass }
              let s := loadGap (s.addEnt 0x5A00 (c + 1) m) c f.keep h behind change
              .next (queuePass s c x 0 (if mwDest w = 2 then [] else destRows v w rows) reads (destRange w m) m f.post false)

/-- The first failing field of a block whose mode byte is reserved (R301): the version, if it is not 1, stands before it. -/
def reservedMode (b : List Byte) : Nat × Nat := if field b 0 1 = 1 then (1, cvMode b) else (0, field b 0 1)

/-- APASS (R76 to R90, R118). With GATHER the row addresses come from the gather list; in CONV mode the instruction is the
command CONV_PASS. -/
def execApass (c : Core) (f : APassF) (gather : Bool) (s : State) : Out :=
  issue s c.val (apassWord f gather) fun s x =>
    afterCheck c.val (modeCheck s c.val f.mode) fun s =>
      if x.inSkip then skipPass s c.val x (modeWord x f.mode) 0 (x.reg f.m).toNat f.keep f.post
      else if !gather then arrayPass s c.val x f false false
      else if held x 0 (clmUnits convBlockAt 64) [] then .next s
      else afterCheck c.val (readOnce s 2 c.val convBlockAt 64) fun s =>
        if 3 ≤ cvMode x.conv then .next (filterLimit s c.val (reservedMode x.conv).1 (reservedMode x.conv).2)
        else if cvMode x.conv = 1 then .next s
        else arrayPass s c.val x f true false

/-- CONV_PASS (R298 to R305): an APASS with GATHER while the mode byte is CONV. -/
def execConvPass (c : Core) (f : APassF) (s : State) : Out :=
  issue s c.val (apassWord f true) fun s x =>
    afterCheck c.val (modeCheck s c.val f.mode) fun s =>
      if x.inSkip then skipPass s c.val x (modeWord x f.mode) 0 (x.reg f.m).toNat f.keep f.post
      else if held x 0 (clmUnits convBlockAt 64) [] then .next s
      else afterCheck c.val (readOnce s 2 c.val convBlockAt 64) fun s =>
        if cvMode x.conv ≠ 1 then .next s
        else arrayPass s c.val x f true true

/-! ### The matrix-vector unit (R98) -/

/-- The instruction word of an MPASS. -/
def mpassWord (f : MPassF) : W64 :=
  iw 0x31 (modeFlag f.mode + if f.wstream then 8 else 0) (fd f.m + fa f.x + fb f.w + fmode f.mode + fpost f.post)

/-- One result of the MVU: the sum over k in order, from +0. -/
def mvuSum (fmt : Nat) (vec : List Byte) (wt : Nat → FNum) (k : Nat) : W32 :=
  (List.range k).foldl (fun y i => toF32 (((elemVal fmt 0 vec i).mul (wt i)).add (ofF32 y))) 0

/-- MPASS (R98). What a mover's stream delivers with WSTREAM is not stated: its weights are free values (log entry 25). DESIGN CHOICE
(log entry 136): K = 0, below the range 1 to 65,536 that R98 gives but not among the operands that it refuses, runs and gives +0. -/
def execMpass (c : Core) (f : MPassF) (s : State) : Out :=
  issue s c.val (mpassWord f) fun s x =>
    let w := modeWord x f.mode
    let v := mwVectors w
    let k := (x.reg f.m).toNat
    let xa := (x.reg f.x).toNat
    let wa := (x.reg f.w).toNat
    let stride := (2 * k + 255) / 256 * 256
    afterCheck c.val (modeCheck s c.val f.mode) fun s =>
    if x.inSkip then skipPass s c.val x w 1 v false f.post
    else if unitFull x 1 then .next s
    else if !mwFieldsOk w 1 ∨ !mwRowsOk w v then .next (coreFault s c.val 0x5601 [])
    else if 65536 < k then .next (instrInvalid s c.val)
    else
      let last := if k = 0 then 0 else xa + (v - 1) * stride + 2 * k
      if clmSize < last ∨ (!f.wstream ∧ k ≠ 0 ∧ clmSize < wa + 256 * (k - 1) + 2 * mwN w) then .next (instrInvalid s c.val)
      else
        let ranges := ((List.range v).map fun j => (xa + j * stride, 2 * k)) ++ (if f.wstream then [] else [(wa, 256 * (k - 1) + 2 * mwN w)])
        let ranges := if k = 0 then [] else ranges
        let vectors := (List.range v).map fun j => (2, xa + j * stride, 2 * k)
        let weights := if f.wstream then [] else (List.range k).map fun i => (2, wa + 256 * i, 2 * mwN w)
        let reads := ranges.flatMap fun r => clmUnits r.1 r.2
        if held x 1 reads (destRange w v) then .next s
        else afterCheck c.val (checkSram s c.val ((if k = 0 then [] else vectors ++ weights) ++ destReads w v)) fun s =>
            let x := s.core c.val
            let free := s.freeCtr
            let fmt := mwFormat w
            let wt (n i : Nat) : FNum :=
              if f.wstream then elemVal fmt 0 (le 2 (Config.freeWord (free + 128 * i + n)).toNat) 0
              else elemVal fmt 0 (x.clmBytes (wa + 256 * i + 2 * n) 2) 0
            let s := if f.wstream then { s with freeCtr := s.freeCtr + 128 * k } else s
            let rows := (List.range v).map fun j =>
              (List.range (mwN w)).map fun n => mvuSum fmt (x.clmBytes (xa + j * stride) (2 * k)) (wt n) k
            let u := unitView x 1
            let x := { x with fromPass := if mwDest w = 2 then x.fromPass ++ [(v, mwN w, rows.flatten)] else x.fromPass }
            let s := s.addEnt 0x5A02 (c.val + 1) k
            .next (queuePass s c.val x 1 (if mwDest w = 2 then [] else destRows u w rows) reads (destRange w v) k f.post false)

/-! ### Retirement (R96) and numeric counters (R229 to R233) -/

/-- Add to one of the five counts of a slot; they saturate at 2^48 − 1 (R232). -/
def bump (m : SMap Nat) (slot k n : Nat) : SMap Nat :=
  let v := sget 0 m (slot * 8 + k) + n
  sset 0 m (slot * 8 + k) (if v < 2 ^ 48 then v else 2 ^ 48 - 1)

/-- Counts made by a unit of core c join its slot; a saturation or non-finite count of a gradient slot sets the module's
non-finite flag (R249). -/
def noteCount (s : State) (c : Nat) (n : SlotCount) : State :=
  if n.total = 0 then s else
  let s := s.modCore c fun x =>
    let m := bump (bump (bump (bump (bump x.slots n.slot 0 n.total) n.slot 1 n.zero) n.slot 2 n.saturated) n.slot 3 n.nonfinite) n.slot 4 n.vanished
    let old := sget 0 x.slots (n.slot * 8 + 5)
    { x with slots := sset 0 m (n.slot * 8 + 5) (if old = 0 ∨ old = n.format then n.format else 0xFF) }
  if Nat.testBit (s.ent 0x5400 3) n.slot ∧ n.saturated + n.nonfinite ≠ 0 then { s with run := { s.run with nonfinite := true } } else s

/-- The writes of a pass reach their stores. -/
def writePass (s : State) (c : Nat) (p : Pass) : State :=
  let s := p.clm.foldl (fun s w => s.writeClm c w.1 w.2) s
  p.writes.foldl (fun s w =>
    if w.1 = 1 then s.writeWide c w.2.1 w.2.2 else s.writeAcc c w.2.1 w.2.2) s

/-- An instruction before this skipped one that posts the same semaphore has still to retire (R128). -/
def postsBefore (x : CoreS) (p : Pass) : Bool :=
  p.skipped && p.post.isSome &&
    (x.passes.any (fun q => decide (q.id < p.id ∧ q.post = p.post)) ||
      x.moves.any fun m => decide (m.id < p.id ∧ m.post = p.post) && !m.retired)

/-- PASS_RETIRE (R96): the oldest pass of its unit has written its last destination row. DESIGN CHOICE (log entry 152): the row unit's chunks
are counted in `0x5A03` here. -/
def execPassRetire (c : Core) (id : Nat) (s : State) : Out :=
  let x := s.core c.val
  match x.passes.find? fun p => decide (p.id = id) with
  | none => .next s
  | some p =>
    if !s.running ∨ (x.passes.takeWhile fun q => !decide (q.id = id)).any (fun q => decide (q.unit = p.unit)) ∨ postsBefore x p then .next s
    else
      let s := writePass s c.val p
      let s := s.modCore c.val fun x => { x with passes := x.passes.filter fun q => !decide (q.id = id) }
      let s := if p.unit = 2 then s.addEnt 0x5A03 (c.val + 1) p.busy else s
      .next (p.counts.foldl (fun s n => noteCount s c.val n) s)

end Sys2Proof.Machine
end

