-- ==== Sys2Proof/Machine/Rowfn.lean ====
section
/-!
DEFINITION. The values of the row unit's functions (R103 to R110, R276 to R281, R306): what each gives for a row, each step
in FP32 by RNE, with the exact value that the counters of slot 0 class (R231).
-/
namespace Sys2Proof.Machine

/-- A result before it is narrowed to the output format: the exact value that decides its class, and the value. -/
structure RV where
  exact : FNum
  val : FNum
deriving DecidableEq, Repr

/-- A finite value above, and a non-zero value below, every format's range. -/
def fHuge : FNum := .fin false 1 1000
def fTiny : FNum := .fin false 1 (-1000)

/-- A result given exactly. -/
def rvExact (e : FNum) : RV := { exact := e, val := e }
/-- A result whose last step is rounded to FP32. -/
def rvStep (e : FNum) : RV := { exact := e, val := ofF32 (toF32 e) }
/-- An FP32 result with no more exact value behind it. -/
def rv32 (v : W32) : RV := rvExact (ofF32 v)
/-- A function's FP32 result at a finite non-zero argument: +∞ is an overflow and 0 an underflow of a value that is neither. -/
def rvFn (arg v : W32) : RV :=
  let a := ofF32 arg
  let r := ofF32 v
  let e := if !a.isFinite || a.isZero then r
    else match r with
      | .inf n => if n then fHuge.neg else fHuge
      | .fin _ m _ => if m = 0 then fTiny else r
      | .nan => r
  { exact := e, val := r }
/-- A function that is zero at zero. -/
def rvFn0 (arg v : W32) : RV := if (ofF32 arg).isZero then { exact := .fin false 0 0, val := ofF32 v } else rvFn arg v
/-- A result of finite operands whose exact value, finite too, is known to be zero or not (R231). -/
def rvKnown (zero : Bool) (v : W32) : RV := { exact := .fin false (if zero then 0 else 1) 0, val := ofF32 v }
/-- `rvKnown` where the operands are finite, the FP32 result otherwise. -/
def rvOf (args : List W32) (zero : Bool) (v : W32) : RV :=
  if args.all fun a => (ofF32 a).isFinite then rvKnown zero v else rv32 v
/-- The narrowed encoding of a result and its class (R119, R210, R231). A NaN that stands for a finite value is in no class of Table 7-7. -/
def rvNarrow (f : EFmt) (r : RV) : Nat × NClass :=
  let (b, k) := narrow f .rne r.val
  (b, match r.exact with
    | .nan => .nonfinite
    | .inf _ => .nonfinite
    | .fin _ m _ =>
      if m = 0 then .zero
      else match r.val with
        | .fin _ n _ => if n = 0 then .vanished else k
        | .inf _ => .saturated
        | .nan => .ok)

/-! ### Reductions (R103) -/

/-- One level of the balanced tree: neighbours combine, an absent neighbour takes no part. -/
def pairBy (g : W32 → W32 → W32) : List W32 → List W32
  | a :: b :: r => g a b :: pairBy g r
  | l => l
/-- The tree of at most 128 lanes. -/
def chunkBy (g : W32 → W32 → W32) (l : List W32) : W32 := ((List.range 7).foldl (fun l _ => pairBy g l) l).headD 0
/-- Chunks of 128 in index order, folded in chunk order; none for an empty row. -/
def reduceBy (g : W32 → W32 → W32) (l : List W32) : Option W32 :=
  let chunks := (List.range (ceilDiv l.length 128)).map fun k => chunkBy g ((l.drop (128 * k)).take 128)
  match chunks with
  | [] => none
  | c :: r => some (r.foldl g c)

def rowSum (l : List W32) : W32 := (reduceBy fadd l).getD 0
def rowMax (l : List W32) : W32 := (reduceBy fmax l).getD f32NegInf

/-- The exact sum of FP32 values. -/
def exactSum (l : List W32) : FNum := l.foldl (fun (a : FNum) x => a.add (ofF32 x)) (.fin false 0 0)
/-- The sum as a result: the exact sum decides its class. -/
def rvSum (l : List W32) : RV := rvOf l (exactSum l).isZero (rowSum l)
/-- LOG: of a finite positive x, zero at 1 alone. -/
def rvLog (x : W32) : RV := if (ofF32 x).isFinite && FNum.lt (.fin false 0 0) (ofF32 x) then rvKnown (decide (x = f32One)) (flog x) else rv32 (flog x)

/-- DIV (Table 3-7): x × reciprocal(y); x / y is exact. -/
def rvDiv (x y : W32) : RV :=
  let v := fdivRow x y
  if (ofF32 x).isFinite ∧ (ofF32 y).isFinite ∧ !(ofF32 y).isZero then rvKnown (ofF32 x).isZero v else rv32 v

/-! ### Activations (R106, Table 3-9) -/

def fgt0 (x : W32) : Bool := FNum.lt (.fin false 0 0) (ofF32 x)
/-- ln(1 + eˣ) in fixed point. -/
def fxSoftplus (x : Int) : Int :=
  let v := fxOne + fxExpV x
  let l := Nat.log2 v.natAbs
  fxLn (if l ≤ fxP then v * 2 ^ (fxP - l) else v / 2 ^ (l - fxP)) ((l : Int) - fxP)

/-- A built-in activation of x with parameter a. -/
def actVal (code : Nat) (x a : W32) : RV :=
  let nan := (ofF32 x).isNan
  let neg0 := 0x80000000#32
  match code with
  | 1 => if nan then rv32 f32Nan else if fgt0 x then rv32 x else rv32 0
  | 2 => if fgt0 x then rv32 x else rvStep ((ofF32 a).mul (ofF32 x))
  | 3 => rvFn x (actFx 3 [] x f32Zero f32One fxSigmoid)
  | 4 => rvFn0 x (actFx 4 [] x 0xBF800000#32 f32One fxTanh)
  | 5 => rvFn x (fexpBy 0x105 4 true x)
  | 6 => rvFn x (actFx 6 [] x f32Zero x fxSoftplus)
  | 7 =>
    if nan then rv32 f32Nan else if fgt0 x then rv32 x
    else match ofF32 a with
      | .fin an am ae =>
        let r := rvFn0 x (actFx 7 [a] x (fneg a) x fun v => fxMul (fxOf an am ae) (fxExpV v - fxOne))
        if am = 0 then { r with exact := .fin false 0 0 } else r
      | _ => rvStep ((ofF32 a).mul (ofF32 (fsub (fexp x) f32One)))
  | 8 => rvFn0 x (actFx 8 [] x neg0 x fun v => fxMul v (fxNormalC v))
  | 9 => rvFn0 x (actFx 9 [] x neg0 x fxGeluTanh)
  | _ => rvFn0 x (actFx 10 [] x neg0 x fun v => fxMul v (fxSigmoid v))

/-- The derivative of a built-in activation: dy and the saved y or x, with parameter α or a. -/
def actdVal (code : Nat) (dy y a : W32) : RV :=
  let times (zero : Bool) (v : W32) : RV := rvOf [dy, y] (zero || (ofF32 dy).isZero) (fmul dy v)
  let is (v : W32) : Bool := decide ((ofF32 y).cmp (ofF32 v) = 0)
  match code with
  | 1 => if fgt0 y then rv32 dy else rv32 0
  | 2 => if fgt0 y then rv32 dy else rvStep ((ofF32 a).mul (ofF32 dy))
  | 3 => times (is 0 || is f32One) (fmul y (fsub f32One y))
  | 4 => times (is f32One || is (fneg f32One)) (ffma (fneg y) y f32One)
  | 5 => times (is 0) y
  | 6 => times (is 0) (fsub f32One (fexp (fneg y)))
  | 7 => if fgt0 y then rv32 dy else rvOf [dy, y, a] (is (fneg a) || (ofF32 dy).isZero) (fmul dy (fadd y a))
  | 8 => times false (fadd (fnormal y) (fmul y (fdensity y)))
  | 9 => times false (actFx 0x109 [] y f32Zero f32One fxGeluTanhD)
  | _ =>
    let s := fsigmoid y
    times false (fmul s (fadd f32One (fmul y (fsub f32One s))))

/-! ### Loaded tables (R109, R110) -/

/-- ⌊v · 2^−e⌋, clamped to 0 to 255. -/
def segmentOf (v : W32) (e : Int) : Nat :=
  match ofF32 v with
  | .fin false m k =>
    let j := k - e
    let i := if 0 ≤ j then m * 2 ^ j.toNat else m / 2 ^ (-j).toNat
    if i < 255 then i else 255
  | .inf false => 255
  | _ => 0

/-- A table's straight line. DESIGN CHOICE (log entry 137): the product is rounded, and then the sum. -/
def tableLine (slope icpt x : W32) : RV :=
  if (ofF32 x).isFinite then
    { exact := ((ofF32 slope).mul (ofF32 x)).add (ofF32 icpt), val := ofF32 (fadd (fmul slope x) icpt) }
  else if (ofF32 slope).isZero then rv32 icpt else rv32 (fmul slope x)

/-- The value at x of the function set (`set` 32) or the derivative set (`set` 4,128) of a table image. DESIGN CHOICE (log entry 138): the
image holds one pair of outer lines, and outside the covered range both sets give the line's value. -/
def tableVal (t : List Byte) (set : Nat) (x : W32) : RV :=
  let f (o : Nat) : W32 := BitVec.ofNat 32 (field t o 4)
  let e := fieldI t 2 1
  let scale (k : Nat) : FNum := .fin false k e
  let lo := f 4
  let hi := toF32 ((ofF32 lo).add (scale 256))
  if (ofF32 x).isNan then rv32 f32Nan
  else if FNum.lt (ofF32 x) (ofF32 lo) then tableLine (f 8) (f 12) x
  else if FNum.le (ofF32 hi) (ofF32 x) then tableLine (f 16) (f 20) x
  else
    let i := segmentOf (fsub x lo) e
    let b := toF32 ((ofF32 lo).add (scale i))
    let u := toF32 ((ofF32 (fsub x b)).mul (.fin false 1 (-e)))
    let c (k : Nat) : W32 := f (set + 16 * i + 4 * k)
    let q := ffma u (c 3) (c 2)
    let q := ffma u q (c 1)
    let step (v : FNum) (k : Nat) : FNum := ((ofF32 u).mul v).add (ofF32 (c k))
    { exact := step (step (step (ofF32 (c 3)) 2) 1) 0, val := ofF32 (ffma u q (c 0)) }

/-! ### Composed functions (R107) -/

def hasInfNan (l : List W32) : Bool := l.any fun x => (ofF32 x).isNan || decide (x = f32Inf)

def softmaxRow (l : List W32) : List RV :=
  let m := rowMax l
  if hasInfNan l then l.map fun _ => rv32 f32Nan
  else if m = f32NegInf then l.map fun _ => rv32 0
  else
    let e := l.map fun x => fexp (fsub x m)
    let r := frecip (rowSum e)
    (l.zip e).map fun p =>
      rvKnown (decide (p.1 = f32NegInf)) (fmul p.2 r)

def softmaxdRow (dy y : List W32) : List RV :=
  let s := rowSum ((dy.zip y).map fun p => fmul p.1 p.2)
  let e := (dy.zip y).foldl (fun (a : FNum) p => a.add ((ofF32 p.1).mul (ofF32 p.2))) (FNum.fin false 0 0)
  (dy.zip y).map fun p =>
    rvOf (dy ++ y) ((ofF32 p.2).isZero || decide ((ofF32 p.1).cmp e = 0)) (fmul p.2 (fsub p.1 s))

/-- Whether t / √v + β is exactly zero, for a positive v. -/
def normZero (t v beta : FNum) : Bool :=
  decide ((t.mul t).cmp ((beta.mul beta).mul v) = 0) && (beta.isZero || decide (t.lt (.fin false 0 0) ≠ beta.lt (.fin false 0 0)))
/-- A normalised element: where the operands are finite and the exact v is positive, the exact t / √v + β decides its class. -/
def rvNorm (args : List W32) (t v beta : FNum) (r : W32) : RV :=
  if FNum.lt (.fin false 0 0) v then rvOf args (normZero t v beta) r else rv32 r

def lnormRow (eps ell : W32) (g b l : List W32) : List RV :=
  let mu := fmul (rowSum l) ell
  let d := l.map fun x => fsub x mu
  let v := fmul (rowSum (d.map fun x => fmul x x)) ell
  let r := frsqrt (fadd v eps)
  let off (x : W32) : FNum := (ofF32 x).add ((exactSum l).mul (ofF32 ell)).neg
  let ev := ((l.foldl (fun (a : FNum) x => a.add ((off x).mul (off x))) (FNum.fin false 0 0)).mul (ofF32 ell)).add (ofF32 eps)
  ((l.zip d).zip (g.zip b)).map fun p =>
    rvNorm (eps :: ell :: p.2.1 :: p.2.2 :: l) ((off p.1.1).mul (ofF32 p.2.1)) ev (ofF32 p.2.2) (ffma (fmul p.1.2 r) p.2.1 p.2.2)

def rmsnormRow (eps ell : W32) (g l : List W32) : List RV :=
  let q := fmul (rowSum (l.map fun x => fmul x x)) ell
  let r := frsqrt (fadd q eps)
  let ev := ((l.foldl (fun (a : FNum) x => a.add ((ofF32 x).mul (ofF32 x))) (FNum.fin false 0 0)).mul (ofF32 ell)).add (ofF32 eps)
  (l.zip g).map fun p =>
    rvNorm (eps :: ell :: p.2 :: l) ((ofF32 p.1).mul (ofF32 p.2)) ev (.fin false 0 0) (fmul (fmul p.1 r) p.2)

/-! ### Attention (R275 to R284) -/

def attnAt : Nat := 0x3FC800
def attnTable : Nat := 0x3FC840
def CoreS.attn (x : CoreS) : List Byte := x.clmBytes attnAt 64
def atPhase (b : List Byte) : Nat := field b 1 1
def atBase (b : List Byte) : Nat := field b 4 2
def atDim (b : List Byte) : Nat := field b 6 2
def atTau (b : List Byte) : W32 := BitVec.ofNat 32 (field b 8 4)
def atScore (b : List Byte) : Nat := field b 20 2

/-- The block carries no reserved encoding, and τ and w obey Table 9-1 (R276). -/
def attnOk (b : List Byte) : Bool :=
  let window := Nat.testBit (field b 2 1) 1
  decide (field b 0 1 = 1) && decide (1 ≤ atPhase b ∧ atPhase b ≤ 4) &&
    (ofF32 (atTau b)).isFinite && fgt0 (atTau b) && decide (window = true ↔ field b 16 4 ≠ 0)

/-- A row-table entry. -/
structure AttnRow where
  m : W32
  s : W32
  l : W32
  d : W32
  q : Nat
  k : Nat
deriving DecidableEq, Repr

def CoreS.attnRow (x : CoreS) (i : Nat) : AttnRow :=
  let b := x.clmBytes (attnTable + 32 * i) 32
  let w (o : Nat) : W32 := BitVec.ofNat 32 (field b o 4)
  { m := w 0, s := w 4, l := w 8, d := w 12, q := field b 16 4, k := field b 20 4 }

/-- Whether element i of a logical row is visible (R277). -/
def visible (b : List Byte) (e : AttnRow) (i : Nat) : Bool :=
  let t := field b 12 4 + i
  decide (t < e.k) && (!Nat.testBit (field b 2 1) 0 || decide (t ≤ e.q)) &&
    (!Nat.testBit (field b 2 1) 1 || decide ((e.q : Int) - t < field b 16 4))

/-- x_i of the visible elements. -/
def scores (b : List Byte) (e : AttnRow) (row : List W32) : List W32 :=
  ((row.zipIdx).filter fun v => visible b e v.2).map fun v => fmul (atTau b) v.1

/-- STATS: m, s and ℓ after a chunk (R278). -/
def statsRow (b : List Byte) (e : AttnRow) (row : List W32) : W32 × W32 × W32 :=
  let xs := scores b e row
  let m' := fmax e.m (rowMax xs)
  if (ofF32 e.m).isNan ∨ hasInfNan xs then (f32Nan, f32Nan, f32Nan)
  else if m' = f32NegInf then (f32NegInf, 0, 0)
  else
    let s' := fadd (fmul e.s (fexp (fsub e.m m'))) (rowSum (xs.map fun x => fexp (fsub x m')))
    (m', s', flog s')

/-- P_i of a visible score (R279). -/
def probOf (b : List Byte) (e : AttnRow) (score : W32) : RV :=
  let a := fsub (fsub (fmul (atTau b) score) e.m) e.l
  if [score, e.m, e.l].all fun v => (ofF32 v).isFinite then rvKnown false (fexp a) else rvFn a (fexp a)

/-- OUTPUT of a row. -/
def outputRow (b : List Byte) (e : AttnRow) (row : List W32) : List RV :=
  (row.zipIdx).map fun v =>
    if (ofF32 e.m).isNan then rv32 f32Nan
    else if e.m = f32NegInf ∨ !visible b e v.2 then rv32 0
    else probOf b e v.1

/-- GRAD of a row of dP with its scores (R281). -/
def gradRow (b : List Byte) (e : AttnRow) (dp score : List W32) : List RV :=
  ((dp.zip score).zipIdx).map fun v =>
    if (ofF32 e.m).isNan then rv32 f32Nan
    else if e.m = f32NegInf ∨ !visible b e v.2 then rv32 0
    else
      let p := toF32 (probOf b e v.1.2).val
      rvOf [v.1.1, v.1.2, e.m, e.l, e.d] (decide ((ofF32 v.1.1).cmp (ofF32 e.d) = 0)) (fmul (atTau b) (fmul p (fsub v.1.1 e.d)))

end Sys2Proof.Machine
end

