-- ==== Sys2Proof/Machine/Rows.lean ====
section
/-!
DEFINITION. The row unit (chapter 3; R119, R130, R138, R139; attention phases R276; pooling R306): the operands of an RFUNC,
where its rows lie, what it writes and counts.
-/
namespace Sys2Proof.Machine

/-! ### The instruction -/

def outFmtOf (f : RFuncF) : EFmt :=
  match f.outFmt.toNat with
  | 1 => .bf16
  | 2 => .fp16
  | _ => .f32
/-- Mover code of the output format, for the slot's format (R233). -/
def outCode (f : RFuncF) : Nat := if f.outFmt = 0 then 3 else f.outFmt.toNat
def outSize (f : RFuncF) : Nat := if f.outFmt = 0 then 4 else 2

def roundUp (n k : Nat) : Nat := ceilDiv n k * k

/-- The pads, registers and sizes of one RFUNC. -/
structure RowJob where
  op : Nat
  f : RFuncF
  src : Nat
  dst : Nat
  len : Nat
  rows : Nat
  pv : W64
deriving DecidableEq, Repr

def rowJob (x : CoreS) (op : Nat) (f : RFuncF) : RowJob :=
  { op := op, f := f, src := (x.reg f.src).toNat, dst := (x.reg f.dst).toNat, len := (x.reg f.len).toNat,
    rows := (x.reg f.rows).toNat, pv := x.reg f.p }

/-- Accumulator rows of a row of L elements. -/
def RowJob.tiles (j : RowJob) : Nat := ceilDiv j.len 128
/-- An RFUNC with no element to read (R130). -/
def RowJob.empty (j : RowJob) : Bool := decide (j.len = 0 ∨ j.rows = 0)

/-- The accumulator row of tile k of logical row r at a base: consecutive rows, or tiles of M rows (R119, R138). -/
def RowJob.accRow (j : RowJob) (base r k : Nat) : Nat :=
  if j.f.accTiled then base + k * j.rows + r else base + r * j.tiles + k

/-- FP32 words of a CLM row. -/
def CoreS.words (x : CoreS) (a n : Nat) : List W32 :=
  let b := x.clmBytes a (4 * n)
  (List.range n).map fun k => BitVec.ofNat 32 (field b (4 * k) 4)

/-- Logical row r read from accumulator rows. -/
def accWords (x : CoreS) (j : RowJob) (base r : Nat) : List W32 :=
  ((List.range j.tiles).flatMap fun k => sread 0 x.acc (j.accRow base r k * 128) 128).take j.len

/-- The input rows (R119). -/
def inputRows (x : CoreS) (j : RowJob) : List (List W32) :=
  (List.range j.rows).map fun r =>
    if j.f.fromPass then (match x.fromPass with | p :: _ => (p.2.2.drop (r * j.len)).take j.len | [] => [])
    else if j.f.srcAcc || j.f.accTiled then accWords x j j.src r
    else x.words (j.src + r * roundUp (4 * j.len) 256) j.len

/-- The rows at an address in CLM: second rows, divisor rows, saved rows. -/
def secondRow (x : CoreS) (j : RowJob) (r : Nat) : List W32 := x.words (j.pv.toNat + r * roundUp (4 * j.len) 256) j.len

/-- Rows in CLM at a stride of whole 256-byte units: the first byte, how many rows, the bytes of a row. -/
def clmRows (a rows n : Nat) : List (Nat × Nat × Nat) := if rows = 0 ∨ n = 0 then [] else [(a, rows, n)]
/-- From their first byte to their last. -/
def clmSpan (r : Nat × Nat × Nat) : Nat × Nat := (r.1, (r.2.1 - 1) * roundUp r.2.2 256 + r.2.2)
/-- The ranges of CLM that such rows hold. -/
def clmParts (r : Nat × Nat × Nat) : List (Nat × Nat × Nat) := (List.range r.2.1).map fun k => (2, r.1 + k * roundUp r.2.2 256, r.2.2)

/-- What an RFUNC reads of CLM and of the accumulator file before its second operand. -/
def srcReads (j : RowJob) : List (Nat × Nat × Nat) × List (Nat × Nat) :=
  if j.empty ∨ j.f.fromPass then ([], [])
  else if j.f.srcAcc || j.f.accTiled then ([], [(j.src, j.rows * j.tiles)])
  else (clmRows j.src j.rows (4 * j.len), [])

/-- Where the output lies: bytes of CLM or accumulator rows; `n` elements a row. -/
def dstWrites (j : RowJob) (n : Nat) : List (Nat × Nat) × List (Nat × Nat) :=
  if n = 0 ∨ j.rows = 0 then ([], [])
  else
    let b := n * outSize j.f
    if j.f.dstAcc then ([], [if j.f.accTiled then (j.src, j.rows * j.tiles) else (j.dst, j.rows * ceilDiv n 128)])
    else if j.f.accTiled then ([(j.dst, (ceilDiv b 256 * j.rows - 1) * 256 + (b - (ceilDiv b 256 - 1) * 256))], [])
    else if j.op = 0x0D ∨ j.op = 0x0E then ([(j.dst, j.rows * b)], [])
    else ((clmRows j.dst j.rows b).map clmSpan, [])

/-- The CLM writes of row r's bytes. DESIGN CHOICE (log entry 53): with ACCTILED a ROWMAX or ROWSUM result lies as R138 places a row's chunks, at
dst + r · 256, and not as R119 places a reduction's value without it. -/
def placeClm (j : RowJob) (r : Nat) (b : List Byte) : List (Nat × List Byte) :=
  if j.f.accTiled then
    (List.range (ceilDiv b.length 256)).map fun q => (j.dst + (q * j.rows + r) * 256, (b.drop (256 * q)).take 256)
  else if j.op = 0x0D ∨ j.op = 0x0E then [(j.dst + r * b.length, b)]
  else [(j.dst + r * roundUp b.length 256, b)]

/-- The accumulator writes of row r's words. DESIGN CHOICE (log entry 152): with FROMPASS and ACCTILED, where no tiles are read, they are written
at the base in src all the same, under no limit of R139. -/
def placeAcc (j : RowJob) (r : Nat) (w : List W32) : List (Nat × Nat × List W32) :=
  let n := ceilDiv w.length 128
  (List.range n).map fun k =>
    (2, (if j.f.accTiled then j.src + k * j.rows + r else j.dst + r * n + k) * 128, (w.drop (128 * k)).take 128)

/-- The counts of slot 0 (R231). -/
def tally (slot fmt : Nat) (l : List NClass) : SlotCount :=
  let n (k : NClass) : Nat := (l.filter fun c => decide (c = k)).length
  { slot := slot, total := l.length, zero := n .zero, saturated := n .saturated, nonfinite := n .nonfinite,
    vanished := n .vanished, format := fmt }

/-- The writes and counts of the output rows. -/
def outputs (j : RowJob) (rows : List (List RV)) : List (Nat × List Byte) × List (Nat × Nat × List W32) × SlotCount :=
  let fmt := outFmtOf j.f
  let enc := rows.map fun r => r.map (rvNarrow fmt)
  let clm := if j.f.dstAcc then [] else (enc.zipIdx).flatMap fun r => placeClm j r.2 (r.1.flatMap fun v => le (outSize j.f) v.1)
  let acc := if j.f.dstAcc then (enc.zipIdx).flatMap fun r => placeAcc j r.2 (r.1.map fun v => toF32 (decF fmt v.1)) else []
  (clm, acc, tally 0 (outCode j.f) (enc.flatten.map Prod.snd))

/-! ### Issue -/

/-- CLM ranges and accumulator rows lie within their stores (R121). -/
def rangesIn (clm acc : List (Nat × Nat)) : Bool :=
  (clm.all fun r => decide (r.1 + r.2 ≤ clmSize)) && acc.all fun r => decide (r.1 + r.2 ≤ 512)
/-- Ranges in the units of R95. -/
def rangeUnits (clm acc : List (Nat × Nat)) : List (Nat × Nat × Nat) :=
  (clm.flatMap fun r => clmUnits r.1 r.2) ++ (acc.filter fun r => decide (r.2 ≠ 0)).map fun r => (2, r.1, r.2)

/-- What an RFUNC needs beside its source: CLM rows and accumulator ranges, bytes of the activation tables (log entry 151), the CLM ranges it writes beside its destination,
elements written a row, cycles, and what it computes. -/
structure RowFn where
  clm : List (Nat × Nat × Nat)
  acc : List (Nat × Nat)
  stores : List (Nat × Nat)
  extra : List (Nat × Nat)
  out : Nat
  sweeps : Nat
  rows : CoreS → List (List W32) → List (List RV)
  writes : CoreS → List (List W32) → List (Nat × List Byte)

/-- The oldest pass to the row unit is the one an RFUNC with FROMPASS names (R119). -/
def fromPassOk (x : CoreS) (j : RowJob) : Bool :=
  !j.f.fromPass || (match x.fromPass with | p :: _ => decide (p.1 = j.rows ∧ p.2.1 = j.len) | [] => false)

/-- What an RFUNC's row unit reads: rows of CLM, logical rows in the accumulator file, activation tables. -/
def rowReads (j : RowJob) (clm : List (Nat × Nat × Nat)) (acc stores : List (Nat × Nat)) : List (Nat × Nat × Nat) :=
  clm.flatMap clmParts ++
  (acc.flatMap fun a => (List.range j.rows).flatMap fun r => (List.range j.tiles).map fun k =>
    (4, j.accRow a.1 r k * 512, 4 * Nat.min 128 (j.len - 128 * k))) ++
  stores.map fun a => (6, a)

/-- The common course of every RFUNC other than CAST: the checks in the order of R108, R139 and R121, the hold of R95, the
read, and the pass that will write the results when it retires. -/
def rowUnit (s : State) (c : Nat) (x : CoreS) (j : RowJob) (whole : Bool) (g : RowFn) : Out :=
  if unitFull x 2 then .next s
  else if whole ∧ 65536 < j.len then .next (coreFault s c 0x5602 [])
  else if j.f.accTiled ∧ !j.f.fromPass ∧ ¬ (1 ≤ j.len ∧ j.len ≤ 512 ∧ 1 ≤ j.rows ∧ j.rows ≤ 128 ∧ j.src + j.tiles * j.rows ≤ 512) then
    .next (coreFault s c 0x5104 [])
  else if !fromPassOk x j then .next (instrInvalid s c)
  else
    let (rc, ra) := srcReads j
    let (wc, wa) := dstWrites j g.out
    let clm := rc ++ g.clm
    let acc := ra ++ g.acc
    let out := wc ++ g.extra
    if !rangesIn (clm.map clmSpan ++ out) (acc ++ wa) then .next (instrInvalid s c)
    else
      let reads := rangeUnits (clm.map clmSpan) acc
      let dests := rangeUnits out wa
      if held x 2 reads dests then .next s
      else afterCheck c (checkSram s c (rowReads j clm acc g.stores)) fun s =>
          let x := s.core c
          let rows := if j.len = 0 ∧ !decide (j.op = 0x0D ∨ j.op = 0x0E) then [] else inputRows x j
          let (cw, aw, n) := outputs j (g.rows x rows)
          let q : Pass := { id := x.nextId, unit := 2, writes := aw, clm := cw ++ g.writes x rows, reads := reads, dests := dests,
                            post := j.f.post, busy := j.rows * j.tiles * g.sweeps, counts := [n], skipped := false }
          let x := { x with passes := x.passes ++ [q], nextId := x.nextId + 1
                            fromPass := if j.f.fromPass then x.fromPass.drop 1 else x.fromPass }
          .next (s.setCore c ((x.addPost q.id j.f.post).advance))

/-- An RFUNC of op `op`: refused if it carries a reserved encoding; nothing in skip mode (Table 4-5). -/
def rfunc (s : State) (c : Core) (op : Nat) (f : RFuncF) (g : State → CoreS → RowJob → Out) : Out :=
  if !rfOk op f then .refused .illFormed
  else issue s c.val (rfuncWord op f) fun s x =>
    if x.inSkip then skipGo s c.val x f.post else g s x (rowJob x op f)

/-- A function of one element. -/
def mapFn (j : RowJob) (h : W32 → RV) : RowFn :=
  { clm := [], acc := [], stores := [], extra := [], out := j.len, sweeps := 1, rows := fun _ rows => rows.map fun r => r.map h, writes := fun _ _ => [] }

/-- A function of an element and the element of the second row. -/
def zipFn (j : RowJob) (h : W32 → W32 → RV) : RowFn :=
  { mapFn j rv32 with
    clm := if j.empty then [] else clmRows j.pv.toNat j.rows (4 * j.len)
    rows := fun x rows => (rows.zipIdx).map fun r => (r.1.zip (secondRow x j r.2)).map fun v => h v.1 v.2 }

/-! ### Elementwise functions -/

/-- ADD. -/
def execAdd (c : Core) (f : RFuncF) (s : State) : Out :=
  rfunc s c 0x01 f fun s x j => rowUnit s c.val x j false (zipFn j fun a b => rvExact ((ofF32 a).add (ofF32 b)))
/-- MUL. -/
def execMul (c : Core) (f : RFuncF) (s : State) : Out :=
  rfunc s c 0x02 f fun s x j => rowUnit s c.val x j false (zipFn j fun a b => rvExact ((ofF32 a).mul (ofF32 b)))
/-- SCALE: the FP32 factor in s(p)[31:0]. -/
def execScale (c : Core) (f : RFuncF) (s : State) : Out :=
  rfunc s c 0x03 f fun s x j => rowUnit s c.val x j false (mapFn j fun a => rvExact ((ofF32 a).mul (ofF32 (j.pv.setWidth 32))))
/-- MIN. -/
def execMin (c : Core) (f : RFuncF) (s : State) : Out :=
  rfunc s c 0x04 f fun s x j => rowUnit s c.val x j false (zipFn j fun a b => rv32 (fmin a b))
/-- MAX. -/
def execMax (c : Core) (f : RFuncF) (s : State) : Out :=
  rfunc s c 0x05 f fun s x j => rowUnit s c.val x j false (zipFn j fun a b => rv32 (fmax a b))
/-- EXP. -/
def execExp (c : Core) (f : RFuncF) (s : State) : Out :=
  rfunc s c 0x06 f fun s x j => rowUnit s c.val x j false (mapFn j fun a => rvFn a (fexp a))
/-- LOG. -/
def execLog (c : Core) (f : RFuncF) (s : State) : Out :=
  rfunc s c 0x07 f fun s x j => rowUnit s c.val x j false (mapFn j rvLog)
/-- RECIP. -/
def execRecip (c : Core) (f : RFuncF) (s : State) : Out :=
  rfunc s c 0x08 f fun s x j => rowUnit s c.val x j false (mapFn j fun a => rvFn a (frecip a))
/-- RSQRT. -/
def execRsqrt (c : Core) (f : RFuncF) (s : State) : Out :=
  rfunc s c 0x09 f fun s x j => rowUnit s c.val x j false (mapFn j fun a => rvFn a (frsqrt a))
/-- DIV: x × reciprocal(y). -/
def execDiv (c : Core) (f : RFuncF) (s : State) : Out :=
  rfunc s c 0x0A f fun s x j => rowUnit s c.val x j false (zipFn j rvDiv)

/-- The image of loaded table k, if one is loaded. -/
def actTable (x : CoreS) (code : Nat) : List Byte := sget [] x.acts (code - 0x10)

/-- The bytes of a loaded table that a function of elements reads: the header and lines with the function set, or all of it. -/
def tableReads (code first n : Nat) : List (Nat × Nat) := if 0x10 ≤ code then [(storeActs (code - 0x10) + first, n)] else []

/-- ACT (R106, R110). -/
def execAct (c : Core) (f : RFuncF) (s : State) : Out :=
  rfunc s c 0x0B f fun s x j =>
    let code := f.param.toNat
    if 0x10 ≤ code ∧ actTable x code = [] then .next (instrInvalid s c.val)
    else rowUnit s c.val x j false { mapFn j fun a =>
        if 0x10 ≤ code then tableVal (actTable x code) 32 a else actVal code a (j.pv.setWidth 32) with
      stores := if j.empty then [] else tableReads code 0 4128 }

/-- ACTD (R106): the parameter is in s(p + 1). A p without a next register is an invalid operand. -/
def execActd (c : Core) (f : RFuncF) (s : State) : Out :=
  rfunc s c 0x0C f fun s x j =>
    let code := f.param.toNat
    if f.p.val = 15 ∨ (0x10 ≤ code ∧ field (actTable x code) 1 1 ≠ 1) then .next (instrInvalid s c.val)
    else
      let a := (x.regs.getD (f.p.val + 1) 0).setWidth 32
      rowUnit s c.val x j false { zipFn j fun dy y =>
          if 0x10 ≤ code then rvStep ((ofF32 dy).mul (ofF32 (toF32 (tableVal (actTable x code) 4128 y).val))) else actdVal code dy y a with
        stores := if j.empty then [] else tableReads code 0 32 ++ tableReads code 4128 4096 }

/-! ### Reductions and pooling -/

/-- A reduction: one element a row; of an empty row, its value (R130). -/
def reduceFn (j : RowJob) (onEmpty : RV) (h : List W32 → RV) : RowFn :=
  { mapFn j rv32 with out := 1, rows := fun _ rows => rows.map fun r => [if r = [] then onEmpty else h r] }

/-- The pad register's pattern as FP32 (R131). -/
def padWord (x : CoreS) (f : RFuncF) : W32 := x.pads.getD f.pad.val 0

/-- A ROWMAX or ROWSUM with every flag clear reads the convolution block: it pools while the mode byte is POOL. -/
def poolable (f : RFuncF) : Bool := !(f.srcAcc || f.dstAcc || f.accTiled || f.fromPass)

/-- ROWMAX and ROWSUM outside POOL mode; a reserved mode byte breaks Table 10-1. -/
def reduceOp (s : State) (c : Nat) (x : CoreS) (j : RowJob) (g : RowFn) : Out :=
  if poolable j.f ∧ held x 2 (clmUnits convBlockAt 64) [] then .next s
  else if !poolable j.f then rowUnit s c x j true g
  else afterCheck c (readOnce s 2 c convBlockAt 64) fun s =>
    if 3 ≤ cvMode x.conv then .next (filterLimit s c (reservedMode x.conv).1 (reservedMode x.conv).2)
    else if cvMode x.conv = 2 then .next s
    else rowUnit s c x j true g

/-- ROWMAX (R103, R130). -/
def execRowmax (c : Core) (f : RFuncF) (s : State) : Out :=
  rfunc s c 0x0D f fun s x j => reduceOp s c.val x j (reduceFn j (rv32 (padWord x f)) fun r => rv32 (rowMax r))
/-- ROWSUM (R103, R130). -/
def execRowsum (c : Core) (f : RFuncF) (s : State) : Out :=
  rfunc s c 0x0E f fun s x j => reduceOp s c.val x j (reduceFn j (rv32 0) rvSum)

/-- The FP32 value of a plane element or pad pattern in a pooling format. -/
def poolVal (fmt : Nat) (v : Nat) : W32 :=
  match fmt with
  | 1 => toF32 (decF .bf16 (v % 65536))
  | 2 => toF32 (decF .fp16 (v % 65536))
  | _ => BitVec.ofNat 32 v

/-- A pooling instruction (R306): planes as read by the window former of channel c0, one output a row. -/
def poolOp (s : State) (c : Nat) (x : CoreS) (j : RowJob) (h : Bool → List W32 → List Bool → RV) : Out :=
  if !poolable j.f ∨ unitFull x 2 then .next s
  else if held x 2 (clmUnits convBlockAt 64) [] then .next s
  else afterCheck c (readOnce s 2 c convBlockAt 64) fun s =>
  if cvMode x.conv ≠ 2 then .next s
  else
    let b := x.conv
    let fmt := j.f.param.toNat % 16
    let size := if fmt = 3 then 4 else 2
    match convFail b j.rows size true (decide (1 ≤ fmt ∧ fmt ≤ 3)) j.len with
    | some (off, v) => .next (filterLimit s c off v)
    | none =>
      let out := if j.rows = 0 then [] else [(j.dst, j.rows * outSize j.f)]
      if !rangesIn out [] then .next (instrInvalid s c)
      else
        let clm := (List.range j.rows).flatMap fun r => (List.range j.len).filterMap fun k =>
          (tapAt b (field b 48 4 + r) (field b 56 2 + k)).map fun p => (planeAt b (field b 52 2) size p, size)
        let reads := rangeUnits clm []
        let dests := rangeUnits out []
        if held x 2 reads dests then .next s
        else afterCheck c (checkRanges s c clm) fun s =>
            let x := s.core c
            let taps (r : Nat) : List (Option (Nat × Nat × Nat)) :=
              (List.range j.len).map fun k => tapAt b (field b 48 4 + r) (field b 56 2 + k)
            let pad := poolVal fmt (x.pads.getD (cvPad b) 0).toNat
            let val (t : Option (Nat × Nat × Nat)) : W32 :=
              match t with
              | none => pad
              | some p => poolVal fmt (ofLe (x.clmBytes (planeAt b (field b 52 2) size p) size))
            let valid := Nat.testBit (field b 2 1) 0
            let rows := (List.range j.rows).map fun r => [h valid ((taps r).map val) ((taps r).map Option.isSome)]
            let (cw, aw, n) := outputs j rows
            let q : Pass := { id := x.nextId, unit := 2, writes := aw, clm := cw, reads := reads, dests := dests,
                              post := j.f.post, busy := j.rows * ceilDiv j.len 128, counts := [n], skipped := false }
            .next (s.setCore c (({ x with passes := x.passes ++ [q], nextId := x.nextId + 1 }.addPost q.id j.f.post).advance))

/-- ROWMAX in POOL mode (R306). -/
def execPoolRowmax (c : Core) (f : RFuncF) (s : State) : Out :=
  rfunc s c 0x0D f fun s x j => poolOp s c.val x j fun _ v _ => rv32 (rowMax v)
/-- ROWSUM in POOL mode (R306): sum × reciprocal(d). -/
def execPoolRowsum (c : Core) (f : RFuncF) (s : State) : Out :=
  rfunc s c 0x0E f fun s x j => poolOp s c.val x j fun valid v inside =>
    let d := if valid then (inside.filter id).length else v.length
    if d = 0 then rv32 0 else rvOf v (exactSum v).isZero (fmul (rowSum v) (frecip (fOfInt d)))

/-! ### Softmax, attention phases, normalisation -/

/-- SOFTMAX or SOFTMAXD with phase `phase` of the attention block, 0 for the plain function. An instruction whose block
names another phase of the same op is not this command; a block that breaks R276 is an invalid operand, taken up by the
command of phase 0. -/
def inPhase (s : State) (c : Nat) (x : CoreS) (j : RowJob) (phase : Nat) (mine : List Nat) (f : State → List Byte → Out) : Out :=
  if held x 2 (clmUnits attnAt 64) [] then .next s
  else afterCheck c (readOnce s 2 c attnAt 64) fun s =>
    let b := x.attn
    if atPhase b = 0 then (if phase = 0 then f s b else .next s)
    else if !attnOk b ∨ !decide (atPhase b ∈ mine) ∨ j.f.accTiled ≠ decide (atPhase b ≠ 3) ∨ 128 < atBase b + j.rows then
      (if phase = 0 then .next (instrInvalid s c) else .next s)
    else if atPhase b = phase then f s b else .next s

/-- The row-table entries of the instruction's rows: bytes o to o + n − 1 of each. -/
def entryWrites (j : RowJob) (b : List Byte) (o : Nat) (v : Nat → List W32) : List (Nat × List Byte) :=
  (List.range j.rows).map fun r => (attnTable + 32 * (atBase b + r) + o, (v r).flatMap fun w => le 4 w.toNat)
/-- Their range. -/
def entryRange (j : RowJob) (b : List Byte) : List (Nat × Nat) :=
  if j.empty then [] else [(attnTable + 32 * atBase b, 32 * j.rows)]
def tableEntries (j : RowJob) (b : List Byte) : List (Nat × Nat × Nat) := (entryRange j b).map fun r => (r.1, 1, r.2)

/-- SOFTMAX with phase OFF (R107). -/
def execSoftmax (c : Core) (f : RFuncF) (s : State) : Out :=
  rfunc s c 0x0F f fun s x j =>
    inPhase s c.val x j 0 [1, 2] fun s _ =>
      rowUnit s c.val x j true { mapFn j rv32 with sweeps := 3, rows := fun _ rows => rows.map softmaxRow }
/-- SOFTMAXD with phase OFF: y ⊙ (dy − s). -/
def execSoftmaxd (c : Core) (f : RFuncF) (s : State) : Out :=
  rfunc s c 0x10 f fun s x j =>
    inPhase s c.val x j 0 [3, 4] fun s _ =>
      rowUnit s c.val x j false { zipFn j (fun a _ => rv32 a) with
        sweeps := 2, rows := fun x rows => (rows.zipIdx).map fun r => softmaxdRow r.1 (secondRow x j r.2) }

/-- STATS (R278). -/
def execStats (c : Core) (f : RFuncF) (s : State) : Out :=
  rfunc s c 0x0F f fun s x j =>
    inPhase s c.val x j 1 [1, 2] fun s b =>
      rowUnit s c.val x j false { mapFn j rv32 with
        clm := tableEntries j b, extra := entryRange j b, out := 0, sweeps := 2, rows := fun _ _ => []
        writes := fun x rows => entryWrites j b 0 fun r =>
          let (m, s, l) := statsRow b (x.attnRow (atBase b + r)) (rows.getD r [])
          [m, s, l] }

/-- OUTPUT (R279). -/
def execOutput (c : Core) (f : RFuncF) (s : State) : Out :=
  rfunc s c 0x0F f fun s x j =>
    inPhase s c.val x j 2 [1, 2] fun s b =>
      rowUnit s c.val x j false { mapFn j rv32 with
        clm := tableEntries j b
        rows := fun x rows => (rows.zipIdx).map fun r => outputRow b (x.attnRow (atBase b + r.2)) r.1 }

/-- DELTA (R280): the row length must be d. A sum that is zero is +0 (R284). -/
def execDelta (c : Core) (f : RFuncF) (s : State) : Out :=
  rfunc s c 0x10 f fun s x j =>
    inPhase s c.val x j 3 [3, 4] fun s b =>
      if j.len ≠ atDim b then .next (instrInvalid s c.val)
      else
        let z := zipFn j fun a _ => rv32 a
        rowUnit s c.val x j false { z with
          clm := z.clm ++ tableEntries j b, extra := entryRange j b, out := 0, sweeps := 2, rows := fun _ _ => []
          writes := fun x rows => entryWrites j b 12 fun r =>
            [fadd 0 <| rowSum (((rows.getD r []).zip (secondRow x j r)).map fun v => fmul v.1 v.2)] }

/-- GRAD (R281): score tiles that overlap the tiles at src, or pass row 511, are an invalid operand. -/
def execGrad (c : Core) (f : RFuncF) (s : State) : Out :=
  rfunc s c 0x10 f fun s x j =>
    inPhase s c.val x j 4 [3, 4] fun s b =>
      let n := j.tiles * j.rows
      let base := atScore b
      if n ≠ 0 ∧ ((!f.fromPass ∧ base < j.src + n ∧ j.src < base + n) ∨ 512 < base + n) then .next (instrInvalid s c.val)
      else rowUnit s c.val x j false { mapFn j rv32 with
        clm := tableEntries j b, acc := [(base, n)], sweeps := 2
        rows := fun x rows => (rows.zipIdx).map fun r =>
          gradRow b (x.attnRow (atBase b + r.2)) r.1 (accWords x j base r.2) }

/-- ε and ℓ of LNORM and RMSNORM, and the addresses of γ and β. -/
def normFn (x : CoreS) (j : RowJob) (words sweeps : Nat) (h : W32 → W32 → List W32 → List W32 → List W32 → List RV) : RowFn :=
  let g := (x.regs.getD (j.f.p.val + 1) 0).toNat
  { mapFn j rv32 with
    clm := if j.empty then [] else [(g, 1, 4 * words * j.len)]
    sweeps := sweeps
    rows := fun x rows =>
      let gs := x.words g j.len
      let bs := if words = 2 then x.words (g + 4 * j.len) j.len else []
      rows.map fun r => h (j.pv.setWidth 32) ((j.pv >>> 32).setWidth 32) gs bs r }

/-- LNORM (R107). -/
def execLnorm (c : Core) (f : RFuncF) (s : State) : Out :=
  rfunc s c 0x11 f fun s x j =>
    if f.p.val = 15 then .next (instrInvalid s c.val) else rowUnit s c.val x j true (normFn x j 2 3 lnormRow)
/-- RMSNORM (R107). -/
def execRmsnorm (c : Core) (f : RFuncF) (s : State) : Out :=
  rfunc s c 0x12 f fun s x j =>
    if f.p.val = 15 then .next (instrInvalid s c.val)
    else rowUnit s c.val x j true (normFn x j 1 2 fun e l g _ r => rmsnormRow e l g r)

end Sys2Proof.Machine
end

