-- ==== Sys2Proof/Machine/Cast.lean ====
section
/-!
DEFINITION. CAST (chapter 7): control word and operands (Tables 7-4 to 7-6), square-block scales and block records
(R214 to R222), MX blocks (R223 to R225), stochastic rounding (R211, R256 to R258) and counting (R230).
-/
namespace Sys2Proof.Machine

/-! ### Noise (R258) -/

def rotl32 (v : W32) (k : Nat) : W32 := v.rotateLeft k
def noiseRa : List Nat := [13, 17, 5, 29, 11, 19, 7, 23, 3, 27]
def noiseRb : List Nat := [21, 9, 27, 15, 25, 3, 19, 11, 29, 7]

/-- One round on the four words. -/
def noiseRound (k0 k1 : W32) (x : W32 × W32 × W32 × W32) (i : Nat) : W32 × W32 × W32 × W32 :=
  let n := BitVec.ofNat 32 i
  let x0 := (x.1 ^^^ (k0 + n * 0x9E3779B1#32)) * 0xCC9E2D51#32
  let x2 := (x.2.2.1 ^^^ (k1 + n * 0x85EBCA77#32)) * 0x1B873593#32
  let x1 := x.2.1 + rotl32 x0 (noiseRa.getD i 0)
  let x3 := x.2.2.2 + rotl32 x2 (noiseRb.getD i 0)
  (x1, x2 ^^^ x1, x3, x0 ^^^ x3)

/-- The noise word of seed and counter words. -/
def noise (seed : W64) (c0 c1 c2 c3 : W32) : W32 :=
  let r := (List.range 10).foldl (noiseRound (seed.setWidth 32) ((seed >>> 32).setWidth 32)) (c0, c1, c2, c3)
  r.1 ^^^ r.2.2.1

/-- The noise record of a counter slot (Table 8-6). -/
def noiseAt (slot : Nat) : Nat := 0x3FC000 + 32 * slot
/-- Logical index of element (i, j). -/
def noiseIndex (b : List Byte) (i j : Nat) : Nat := field b 8 6 + i * field b 16 6 + j
/-- The noise word of an element. -/
def noiseOf (seed : W64) (b : List Byte) (i j : Nat) : Nat :=
  let n := noiseIndex b i j
  (noise seed (BitVec.ofNat 32 n) (BitVec.ofNat 32 (field b 24 2 * 65536 + n / 2 ^ 32)) (BitVec.ofNat 32 (field b 0 4))
    (BitVec.ofNat 32 (field b 4 4))).toNat

/-! ### Control word (Table 7-4) -/

def ccDest (w : W64) : Nat := bits w.toNat 3 0
def ccKind (w : W64) : Nat := bits w.toNat 5 4
/-- 0 NONE, 1 FIXED, 2 CURRENT, 3 DELAYED. -/
def ccScaling (w : W64) : Nat := bits w.toNat 7 6
def ccAmax (w : W64) : Bool := w.getLsbD 8
def ccMargin (w : W64) : Nat := bits w.toNat 11 9
def ccSlot (w : W64) : Nat := bits w.toNat 17 12
def ccZero (w : W64) : Int := signed 8 (bits w.toNat 25 18)

def isFloat (k : Nat) : Bool := decide (1 ≤ k ∧ k ≤ 3)

/-- The control word obeys Tables 7-4 and 7-6 with this input code, rounding code and row length. -/
def ccOk (w : W64) (inp rm len : Nat) : Bool :=
  let d := ccDest w
  let sc := ccScaling w
  decide (bits w.toNat 63 26 = 0) && decide (d ∈ [1, 2, 3, 4, 5, 6, 8, 9]) &&
    decide (ccKind w = 0 ∨ (d = 8 ∧ ccKind w = 1)) && (!ccAmax w || decide (sc = 2)) &&
    decide (ccMargin w = 0 ∨ sc = 3) && decide (ccZero w = 0 ∨ inp = 6 ∨ d = 6) &&
    (if isFloat d then
      (if isFloat inp then decide (sc = 0) && decide (rm = 0 ∨ d ≠ 3) else decide (sc = 1) && decide (rm = 0))
    else if !isFloat inp then false
    else if d = 4 ∨ d = 5 then decide (sc ≠ 0)
    else if d = 6 then decide (sc = 1) && decide (rm ≤ 3)
    else decide (sc = 0) && decide (rm = 0) && (decide (d = 8) || decide (len % 2 = 0)))

/-- Operands of Table 7-5. -/
structure CastArgs where
  grid : Nat
  records : Nat
  r0 : Nat
  k0 : Nat
  g : Nat
  tag : W32
deriving DecidableEq, Repr

def castArgs (x : CoreS) (p : Nat) : CastArgs :=
  let r (i : Nat) : Nat := (x.regs.getD (p + i) 0).toNat
  { grid := bits (r 1) 31 0, records := bits (r 1) 63 32, r0 := bits (r 2) 31 0, k0 := bits (r 2) 63 32,
    g := bits (r 3) 15 0, tag := BitVec.ofNat 32 (bits (r 3) 63 32) }

/-- The operands obey Table 7-5. -/
def castArgsOk (x : CoreS) (p : Nat) : Bool :=
  let a := castArgs x p
  decide (a.grid % 4 = 0) && decide (a.records % 16 = 0) && decide (a.k0 % 128 = 0) && decide (a.g ≠ 0) &&
    decide (bits (x.regs.getD (p + 3) 0).toNat 31 16 = 0)

/-! ### Elements -/

/-- Bytes of n elements in a mover code's format. -/
def codeBytes (k n : Nat) : Nat :=
  match k with
  | 1 => 2 * n | 2 => 2 * n | 3 => 4 * n
  | 9 => n / 2
  | _ => n

/-- The floating format of a mover code. -/
def codeFmt (k kind : Nat) : EFmt :=
  match k with
  | 1 => .bf16 | 2 => .fp16 | 3 => .f32 | 4 => .e4m3 | 5 => .e5m2
  | 9 => .e2m1
  | _ => if kind = 1 then .e5m2 else .e4m3

/-- Element k of an input row. -/
def castElem (inp : Nat) (z : Int) (b : List Byte) (k : Nat) : FNum :=
  match inp with
  | 1 => decF .bf16 (field b (2 * k) 2)
  | 2 => decF .fp16 (field b (2 * k) 2)
  | 3 => decF .f32 (field b (4 * k) 4)
  | 4 => decF .e4m3 (field b k 1)
  | 5 => decF .e5m2 (field b k 1)
  | _ => let v := fieldI b k 1 - z; .fin (decide (v < 0)) v.natAbs 0

def rmodeOf (rm n : Nat) : RMode :=
  match rm with
  | 1 => .rtz | 2 => .rdn | 3 => .rup | 4 => .sr n
  | _ => .rne

/-- Whether a conversion narrows (R230). -/
def narrows (inp dst : Nat) : Bool :=
  match inp with
  | 3 => decide (dst ≠ 3)
  | 1 => decide (dst ≠ 1 ∧ dst ≠ 3)
  | 2 => decide (dst ≠ 2 ∧ dst ≠ 3)
  | _ => false

/-- Round an exact value to an integer in a mode. -/
def roundInt (mode : RMode) (neg : Bool) (m : Nat) (e : Int) : Int :=
  let (n, d) := fracOf m e
  let q := n / d
  let v : Nat := if roundsUp mode neg q (n % d) d then q + 1 else q
  if neg then -(v : Int) else v

/-- INT8 narrowing of x · 2^−E with zero point z (R210, R212, R215): the code byte and the class. -/
def toInt8 (mode : RMode) (x : FNum) (z : Int) : Nat × NClass :=
  match x with
  | .nan => (unsigned 8 z, .nonfinite)
  | .inf neg => (if neg then 0x80 else 0x7F, .nonfinite)
  | .fin neg m e =>
    let v := roundInt mode neg m e + z
    if m = 0 then (unsigned 8 z, .zero)
    else if v < -128 then (0x80, .saturated)
    else if 127 < v then (0x7F, .saturated)
    else (unsigned 8 v, if v = z then .vanished else .ok)

/-! ### Scales (R214 to R219) -/

/-- The exponent of a positive power of two from 2^−126 to 2^127, if the pattern is one. -/
def scaleExp (v : W32) : Option Int :=
  let e : Nat := v.toNat / 2 ^ 23
  if v.toNat % 2 ^ 23 = 0 ∧ 1 ≤ e ∧ e ≤ 254 then some ((e : Int) - 127) else none
def scaleBits (e : Int) : W32 := BitVec.ofNat 32 ((e + 127).toNat * 2 ^ 23)
def clampExp (lo hi e : Int) : Int := if e < lo then lo else if hi < e then hi else e

/-- E(amax) for a positive finite amax (R216); the exponent for one that is not finite is not stated (log entry 26). -/
def expOfAmax (dst : Nat) (amax : W32) : Int :=
  match ofF32 amax with
  | .fin _ m e =>
    let (n, d) := fracOf m e
    let k := floorLog2 n d
    let small := FNum.le (.fin false m e) (.fin false 7 (k - 2))
    clampExp (-126) 127 (k - (if dst = 4 then 8 else 15) + if small then 0 else 1)
  | _ => ((Config.rowFn 0x213 [amax]).toNat % 254 : Nat) - 126

/-- A block record (Table 7-3). -/
structure BlockRec where
  scale : W32
  amax : W32
  tag : W32
  overflow : Bool
deriving DecidableEq, Repr

def blockRec (x : CoreS) (a : Nat) : BlockRec :=
  { scale := x.word a, amax := x.word (a + 4), tag := x.word (a + 8), overflow := (x.word (a + 12)).getLsbD 0 }
def BlockRec.bytes (r : BlockRec) : List Byte :=
  le 4 r.scale.toNat ++ le 4 r.amax.toNat ++ le 4 r.tag.toNat ++ le 4 (if r.overflow then 1 else 0)

/-- Promotion under DELAYED (R219) of a record whose scale is 2^E. -/
def promote (dst margin : Nat) (r : BlockRec) (e : Int) : Int :=
  if r.overflow then clampExp (-126) 127 (e + 1)
  else if fgt0 r.amax ∧ expOfAmax dst r.amax + margin < e then clampExp (-126) 127 (e - 1)
  else e

/-- A block of a CAST: its number, the rows and elements it covers, its scale exponent and its record. -/
structure Blk where
  b : Nat
  e : Int
  kept : BlockRec
deriving DecidableEq, Repr

/-- The scale and record of block b before its elements, or the pattern of a rejected scale (R214, R218, R221). -/
def openBlock (x : CoreS) (w : W64) (a : CastArgs) (b : Nat) : Except W32 Blk :=
  let r := blockRec x (a.records + 16 * b)
  let fresh : BlockRec := { r with amax := 0, overflow := false, tag := a.tag }
  match ccScaling w with
  | 1 =>
    let v := x.word (a.grid + 4 * b)
    match scaleExp v with
    | some e => .ok { b := b, e := e, kept := r }
    | none => .error v
  | 2 =>
    if ccAmax w then .ok { b := b, e := 0, kept := if r.tag = a.tag then r else fresh }
    else if r.tag ≠ a.tag then .error r.scale
    else
      let e := if (ofF32 r.amax).isZero then 0 else expOfAmax (ccDest w) r.amax
      .ok { b := b, e := e, kept := { r with scale := scaleBits e } }
  | _ =>
    match scaleExp r.scale with
    | none => .error r.scale
    | some e =>
      if r.tag = a.tag then .ok { b := b, e := e, kept := r }
      else
        let e := promote (ccDest w) (ccMargin w) r e
        .ok { b := b, e := e, kept := { fresh with scale := scaleBits e } }

/-- Open the blocks in order; the first rejected scale stops. -/
def openBlocks (x : CoreS) (w : W64) (a : CastArgs) : List Nat → Except W32 (List Blk)
  | [] => .ok []
  | b :: r =>
    match openBlock x w a b with
    | .error v => .error v
    | .ok k =>
      match openBlocks x w a r with
      | .error v => .error v
      | .ok l => .ok (k :: l)

/-- |x| as FP32 for a finite input; inputs are exact in FP32. -/
def magnitude (x : FNum) : W32 :=
  match x with
  | .fin _ m e => toF32 (.fin false m e)
  | _ => 0

/-- The larger amax. -/
def maxMag (a : W32) (x : FNum) : W32 := if FNum.lt (ofF32 a) (ofF32 (magnitude x)) then magnitude x else a

/-! ### One element, one MX block -/

/-- A narrowed or widened element with scale exponent e: its encoding and class. -/
def castOne (w : W64) (inp rm : Nat) (e : Int) (noiseWord : Nat) (x : FNum) : Nat × NClass :=
  let d := ccDest w
  let mode := rmodeOf rm noiseWord
  if d = 6 then toInt8 mode (x.mul (.fin false 1 (-e))) (ccZero w)
  else if isFloat d then
    (if isFloat inp then narrow (codeFmt d 0) mode x else narrow (codeFmt d 0) .rne (x.mul (.fin false 1 e)))
  else narrow (codeFmt d 0) mode (x.mul (.fin false 1 (-e)))

/-- An MX block (R223, R224): scale byte and elements. -/
def mxBlock (w : W64) (xs : List FNum) : Byte × List (Nat × NClass) :=
  let f := codeFmt (ccDest w) (ccKind w)
  if xs.any fun x => !x.isFinite then (0xFF#8, xs.map fun _ => (0, .nonfinite))
  else
    let a := xs.foldl maxMag 0
    let k : Int := match ofF32 a with
      | .fin _ m e => if m = 0 then 0 else (let (n, d) := fracOf m e; floorLog2 n d)
      | _ => 0
    let top : Int := if f = .e4m3 then 8 else if f = .e5m2 then 15 else 2
    let x := clampExp (-127) 127 (k - top)
    if (ofF32 a).isZero then (0#8, xs.map (narrow f .rne))
    else (BitVec.ofNat 8 (x + 127).toNat, xs.map fun v => narrow f .rne (v.mul (.fin false 1 (-x))))

/-- Parts of a list, n at a time. -/
def chunksOf {α : Type} (n : Nat) (l : List α) : List (List α) :=
  (List.range (ceilDiv l.length n)).map fun k => (l.drop (n * k)).take n

/-- Bytes of encoded elements of a mover code. -/
def packCodes (d : Nat) (v : List Nat) : List Byte :=
  if d = 9 then (chunksOf 2 v).map fun p => BitVec.ofNat 8 (p.getD 0 0 + 16 * p.getD 1 0)
  else v.flatMap (le (codeBytes d 1))

/-! ### The instruction -/

/-- SCALE_INVALID: the first of the run is recorded (R214). -/
def scaleInvalid (s : State) (c : Nat) (v : W32) : State :=
  let s := if s.ent 0x7019 1 = 0xFFFF then (s.setEnt 0x7019 1 c).setEnt 0x7019 2 v.toNat else s
  coreFault s c 0x7103 []

/-- A record set OVERFLOW (R220). -/
def noteOverflow (s : State) (c slot b : Nat) : State :=
  let s := { s with run := { s.run with blockCount := s.run.blockCount + 1 } }
  if s.run.blockRaised then s
  else { s with run := { s.run with blockRaised := true, blockCore := c, blockIndex := b } }.raise 0x7101 [(2, c), (1, slot), (4, b)]

/-- A list without repeats, each element at its first place. -/
def firsts : List Nat → List Nat
  | [] => []
  | a :: r => a :: (firsts r).filter fun b => decide (b ≠ a)

/-- The blocks that rows r0 to r0 + R − 1 and columns k0 to k0 + L − 1 touch, in element order, each once. -/
def castBlocks (a : CastArgs) (rows len : Nat) : List Nat :=
  if rows = 0 ∨ len = 0 then [] else
  firsts <| (List.range ((a.r0 + rows - 1) / 128 - a.r0 / 128 + 1)).flatMap fun i =>
    (List.range (ceilDiv len 128)).map fun q => (a.r0 / 128 + i) * a.g + a.k0 / 128 + q

/-- The CLM writes of row r's output bytes from offset o of the row. -/
def castPlace (j : RowJob) (r : Nat) (b : List Byte) : List (Nat × List Byte) :=
  (chunksOf 256 b).zipIdx.map fun q =>
    (if j.f.accTiled then j.dst + (q.2 * j.rows + r) * 256 else j.dst + r * roundUp b.length 256 + q.2 * 256, q.1)

/-- CAST (R226 to R228). -/
def execCast (c : Core) (f : RFuncF) (s : State) : Out :=
  if !castFieldsOk f then .refused .illFormed
  else issue s c.val (rfuncWord 0x13 f) fun s x =>
    let j := rowJob x 0x13 f
    let inp := f.param.toNat % 16
    let rm := f.param.toNat / 16
    let w := j.pv
    let d := ccDest w
    let sc := ccScaling w
    let p := f.p.val
    if x.inSkip then skipGo s c.val x f.post
    else if unitFull x 2 then .next s
    else if f.accTiled ∧ !f.fromPass ∧ ¬ (1 ≤ j.len ∧ j.len ≤ 512 ∧ 1 ≤ j.rows ∧ j.rows ≤ 128 ∧ j.src + j.tiles * j.rows ≤ 512) then
      .next (coreFault s c.val 0x5104 [])
    else if 12 < p ∨ !ccOk w inp rm j.len ∨ (sc ≠ 0 ∧ !castArgsOk x p) ∨ !fromPassOk x j then .next (instrInvalid s c.val)
    else
      let a := castArgs x p
      let amaxOnly := ccAmax w
      let inB := codeBytes inp j.len
      let outB := codeBytes d j.len
      let isMx := decide (d = 8 ∨ d = 9)
      let (rows_, ra) : List (Nat × Nat × Nat) × List (Nat × Nat) :=
        if j.empty ∨ f.fromPass then ([], [])
        else if f.srcAcc || f.accTiled then ([], [(j.src, j.rows * j.tiles)])
        else (clmRows j.src j.rows inB, [])
      let rc := rows_.map clmSpan
      let span : Nat := if f.accTiled then (ceilDiv outB 256 * j.rows - 1) * 256 + (outB - (ceilDiv outB 256 - 1) * 256)
        else (j.rows - 1) * roundUp outB 256 + outB
      let wc : List (Nat × Nat) := if j.empty ∨ amaxOnly then [] else [(j.dst, span)]
      let b0 := a.r0 / 128 * a.g + a.k0 / 128
      let bn := (a.r0 + j.rows - 1) / 128 * a.g + a.k0 / 128 + ceilDiv j.len 128
      let grid : List (Nat × Nat) := if j.empty ∨ sc = 0 ∨ amaxOnly then [] else [(a.grid + 4 * b0, 4 * (bn - b0))]
      let recs : List (Nat × Nat) := if j.empty ∨ sc < 2 then [] else [(a.records + 16 * b0, 16 * (bn - b0))]
      let shadow : List (Nat × Nat) := if isMx ∧ !j.empty then [(0x3C0000 + j.dst / 16, ceilDiv span 16 + 16)] else []
      let noiseR : List (Nat × Nat) := if rm = 4 ∧ !j.empty then [(noiseAt (ccSlot w), 32)] else []
      let mxOk := !isMx || j.empty || (decide (j.dst % 256 = 0) && decide (j.dst + span ≤ 0x3C0000))
      if !rangesIn (rc ++ wc ++ grid ++ recs) ra ∨ !mxOk then .next (instrInvalid s c.val)
      else if held x 2 (rangeUnits (rc ++ noiseR ++ grid ++ recs) ra) (rangeUnits (wc ++ grid ++ recs ++ shadow) []) then .next s
      else afterCheck c.val (checkSram s c.val (rowReads j rows_ ra [] ++ (noiseR ++ grid ++ recs).map fun r => (2, r))) fun s =>
          let x := s.core c.val
          let nb := x.clmBytes (noiseAt (ccSlot w)) 32
          if rm = 4 ∧ !j.empty ∧ (field nb 24 2 = 0 ∨ 2 ^ 48 ≤ noiseIndex nb (j.rows - 1) (j.len - 1)) then .next (instrInvalid s c.val)
          else match openBlocks x w a (if sc = 0 then [] else castBlocks a j.rows j.len) with
            | .error v => .next (scaleInvalid s c.val v)
            | .ok blocks =>
              let seed := BitVec.ofNat 64 (s.ent 0x7220 1)
              let rows : List (List FNum) :=
                if j.empty then []
                else if f.fromPass || f.srcAcc || f.accTiled then (inputRows x j).map fun r => r.map ofF32
                else (List.range j.rows).map fun r =>
                  let b := x.clmBytes (j.src + r * roundUp inB 256) inB
                  (List.range j.len).map fun k => castElem inp (ccZero w) b k
              let blockOf (i q : Nat) : Nat := (a.r0 + i) / 128 * a.g + a.k0 / 128 + q
              let expOf (i k : Nat) : Int :=
                match blocks.find? fun b => decide (b.b = blockOf i (k / 128)) with
                | some b => b.e
                | none => 0
              let enc : List (List (Nat × NClass)) := if amaxOnly ∨ isMx then [] else
                (rows.zipIdx).map fun r => (r.1.zipIdx).map fun v =>
                  castOne w inp rm (expOf r.2 v.2) (if rm = 4 then noiseOf seed nb r.2 v.2 else 0) v.1
              let mx : List (List (Byte × List (Nat × NClass))) := if isMx then rows.map fun r => (chunksOf 32 r).map (mxBlock w) else []
              let enc := if isMx then mx.map fun r => r.flatMap Prod.snd else enc
              let out := (enc.zipIdx).flatMap fun r => castPlace j r.2 (packCodes d (r.1.map Prod.fst))
              let per := if d = 9 then 16 else 8
              let shadows := (mx.zipIdx).flatMap fun r =>
                (chunksOf per (r.1.map Prod.fst)).zipIdx.map fun q =>
                  let at_ := if f.accTiled then j.dst + (q.2 * j.rows + r.2) * 256 else j.dst + r.2 * roundUp outB 256 + q.2 * 256
                  (0x3C0000 + at_ / 16, q.1)
              let grids := if amaxOnly then [] else blocks.map fun b => (a.grid + 4 * b.b, le 4 (scaleBits b.e).toNat)
              let elemsOf (b : Nat) : List (FNum × NClass) :=
                (rows.zipIdx).flatMap fun r =>
                  let q := b - ((a.r0 + r.2) / 128 * a.g + a.k0 / 128)
                  if blockOf r.2 q = b ∧ q < ceilDiv j.len 128 then
                    let xs := (r.1.drop (128 * q)).take 128
                    let cs := ((enc.getD r.2 []).drop (128 * q)).take 128
                    (xs.zipIdx).map fun v => (v.1, (cs.getD v.2 (0, .ok)).2)
                  else []
              let closed : List (Blk × BlockRec × Bool) := if sc < 2 then [] else blocks.map fun b =>
                let es := elemsOf b.b
                let sat := es.any fun e => decide (e.2 = .saturated)
                let top := es.foldl (fun m e => if e.1.isFinite then maxMag m e.1 else m) b.kept.amax
                (b, { b.kept with amax := top, overflow := b.kept.overflow || sat }, !b.kept.overflow && sat)
              let recW := closed.map fun k => (a.records + 16 * k.1.b, k.2.1.bytes)
              let s := closed.foldl (fun s k => if k.2.2 then noteOverflow s c.val (ccSlot w) k.1.b else s) s
              let x := s.core c.val
              let counts := if narrows inp d ∧ ccSlot w ≠ 0 then [tally (ccSlot w) d (enc.flatten.map Prod.snd)] else []
              let q : Pass := { id := x.nextId, unit := 2, writes := [], clm := out ++ shadows ++ grids ++ recW,
                                reads := rangeUnits (rc ++ noiseR ++ grid ++ recs) ra,
                                dests := rangeUnits (wc ++ grid ++ recs ++ shadow) [], post := f.post, busy := j.rows * j.tiles,
                                counts := counts, skipped := false }
              let x := { x with passes := x.passes ++ [q], nextId := x.nextId + 1
                                fromPass := if f.fromPass then x.fromPass.drop 1 else x.fromPass }
              .next (s.setCore c.val ((x.addPost q.id f.post).advance))

end Sys2Proof.Machine
end

