-- ==== Sys2Proof/Machine/Mover.lean ====
section
/-!
DEFINITION. The tensor mover and SHAPE (chapter 6; R124, R126, R292, R293): global addresses, the checks of a descriptor, reading,
casting, committing, requests to other modules and their answers.
-/
namespace Sys2Proof.Machine

/-! ### Global addresses (R171 to R174, R201) -/

def gDev (g : Nat) : Nat := g / 2 ^ 48
def gLocal (g : Nat) : Nat := g % 2 ^ 48

/-- Where n bytes at local address a of a device are reached: `none` for an ADDRESS_FAULT; the own module; or another device
(`0xFFFF` for the host, with a host offset). -/
inductive Side where
  | bad
  | own (a : Nat)
  | far (dev : Nat) (a : Nat)
deriving DecidableEq, Repr

def resolve (s : State) (dev a n : Nat) (write : Bool) : Side :=
  if 319 < courseOf dev then .bad
  else if dev = s.device then
    match placeOf a n with
    | .hbm => .own a
    | .clm _ _ => .own a
    | .wide _ _ => .own a
    | .host h => if s.isBridge then .far 0xFFFF h else .bad
    | .dictionary o => if (if write then mapWritable o n else mapReadable o n) then .own a else .bad
    | .reserved => .bad
  else
    match placeOf a n with
    | .hbm => .far dev a
    | .clm _ _ => .far dev a
    | .wide _ _ => .far dev a
    | .host h => if courseOf dev = courseOf s.device ∧ bridgePosition s = some (positionOf dev) then .far 0xFFFF h else .bad
    | _ => .bad

/-- A remote side (R187): another module, or the host window. -/
def isFar (s : State) (dev a : Nat) : Bool :=
  decide (dev ≠ s.device) || (match placeOf a 1 with | .host _ => true | _ => false)

/-! ### The descriptor (Table 6-3) -/

def mvOp (d : List Byte) : Nat := field d 1 1
def mvSrcFmt (d : List Byte) : Nat := field d 2 1 % 16
def mvExp (d : List Byte) : Nat := field d 2 1 / 16
def mvDstFmt (d : List Byte) : Nat := field d 3 1 % 16
def mvPad (d : List Byte) : Nat := field d 4 1 % 4
def mvLand (d : List Byte) : Bool := Nat.testBit (field d 4 1) 2
def mvNoAlloc (d : List Byte) : Bool := Nat.testBit (field d 4 1) 3
def mvSem (d : List Byte) : Nat := field d 5 1 % 64
def mvCore (d : List Byte) : Nat := field d 6 2 % 1024
def mvSlot (d : List Byte) : Nat := field d 6 2 / 1024
def mvSrc (d : List Byte) : Nat := field d 8 8
def mvDst (d : List Byte) : Nat := field d 16 8
def mvSrcStride (d : List Byte) : Nat := field d 24 4
def mvDstStride (d : List Byte) : Nat := field d 28 4
def mvRows (d : List Byte) : Nat := field d 32 4
def mvCols (d : List Byte) : Nat := field d 36 4
def mvRowAt (d : List Byte) : Int := fieldI d 40 4
def mvColAt (d : List Byte) : Int := fieldI d 44 4
def mvSrcRows (d : List Byte) : Nat := field d 48 4
def mvSrcCols (d : List Byte) : Nat := field d 52 4
def mvScale (d : List Byte) : Nat := field d 56 8

/-- The window indices in range along one axis: first and past the last (R184). -/
def inRange (at_ : Int) (n extent : Nat) : Nat × Nat :=
  let lo := (-at_).toNat
  let hi := ((extent : Int) - at_).toNat
  (lo, if hi < n then hi else n)
def mvRowRange (d : List Byte) : Nat × Nat := inRange (mvRowAt d) (mvRows d) (mvSrcRows d)
def mvColRange (d : List Byte) : Nat × Nat := inRange (mvColAt d) (mvCols d) (mvSrcCols d)
/-- Some element of the window is in range. -/
def mvReads (d : List Byte) : Bool :=
  decide ((mvRowRange d).1 < (mvRowRange d).2) && decide ((mvColRange d).1 < (mvColRange d).2)
/-- Source row and column of window index i, j, for an element in range. -/
def mvRow (d : List Byte) (i : Nat) : Nat := (mvRowAt d + i).toNat
def mvCol (d : List Byte) (j : Nat) : Nat := (mvColAt d + j).toNat
/-- Source bytes of one row in range. -/
def mvRunBytes (d : List Byte) : Nat := codeBytes (mvSrcFmt d) ((mvColRange d).2 - (mvColRange d).1)

/-- Destination rows, and elements of one (Table 6-4). -/
def mvDstRows (d : List Byte) : Nat := if mvOp d = 2 then mvCols d else mvRows d
def mvDstCols (d : List Byte) : Nat := if mvOp d = 2 then mvRows d else mvCols d
def mvDstRowBytes (d : List Byte) : Nat := codeBytes (mvDstFmt d) (mvDstCols d)
/-- B of R186. -/
def mvBytes (d : List Byte) : Nat := mvDstRows d * mvDstRowBytes d
def mvEmpty (d : List Byte) : Bool := decide (mvRows d = 0 ∨ mvCols d = 0)

/-- An FP8 source that is widened reads the scale list. -/
def mvWidens (d : List Byte) : Bool := decide (mvSrcFmt d = 4 ∨ mvSrcFmt d = 5) && isFloat (mvDstFmt d)
/-- Alignment unit of a format. -/
def mvUnit (f : Nat) : Nat := if f = 9 then 1 else codeBytes f 1

/-- An operation and format pair of Tables 6-4, 6-5 and 6-7. -/
def mvPairOk (d : List Byte) : Bool :=
  let a := mvSrcFmt d
  let b := mvDstFmt d
  if mvOp d = 4 then decide (a = 3 ∧ b = 3)
  else (decide (a = b) || (isFloat a && isFloat b) || mvWidens d) && (!decide (mvOp d = 2) || decide (a ≤ 7 ∧ b ≤ 7))

/-- Local HBM holds the destination address of ADD32 and every row. -/
def mvAddsInHbm (s : State) (d : List Byte) : Bool :=
  decide (gDev (mvDst d) = s.device) && inHbm (gLocal (mvDst d)) 1 &&
    (mvEmpty d || inHbm (gLocal (mvDst d)) ((mvDstRows d - 1) * mvDstStride d + mvDstRowBytes d))

/-- MOVE_INVALID (R187), but for the address checks. DESIGN CHOICE (log entry 152): a scale list that no widening reads may be any address and is
not checked, and with LAND clear the landing core and semaphore name nothing and may be any value; an exponent e other than 0 outside
PAGE_GATHER is a reserved encoding (log entry 66). -/
def mvInvalid (s : State) (d : List Byte) : Bool :=
  let a := mvSrcFmt d
  let b := mvDstFmt d
  let fp8 := decide (a = 4 ∨ a = 5)
  decide (field d 0 1 ≠ 1) || !decide (1 ≤ mvOp d ∧ mvOp d ≤ 4) || !decide (1 ≤ a ∧ a ≤ 9) || !decide (1 ≤ b ∧ b ≤ 9) ||
  (if mvOp d = 3 then !decide (4 ≤ mvExp d ∧ mvExp d ≤ 13) else decide (mvExp d ≠ 0)) ||
  decide (16777216 < mvRows d) || decide (16777216 < mvCols d) ||
  (mvLand d && (decide (191 < mvCore d) || decide (47 < mvSem d))) ||
  !mvPairOk d ||
  decide (mvSrc d % mvUnit a ≠ 0) || decide (mvSrcStride d % mvUnit a ≠ 0) || decide (mvDst d % mvUnit b ≠ 0) ||
  decide (mvDstStride d % mvUnit b ≠ 0) || (mvWidens d && decide (mvScale d % 4 ≠ 0)) ||
  (decide (a = 9) && decide (mvCols d % 2 ≠ 0 ∨ field d 44 4 % 2 ≠ 0 ∨ mvSrcCols d % 2 ≠ 0)) ||
  (decide (1 < mvDstRows d) && decide (mvDstStride d < mvDstRowBytes d)) ||
  decide (2 ^ 32 < mvBytes d) ||
  (mvReads d && isFar s (gDev (mvSrc d)) (gLocal (mvSrc d)) && isFar s (gDev (mvDst d)) (gLocal (mvDst d))) ||
  (decide (mvOp d = 2) && fp8 && decide (field d 40 4 % 128 ≠ 0 ∨ field d 44 4 % 128 ≠ 0)) ||
  (decide (mvOp d = 4) && !mvAddsInHbm s d)

/-- Runs of equal length at a stride: the offset of the first that does not resolve; one resolution serves a span that lies
wholly in memory. -/
def badRun (s : State) (dev a rows stride n : Nat) (write : Bool) : Option Nat :=
  if rows = 0 ∨ n = 0 then none
  else if isMemory a ((rows - 1) * stride + n) ∧ resolve s dev a n write ≠ .bad then none
  else ((List.range rows).find? fun r => decide (resolve s dev (a + r * stride) n write = .bad)).map fun r => r * stride

/-- Address of the first source byte of the window. -/
def mvSrcAt (d : List Byte) : Nat :=
  gLocal (mvSrc d) + mvRow d (mvRowRange d).1 * mvSrcStride d + codeBytes (mvSrcFmt d) (mvCol d (mvColRange d).1)

/-- The runs of the scale list that a widening window reads (R191): first entry and count, for each 128 source rows. -/
def mvScaleRuns (d : List Byte) : List (Nat × Nat) :=
  if !mvWidens d ∨ !mvReads d then [] else
  let g := ceilDiv (mvSrcCols d) 128
  let r0 := mvRow d (mvRowRange d).1 / 128
  let rn := mvRow d ((mvRowRange d).2 - 1) / 128
  let k0 := mvCol d (mvColRange d).1 / 128
  let kn := mvCol d ((mvColRange d).2 - 1) / 128
  (List.range (rn - r0 + 1)).map fun i => ((r0 + i) * g + k0, kn - k0 + 1)

/-- The failing global address of an ADDRESS_FAULT at issue, if any. -/
def mvBadAddress (s : State) (d : List Byte) : Option Nat :=
  if mvEmpty d then none else
  let sd := gDev (mvSrc d)
  let dd := gDev (mvDst d)
  let t0 := mvRow d (mvRowRange d).1 / 2 ^ mvExp d
  let tn := mvRow d ((mvRowRange d).2 - 1) / 2 ^ mvExp d
  let src := if mvReads d ∧ mvOp d = 3 then
      (badRun s sd (gLocal (mvSrc d) + 8 * t0) (tn - t0 + 1) 8 8 false).map fun o => mvSrc d + 8 * t0 + o
    else if mvReads d then
      (badRun s sd (mvSrcAt d) ((mvRowRange d).2 - (mvRowRange d).1) (mvSrcStride d) (mvRunBytes d) false).map fun o => sd * 2 ^ 48 + mvSrcAt d + o
    else none
  let scale := (mvScaleRuns d).find? fun r =>
    decide (resolve s (gDev (mvScale d)) (gLocal (mvScale d) + 4 * r.1) (4 * r.2) false = .bad)
  match src with
  | some a => some a
  | none =>
    match scale with
    | some r => some (mvScale d + 4 * r.1)
    | none =>
      (badRun s dd (gLocal (mvDst d)) (mvDstRows d) (mvDstStride d) (mvDstRowBytes d) true).map fun o => mvDst d + o

/-! ### Faults (R187) -/

/-- Keep the first mover fault of the run and halt the core. -/
def moverFault (s : State) (c event clmAddr addr : Nat) : State :=
  let s := if s.ent 0x4040 1 = 0xFFFF then
      (((s.setEnt 0x4040 1 c).setEnt 0x4040 2 event).setEnt 0x4040 3 clmAddr).setEnt 0x4040 4 addr
    else s
  if event = 0x4102 then eccHalt s c else coreFault s c event []

def State.modMove (s : State) (c id : Nat) (f : Move → Move) : State :=
  s.modCore c fun x => { x with moves := x.moves.map fun m => if m.id = id then f m else m }
def CoreS.move (x : CoreS) (id : Nat) : Option Move := x.moves.find? fun m => decide (m.id = id)

/-- Forget a descriptor: its pages are released, its transfer closed, its POST never made. -/
def dropMove (s : State) (c id : Nat) : State :=
  match (s.core c).move id with
  | none => s
  | some m =>
    let s := m.granules.foldl releasePage s
    let s := s.setTransfer (transferKey s.device m.transfer.toNat) none
    s.modCore c fun x => { x with moves := x.moves.filter fun m => !decide (m.id = id), posts := x.posts.filter fun p => !decide (p.1 = id) }

/-- A descriptor in progress fails. -/
def failMove (s : State) (c : Nat) (m : Move) (event addr : Nat) : State :=
  drainAll (moverFault (dropMove s c m.id) c event m.clmAddr addr)

/-- A descriptor that is retired and has nothing outstanding leaves the mover. -/
def sweepMoves (s : State) (c : Nat) : State :=
  s.modCore c fun x => { x with moves := x.moves.filter fun m =>
    !(m.retired && decide (m.writes = []) && decide (m.remote = 0) && decide (m.mapWrites = []) && decide (m.mapWaits = 0)) }

/-! ### Reading (R184, R192) -/

/-- Replace bytes of a list. -/
def splice (l : List Byte) (o : Nat) (b : List Byte) : List Byte := l.take o ++ b ++ l.drop (o + b.length)

/-- Read a run of the own module for the mover or SHAPE; a read of HBM marked NOALLOC allocates no line (R179). -/
def ownRead (s : State) (a n : Nat) (alloc : Bool) : List Byte × State × Bool :=
  match placeOf a n with
  | .hbm => memRead s a n alloc
  | .dictionary o => match mapEntry o n with
    | some (i, k, _) => (padTo n (entryBytes s i k), s, false)
    | none => (List.replicate n 0, s, false)
  | _ => localRead s a n

/-- A local address in the dictionary map. A read of the map waits behind the accesses that wait (R437). -/
def inMap (a : Nat) : Bool := match placeOf a 1 with | .dictionary _ => true | _ => false

/-- What the mover reads for a window: global address, bytes, place in the payload. -/
def mvRuns (d : List Byte) (rowAt : Nat → Nat) : List (Nat × Nat × Nat) :=
  let n := mvRunBytes d
  let (i0, i1) := mvRowRange d
  let rows := if mvReads d then (List.range (i1 - i0)).map fun k => (rowAt (i0 + k), n, k * n) else []
  let base := if mvReads d then (i1 - i0) * n else 0
  let scales := (mvScaleRuns d).foldl (fun (a : List (Nat × Nat × Nat) × Nat) r =>
    (a.1 ++ [(mvScale d + 4 * r.1, 4 * r.2, a.2)], a.2 + 4 * r.2)) ([], base)
  rows ++ scales.1

/-- Bytes of the payload. -/
def mvPayload (d : List Byte) : Nat :=
  (if mvReads d then ((mvRowRange d).2 - (mvRowRange d).1) * mvRunBytes d else 0) + ((mvScaleRuns d).map fun r => 4 * r.2).sum

/-- A remote run cut into READ requests of at most 4,096 bytes. -/
def cutReads (r : Nat × Nat × Nat) : List (Nat × Nat × Nat) :=
  (List.range (ceilDiv r.2.1 4096)).map fun k =>
    (r.1 + 4096 * k, (if r.2.1 - 4096 * k < 4096 then r.2.1 - 4096 * k else 4096), r.2.2 + 4096 * k)

/-- Read every own run; the remote ones are left to be requested. The failing address, if a read is uncorrectable. -/
def readRuns (s : State) (runs : List (Nat × Nat × Nat)) (payload : List Byte) (alloc : Bool) :
    State × List Byte × List (Nat × Nat × Nat) × Option Nat :=
  runs.foldl (fun (a : State × List Byte × List (Nat × Nat × Nat) × Option Nat) r =>
    match a.2.2.2 with
    | some _ => a
    | none =>
      match resolve a.1 (gDev r.1) (gLocal r.1) r.2.1 false with
      | .own l =>
        let (b, s, bad) := ownRead a.1 l r.2.1 alloc
        (s, splice a.2.1 r.2.2 b, a.2.2.1, if bad then some r.1 else none)
      | .far _ _ => (a.1, a.2.1, a.2.2.1 ++ cutReads r, none)
      | .bad => (a.1, a.2.1, a.2.2.1, none)) (s, payload, [], none)

/-! ### The values written (R185, R190, R191) -/

/-- Element (i, j) of the window: its code in the destination format and, if it was narrowed, its class. -/
def mvElem (m : Move) (i j : Nat) : Nat × Option NClass :=
  let d := m.desc
  let (i0, i1) := mvRowRange d
  let (j0, j1) := mvColRange d
  let a := mvSrcFmt d
  let b := mvDstFmt d
  if i < i0 ∨ i1 ≤ i ∨ j < j0 ∨ j1 ≤ j then (m.pad.toNat % 2 ^ (if b = 9 then 4 else 8 * codeBytes b 1), none)
  else
    let row := (i - i0) * mvRunBytes d
    let k := j - j0
    if a = b then
      (if a = 9 then field m.payload (row + k / 2) 1 / 16 ^ (k % 2) % 16 else field m.payload (row + k * codeBytes a 1) (codeBytes a 1), none)
    else
      let v := castElem a 0 (slice m.payload (row + codeBytes a k) (codeBytes a 1)) 0
      if mvWidens d then
        let base := (i1 - i0) * mvRunBytes d
        let w := mvCol d (j1 - 1) / 128 - mvCol d j0 / 128 + 1
        let o := (mvRow d i / 128 - mvRow d i0 / 128) * w + (mvCol d j / 128 - mvCol d j0 / 128)
        ((narrow (codeFmt b 0) .rne (v.mul (ofF32 (BitVec.ofNat 32 (field m.payload (base + 4 * o) 4))))).1, none)
      else
        let (r, k) := narrow (codeFmt b 0) .rne v
        (r, if narrows a b then some k else none)

/-- The destination rows and the classes of the narrowed elements. -/
def mvOutput (m : Move) : List (Nat × List Byte) × List NClass :=
  let d := m.desc
  let rows := (List.range (mvDstRows d)).map fun q =>
    (List.range (mvDstCols d)).map fun k => if mvOp d = 2 then mvElem m k q else mvElem m q k
  ((rows.zipIdx).map fun r => (mvDst d + r.2 * mvDstStride d, packCodes (mvDstFmt d) (r.1.map Prod.fst)),
    rows.flatMap fun r => r.filterMap Prod.snd)

/-- Neighbouring runs joined. -/
def joinRuns : List (Nat × List Byte) → List (Nat × List Byte)
  | [] => []
  | r :: rest =>
    match joinRuns rest with
    | q :: l => if r.1 + r.2.length = q.1 then (r.1, r.2 ++ q.2) :: l else r :: q :: l
    | [] => [r]

/-- Segments of at most 4,194,304 bytes (R398). -/
def cutSegments (r : Nat × List Byte) : List (Nat × List Byte) :=
  (chunksOf 4194304 r.2).zipIdx.map fun p => (r.1 + 4194304 * p.2, p.1)

/-- The descriptor's payload is complete: what it writes is known, and its narrowed elements are counted. -/
def completeRead (s : State) (c : Nat) (m : Move) : State :=
  let (rows, classes) := mvOutput m
  let s := if mvSlot m.desc = 0 then s else noteCount s c (tally (mvSlot m.desc) (mvDstFmt m.desc) classes)
  let far := isFar s (gDev (mvDst m.desc)) (gLocal (mvDst m.desc))
  let maps := if far then [] else rows.filterMap fun r =>
    match placeOf (gLocal r.1) r.2.length with
    | .dictionary o => (mapEntry o r.2.length).map fun e => (e.1, e.2.1, r.2)
    | _ => none
  let mem := if far then (joinRuns rows).flatMap cutSegments else if maps = [] then rows else []
  s.modMove c m.id fun m => { m with writes := mem, mapWrites := maps }

/-! ### Requests to other modules (R398 to R400) -/

/-- The flits of a segment (Table 13-9). -/
def segmentFlits (s : State) (dev : Nat) (tag a transfer total : Nat) (land : Option (Nat × Nat)) (b : List Byte) : List Flit :=
  let head := le 1 1 ++ le 1 (if land.isSome then 1 else 0) ++ le 2 (match land with | some l => l.1 + l.2 * 1024 | none => 0) ++
    le 4 b.length ++ le 8 a ++ le 2 transfer ++ le 2 0 ++ le 4 (total - 1) ++ le 8 0
  let all := head ++ b
  let n := ceilDiv all.length 240
  (List.range n).map fun k =>
    openFlit s (if k = 0 then kHead else kData) 0 (BitVec.ofNat 16 dev) (BitVec.ofNat 12 tag) k (decide (k + 1 = n)) (slice all (240 * k) 240)

/-- A request of a core that finds no route (R397): the descriptor is given up. -/
def routeLost (s : State) (c id : Nat) : State := drainAll (noRoute (dropMove s c id))

/-- Issue as many of a descriptor's reads and segments as there are free tags. -/
def pump : Nat → State → Core → Nat → State
  | 0, s, _, _ => s
  | fuel + 1, s, c, id =>
    match (s.core c.val).move id, freeTag s with
    | some m, some tag =>
      match m.reads with
      | r :: rest =>
        (match resolve s (gDev r.1) (gLocal r.1) r.2.1 false with
        | .far dev a =>
          let f := openFlit s kRead 0 (BitVec.ofNat 16 dev) (BitVec.ofNat 12 tag) 0 true (le 8 a ++ le 4 r.2.1 ++ le 4 0)
          (match emit s dev [f] with
          | (s, true) =>
            let s := addRequest s tag .read dev c id r.1 r.2.1 r.2.2
            pump fuel (s.modMove c.val id fun m => { m with reads := rest, awaiting := m.awaiting + 1 }) c id
          | (s, false) => routeLost s c.val id)
        | _ => failMove s c.val m 0x4402 r.1)
      | [] =>
        if !isFar s (gDev (mvDst m.desc)) (gLocal (mvDst m.desc)) then s else
        match m.writes with
        | [] => s
        | w :: rest =>
          match resolve s (gDev w.1) (gLocal w.1) w.2.length true with
          | .far dev a =>
            let land := if mvLand m.desc then some (mvCore m.desc, mvSem m.desc) else none
            (match emit s dev (segmentFlits s dev tag a m.transfer.toNat (mvBytes m.desc) land w.2) with
            | (s, true) =>
              let s := addRequest s tag .segment dev c id w.1 w.2.length m.transfer.toNat
              pump fuel (s.modMove c.val id fun m => { m with writes := rest, remote := m.remote + 1 }) c id
            | (s, false) => routeLost s c.val id)
          | _ => failMove s c.val m 0x4402 w.1
    | _, _ => s

/-- Pump every descriptor of every core, after a tag was freed. -/
def pumpAll (s : State) : State :=
  (List.range 192).foldl (fun s c =>
    if h : c < 192 then (s.core c).moves.foldl (fun s m => if m.started then pump 4096 s ⟨c, h⟩ m.id else s) s else s) s

/-! ### MOVE and MOVE_START -/

/-- Bytes of the issuing core's CLM and wide buffer among n bytes at a local address, in the units of R95. -/
def coreUnits (c a n : Nat) : List (Nat × Nat × Nat) :=
  match placeOf a n with
  | .clm k o => if k = c then clmUnits o n else []
  | .wide k o => if k = c ∧ n ≠ 0 then [(1, o / 512, (o + n - 1) / 512 - o / 512 + 1)] else []
  | _ => []

/-- Global address of window row i in range of a descriptor other than PAGE_GATHER. -/
def mvRowAddr (d : List Byte) (i : Nat) : Nat :=
  gDev (mvSrc d) * 2 ^ 48 + mvSrcAt d + (i - (mvRowRange d).1) * mvSrcStride d

/-- What the descriptor reads of the issuing core's CLM and wide buffer, its scale list with it (R196); a gather's token rows lie in HBM. -/
def mvSourceUnits (s : State) (c : Nat) (d : List Byte) : List (Nat × Nat × Nat) :=
  if mvEmpty d then [] else
  ((mvRuns d (mvRowAddr d)).drop (if mvOp d = 3 ∧ mvReads d then (mvRowRange d).2 - (mvRowRange d).1 else 0)).flatMap fun r =>
    if gDev r.1 = s.device then coreUnits c (gLocal r.1) r.2.1 else []

/-- A descriptor of this module uses the transfer number, or a segment sent under it has not been answered (R399). -/
def transferUsed (s : State) (n : Nat) : Bool :=
  (s.cores.any fun c => c.2.moves.any fun m => decide (m.transfer.toNat = n)) ||
    s.links.requests.any fun r => match r.2 with | some q => decide (q.kind = .segment ∧ q.offset = n) | none => false
/-- The first transfer number from n on that no descriptor uses (R399). -/
def freeTransfer (s : State) : Nat → Nat → Nat
  | 0, n => n
  | fuel + 1, n => if transferUsed s n then freeTransfer s fuel ((n + 1) % 65536) else n

/-- MOVE (R182, R187, R196): a full queue of four unstarted descriptors holds it (R113). -/
def execMove (c : Core) (a : Reg) (p : PostField) (s : State) : Out :=
  issue s c.val (iw 0x40 0 (fa a + fpost p)) fun s x =>
    let addr := (x.reg a).toNat
    if x.inSkip then skipGo s c.val x p
    else if addr % 64 ≠ 0 ∨ clmSize < addr + 64 then .next (instrInvalid s c.val)
    else if held x 3 (clmUnits addr 64) [] then .next s
    else match checkRanges s c.val [(addr, 64)] with
      | (s, true) => .next (moverFault s c.val 0x4102 addr (s.device * 2 ^ 48 + windowBase + c.val * 2 ^ 24 + addr))
      | (s, false) =>
        let d := x.clmBytes addr 64
        if mvInvalid s d then .next (moverFault s c.val 0x4401 addr 0)
        else match mvBadAddress s d with
          | some g => .next (moverFault s c.val 0x4402 addr g)
          | none =>
            if held x 3 (mvSourceUnits s c.val d) [] ∨ 4 ≤ (x.moves.filter fun m => !m.started).length then .next s
            else if mvEmpty d then skipGo (s.addEnt 0x4031 (c.val + 1) 1) c.val x p
            else
              let number := freeTransfer s 65536 s.links.nextTransfer
              let m : Move :=
                { id := x.nextId + 1, desc := d, pad := x.pads.getD (mvPad d) 0, clmAddr := addr, post := p,
                  transfer := BitVec.ofNat 16 number, started := false, retired := false, reads := [], payload := [],
                  awaiting := 0, writes := [], remote := 0, mapWrites := [], mapWaits := 0, granules := [] }
              let s := { s with links := { s.links with nextTransfer := (number + 1) % 65536 } }
              .next (s.setCore c.val (({ x with moves := x.moves ++ [m], nextId := x.nextId + 2 }.addPost m.id p).advance))

/-- The slot whose table a PAGE_GATHER names (R292). -/
def gatherSlot (s : State) (d : List Byte) : Option Nat :=
  let base := pageBase s + ownBytes (granuleCount s)
  let a := gLocal (mvSrc d)
  let n := 8 * pageEntries s
  if gDev (mvSrc d) = s.device ∧ pageBase s ≠ 0 ∧ base ≤ a ∧ (a - base) % n = 0 ∧ (a - base) / n < 256 then some ((a - base) / n) else none

/-- The pages of a gather, and the check of each entry and record in order (R292, R534): the event and address of the first failure,
with the pages read up to it. -/
def gatherCheck (s : State) (d : List Byte) : Except (Nat × Nat × List Nat) (List Nat) :=
  if !mvReads d then .ok [] else
  match gatherSlot s d with
  | none => .error (0x5203, mvSrc d, [])
  | some k =>
    let t0 := mvRow d (mvRowRange d).1
    let tn := mvRow d ((mvRowRange d).2 - 1)
    let p := 2 ^ mvExp d
    if (s.pageSlot k).st ≠ 1 ∨ pageEntries s * p ≤ tn then .error (0x5203, mvSrc d, [])
    else
      let pages := (List.range (tn / p - t0 / p + 1)).map fun i => pageEntryAt s k (t0 / p + i)
      let fault (a : Nat) : Option Nat :=
        let e := pageEntryOf (ofLe (hread s a 8))
        let r := ofLe (hread s (recordAt s e.first) 4)
        if (hcheck s a 8).2 || (hcheck s (recordAt s e.first) 4).2 then some 0x4102
        else if !e.mapped then some 0x4403
        else if e.size + 4 ≠ mvExp d then some 0x5203
        else if e.owner ≠ k ∨ r % 256 ≠ k ∨ bits r 9 8 ≠ 1 then some 0x5201
        else if !inHbm (poolBase s + e.first * granuleBytes s) 1 then some 0x4402
        else none
      match pages.find? fun a => (fault a).isSome with
      | some a => .error ((fault a).getD 0, globalOf s a, pages.takeWhile (fun q => decide (q ≠ a)) ++ [a])
      | none => .ok pages

/-- The record access of a page with the entry at a (R292). -/
def readRecord (s : State) (a : Nat) : State := (memRead s (recordAt s (pageEntryOf (ofLe (hread s a 8))).first) 4 true).2.1
/-- The entry access and the record access of a page that a failing gather reads. -/
def readPage (s : State) (a : Nat) : State := readRecord (memRead s a 8 true).2.1 a
/-- The entry access of a gather counts one gather more on the entry (R293); a record access goes with it. -/
def holdPage (s : State) (a : Nat) : State :=
  let e := pageEntryOf (ofLe (hread s a 8))
  readRecord (pageWrite (hcheck s a 8).1 a 8 { e with inFlight := e.inFlight + 1 }.word) a

/-- Local address of the run that token row i of a gather reads. -/
def gatherRowAt (s : State) (d : List Byte) (k i : Nat) : Nat :=
  let t := mvRow d i
  let p := 2 ^ mvExp d
  let e := pageEntryOf (ofLe (hread s (pageEntryAt s k (t / p)) 8))
  poolBase s + e.first * granuleBytes s + t % p * mvSrcStride d + codeBytes (mvSrcFmt d) (mvCol d (mvColRange d).1)

/-- A started descriptor reads its runs; when all are in, what it writes is known. -/
def startReads (s : State) (c : Core) (m : Move) (runs : List (Nat × Nat × Nat)) : State :=
  let (s, payload, far, bad) := readRuns s runs (List.replicate (mvPayload m.desc) 0) (!mvNoAlloc m.desc)
  match bad with
  | some g => failMove s c.val m 0x4102 g
  | none =>
    let key := transferKey s.device m.transfer.toNat
    let s := if isFar s (gDev (mvDst m.desc)) (gLocal (mvDst m.desc)) then s
      else s.setTransfer key (some { total := mvBytes m.desc, committed := 0, landed := 0, answered := 0,
                                     land := if mvLand m.desc then some (mvCore m.desc, mvSem m.desc) else none })
    let m := { m with payload := payload, reads := far }
    let s := s.modMove c.val m.id fun _ => m
    let s := if far = [] then completeRead s c.val m else s
    pump 4096 s c m.id

/-- MOVE_START (R195): the mover begins its next descriptor once every read of the ones before has been issued. A gather whose
page counts are full stalls. -/
def execMoveStart (t : FTime) (c : Core) (s : State) : Out :=
  atTime s t fun s =>
    let x := s.core c.val
    match x.moves.find? fun m => !m.started with
    | none => .next s
    | some m =>
      if x.moves.any fun q => q.started && decide (q.reads ≠ []) then .next s
      else
        let m := { m with started := true }
        let s0 := s.modMove c.val m.id fun _ => m
        if mvOp m.desc ≠ 3 then
          let runs := mvRuns m.desc (mvRowAddr m.desc)
          if s.audit.held ≠ [] ∧ runs.any (fun r => decide (gDev r.1 = s.device) && inMap (gLocal r.1)) then .next s
          else .next (startReads s0 c m runs)
        else
          match gatherCheck s m.desc with
          | .error (event, g, read) => .next (failMove (read.foldl readPage s0) c.val m event g)
          | .ok pages =>
            if pages.any fun a => decide ((pageEntryOf (ofLe (hread s a 8))).inFlight = 65535) then .next s
            else
              let k := (gatherSlot s m.desc).getD 0
              let runs := mvRuns m.desc fun i => globalOf s (gatherRowAt s m.desc k i)
              let m := { m with granules := pages }
              let s := pages.foldl holdPage (s0.modMove c.val m.id fun _ => m)
              let rows := runs.take (if mvReads m.desc then (mvRowRange m.desc).2 - (mvRowRange m.desc).1 else 0)
              match rows.find? fun r => !inHbm (gLocal r.1) r.2.1 with
              | some r => .next (failMove s c.val m 0x4402 r.1)
              | none => .next (startReads s c m runs)

/-- MOVE_RETIRE (R117, R293): the descriptor is complete at the source. -/
def execMoveRetire (c : Core) (id : Nat) (s : State) : Out :=
  match (s.core c.val).move id with
  | none => .next s
  | some m =>
    if !m.started ∨ m.retired ∨ m.reads ≠ [] ∨ m.awaiting ≠ 0 then .next s
    else
      let s := m.granules.foldl releasePage s
      let s := s.modMove c.val id fun m => { m with retired := true, granules := [] }
      .next (sweepMoves (s.addEnt 0x4031 (c.val + 1) 1) c.val)

/-! ### Landings (R147, R148) -/

/-- n more bytes of a transfer are committed: the landing semaphore follows. -/
def tallyLanding (s : State) (key n : Nat) : State :=
  match s.transfer key with
  | none => s
  | some x =>
    let done := x.committed + n
    let u := landUnits x.total done
    let s := s.setTransfer key (some { x with committed := done, landed := u })
    match x.land with
    | some (core, sem) => incSem s core sem (u - x.landed) true
    | none => s

/-- The bytes a commit writes at a destination of ADD32: each element is the FP32 sum. -/
def addBytes (old b : List Byte) : List Byte :=
  (List.range (b.length / 4)).flatMap fun k =>
    le 4 (fadd (BitVec.ofNat 32 (field old (4 * k) 4)) (BitVec.ofNat 32 (field b (4 * k) 4))).toNat

/-- How much of n bytes at a local address a commit writes: in HBM it ends where a 64-byte unit or what is to be written ends, since a
unit is written as one access (R180). -/
def unitCut (a n : Nat) (last : Bool) : Nat := if last || !inHbm a n then n else (a + n) / 64 * 64 - a

/-- An ADD32 of bytes at an address of HBM: each 64-byte unit is read, added and written as one access (R188). -/
def addUnits (s : State) (a : Nat) (b : List Byte) : State × Bool :=
  let r := hcheck (accesses 64 s a b.length true true) a b.length
  if r.2 then r else (hwrite r.1 a (addBytes (hread s a b.length) b), false)

/-- The own descriptor whose transfer this is: core and descriptor. -/
def ownMove (s : State) (transfer : W16) : Option (Nat × Move) :=
  s.cores.findSome? fun c => (c.2.moves.find? fun m => decide (m.transfer = transfer) && m.started).map fun m => (c.1, m)

/-- Commit the next bytes of a descriptor with a local destination. -/
def commitOwn (s : State) (c : Nat) (m : Move) (bytes : Nat) : State :=
  match m.writes with
  | [] => s
  | w :: rest =>
    let a := gLocal w.1
    let n := unitCut a (Nat.min bytes w.2.length) (decide (w.2.length ≤ bytes))
    if n = 0 then s else
    let b := w.2.take n
    let r := if mvOp m.desc = 4 then addUnits s a b else (localWrite s a b, false)
    if r.2 then failMove r.1 c m 0x4102 w.1
    else
      let s := r.1.modMove c m.id fun m => { m with writes := if n = w.2.length then rest else (w.1 + n, w.2.drop n) :: rest }
      let key := transferKey s.device m.transfer.toNat
      let s := tallyLanding (s.addEnt 0x4030 (c + 1) n) key n
      let s := if (match s.transfer key with | some x => decide (x.total ≤ x.committed) | none => false) then s.setTransfer key none else s
      drainAll (sweepMoves s c)

/-- Commit the next bytes of a transfer from another module, in segment order; a segment committed whole is answered. -/
def commitFar (s : State) (src transfer : W16) (bytes : Nat) : State :=
  match s.links.segments.find? fun g => decide (g.src = src) && decide (g.transfer = transfer) && decide (g.pendingBytes ≠ []) with
  | none => s
  | some g =>
    let most := Nat.min bytes g.pendingBytes.length
    let n := unitCut (g.base + g.done) most (decide (g.done + most = g.bytes))
    if n = 0 then s else
    let s := localWrite s (g.base + g.done) (g.pendingBytes.take n)
    let g' := { g with done := g.done + n, pendingBytes := g.pendingBytes.drop n }
    let whole := decide (g'.done = g.bytes)
    let others := s.links.segments.filter fun h => !decide (h = g)
    let s := { s with links := { s.links with segments := if whole then others else others ++ [g'] } }
    let key := transferKey src.toNat transfer.toNat
    let s := tallyLanding s key n
    if whole then drainAll (answered (sendAck s g.src g.tag 0 transfer.toNat g.bytes) key g.bytes) else s

/-- LANDING_COMMIT: up to `bytes` bytes of a transfer are committed, in address order (R147, R148, R195, R400). -/
def execLandingCommit (t : FTime) (src transfer : W16) (bytes : Nat) (s : State) : Out :=
  atTime s t fun s =>
    if src.toNat = s.device then
      match ownMove s transfer with
      | some (c, m) => if isFar s (gDev (mvDst m.desc)) (gLocal (mvDst m.desc)) then .next s else .next (commitOwn s c m bytes)
      | none => .next s
    else .next (commitFar s src transfer bytes)

/-! ### SHAPE (R124, R126, R174) -/

/-- The bytes of the map entry that a SHAPE address reads, where it reads one. -/
def shapeEntry (g : Nat) : Option Nat :=
  match placeOf (gLocal g) 1 with
  | .dictionary o => (match entryOf (o / 4096) (o / 16 % 256) with
    | some (e : EntryDef) => some e.ty.size
    | none => none)
  | _ => none

/-- SHAPE: the sequencer waits for the value; an address outside what SHAPE reaches is an ADDRESS_FAULT. -/
def execShape (c : Core) (d a : Reg) (slot : Fin 64) (imm : W32) (s : State) : Out :=
  issue s c.val (iw 0x20 0 (fd d + fa a + slot.val * 2 ^ 32 + fi imm)) fun s x =>
    match sumAddr x a imm with
    | none => .next (instrInvalid s c.val)
    | some g =>
      if g % 4 ≠ 0 then .next (instrInvalid s c.val)
      else
        let dict := shapeEntry g
        let n := match dict with | some n => if n < 4 then n else 4 | none => 4
        match resolve s (gDev g) (gLocal g) n false with
        | .bad => .next (moverFault s c.val 0x4402 0 g)
        | .own l => if held x 9 (mvShapeUnits c.val l) [] then .next s else startWait s c.val x (.shape slot.val g d none)
        | .far dev l =>
          if dev = 0xFFFF then .next (moverFault s c.val 0x4402 0 g)
          else match freeTag s with
            | none => .next s
            | some tag =>
              let f := openFlit s kRead 0 (BitVec.ofNat 16 dev) (BitVec.ofNat 12 tag) 0 true (le 8 l ++ le 4 4 ++ le 4 0)
              match emit s dev [f] with
              | (s, true) => startWait (addRequest s tag .read dev c 0 g 4 0) c.val x (.shape slot.val g d none)
              | (s, false) => .next (noRoute s)
where
  /-- The units of R95 that a local SHAPE reads in its own core. -/
  mvShapeUnits (c l : Nat) : List (Nat × Nat × Nat) :=
    match placeOf l 4 with
    | .clm k o => if k = c then clmUnits o 4 else []
    | .wide k o => if k = c then [(1, o / 512, 1)] else []
    | _ => []

/-- The value of a SHAPE against its slot's planned maximum (R124, R126). -/
def acceptShape (s : State) (c slot : Nat) (d : Reg) (v : W32) : State :=
  let maximum := s.ent 0x5110 (slot + 1)
  if maximum < v.toNat then shapeOver s c slot v.toNat maximum
  else endWait s c fun x => { x.wreg d (v.setWidth 64) with shapes := sset 0 x.shapes slot v }

/-- SHAPE_VALUE_ARRIVAL: a local value is read now; a remote one is there once its RESP has come. -/
def execShapeValueArrival (c : Core) (s : State) : Out :=
  match (s.core c.val).wait with
  | .shape slot g d got =>
    if !s.running then .next s else
    match got with
    | some v => .next (acceptShape s c.val slot d v)
    | none =>
      let size := shapeEntry g
      if s.audit.held ≠ [] ∧ size.isSome then .next s else
      match resolve s (gDev g) (gLocal g) (size.getD 4) false with
      | .own l =>
        (match ownRead s l (size.getD 4) true with
        | (_, s, true) => .next (moverFault s c.val 0x4102 0 g)
        | (b, s, false) => .next (acceptShape s c.val slot d (BitVec.ofNat 32 (ofLe b))))
      | _ => .next s
  | _ => .next s

/-! ### Answers (R400, R401, Table 13-11) -/

/-- A request of a core was refused. -/
def requestFailed (s : State) (r : Request) (status : Nat) : State :=
  match (s.core r.core.val).move r.moveId with
  | some m => if status = 3 then routeLost s r.core.val m.id
    else failMove s r.core.val m (if status = 6 then 0x4102 else 0x4402) r.addr
  | none =>
    if r.moveId ≠ 0 then s
    else if status = 3 then noRoute s
    else moverFault s r.core.val (if status = 6 then 0x4102 else 0x4402) 0 r.addr

/-- The whole answer of a READ is in. -/
def readDone (s : State) (r : Request) (b : List Byte) : State :=
  if r.moveId = 0 then
    s.modCore r.core.val fun x => { x with wait := match x.wait with
      | .shape k g d none => .shape k g d (some (BitVec.ofNat 32 (ofLe b)))
      | w => w }
  else
    match (s.core r.core.val).move r.moveId with
    | none => s
    | some m =>
      let m := { m with payload := splice m.payload r.offset b, awaiting := m.awaiting - 1 }
      let s := s.modMove r.core.val m.id fun _ => m
      if m.awaiting = 0 ∧ m.reads = [] then completeRead s r.core.val m else s

/-- The request with this tag that a device answers. -/
def requestOf (s : State) (f : Flit) : Option Request :=
  match sget none s.links.requests f.tag.toNat with
  | some r => if r.dst = f.src then some r else none
  | none => none
def dropRequest (s : State) (tag : Nat) : State := { s with links := { s.links with requests := sset none s.links.requests tag none } }

/-- RESP_RECEIVE. -/
def execRespReceive (t : FTime) (p : Port) (f : Flit) (s : State) : Out :=
  atTime s t fun s => accepted s p.val f kResp fun s =>
    if !isMine s f then .next (relay s p.val f)
    else match requestOf s f with
      | none => .next s
      | some r =>
        if r.kind ≠ .read then .next s
        else
          let b := padTo 240 f.payload
          let r := if f.index.toNat = 0 then { r with status := some (BitVec.ofNat 8 (field b 0 1)), got := slice b 16 224 } else { r with got := r.got ++ b }
          if f.last = false then .next { s with links := { s.links with requests := sset none s.links.requests f.tag.toNat (some r) } }
          else
            let s := dropRequest s f.tag.toNat
            let status := (r.status.getD 7).toNat
            .next (pumpAll (if status = 0 then readDone s r (padTo r.bytes r.got) else requestFailed s r status))

/-- ACK_RECEIVE. -/
def execAckReceive (t : FTime) (p : Port) (f : Flit) (s : State) : Out :=
  atTime s t fun s => accepted s p.val f kAck fun s =>
    if !isMine s f then .next (relay s p.val f)
    else match requestOf s f with
      | none => .next s
      | some r =>
        if r.kind = .read then .next s
        else if r.kind = .hostmsg then .next (pumpAll ([4, 5, 6, 7].foldl leaveInBand (dropRequest s f.tag.toNat)))
        else
          let s := dropRequest s f.tag.toNat
          let status := field f.payload 0 1
          if status ≠ 0 then .next (pumpAll (requestFailed s r status))
          else if r.kind = .post then .next (pumpAll s)
          else
            let s := (s.addEnt 0x4030 (r.core.val + 1) r.bytes).modMove r.core.val r.moveId fun m => { m with remote := m.remote - 1 }
            .next (pumpAll (sweepMoves s r.core.val))

/-- COMPLETION_TIMEOUT (R401): in RUN it aborts. -/
def execCompletionTimeout (t : FTime) (tag : BitVec 12) (s : State) : Out :=
  atTime s t fun s =>
    match sget none s.links.requests tag.toNat with
    | none => .next s
    | some r =>
      if s.now < r.deadline then .next s
      else .next (abortRun (((dropRequest s tag.toNat).addEnt 0x3320 2 1).raise 0x3303 []) 0x3303)

end Sys2Proof.Machine
end

