-- ==== Sys2Proof/Machine/Flags.lean ====
section
/-!
DEFINITION. The status that each dictionary access leaves (Table 15-6). A block has no condition flags; the status bits that its entries
show are computed where the chapter that owns the entry does.
-/
namespace Sys2Proof.Machine

/-! ### Statuses of dictionary accesses (Table 15-6) -/

def stOk : Nat := 0
def stNoEntry : Nat := 1
def stAccess : Nat := 2
def stOriginator : Nat := 3
def stState : Nat := 4
def stRange : Nat := 5
def stLength : Nat := 6
def stVersion : Nat := 7
def stAudit : Nat := 8
def stWindow : Nat := 9
def stMalformed : Nat := 0xA

end Sys2Proof.Machine
end

