-- ==== Sys2Proof/Machine/Pages.lean ====
section
/-!
DEFINITION. Key/value pages (R285 to R294): the page area, and the page commands of Tables 9-8 and 9-9. An effect of a
dictionary write answers the FDP status with the state.
-/
namespace Sys2Proof.Machine

/-- The core of a write from a running program. -/
def originCore : Origin → Option Core
  | .prog c => some c
  | .fdp _ _ _ => none

/-! ### The page area (R286) -/

/-- Whether the area and the pool keep the rules of R286. A base of 0 is no area. -/
def areaOk (s : State) : Bool :=
  let base := pageBase s
  let size := areaBytes s
  let pool := poolBase s
  let bytes := granuleCount s * granuleBytes s
  decide (base % 4096 = 0) && decide (pool % 256 = 0) && decide (granuleBytes s % 256 = 0) &&
    decide (256 ≤ granuleBytes s) && decide (granuleBytes s ≤ 2 ^ 28) && decide (pool + bytes ≤ hbmSize) &&
    (decide (base = 0) || (decide (base + size ≤ hbmSize) && (decide (bytes = 0) || decide (base + size ≤ pool) ||
      decide (pool + bytes ≤ base))))

/-- A write to `0x5210` (R286): refused while a slot is not closed or where a rule breaks; an accepted one zeroes the area. -/
def pageAreaWrite (s : State) (sub v : Nat) : Nat × State :=
  if (s.pages.slots.any fun k => decide (k.2.st ≠ 0)) then (stState, s)
  else
    let t := s.setEnt 0x5210 sub v
    if !areaOk t then (stRange, s)
    else (stOk, ((zeroArea (t.setEnt 0x5210 6 (if pageBase t = 0 then 0 else areaBytes t))).setEnt 0x5230 1 (granuleCount t)).setEnt 0x5230 2 0)

/-! ### Page commands (Table 9-8) -/

def pcOp (b : List Byte) : Nat := field b 0 1
def pcSlot (b : List Byte) : Nat := field b 1 1
def pcExp (b : List Byte) : Nat := field b 2 1
def pcPage (b : List Byte) : Nat := field b 4 4
def pcCount (b : List Byte) : Nat := field b 8 2
def pcGranule (b : List Byte) : Nat := field b 12 4

/-- Fields that Table 9-8 gives as 0 for an op, and the ranges it gives. -/
def pcFieldsOk (b : List Byte) : Bool :=
  let pages := decide (1 ≤ pcCount b ∧ pcCount b ≤ 256)
  match pcOp b with
  | 1 => decide (4 ≤ pcExp b) && decide (pcExp b ≤ 13) && (decide (16 ≤ pcSlot b) || decide (pcExp b = 4)) &&
      decide (pcPage b = 0) && decide (pcCount b = 0)
  | 2 => pages && decide (pcExp b = 0)
  | 3 => pages && decide (pcExp b = 0)
  | 4 => decide (pcExp b = 0) && decide (pcPage b = 0) && decide (pcCount b = 0)
  | _ => false

/-- Granules of a page of an open slot. -/
def slotGranules (s : State) (k : Nat) : Nat := 2 ^ ((s.pageSlot k).e - 4)
/-- The pages of a MAP or FREE: logical page and first granule. -/
def pcPages (s : State) (b : List Byte) : List (Nat × Nat) :=
  (List.range (pcCount b)).map fun j => (pcPage b + j, pcGranule b + j * slotGranules s (pcSlot b))

/-- Page-table entry of a logical page of a slot. -/
def entryAt (s : State) (k p : Nat) : PageEntry := pageEntryOf (ofLe (hread s (pageEntryAt s k p) 8))
/-- Owner and state of a granule's record. -/
def recordOf (s : State) (n : Nat) : Nat × Nat :=
  let r := ofLe (hread s (recordAt s n) 4)
  (r % 256, bits r 9 8)

/-- A page already mapped to the granule that a MAP names. -/
def sameMapping (s : State) (k : Nat) (p : Nat × Nat) : Bool := (entryAt s k p.1).mapped && decide ((entryAt s k p.1).first = p.2)

/-- The first failing granule of a page of a MAP under the column SLOT_INVALID of Table 9-9: the page lies at or beyond E, a granule at or
beyond G, or its entry is FREE_PENDING or MAPPED to another granule. -/
def mapInvalid (s : State) (k : Nat) (p : Nat × Nat) : Option Nat :=
  if pageEntries s ≤ p.1 then some p.2
  else if granuleCount s < p.2 + slotGranules s k then some (Nat.max p.2 (granuleCount s))
  else if (entryAt s k p.1).pending || ((entryAt s k p.1).mapped && !sameMapping s k p) then some p.2
  else none

/-- The refusal of a command under Table 9-9: event and first failing granule (R289). -/
def pageRefusal (s : State) (b : List Byte) : Option (Nat × Nat) :=
  let k := pcSlot b
  let g := slotGranules s k
  if !pcFieldsOk b then some (0x5203, pcGranule b)
  else match pcOp b with
  | 1 => if (s.pageSlot k).st ≠ 0 ∨ pageBase s = 0 then some (0x5203, 0) else none
  | 2 =>
    if (s.pageSlot k).st ≠ 1 then some (0x5203, pcGranule b)
    else
      let ps := pcPages s b
      (match ps.findSome? (mapInvalid s k) with
      | some n => some (0x5203, n)
      | none =>
        let named := (ps.filter fun p => !sameMapping s k p).flatMap fun p => (List.range g).map fun i => p.2 + i
        (named.find? fun n => decide ((recordOf s n).2 ≠ 0)).map fun n => (0x5201, n))
  | 3 =>
    if (s.pageSlot k).st ≠ 1 then some (0x5203, pcGranule b)
    else
      (match (pcPages s b).find? fun p => decide (pageEntries s ≤ p.1) with
      | some p => some (0x5203, p.2)
      | none => ((pcPages s b).find? fun p => !sameMapping s k p || decide ((recordOf s p.2).1 ≠ k)).map fun p => (0x5202, p.2))
  | _ => if (s.pageSlot k).st ≠ 1 then some (0x5203, 0) else none

/-- Map one page of a slot (R288): records owned, entry MAPPED; a page already so mapped is left unchanged. -/
def mapPage (k : Nat) (s : State) (p : Nat × Nat) : State :=
  if sameMapping s k p then s else
  let x := s.pageSlot k
  let s := setRecords s p.2 (slotGranules s k) (k + 256)
  let s := pageWrite s (pageEntryAt s k p.1) 8 (PageEntry.word { first := p.2, owner := k, size := x.e - 4, mapped := true, pending := false, inFlight := 0 })
  (noteGranules s (-(slotGranules s k : Int)) 0).setPageSlot k { x with mapped := x.mapped + 1 }

/-- Free one mapped page of a slot (R294): at once, or pending while reads are in flight. -/
def freePage (k : Nat) (s : State) (j : Nat) : State :=
  let a := pageEntryAt s k j
  let e := pageEntryOf (ofLe (hread s a 8))
  let g := pageGranules e.size
  let x := s.pageSlot k
  if e.inFlight = 0 then
    let s := setRecords (pageWrite s a 8 0) e.first g 0
    (noteGranules s g 0).setPageSlot k { x with mapped := x.mapped - 1 }
  else
    let s := setRecords (pageWrite s a 8 (PageEntry.word { e with mapped := false, pending := true })) e.first g (k + 512)
    (noteGranules s 0 g).setPageSlot k { x with mapped := x.mapped - 1, pending := x.pending + 1 }

/-- The effect of an applied command (Table 9-9). -/
def applyPage (s : State) (b : List Byte) : State :=
  let k := pcSlot b
  match pcOp b with
  | 1 => s.setPageSlot k { st := 1, e := pcExp b, mapped := 0, pending := 0 }
  | 2 => (pcPages s b).foldl (mapPage k) s
  | 3 => ((pcPages s b).map Prod.fst).foldl (freePage k) s
  | _ =>
    let s := ((List.range (pageEntries s)).filter fun j => (entryAt s k j).mapped).foldl (freePage k) s
    let x := s.pageSlot k
    closeIfDone (s.setPageSlot k { x with st := 2 }) k

/-- A refused command (R289): counted, kept, recorded, its event raised; from a program the run aborts. -/
def refusePage (s : State) (o : Origin) (b : List Byte) (event granule : Nat) : State :=
  let s := (s.addEnt 0x5200 3 1).setOct 0x5200 4 b
  let who := match originCore o with | some c => c.val | none => 0xFFFE
  let s := if s.ent 0x5240 1 = 0xFFFF then
      (((s.setEnt 0x5240 1 who).setEnt 0x5240 2 event).setEnt 0x5240 3 (pcSlot b)).setEnt 0x5240 4 granule
    else s
  let s := s.raise event []
  if (originCore o).isSome then abortRun s event else s

/-- The entries and records that a command reads and does not change (R287): those it checks, where it is refused; a page that is mapped as it
asks already; the unmapped entries that a CLOSE passes (log entry 8). -/
def pageReads (s : State) (b : List Byte) (refused : Bool) : List (Nat × Nat) :=
  let k := pcSlot b
  let entry (j : Nat) : Nat × Nat := (pageEntryAt s k j, 8)
  let record (n : Nat) : Nat × Nat := (recordAt s n, 4)
  let ps := (pcPages s b).filter fun p => decide (p.1 < pageEntries s)
  if !pcFieldsOk b ∨ (s.pageSlot k).st ≠ 1 then []
  else match pcOp b with
  | 2 =>
    if !refused then ps.filterMap fun p => if sameMapping s k p then some (entry p.1) else none
    else (ps.map fun p => entry p.1) ++
      if (ps.findSome? (mapInvalid s k)).isSome then []
      else (ps.filter fun p => !sameMapping s k p).flatMap fun p => (List.range (slotGranules s k)).map fun i => record (p.2 + i)
  | 3 =>
    if !refused then []
    else (ps.map fun p => entry p.1) ++ ps.filterMap fun p => if sameMapping s k p then some (record p.2) else none
  | 4 => if refused then [] else ((List.range (pageEntries s)).filter fun j => !(entryAt s k j).mapped).map entry
  | _ => []

/-- A write to `0x5200:01` (R288, R289). -/
def pageCommand (s : State) (o : Origin) (b : List Byte) : Nat × State :=
  match pageRefusal s b with
  | some (event, granule) => (stRange, refusePage (readRanges s (pageReads s b true)) o b event granule)
  | none => (stOk, (applyPage (readRanges s (pageReads s b false)) b).addEnt 0x5200 2 1)

end Sys2Proof.Machine
end

