-- ==== Sys2Proof/Machine/Regions.lean ====
section
/-!
DEFINITION. The detection and region units (R307 to R316): the commands of Table 10-3, their descriptors, DECODE, NMS and CROP.
-/
namespace Sys2Proof.Machine

/-! ### Descriptors (Tables 10-4, 10-5, 10-7) -/

def rcOp (b : List Byte) : Nat := field b 0 1
def rcDesc (b : List Byte) : Nat := field b 8 8
/-- An F32 at offset o. -/
def fieldF (b : List Byte) (o : Nat) : W32 := BitVec.ofNat 32 (field b o 4)
def rgCount (d : List Byte) : Nat := field d 4 4
def rgTopk (d : List Byte) : Nat := field d 40 4
def rgSize (k : Nat) : Nat := if k = 3 then 4 else 2
def cropSize (d : List Byte) : Nat := rgSize (field d 1 1)
def cropMapSize (d : List Byte) : Nat := rgSize (field d 2 1)

/-- The landing word (R310). -/
def rgLand (d : List Byte) : Bool := Nat.testBit (field d 60 4) 16
def rgCore (d : List Byte) : Nat := bits (field d 60 4) 9 0
def rgSem (d : List Byte) : Nat := bits (field d 60 4) 15 10

/-- The fixed number of bytes that a command writes, and where (R310, R312, R314, R316). -/
def rgBytes (op : Nat) (d : List Byte) : Nat :=
  match op with
  | 1 => 16 * rgCount d
  | 2 => 64 + 8 * rgTopk d
  | _ => rgCount d * field d 36 2 * field d 40 2 * field d 38 2 * cropSize d
def rgOut (d : List Byte) : Nat := field d 24 8

/-- What a command reads: address and bytes. -/
def rgInputs (op : Nat) (d : List Byte) : List (Nat × Nat) :=
  match op with
  | 1 => [(field d 8 8, 16 * rgCount d), (field d 16 8, 16 * rgCount d)]
  | 2 => [(field d 8 8, 16 * rgCount d), (field d 16 8, 4 * rgCount d)]
  | _ => [(field d 8 8, 16 * rgCount d),
      (field d 16 8, (field d 36 2 - 1) * field d 48 4 + (field d 34 2 - 1) * field d 44 4 + field d 32 2 * cropMapSize d)]

def f32Finite (v : W32) : Bool := (ofF32 v).isFinite
/-- Greater than 0 and finite. -/
def f32Positive (v : W32) : Bool := f32Finite v && FNum.lt (ofF32 0#32) (ofF32 v)

/-- Counts, extents and encodings of a descriptor. -/
def rgFieldsOk (op : Nat) (d : List Byte) : Bool :=
  let n := rgCount d
  let land := !rgLand d || (decide (rgCore d < 192) && decide (rgSem d < 48))
  land && decide (field d 0 1 = 1) && (match op with
  | 1 => decide (1 ≤ field d 1 1 ∧ field d 1 1 ≤ 2) && decide (n ≤ 65536)
  | 2 => decide (n ≤ 65536) && decide (1 ≤ rgTopk d ∧ rgTopk d ≤ 4096) && FNum.le (ofF32 0#32) (ofF32 (fieldF d 32)) &&
      FNum.le (ofF32 (fieldF d 32)) (ofF32 f32One) && (f32Finite (fieldF d 36) || decide (fieldF d 36 = f32NegInf))
  | 3 => decide (field d 1 1 = 1 ∨ field d 1 1 = 3) && decide (1 ≤ field d 2 1 ∧ field d 2 1 ≤ 3) && decide (n ≤ 16384) &&
      decide (1 ≤ field d 32 2) && decide (1 ≤ field d 34 2) && decide (1 ≤ field d 36 2 ∧ field d 36 2 ≤ 4096) &&
      decide (1 ≤ field d 38 2 ∧ field d 38 2 ≤ 256) && decide (1 ≤ field d 40 2 ∧ field d 40 2 ≤ 256) &&
      decide (field d 44 4 % cropMapSize d = 0) && decide (field d 48 4 % cropMapSize d = 0) && f32Positive (fieldF d 56)
  | _ => false)

/-- Whether the unit refuses a command (R308). -/
def rgRefused (s : State) (b d : List Byte) : Bool :=
  let op := rcOp b
  let regions := rgInputs op d ++ [(rgOut d, rgBytes op d)]
  !(runOrTest s && decide (1 ≤ op ∧ op ≤ 3) && decide (rcDesc b % 64 = 0) && isMemory (rcDesc b) 64 && rgFieldsOk op d &&
    regions.all fun r => decide (r.1 % 64 = 0) && isMemory r.1 r.2)

/-! ### Arithmetic -/

/-- Bytes at a local address, as a unit sees them. -/
def peek (s : State) (a n : Nat) : List Byte := (localRead s a n).1
def peekF (s : State) (a : Nat) : W32 := BitVec.ofNat 32 (ofLe (peek s a 4))
/-- The four coordinates of record i. -/
def boxAt (s : State) (a i : Nat) : W32 × W32 × W32 × W32 :=
  let b := peek s (a + 16 * i) 16
  (fieldF b 0, fieldF b 4, fieldF b 8, fieldF b 12)
def f32Half : W32 := 0x3F000000#32

/-- Clamp to [lo, hi]; NaN stays NaN. -/
def fclamp (lo hi v : W32) : W32 :=
  if (ofF32 v).isNan then f32Nan else if FNum.lt (ofF32 v) (ofF32 lo) then lo else if FNum.lt (ofF32 hi) (ofF32 v) then hi else v

/-- One axis of DECODE (R312): the two output coordinates. -/
def decodeAxis (corner clipOn : Bool) (a1 a2 dc dw q qs clip limit : W32) : W32 × W32 :=
  let (c, w) := if corner then (fmul (fadd a1 a2) f32Half, fsub a2 a1) else (a1, a2)
  let centre := fadd c (fmul (fmul dc q) w)
  let width := fmul w (fexp (fmin (fmul dw qs) clip))
  let lo := fsub centre (fmul width f32Half)
  let hi := fadd centre (fmul width f32Half)
  if clipOn then (fclamp 0#32 limit lo, fclamp 0#32 limit hi) else (lo, hi)

/-- The corner record of box i. -/
def decodeBox (s : State) (d : List Byte) (i : Nat) : List W32 :=
  let (a0, a1, a2, a3) := boxAt s (field d 8 8) i
  let (dx, dy, dw, dh) := boxAt s (field d 16 8) i
  let corner := decide (field d 1 1 = 2)
  let clip := Nat.testBit (field d 2 1) 0
  let (x1, x2) := decodeAxis corner clip a0 a2 dx dw (fieldF d 32) (fieldF d 40) (fieldF d 48) (fieldF d 52)
  let (y1, y2) := decodeAxis corner clip a1 a3 dy dh (fieldF d 36) (fieldF d 44) (fieldF d 48) (fieldF d 56)
  [x1, y1, x2, y2]

def fle (a b : W32) : Bool := FNum.le (ofF32 a) (ofF32 b)
def flt (a b : W32) : Bool := FNum.lt (ofF32 a) (ofF32 b)

/-- A candidate of NMS (R313): index, score, corners. -/
def nmsCandidate (d : List Byte) (score : W32) (b : W32 × W32 × W32 × W32) : Bool :=
  let (x1, y1, x2, y2) := b
  fle (fieldF d 36) score && f32Finite x1 && f32Finite y1 && f32Finite x2 && f32Finite y2 && fle x1 x2 && fle y1 y2

/-- Insert into a list of descending score; equal scores keep the order of insertion. -/
def insertScore (x : Nat × W32 × (W32 × W32 × W32 × W32)) :
    List (Nat × W32 × (W32 × W32 × W32 × W32)) → List (Nat × W32 × (W32 × W32 × W32 × W32))
  | [] => [x]
  | y :: r => if flt y.2.1 x.2.1 then x :: y :: r else y :: insertScore x r

/-- The area of a box, and the IoU of two boxes (R313). -/
def boxArea (b : W32 × W32 × W32 × W32) : W32 := fmul (fsub b.2.2.1 b.1) (fsub b.2.2.2 b.2.1)
def iou (a b : W32 × W32 × W32 × W32) : W32 :=
  let w := fsub (fmin a.2.2.1 b.2.2.1) (fmax a.1 b.1)
  let h := fsub (fmin a.2.2.2 b.2.2.2) (fmax a.2.1 b.2.1)
  let i := if flt 0#32 w && flt 0#32 h then fmul w h else 0#32
  let u := fsub (fadd (boxArea a) (boxArea b)) i
  if (ofF32 u).isZero then 0#32 else fdiv i u

/-- The candidates in order, and those kept. -/
def nmsOrder (s : State) (d : List Byte) : List (Nat × W32 × (W32 × W32 × W32 × W32)) :=
  (List.range (rgCount d)).foldl (fun l i =>
    let score := peekF s (field d 16 8 + 4 * i)
    let b := boxAt s (field d 8 8) i
    if nmsCandidate d score b then insertScore (i, score, b) l else l) []
def nmsKept (d : List Byte) (l : List (Nat × W32 × (W32 × W32 × W32 × W32))) : List (Nat × W32 × (W32 × W32 × W32 × W32)) :=
  l.foldl (fun kept x =>
    if rgTopk d ≤ kept.length ∨ (kept.any fun k => flt (fieldF d 32) (iou x.2.2 k.2.2)) then kept else kept ++ [x]) []

/-- The output of NMS (Table 10-6). -/
def nmsBytes (s : State) (d : List Byte) : List Byte :=
  let l := nmsOrder s d
  let kept := nmsKept d l
  le 4 kept.length ++ le 4 l.length ++ le 4 (rgCount d - l.length) ++ le 52 0 ++
    (kept.flatMap fun k => le 4 k.1 ++ le 4 k.2.1.toNat) ++
    (List.range (rgTopk d - kept.length)).flatMap fun _ => le 4 0xFFFFFFFF ++ le 4 0xFF800000

/-- ⌊v⌋ of a finite FP32 value that is not negative. -/
def floorNat (v : W32) : Nat :=
  match ofF32 v with
  | .fin false m e => if 0 ≤ e then m * 2 ^ e.toNat else m / 2 ^ (-e).toNat
  | _ => 0

/-- The element of a format, as FP32. -/
def elemF32 (fmt v : Nat) : W32 := if fmt = 3 then BitVec.ofNat 32 v else toF32 (decF (if fmt = 1 then .bf16 else .fp16) v)

/-- The interpolation of R315 on a map of w by h elements, at a point clamped to the map. -/
def interpolate (v : Nat → Nat → W32) (w h : Nat) (xc yc : W32) : W32 :=
  let y0 := floorNat yc
  let x0 := floorNat xc
  let y1 := if y0 + 1 < h then y0 + 1 else h - 1
  let x1 := if x0 + 1 < w then x0 + 1 else w - 1
  let fy := fsub yc (fOfInt y0)
  let fx := fsub xc (fOfInt x0)
  let line (i : Nat) : W32 := fadd (v i x0) (fmul fx (fsub (v i x1) (v i x0)))
  fadd (line y0) (fmul fy (fsub (line y1) (line y0)))

/-- The value of one point of CROP in a channel (R315). -/
def cropPoint (s : State) (d : List Byte) (c : Nat) (x y : W32) : W32 :=
  let w := field d 32 2
  let h := field d 34 2
  let y' := fsub y f32Half
  let x' := fsub x f32Half
  let minus1 := 0xBF800000#32
  if flt y' minus1 || flt (fOfInt h) y' || flt x' minus1 || flt (fOfInt w) x' then fieldF d 52
  else
    let size := cropMapSize d
    let v (i j : Nat) : W32 := elemF32 (field d 2 1) (ofLe (peek s (field d 16 8 + c * field d 48 4 + i * field d 44 4 + j * size) size))
    interpolate v w h (fclamp 0#32 (fOfInt (w - 1 : Nat)) x') (fclamp 0#32 (fOfInt (h - 1 : Nat)) y')

/-- The scaled box k of a CROP, and whether it is degenerate. -/
def cropBox (s : State) (d : List Byte) (k : Nat) : W32 × W32 × W32 × W32 :=
  let (a, b, c, e) := boxAt s (field d 8 8) k
  let z := fieldF d 56
  (fmul a z, fmul b z, fmul c z, fmul e z)
def cropDegenerate (b : W32 × W32 × W32 × W32) : Bool :=
  !(f32Finite b.1 && f32Finite b.2.1 && f32Finite b.2.2.1 && f32Finite b.2.2.2 && fle b.1 b.2.2.1 && fle b.2.1 b.2.2.2)

/-- Coordinate of a sample: lo + (i + (a + 0.5) / n) · size. -/
def cropCoord (lo size : W32) (i a n : Nat) : W32 :=
  fadd lo (fmul (fadd (fOfInt i) (fdiv (fadd (fOfInt a) f32Half) (fOfInt n))) size)

/-- Bin (i, j) of a box in a channel. -/
def cropBin (s : State) (d : List Byte) (b : W32 × W32 × W32 × W32) (c i j : Nat) : W32 :=
  if cropDegenerate b then fieldF d 52 else
  let sy := field d 3 1 % 2 + 1
  let sx := field d 3 1 / 2 % 2 + 1
  let bh := fdiv (fsub b.2.2.2 b.2.1) (fOfInt (field d 40 2))
  let bw := fdiv (fsub b.2.2.1 b.1) (fOfInt (field d 38 2))
  let points := (List.range sy).flatMap fun a => (List.range sx).map fun e =>
    cropPoint s d c (cropCoord b.1 bw j e sx) (cropCoord b.2.1 bh i a sy)
  match points with
  | [] => 0#32
  | p :: r => fmul (r.foldl fadd p) (fdiv f32One (fOfInt ((sy * sx : Nat) : Int)))

/-- The output of CROP (R316). -/
def cropBytes (s : State) (d : List Byte) : List Byte :=
  (List.range (rgCount d)).flatMap fun k =>
    let b := cropBox s d k
    (List.range (field d 36 2)).flatMap fun c => (List.range (field d 40 2)).flatMap fun i => (List.range (field d 38 2)).flatMap fun j =>
      let v := cropBin s d b c i j
      if field d 1 1 = 3 then le 4 v.toNat else le 2 (narrow .bf16 .rne (ofF32 v)).1

/-- What a command writes, and the degenerate boxes it counts (R312, R315). -/
def rgResult (s : State) (op : Nat) (d : List Byte) : List Byte × Nat :=
  match op with
  | 1 =>
    let boxes := (List.range (rgCount d)).map (decodeBox s d)
    (boxes.flatMap fun b => b.flatMap fun v => le 4 v.toNat, (boxes.filter fun b => b.any fun v => !f32Finite v).length)
  | 2 => (nmsBytes s d, 0)
  | _ => (cropBytes s d, ((List.range (rgCount d)).filter fun k => cropDegenerate (cropBox s d k)).length)

/-! ### Commands -/

def State.region (s : State) (die : Nat) : List RegionCmd := sget [] s.regions die
def State.setRegion (s : State) (die : Nat) (l : List RegionCmd) : State := { s with regions := sset [] s.regions die l }

/-- The descriptor that a command names. -/
def rgCopy (s : State) (b : List Byte) : List Byte := peek s (rcDesc b) 64

/-- A refused command (R308). -/
def refuseRegion (s : State) (o : Origin) (die op : Nat) : State :=
  let s := (s.addEnt (0x5310 + die) 3 1).raise 0x5302 []
  match originCore o with
  | none => s
  | some c =>
    let s := if s.ent 0x5320 1 = 0xFFFF then
        (((s.setEnt 0x5320 1 c.val).setEnt 0x5320 2 0x5302).setEnt 0x5320 3 op).setEnt 0x5320 4 die
      else s
    abortRun s 0x5302

/-- A command that passes waits while 16 are queued (R309). -/
def regionWaits (s : State) (die : Nat) (b d : List Byte) : Bool := !rgRefused s b d && decide (16 ≤ (s.region die).length)

/-- A write to `0x5310` + die `:01` (R307, R308). -/
def regionCommand (s : State) (o : Origin) (die : Nat) (b d : List Byte) : Nat × State :=
  if rgRefused s b d then (stRange, refuseRegion s o die (rcOp b))
  else (stOk, s.setRegion die (s.region die ++ [{ core := originCore o, op := rcOp b, desc := d, live := true }]))

/-- The outputs of a command that an abort stopped are undefined: free bytes (R311; log entry 3). -/
def spoilOutput (s : State) (x : RegionCmd) : State :=
  let (b, s) := drawBytes s (rgBytes x.op x.desc)
  localWrite s (rgOut x.desc) b

/-- The running command of each unit that an abort stopped is gone. -/
def stopRegions (s : State) : State :=
  (List.range 4).foldl (fun s die =>
    match s.region die with
    | x :: r => if x.live then s else (spoilOutput s x).setRegion die r
    | [] => s) s

/-- The command at the head of a unit's queue ends (R309 to R316). -/
def finishRegion (s : State) (die : Nat) : State :=
  match s.region die with
  | [] => s
  | x :: r =>
    if !x.live then (spoilOutput s x).setRegion die r
    else
      let (s, bad) := (rgInputs x.op x.desc).foldl (fun (sb : State × Bool) i =>
        let (_, t, b) := localRead sb.1 i.1 i.2
        (t, sb.2 || b)) (s, false)
      if bad then abortRun ((spoilOutput s x).setRegion die r) 0x4102
      else
        let (b, n) := rgResult s x.op x.desc
        let s := ((localWrite s (rgOut x.desc) b).addEnt 0x5330 (die + 1) n).addEnt (0x5310 + die) 2 1
        let s := s.setRegion die r
        if rgLand x.desc then incSem s (rgCore x.desc) (rgSem x.desc) (ceilDiv (rgBytes x.op x.desc) 64) true else s

end Sys2Proof.Machine
end

