-- ==== Sys2Proof/Machine/Context.lean ====
section
/-!
DEFINITION. Pause and the core context (R162 to R166), and setting a semaphore by hand (R167, R168).
-/
namespace Sys2Proof.Machine

/-- Status that a core keeps once its queued instructions have retired: a HALT among them has ended the program. -/
def stopCore (x : CoreS) : CoreS := if x.wait = .halt then { x with status := 4, wait := .none } else x

/-- Every queued instruction has retired and every transfer, POST and READ of the cores is acknowledged (R163, R402), what Galena sends apart; a
region command of a core counts as its transfer (R311). -/
def drained (s : State) : Bool :=
  s.cores.all (fun c => decide (c.2.passes = []) && decide (c.2.posts = []) && decide (c.2.moves = [])) &&
    (List.range 4096).all (fun k => match sget none s.links.requests k with | some r => decide (r.kind = .hostmsg) | none => true) &&
    s.regions.all fun r => r.2.all fun x => x.core.isNone

/-- DRAIN_COMPLETE (R163). -/
def execDrainComplete (s : State) : Out :=
  if s.running ∧ s.run.drainSince.isSome ∧ s.run.drained = false ∧ drained s then
    .next { s with run := { s.run with drained := true }, cores := s.cores.map fun c => (c.1, stopCore c.2) }
  else .next s

/-- Save the image of a core at the pause point. -/
def saveAt (point : Nat) (s : State) (c : Nat) : State := saveImage s c point (point - s.run.start.toNat)

/-- A run has paused: its measurement is kept for its resume, or follows when the engine has made it (R477). -/
def keepMeasurement (s : State) : State :=
  { s with
    run := { s.run with pauseAsked := false, drainSince := none, drained := false }
    trust := { s.trust with
      pausedHash := if s.trust.hashing then none else s.run.measurement
      owedTab := if s.trust.hashing then some s.run.tab else s.trust.owedTab
      hashing := false } }

/-- CONTEXT_SAVED (R164): the 192 images are written and the module enters PAUSE; outside RUN every port is all open (R57), and the ballast
tapers off (R489). The power-down of a halt whose abort came too late for the pause's commit follows (R512). -/
def execContextSaved (s : State) : Out :=
  match s.run.drainSince with
  | none => .next s
  | some point =>
    if s.running ∧ s.run.drained then
      let s := (List.range 192).foldl (saveAt point.toNat) s
      let s := (openPorts (endRun s)).setEnt 0x3100 2 0
      .next ((keepMeasurement s).enterEff .pause)
    else .next s

/-- DRAIN_TIMEOUT (R163): 100 µs after the pause point the drain is not complete; nothing is saved. -/
def execDrainTimeout (t : FTime) (s : State) : Out :=
  atTime s t fun s =>
    match s.run.drainSince with
    | none => .next s
    | some point =>
      if s.running ∧ s.run.drained = false ∧ point.toNat + 100000 ≤ s.now.toNat then
        .next (toFault (s.raise 0x5505 []) 0x5505)
      else .next s

/-- Set or add, saturating without an overflow event (R167). -/
def forced (op old v : Nat) : Nat := if op = 2 then (if 2 ^ 32 ≤ old + v then 2 ^ 32 - 1 else old + v) else v

/-- A semaphore in a saved image. -/
def imageSem (s : State) (c k : Nat) : Nat := ofLe (hread s (imageAt s c + 192 + 4 * k) 4)

/-- A forced write to the saved image: the value, and the digest over the image as it then is. -/
def setImageSem (s : State) (c k v : Nat) : State :=
  let s := memWrite s (imageAt s c + 192 + 4 * k) (le 4 v)
  memWrite (lookups s (imageAt s c) 7340032 false true) (imageAt s c + 4032) (imageDigest s c)

/-- Account for an accepted force (R168). -/
def noteForce (s : State) (c k old new : Nat) : State :=
  (((s.addEnt 0x9100 5 1).setEnt 0x9100 6 s.now.toNat).setEnt 0x9100 7 (s.ent 0x5010 1 % 2 ^ 32)).raise 0x5501
    [(2, c), (1, k), (4, old), (4, new)]

/-- The write to `0x9100:04` (R167): RUN and TEST change the semaphore, PAUSE the saved image; other states refuse. -/
def semForce (s : State) (v : Nat) : Nat × State :=
  let c := s.ent 0x9100 1
  let k := s.ent 0x9100 2
  let op := s.ent 0x9100 3
  if s.eff = .pause then
    let old := imageSem s c k
    let t := (memRead s (imageAt s c + 192 + 4 * k) 4 true).2.1
    (stOk, noteForce (setImageSem t c k (forced op old v)) c k old (forced op old v))
  else if s.ctl.dev = .run ∨ s.ctl.dev = .test then
    let old := s.sem c k
    (stOk, noteForce (s.setSem c k (forced op old v)) c k old (forced op old v))
  else (stState, s)

end Sys2Proof.Machine
end

