-- ==== Sys2Proof/Machine/Tab.lean ====
section
/-!
DEFINITION. A tab as it lies in HBM, and arming checks 1, 2, 5 and 6 (R448, R449, R120, R122, R94, R109, R150, R66, R393).
-/
namespace Sys2Proof.Machine

/-- What refuses an arming: the event's code and the values of its detail. -/
abbrev Bad := Nat × List (Nat × Nat)

def badUnless (code : Nat) (ok : Bool) : Option Bad := if ok then none else some (code, [])
/-- The first failure of a list of checks. -/
def firstBad (l : List (Option Bad)) : Option Bad := (l.filterMap id).head?

/-! ### Header and sections (Tables 15-9, 15-10) -/

def tabHead (s : State) (base : Nat) : List Byte := hread s base 512
def thBytes (h : List Byte) : Nat := field h 16 8
def thCount (h : List Byte) : Nat := field h 24 4
def thTable (h : List Byte) : Nat := field h 32 8
def thShards (h : List Byte) : Nat := field h 40 8
def thSlots (h : List Byte) : Nat := field h 48 2
def thMaximum (h : List Byte) (k : Nat) : Nat := field h (64 + 4 * k) 4

structure Section where
  kind : Nat
  target : Nat
  off : Nat
  len : Nat
deriving DecidableEq, Repr

def sectionOf (d : List Byte) : Section := { kind := field d 0 1, target := field d 2 2, off := field d 8 8, len := field d 16 8 }
def sections (s : State) (base : Nat) : List Section :=
  let h := tabHead s base
  (List.range (thCount h)).map fun i => sectionOf (hread s (base + thTable h + 32 * i) 32)
def secBytes (s : State) (base : Nat) (x : Section) : List Byte := hread s (base + x.off) x.len
/-- The sections of a kind. -/
def secsOf (s : State) (base kind : Nat) : List Section := (sections s base).filter fun x => decide (x.kind = kind)
/-- The bytes of the first section of a kind; none where the tab has none. -/
def oneSec (s : State) (base kind : Nat) : List Byte := ((secsOf s base kind).head?.map (secBytes s base)).getD []

/-- Ranges (first, length) do not overlap; an empty one overlaps nothing. -/
def apart : List (Nat × Nat) → Bool
  | [] => true
  | (a, n) :: r => r.all (fun x => decide (n = 0 ∨ x.2 = 0 ∨ a + n ≤ x.1 ∨ x.1 + x.2 ≤ a)) && apart r

/-! ### Programs (R449, Table 3-10) -/

structure ProgramImg where
  landing : Nat
  words : List W64
  modes : List W64
  tables : List (List Byte)
deriving DecidableEq, Repr

def up64 (n : Nat) : Nat := ceilDiv n 64 * 64
/-- The bytes from one part's end to the next part are zero. -/
def padOk (b : List Byte) (pos : Nat) : Bool := allZero (slice b pos (up64 pos - pos))

/-- n activation table images from a place, each at a multiple of 64, and the place after the last. -/
def tablesFrom (b : List Byte) : Nat → Nat → Option (List (List Byte) × Nat)
  | 0, pos => some ([], pos)
  | n + 1, pos =>
    let p := up64 pos
    let len := if field b (p + 1) 1 = 1 then 8224 else 4128
    if b.length < p + len ∨ 1 < field b (p + 1) 1 ∨ padOk b pos = false then none
    else (tablesFrom b n (p + len)).map fun r => (slice b p len :: r.1, r.2)

/-- A PROGRAM section taken apart; none where its head or length breaks R449. -/
def programOf (b : List Byte) : Option ProgramImg :=
  let n := field b 2 2
  let m := field b 4 2
  let t := field b 1 1
  let p := up64 (64 + 8 * n)
  let stop := if m = 0 then 64 + 8 * n else p + 8 * m
  if b.length < 64 ∨ field b 0 1 ≠ 1 ∨ 4 < t ∨ n = 0 ∨ 16384 < n ∨ 4096 < m ∨ field b 6 2 ≠ 0 ∨ 2 ^ 48 ≤ field b 8 8 ∨
      !allZero (slice b 16 48) ∨ b.length < stop ∨ (m ≠ 0 ∧ padOk b (64 + 8 * n) = false) then none
  else
    match tablesFrom b t stop with
    | some (l, e) =>
      if e = b.length then
        some { landing := field b 8 8, words := (wordsAt 8 (b.drop 64) n).map (BitVec.ofNat 64),
               modes := if m = 0 then [] else (wordsAt 8 (b.drop p) m).map (BitVec.ofNat 64), tables := l }
      else none
    | none => none

/-- The programs of a tab by core, in ascending order. -/
def programs (s : State) (base : Nat) : List (Nat × ProgramImg) :=
  let l := secsOf s base 1
  (List.range 192).filterMap fun c =>
    (l.find? fun x => decide (x.target = c)).bind fun x => (programOf (secBytes s base x)).map fun p => (c, p)

/-- The landing mask of a core; a core without a program has none. -/
def landingOf (l : List (Nat × ProgramImg)) (c : Nat) : Nat := ((l.find? fun x => decide (x.1 = c)).map fun x => x.2.landing).getD 0

/-! ### Schedule sets and capo table (Tables 2-3 to 2-5) -/

/-- The sets of a tab by port · 4 + slot, in ascending order: the header's version and the fret entries. -/
def schedSets (s : State) (base : Nat) : List (Nat × Nat × List W32) :=
  let l := secsOf s base 2
  (List.range 256).filterMap fun k =>
    (l.find? fun x => decide (x.target % 64 * 4 + x.target / 64 = k)).map fun x =>
      let b := secBytes s base x
      (k, field b 0 1, (wordsAt 4 (b.drop 16) (field b 4 2)).map (BitVec.ofNat 32))

/-- The capo table: offset, kind, slot, port mask. -/
def capoTable (s : State) (base : Nat) : List (Nat × Nat × Nat × BitVec 48) :=
  let b := oneSec s base 3
  (List.range (b.length / 16)).map fun i =>
    let e := slice b (16 * i) 16
    (field e 0 8, field e 8 1, field e 9 1 % 4, BitVec.ofNat 48 (field e 10 6))

/-! ### Checks 1 and 2 -/

def tabTag : List Byte := asciiBytes [70, 84, 65, 66]

/-- Check 1 (Table 15-9). -/
def checkVersion (s : State) (base : Nat) : Option Bad :=
  let h := tabHead s base
  badUnless 0x5002 (decide (h.take 4 = tabTag) && decide (field h 4 1 = 1) && decide (field h 5 1 = s.ent 0x1008 1) &&
    decide (field h 8 8 &&& (2 ^ 64 - 1 - s.ent 0x1010 1) = 0))

/-- One section under Tables 2-3, 15-10 and R449. -/
def sectionOk (s : State) (base : Nat) (x : Section) : Bool :=
  let b := secBytes s base x
  match x.kind with
  | 1 => decide (x.target ≤ 191) && (programOf b).isSome
  | 2 => decide (16 ≤ x.len) && decide (x.target < 256) && decide (field b 1 1 = x.target % 64) &&
      decide (field b 2 1 % 4 = x.target / 64) && decide (x.len = 16 + 4 * field b 4 2)
  | 3 => decide (x.target = 0) && decide (x.len % 16 = 0)
  | 4 => decide (x.target = 0)
  | 5 => decide (x.target = 0)
  | _ => false

/-- Check 2 (R448, R449). -/
def checkStructure (s : State) (base : Nat) : Option Bad :=
  let h := tabHead s base
  let l := sections s base
  badUnless 0x5001 (decide (base % 4096 = 0) && decide (512 ≤ thBytes h ∧ thBytes h ≤ 2 ^ 32) && inHbm base (thBytes h) &&
    decide (1 ≤ thCount h ∧ thCount h ≤ 1024) && decide (thTable h % 64 = 0) && decide (thTable h + 32 * thCount h ≤ thBytes h) &&
    decide (thSlots h ≤ 64) && ((List.range 64).all fun k => decide (k < thSlots h ∨ thMaximum h k = 0)) &&
    (l.all fun x => decide (1 ≤ x.kind ∧ x.kind ≤ 5) && decide (x.off % 64 = 0) && decide (x.off + x.len ≤ thBytes h)) &&
    apart ((0, 512) :: (thTable h, 32 * thCount h) :: l.map fun x => (x.off, x.len)) &&
    decide ((secsOf s base 3).length = 1) && decide ((secsOf s base 4).length ≤ 1) && decide ((secsOf s base 5).length ≤ 1) &&
    decide ((secsOf s base 1).map (fun x => x.target)).Nodup && decide ((secsOf s base 2).map (fun x => x.target)).Nodup &&
    l.all (sectionOk s base))

/-! ### Check 5: instructions (R120, R122) -/

def mD : Nat := 0xF00000000000
def mA : Nat := 0xF0000000000
def mB : Nat := 0xF000000000
def mI : Nat := 0xFFFFFFFF
/-- n bits from bit lo. -/
def mBits (lo n : Nat) : Nat := (2 ^ n - 1) * 2 ^ lo
/-- The POST field: POST, and sem where it is set. -/
def mPost (v : Nat) : Nat := 2 ^ 19 + if Nat.testBit v 19 then mBits 12 6 else 0
/-- The mode operand: an index, or a register with MODEREG. -/
def mMode (v : Nat) : Nat := if Nat.testBit v 48 then mBits 20 4 else mBits 20 12

/-- The p, pad and param bits that an RFUNC uses (Table 4-3): p where the op names a use, pad of ROWMAX (R130), param of ACT, ACTD and CAST, and
bits 7 to 4 of a ROWMAX or ROWSUM that may pool (R306). -/
def rfuncBits (v : Nat) : Nat :=
  let op := bits v 47 42
  (if op ∈ [1, 2, 3, 4, 5, 0xA, 0xB, 0xC, 0x10, 0x11, 0x12, 0x13] then mBits 22 4 else 0) + (if op = 0x0D then mBits 20 2 else 0) +
    (if op ∈ [0xB, 0xC, 0x13] then mBits 4 8
      else if (op = 0x0D ∨ op = 0x0E) ∧ bits v 51 48 = 0 then mBits 4 4 else 0)

/-- The flag and operand bits that an instruction uses (Table 4-2); none for a reserved opcode. A field that a clear flag
leaves without a use is reserved in that form. DESIGN CHOICE (log entry 152): a register field that Table 4-2 gives an instruction is used by
it in every form: w of a pass with KEEP, c of a format without scales and src of an RFUNC with FROMPASS may be non-zero. -/
def usedBits (v : Nat) : Option Nat :=
  match v / 2 ^ 56 with
  | 0x01 => some 0
  | 0x02 => some 0
  | 0x03 => some mI
  | 0x04 => some (mBits 48 3 + mA + mB + mI)
  | 0x05 => some (mBits 50 2 + (if Nat.testBit v 50 then mBits 48 2 else 0) + (if Nat.testBit v 51 then mA else 0) + mI)
  | 0x06 => some 0
  | 0x07 => some (mBits 48 2 + mD)
  | 0x10 => some (mD + mI)
  | 0x11 => some (mD + mI)
  | 0x12 => some (mBits 48 5 + mD + mA + if Nat.testBit v 52 then mI else mB)
  | 0x13 => some (mD + mA + mI)
  | 0x14 => some (mBits 48 2 + mD + mA + mI)
  | 0x15 => some (mBits 48 2 + mA + mB + mI)
  | 0x20 => some (mD + mA + mBits 32 6 + mI)
  | 0x21 => some (mBits 48 2 + mI)
  | 0x22 => some (mD + mBits 32 8)
  | 0x23 => some (mA + mBits 32 8)
  | 0x24 => some (mD + mA + mI)
  | 0x30 => some (mBits 48 3 + mD + mA + mB + mBits 32 4 + mMode v + mPost v)
  | 0x31 => some (mBits 48 1 + mBits 51 1 + mD + mA + mB + mMode v + mPost v)
  | 0x32 => some (mBits 48 4 + mBits 26 22 + rfuncBits v + mPost v + mBits 0 4)
  | 0x40 => some (mA + mPost v)
  | 0x50 => some (mBits 38 10 + mI)
  | 0x51 => some (mBits 48 1 + mBits 42 6 + if Nat.testBit v 48 then mBits 38 4 else mI)
  | 0x52 => some (mBits 38 4 + mI)
  | _ => none

/-- Function codes of Table 3-9: built in, and loaded tables with their derivative sets (R106, R120). -/
def tabActOk (code : Nat) (derivative : Bool) (tables : List (List Byte)) : Bool :=
  decide (1 ≤ code ∧ code ≤ 0x0A) ||
    (decide (0x10 ≤ code ∧ code < 0x10 + tables.length) &&
      (!derivative || decide (field (tables.getD (code - 0x10) []) 1 1 = 1)))

/-- The row-unit fields (Table 4-3, R119, R226). -/
def rfuncOk (v : Nat) (tables : List (List Byte)) : Bool :=
  let op := bits v 47 42
  let out := bits v 3 0
  let param := bits v 11 4
  decide (1 ≤ op ∧ op ≤ 0x13) && decide (out ≤ 2) &&
    (match op with
    | 0x0B => tabActOk param false tables
    | 0x0C => tabActOk param true tables
    | 0x13 => decide (1 ≤ param % 16 ∧ param % 16 ≤ 6) && decide (param / 16 ≤ 4) && decide (out = 0) && !Nat.testBit v 49 &&
        (decide (bits v 51 48 = 0) || decide (param % 16 = 3))
    | _ => true)

/-- One instruction under R120, its branch target and loop place apart. -/
def instrOk (p : ProgramImg) (w : W64) : Bool :=
  let v := w.toNat
  let imm := bits v 31 0
  let postOk := !Nat.testBit v 19 || decide (bits v 17 12 ≤ 47)
  (match usedBits v with
    | some m => decide (v % 2 ^ 56 &&& (2 ^ 56 - 1 - m) = 0)
    | none => false) &&
  (match v / 2 ^ 56 with
    | 0x04 => decide (bits v 50 48 ≤ 5)
    | 0x12 => decide (bits v 51 48 ≤ 12)
    | 0x13 => decide (1 ≤ imm ∧ imm ≤ 2 ^ 31)
    | 0x14 => decide (bits v 49 48 ≤ 1)
    | 0x15 => decide (bits v 49 48 ≤ 1)
    | 0x24 => decide (1 ≤ imm ∧ imm ≤ 65536)
    | 0x30 => postOk && (Nat.testBit v 48 || decide (bits v 31 20 < p.modes.length))
    | 0x31 => postOk && (Nat.testBit v 48 || decide (bits v 31 20 < p.modes.length))
    | 0x32 => postOk && rfuncOk v p.tables
    | 0x40 => postOk
    | 0x50 => decide (bits v 47 42 ≤ 47)
    | 0x51 => decide (bits v 47 42 ≤ 47)
    | _ => true)

/-- The body of each instruction (R122): bodies are numbered as they open, 0 outside every level. `stack` holds the
enclosing body and the counter of each open level. None where the loop structure breaks R122. -/
def bodies : List W64 → List (Nat × Option Nat) → Nat → Nat → Option (List Nat)
  | [], stack, _, _ => if stack = [] then some [] else none
  | w :: r, stack, cur, next =>
    let v := w.toNat
    match v / 2 ^ 56 with
    | 0x05 =>
      let c := if Nat.testBit v 50 then some (bits v 49 48) else none
      if 6 ≤ stack.length ∨ (c.isSome ∧ stack.any fun x => decide (x.2 = c)) then none
      else (bodies r ((cur, c) :: stack) next (next + 1)).map (cur :: ·)
    | 0x06 =>
      match stack with
      | [] => none
      | (b, _) :: t => (bodies r t b next).map (cur :: ·)
    | _ => (bodies r stack cur next).map (cur :: ·)

/-- A branch stays in its own body (R122). -/
def branchesOk (words : List W64) (bs : List Nat) : Bool :=
  (words.zipIdx).all fun x =>
    let op := x.1.toNat / 2 ^ 56
    if op = 0x03 ∨ op = 0x04 then
      let t : Int := (x.2 : Int) + signed 32 (bits x.1.toNat 31 0)
      decide (0 ≤ t ∧ t < words.length) && decide (bs.getD t.toNat 0 = bs.getD x.2 0)
    else true

/-- R120 for one program. -/
def programOk (p : ProgramImg) : Bool :=
  p.words.all (instrOk p) && (match bodies p.words [] 0 1 with
    | some bs => branchesOk p.words bs
    | none => false)

/-- R94 for one program: each word is valid for its own unit, and each APASS and MPASS names a word of its unit. -/
def modesOk (p : ProgramImg) : Bool :=
  (p.modes.all fun w => mwFieldsOk w (mwUnit w) && (decide (mwUnit w = 0) || mwRowsOk w (mwVectors w))) &&
    p.words.all fun w =>
      let v := w.toNat
      let op := v / 2 ^ 56
      if (op = 0x30 ∨ op = 0x31) ∧ !Nat.testBit v 48 then
        decide (mwUnit (p.modes.getD (bits v 31 20) 0) = op - 0x30)
      else true

/-- R109 for one table image. -/
def tableOk (t : List Byte) : Bool := decide (field t 0 1 = 1) && decide (-16 ≤ fieldI t 2 1 ∧ fieldI t 2 1 ≤ 8)

/-- R150 for one program: no local post names a landing semaphore. -/
def postsOk (p : ProgramImg) : Bool :=
  p.words.all fun w =>
    let v := w.toNat
    let op := v / 2 ^ 56
    let local_ := decide (op = 0x51) && !Nat.testBit v 48 && Nat.testBit p.landing (bits v 47 42)
    let post := decide (op = 0x30 ∨ op = 0x31 ∨ op = 0x32 ∨ op = 0x40) && Nat.testBit v 19 && Nat.testBit p.landing (bits v 17 12)
    !(local_ || post)

/-- Check 5 (Table 15-11). -/
def checkPrograms (s : State) (base : Nat) : Option Bad :=
  let l := programs s base
  firstBad [badUnless 0x5103 (l.all fun p => programOk p.2), badUnless 0x5601 (l.all fun p => modesOk p.2),
    badUnless 0x5601 (l.all fun p => p.2.tables.all tableOk), badUnless 0x5502 (l.all fun p => postsOk p.2)]

/-! ### Check 6: schedule sets, capo table, ports (R66, R393) -/

/-- SCHEDULE_INVALID with its detail (Table 2-9). -/
def schedBad (cause port at_ stream offset : Nat) : Option Bad :=
  some (0x3203, [(1, cause), (1, port), (2, at_), (4, stream), (8, offset)])

/-- One fret of a set, after the frets before it. -/
def fretBad (port : Nat) (set : List W32) (j : Nat) : Option Bad :=
  let f := set.getD j 0
  let n := fretStream f
  let slack := ((set.take j).filter fun g => decide (fretKind g = 2 ∧ fretStream g = n)).length
  if fretKind f = 3 ∨ (fretKind f = 0 ∧ n ≠ 0) then schedBad 1 port j n 0
  else if fretKind f = 0 then none
  else if n = 0 then schedBad 2 port j 0 0
  else if fretKind f = 1 ∧ slack ≠ 0 then schedBad 2 port j n 0
  else if fretKind f = 2 ∧ 255 ≤ slack then schedBad 2 port j n 0
  else none

/-- A stream has a RESERVED fret (R59). -/
def streamBad (port : Nat) (set : List W32) (j : Nat) : Option Bad :=
  let f := set.getD j 0
  if fretKind f = 2 ∧ set.all (fun g => !decide (fretKind g = 1 ∧ fretStream g = fretStream f)) then schedBad 2 port j (fretStream f) 0
  else none

def setBad (x : Nat × Nat × List W32) : Option Bad :=
  let port := x.1 / 4
  let set := x.2.2
  if x.2.1 ≠ 1 ∨ 47 < port ∨ set.length = 0 ∨ 4096 < set.length then schedBad 1 port 0 0 0
  else firstBad ((List.range set.length).map (fretBad port set) ++ (List.range set.length).map (streamBad port set))

/-- One entry of the capo table by itself and after the one before it (R63, R64). -/
def capoBad (l : List (Nat × Nat × Nat × BitVec 48)) (i : Nat) : Option Bad :=
  let c := l.getD i (0, 0, 0, 0)
  let before := (l.getD (i - 1) (0, 0, 0, 0)).1
  if c.2.1 = 0 ∨ 3 < c.2.1 then schedBad 1 0xFF i 0 c.1
  else if c.1 % 128 ≠ 0 then schedBad 3 0xFF i 0 c.1
  else if (i = 0 ∧ (c.1 ≠ 0 ∨ c.2.1 ≠ 1)) ∨ (i ≠ 0 ∧ c.1 ≤ before) ∨ (c.2.1 = 3 ∧ i + 1 ≠ l.length) ∨ (c.2.1 ≠ 3 ∧ i + 1 = l.length) then
    schedBad 7 0xFF i 0 c.1
  else none

/-- The set that a port has in force at an offset, by the entries of the list: slot and the offset at which it took force. -/
def forceAt (l : List (Nat × Nat × Nat × BitVec 48)) (p t : Nat) : Option (Nat × Nat) :=
  ((l.filter fun c => decide (c.1 ≤ t) && decide (c.2.1 ≠ 3) && c.2.2.2.getLsbD p).getLast?).map fun c => (c.2.2.1, c.1)

/-- The frets of a set by port and slot; none where the tab holds no such set. -/
def setOf (sets : List (Nat × Nat × List W32)) (p slot : Nat) : Option (List W32) :=
  (sets.find? fun x => decide (x.1 = p * 4 + slot)).map fun x => x.2.2

/-- A port at a SWITCH or COMMIT: its new slot holds a set, and the point falls on a cycle boundary of the old one. -/
def switchBad (sets : List (Nat × Nat × List W32)) (l : List (Nat × Nat × Nat × BitVec 48)) (i p : Nat) : Option Bad :=
  let c := l.getD i (0, 0, 0, 0)
  if c.2.1 = 3 ∨ c.2.2.2.getLsbD p = false then none
  else if setOf sets p c.2.2.1 = none then schedBad 5 p i 0 c.1
  else match forceAt (l.take i) p c.1 with
    | none => none
    | some (slot, t0) =>
      if (c.1 - t0) % (128 * ((setOf sets p slot).getD []).length) ≠ 0 then schedBad 4 p i 0 c.1 else none

/-- A RESERVED or SLACK fret within 6,000 ns before a COMMIT: fret m before it, on a port. DESIGN CHOICE (log entry 134): m runs to 47, so the fret that
only partly overlaps the 6,000 ns counts as within them. -/
def guardBad (sets : List (Nat × Nat × List W32)) (l : List (Nat × Nat × Nat × BitVec 48)) (c p m : Nat) : Option Bad :=
  if c < 128 * m then none else
  let t := c - 128 * m
  match forceAt l p t with
  | none => none
  | some (slot, t0) =>
    let set := (setOf sets p slot).getD []
    let j := (t - t0) / 128 % set.length
    let f := set.getD j 0
    if fretKind f = 1 ∨ fretKind f = 2 then schedBad 6 p j (fretStream f) c else none

/-- What breaks R66 at entry i: a port's new slot or cycle boundary, and at a COMMIT the guard of 46 whole frets and the fret that overlaps its beginning
(DESIGN CHOICE, log entry 134). -/
def switchesBad (sets : List (Nat × Nat × List W32)) (l : List (Nat × Nat × Nat × BitVec 48)) (i : Nat) : Option Bad :=
  let c := l.getD i (0, 0, 0, 0)
  firstBad ((List.range 48).map (switchBad sets l i) ++
    if c.2.1 = 2 then (List.range 48).flatMap fun p => (List.range 47).map fun m => guardBad sets l c.1 p (m + 1) else [])

/-- Check 6 (Table 15-11). DESIGN CHOICE (log entry 135): within a part, of several conditions that break, a set reports its frets and then its streams, and the capo table
kind, alignment, order, slot, boundary and guard. -/
def checkSchedules (s : State) (base : Nat) : Option Bad :=
  let sets := schedSets s base
  let l := capoTable s base
  let n := List.range l.length
  firstBad (sets.map setBad ++
    (if l = [] ∨ 256 < l.length then [schedBad 7 0xFF 0 0 0] else []) ++ n.map (capoBad l) ++ n.map (switchesBad sets l) ++
    [badUnless 0x3101 (sets.all fun x => s.inService (x.1 / 4) || x.2.2.all fun f => decide (fretKind f = 0))])

end Sys2Proof.Machine
end

