-- ==== Sys2Proof/Machine/TabData.lean ====
section
/-!
DEFINITION. Arming checks 3, 4, 7 and 8: owner signatures (R482), the measurement of a resume (R477), shard table (R250, R270), commit
layout (R265), collective schedule (R414, R429, R150) and context images (R165).
-/
namespace Sys2Proof.Machine

/-! ### Measurement and signatures -/

/-- The tab with its SIGNATURE section read as zero (R450). -/
def measuredBytes (s : State) (base : Nat) : List Byte :=
  let b := hread s base (thBytes (tabHead s base))
  match (secsOf s base 5).head? with
  | some x => b.take x.off ++ List.replicate x.len 0 ++ b.drop (x.off + x.len)
  | none => b
def measure (s : State) (base : Nat) : List Byte := padTo 48 (Config.sha384 (measuredBytes s base))

/-- An owner is enrolled (`0x8130:07`). -/
def owned (s : State) : Bool := decide (s.ent 0x8130 7 = 1)
/-- The owner fingerprint, first 8 bytes of register 5 (R480). -/
def ownerPrint (s : State) : List Byte := (s.oct 0x8210 6).take 8

/-- Failure bits of the tab's signatures (R475): 0 RSA, 1 SLH-DSA, 2 header, 4 section missing or fingerprint wrong. -/
def ownerFailure (s : State) (base : Nat) : Nat :=
  let g := oneSec s base 5
  let m := measure s base
  if (secsOf s base 5).length ≠ 1 ∨ g.length ≠ 16624 then 16 else
  (if Config.rsaVerifies (s.trust.owner.take 384) m (slice g 16 384) then 0 else 1) +
  (if Config.slhVerifies (s.trust.owner.drop 384) m (slice g 400 16224) then 0 else 2) +
  (if field g 0 1 = 1 then 0 else 4) + (if slice g 8 8 = ownerPrint s then 0 else 16)

/-- Check 3 (R482). -/
def checkOwner (s : State) (base : Nat) : Option Bad :=
  if owned s ∧ ownerFailure s base ≠ 0 then some (0x8201, [(1, 6), (1, 0xFF), (1, ownerFailure s base)]) else none

/-- Check 4: the measurement of a resume against that of the paused run (R477); one whose paused run has none recorded is refused before it hashes. -/
def checkPaused (s : State) (base : Nat) : Option Bad :=
  if s.ctl.resuming then badUnless 0x5505 (decide (s.trust.pausedHash = some (measure s base))) else none

/-- What arming reads of memory for a tab (log entry 8): the tab, its shard table with the headers it names, its stage table, and the images of a
resume; of a tab that its head refuses, the head. -/
def tabRanges (s : State) (base : Nat) : List (Nat × Nat) :=
  if (checkVersion s base).isSome ∨ (checkStructure s base).isSome then [(base, 512)]
  else
    let a := thShards (tabHead s base)
    let n := ofLe (hread s (a + 2) 2)
    let stages := field (oneSec s base 4) 16 8
    let shards := if a = 0 then [] else (a, 32 + 32 * n) :: (List.range n).map fun i => (ofLe (hread s (a + 48 + 32 * i) 8), 128)
    let table := if stages = 0 then [] else [(stages, 16 + 32 * ofLe (hread s (stages + 1) 1))]
    let images := if s.ctl.resuming then (List.range 192).map fun c => (imageAt s c, 7340032) else []
    ((base, thBytes (tabHead s base)) :: (shards ++ table ++ images)).filter fun r => inHbm r.1 r.2

/-- Check 8: all 192 images of a resume (R165). -/
def checkImages (s : State) : Option Bad :=
  if s.ctl.resuming then badUnless 0x5505 ((List.range 192).all fun c => imageOk s c) else none

/-! ### Shard table (Tables 8-3, 8-4, 8-10) -/

/-- The table's header, its entries. -/
def shardTabHead (s : State) (a : Nat) : List Byte := if a = 0 then [] else hread s a 32
def shardTabEntries (s : State) (a : Nat) : List (List Byte) :=
  (List.range (field (shardTabHead s a) 2 2)).map fun i => hread s (a + 32 + 32 * i) 32

def prod (l : List Nat) : Nat := l.foldl (· * ·) 1

/-- A shard header under R270 and Table 8-10. -/
def shardHeadOk (h : List Byte) : Bool :=
  let t := hdExtents h 32
  let o := hdExtents h 64
  let e := hdExtents h 96
  let d := field h 2 1
  decide (field h 0 1 = 1) && decide (field h 1 1 = 1 ∨ field h 1 1 = 3) && decide (1 ≤ d ∧ d ≤ 4) &&
    decide (1 ≤ field h 3 1 ∧ field h 3 1 ≤ 4) &&
    ((List.range 4).all fun k =>
      decide (o.getD k 0 + e.getD k 0 ≤ t.getD k 0) &&
        (decide (k < d) || decide (t.getD k 0 = 1 ∧ o.getD k 0 = 0 ∧ e.getD k 0 = 1))) &&
    decide (hdCount h = prod e) && decide (prod t * (if field h 1 1 = 3 then 2 else 1) < 2 ^ 48)

/-- The copies of an entry (address, bytes). -/
def shardCopies (s : State) (e : List Byte) : List (Nat × Nat) :=
  let h := shardHead s e
  let n := hdCount h * hdSize h
  if shTrainable e then [(shCopyA e, n), (shCopyB e, n)] else [(shCopyA e, n)]

def shardEntryOk (s : State) (e : List Byte) : Bool :=
  decide (shHeader e % 128 = 0) && inHbm (shHeader e) 128 && shardHeadOk (shardHead s e) &&
    (!shReplicated e || shTrainable e) && (if shTrainable e then decide (shCopyB e ≠ 0) else decide (shCopyB e = 0)) &&
    (shardCopies s e).all fun c => decide (c.1 % 256 = 0) && inHbm c.1 c.2

/-- Check 7, first part (R250). -/
def checkShards (s : State) (a : Nat) : Option Bad :=
  if a = 0 then none else
  let h := shardTabHead s a
  let l := shardTabEntries s a
  badUnless 0x5402 (inHbm a 32 && decide (field h 0 1 = 1) && decide (field h 2 2 ≤ 8192) && decide (field h 4 4 % 128 = 0) &&
    decide (field h 16 2 ≤ 1024) && inHbm a (32 + 32 * field h 2 2) && (decide (field h 4 4 = 0) || l.any shReplicated) &&
    l.all (shardEntryOk s) && apart (l.flatMap fun e => (shHeader e, 128) :: shardCopies s e))

/-! ### Collective schedule (Tables 14-1 to 14-4, 14-9) -/

/-- The entries of a COLLECTIVE section as 128-bit values. -/
def collImage (b : List Byte) : List Nat := wordsAt 16 (b.drop 64) (field b 4 4)

/-- The stage table: arena base, size, micro-batches. -/
def stageTable (s : State) (a : Nat) : List (Nat × Nat × Nat) :=
  if a = 0 then [] else
  (List.range (ofLe (hread s (a + 1) 1))).map fun k =>
    let e := hread s (a + 16 + 32 * k) 32
    (field e 0 8, field e 8 8, field e 16 1)

def stagesOk (s : State) (a : Nat) : Bool :=
  if a = 0 then true else
  let l := stageTable s a
  decide (a % 64 = 0) && inHbm a 16 && decide (hread s a 1 = le 1 1) && decide (1 ≤ l.length ∧ l.length ≤ 8) &&
    inHbm a (16 + 32 * l.length) &&
    (l.all fun x => decide (x.1 % 4096 = 0 ∧ x.2.1 % 4096 = 0) && inHbm x.1 x.2.1 && decide (1 ≤ x.2.2 ∧ x.2.2 ≤ 64)) &&
    apart (l.map fun x => (x.1, x.2.1))

/-- What the order of Table 14-2 asks for next. -/
inductive Want where
  /-- A BUFFER for D bytes; it is the staging buffer; its shard index is used. -/
  | buffer (d : Nat) (staged shard : Bool)
  /-- A SYNC; its signal is a landing. -/
  | sync (landing : Bool)
  | onward
  /-- An INPUT of a group with this D. -/
  | input (d : Nat)
  | groupSend
deriving DecidableEq, Repr

/-- What the fields of the schedule are checked against: staging reserve, shards of the table, digest records. -/
structure CollEnv where
  reserve : Nat
  shards : Nat
  records : Nat
deriving DecidableEq, Repr

def maxData : Nat := 49151984
/-- Stream, port and D of a head that is not LOCAL. -/
def streamHeadOk (e : Nat) : Bool := decide (1 ≤ ceStream e) && decide (cePort e ≤ 47) && decide (1 ≤ ceD e ∧ ceD e ≤ maxData)
/-- r0, P and C are zero in heads that do not transmit. -/
def noReps (e : Nat) : Bool := decide (ceR0 e = 0 ∧ ceP e = 0 ∧ ceC e = 0)

/-- A buffer range lies in local HBM or in the windows of cores 0 to 191. -/
def rangeOk (a n : Nat) : Bool := inHbm a n || decide (windowBase ≤ a ∧ a + n ≤ windowBase + 192 * 2 ^ 24)

/-- A head at the top level: what must follow it; none where its fields break Table 14-3 or 14-4. -/
def headWants (v : CollEnv) (e : Nat) : Option (List Want) :=
  let d := ceD e
  if ceOp e = opSend then
    if streamHeadOk e ∧ ceVersionSource e ≤ 2 ∧ ceSource e ≤ 3 ∧ 1 ≤ ceP e ∧ (ceSource e = 2 → d = 4) ∧ (ceSource e = 1 → d = 16 * v.records) then
      some (if ceSource e = 0 then [.buffer d false (decide (ceVersionSource e ≠ 0)), .sync false] else [.sync false])
    else none
  else if ceOp e = opRecv then
    if streamHeadOk e ∧ ceCheck e ≤ 4 ∧ noReps e then
      match ceSource e with
      | 0 =>
        let checked := decide (ceCheck e ≠ 0)
        some (if ceStaged e then [.buffer d true checked, .buffer d false checked, .sync true] else [.buffer d false checked, .sync true])
      | 1 => some []
      | 3 => some [.sync true]
      | _ => none
    else none
  else if ceOp e = opRelay then
    if streamHeadOk e ∧ ceSource e = 0 ∧ noReps e then some [.onward] else none
  else if ceOp e = opGroup then
    let n := grInputs e
    let fits := decide (grOp e = 1 ∧ d % 2 = 0) || decide (grOp e = 2 ∧ d % 4 = 0)
    if fits ∧ 1 ≤ d ∧ d ≤ maxData ∧ grCheck e ≤ 4 ∧ 1 ≤ n ∧ n ≤ 1024 then
      match grOutput e with
      | 0 => some (List.replicate n (.input d) ++ [.buffer d false (decide (grCheck e ≠ 0)), .sync true])
      | 1 => some (List.replicate n (.input d) ++ [.groupSend])
      | 2 => some (List.replicate n (.input d))
      | _ => none
    else none
  else none

/-- An entry that the order asks for: what must follow it; none where it is another or its fields break its table. -/
def entryWants (v : CollEnv) (w : Want) (e : Nat) : Option (List Want) :=
  match w with
  | .buffer d staged shard =>
    let a := bits e 55 8
    let ring := bits e 63 56
    let stride := bits e 95 64
    let n := (ring - 1) * stride + d
    if ceOp e = 6 ∧ 1 ≤ ring ∧ stride % 256 = 0 ∧ (ring = 1 → stride = 0) ∧ rangeOk a n ∧
        (staged → v.reserve ≠ 0 ∧ v.reserve ≤ a ∧ a + n ≤ v.reserve + 1073741824) ∧ (shard → bufShard e < v.shards) then some []
    else none
  | .sync _ =>
    if ceOp e = 7 ∧ bits e 17 8 ≤ 191 ∧ bits e 23 18 ≤ 47 ∧ bits e 33 24 ≤ 191 ∧ bits e 39 34 ≤ 47 then some [] else none
  | .onward =>
    if isOnward e ∧ 1 ≤ ceStream e ∧ cePort e ≤ 47 ∧ 1 ≤ ceP e then some [] else none
  | .input d =>
    if ceOp e = opInput ∧ ceD e = d ∧ noReps e then
      if ceLocal e then
        if ceStream e = 0 ∧ cePort e = 0 then
          match ceSource e with
          | 0 => some [.buffer d false (ceVersioned e), .sync false]
          | 2 => some []
          | _ => none
        else none
      else if streamHeadOk e ∧ ceSource e = 0 ∧ ceVersioned e = false then some [] else none
    else none
  | .groupSend =>
    if ceOp e = opSend ∧ streamHeadOk e ∧ ceSource e = 4 ∧ ceVersionSource e = 0 ∧ 1 ≤ ceP e then some [.sync false] else none

/-- The order of the entries (R414): the SYNCs with their kinds; none where an entry breaks its table or its place. -/
def collWalk (v : CollEnv) : List Nat → List Want → Option (List (Nat × Bool))
  | [], [] => some []
  | [], _ :: _ => none
  | e :: r, [] => (headWants v e).bind fun l => collWalk v r l
  | e :: r, w :: ws =>
    (entryWants v w e).bind fun l => (collWalk v r (l ++ ws)).map fun rest =>
      match w with
      | .sync landing => (e, landing) :: rest
      | _ => rest

/-- Port and stream of an entry as one number. -/
def pairKey (e : Nat) : Nat := cePort e * 16384 + ceStream e

/-- Each transmitting entry with the data bytes it carries: an ONWARD carries the D of the RELAY before it. -/
def transmitters (l : List Nat) : List (Nat × Nat) :=
  (l.zipIdx.filter fun x => transmits x.1).map fun x => (x.1, if isOnward x.1 then ceD (l.getD (x.2 - 1) 0) else ceD x.1)

/-- A transmitted stream owns frets on its port, and fits the RESERVED ones of each set that has some (R429). -/
def fretsFit (sets : List (Nat × Nat × List W32)) (x : Nat × Nat) : Bool :=
  let mine (set : List W32) : List Nat := fretsOf set (ceStream x.1)
  let onPort := sets.filter fun y => decide (y.1 / 4 = cePort x.1)
  (onPort.any fun y => decide (mine y.2.2 ≠ [])) &&
    onPort.all fun y =>
      let n := (mine y.2.2).length - slackOf y.2.2 (ceStream x.1)
      decide (mine y.2.2 = []) || decide (flitsOf x.2 ≤ 50 * n)

/-- Slots that the GROUP and ONWARD entries of a die declare (R421). -/
def dieShares (l : List Nat) (die : Nat) : Nat :=
  ((l.zipIdx).map fun x =>
    if ceOp x.1 = opGroup ∧ grDie x.1 = die then grShare x.1
    else if isOnward x.1 ∧ linkDie (cePort (l.getD (x.2 - 1) 0)) = die then ceShare x.1 else 0).sum

/-- Digest records of a shard table (R262). -/
def recordCount (s : State) (l : List (List Byte)) : Nat :=
  ((l.filter shReplicated).map fun e => blockCount (shardHead s e)).sum

/-- A GROUP that ORs a vote word: its own vote, or a round before it (R265). That an OR32 of 4 bytes carries the vote is DEDUCED: nothing in
the schedule marks a stream as the vote's (log entry 146). -/
def orsVote (e : Nat) : Bool := decide (grOutput e = 2) || (decide (grOp e = 2) && decide (ceD e = 4))

/-- The HBM ranges of the LOCAL inputs of such groups, which a vote that landed under a RECV is reduced from (Table 14-7). -/
def voteBuffers : List Nat → Bool → List (Nat × Nat)
  | [], _ => []
  | e :: r, vote =>
    if ceOp e = opGroup then voteBuffers r (orsVote e)
    else if ceOp e = opInput ∧ vote ∧ ceLocal e ∧ ceSource e = 0 then bufferRange (r.headD 0) (ceD e) :: voteBuffers r vote
    else voteBuffers r vote
where
  /-- From a BUFFER's first byte: the bytes of all instances of D bytes. -/
  bufferRange (b d : Nat) : Nat × Nat := (bits b 55 8, (bits b 63 56 - 1) * bits b 95 64 + d)

/-- The streams that land under a RECV in one of these ranges: port and stream. -/
def voteRecvs (bufs : List (Nat × Nat)) : List Nat → List (Nat × Nat)
  | [] => []
  | e :: r =>
    let at_ := voteBuffers.bufferRange (if ceStaged e then (r.drop 1).headD 0 else r.headD 0) (ceD e)
    if ceOp e = opRecv ∧ ceSource e = 0 ∧ bufs.any (fun b => decide (b.1 < at_.1 + at_.2 ∧ at_.1 < b.1 + b.2)) then
      (cePort e, ceStream e) :: voteRecvs bufs r
    else voteRecvs bufs r

/-- The vote streams that land here, as inputs of the OR rounds: port and stream. -/
def voteInputs : List Nat → Bool → List (Nat × Nat)
  | [], _ => []
  | e :: r, vote =>
    if ceOp e = opGroup then voteInputs r (orsVote e)
    else if ceOp e = opInput ∧ vote ∧ ceLocal e = false then (cePort e, ceStream e) :: voteInputs r vote
    else voteInputs r vote

/-- Check 7, second part (R265): vote deadlines and the digest lead. -/
def checkLayout (s : State) (base : Nat) : Option Bad :=
  let a := thShards (tabHead s base)
  let l := collImage (oneSec s base 4)
  let votes := voteInputs l false ++ voteRecvs (voteBuffers l false) l
  let commits := (capoTable s base).filter fun c => decide (c.2.1 = 2)
  let n := ((shardTabEntries s a).filter shReplicated).map fun e => let h := shardHead s e; hdCount h * hdSize h
  badUnless 0x5403 ((commits.all fun c => votes.all fun v => decide (Config.peerVoteDeadline v.1 v.2 c.1 + 10880 ≤ c.1)) &&
    decide (n.sum ≤ field (shardTabHead s a) 4 4 * 2400))

/-- Check 7, third part (R429, R150). -/
def checkColl (s : State) (base : Nat) : Option Bad :=
  if secsOf s base 4 = [] then none else
  let b := oneSec s base 4
  let shards := shardTabEntries s (thShards (tabHead s base))
  let l := collImage b
  let sets := schedSets s base
  let v : CollEnv := { reserve := field b 8 8, shards := shards.length, records := recordCount s shards }
  let tx := transmitters l
  let progs := programs s base
  if 64 ≤ b.length ∧ field b 0 1 = 1 ∧ field b 4 4 ≤ 262144 ∧ 64 + 16 * field b 4 4 ≤ b.length ∧ v.reserve % 4096 = 0 ∧
      (v.reserve ≠ 0 → inHbm v.reserve 1073741824) ∧ stagesOk s (field b 16 8) ∧ (tx.map fun x => pairKey x.1).Nodup ∧
      ((l.filter receives).map pairKey).Nodup ∧ tx.all (fretsFit sets) ∧ dieShares l 0 ≤ 65536 ∧ dieShares l 1 ≤ 65536 then
    match collWalk v l [] with
    | none => some (0x3401, [])
    | some syncs => badUnless 0x5502 (syncs.all fun x =>
        !Nat.testBit x.1 104 || decide (Nat.testBit (landingOf progs (bits x.1 33 24)) (bits x.1 39 34) = x.2))
  else some (0x3401, [])

/-- Checks 1 to 8 of Table 15-11, in order. Check 2 stands before what reads the sections. -/
def armingChecks (s : State) (base : Nat) : Option Bad :=
  match checkVersion s base with
  | some b => some b
  | none => match checkStructure s base with
    | some b => some b
    | none => firstBad [checkOwner s base, checkPaused s base, checkPrograms s base, checkSchedules s base,
        checkShards s (thShards (tabHead s base)), checkLayout s base, checkColl s base, checkImages s]

end Sys2Proof.Machine
end

