-- ==== Sys2Proof/Machine/MediaOps.lean ====
section
/-!
DEFINITION. What a media stream computes (R325 to R338): descriptors, stage programs, the stages on planes, sounds and text, the
checks before allocation, and the bytes of a batch slot.
-/
namespace Sys2Proof.Machine

/-! ### Text -/

/-- Continuation bytes that follow a lead byte, and the least and greatest second byte (RFC 3629). -/
def utf8Lead (b : Nat) : Option (Nat × Nat × Nat) :=
  if b < 0x80 then some (0, 0, 0)
  else if 0xC2 ≤ b ∧ b ≤ 0xDF then some (1, 0x80, 0xBF)
  else if b = 0xE0 then some (2, 0xA0, 0xBF)
  else if b = 0xED then some (2, 0x80, 0x9F)
  else if 0xE1 ≤ b ∧ b ≤ 0xEF then some (2, 0x80, 0xBF)
  else if b = 0xF0 then some (3, 0x90, 0xBF)
  else if 0xF1 ≤ b ∧ b ≤ 0xF3 then some (3, 0x80, 0xBF)
  else if b = 0xF4 then some (3, 0x80, 0x8F)
  else none

/-- Whether bytes are UTF-8; `n` continuation bytes are still due, the first of them between lo and hi. -/
def utf8From : Nat → Nat → Nat → List Byte → Bool
  | n, _, _, [] => decide (n = 0)
  | 0, _, _, b :: r => match utf8Lead b.toNat with
    | some (n, lo, hi) => utf8From n lo hi r
    | none => false
  | n + 1, lo, hi, b :: r => decide (lo ≤ b.toNat ∧ b.toNat ≤ hi) && utf8From n 0x80 0xBF r
def utf8Ok (b : List Byte) : Bool := utf8From 0 0 0 b

/-! ### Sample descriptors (Tables 11-2 and 11-3) -/

def sdMedia (d : List Byte) : Nat := field d 1 1
def sdProgram (d : List Byte) : Nat := field d 3 1 % 4
def sdSource (d : List Byte) : Nat := field d 16 8
def sdBytes (d : List Byte) : Nat := field d 24 4
def sdFirst (d : List Byte) : Nat := field d 40 4
def sdCount (d : List Byte) : Nat := field d 44 4
/-- Size in bytes of a raw planar element code. -/
def rawSize (d : List Byte) : Nat := match field d 45 1 with | 1 => 1 | 2 => 2 | 3 => 2 | _ => 4
def isRaw (m : Nat) : Bool := decide (m = 5 ∨ m = 6)
def isClip (m : Nat) : Bool := decide (m = 8 ∨ m = 9)

/-- Class of a media type: 1 picture, 2 video, 3 sound, 4 text, 0 for a reserved code. -/
def mediaClass (m : Nat) : Nat :=
  if 1 ≤ m ∧ m ≤ 6 then 1 else if m = 8 ∨ m = 9 then 2 else if 0x10 ≤ m ∧ m ≤ 0x12 then 3 else if m = 0x20 then 4 else 0

/-- Reserved fields, encodings and the check field of a descriptor. -/
def sdOk (d : List Byte) : Bool :=
  let m := sdMedia d
  decide (field d 0 1 = 1) && decide (mediaClass m ≠ 0) && decide (field d 2 1 < 16) && decide (field d 3 1 < 4) &&
    allZero (slice d 4 4) && decide (sdSource d < 2 ^ 48) && allZero (slice d 28 4) && allZero (slice d 48 12) &&
    (if isRaw m then decide (1 ≤ field d 45 1 ∧ field d 45 1 ≤ 4) && decide (field d 46 2 = 0)
     else decide (mediaClass m = 2 ∨ mediaClass m = 3) || allZero (slice d 40 8)) &&
    decide (field d 60 4 = (crc32 (d.take 60)).toNat)

/-! ### Stage programs (R329, R330, Tables 11-5 and 11-6) -/

def stOp (b : List Byte) : Nat := field b 0 1
def stFromDesc (b : List Byte) : Bool := Nat.testBit (field b 1 1) 0
def stCentre (b : List Byte) : Bool := Nat.testBit (field b 1 1) 1
/-- The slot of stage program j. -/
def programSlot (p : List Byte) (j : Nat) : List Byte := padTo 512 (slice p (512 * j) 512)
def programPresent (p : List Byte) (j : Nat) : Bool := decide (field (programSlot p j) 0 1 ≠ 0)
/-- The stages of a program up to its EMIT. -/
def untilEmit : List (List Byte) → List (List Byte)
  | [] => []
  | b :: r => if stOp b = 0xF then [b] else b :: untilEmit r
def stagesOf (p : List Byte) (j : Nat) : List (List Byte) :=
  untilEmit ((List.range 16).map fun k => slice (programSlot p j) (32 * k) 32)
/-- The stage with an op, if a program has it. -/
def stageWith (l : List (List Byte)) (op : Nat) : Option (List Byte) := l.find? fun b => decide (stOp b = op)

def emitOffset (b : List Byte) : Nat := field b 4 4
def emitStride (b : List Byte) : Nat := field b 8 4
def emitRows (b : List Byte) : Nat := field b 12 4
def emitCols (b : List Byte) : Nat := field b 16 4
def emitPlanes (b : List Byte) : Nat := field b 20 4

/-- First byte of a stage that its op does not use. -/
def stageEnd (op : Nat) : Nat :=
  match op with
  | 1 => 8 | 2 => 12 | 3 => 5 | 4 => 9 | 5 => 9 | 6 => 5 | 7 => 28 | 8 => 20 | 9 => 16 | 0xA => 12 | _ => 24

def isPow2 (n : Nat) : Bool := decide (n ≠ 0 ∧ 2 ^ Nat.log2 n = n)

/-- Parameters of one stage, and its unused bytes, which Table 11-5 asks to be zero; reserved bits are ignored (R8). `rate` is the stream's sample
rate. -/
def stageOk (rate : Nat) (b : List Byte) : Bool :=
  let op := stOp b
  let u16 (o : Nat) := field b o 2
  allZero (b.drop (stageEnd op)) &&
  (match op with
  | 1 => decide (field b 6 1 ≤ 1) && decide (1 ≤ field b 7 1 ∧ field b 7 1 ≤ 4)
  | 2 => true
  | 3 => true
  | 4 => decide (1 ≤ u16 4) && decide (1 ≤ u16 6) && decide (field b 8 1 = 1 ∨ field b 8 1 = 2)
  | 5 => decide (1 ≤ field b 4 1 ∧ field b 4 1 ≤ 7) && decide (field b 5 1 = 0) && decide (272 ≤ u16 6 ∧ u16 6 ≤ 1024) &&
      decide (field b 8 1 = 2 ∨ (field b 8 1 = 1 ∧ u16 6 = 512))
  | 6 => decide (field b 4 1 = 1 ∨ field b 4 1 = 2)
  | 7 => isPow2 (u16 4) && decide (64 ≤ u16 4 ∧ u16 4 ≤ 4096) && decide (1 ≤ u16 6 ∧ u16 6 ≤ u16 4) &&
      decide (1 ≤ u16 8 ∧ u16 8 ≤ u16 4) && decide (1 ≤ field b 10 1 ∧ field b 10 1 ≤ 3) && decide (field b 11 1 = 0) &&
      decide (1 ≤ u16 12 ∧ u16 12 ≤ 256) && decide (u16 14 = 0) && fle 0#32 (fieldF b 16) &&
      flt (fieldF b 16) (fieldF b 20) && FNum.le (ofF32 (fieldF b 20)) (.fin false rate (-1)) && flt 0#32 (fieldF b 24)
  | 8 => decide (1 ≤ field b 16 4 ∧ field b 16 4 ≤ 262144)
  | 9 => decide (field b 4 4 = 0) && inHbm (field b 8 8) 128
  | 0xA => decide (field b 5 3 = 0) && (match field b 4 1 with
      | 1 => decide (field b 8 4 = 0)
      | 2 => decide (field b 8 4 = 0)
      | 3 => decide (field b 8 4 = 0)
      | 4 => (scaleExp (fieldF b 8)).isSome
      | 5 => (scaleExp (fieldF b 8)).isSome
      | 7 => decide (field b 8 4 = 0)
      | _ => false)
  | 0xF => decide (emitOffset b % 4096 = 0 ∧ 8320 ≤ emitOffset b) && decide (emitStride b % 256 = 0)
  | _ => false)

/-- The class that a program's DECODE names. -/
def programClass (l : List (List Byte)) : Nat := match l with | b :: _ => field b 7 1 | [] => 0

/-- The order of stages of a class (R330). -/
def orderOk (cls : Nat) (ops : List Nat) : Bool :=
  match ops with
  | 1 :: r =>
    if cls = 3 then r.isSublist [6, 7, 9, 0xA, 0xF]
    else if cls = 4 then decide (r = [8, 0xF])
    else
      let geo := r.takeWhile fun o => decide (2 ≤ o ∧ o ≤ 4)
      decide (geo.Nodup) && (r.drop geo.length).isSublist (if cls = 1 then [5, 9, 0xA, 0xF] else [9, 0xA, 0xF])
  | _ => false

/-- A present program obeys R329 and R330. -/
def stageProgramOk (rate : Nat) (p : List Byte) (j : Nat) : Bool :=
  let l := stagesOf p j
  decide (l.getLast?.map stOp = some 0xF) && l.all (stageOk rate) && orderOk (programClass l) (l.map stOp) &&
    allZero ((programSlot p j).drop (32 * l.length))

def presentPrograms (p : List Byte) : List Nat := (List.range 4).filter (programPresent p)
/-- Batch bytes of a program (R336). -/
def programBytes (n : Nat) (l : List (List Byte)) : Nat :=
  match stageWith l 0xF with
  | some e => emitOffset e + n * emitStride e
  | none => 0

/-! ### Planes -/

/-- One component of one picture or frame, row by row. -/
structure Plane where
  w : Nat
  h : Nat
  px : List W32
deriving DecidableEq, Repr

def Plane.at (p : Plane) (i j : Nat) : W32 := p.px.getD (i * p.w + j) 0
def mkPlane (w h : Nat) (f : Nat → Nat → W32) : Plane :=
  { w := w, h := h, px := (List.range h).flatMap fun i => (List.range w).map fun j => f i j }
def cropPlane (x y w h : Nat) (p : Plane) : Plane := mkPlane w h fun i j => p.at (y + i) (x + j)
/-- Flips, then a quarter turn clockwise q times (R332). -/
def turnPlane (p : Plane) : Plane := mkPlane p.h p.w fun i j => p.at (p.h - 1 - j) i
def orientPlane (o : Nat) (p : Plane) : Plane :=
  let p := mkPlane p.w p.h fun i j => p.at (if Nat.testBit o 3 then p.h - 1 - i else i) (if Nat.testBit o 2 then p.w - 1 - j else j)
  (List.range (o % 4)).foldl (fun p _ => turnPlane p) p

/-- The sample coordinate of bilinear RESIZE on one axis, clamped (R332). -/
def resizeCoord (i n out : Nat) : W32 :=
  fclamp 0#32 (fOfInt (n - 1 : Nat)) (fsub (fdiv (fmul (fadd (fOfInt i) f32Half) (fOfInt n)) (fOfInt out)) f32Half)
/-- The input positions that output position i covers on one axis, each with its share in units of 1 / out. -/
def cover (i n out : Nat) : List (Nat × Nat) :=
  (List.range (ceilDiv ((i + 1) * n) out - i * n / out)).map fun k =>
    let r := i * n / out + k
    (r, Nat.min ((r + 1) * out) ((i + 1) * n) - Nat.max (r * out) (i * n))
/-- A finite FP32 value as m · 2^e with a sign. -/
def finOf (v : W32) : Option (Bool × Nat × Int) := match ofF32 v with | .fin neg m e => some (neg, m, e) | _ => none

/-- The exact weighted sum Σ w · v and the sum of its magnitudes, as multiples of 2^g, g the least exponent of a term. -/
def weightedSum (l : List (Nat × Bool × Nat × Int)) : Int × Nat × Int :=
  let l := l.filter fun x => decide (x.1 * x.2.2.1 ≠ 0)
  let g := l.foldl (fun g x => if x.2.2.2 < g then x.2.2.2 else g) ((l.head?.map fun x => x.2.2.2).getD 0)
  let terms := l.map fun x => (x.2.1, x.1 * x.2.2.1 * 2 ^ (x.2.2.2 - g).toNat)
  ((terms.map fun t => if t.1 then -(t.2 : Int) else (t.2 : Int)).sum, (terms.map Prod.snd).sum, g)

/-- The mean of finite values: exact where no step can round, whatever their order (the weights sum to a power of two, and every partial sum is a multiple of one ulp below 2^24 of
it); else the free value where it lies within the rounding of 2n + 4 steps, and otherwise the exact mean rounded once (log entry 40). -/
def finiteMean (free : W32) (w : Nat) (l : List (Nat × Bool × Nat × Int)) : W32 :=
  let (sum, mag, g) := weightedSum l
  let (u, d) := fracOf 1 g
  let exact := fracF32 (decide (sum < 0)) (sum.natAbs * u) (d * w)
  if isPow2 w ∧ mag ≤ 2 ^ 24 ∧ (Nat.log2 w : Int) ≤ g + 149 then exact
  else match finOf free with
    | none => if mag * u < d * w * 2 ^ 126 then exact else free
    | some (neg, m, e) =>
      let (a, b) := fracOf m e
      let off := (((if neg then -(a : Int) else a) * (d * w : Nat) - sum * (u * b : Nat)).natAbs : Nat)
      if off * 2 ^ 149 ≤ (2 * l.length + 4) * (mag * u * b * 2 ^ 125 + b * d * w) then free else exact

/-- A NaN as every unit produces it (R205); any other value as it is. -/
def quietNan (v : W32) : W32 := if ofF32 v = .nan then f32Nan else v

/-- A weighted mean; that of one value is the value. With a NaN, or infinities of both signs, it is NaN; with infinities of one, that infinity. -/
def meanOf (l : List (Nat × W32)) : W32 :=
  match l with
  | [] => 0
  | [x] => quietNan x.2
  | _ =>
    let fin := l.filterMap fun x => (finOf x.2).map fun v => (x.1, v)
    if fin.length < l.length then toF32 (l.foldl (fun a x => a.add (ofF32 x.2)) (.fin false 0 0))
    else finiteMean (Config.weightedMean (l.map Prod.fst) (l.map Prod.snd)) (l.map Prod.fst).sum fin
/-- RESIZE of a plane: bilinear or area (R332). -/
def resize (area : Bool) (ow oh : Nat) (p : Plane) : Plane :=
  mkPlane ow oh fun i j =>
    if area then meanOf ((cover i p.h oh).flatMap fun r => (cover j p.w ow).map fun c => (r.2 * c.2, p.at r.1 c.1))
    else interpolate p.at p.w p.h (resizeCoord j p.w ow) (resizeCoord i p.h oh)

/-- A coordinate off by k − 2, replicated at the edges. -/
def edge (x k n : Nat) : Nat := Nat.min (x + k - 2) (n - 1)
/-- The next level of a pyramid on one axis (R333). -/
def levelSize (binomial : Bool) (ratio n : Nat) : Nat :=
  Nat.max 1 (if binomial then ceilDiv n 2 else ceilDiv (n * 256) ratio)
def nextLevel (binomial : Bool) (ratio : Nat) (p : Plane) : Plane :=
  let w := levelSize binomial ratio p.w
  let h := levelSize binomial ratio p.h
  if binomial then
    mkPlane w h fun i j => meanOf (([1, 4, 6, 4, 1].zipIdx).flatMap fun a => ([1, 4, 6, 4, 1].zipIdx).map fun b =>
      (a.1 * b.1, p.at (edge (2 * i) a.2 p.h) (edge (2 * j) b.2 p.w)))
  else resize true w h p

/-! ### Decoding -/

/-- The exact value Σ kᵢ · xᵢ / 100,000, rounded once. -/
def mixed (l : List (Int × FNum)) : W32 :=
  match l.foldl (fun (a : FNum) (t : Int × FNum) => a.add (t.2.mul (.fin (decide (t.1 < 0)) t.1.natAbs 0))) (FNum.fin false 0 0) with
  | .fin neg m e => let (n, d) := fracOf m e; fracF32 neg n (d * 100000)
  | v => toF32 v
/-- YCbCr to RGB by the full-range equations of JFIF, the offset of Cb and Cr being `o` (R331). -/
def toRgb (o : Int) (y cb cr : W32) : List W32 :=
  let y := ofF32 y
  let off : FNum := (FNum.fin (decide (o < 0)) o.natAbs 0).neg
  let b := (ofF32 cb).add off
  let r := (ofF32 cr).add off
  [mixed [(100000, y), (140200, r)], mixed [(100000, y), (-34414, b), (-71414, r)], mixed [(100000, y), (177200, b)]]

/-- Convert the first three of the components of a picture (none where there are fewer). -/
def colour (o : Int) (c : List Plane) : List Plane :=
  match c with
  | a :: b :: d :: r =>
    (List.range 3).map (fun k => mkPlane a.w a.h fun i j => (toRgb o (a.at i j) (b.at i j) (d.at i j)).getD k 0) ++ r
  | _ => c
/-- The components of the mask, with their numbers. -/
def kept (mask : Nat) (c : List Plane) : List (Nat × Plane) :=
  ((c.zipIdx).filter fun x => Nat.testBit mask x.2).map fun x => (x.2, x.1)

/-- The features of Table 11-3 that a picture or a sound declares are those supported; a feature that the table lists on neither side is none of
them (log entry 6). -/
def featuresOk (media : Nat) (h : Config.MediaHeader) : Bool :=
  let channels := h.extent.2.1
  let comps := h.extent.2.2
  match media with
  | 1 => decide (h.mode ≤ 1) && !h.special && decide (h.bits = 8 ∨ h.bits = 12) && decide (1 ≤ comps ∧ comps ≤ 4) &&
      h.factors.all fun f => decide (1 ≤ f ∧ f ≤ 2)
  | 4 => decide ((h.mode ∈ [0, 2, 4, 6] ∧ (h.bits = 8 ∨ h.bits = 16)) ∨ (h.mode = 3 ∧ h.bits = 8))
  | 0x10 => !h.special && decide (8 ≤ h.bits ∧ h.bits ≤ 24) && decide (1 ≤ channels ∧ channels ≤ 8) && decide (h.extent.1 ≤ 192000)
  | 0x11 => decide (h.mode ≤ 1) && decide (1 ≤ channels ∧ channels ≤ 8)
  | _ => !h.special && decide (h.levels ≤ 12) && decide (1 ≤ comps ∧ comps ≤ 16) && decide (1 ≤ h.bits ∧ h.bits ≤ 16) &&
      h.factors.all fun f => decide (f = 1)

/-- Width, height and components of a picture, or rate, channels and frames of a sound, as the MFE gives them: the components of a PNG follow from its colour type, type 3
being expanded to RGB; Opus is put out at 48,000 Hz (Table 11-3). -/
def mediaExtent (media : Nat) (h : Config.MediaHeader) : Nat × Nat × Nat :=
  match media with
  | 4 => (h.extent.1, h.extent.2.1, match h.mode with | 0 => 1 | 4 => 2 | 6 => 4 | _ => 3)
  | 0x11 => (48000, h.extent.2)
  | _ => h.extent

/-- The features of Tables 12-1 and 12-2 that a clip declares are those supported. -/
def clipOk (kind : Nat) (h : Config.ClipHeader) : Bool :=
  let (major, minor) := h.level
  h.bare && (h.mono || h.quarter) && decide (h.bits = 8 ∨ h.bits = 10) && (h.mono || decide (h.chromaBits = 8 ∨ h.chromaBits = 10)) &&
    (if kind = 2 then decide (h.profile = 1 ∨ h.profile = 2) && (!h.mono || decide (h.profile = 2)) && decide (major < 6 ∨ (major = 6 ∧ minor ≤ 2))
     else decide (h.profile = 0) && decide (major < 6 ∨ (major = 6 ∧ minor ≤ 3)) && !h.largeTiles)

/-- A sample code of so many bits, signed or not. -/
def codeIn (bits : Nat) (v : Int) : Int := if v < -(2 ^ (bits - 1)) then -(2 ^ (bits - 1)) else if 2 ^ bits ≤ v then 2 ^ bits - 1 else v
/-- The planes of a raw planar source (R328). -/
def rawElem (code : Nat) (b : List Byte) : W32 :=
  match code with
  | 3 => fOfInt (fieldI b 0 2)
  | 4 => fieldF b 0
  | _ => fOfInt (ofLe b)
def rawPlanes (d : List Byte) (b : List Byte) : List Plane :=
  let w := field d 40 2
  let h := field d 42 2
  let e := rawSize d
  (List.range (field d 44 1)).map fun c => mkPlane w h fun i j => rawElem (field d 45 1) (slice b (((c * h + i) * w + j) * e) e)

/-- A picture's components, and the colour offset. -/
def decodePlanes (d src : List Byte) (w h comps : Nat) : Except Nat (List Plane × Int) :=
  let m := sdMedia d
  let off : Int := match field d 45 1 with | 1 => 128 | 2 => 32768 | _ => 0
  let size := field d 44 1 * field d 42 2 * field d 40 2 * rawSize d
  if m = 5 then (if src.length = size then .ok (rawPlanes d src, off) else .error 6)
  else if m = 6 then
    match Config.inflate src with
    | none => .error 8
    | some b => if b.length = size then .ok (rawPlanes d b, off) else .error 6
  else
    let bits := match Config.mediaHeader m (src.take 1048576) with | some x => x.bits | none => 8
    match Config.decodePicture m src with
    | none => .error 8
    | some v => .ok ((List.range comps).map fun c => mkPlane w h fun i j => fOfInt (codeIn bits (v.getD ((c * h + i) * w + j) 0)), 2 ^ (bits - 1))

/-- Components of a clip frame at luma size (R356). -/
def clipPlanes (f : Config.ClipFrame) : List Plane :=
  let w := f.head.width
  let h := f.head.height
  let chroma (v : List Nat) := mkPlane w h fun i j =>
    if f.head.mono then fOfInt (2 ^ (f.head.bits - 1)) else fOfInt (v.getD (i / 2 * ((w + 1) / 2) + j / 2) 0)
  [mkPlane w h fun i j => fOfInt (f.y.getD (i * w + j) 0), chroma f.cb, chroma f.cr]

/-- Frame size of a clip. -/
def clipSize (h : Config.ClipHeader) : Nat × Nat := (h.width, h.height)
/-- The luma limit of R355. -/
def lumaOk (w h : Nat) : Bool := decide (w * h ≤ 35651584 ∧ w ≤ 16888 ∧ h ≤ 16888)
/-- Output frame i of a clip: of operating point 0, without film grain (R354). -/
def clipStep (kind : Nat) (src : List Byte) (i : Nat) : Config.ClipStep := Config.clipFrame kind 0 false src i
/-- The reason for which the headers of frame i reject a clip whose window begins at `first`, the size of its frames before given: features and size change, then the
luma limit, which holds for the discarded frames too (R353 to R355). -/
def clipFault (kind first i : Nat) (size : Option (Nat × Nat)) (h : Config.ClipHeader) : Option Nat :=
  if !clipOk kind h ∨ (first ≤ i ∧ size.isSome ∧ size ≠ some (clipSize h)) then some 4
  else if lumaOk h.width h.height then none else some 5

/-- The frames of a clip from number i on: at most n, to the end with `toEnd`, where more than n frames fail with reason `0x07`
(R355, R357). Frames before `first` are decoded and discarded; those of the window have one size. -/
def clipFrames (kind : Nat) (src : List Byte) (first : Nat) (toEnd : Bool) :
    Nat → Nat → Option (Nat × Nat) → Except Nat (List Config.ClipFrame)
  | _, 0, _ => .ok []
  | i, n + 1, size =>
    match clipStep kind src i with
    | .broken => .error 8
    | .ended => if toEnd ∧ first ≤ i then .ok [] else .error 9
    | .frame f =>
      match clipFault kind first i size f.head with
      | some r => .error r
      | none =>
        if toEnd ∧ n = 0 then .error 7
        else match clipFrames kind src first toEnd (i + 1) n (if first ≤ i then some (clipSize f.head) else none) with
          | .error r => .error r
          | .ok l => .ok (if first ≤ i then f :: l else l)

/-- Frames of a clip that are decoded, from number i on, at most n: up to the first whose headers reject the clip. -/
def framesDecoded (kind : Nat) (src : List Byte) (first : Nat) : Nat → Nat → Option (Nat × Nat) → Nat
  | _, 0, _ => 0
  | i, n + 1, size => match clipStep kind src i with
    | .frame f => match clipFault kind first i size f.head with
      | some _ => 0
      | none => 1 + framesDecoded kind src first (i + 1) n (if first ≤ i then some (clipSize f.head) else none)
    | _ => 0

/-- Code / 2^(bits − 1) (R331). -/
def soundValue (bits : Nat) (v : Int) : W32 := toF32 (.fin (decide (v < 0)) v.natAbs (1 - (bits : Int)))

/-- The header of a PCM container (R327): format, channels, rate, frames; its reserved bytes are ignored (R8). -/
def pcmHeader (b : List Byte) : Option (Nat × Nat × Nat × Nat) :=
  if 32 ≤ b.length ∧ slice b 0 4 = asciiBytes [70, 80, 67, 77] ∧ field b 4 1 = 1 ∧ (1 ≤ field b 5 1 ∧ field b 5 1 ≤ 3) ∧
      (1 ≤ field b 6 1 ∧ field b 6 1 ≤ 16) then
    some (field b 5 1, field b 6 1, field b 8 4, field b 12 4)
  else none
def pcmSize (f : Nat) : Nat := match f with | 1 => 2 | 2 => 3 | _ => 4
def pcmValue (f : Nat) (b : List Byte) : W32 := if f = 3 then fieldF b 0 else soundValue (8 * pcmSize f) (fieldI b 0 (pcmSize f))

/-- Interleaved samples of a sound. -/
def decodeSound (d src : List Byte) : Except Nat (List W32) :=
  match sdMedia d with
  | 0x10 =>
    let bits := match Config.mediaHeader 0x10 (src.take 1048576) with | some x => x.bits | none => 16
    match Config.decodeFlac src with
    | none => .error 8
    | some l => .ok (l.map fun v => soundValue bits (codeIn bits v))
  | 0x11 => match Config.decodeOpus src with
    | none => .error 8
    | some l => .ok l
  | _ => match pcmHeader src with
    | none => .error 3
    | some (f, ch, _, n) => .ok ((List.range (n * ch)).map fun k => pcmValue f (slice src (32 + k * pcmSize f) (pcmSize f)))

/-! ### Tokens (R335) -/

/-- The words of a text: one begins at byte 0 and at every space that no space precedes. -/
def wordsOf : List Byte → List (List Byte)
  | [] => []
  | [b] => [[b]]
  | b :: c :: r =>
    match wordsOf (c :: r) with
    | [] => [[b]]
    | w :: ws => if c = 0x20 ∧ b ≠ 0x20 then [b] :: w :: ws else (b :: w) :: ws

/-- Merge entry r of a table image: left, right and result ids. -/
def mergeAt (tab : List Byte) (r : Nat) : Nat × Nat × Nat := (field tab (1088 + 12 * r) 4, field tab (1092 + 12 * r) 4, field tab (1096 + 12 * r) 4)
def mergesOf (tab : List Byte) : List (Nat × Nat × Nat) := (List.range (field tab 4 4)).map (mergeAt tab)
def pairsOf : List Nat → List (Nat × Nat)
  | a :: b :: r => (a, b) :: pairsOf (b :: r)
  | _ => []
/-- Replace every occurrence of a pair, left to right and without overlap. -/
def replacePair (a b c : Nat) : List Nat → List Nat
  | x :: y :: r => if x = a ∧ y = b then c :: replacePair a b c r else x :: replacePair a b c (y :: r)
  | l => l
def mergeWord (merges : List (Nat × Nat × Nat)) : Nat → List Nat → List Nat
  | 0, l => l
  | n + 1, l =>
    match merges.find? fun m => (pairsOf l).contains (m.1, m.2.1) with
    | none => l
    | some m => mergeWord merges n (replacePair m.1 m.2.1 m.2.2 l)
/-- The ids of a text, or the reason that rejects it. -/
def tokenise (stage tab text : List Byte) : Except Nat (List Nat) :=
  let text := if text.take 3 = [0xEF, 0xBB, 0xBF] then text.drop 3 else text
  let words := wordsOf text
  let opt (o : Nat) : List Nat := if field stage o 4 = 0xFFFFFFFF then [] else [field stage o 4]
  if !utf8Ok text then .error 0x0B
  else if words.any fun w => decide (4096 < w.length) then .error 0x0C
  else
    let merges := mergesOf tab
    let ids := opt 4 ++ (words.flatMap fun w => mergeWord merges w.length (w.map fun b => field tab (64 + 4 * b.toNat) 4)) ++ opt 8
    if field stage 16 4 < ids.length then .error 0x0C else .ok ids

/-- The merge table of an enable (Table 11-7); its reserved bytes are ignored (R8). -/
def mergeTableOk (s : State) (base : Nat) : Bool :=
  let head := hread s base 64
  let n := field head 4 4
  decide (base % 64 = 0) && inHbm base 1088 && decide (field head 0 1 = 1) &&
    decide (1 ≤ n ∧ n ≤ 262144) && inHbm base (1088 + 12 * n) &&
    (let tab := hread s base (1088 + 12 * n)
     ((List.range 256).all fun k => decide (field tab (64 + 4 * k) 4 < 2 ^ 24)) &&
       (mergesOf tab).all (fun m => decide (m.1 < 2 ^ 24 ∧ m.2.1 < 2 ^ 24 ∧ m.2.2 < 2 ^ 24)) &&
       decide (((mergesOf tab).map fun m => (m.1, m.2.1)).Nodup))

/-! ### The slot (R331, R336) -/

/-- One element in the output format of a CAST, FP32 without one. -/
def outElem (cast : Option (List Byte)) (v : W32) : List Byte :=
  match cast with
  | none => le 4 (quietNan v).toNat
  | some b =>
    match field b 4 1 with
    | 1 => le 2 (narrow .bf16 .rne (ofF32 v)).1
    | 2 => le 2 (narrow .fp16 .rne (ofF32 v)).1
    | 3 => le 4 (quietNan v).toNat
    | 7 => le 1 (match ofF32 v with
      | .nan => 0
      | .inf neg => if neg then 0 else 255
      | .fin neg m e => let k := roundInt .rne neg m e; if k < 0 then 0 else if 255 < k then 255 else k.toNat)
    | k => le 1 (narrow (codeFmt k 0) .rne ((ofF32 v).mul (.fin false 1 (-((scaleExp (fieldF b 8)).getD 0))))).1
def castSize (cast : Option (List Byte)) : Nat := (outElem cast 0).length
/-- The pad pattern in the output format (R131). -/
def padElem (s : State) (k : Nat) (cast : Option (List Byte)) : List Byte := le (castSize cast) (s.ent (0x6100 + k) 0x11)

/-- n bytes filled with a pattern. -/
def fillBytes (n : Nat) (pat : List Byte) : List Byte := (List.range n).map fun i => pat.getD (i % pat.length) 0
/-- A whole slot: data, the rest filled, exactly the stride. A sample whose data passes the stride is rejected and never cut (R337, `fitsSlot`). -/
def wholeSlot (stride : Nat) (pat data : List Byte) : List Byte := data ++ fillBytes (stride - data.length) pat
/-- A plane at the top left of its planned area. -/
def planned (rows cols : Nat) (pat : List Byte) (enc : W32 → List Byte) (p : Option Plane) : List Byte :=
  (List.range rows).flatMap fun i => (List.range cols).flatMap fun j =>
    match p with
    | some p => if i < p.h ∧ j < p.w then enc (p.at i j) else pat
    | none => pat
/-- The planes of one level, rounded up to 256 bytes with a pyramid. -/
def layPlanes (rows cols planes : Nat) (pat : List Byte) (enc : W32 → List Byte) (l : List Plane) : List Byte :=
  (List.range planes).flatMap fun k => planned rows cols pat enc (l[k]?)
def roundLevel (pat b : List Byte) : List Byte := b ++ fillBytes (ceilDiv b.length 256 * 256 - b.length) pat
/-- NORMALISE with pair c of a table (Table 11-6). -/
def normalise (tab : Option (List Byte)) (c : Nat) (v : W32) : W32 :=
  match tab with
  | none => v
  | some t => fmul (fsub v (fieldF t (8 * c))) (fieldF t (8 * c + 4))
def mapPlane (f : W32 → W32) (p : Plane) : Plane := { p with px := p.px.map f }

/-! ### Geometry known from the headers (R332, R337) -/

/-- The box that a CROP cuts from w × h. -/
def cropOf (b d : List Byte) (w h : Nat) : Nat × Nat × Nat × Nat :=
  let src := if stFromDesc b then slice d 32 8 else slice b 4 8
  let cw := field src 4 2
  let ch := field src 6 2
  if stCentre b then ((w - cw) / 2, (h - ch) / 2, cw, ch) else (field src 0 2, field src 2 2, cw, ch)
def cropFits (w h : Nat) (c : Nat × Nat × Nat × Nat) : Bool := decide (1 ≤ c.2.2.1 ∧ 1 ≤ c.2.2.2 ∧ c.1 + c.2.2.1 ≤ w ∧ c.2.1 + c.2.2.2 ≤ h)
def orientOf (b d : List Byte) : Nat := if stFromDesc b then field d 2 1 else field b 4 1

/-- The size after a picture stage, or the reason that rejects the sample. -/
def stageSize (d b : List Byte) (wh : Nat × Nat) : Except Nat (Nat × Nat) :=
  match stOp b with
  | 2 => let c := cropOf b d wh.1 wh.2; if cropFits wh.1 wh.2 c then .ok (c.2.2.1, c.2.2.2) else .error 9
  | 3 => .ok (if orientOf b d % 2 = 1 then (wh.2, wh.1) else wh)
  | 4 => .ok (field b 4 2, field b 6 2)
  | _ => .ok wh
def finalSize (d : List Byte) : List (List Byte) → Nat × Nat → Except Nat (Nat × Nat)
  | [], wh => .ok wh
  | b :: r, wh => match stageSize d b wh with | .ok wh => finalSize d r wh | .error e => .error e
/-- A picture stage applied to a plane. -/
def stagePlane (d : List Byte) (p : Plane) (b : List Byte) : Plane :=
  match stOp b with
  | 2 => let c := cropOf b d p.w p.h; cropPlane c.1 c.2.1 c.2.2.1 c.2.2.2 p
  | 3 => orientPlane (orientOf b d) p
  | 4 => resize (decide (field b 8 1 = 2)) (field b 4 2) (field b 6 2) p
  | _ => p

/-- What an attempt yields: the slot's bytes, extents 0 and 1, actual rows. -/
abbrev SlotOut := List Byte × (Nat × Nat) × Nat

def countBits (n : Nat) : Nat := ((List.range 16).filter fun k => Nat.testBit n k).length
/-- Components that a mask keeps of n. -/
def keptOf (mask n : Nat) : Nat := ((List.range n).filter fun k => Nat.testBit mask k).length

/-- Components of a clip. -/
def clipComps (h : Config.ClipHeader) : Nat := if h.mono then 1 else 3

/-- Extents that the headers give: picture or clip width, height, components; or sound rate, channels, frames. -/
def headerOf (d src : List Byte) : Except Nat (Nat × Nat × Nat) :=
  let m := sdMedia d
  let head := src.take 1048576
  if isRaw m then
    if field d 44 1 < 1 ∨ 16 < field d 44 1 ∨ (m = 6 ∧ Config.presetDictionary head) then .error 4
    else .ok (field d 40 2, field d 42 2, field d 44 1)
  else if isClip m then
    match Config.clipHeader (m - 6) head with
    | none => .error 3
    | some h => if clipOk (m - 6) h then .ok (h.width, h.height, clipComps h) else .error 4
  else if m = 0x12 then
    match pcmHeader src with
    | some (_, ch, rate, n) => .ok (rate, ch, n)
    | none => .error 3
  else if m = 0x20 then .ok (0, 0, 0)
  else match Config.mediaHeader m head with
    | none => .error 3
    | some h => if featuresOk m h then .ok (mediaExtent m h) else .error 4

/-- The media window of a sound of n frames: first frame and count. -/
def soundWindow (d : List Byte) (n : Nat) : Nat × Nat := (sdFirst d, if sdCount d = 0 then n - sdFirst d else sdCount d)
/-- Log-mel frames of n frames (R334). -/
def melFrames (b : List Byte) (n : Nat) : Nat := if n < field b 6 2 then 0 else 1 + (n - field b 6 2) / field b 8 2

/-! ### Log-mel (R334): the exact value in fixed point, which a result meets within 10^-4 -/

/-- Fractional bits of the transform, and π in them, rounded down. -/
def trigP : Nat := 320
def fxPi : Int := 6710401180212168915155840974220003240804194089427148950727106424351713218671805380099500388914039

/-- Σ terms of the series of cos and sin from the n-th power on, given its term. -/
def trigSeries (x2 : Int) : Nat → Nat → Int → Int → Int
  | 0, _, _, acc => acc
  | fuel + 1, n, term, acc =>
    trigSeries x2 fuel (n + 2) (-(term * x2 / 2 ^ trigP) / (((n + 1) * (n + 2) : Nat) : Int)) (acc + term)

/-- cos of n / d turns, by the symmetries of the circle from an eighth of a turn. -/
def cosTurn (n d : Nat) : Int :=
  let n := n % d
  let n := if d < 2 * n then d - n else n
  let (neg, n, d) := if d < 4 * n then (true, d - 2 * n, 2 * d) else (false, n, d)
  let x : Int := if d < 8 * n then 2 * fxPi * ((d - 4 * n : Nat) : Int) / ((4 * d : Nat) : Int) else 2 * fxPi * (n : Int) / (d : Int)
  let x2 := x * x / 2 ^ trigP
  let v := if d < 8 * n then trigSeries x2 45 1 x 0 else trigSeries x2 45 0 (2 ^ trigP) 0
  if neg then -v else v
def sinTurn (n d : Nat) : Int := cosTurn (4 * n + 3 * d) (4 * d)

/-- The periodic window (Table 11-6). PRESUMED: Hann is (1 − cos) / 2 and Hamming 0.54 − 0.46 cos (log entry 6). -/
def windowAt (kind i len : Nat) : Int :=
  match kind with
  | 1 => (2 ^ trigP - cosTurn i len) / 2
  | 2 => (54 * 2 ^ trigP - 46 * cosTurn i len) / 100
  | _ => 2 ^ trigP

/-- A finite FP32 value times 2^149. -/
def scaledF32 (x : W32) : Option Int :=
  match ofF32 x with
  | .fin neg m e => some (scaledInt neg m e (-149))
  | _ => none

/-- |X_k|² of the windowed frame y, times 2^1578 (y is times 2^469). -/
def binPower (y : List Int) (size k : Nat) : Int :=
  let re := (y.zipIdx.map fun v => v.1 * cosTurn (v.2 * k) size).foldl (· + ·) 0
  let im := (y.zipIdx.map fun v => v.1 * sinTurn (v.2 * k) size).foldl (· + ·) 0
  re * re + im * im

/-- ln of a positive fixed-point value. -/
def fxLnOf (v : Int) : Int :=
  let l := Nat.log2 v.natAbs
  fxLn (if l ≤ fxP then v * 2 ^ (fxP - l) else v / 2 ^ (l - fxP)) ((l : Int) - fxP)
def fxOfF32 (x : W32) : Int := match ofF32 x with | .fin neg m e => fxOf neg m e | _ => 0

/-- Mel point i of bands + 2, spaced equally on m = 2,595 log10(1 + f / 700). -/
def melPoint (fMin fMax : W32) (bands i : Nat) : Int :=
  if i = 0 then fxOfF32 fMin else if i = bands + 1 then fxOfF32 fMax else
  let a := fxLnOf (fxOne + fxOfF32 fMin / 700)
  let b := fxLnOf (fxOne + fxOfF32 fMax / 700)
  700 * (fxExpV ((a * ((bands + 1 - i : Nat) : Int) + b * (i : Int)) / ((bands + 1 : Nat) : Int)) - fxOne)

/-- The triangle from p0 to p2 with peak 1 at p1. -/
def melWeight (p0 p1 p2 f : Int) : Int :=
  if f ≤ p0 ∨ p2 ≤ f then 0 else if f ≤ p1 then fxDiv (f - p0) (p1 - p0) else fxDiv (p2 - f) (p2 - p1)

/-- The exact value of a band from the powers of the bins (R334, step 5). -/
def melExact (rate : Nat) (b : List Byte) (powers : List Int) (band : Nat) : Int :=
  let p (i : Nat) := melPoint (fieldF b 16) (fieldF b 20) (field b 12 2) (band + i)
  let (p0, p1, p2) := (p 0, p 1, p 2)
  let sum := (powers.zipIdx.map fun v => melWeight p0 p1 p2 (((v.2 * rate * 2 ^ fxP / field b 4 2 : Nat)) : Int) * v.1).foldl (· + ·) 0
  let floor := (scaledF32 (fieldF b 24)).getD 1 * 2 ^ 1589
  let v := if sum < floor then floor else sum
  let l := Nat.log2 v.natAbs
  fxLn (v / 2 ^ (l - fxP)) ((l : Int) - 1738)

/-- A value within 10^-4 of the exact one: the free value where it is, else the nearest FP32 value. -/
def melNear (free : W32) (v : Int) : W32 :=
  let near := fracF32 (decide (v < 0)) v.natAbs (2 ^ fxP)
  match ofF32 free with
  | .fin neg m e =>
    let (a, b) := fracOf m e
    let l : Int := (if neg then -1 else 1) * (a * 2 ^ fxP : Nat) - v * (b : Int)
    if l.natAbs * 10000 ≤ b * 2 ^ fxP then free else near
  | _ => near

/-- The bands of one frame (R334); of a frame with a sample that is not finite they are free; a floor of +∞ is each band's value. -/
def melFrame (rate : Nat) (b : List Byte) (frame : List W32) : List W32 :=
  let free := Config.logmel (rate :: (b.drop 4).map BitVec.toNat) frame
  let xs := frame.filterMap scaledF32
  let bands := List.range (field b 12 2)
  if xs.length < frame.length then bands.map fun m => quietNan (free.getD m 0)
  else if ofF32 (fieldF b 24) = .inf false then bands.map fun _ => fieldF b 24 else
  let y := xs.zipIdx.map fun v => v.1 * windowAt (field b 10 1) v.2 (field b 6 2)
  let powers := (List.range (field b 4 2 / 2 + 1)).map (binPower y (field b 4 2))
  bands.map fun m => melNear (free.getD m 0) (melExact rate b powers m)

end Sys2Proof.Machine
end

