-- ==== Sys2Proof/Machine/Media.lean ====
section
/-!
DEFINITION. The media front end (chapter 11): enabling and disabling streams, submission lists, dispatch, budgets, emission,
batches and their releases.
-/
namespace Sys2Proof.Machine

def State.strm (s : State) (k sub : Nat) : Nat := s.ent (0x6100 + k) sub
def State.stream (s : State) (k : Nat) : Stream := sget Stream.reset s.mfe.streams k
def State.setStream (s : State) (k : Nat) (x : Stream) : State :=
  { s with mfe := { s.mfe with streams := sset Stream.reset s.mfe.streams k x } }
def State.modStream (s : State) (k : Nat) (f : Stream → Stream) : State := s.setStream k (f (s.stream k))
/-- Replace the window's sample of the same number. -/
def Stream.setSample (x : Stream) (y : Sample) : Stream :=
  { x with window := x.window.map fun z => if z.number = y.number then y else z }
def Stream.sample (x : Stream) (n : Nat) : Option Sample := x.window.find? fun y => decide (y.number = n)

/-- States in which the MFE works (R342). -/
def mediaRuns (s : State) : Bool :=
  match s.ctl.dev with
  | .start => true | .ready => true | .armed => true | .run => true | .pause => true | .aborting => true
  | .test => true | .recovery => true
  | _ => false
/-- READY, TEST and RECOVERY. -/
def enables (s : State) : Bool := decide (s.ctl.dev = .ready ∨ s.ctl.dev = .test ∨ s.ctl.dev = .recovery)

/-! ### Enable and disable (R319 to R321) -/

/-- Landing target j of a stream: core and semaphore. -/
def landTarget (s : State) (k j : Nat) : Option (Nat × Nat) :=
  let v := s.strm k 0xD / 2 ^ (16 * j) % 2 ^ 16
  if v = 0xFFFF then none else some (v % 1024, v / 1024)

/-- Entries that must lie in the range of Table 11-12. -/
def streamRangesOk (s : State) (k : Nat) : Bool :=
  let inRange := ([2, 3, 4, 5, 6, 7, 8, 9, 0xA, 0xC, 0xD, 0xE, 0xF, 0x10, 0x11, 0x12, 0x13, 0x14, 0x15, 0x16, 0x17, 0x18, 0x19, 0x1A].all fun sub =>
    match entryOf (0x6100 + k) sub with
    | some e => decide (e.lo ≤ s.strm k sub ∧ s.strm k sub ≤ e.hi)
    | none => false)
  inRange && ([2, 4, 6, 0x1A].all fun sub => decide (s.strm k sub % 64 = 0)) &&
    ([7, 8, 0xF, 0x10].all fun sub => decide (s.strm k sub % 4096 = 0)) &&
    (List.range 4).all fun j => match landTarget s k j with
      | some (c, m) => decide (c < 192 ∧ m < 48)
      | none => true

/-- The normalisation tables that a stream's programs name, each once. -/
def normTables (p : List Byte) : List Nat :=
  ((presentPrograms p).filterMap fun j => (stageWith (stagesOf p j) 9).map fun b => field b 8 8).eraseDups
def streamClass (p : List Byte) : Nat := match presentPrograms p with | j :: _ => programClass (stagesOf p j) | [] => 0
def batchBytes (n : Nat) (p : List Byte) : Nat :=
  (presentPrograms p).foldl (fun m j => Nat.max m (programBytes n (stagesOf p j))) 0

/-- The normalisation and merge tables that programs name. -/
def tableRanges (s : State) (k : Nat) (p : List Byte) : List (Nat × Nat) :=
  ((normTables p).map fun a => (a, 128)) ++
    if streamClass p = 4 then [(s.strm k 0x1A, 1088 + 12 * field (hread s (s.strm k 0x1A) 8) 4 4)] else []

/-- The lists, ring, staging area and tables in HBM that a stream names, and its stage programs: address and bytes. -/
def streamRegions (s : State) (k : Nat) (p : List Byte) : List (Nat × Nat) :=
  [(s.strm k 2, 64 + 64 * s.strm k 3), (s.strm k 7, s.strm k 9 * s.strm k 8),
   (s.strm k 0xF, s.strm k 0xC * s.strm k 0x10)] ++
    (if s.strm k 4 = 0 then [] else [(s.strm k 4, 64 + 64 * s.strm k 5)]) ++ tableRanges s k p

def programRegion (s : State) (k : Nat) : Nat × Nat := (s.strm k 6, 2048)

def disjoint (a b : Nat × Nat) : Bool := decide (a.1 + a.2 ≤ b.1 ∨ b.1 + b.2 ≤ a.1 ∨ a.2 = 0 ∨ b.2 = 0)
def allDisjoint : List (Nat × Nat) → Bool
  | [] => true
  | a :: r => r.all (disjoint a) && allDisjoint r

/-- No list, ring, staging area or table of either stream overlaps a region that the other names (R320). Stage programs may be shared. -/
def streamsApart (a b : List (Nat × Nat)) (pa pb : Nat × Nat) : Bool :=
  (b.all fun r => a.all (disjoint r)) && a.all (disjoint pb) && b.all (disjoint pa)

/-- The whole check of an enable (R320). A stream may have no program present: its descriptors are then rejected (R329). -/
def streamValid (s : State) (k : Nat) (p : List Byte) : Bool :=
  let mine := streamRegions s k p
  let others := (List.range 16).filter fun j => decide (j ≠ k) && (s.stream j).on
  let cls := streamClass p
  streamRangesOk s k && (presentPrograms p).all (fun j => stageProgramOk (s.strm k 0x18) p j &&
      decide (programClass (stagesOf p j) = cls)) &&
    (decide (presentPrograms p = []) || decide ((s.strm k 0x18 ≠ 0) = (cls = 3))) && (decide (cls ≠ 4) || mergeTableOk s (s.strm k 0x1A)) &&
    (programRegion s k :: mine).all (fun r => inHbm r.1 r.2) && allDisjoint (programRegion s k :: mine) &&
    others.all (fun j => streamsApart mine (streamRegions s j (s.stream j).program) (programRegion s k) (programRegion s j)) &&
    decide (batchBytes (s.strm k 0xA) p ≤ s.strm k 8) &&
    decide ((others.map fun j => s.strm j 0xC).foldl (· + ·) (s.strm k 0xC) ≤ 64)

/-- The reads of those tables (R178, R530). -/
def readTables (s : State) (k : Nat) (p : List Byte) : State := readRanges s (tableRanges s k p)

/-- A write of 1 to `0x6100` + k `:01` (R320). -/
def enableStream (s : State) (k : Nat) : Nat × State :=
  if !enables s || (s.stream k).on then (stState, s)
  else
    let p := hread s (s.strm k 6) 2048
    let s := if inHbm (s.strm k 6) 2048 then readRanges s [(s.strm k 6, 2048)] else s
    if streamValid s k p then
      let s := readTables s k p
      let s := clearEnts [(0x6200 + k, 1, 0xB)] ((s.setEnt (0x6100 + k) 1 1).setEnt (0x6100 + k) 0xB (batchBytes (s.strm k 0xA) p))
      (stOk, s.setStream k { Stream.reset with on := true, program := p })
    else (stRange, s.raise 0x6104 [])

/-- Free the decode pipes that the clips of a stream hold. -/
def freePipes (s : State) (k : Nat) : State :=
  { s with video := { s.video with decode := s.video.decode.map fun d => if d.1 = 1 ∧ d.2.1 = k then (0, 0, 0) else d } }

/-- A write of 0 (R321). -/
def disableStream (s : State) (k : Nat) : Nat × State :=
  if (decide (s.ctl.dev = .armed ∨ s.ctl.dev = .run ∨ s.ctl.dev = .pause ∨ s.ctl.dev = .aborting)) ∧ s.strm k 0xE ≠ 0 then (stState, s)
  else (stOk, ((freePipes (countCuts s fun d => decide (d.1 = 1 ∧ d.2.1 = k)) k).setEnt (0x6100 + k) 1 0).setStream k Stream.reset)

/-! ### Releases and deliveries (R347, R348) -/

/-- The head's batch number. -/
def Stream.head (x : Stream) : Nat := x.nextBatch - x.batches.length

/-- Take the owed releases whose head is full. -/
def takeReleases : Nat → Stream → Stream
  | 0, x => x
  | n + 1, x =>
    match x.batches with
    | b :: r => if b.full ∧ x.owed ≠ 0 then takeReleases n { x with batches := r, owed := x.owed - 1, once := x.once.filter fun o => decide (b.number < o.2) } else x
    | [] => x
def settle (s : State) (k : Nat) : State :=
  let x := takeReleases 17 (s.stream k)
  (s.setStream k x).setEnt (0x6200 + k) 1 (x.head % 2 ^ 32)

/-- Owe releases: a release command, a commit or a skipped update (R348). -/
def oweReleases (s : State) (k n : Nat) : State := settle (s.modStream k fun x => { x with owed := x.owed + n }) k
def oweStep (s : State) : State :=
  (List.range 16).foldl (fun s k => if (s.stream k).on then oweReleases s k (s.strm k 0xE) else s) s

/-- A write to `0x6200` + k `:0A`. -/
def releaseBatches (s : State) (k n : Nat) : Nat × State :=
  if n < 1 ∨ 16 < n then (stRange, s)
  else if enables s ∨ s.ctl.dev = .start then (stOk, if (s.stream k).on then oweReleases s k n else s)
  else (stState, s)

/-- A resume is to come or armed: it restores the semaphores, and delivers the batches that became full after the pause point (R347). -/
def awaitsResume (s : State) : Bool := decide (s.eff = .pause ∨ (s.eff = .armed ∧ s.ctl.resuming))

/-- Deliver a batch's landings, in RUN and TEST (R347). In TEST with a tab paused they wait for the resume, as in PAUSE. -/
def deliver (s : State) (k number : Nat) : State :=
  if s.ctl.dev = .run ∨ (s.ctl.dev = .test ∧ awaitsResume s = false) then
    let s := (List.range 4).foldl (fun s j => match landTarget s k j with
      | some (c, m) => incSem s c m (ceilDiv (s.strm k 0xB) 64) true
      | none => s) s
    s.modStream k fun x => { x with batches := x.batches.map fun b => if b.number = number then { b with delivered := true } else b }
  else s
/-- Deliver every full batch not yet delivered, in batch order. -/
def deliverStream (s : State) (k : Nat) : State :=
  ((s.stream k).batches.filter fun b => b.full && !b.delivered).foldl (fun s b => deliver s k b.number) s
/-- At the start fabric time: a run delivers every full batch, a resume those that became full after the pause point. -/
def deliverAll (s : State) (resume : Bool) : State :=
  (List.range 16).foldl (fun s k =>
    let s := if resume then s else s.modStream k fun x => { x with batches := x.batches.map fun b => { b with delivered := false } }
    deliverStream s k) s

/-! ### Lists (R322 to R324) -/

/-- A stopped stream (R324). -/
def stopStream (s : State) (k : Nat) : State :=
  let s := (s.modStream k fun x => { x with stopped := true }).raise 0x6104 []
  if s.strm k 0xE ≠ 0 then abortRun s 0x6104 else s

/-- The published count of a list. -/
def publishedAt (s : State) (base : Nat) : Nat × State := let (b, s, _) := localRead s base 8; (ofLe b, s)

/-- LIST_HEADER_READ (R322, R324). -/
def execListHeaderRead (t : FTime) (st : Fin 16) (s : State) : Out :=
  atTime s t fun s =>
    let k := st.val
    let x := s.stream k
    if mediaRuns s ∧ x.on ∧ x.stopped = false then
      let (n, s) := publishedAt s (s.strm k 2)
      let (r, s) := if s.strm k 4 = 0 then (x.reservePublished, s) else publishedAt s (s.strm k 4)
      if n < x.published ∨ s.ent (0x6200 + k) 3 + s.strm k 3 < n ∨
          (s.strm k 4 ≠ 0 ∧ (r < x.reservePublished ∨ s.ent (0x6200 + k) 4 + s.strm k 5 < r)) then .next (stopStream s k)
      else .next (s.modStream k fun x => { x with published := n, reservePublished := r })
    else .next s

/-- Descriptor i of the main or the reserve list, and whether its read failed. -/
def readDesc (s : State) (k : Nat) (reserve : Bool) (i : Nat) : List Byte × State × Bool :=
  if reserve then localRead s (s.strm k 4 + 64 + 64 * (i % s.strm k 5)) 64
  else localRead s (s.strm k 2 + 64 + 64 * (i % s.strm k 3)) 64

/-! ### Checks before allocation (R337) -/

/-- Limits, plan and staging of a picture or clip. -/
def acceptablePicture (s : State) (k : Nat) (l : List (List Byte)) (d : List Byte) (w h comps : Nat) : Except Nat Unit :=
  let clip := isClip (sdMedia d)
  let e := (stageWith l 0xF).getD []
  let mask := field (l.headD []) 4 2
  let kept := keptOf mask (if clip then 3 else comps)
  let frames := if !clip then 1 else if sdCount d ≠ 0 then sdCount d else emitPlanes e / Nat.max 1 kept
  if s.strm k 0x12 < w ∨ s.strm k 0x13 < h ∨ s.ent 0x6020 1 < w ∨ s.ent 0x6020 1 < h ∨ s.strm k 0x14 < w * h ∨
      s.ent 0x6020 2 < w * h ∨ s.strm k 0x15 < comps ∨ s.ent 0x6020 3 < comps then .error 5
  else if clip ∧ lumaOk w h = false then .error 5
  else match finalSize d l (w, h) with
    | .error r => .error r
    | .ok (fw, fh) =>
      if emitCols e < fw ∨ emitRows e < fh ∨ emitPlanes e < kept * frames then .error 7
      else if s.strm k 0x10 < 8 * w * h * comps * frames then .error 7 else .ok ()

/-- Rows that a sound's channels give, and columns of n frames. -/
def soundShape (l : List (List Byte)) (ch n : Nat) : Nat × Nat :=
  let kept := keptOf (field (l.headD []) 4 2) ch
  let rows := match stageWith l 6 with | some b => if field b 4 1 = 2 then 1 else kept | none => kept
  match stageWith l 7 with
  | some b => (rows * field b 12 2, melFrames b n)
  | none => (rows, n)
/-- Checks of a sound whose frames are known. -/
def soundFits (s : State) (k : Nat) (l : List (List Byte)) (d : List Byte) (ch n : Nat) : Except Nat Unit :=
  let e := (stageWith l 0xF).getD []
  let (first, count) := soundWindow d n
  let (rows, cols) := soundShape l ch count
  if s.strm k 0x17 < n ∨ s.ent 0x6020 5 < n then .error 5
  else if n < first + count ∨ n < first then .error 9
  else if emitRows e < rows ∨ emitCols e < cols then .error 7
  else if s.strm k 0x10 < 8 * count * ch then .error 7 else .ok ()

/-- Checks 3 to 6 of R337. -/
def acceptable (s : State) (k : Nat) (l : List (List Byte)) (d src : List Byte) : Except Nat Unit :=
  match headerOf d src with
  | .error r => .error r
  | .ok (a, b, c) =>
    if sdBytes d = 0 ∨ s.strm k 0x16 < sdBytes d ∨ s.ent 0x6020 4 < sdBytes d then .error 6
    else match mediaClass (sdMedia d) with
      | 3 =>
        if s.strm k 0x15 < b ∨ s.ent 0x6020 3 < b then .error 5
        else if sdMedia d = 0x12 ∧ sdBytes d ≠ 32 + c * b * pcmSize (field src 5 1) then .error 6
        else if a ≠ s.strm k 0x18 then .error 0x0A
        else if c = 0 ∧ sdMedia d ≠ 0x12 then .ok () else soundFits s k l d b c
      | 4 =>
        if s.strm k 0x19 < sdBytes d ∨ s.ent 0x6020 6 < sdBytes d then .error 6
        else if s.strm k 0x10 < 12 * sdBytes d then .error 7 else .ok ()
      | _ =>
        if sdMedia d = 5 ∧ sdBytes d ≠ a * b * c * rawSize d then .error 6 else acceptablePicture s k l d a b c

/-- All the checks of a dispatched sample, in their order. -/
def checkSample (s : State) (k : Nat) (d : List Byte) (lost : Bool) : Except Nat Unit × State :=
  let p := (s.stream k).program
  let l := stagesOf p (sdProgram d)
  if lost then (.error 0x0E, s)
  else if !sdOk d || !programPresent p (sdProgram d) then (.error 1, s)
  else if mediaClass (sdMedia d) ≠ streamClass p then (.error 4, s)
  else if !inHbm (sdSource d) (sdBytes d) then (.error 2, s)
  else if sdMedia d = 5 ∨ sdMedia d = 0x20 then (acceptable s k l d [], s)
  else
    let (src, s, bad) := localRead s (sdSource d) (Nat.min (sdBytes d) 1048576)
    (if bad then .error 0x0E else acceptable s k l d src, s)

/-! ### Results -/

/-- The rows of a sound: one for each channel that is left, one for each band with LOGMEL. -/
def soundRows (l : List (List Byte)) (rate ch : Nat) (v : List W32) (first count : Nat) : List (List W32) :=
  let mask := field (l.headD []) 4 2
  let chan (c : Nat) : List W32 := (List.range count).map fun i => v.getD ((first + i) * ch + c) 0
  let rows := ((List.range ch).filter fun c => Nat.testBit mask c).map chan
  let rows := match stageWith l 6 with
    | some b => if field b 4 1 = 2 then [(List.range count).map fun i => meanOf (rows.map fun r => (1, r.getD i 0))] else rows
    | none => rows
  match stageWith l 7 with
  | none => rows
  | some b => rows.flatMap fun r =>
    let frames := (List.range (melFrames b count)).map fun f =>
      melFrame rate b ((r.drop (f * field b 8 2)).take (field b 6 2))
    (List.range (field b 12 2)).map fun m => frames.map fun x => x.getD m 0

/-- Rows as one plane. -/
def rowsPlane (cols : Nat) (rows : List (List W32)) : Plane := { w := cols, h := rows.length, px := rows.flatMap fun r => (List.range cols).map fun j => r.getD j 0 }

/-- The table that a program's NORMALISE names. -/
def normOf (s : State) (l : List (List Byte)) : Option (List Byte) := (stageWith l 9).map fun b => hread s (field b 8 8) 128

/-- The slot of a picture or of the frames of a clip. -/
def pictureSlot (s : State) (k : Nat) (l : List (List Byte)) (d : List Byte) (off : Int) (frames : List (List Plane)) : SlotOut :=
  let dec := l.headD []
  let e := (stageWith l 0xF).getD []
  let cast := stageWith l 0xA
  let pat := padElem s k cast
  let norm := normOf s l
  let planes := frames.flatMap fun c =>
    (kept (field dec 4 2) (if field dec 6 1 = 1 then colour off c else c)).map fun x => (x.1, l.foldl (stagePlane d) x.2)
  let norms (p : List (Nat × Plane)) : List Plane := p.map fun x => mapPlane (normalise norm x.1) x.2
  let size : Nat × Nat := match planes with | x :: _ => (x.2.w, x.2.h) | [] => (0, 0)
  let data := match stageWith l 5 with
    | none => layPlanes (emitRows e) (emitCols e) (emitPlanes e) pat (outElem cast) (norms planes)
    | some b =>
      let binomial := decide (field b 8 1 = 1)
      let ratio := field b 6 2
      let level (n : Nat) := (List.range n).foldl (fun (p : List (Nat × Plane)) _ => p.map fun x => (x.1, nextLevel binomial ratio x.2)) planes
      (List.range (field b 4 1 + 1)).flatMap fun n =>
        let rc := (List.range n).foldl (fun (a : Nat × Nat) _ => (levelSize binomial ratio a.1, levelSize binomial ratio a.2)) (emitRows e, emitCols e)
        roundLevel pat (layPlanes rc.1 rc.2 (emitPlanes e) pat (outElem cast) (norms (level n)))
  (wholeSlot (emitStride e) pat data, size, size.2)

/-- The slot of a sound. -/
def soundSlot (s : State) (k : Nat) (l : List (List Byte)) (rows : List (List W32)) (cols : Nat) : SlotOut :=
  let e := (stageWith l 0xF).getD []
  let cast := stageWith l 0xA
  let pat := padElem s k cast
  let p := mapPlane (normalise (normOf s l) 0) (rowsPlane cols rows)
  let bands := match stageWith l 7 with | some b => field b 12 2 | none => 0
  (wholeSlot (emitStride e) pat (planned (emitRows e) (emitCols e) pat (outElem cast) (some p)), (cols, bands), cols)

/-- The slot of a text. -/
def textSlot (l : List (List Byte)) (ids : List Nat) : SlotOut :=
  let e := (stageWith l 0xF).getD []
  let pat := le 4 (field ((stageWith l 8).getD []) 12 4)
  (wholeSlot (emitStride e) pat ((ids ++ List.replicate (emitCols e - ids.length) (ofLe pat)).flatMap (le 4)), (ids.length, 0), ids.length)

/-- Frames of a clip, from its first byte on, that are decoded at most (R355, R357). -/
def clipReach (l : List (List Byte)) (d : List Byte) : Nat :=
  if sdCount d = 0 then sdFirst d + emitPlanes ((stageWith l 0xF).getD []) / Nat.max 1 (keptOf (field (l.headD []) 4 2) 3) + 1
  else sdFirst d + sdCount d

/-- The laid-out sample fits the slot's stride; no sample is cut to fit (R337; log entry 86). -/
def fitsSlot (l : List (List Byte)) (o : SlotOut) : Bool := decide (o.1.length ≤ emitStride ((stageWith l 0xF).getD []))

/-- What decode and stages make of a source. Frames of a clip whose size is not that of its first header are checked when it is known (R337). -/
def produce (s : State) (k : Nat) (d src : List Byte) : Except Nat SlotOut :=
  let l := stagesOf (s.stream k).program (sdProgram d)
  let e := (stageWith l 0xF).getD []
  match headerOf d src with
  | .error r => .error r
  | .ok (a, b, c) =>
    let out : Except Nat SlotOut := match mediaClass (sdMedia d) with
    | 1 => match decodePlanes d src a b c with
      | .error r => .error r
      | .ok (p, off) => .ok (pictureSlot s k l d off [p])
    | 2 =>
      match clipFrames (sdMedia d - 6) src (sdFirst d) (decide (sdCount d = 0)) 0 (clipReach l d) none with
      | .error r => .error r
      | .ok f =>
        let z := match f with | x :: _ => x.head | [] => default
        match (if (f.isEmpty || decide (clipSize z = (a, b) ∧ clipComps z = c)) then .ok () else acceptablePicture s k l d z.width z.height (clipComps z)) with
        | .error r => .error r
        | .ok () => .ok (pictureSlot s k l d (2 ^ (z.bits - 1)) (f.map clipPlanes))
    | 3 => match decodeSound d src with
      | .error r => .error r
      | .ok v =>
        let n := v.length / Nat.max 1 b
        match soundFits s k l d b n with
        | .error r => .error r
        | .ok () =>
          let (first, count) := soundWindow d n
          .ok (soundSlot s k l (soundRows l a b v first count) (soundShape l b count).2)
    | _ => match tokenise ((stageWith l 8).getD []) (hread s (s.strm k 0x1A) (1088 + 12 * field (hread s (s.strm k 0x1A) 8) 4 4)) src with
      | .error r => .error r
      | .ok ids => if emitCols e < ids.length then .error 7 else .ok (textSlot l ids)
    match out with
    | .error r => .error r
    | .ok o => if fitsSlot l o then .ok o else .error 7

/-- A slot filled as though it had no data (R338); a descriptor that names an absent program is filled for the first one. -/
def layoutProgram (x : Stream) (d : List Byte) : Nat :=
  if programPresent x.program (sdProgram d) then sdProgram d else (presentPrograms x.program).headD 0
def emptySlot (s : State) (k : Nat) (d : List Byte) : List Byte :=
  let l := stagesOf (s.stream k).program (layoutProgram (s.stream k) d)
  let pat := match stageWith l 8 with | some b => le 4 (field b 12 4) | none => padElem s k (stageWith l 0xA)
  fillBytes (emitStride ((stageWith l 0xF).getD [])) pat

/-! ### Dispatch (R339, R343 to R345) -/

def slotNo (s : State) (k : Nat) (x : Sample) : Nat := x.number % Nat.max 1 (s.strm k 0xA)
def batchNo (s : State) (k : Nat) (x : Sample) : Nat := x.number / Nat.max 1 (s.strm k 0xA)

/-- Raise an event once per batch and stream (R349). -/
def sampleEvent (s : State) (k : Nat) (x : Sample) (code reason status : Nat) : State :=
  let b := batchNo s k x
  if (code, b) ∈ (s.stream k).once then s
  else (s.modStream k fun y => { y with once := (code, b) :: y.once }).raise code
    [(1, k), (1, slotNo s k x), (1, reason), (1, status), (4, b % 2 ^ 32), (8, field x.desc 8 8)]

/-- Instances in use, and the lowest-numbered free one. -/
def busyInstances (s : State) : List Nat := s.mfe.streams.flatMap fun x => x.2.window.filterMap fun y => y.instance_
def freeInstance (s : State) : Option Nat := (List.range 24).find? fun i => !(busyInstances s).contains i
def freePipe (s : State) : Option Nat := (List.range 4).find? fun p => decide (s.video.decode.getD p (0, 0, 0) = (0, 0, 0))
def State.setPipe (s : State) (p : Nat) (v : Nat × Nat × Nat) : State := { s with video := { s.video with decode := s.video.decode.set p v } }
/-- Whether an attempt on a descriptor finds its instance or decode pipe free (R339, R358). -/
def hasRoom (s : State) (d : List Byte) : Bool := if isClip (sdMedia d) then (freePipe s).isSome else (freeInstance s).isSome

/-- A failed attempt (R338, R344): counted; in REPLACE the next reserve descriptor takes the slot, at most four times;
otherwise the slot is rejected. The flag says that a replacement is to be dispatched. -/
def failAttempt (s : State) (k : Nat) (x : Sample) (reason : Nat) (timedOut : Bool) : State × Sample × Bool :=
  let s := s.addEnt (0x6200 + k) (if timedOut then 8 else 7) 1
  let x := { x with reason := reason, timedOut := timedOut, took := s.now.toNat - x.at_.toNat, instance_ := none, pipe := none }
  let st := s.stream k
  let dead := { x with st := 1, valid := false, result := emptySlot s k x.desc }
  if x.replace ∧ x.attempts ≤ 4 then
    if st.reserveNext < st.reservePublished ∧ s.strm k 4 ≠ 0 then
      let (d, s, _) := readDesc s k true st.reserveNext
      (s.modStream k fun y => { y with reserveNext := y.reserveNext + 1 },
       { x with desc := d, reserve := true, index := st.reserveNext, st := 2 }, true)
    else
      let s := s.raise 0x6105 []
      (if timedOut then s else sampleEvent s k x 0x6101 reason 1, dead, false)
  else (if timedOut then s else sampleEvent s k x 0x6101 reason 1, dead, false)

/-- Dispatch an attempt: the checks, then an instance or a pipe; failures go on to the replacements, at most `n` attempts. -/
def dispatchAttempt : Nat → State → Nat → Sample → State
  | 0, s, k, x => s.modStream k fun y => y.setSample x
  | n + 1, s, k, x =>
    if !hasRoom s x.desc then s.modStream k fun y => y.setSample x
    else
      let (_, _, lost) := if x.reserve then readDesc s k true x.index else readDesc s k false x.index
      let x := { x with at_ := s.now, replace := replaces s, attempts := x.attempts + 1, st := 0 }
      let (r, s) := checkSample s k x.desc lost
      match r with
      | .ok () =>
        if isClip (sdMedia x.desc) then
          match freePipe s with
          | some p => (s.setPipe p (1, k, x.number)).modStream k fun y => y.setSample { x with pipe := some p }
          | none => s
        else s.modStream k fun y => y.setSample { x with instance_ := freeInstance s }
      | .error r =>
        let (s, x, again) := failAttempt s k x r false
        if again then dispatchAttempt n s k x else s.modStream k fun y => y.setSample x

/-- The buffer of the next sample's batch is free or begun (R345). -/
def bufferFree (s : State) (k : Nat) : Bool :=
  let x := s.stream k
  decide (x.next / Nat.max 1 (s.strm k 0xA) < x.nextBatch ∨ x.batches.length < s.strm k 9)
/-- A stream has a published descriptor and a window entry for it. -/
def wantsDispatch (s : State) (k : Nat) : Bool :=
  let x := s.stream k
  x.on && !x.stopped && decide (x.window.length < s.strm k 0xC) && decide (x.next < x.published)
/-- A sample of the stream can be dispatched: a replacement that waits, or the next of the list. -/
def streamReady (s : State) (k : Nat) : Bool :=
  let x := s.stream k
  match x.window.find? fun y => decide (y.st = 2) with
  | some y => x.on && !x.stopped && hasRoom s y.desc
  | none => wantsDispatch s k && bufferFree s k && hasRoom s (readDesc s k false x.next).1
/-- The next stream in rotation that is ready (R339). -/
def rotated (s : State) : List Nat := (List.range 16).map fun i => (s.mfe.nextStream + i) % 16

/-- A wait for a free buffer is counted once for its batch. -/
def noteRingWait (s : State) (k : Nat) : State :=
  let x := s.stream k
  if wantsDispatch s k ∧ bufferFree s k = false ∧ (0, x.nextBatch) ∉ x.once then
    (s.modStream k fun x => { x with once := (0, x.nextBatch) :: x.once }).addEnt (0x6200 + k) 0xB 1
  else s

/-- Dispatch of a stream that is ready. -/
def dispatchStream (s : State) (k : Nat) : State :=
  let s := { s with mfe := { s.mfe with nextStream := (k + 1) % 16 } }
  let x := s.stream k
  match x.window.find? fun y => decide (y.st = 2) with
  | some y => dispatchAttempt 5 s k y
  | none =>
    let (d, s, _) := readDesc s k false x.next
    let y : Sample :=
      { number := x.next, index := x.next, reserve := false, attempts := 0, desc := d, replace := false, st := 0, at_ := s.now,
        took := 0, instance_ := none, pipe := none, reason := 0, timedOut := false, valid := false, result := [],
        extents := (0, 0), rows := 0 }
    let begins := decide (x.next / Nat.max 1 (s.strm k 0xA) = x.nextBatch)
    let b : Batch := { number := x.nextBatch, full := false, delivered := false, emitted := 0, valid := 0, rejected := 0, rows := 0,
                       mask := 0, replaced := false, timedOut := false }
    let x := { x with next := x.next + 1, window := x.window ++ [y],
                      batches := if begins then x.batches ++ [b] else x.batches,
                      nextBatch := if begins then x.nextBatch + 1 else x.nextBatch }
    dispatchAttempt 5 ((s.setStream k x).setEnt (0x6200 + k) 2 x.next) k y

/-- SAMPLE_DISPATCH (R339, R345). -/
def execSampleDispatch (t : FTime) (st : Fin 16) (s : State) : Out :=
  atTime s t fun s =>
    if !mediaRuns s then .next s
    else
      let s := noteRingWait s st.val
      if (rotated s).find? (streamReady s) = some st.val then .next (dispatchStream s st.val) else .next s

/-! ### Finish, budget, emission (R340, R341, R346) -/

/-- Give back an attempt's instance or pipe. -/
def freeAttempt (s : State) (x : Sample) : State := match x.pipe with | some p => s.setPipe p (0, 0, 0) | none => s
/-- The end of an attempt's decode budget (R341). -/
def budgetEnd (s : State) (x : Sample) : Nat := x.at_.toNat + s.ent 0x6030 (sdMedia x.desc) * 1000

/-- An attempt failed after its dispatch. In a stopped stream its replacement is not dispatched (R324; log entry 147). -/
def failDecode (s : State) (k : Nat) (x : Sample) (reason : Nat) (timedOut : Bool) : State :=
  let s := freeAttempt s x
  let (s, y, again) := failAttempt s k x reason timedOut
  let s := s.modStream k fun z => z.setSample y
  if again && !(s.stream k).stopped then dispatchAttempt 5 s k y else s

/-- The frames that a clip's pipe has decoded are counted (R373); of one stopped by its budget they are a free number. -/
def countClip (s : State) (k : Nat) (x : Sample) (src : List Byte) : State :=
  match x.pipe with
  | none => s
  | some p => s.addEnt 0x6430 (p + 1)
      (framesDecoded (sdMedia x.desc - 6) src (sdFirst x.desc) 0 (clipReach (stagesOf (s.stream k).program (sdProgram x.desc)) x.desc) none)
def countStopped (s : State) (x : Sample) : State :=
  match x.pipe with
  | none => s
  | some p => let (n, s) := drawNat s (2 ^ 32); s.addEnt 0x6430 (p + 1) n

/-- A sample's bytes, read with the tables of its program and through the front end's own SRAM, all of whose words count as read (R340,
Table 18-3; log entry 151). -/
def sampleRead (s : State) (k : Nat) (d : List Byte) : List Byte × State × Bool :=
  let (src, s, bad) := localRead s (sdSource d) (sdBytes d)
  let tables := tableRanges s k (programSlot (s.stream k).program (sdProgram d))
  let (s, own) := sramReadCheck (readRanges s tables) 8 0 0 (8 * 2 ^ 24)
  (src, s, bad || own || tables.any fun r => (hcheck s r.1 r.2).2)

/-- SAMPLE_FINISH (R340). -/
def execSampleFinish (t : FTime) (st : Fin 16) (sample : Nat) (s : State) : Out :=
  atTime s t fun s =>
    let k := st.val
    match (s.stream k).sample sample with
    | none => .next s
    | some x =>
      if mediaRuns s ∧ x.st = 0 ∧ s.now.toNat < budgetEnd s x then
        let (src, s, bad) := sampleRead s k x.desc
        let s := if bad then countStopped s x else countClip s k x src
        match (if bad then .error 0x0E else produce s k x.desc src) with
        | .error r => .next (failDecode s k x r false)
        | .ok (b, ext, rows) =>
          .next ((freeAttempt s x).modStream k fun z => z.setSample { x with
            st := 1, valid := true, took := s.now.toNat - x.at_.toNat, instance_ := none, pipe := none, result := b, extents := ext, rows := rows })
      else .next s

/-- SAMPLE_TIMEOUT (R341). -/
def execSampleTimeout (t : FTime) (st : Fin 16) (sample : Nat) (s : State) : Out :=
  atTime s t fun s =>
    let k := st.val
    match (s.stream k).sample sample with
    | none => .next s
    | some x =>
      if mediaRuns s ∧ x.st = 0 ∧ budgetEnd s x ≤ s.now.toNat then
        .next (failDecode (sampleEvent (countStopped s x) k x 0x6102 0x0D 2) k x 0x0D true)
      else .next s

/-- Status of a slot record (Table 11-11). -/
def slotStatus (x : Sample) : Nat := if x.valid then (if x.reserve then 3 else 0) else if x.timedOut then 2 else 1
/-- A slot record. -/
def slotRecord (x : Sample) : List Byte :=
  padTo 32 (le 8 (field x.desc 8 8) ++ le 1 (slotStatus x) ++ le 1 x.reason ++ le 1 x.attempts ++ le 1 0 ++
    le 4 (if x.valid then x.extents.1 else 0) ++ le 4 (if x.valid then x.extents.2 else 0) ++ le 4 (sdBytes x.desc) ++
    le 4 (x.took % 2 ^ 32) ++ le 4 (x.index % 2 ^ 32))
/-- Where batch k lies. -/
def batchAt (s : State) (k n : Nat) : Nat := s.strm k 7 + n % Nat.max 1 (s.strm k 9) * s.strm k 8

/-- The header and the valid mask of a batch (Tables 11-9 and 11-10), and the records beyond its size. -/
def batchHeader (s : State) (k : Nat) (b : Batch) : List Byte :=
  padTo 64 (le 1 1 ++ le 1 k ++ le 2 (s.strm k 0xA) ++ le 2 b.valid ++ le 2 b.rejected ++ le 8 b.number ++ le 4 b.rows ++ le 28 0 ++
    le 8 s.now.toNat ++ le 4 ((if b.replaced then 1 else 0) + if b.timedOut then 2 else 0)) ++ le 32 b.mask ++ le 32 0

/-- A batch whose last slot is emitted becomes full: header, count, landings, owed releases. -/
def completeBatch (s : State) (k : Nat) (b : Batch) : State :=
  let base := batchAt s k b.number
  let n := s.strm k 0xA
  let s := localWrite s (base + 128 + 32 * n) (List.replicate (32 * (256 - n)) 0)
  let s := (localWrite s base (batchHeader s k b)).addEnt (0x6200 + k) 5 1
  let s := s.modStream k fun x => { x with batches := x.batches.map fun c => if c.number = b.number then { b with full := true } else c }
  settle (deliver s k b.number) k

/-- Reserve descriptors before the first that is still in use. -/
def reserveRetired (x : Stream) : Nat :=
  (x.window.filter fun y => y.reserve).foldl (fun m y => Nat.min m y.index) x.reserveNext

/-- Emit the oldest sample of a stream. -/
def emitSample (s : State) (k : Nat) (x : Sample) : State :=
  let t := slotNo s k x
  let base := batchAt s k (batchNo s k x)
  let e := (stageWith (stagesOf (s.stream k).program (layoutProgram (s.stream k) x.desc)) 0xF).getD []
  let status := slotStatus x
  let s := localWrite s (base + emitOffset e + t * emitStride e) x.result
  let s := localWrite s (base + 128 + 32 * t) (slotRecord x)
  let s := if status = 3 then (sampleEvent s k x 0x6103 x.reason 3).addEnt (0x6200 + k) 9 1 else s
  let s := if x.valid then s.addEnt (0x6200 + k) 6 1 else s
  let bump (b : Batch) : Batch := { b with
    emitted := b.emitted + 1
    valid := b.valid + (if x.valid then 1 else 0)
    rejected := b.rejected + (if x.valid then 0 else 1)
    rows := b.rows + (if x.valid then x.rows else 0)
    mask := b.mask + (if x.valid then 2 ^ t else 0)
    replaced := b.replaced || decide (status = 3)
    timedOut := b.timedOut || decide (status = 2) }
  let number := batchNo s k x
  let s := s.modStream k fun y => { y with
    window := y.window.filter fun z => decide (z.number ≠ x.number)
    batches := y.batches.map fun b => if b.number = number then bump b else b }
  let s := (s.addEnt (0x6200 + k) 3 1).setEnt (0x6200 + k) 4 (reserveRetired (s.stream k))
  match (s.stream k).batches.find? fun b => decide (b.number = number) with
  | some b => if b.emitted = s.strm k 0xA then completeBatch s k b else s
  | none => s

/-- SAMPLE_EMIT (R340). -/
def execSampleEmit (t : FTime) (st : Fin 16) (s : State) : Out :=
  atTime s t fun s =>
    match (s.stream st.val).window with
    | x :: _ => if mediaRuns s ∧ x.st = 1 then .next (emitSample s st.val x) else .next s
    | [] => .next s

end Sys2Proof.Machine
end

