-- ==== Sys2Proof/Machine/Video.lean ====
section
/-!
DEFINITION. The video engine (chapter 12): encode commands, the decode and encode pipes, the input stage, the rate-control law
and the clip record.
-/
namespace Sys2Proof.Machine

/-! ### Encode commands (R360, R361, Table 12-4) -/

def evKind (d : List Byte) : Nat := field d 1 1
def evMono (d : List Byte) : Bool := Nat.testBit (field d 2 1) 0
def evArea (d : List Byte) : Bool := Nat.testBit (field d 2 1) 1
def evYOnly (d : List Byte) : Bool := Nat.testBit (field d 2 1) 2
def evCtx (d : List Byte) : Nat := field d 4 1
def evIntra (d : List Byte) : Nat := field d 5 1
def evQp (d : List Byte) (o : Nat) : Int := fieldI d o 1
def evSource (d : List Byte) : Nat := field d 16 6
def evSourceBytes (d : List Byte) : Nat := field d 24 4
def evFirst (d : List Byte) : Nat := field d 28 2
def evCount (d : List Byte) : Nat := field d 30 2
def evOut (d : List Byte) : Nat := field d 48 6
def evCapacity (d : List Byte) : Nat := field d 56 4
/-- OW and OH. -/
def evOW (d : List Byte) : Nat := field d 44 2
def evOH (d : List Byte) : Nat := field d 46 2
/-- Crop x, y, w, h. -/
def evCrop (d : List Byte) : Nat × Nat × Nat × Nat := (field d 36 2, field d 38 2, field d 40 2, field d 42 2)

/-- Bytes of one PLANAR frame (R362). -/
def planarBytes (d : List Byte) : Nat :=
  let y := field d 32 2 * field d 34 2
  2 * (if evYOnly d then y else y + y / 2)
/-- Bytes that the source spans. -/
def evSpan (d : List Byte) : Nat := if evKind d = 1 then (evCount d - 1) * evSourceBytes d + planarBytes d else evSourceBytes d

/-- The crop box lies in w × h. -/
def evCropFits (d : List Byte) (w h : Nat) : Bool := let (x, y, cw, ch) := evCrop d; decide (x + cw ≤ w ∧ y + ch ≤ h)
/-- The scaling ratios lie in 1/8 to 2 (R361). -/
def ratioOk (out inp : Nat) : Bool := decide (inp ≤ 8 * out ∧ out ≤ 2 * inp)
def evRatioOk (d : List Byte) : Bool :=
  let (_, _, w, h) := evCrop d
  if field d 3 1 % 2 = 1 then ratioOk (evOW d) h && ratioOk (evOH d) w else ratioOk (evOW d) w && ratioOk (evOH d) h

def clashes (a b : Nat × Nat) : Bool := !disjoint a b
/-- Output ranges of the contexts that encode. -/
def encodingOutputs (s : State) : List (Nat × Nat) :=
  (List.range 64).filterMap fun c => (sget none s.video.ctxs c).map fun x => (evOut x.desc, evCapacity x.desc)

/-- The first field of a descriptor that fails, by offset (R361); none where it passes. Reserved bits and bytes are ignored (R8). -/
def evFault (s : State) (d : List Byte) : Option Nat :=
  let planar := decide (evKind d = 1)
  let even (o : Nat) := decide (field d o 2 % 2 = 0)
  let side (o : Nat) := even o && decide (2 ≤ field d o 2 ∧ field d o 2 ≤ 16888)
  let out (o : Nat) := decide (field d o 2 % 8 = 0 ∧ 64 ≤ field d o 2 ∧ field d o 2 ≤ 4096)
  let qpIn (o : Nat) := decide (-12 ≤ evQp d o ∧ evQp d o ≤ 51)
  let outRange := (evOut d, evCapacity d)
  ([(0, decide (field d 0 1 = 1)),
    (1, decide (1 ≤ evKind d ∧ evKind d ≤ 3)),
    (2, !evYOnly d || (planar && evMono d)),
    (4, decide (evCtx d < 64) && (sget none s.video.ctxs (evCtx d)).isNone),
    (5, decide (1 ≤ evIntra d)),
    (6, qpIn 6 && decide (evQp d 7 ≤ evQp d 6 ∧ evQp d 6 ≤ evQp d 8)),
    (7, qpIn 7),
    (8, qpIn 8 && decide (evQp d 7 ≤ evQp d 8)),
    (9, decide (1 ≤ field d 9 1 ∧ field d 9 1 ≤ 16)),
    (12, decide (4096 ≤ field d 12 4 ∧ field d 12 4 ≤ 1000000000)),
    (16, inHbm (evSource d) (evSpan d)),
    (24, !planar || decide (planarBytes d ≤ evSourceBytes d)),
    (28, !planar || decide (evFirst d = 0)),
    (30, !planar || decide (1 ≤ evCount d)),
    (32, if planar then side 32 && side 34 else decide (field d 32 4 = 0)),
    (36, even 36 && even 38 && even 40 && even 42 && (!planar || evCropFits d (field d 32 2) (field d 34 2))),
    (44, out 44 && out 46 && decide (evOW d * evOH d ≤ 8912896) && (!planar || evRatioOk d)),
    (48, decide (evOut d % 256 = 0) && inHbm (evOut d) (evCapacity d) &&
      !clashes outRange (evSource d, evSpan d) && (encodingOutputs s).all fun r => !clashes outRange r),
    (56, decide (evCapacity d % 256 = 0 ∧ 65536 ≤ evCapacity d)),
    (60, !rgLand d || decide (rgCore d < 192 ∧ rgSem d < 48))].find? fun c => !c.2).map Prod.fst

/-- States that accept an encode command. -/
def encodes (s : State) : Bool :=
  match s.ctl.dev with
  | .ready => true | .armed => true | .run => true | .pause => true | .test => true | .recovery => true
  | _ => false

/-- A refused command (R361): counted; one from a program is recorded and aborts the step. -/
def refuseEncode (s : State) (o : Origin) (ctx offset : Nat) : State :=
  let s := (s.addEnt 0x6410 3 1).raise 0x6301 []
  match originCore o with
  | none => s
  | some c =>
    let s := if s.ent 0x6440 1 = 0xFFFF then ((s.setEnt 0x6440 1 c.val).setEnt 0x6440 2 ctx).setEnt 0x6440 3 offset else s
    abortRun s 0x6301

/-! ### The pipes (R358, R359, R365) -/

def State.ctx (s : State) (c : Nat) : Option EncCtx := sget none s.video.ctxs c
def State.setCtx (s : State) (c : Nat) (x : Option EncCtx) : State :=
  { s with video := { s.video with ctxs := sset none s.video.ctxs c x } }

/-- A context that an encode pipe can take: its next frame's source is at hand, and no pipe encodes it. -/
def encReady (x : EncCtx) : Bool := x.coding.isNone && x.waiting.isSome

/-- The ready context that has waited longest; of two that wait alike, the lower numbered. -/
def longestWaiting (s : State) : Option Nat :=
  (List.range 64).foldl (fun best c =>
    match s.ctx c with
    | none => best
    | some x => if !encReady x then best else
      match best with
      | none => some c
      | some b => match s.ctx b with
        | some y => if x.readyAt.toNat < y.readyAt.toNat then some c else best
        | none => some c) none

/-- An idle encode pipe takes a context; loading another context's state is counted (R365). -/
def takeEncode (s : State) (p : Nat) : State :=
  if (s.video.encode.getD p none).isSome then s else
  match longestWaiting s with
  | none => s
  | some c => match s.ctx c with
    | none => s
    | some x =>
      let last := s.video.lastCtx.getD p none
      let s := if last.isSome ∧ last ≠ some c then s.addEnt 0x6430 7 1 else s
      let s := s.setCtx c (some { x with coding := x.waiting, codingSize := x.size, waiting := none })
      { s with video := { s.video with encode := s.video.encode.set p (some c), lastCtx := s.video.lastCtx.set p (some c) } }
/-- Both encode pipes take what is ready, pipe p first: at a frame boundary it is the pipe that has reached it. -/
def takeBoth (s : State) (p : Nat) : State := takeEncode (takeEncode s p) (1 - p)
/-- Idle pipes take a context that has become ready: the one that last ran it, where it is idle, and else pipe 0 first (DESIGN CHOICE: log entry 148). -/
def takeEncodes (s : State) : State :=
  let c := longestWaiting s
  takeBoth s (if c.isSome ∧ s.video.lastCtx.getD 1 none = c then 1 else 0)

/-- A clip source whose next frame no pipe decodes; at most one decoded frame waits. -/
def wantsDecode (s : State) (c : Nat) : Bool :=
  match s.ctx c with
  | none => false
  | some x => decide (evKind x.desc ≠ 1) && decide (x.ended = 0) && x.waiting.isNone &&
      s.video.decode.all fun d => !(decide (d.1 = 2) && decide (d.2.1 = c))

/-- The first stream in rotation whose next sample is a clip that waits for a pipe. -/
def waitingClip (s : State) : Option Nat :=
  (rotated s).find? fun k => streamReady s k &&
    (match (s.stream k).window.find? fun y => decide (y.st = 2) with
     | some y => isClip (sdMedia y.desc)
     | none => isClip (sdMedia (readDesc s k false (s.stream k).next).1))

/-- DECODE_PIPE_FREE (R359): a free pipe takes a waiting clip, else the next transcode source frame. -/
def execDecodePipeFree (p : Fin 4) (s : State) : Out :=
  if s.video.decode.getD p.val (0, 0, 0) ≠ (0, 0, 0) then .next s
  else match waitingClip s with
    | some k => if mediaRuns s then .next (dispatchStream s k) else .next s
    | none => match (List.range 64).find? (wantsDecode s) with
      | some c => .next (s.setPipe p.val (2, c, match s.ctx c with | some x => x.decoded | none => 0))
      | none => .next s

/-! ### Starting and ending a command (R360, R369 to R371) -/

/-- The Y, Cb and Cr codes of a PLANAR frame; whether its read failed (R362). -/
def planarFrame (s : State) (d : List Byte) (f : Nat) : (List Nat × List Nat × List Nat) × State × Bool :=
  let y := field d 32 2 * field d 34 2
  let (b, s, bad) := localRead s (evSource d + f * evSourceBytes d) (planarBytes d)
  let code (k : Nat) := field b (2 * k) 2 % 1024
  let part (o n : Nat) := (List.range n).map fun k => code (o + k)
  ((part 0 y, if evYOnly d then ([], []) else (part y (y / 4), part (y + y / 4) (y / 4))), s, bad)

/-- Write the clip record, free the context, land (R369 to R371, Table 12-7). -/
def endEncode (s : State) (c : Nat) (x : EncCtx) (status : Nat) : State :=
  let d := x.desc
  let record := padTo 64 (le 1 1 ++ le 1 status ++ le 1 c ++ le 1 0 ++ le 4 x.frames ++ le 4 x.bytes ++ le 2 (evOW d) ++ le 2 (evOH d) ++
    le 4 (if evKind d = 1 then 0 else x.decoded) ++ le 4 x.largest ++ le 8 x.start.toNat ++ le 8 s.now.toNat)
  let s := ((localWrite s (evOut d) record).addEnt 0x6410 2 1).setCtx c none
  let s := { s with video := { s.video with decode := s.video.decode.map fun p => if p.1 = 2 ∧ p.2.1 = c then (0, 0, 0) else p } }
  let s := if status = 2 then s.raise 0x6302 [] else if status = 3 then s.raise 0x6303 [] else s
  if rgLand d then incSem s (rgCore d) (rgSem d) 1 true else s

/-- A command ends once its source has ended and no frame of it is left to encode. -/
def endIfDone (s : State) (c : Nat) : State :=
  match s.ctx c with
  | none => s
  | some x => if x.ended ≠ 0 ∧ x.waiting = none ∧ x.coding = none then endEncode s c x x.ended else s

/-- Bring the next PLANAR frame to the engine. -/
def feedPlanar (s : State) (c : Nat) : State :=
  match s.ctx c with
  | none => s
  | some x =>
    if evKind x.desc ≠ 1 ∨ x.ended ≠ 0 ∨ x.waiting.isSome then s
    else
      let (f, s, bad) := planarFrame s x.desc x.frames
      s.setCtx c (some (if bad then { x with ended := 3 } else { x with waiting := some f, readyAt := s.now }))

/-- A write to `0x6410:01` (R360). -/
def encodeCommand (s : State) (o : Origin) (b d : List Byte) : Nat × State :=
  let c := evCtx d
  if !encodes s then (stState, refuseEncode s o c 0)
  else if rcOp b ≠ 1 ∨ ¬ (isMemory (rcDesc b) 64) ∨ rcDesc b % 64 ≠ 0 then (stRange, refuseEncode s o c 0)
  else match evFault s d with
    | some off => (stRange, refuseEncode s o c off)
    | none =>
      let x : EncCtx :=
        { desc := d, frames := 0, decoded := 0,
          size := if evKind d = 1 then some (field d 32 2, field d 34 2, evYOnly d, 10) else none,
          waiting := none, coding := none, codingSize := none, ended := 0, qpI := evQp d 6, qpP := evQp d 6, largest := 0, start := s.now,
          readyAt := s.now, history := padTo 64 d }
      (stOk, takeEncodes (endIfDone (feedPlanar (s.setCtx c (some x)) c) c))

/-! ### Transcode decoding (R353 to R355, R361, R366) -/

/-- The checks of a clip source's frame size: the luma limit, and the crop box and ratios of R361. -/
def sizeOk (d : List Byte) (z : Nat × Nat × Bool × Nat) : Bool :=
  lumaOk z.1 z.2.1 && evCropFits d z.1 z.2.1 && evRatioOk d
/-- Frame size of a clip's header: width, height, monochrome, bit depth. -/
def headSize (h : Config.ClipHeader) : Nat × Nat × Bool × Nat := (h.width, h.height, h.mono, h.bits)

/-- The clip source has failed (R370): the command ends after the last whole frame. -/
def sourceFails (x : EncCtx) : EncCtx := { x with ended := 3 }

/-- The next source frame, of number i: one above the luma limit is rejected; it is discarded before the window; in it the frames have one size,
checked at the first (R355, R361). A frame whose headers are rejected is not decoded. -/
def sourceFrame (x : EncCtx) (f : Config.ClipFrame) (now : FTime) : EncCtx :=
  let i := x.decoded
  let z := headSize f.head
  if lumaOk z.1 z.2.1 = false then sourceFails x
  else if i < evFirst x.desc then { x with decoded := i + 1 }
  else if i = evFirst x.desc ∧ sizeOk x.desc z = false then sourceFails x
  else if i ≠ evFirst x.desc ∧ x.size.map (fun y => (y.1, y.2.1)) ≠ some (z.1, z.2.1) then sourceFails x
  else
    { x with decoded := i + 1, size := some z, waiting := some (f.y, f.cb, f.cr), readyAt := now,
             ended := if evCount x.desc ≠ 0 ∧ evFirst x.desc + evCount x.desc ≤ i + 1 then 1 else 0 }

/-- The first header of a clip source passes Tables 12-1 and 12-2, and the checks of R361. -/
def firstHeaderOk (d src : List Byte) : Bool :=
  match Config.clipHeader (evKind d) (src.take 1048576) with
  | some h => clipOk (evKind d) h && sizeOk d (headSize h)
  | none => false

/-- What the next source frame does to a context. -/
def decodeNext (x : EncCtx) (src : List Byte) (bad : Bool) (now : FTime) : EncCtx :=
  if bad ∨ (x.decoded = 0 ∧ firstHeaderOk x.desc src = false) then sourceFails x else
  match clipStep (evKind x.desc) src x.decoded with
  | .broken => sourceFails x
  | .ended => { x with ended := if evCount x.desc = 0 ∧ evFirst x.desc ≤ x.decoded then 1 else 3 }
  | .frame f => if clipOk (evKind x.desc) f.head then sourceFrame x f now else sourceFails x

/-- TRANSCODE_FRAME_DECODED (R366): the pipe is released at the frame boundary (R359). -/
def execTranscodeFrameDecoded (t : FTime) (p : Fin 4) (s : State) : Out :=
  atTime s t fun s =>
    let d := s.video.decode.getD p.val (0, 0, 0)
    match s.ctx d.2.1 with
    | none => .next s
    | some x =>
      if d.1 ≠ 2 then .next s
      else
        let (src, s, bad) := localRead s (evSource x.desc) (evSourceBytes x.desc)
        let y := decodeNext x src bad s.now
        let s := if x.decoded < y.decoded then s.addEnt 0x6430 (p.val + 1) 1 else s
        .next (takeEncodes (endIfDone ((s.setPipe p.val (0, 0, 0)).setCtx d.2.1 (some y)) d.2.1))

/-! ### The input stage (R362, R363) -/

/-- A plane of codes, cut, turned and resampled; rounded to 10 bits. -/
def inputPlane (d : List Byte) (half : Nat) (p : Plane) : List Nat :=
  let (x, y, w, h) := evCrop d
  let q := resize (evArea d) (evOW d / half) (evOH d / half) (orientPlane (field d 3 1) (cropPlane (x / half) (y / half) (w / half) (h / half) p))
  q.px.map fun v => match ofF32 v with
    | .fin neg m e => let k := roundInt .rne neg m e; if k < 0 then 0 else if 1023 < k then 1023 else k.toNat
    | _ => 0

/-- The codes of a frame as the encoder takes them: Y, then Cb and Cr unless MONO. -/
def inputFrame (d : List Byte) (z : Nat × Nat × Bool × Nat) (f : List Nat × List Nat × List Nat) : List Nat :=
  let scale := if z.2.2.2 = 8 then 4 else 1
  let plane (w h : Nat) (l : List Nat) := mkPlane w h fun i j => fOfInt (l.getD (i * w + j) 0 * scale : Nat)
  let chroma (l : List Nat) : List Nat :=
    if z.2.2.1 then List.replicate (evOW d / 2 * (evOH d / 2)) 512
    else inputPlane d 2 (plane ((z.1 + 1) / 2) ((z.2.1 + 1) / 2) l)
  inputPlane d 1 (plane z.1 z.2.1 f.1) ++ if evMono d then [] else chroma f.2.1 ++ chroma f.2.2

/-! ### The rate-control law (R367, R368) -/

/-- The QP step of Table 12-6. -/
def qpStep (b target : Nat) : Int :=
  if 1367 * target ≤ 1024 * b then 3
  else if 1218 * target ≤ 1024 * b then 2
  else if 1085 * target ≤ 1024 * b then 1
  else if 967 * target ≤ 1024 * b then 0
  else if 861 * target ≤ 1024 * b then -1
  else if 767 * target ≤ 1024 * b then -2
  else -3

/-- The target of a row: budget, bits spent, rows left (R367). -/
def rowTarget (budget used left : Nat) : Nat := Nat.max 1 ((budget - used) / left)

def clampQp (d : List Byte) (q : Int) : Int := if q < evQp d 7 then evQp d 7 else if evQp d 8 < q then evQp d 8 else q

/-- The rows of a frame that are left: the QPs used, and the QP that follows the last row. -/
def rateLaw (d history : List Byte) (refs planes : List Nat) (budget : Nat) : Nat → Nat → List Int → Int → List Int × Int
  | 0, _, qps, q => (qps, q)
  | left + 1, used, qps, q =>
    let b := Config.encodeRowBits history refs planes (qps ++ [q])
    rateLaw d history refs planes budget left (used + b) (qps ++ [q]) (clampQp d (q + qpStep b (rowTarget budget used (left + 1))))

/-- A NAL unit of a type, after a start code. PRESUMED: the codes of types and start code are those of H.265, which R364 does not restate (log entry 7). -/
def nalUnit (type_ : Nat) (b : List Byte) : List Byte := le 3 0 ++ le 1 1 ++ le 1 (2 * type_) ++ le 1 1 ++ b

/-- The access unit of a frame (R364): the delimiter, before an IDR picture the VPS, SPS and PPS, and one slice. Main 10 profile, main tier, level 5.1, 10 bits, CTUs of 64 × 64, a QP for each CTU, no VUI or
HRD; the picture is IDR_N_LP or TRAIL_R. -/
def accessUnit (d : List Byte) (idr : Bool) (slice : List Byte) : List Byte :=
  nalUnit 35 (le 1 (if idr then 0x10 else 0x30)) ++
    (if idr then nalUnit 32 (Config.vpsBytes 2 false 153 false) ++ nalUnit 33 (Config.spsBytes 2 false 153 10 6 (evOW d) (evOH d) (evMono d) false) ++
      nalUnit 34 (Config.ppsBytes true) else []) ++
    nalUnit (if idr then 20 else 1) slice

/-- One frame: its bytes, and the new running QP of its type. A TRAIL_R picture is predicted from the previous frame only (R364). -/
def encodeOne (x : EncCtx) (planes : List Nat) : List Byte × Int :=
  let d := x.desc
  let idr := decide (x.frames % evIntra d = 0)
  let budget := if idr then field d 12 4 * field d 9 1 else field d 12 4
  let refs := if idr then [] else [1]
  let (qps, q) := rateLaw d x.history refs planes budget (ceilDiv (evOH d) 64) 0 [] (if idr then x.qpI else x.qpP)
  (accessUnit d idr (Config.encodeSlice x.history refs planes qps), q)

/-- The frame that a pipe has encoded: written, or discarded where it passes the capacity (R370). -/
def frameDone (s : State) (c : Nat) (x : EncCtx) (f : List Nat × List Nat × List Nat) : State :=
  let d := x.desc
  let (b, q) := encodeOne x (inputFrame d (x.codingSize.getD (0, 0, false, 10)) f)
  if evCapacity d < 256 + x.bytes + b.length then endEncode s c x 2
  else
    let s := localWrite s (evOut d + 256 + x.bytes) b
    let idr := decide (x.frames % evIntra d = 0)
    let y := { x with coding := none, frames := x.frames + 1, history := x.history ++ b, largest := Nat.max x.largest b.length,
                      qpI := if idr then q else x.qpI, qpP := if idr then x.qpP else q,
                      ended := if evKind d = 1 ∧ evCount d ≤ x.frames + 1 then 1 else x.ended }
    endIfDone (feedPlanar (s.setCtx c (some y)) c) c

/-- ENCODE_FRAME_DONE (R365 to R370). -/
def execEncodeFrameDone (t : FTime) (p : Fin 2) (s : State) : Out :=
  atTime s t fun s =>
    match s.video.encode.getD p.val none with
    | none => .next s
    | some c =>
      let s := { s with video := { s.video with encode := s.video.encode.set p.val none } }
      match s.ctx c with
      | none => .next (takeBoth s p.val)
      | some x =>
        match x.coding with
        | none => .next (takeBoth s p.val)
        | some f => .next (takeBoth (frameDone (s.addEnt 0x6430 (p.val + 5) 1) c x f) p.val)

end Sys2Proof.Machine
end

