-- ==== Sys2Proof/Machine/Arming.lean ====
section
/-!
DEFINITION. Loading and starting a tab (R448 to R455, R477, R483, R495 to R497, R165): the arming write, the program commands, the arming
checks, and the start fabric time.
-/
namespace Sys2Proof.Machine

/-! ### The arming write (R451, R483, R496) -/

/-- START_TOO_SOON with its detail (Table 17-9). -/
def tooSoon (s : State) (start : FTime) (shortfall cause : Nat) : State :=
  s.raise 0x1202 [(8, start.toNat), (4, shortfall % 2 ^ 32), (1, cause)]

/-- The floors of an arming write, with their causes: arming lead, ramp, owner or resume. -/
def startFloors (s : State) (bytes : Nat) (resume : Bool) : List (Nat × Nat) :=
  let hash := ceilDiv bytes 8 + 10000000
  let signed := owned s || resume
  [(s.ent 0x5000 5, 1), (rampWindow s + 125000 + (if signed then hash else 0), 2)] ++
    if signed then [(s.ent 0x5000 5 + hash, 3)] else []

/-- Nothing withholds an arming: memory filled (R529), LOCKED (R451), no hold (R264), no halt (R511, R491), no power-down under way. -/
def armable (s : State) : Bool :=
  s.ctl.filled && decide (s.ent 0x3000 2 = 3) && decide (s.ent 0x7200 5 = 0) && decide (s.ent 0x2100 1 = 0) && s.power.supplyHalt.isNone && !s.power.sheds

/-- A write to `0x5000:02` (R451): it uses up the selection of `0x5000:03` (log entry 99). -/
def armingWrite (s : State) (start : FTime) : Nat × State :=
  let resume := decide (s.eff = .pause ∧ s.ent 0x5000 3 = 3)
  let selected := !s.ctl.armSpent && (resume || decide (s.eff = .ready ∧ s.ent 0x5000 3 = 1))
  let base := s.ent 0x5000 1
  if !(armable s && selected) then (stState, s)
  else if base % 4096 ≠ 0 ∨ hbmSize < base + 512 then (stRange, s)
  else
    match (startFloors s (thBytes (tabHead s base)) resume).find? fun f => decide (start.toNat < s.now.toNat + f.1) with
    | some f => (stRange, tooSoon s start (s.now.toNat + f.1 - start.toNat) f.2)
    | none =>
      let run := if resume then s.run else { Run.reset with lastCommit := s.run.lastCommit, prevAborts := s.run.prevAborts }
      let s := (s.setEnt 0x5000 2 start.toNat).enterEff .armed
      (stOk, { s with
        ctl := { s.ctl with resuming := resume, armSpent := true }
        run := { run with tab := base, start := start, checked := false, walk := s.run.walk, shards := s.run.shards }
        trust := { s.trust with hashing := true, owedTab := if s.trust.hashing then some s.run.tab else s.trust.owedTab } })

/-- A write to `0x5000:01`: READY, TEST and PAUSE; unwritable while ARMED or later (R451). -/
def tabAddressWrite (s : State) (v : Nat) : Nat × State :=
  if s.eff = .ready ∨ s.eff = .pause then (stOk, s.setEnt 0x5000 1 v) else (stState, s)

/-! ### Program commands (R454, Table 15-12) -/

/-- PAUSE (R162, R164, Table 15-12): in RUN, while a pause drains too; refused without a context base. -/
def pauseCommand (s : State) : Nat × State :=
  if !s.running then (stState, s)
  else if s.ent 0x5510 2 = 0 then (stState, s.raise 0x5505 [])
  else (stOk, { (s.setEnt 0x5000 3 2) with run := { s.run with pauseAsked := true } })

/-- The module leaves PAUSE for READY: the run is abandoned, the images stay (R454). -/
def leavePause (s : State) : State := (s.enterEff .ready).setOct 0x8210 7 []

/-- ABORT. -/
def abortCommand (s : State) : Nat × State :=
  match s.eff with
  | .armed => (stOk, (cancelArming s).setEnt 0x5000 3 4)
  | .run => (stOk, abortRun ((s.setEnt 0x5000 3 4).raise 0x5003 []) 0x5003)
  | .pause => (stOk, (leavePause s).setEnt 0x5000 3 4)
  | _ => (stState, s)

/-- ARM or RESUME selects for the next arming write. -/
def selectArming (s : State) (v : Nat) : State :=
  { (s.setEnt 0x5000 3 v) with ctl := { s.ctl with armSpent := false } }

/-- A write to `0x5000:03`. -/
def programCommand (s : State) (v : Nat) : Nat × State :=
  match v with
  | 1 => if s.eff = .ready ∧ s.ent 0x7200 5 = 0 then (stOk, selectArming s 1) else (stState, s)
  | 2 => pauseCommand s
  | 3 => if s.eff = .pause then (stOk, selectArming s 3) else (stState, s)
  | 4 => abortCommand s
  | _ => (stRange, s)

/-! ### Checks and loading (R452, Table 15-11) -/

/-- A refused arming: cancelled, the event raised, its code kept. -/
def refuseArming (s : State) (b : Bad) : State := ((cancelArming s).raise b.1 b.2).setEnt 0x5000 4 b.1

/-- ns after the start fabric time at which the run was paused, from the image of core 0 (R165); 0 for a start. -/
def pauseOffset (s : State) : Nat := if s.ctl.resuming then ofLe (hread s (imageAt s 0 + 24) 8) else 0

/-- The stores of a core as arming loads them (R449). -/
def loadCore (x : CoreS) (p : Option ProgramImg) : CoreS :=
  match p with
  | some p => { x with program := p.words, modes := p.modes, landing := BitVec.ofNat 48 p.landing,
                       acts := (p.tables.zipIdx).map fun t => (t.2, t.1) }
  | none => { x with program := [], modes := [], landing := 0, acts := [] }

def loadCores (s : State) (l : List (Nat × ProgramImg)) : State :=
  (List.range 192).foldl (fun s c => (freshSram s 6 c).modCore c fun x => loadCore x ((l.find? fun p => decide (p.1 = c)).map Prod.snd)) s

/-- The entries that show the tab in force. -/
def showTab (s : State) (base : Nat) (origin : Nat) : State :=
  let h := tabHead s base
  let g := oneSec s base 4
  let image := if secsOf s base 4 = [] then [] else collImage g
  let stages := if secsOf s base 4 = [] then [] else stageTable s (field g 16 8)
  let t := shardTabHead s (thShards h)
  let stop := ((capoTable s base).getLast?.map fun c => c.1).getD 0
  let s := clearEnts [(0x5110, 1, 0x40), (0x5062, 1, 8)] s
  let s := (List.range (thSlots h)).foldl (fun s k => s.setEnt 0x5110 (k + 1) (thMaximum h k)) s
  let s := (stages.zipIdx).foldl (fun s x => s.setEnt 0x5062 (x.2 + 1) x.1.2.2) s
  let s := ((s.setEnt 0x3400 1 image.length).setEnt 0x3400 2 (if secsOf s base 4 = [] then 0 else field g 8 8)).setEnt 0x3410 1 (dieShares image 0)
  let s := ((s.setEnt 0x3410 2 (dieShares image 1)).setEnt 0x5400 1 (thShards h)).setEnt 0x5400 2 (field t 2 2)
  let s := ((s.setEnt 0x5400 3 (field t 8 8)).setEnt 0x5400 4 (field t 4 4)).setEnt 0x5400 5 (field t 16 2)
  (s.setEnt 0x5000 6 (origin + stop)).setEnt 0x5000 4 0

/-- Check 9: the tab is loaded and the ramp is due; a measurement that is made already is that of the
tab accepted (R450). A resume keeps the engines' progress (R430) and takes programs and tables from its
images at the start fabric time. -/
def loadTab (s : State) (base : Nat) : State :=
  let h := tabHead s base
  let g := oneSec s base 4
  let image := if secsOf s base 4 = [] then [] else collImage g
  let stages := if secsOf s base 4 = [] then [] else stageTable s (field g 16 8)
  let shards := shardTabEntries s (thShards h)
  let sets := (schedSets s base).map fun x => (x.1, x.2.2)
  let capos := capoTable s base
  let coll := if s.ctl.resuming then s.coll else Coll.reset
  let w := rampWindow s
  let s := if s.ctl.resuming then s else loadCores s (programs s base)
  let s := match s.run.measurement with | some m => s.setOct 0x5000 7 m | none => s
  let s := showTab s base (s.run.start.toNat - pauseOffset s)
  { s with
    coll := { coll with image := image, stages := stages }
    run := { s.run with sets := sets, capos := capos, shards := shards, shapeSlots := thSlots h, checked := true }
    power := { s.power with ramp := some (s.run.start, w, s.ent 0x2200 5, 0) } }

/-- The measurement must precede check 4 and what follows (R477). -/
def hashFirst (s : State) : Bool :=
  (owned s || s.ctl.resuming) && (checkVersion s s.run.tab).isNone && (checkStructure s s.run.tab).isNone

/-- A resume whose paused run has no recorded measurement is refused (R477): check 4 cannot compare. -/
def hashLacks (s : State) : Bool := hashFirst s && s.ctl.resuming && s.trust.pausedHash.isNone
/-- The checks wait for the measurement engine. -/
def hashWaits (s : State) : Bool := hashFirst s && s.trust.hashing && !hashLacks s

/-- ARMING_CHECKS_DONE (R452): in ARMED, not after the start fabric time less W_r (R497). -/
def execArmingChecksDone (t : FTime) (s : State) : Out :=
  atTime s t fun s =>
    if s.eff ≠ .armed ∨ s.run.checked ∨ s.run.start.toNat < s.now.toNat + rampWindow s ∨ hashWaits s then .next s
    else
      let t := readRanges s (tabRanges s s.run.tab)
      if hashLacks s then .next (refuseArming t (0x5505, []))
      else match armingChecks s s.run.tab with
      | some b => .next (refuseArming t b)
      | none => .next (loadTab t s.run.tab)

/-- What hashing a tab reads (R450). -/
def hashTab (s : State) (base : Nat) : State := readRanges s [(base, thBytes (tabHead s base))]

/-- The engine has hashed the tab of a run that is paused or over. A paused run is not over: register 6 shows its measurement (R476). -/
def owedMeasured (s : State) (base : Nat) : State :=
  let m := measure s base
  let paused := decide (s.eff = .pause) || (decide (s.eff = .armed) && s.ctl.resuming)
  let s := (hashTab s base).setOct 0x5000 7 m
  { (if paused then s.setOct 0x8210 7 m else s) with
    trust := { s.trust with owedTab := none, pausedHash := if paused then some m else s.trust.pausedHash } }

/-- The engine has hashed the tab that is armed or running: `0x5000:07` shows it once the tab is accepted (R450), register 6 in
the run (R476). -/
def runMeasured (s : State) : State :=
  let m := measure s s.run.tab
  let s := hashTab s s.run.tab
  let s := { s with run := { s.run with measurement := some m }, trust := { s.trust with hashing := false } }
  let s := if s.run.checked then s.setOct 0x5000 7 m else s
  if s.running then s.setOct 0x8210 7 m else s

/-- TAB_MEASURED (R450, R477): the engine, which hashes one tab at a time, has recorded a measurement. -/
def execTabMeasured (s : State) : Out :=
  match s.trust.owedTab with
  | some base => .next (owedMeasured s base)
  | none =>
    if s.trust.hashing ∧ (s.run.checked ∨ (s.eff = .armed ∧ hashFirst s)) then .next (runMeasured s) else .next s

/-- ARMING_DEADLINE (R497): the checks and the loading are not complete at the start fabric time less W_r. By how much they are
late is not stated: a free shortfall (log entry 3). -/
def execArmingDeadline (s : State) : Out :=
  if s.eff = .armed ∧ s.run.checked = false then
    let at_ := s.run.start.toNat - rampWindow s
    let s := if s.now.toNat ≤ at_ then { s with now := BitVec.ofNat 64 at_ } else s
    let (short, s) := drawNat s (2 ^ 32)
    .next ((tooSoon (cancelArming s) s.run.start short 4).setEnt 0x5000 4 0x1202)
  else .next s

/-! ### The start fabric time (R28, R57, R64, R165, R347) -/

/-- Entries and flags that name the first of a run. -/
def firstOfRun : List (Nat × Nat × Nat) :=
  [(0x5100, 1, 4), (0x4040, 1, 4), (0x4110, 1, 5), (0x3430, 1, 4), (0x5401, 1, 4), (0x5320, 1, 4), (0x5240, 1, 4), (0x7019, 1, 2), (0x6440, 1, 3)]

/-- A core at the start fabric time (Table 4-1): memory kept, control blocks zero (R275, R297); without a program it stands as ended by
HALT (R449). -/
def startCore (s : State) (c : Nat) (x : CoreS) : CoreS :=
  let y : CoreS := { CoreS.reset with
    clm := x.clm, wide := x.wide, acc := x.acc, active := x.active, shadow := x.shadow, activeScales := x.activeScales
    program := x.program, modes := x.modes, landing := x.landing, acts := x.acts
    status := if x.program = [] then 4 else 2
    regs := [0, BitVec.ofNat 64 c, BitVec.ofNat 64 s.device, BitVec.ofNat 64 (s.ent 0x5010 1 % 2 ^ 32)] ++ List.replicate 12 0 }
  (y.setClm 0x3FC800 (List.replicate 64 0)).setClm 0x3FD840 (List.replicate 64 0)

/-- Ports take the sets in force at an offset of the run. -/
def forcePorts (s : State) (offset : Nat) : State :=
  (List.range 48).foldl (fun s p => s.modPort p fun x =>
    { x with noSched := false, inForce := (forceAt s.run.capos p offset).map fun f => (f.1, s.run.start + BitVec.ofNat 64 f.2) }) s

/-- The next capo point (`0x3100:02`), and the index of the last entry passed. -/
def showCapo (s : State) : State :=
  let next := match (s.run.capos.drop s.run.nextCapo).head? with | some c => s.run.start.toNat + c.1 | none => 0
  (s.setEnt 0x3100 1 (s.run.nextCapo - 1)).setEnt 0x3100 2 next

/-- The cores of a resume take their state from their images; the tab gives the length of each program (R121). -/
def resumeCores (s : State) : State :=
  let ps := programs s s.run.tab
  let count (c : Nat) : Nat := ((ps.find? fun p => decide (p.1 = c)).map fun p => p.2.words.length).getD 0
  (List.range 192).foldl (fun t c =>
    let u := [2, 3, 4, 6].foldl (fun u k => freshSram u k c) (readRanges t [(imageAt t c, 7340032)])
    u.setCore c { loadImage t c (count c) with waitSince := t.now }) s

/-- The cores of a start; the two control blocks are written whole. -/
def startCores (s : State) : State :=
  (List.range 192).foldl (fun s c => touchSram (touchSram (s.setCore c (startCore s c (s.core c))) 2 c 0x3FC800 64) 2 c 0x3FD840 64) s

/-- START_FABRIC_TIME_REACHED: the cores start, the grid begins, batches land. -/
def execStartFabricTimeReached (s : State) : Out :=
  if s.eff = .armed ∧ s.run.checked then
    let s := if s.now ≤ s.run.start then { s with now := s.run.start } else s
    let offset := pauseOffset s
    let resume := s.ctl.resuming
    let s := clearEnts firstOfRun s
    let s := if resume then resumeCores s else startCores s
    let s := { s with
      power := { s.power with ramp := none, taperLeft := 0, stretched := false, exceeded := false }
      mem := { s.mem with lendRaised := [], stepLookups := [], stepHits := [] }
      coll := { s.coll with high := [], record := [], sends := if resume then s.coll.sends else [], voteOr := 0, voteDone := [] }
      run := { s.run with
        start := s.run.start - BitVec.ofNat 64 offset
        nextCapo := (s.run.capos.filter fun (c : Nat × Nat × Nat × BitVec 48) => decide (c.1 ≤ offset)).length
        late := [], versionFault := false, collFault := false, aborts := [], prevAborts := [], deferred := none, lastCommit := none
        verdict := none, nonfinite := false, blockRaised := false, blockCount := 0, walked := false, digests := [], divergent := []
        repaired := [], repairsSent := [], early := [], diverged := false, voteRepaired := false, pauseAsked := false, drainSince := none, drained := false } }
    let s := ((s.setEnt 0x2200 5 256).setOct 0x8210 7 (s.run.measurement.getD [])).enterEff .run
    .next (deliverAll (showCapo (forcePorts s offset)) resume)
  else .next s

end Sys2Proof.Machine
end

