-- ==== Sys2Proof/Machine/Commit.lean ====
section
/-!
DEFINITION. Capo points, the vote and the commit (R63 to R72, R162, R234 to R236, R248, R252 to R254, R261, R265 to R267, R426, R428, R455), the
abort flits of a step, and walks over shards (R264, R271).
-/
namespace Sys2Proof.Machine

/-! ### Capo points -/

/-- The next entry of the capo table, in RUN and before a pause point: kind, slot, mask and fabric time. -/
def nextCapo (s : State) : Option (Nat × Nat × BitVec 48 × Nat) :=
  if !s.running || s.run.drainSince.isSome then none
  else (s.run.capos.drop s.run.nextCapo).head?.map fun c => (c.2.1, c.2.2.1, c.2.2.2, s.run.start.toNat + c.1)

/-- The module's time is at least t. -/
def reach (s : State) (t : Nat) : State := if s.now.toNat ≤ t then { s with now := BitVec.ofNat 64 t } else s

/-- A staged instance that is still uncopied at a capo entry (R426). -/
def stagedLate (s : State) : State :=
  match s.coll.staged with
  | [] => s
  | x :: _ => collFault s 0x3405 (cePort (centry s x.entry)) (ceStream (centry s x.entry)) x.ordinal

/-- Ports of the mask begin fret 0 of the slot at the capo point (R64); their streams' repetitions count anew (R60). -/
def switchPorts (s : State) (slot : Nat) (mask : BitVec 48) (t : Nat) : State :=
  let s := (List.range 48).foldl (fun s p =>
    if mask.getLsbD p then s.modPort p fun x => { x with inForce := some (slot, BitVec.ofNat 64 t) } else s) s
  (List.range s.coll.image.length).foldl (fun s i =>
    if transmits (centry s i) ∧ mask.getLsbD (cePort (centry s i)) then s.setCsend i { s.csend i with rep := 0 } else s) s

/-- The entry is passed. -/
def passCapo (s : State) : State := showCapo { s with run := { s.run with nextCapo := s.run.nextCapo + 1 } }

/-- CAPO_SWITCH (R64). -/
def execCapoSwitch (s : State) : Out :=
  match nextCapo s with
  | some (1, slot, mask, t) =>
    let s := stagedLate (reach s t)
    .next (if s.running then passCapo (switchPorts s slot mask t) else s)
  | _ => .next s

/-! ### Digest walk and verdict (R261, R265, R266) -/

/-- The next commit capo of a run that is not at its pause point. -/
def comingCommit (s : State) : Option Nat := if !s.running || s.run.drainSince.isSome then none else commitCapo s.run

/-- The walk's reads: each replicated shard's header and next copy; whether a unit was uncorrectable. -/
def walkReads (s : State) : State × Bool :=
  (replicated s).foldl (fun (tb : State × Bool) x =>
    let h := shardHead s x.2
    let a := memRead tb.1 (shHeader x.2) 128 true
    let b := memRead a.2.1 (nextCopy s x.2) (hdCount h * hdSize h) true
    (b.2.1, tb.2 || a.2.2 || b.2.2)) (s, false)

/-- DIGEST_WALK (R261): at C − D every block of every replicated shard is digested from its next copy; the records that
came before are compared now (R262). An uncorrectable unit aborts the step (Table 18-3). -/
def execDigestWalk (s : State) : Out :=
  match comingCommit s with
  | some c =>
    if s.run.walked ∨ s.ent 0x5400 4 = 0 ∨ replicated s = [] then .next s
    else
      let r := walkReads (reach s (c - s.ent 0x5400 4))
      if r.2 then .next (abortRun r.1 0x4102) else
      let s := r.1
      let keys := (replicated s).flatMap fun x => (List.range (blockCount (shardHead s x.2))).map fun b => (digestKey x.1 b, blockDigest s x.2 b)
      let t := { s with run := { s.run with
        walked := true, early := [], digests := keys.foldl (fun m k => sset 0 m k.1 (BitVec.ofNat 64 k.2)) s.run.digests } }
      .next (s.run.early.foldl compareRecord t)
  | none => .next s

/-- The VOTE groups of the schedule. -/
def voteGroups (s : State) : List Nat :=
  (List.range s.coll.image.length).filter fun i => decide (ceOp (centry s i) = opGroup ∧ grOutput (centry s i) = 2)

/-- The complete vote, if every vote stream has landed whole; a tab without vote streams has the module's own word. -/
def completeVote (s : State) : Option Nat :=
  if voteGroups s = [] then some (voteWord s)
  else if (voteGroups s).all fun g => decide (g ∈ s.coll.voteDone) then some s.coll.voteOr.toNat else none

/-- VERDICT (R266, Table 8-8). -/
def execVerdict (s : State) : Out :=
  match comingCommit s with
  | some c =>
    if s.run.verdict.isSome then .next s
    else
      let s := reach s (if s.run.start.toNat + 8192 ≤ c then c - 8192 else s.run.start.toNat)
      match completeVote s with
      | none => .next (abortRun (s.raise 0x5404 []) 0x5404)
      | some w =>
        if Nat.testBit w 1 then .next (abortRun s 0x7201)
        else .next { s with run := { s.run with verdict := some (BitVec.ofNat 32 w) } }
  | none => .next s

/-! ### The commit capo (R234, R248, R252, R254, R266, R267, R428) -/

/-- The loss scale after a commit (R248). -/
def scaleCommitted (s : State) : State :=
  let n := s.ent 0x7210 3 + 1
  if n < s.ent 0x7210 2 then s.setEnt 0x7210 3 n
  else (s.setEnt 0x7210 3 0).setEnt 0x7210 1 (if s.ent 0x7210 1 < 24 then s.ent 0x7210 1 + 1 else s.ent 0x7210 1)
/-- The loss scale after a skipped update. -/
def scaleSkipped (s : State) : State :=
  let s := s.setEnt 0x7210 3 0
  if s.ent 0x7210 1 = 0 then s.raise 0x7105 [] else s.setEnt 0x7210 1 (s.ent 0x7210 1 - 1)

/-- A commit: the bank flips, the version becomes the committing step, the step counter rises. -/
def commitStep (s : State) (repaired : Bool) : State :=
  let n := s.ent 0x5010 1
  let s := ((s.setEnt 0x5010 2 (1 - s.ent 0x5010 2)).setEnt 0x5010 4 (n % 2 ^ 32)).setEnt 0x5010 1 ((n + 1) % 2 ^ 64)
  scaleCommitted (s.setEnt 0x5010 3 (if repaired then 4 else 1))
/-- A skipped update. -/
def skipStep (s : State) : State := scaleSkipped ((s.raise 0x7102 []).addEnt 0x5010 5 1 |>.setEnt 0x5010 3 2)

/-- A count of a slot summed over the cores. -/
def slotSum (s : State) (slot j : Nat) : Nat := (s.cores.map fun c => sget 0 c.2.slots (slot * 8 + j)).sum
/-- The format of a slot over the cores: MIXED where they differ (Table 7-10). -/
def slotFormat (s : State) (slot : Nat) : Nat :=
  s.cores.foldl (fun f c => let g := sget 0 c.2.slots (slot * 8 + 5)
    if g = 0 then f else if f = 0 ∨ f = g then g else 0xFF) 0
/-- A share, rounded by RNE (R236). -/
def share (n total : Nat) : W32 := if total = 0 then 0 else fracF32 false n total

/-- Export of one slot, with NUMERIC_ALERT (R234, R236). -/
def exportSlot (s : State) (slot : Nat) : State :=
  let v (j : Nat) := slotSum s slot j % 2 ^ 64
  let high := share (slotSum s slot 2 + slotSum s slot 3) (slotSum s slot 0)
  let gone := share (slotSum s slot 4) (slotSum s slot 0)
  let fmt := slotFormat s slot
  let limit := BitVec.ofNat 32 (s.ent 0x7000 4)
  let s := (List.range 5).foldl (fun s j => s.setEnt (0x7010 + j) (slot + 1) (v j)) s
  let s := ((s.setEnt 0x7015 (slot + 1) fmt).setEnt 0x7016 (slot + 1) high.toNat).setEnt 0x7017 (slot + 1) gone.toNat
  if !(ofF32 limit).isZero && flt limit high then s.raise 0x7104 [(1, slot), (1, fmt), (4, high.toNat)] else s

/-- The numeric export of a step at C (R234); the run's sum takes committed steps. -/
def exportNumeric (s : State) (c : Nat) (committed : Bool) : State :=
  let s := (List.range 64).foldl exportSlot s
  let s := s.setEnt 0x7018 1 (s.run.blockCount % 2 ^ 32)
  let s := if committed then s.addEnt 0x7018 2 s.run.blockCount else s
  let s := if s.run.blockRaised then (s.setEnt 0x7018 3 s.run.blockCore).setEnt 0x7018 4 s.run.blockIndex
    else (s.setEnt 0x7018 3 0xFFFF).setEnt 0x7018 4 0
  let s := (s.setEnt 0x7000 5 (s.ent 0x5010 1 % 2 ^ 32)).setEnt 0x7000 6 c
  { s with cores := s.cores.map fun x => (x.1, { x.2 with slots := [] }) }

/-- Stage high-water marks (R428). -/
def exportStages (s : State) : State :=
  let s := (List.range s.coll.stages.length).foldl (fun s k =>
    let v := sget 0 s.coll.high k
    let s := s.setEnt 0x5060 (k + 1) v
    if s.ent 0x5061 (k + 1) < v then s.setEnt 0x5061 (k + 1) v else s) s
  { s with coll := { s.coll with high := [] } }

/-- A step ends at its commit capo: what belongs to it is cleared, its aborts are kept for the window of R71. -/
def endStep (s : State) (c step : Nat) : State :=
  let r := s.run
  { s with
    coll := { s.coll with record := [], voteOr := 0, voteDone := [] }
    power := { s.power with stretched := false, exceeded := false }
    run := { clearStep r with pauseAsked := r.pauseAsked, lastCommit := some (BitVec.ofNat 64 c, BitVec.ofNat 32 step), prevAborts := r.aborts } }

/-- The pause point (R162, R163): each core stops at its next instruction boundary and drains; no further capo point is passed. -/
def pausePoint (s : State) (c : Nat) : State :=
  if s.run.pauseAsked ∧ s.ent 0x5510 1 ≤ c then
    openPorts { s with run := { s.run with drainSince := some (BitVec.ofNat 64 c), drained := false } }
  else s

/-- ABORT_DEFERRED (R71); the step that begins at the commit capo is abandoned if another commit follows. -/
def deferAbort (s : State) (orig reason raise step : Nat) : State :=
  let s := s.raise 0x3204 [(2, orig), (2, reason), (4, step % 2 ^ 32), (8, raise)]
  if s.running ∧ (commitCapo s.run).isSome then abandon s else s

/-- COMMIT_CAPO (R65, R266). -/
def execCommitCapo (s : State) : Out :=
  match nextCapo s, s.run.verdict with
  | some (2, slot, mask, c), some w =>
    let s := stagedLate (reach s c)
    if !s.running then .next s else
    let step := s.ent 0x5010 1
    let held := s.run.deferred
    let skip := w.getLsbD 0
    let s := if skip then skipStep s else commitStep s (w.getLsbD 2)
    let s := oweStep (exportStages (hitRates (exportNumeric s c (!skip))))
    let s := pausePoint (passCapo (switchPorts (endStep s c step) slot mask c)) c
    match held with
    | some d => .next (deferAbort s d.1.toNat d.2.1.toNat d.2.2.toNat step)
    | none => .next s
  | _, _ => .next s

/-- RUN_END (R455, R64, R498): cores that have not ended by HALT are halted; READY; the draw is tapered. -/
def execRunEnd (s : State) : Out :=
  match nextCapo s with
  | some (3, _, _, t) =>
    let s := stagedLate (reach s t)
    if !s.running then .next s else
    let s := if s.cores.any fun c => decide (c.2.status = 2 ∨ c.2.status = 3) then (haltCores (waitBallast s)).raise 0x5004 [] else s
    let s := passCapo (openPorts s)
    let s := (s.setEnt 0x3100 2 0).setOct 0x8210 7 []
    let s := { s with run := clearStep s.run, power := { s.power with sheds := s.power.downAfterAbort, downAfterAbort := false } }
    .next (startTaper (s.enterEff .ready))
  | _ => .next s

/-! ### Abort flits (R69, R71) -/

/-- An abort flit for the step just committed, within the window of R71. -/
def lateAbort (s : State) (p orig reason raise step : Nat) : State :=
  if s.run.prevAborts.all fun r => decide (raise < r.toNat) then
    let first := decide (s.run.prevAborts = [])
    let s := floodAbort s orig reason raise step (some p)
    let s := if first then s.setEnt 0x3110 4 raise else s
    let s := { s with run := { s.run with prevAborts := BitVec.ofNat 64 raise :: s.run.prevAborts } }
    if first then deferAbort s orig reason raise step else s
  else s.addEnt 0x3110 5 1

/-- ABORT_FLIT_RECEIVE (R69). One for the step just committed is taken up in whatever state the module is by then: after END, or
in PAUSE, no step follows that it could abandon (R71). Where a skipped update leaves the running step the number of the one before, the raise time tells them
apart. -/
def execAbortFlitReceive (t : FTime) (p : Port) (f : Flit) (s : State) : Out :=
  atTime s t fun s => accepted s p.val f 0xA fun s =>
    let b := f.payload
    let orig := field b 2 2
    let reason := field b 4 2
    let raise := field b 8 8
    let step := field b 16 4
    if noDevice (BitVec.ofNat 16 orig) ∨ (s.port p.val).adapter then .next s
    else
      let past : Bool := match s.run.lastCommit with
        | some (c, n) => decide (step = n.toNat ∧ raise < c.toNat)
        | none => false
      let open_ : Bool := match s.run.lastCommit with
        | some (c, _) => decide (s.now.toNat < c.toNat + commitGuard)
        | none => false
      if past then .next (if open_ then lateAbort s p.val orig reason raise step else s)
      else if ¬ (s.eff = .run ∨ s.eff = .aborting) ∨ step ≠ s.ent 0x5010 1 % 2 ^ 32 then .next s
      else if s.run.aborts.all fun r => decide (raise < r.toNat) then .next (actAbort s orig reason raise (some p.val))
      else .next (s.addEnt 0x3110 5 1)

/-- The end of an abort (R72, Table 17-4): READY; region units are free; a halt's power-down follows. -/
def abortingComplete (s : State) : State :=
  if s.eff = .aborting then
    let s := stopRegions ((s.enterEff .ready).setOct 0x8210 7 [])
    let s := { s with
      run := { s.run with aborts := [] }
      power := { s.power with sheds := s.power.sheds || s.power.downAfterAbort, downAfterAbort := false } }
    drainAll (shedIfDue s)
  else s

/-! ### Walks over shards (R264, R271) -/

/-- A write to `0x5410:02`. -/
def shardCommand (s : State) (v : Nat) : Nat × State :=
  if v ≠ 1 ∧ v ≠ 2 then (stRange, s)
  else if ¬ (s.ctl.dev = .ready ∨ s.ctl.dev = .pause) ∨ s.run.walk.isSome then (stState, s)
  else if s.run.shards.length ≤ s.ent 0x5410 1 then (stRange, s)
  else (stOk, { (s.setEnt 0x5410 3 1) with run := { s.run with walk := some (v, s.ent 0x5410 1) } })

/-- SHARD_WALK_DONE: EXPORT writes version and digest into the header, VERIFY compares. -/
def execShardWalkDone (t : FTime) (s : State) : Out :=
  atTime s t fun s =>
    match s.run.walk with
    | none => .next s
    | some (cmd, i) =>
      let e := shardAt s i
      let h := shardHead s e
      let d := digestRange s h (liveCopy s e) 0 (hdCount h)
      let s := readRanges s [(shHeader e, 128), (liveCopy s e, hdCount h * hdSize h)]
      let s := { (s.setEnt 0x5410 4 d) with run := { s.run with walk := none } }
      if cmd = 1 then
        .next ((memWrite (memWrite s (shHeader e + 8) (le 4 (shardVersion s e))) (shHeader e + 16) (le 8 d)).setEnt 0x5410 3 2)
      else if d = field h 16 8 then .next (s.setEnt 0x5410 3 2)
      else .next ((s.raise 0x5405 []).setEnt 0x5410 3 3)

/-- A write to `0x7200:06` (R264). -/
def clearHold (s : State) (v : Nat) : Nat × State := if v = 1 then (stOk, s.setEnt 0x7200 5 0) else (stRange, s)

end Sys2Proof.Machine
end

