-- ==== Sys2Proof/Machine/Trust.lean ====
section
/-!
DEFINITION. Identity and trust (R468 to R488): attestation reports, owner and challenge, firmware installs and floors. Effects of
dictionary writes answer the FDP status with the state.
-/
namespace Sys2Proof.Machine

/-- An originator of class M (R440). -/
def isM : Origin → Bool
  | .fdp slot _ _ => decide (slot.val < 4)
  | .prog _ => false

def standbyOrReady (s : State) : Bool := decide (s.ctl.dev = .standby ∨ s.ctl.dev = .ready)

/-! ### Flint's signatures (R470) -/

/-- Flint, when idle, takes the next object to sign: a checkpoint before a report. -/
def nextSigning (s : State) : State :=
  let n := if s.audit.unsigned ≠ [] then 1 else if s.trust.reportBody.isSome then 2 else 0
  { s with trust := { s.trust with signing := n } }
def wakeFlint (s : State) : State := if s.trust.signing = 0 then nextSigning s else s

/-- A signature pair over the SHA-384 of bytes: RSA, then SLH-DSA. -/
def signPair (s : State) (b : List Byte) : List Byte × State :=
  let d := padTo 48 (Config.sha384 b)
  (padTo 384 (Config.rsaSign s.trust.draws d) ++ padTo 16224 (Config.slhSign s.trust.draws d),
   { s with trust := { s.trust with draws := s.trust.draws + 1 } })

/-! ### Attestation (R478, Table 16-2) -/

def certPrint (cert : List Byte) : List Byte := padTo 8 (Config.sha384 cert)

/-- Two bits for each kind's active slot. -/
def activeSlots (s : State) : Nat :=
  (List.range 5).foldl (fun n k => n + s.ent 0x8200 (k + 6) % 4 * 4 ^ k) 0

/-- The body of a report. -/
def reportBody (s : State) (nonce : List Byte) : List Byte :=
  padTo 512 (le 1 1 ++ le 1 0 ++ le 2 s.device ++ le 1 (s.ent 0x1008 1) ++ le 1 s.ctl.dev.code ++ padTo 2 (s.oct 0x1000 4) ++
    padTo 16 (s.oct 0x1000 3) ++ padTo 32 nonce ++ le 8 s.now.toNat ++ le 8 (s.ent 0x8010 1) ++ le 8 (s.ent 0x5010 1) ++
    le 4 (entValue s 0x8300 1) ++ le 4 (entValue s 0x8300 3) ++ ((List.range 5).flatMap fun k => le 1 (s.ent 0x8200 (k + 0xB))) ++
    le 3 (activeSlots s) ++ ((List.range 8).flatMap fun r => s.oct 0x8210 (r + 1)) ++
    certPrint Config.rsaCertificate ++ certPrint Config.slhCertificate)

/-- A write to `0x8120:01` (R478): the body is filled at once; refused while a report is pending. -/
def requestReport (s : State) (nonce : List Byte) : Nat × State :=
  if s.trust.reportBody.isSome then (stState, s)
  else
    let s := s.setEnt 0x8120 2 1
    (stOk, wakeFlint { s with trust := { s.trust with reportBody := some (reportBody s nonce) } })

/-- REPORT_READY: both signatures follow the body. -/
def execReportReady (s : State) : Out :=
  match s.trust.reportBody with
  | some b =>
    if s.trust.signing = 2 then
      let (sig, s) := signPair s b
      .next (nextSigning { (s.setEnt 0x8120 2 2) with trust := { s.trust with reportBody := none, report := b ++ sig } })
    else .next s
  | none => .next s

/-! ### The owner (R480, R481) -/

/-- ENROLL. -/
def enrollOwner (s : State) : Nat × State :=
  if !standbyOrReady s || owned s then (stState, s)
  else
    let owner := s.oct 0x8130 1 ++ s.oct 0x8130 2
    let s := (s.setEnt 0x8130 7 1).setOct 0x8210 6 (padTo 48 (Config.sha384 owner))
    (stOk, { s with trust := { s.trust with owner := owner } })

/-- CHALLENGE: 32 fresh random bytes; a new one replaces the one in force. -/
def newChallenge (s : State) : Nat × State :=
  let s := s.setOct 0x8130 4 (padTo 32 (Config.random32 s.trust.draws))
  (stOk, { s with trust := { s.trust with challengeLive := true, draws := s.trust.draws + 1 } })

/-- RELEASE: both signatures of the token over serial number and challenge; the challenge serves once. -/
def releaseOwner (s : State) : Nat × State :=
  if !standbyOrReady s || !owned s then (stState, s)
  else
    let d := padTo 48 (Config.sha384 (s.oct 0x1000 3 ++ s.oct 0x8130 4))
    let token := sread 0 s.trust.token 0 16608
    let live := s.trust.challengeLive
    let rsa := live && Config.rsaVerifies (s.trust.owner.take 384) d (token.take 384)
    let slh := live && Config.slhVerifies (s.trust.owner.drop 384) d (token.drop 384)
    let s := { s with trust := { s.trust with challengeLive := false } }
    if rsa && slh then
      let s := (s.setEnt 0x8130 7 0).setOct 0x8210 6 []
      (stOk, { s with trust := { s.trust with owner := [] } })
    else (stRange, sigFail s 7 0xFF ((if rsa then 0 else 1) + if slh then 0 else 2))

/-- A write to `0x8130:03`. -/
def ownerCommand (s : State) (v : Nat) : Nat × State :=
  match v with
  | 1 => enrollOwner s
  | 2 => newChallenge s
  | 3 => releaseOwner s
  | _ => (stRange, s)

/-! ### Firmware (R484 to R487) -/

/-- States in which an image may lie in HBM (R484), filled before (R529). -/
def hbmInstalls (s : State) : Bool := s.ctl.filled && decide (s.ctl.dev = .ready ∨ s.ctl.dev = .test ∨ s.ctl.dev = .recovery)

/-- A write to `0x8140:03`: an address in HBM, or 0, which selects the chunks. -/
def imageSource (s : State) (v : Nat) : Nat × State :=
  if v = 0 ∨ hbmInstalls s then (stOk, s.setEnt 0x8140 3 v) else (stState, s)

/-- States that accept an install; an image in HBM only where the host has memory. -/
def installs (s : State) : Bool :=
  hbmInstalls s || (decide (s.ent 0x8140 3 = 0) && decide (s.ctl.dev ∈ [.standby, .ready, .test, .recovery, .fault]))

/-- INSTALL: the image is taken from the chunks or from HBM. -/
def startInstall (s : State) : Nat × State :=
  let n := s.ent 0x8140 5
  let a := s.ent 0x8140 3
  if !installs s || s.trust.install.isSome then (stState, s)
  else if n < 16800 ∨ 16793952 < n ∨ (a ≠ 0 ∧ inHbm a n = false) then (stRange, s)
  else
    let b := if a = 0 then (sread 0 s.trust.chunks 0 n, s, false) else memRead s a n true
    (stOk, { (b.2.1.setEnt 0x8140 6 1) with trust := { b.2.1.trust with install := some (field b.1 5 1, b.1) } })

/-- The slot of a kind that is not active (R484): of a kind that is being started, the one that the start does not try first; of one that runs no
image from slots 0 and 1, the one that is not preferred. -/
def spareSlot (s : State) (kind : Nat) : Nat :=
  match sget none s.trust.startSlots kind with
  | some k => 1 - k
  | none =>
  if s.ent 0x8200 (kind + 5) = 0 then 1 else if s.ent 0x8200 (kind + 5) = 1 then 0 else 1 - s.ent 0x8200 kind

/-- INSTALL_DONE: checked, written to the slot that is not active by then, which becomes the preferred one: a running image and its
slot are never altered (R485). -/
def execInstallDone (s : State) : Out :=
  match s.trust.install with
  | none => .next s
  | some (kind, b) =>
    let slot := spareSlot s kind
    let s := { s with trust := { s.trust with install := none } }
    let f := if 1 ≤ kind ∧ kind ≤ 5 then imageFailure s b kind else imageFailure s b kind % 4 + 4
    if f = 0 then
      let s := (s.setEnt 0x8200 kind slot).setEnt 0x8140 6 2
      .next { s with
        trust := { s.trust with images := sset [] s.trust.images (kind * 4 + slot) b }
        ctl := { s.ctl with missing := s.ctl.missing.filter fun k => decide (k ≠ kind) } }
    else .next (sigFail (s.setEnt 0x8140 6 3) 8 0xFF f)

/-- RAISE_FLOOR: class M, in STANDBY or READY; the floor never falls. -/
def raiseFloor (s : State) (o : Origin) : Nat × State :=
  let kind := s.ent 0x8140 7
  let active := s.ent 0x8200 (kind + 5)
  if !isM o then (stOriginator, s)
  else if !standbyOrReady s || decide (active = 0xFF) then (stState, s)
  else (stOk, s.setEnt 0x8200 (kind + 10) (Nat.max (s.ent 0x8200 (kind + 10)) (imageSecurity (imageBytes s kind active))))

/-- Flint restarts Galena (R473, R474, R487): every session is closed. -/
def galenaStarts (s : State) : State :=
  let (s, ok) := selectImage { s with fdp := { s.fdp with sessions := [] } } 1
  if ok then s else { s with ctl := { s.ctl with galenaHeld := true }, ev := { s.ev with alertLow := true } }

/-- GALENA_RESTART: STANDBY only. It does not reset the management side, and fills nothing (R519, R528). -/
def restartGalena (s : State) : Nat × State :=
  if s.ctl.dev ≠ .standby then (stState, s) else (stOk, galenaStarts s)

/-- A write to `0x8140:04`. -/
def firmwareCommand (s : State) (o : Origin) (v : Nat) : Nat × State :=
  match v with
  | 1 => startInstall s
  | 2 => raiseFloor s o
  | 3 => restartGalena s
  | _ => (stRange, s)

/-- A write of 1,024 bytes to a chunk window. -/
def tokenChunk (s : State) (b : List Byte) : State := { s with trust := { s.trust with token := swrite 0 s.trust.token (s.ent 0x8130 5) b } }
def imageChunk (s : State) (b : List Byte) : State := { s with trust := { s.trust with chunks := swrite 0 s.trust.chunks (s.ent 0x8140 1) b } }

/-- CHECKPOINT_SIGNATURE_DONE (R460): the head is signed and the checkpoint kept, at most 257; AUDIT_CHECKPOINT is raised. -/
def execCheckpointSignatureDone (s : State) : Out :=
  match s.audit.unsigned with
  | (n, head) :: r =>
    if s.trust.signing = 1 then
      let (sig, s) := signPair s head
      let s := { s with audit := { s.audit with unsigned := r, checkpoints := ((n, head ++ sig) :: s.audit.checkpoints).take 257 } }
      .next (nextSigning (s.raise 0x8303 []))
    else .next s
  | [] => .next s

end Sys2Proof.Machine
end

