-- ==== Sys2Proof/Machine/Scrub.lean ====
section
/-!
DEFINITION. Scrubbing and the check-bit test mode (R530, R535 to R541): scrubber reads and laps, rewrites of corrected SRAM words, and
the raw commands of `0x4600`.
-/
namespace Sys2Proof.Machine

/-! ### Scrubbing (R535 to R538, R541) -/

/-- The scrubber that covers a location (R535): that of its compute die, 4 or 5 for a link die, none (6) for kinds `0x08` and `0x09`. -/
def locDie : EccLoc → Nat
  | .hbm u => u * 64 / stackSize / 3
  | .clm c _ | .wide c _ | .acc c _ | .store c _ => c.val / 48
  | .cache l _ => lineDie l
  | .link d _ => 4 + d.val
  | .front _ | .mgmt _ => 6
/-- Kind (Table 18-2) and key of a location. -/
def locKind : EccLoc → Nat
  | .hbm _ => 1
  | .clm _ _ => 2
  | .wide _ _ => 3
  | .acc _ _ => 4
  | .cache _ _ => 5
  | .store _ _ => 6
  | .link _ _ => 7
  | .front _ => 8
  | .mgmt _ => 9
def locKey : EccLoc → Nat
  | .hbm u => u
  | .clm c w => sramKey 2 c.val w
  | .wide c w => sramKey 3 c.val w
  | .acc c w => sramKey 4 c.val w
  | .cache l w => 32 * l + w
  | .store c w => sramKey 6 c.val w
  | .link d w => sramKey 7 d.val w
  | .front w => sramKey 8 0 w
  | .mgmt w => sramKey 9 0 w
/-- The location exists; how many words a link die, the front-end die and the management die hold is not stated (log entry 151). -/
def locValid : EccLoc → Bool
  | .hbm u => decide (u < 12 * stackSize / 64)
  | .clm _ w => decide (w < 0x80000)
  | .wide _ w => decide (w < 0x40000)
  | .acc _ w => decide (w < 0x8000)
  | .cache l w => decide (l < 12 * stackSize / 256) && decide (w < 32)
  | .store _ w => decide (w < storeWords)
  | .link _ w => decide (w < 2 ^ 24)
  | .front w => decide (w < 2 ^ 24)
  | .mgmt w => decide (w < 2 ^ 24)

/-- The scrubber corrected a location: on two consecutive laps it becomes a candidate (R541). -/
def scrubCorrected (s : State) (b kind unit key : Nat) : State :=
  let s := if (b, kind * 2 ^ 64 + key) ∈ s.mem.correctedLast then addCandidate s kind 3 unit key else s
  { s with mem := { s.mem with corrected := (b, kind * 2 ^ 64 + key) :: s.mem.corrected } }

/-- The scrubber found an uncorrectable location: counted on every read, reported once (R534, R537). -/
def scrubBad (s : State) (kind unit key addr : Nat) : State :=
  let id := kind * 2 ^ 64 + key
  if id ∈ s.mem.scrubbed then s.addEnt 0x4101 kind 1
  else
    let s := noteBad s kind 2 unit addr
    { s with mem := { s.mem with scrubbed := id :: s.mem.scrubbed } }

/-- One scrubber read of an HBM unit. -/
def scrubHbm (s : State) (b u : Nat) : State :=
  match sget none s.mem.hbmRaw u with
  | none => s
  | some r =>
    let stack := u * 64 / stackSize
    match (hbmDecode r).2 with
    | .clean => s
    | .corrected =>
      scrubCorrected ((noteCorrected s 1 stack (globalOf s (localOf s u))).setUnit u none) b 1 stack u
    | .bad true => s
    | .bad false =>
      (scrubBad s 1 stack u (globalOf s (localOf s u))).setUnit u (some (poisonCode r.data))

/-- One scrubber read of an SRAM word; a corrected one waits to be rewritten (R530). -/
def scrubSram (s : State) (b kind key : Nat) : State :=
  match sget none s.mem.sramRaw key with
  | none => s
  | some r =>
    let unit := (sramWhere key).2
    match (sramDecode (BitVec.ofNat 64 (ofLe r.data)) (r.check.getD 0 0)).2 with
    | .clean => s
    | .corrected =>
      let s := noteCorrected s kind unit (sramAddr s key)
      let others := s.mem.rewrites.filter fun k => decide (k ≠ key)
      scrubCorrected { s with mem := { s.mem with rewrites := key :: others } } b kind unit key
    | .bad _ => scrubBad s kind unit key (sramAddr s key)

/-- One scrubber read of a word of a cached line: of a clean line an uncorrectable word is refilled, a correction of kind `0x05` (R531); of a
dirty one it stays as it stands (R537). -/
def scrubCache (s : State) (l w : Nat) : State :=
  match s.mem.cache.find? fun x => decide (x.line = l) with
  | none => s
  | some x =>
    let addr := globalOf s (localOf s (4 * l) + 8 * w)
    if w ∉ x.bad then s
    else if x.dirty then scrubBad s 5 (lineDie l) (32 * l + w) addr
    else noteCorrected (s.setCache (s.mem.cache.map fun y => if y.line = l then { y with bad := [] } else y)) 5 (lineDie l) addr

/-- Laps that every scrubber has completed since the fill. -/
def moduleLaps (laps : SMap Nat) : Nat := (List.range 6).foldl (fun m b => Nat.min m (sget 0 laps b)) (sget 0 laps 0)

/-- A lap of a scrubber ends (R536) and the next begins: the lap time shown is the longest of the last laps; a module lap ends with the last
of the six. -/
def endLap (s : State) (b lapMs : Nat) : State :=
  let before := moduleLaps s.mem.laps
  let mine (e : Nat × Nat) : Bool := decide (e.1 = b)
  let s := s.setEnt 0x4201 (b + 1) (lapMs % 2 ^ 32)
  let s := { s with mem := { s.mem with
    laps := sset 0 s.mem.laps b (sget 0 s.mem.laps b + 1)
    lapStart := sset 0 s.mem.lapStart b s.now
    overdue := s.mem.overdue.filter fun o => decide (o ≠ b)
    correctedLast := (s.mem.correctedLast.filter fun e => !mine e) ++ s.mem.corrected.filter mine
    corrected := s.mem.corrected.filter fun e => !mine e } }
  let time := (List.range 6).foldl (fun m k => Nat.max m (s.ent 0x4201 (k + 1))) 0
  let s := s.setEnt 0x4200 1 time
  if moduleLaps s.mem.laps = before then s
  else
    let s := s.addEnt 0x4200 3 1
    let due := match s.mem.lapEvent with
      | some t => decide (t.toNat + 3600000000000 ≤ s.now.toNat)
      | none => true
    if due then
      { s with mem := { s.mem with lapEvent := some s.now } }.raise 0x4301 [(4, time), (4, 0), (8, s.ent 0x4200 3)]
    else s

/-- One scrubber read of a location. -/
def scrubLoc (s : State) (b : Nat) (loc : EccLoc) : State :=
  match loc with
  | .hbm u => scrubHbm s b u
  | .cache l w => scrubCache s l w
  | l => scrubSram s b (locKind l) (locKey l)

/-- SCRUB_READ: a scrubber of a compute die reads a location of kinds `0x01` to `0x06` of its die, that of a link die one of its kind `0x07`
(R535). `lapEnds` says that the read was the last of its lap; `lapMs` is what that lap took. -/
def execScrubRead (t : FTime) (scrubber : Fin 6) (loc : EccLoc) (lapMs : Nat) (lapEnds : Bool) (s : State) : Out :=
  atTime s t fun s =>
    if !scrubs s then .next s else
    let b := scrubber.val
    if locDie loc ≠ b ∨ locValid loc = false ∨ (lapEnds ∧ lapMs ≠ lapElapsed s b) then .next s
    else
      let s := scrubLoc s b loc
      .next (if lapEnds then endLap s b lapMs else s)

/-- The time at which the lap in progress of a scrubber has lasted so many milliseconds, or now if that is past. -/
def lapTime (s : State) (b ms : Nat) : FTime :=
  BitVec.ofNat 64 (Nat.min (Nat.max s.now.toNat ((sget 0 s.mem.lapStart b).toNat + ms * 1000000)) (2 ^ 64 - 1))

/-- SCRUB_OVERDUE (R538): once for a lap in progress, when it has lasted so long. -/
def execScrubOverdue (scrubber : Fin 6) (elapsedMs : W32) (s : State) : Out :=
  let b := scrubber.val
  if elapsedMs.toNat < lapElapsed s b then .next s else
  atTime s (lapTime s b elapsedMs.toNat) fun s =>
  if scrubs s ∧ s.ent 0x4200 2 < elapsedMs.toNat ∧ b ∉ s.mem.overdue then
    let s := { s with mem := { s.mem with overdue := b :: s.mem.overdue } }
    .next (s.raise 0x4302 [(1, b), (1, 0), (1, 0), (1, 0), (4, elapsedMs.toNat), (4, s.ent 0x4200 2)])
  else .next s

/-- SRAM_REWRITE (R530): a corrected word is rewritten with the corrected codeword. -/
def execSramRewrite (loc : EccLoc) (s : State) : Out :=
  match loc with
  | .hbm _ | .cache _ _ => .next s
  | l =>
    if locKey l ∈ s.mem.rewrites then
      .next { s with mem := { s.mem with
        sramRaw := sset none s.mem.sramRaw (locKey l) none
        rewrites := s.mem.rewrites.filter fun k => decide (k ≠ locKey l) } }
    else .next s

/-! ### Test mode (R539, R540) -/

/-- What `0x4600:01` and `:02` name: kind and key (a physical unit, or an SRAM key). -/
def rawTarget (s : State) : Option (Nat × Nat) :=
  let a := s.ent 0x4600 2
  match s.ent 0x4600 1 with
  | 1 => if inHbm a 64 && decide (a % 64 = 0) then some (1, unitOf s a) else none
  | 2 => match placeOf a 8 with
    | .clm c o => if o % 8 = 0 then some (2, sramKey 2 c (o / 8)) else none
    | _ => none
  | _ => match placeOf a 8 with
    | .wide c o => if o % 8 = 0 then some (3, sramKey 3 c (o / 8)) else none
    | _ => none

/-- Raw access is open (R539), from the end of the fill on (R529). -/
def rawOpen (s : State) : Bool :=
  s.ctl.filled &&
  (  decide (s.ctl.dev = .recovery) || (decide (s.ctl.dev = .test) && decide (s.ctl.phase ≠ .armed ∧ s.ctl.phase ≠ .run)))

/-- WRITE_RAW. -/
def writeRaw (s : State) (kind key : Nat) : Nat × State :=
  if (kind, key) ∉ s.mem.rawList ∧ 64 ≤ s.mem.rawList.length then (stRange, s)
  else
    let d := s.oct 0x4600 3
    let c := s.oct 0x4600 4
    let s := if kind = 1 then putRawHbm (dropLine s (localOf s key)) key d (c.take 4)
      else
        let s := putRawSram s key (BitVec.ofNat 64 (field d 0 8)) (c.getD 0 0)
        { s with mem := { s.mem with rewrites := s.mem.rewrites.filter fun k => decide (k ≠ key) } }
    let list := if (kind, key) ∈ s.mem.rawList then s.mem.rawList else s.mem.rawList ++ [(kind, key)]
    (stOk, { s with mem := { s.mem with rawList := list } }.setEnt 0x4600 6 list.length)

/-- READ_RAW. -/
def readRaw (s : State) (kind key : Nat) : Nat × State :=
  let s := if kind = 1 then dropLine s (localOf s key) else s
  let (d, c) := if kind = 1 then getRawHbm s key else getRawSram s key
  (stOk, (s.setOct 0x4600 3 (padTo 64 d)).setOct 0x4600 4 (padTo 8 c))

/-- A write to `0x4600:05`. -/
def rawCommand (s : State) (v : Nat) : Nat × State :=
  if v ≠ 1 ∧ v ≠ 2 then (stRange, s)
  else if !rawOpen s then (stState, s)
  else match rawTarget s with
    | none => (stRange, s)
    | some (kind, key) => if v = 1 then writeRaw s kind key else readRaw s kind key

end Sys2Proof.Machine
end

