-- ==== Sys2Proof/Machine/Fdp.lean ====
section
/-!
DEFINITION. The Floyr Dictionary Protocol (R438 to R443, R562) and the event ring (R462, R463): sessions, requests and their responses,
event records.
-/
namespace Sys2Proof.Machine

/-! ### Sessions and messages (Tables 15-4, 15-5) -/

def opHello : Nat := 1
def opRead : Nat := 2
def opWrite : Nat := 3
def opEvents : Nat := 4
def opAudit : Nat := 5
def opNotify : Nat := 6

/-- A message that the module sends: header and body. -/
def message (ver op flags status req : Nat) (body : List Byte) : List Byte :=
  le 1 ver ++ le 1 op ++ le 1 flags ++ le 1 status ++ le 4 req ++ le 2 body.length ++ le 2 0 ++ body

/-- The version of a session's messages: the chosen one; before it, generation 1's (log entry 41). -/
def Session.version (x : Session) : Nat := match x.chosen with | some v => v.toNat | none => 1

/-- Answer a request of a session: the response is kept for repeats and sent (R443). A session that has closed gets none. -/
def reply (s : State) (slot sid op status : Nat) (req : W32) (body : List Byte) : State :=
  match s.session slot with
  | some x =>
    if x.sid ≠ sid then s
    else
      let m := message x.version op 1 status req.toNat body
      let kept := x.kept.map fun k => if k.1 = req then (req, some m) else k
      transmit s slot { x with kept := kept } m
  | none => s

/-- Galena answers: powered and not held in reset (R474); in band, the main side is powered too (R440). -/
def reachable (s : State) (slot : Nat) : Bool :=
  decide (s.ctl.dev ≠ .off) && !s.ctl.galenaHeld && (decide (slot < 4) || s.ctl.powered)

/-- A request ID newer than the last of the session (R443). -/
def newer (last : Option W32) (req : W32) : Bool :=
  match last with
  | none => true
  | some l => decide (req ≠ l) && decide ((req - l).toNat < 2 ^ 31)

/-- The record of a request in band is taken from what has reached Galena (R407). -/
def takeRecord (s : State) (slot : Nat) (channel : W16) : State :=
  if slot < 4 then s
  else { s with links := { s.links with galenaIn := s.links.galenaIn.eraseP fun r => decide (r.1 = channel) } }

/-- What a request makes Galena read of the management die's memory; which words is not stated, and the model takes all (log entry 151). -/
def mgmtRead (s : State) : State × Bool := sramReadCheck s 9 0 0 (8 * 2 ^ 24)

/-- A request arrives (R440 to R443). On an uncorrectable word of its memory Galena is restarted, which closes every session (Table 18-3). The session, once the request is to be executed; else none, and the state after what is answered.
`ver` is its version byte, none for a HELLO. -/
def request (s : State) (slot op : Nat) (req : W32) (ver : Option Byte) : State × Option Session :=
  match s.session slot with
  | none => (s, none)
  | some x =>
    if !reachable s slot then (s, none) else
    let r := mgmtRead s
    if r.2 then (galenaStarts (freshSram r.1 9 0), none) else
    let s := takeRecord r.1 slot x.channel
    let x := { x with lastRx := s.now }
    match x.kept.find? fun k => decide (k.1 = req) with
    | some (_, some m) => (transmit s slot x m, none)
    | some (_, none) => (s.setSession slot (some x), none)
    | none =>
      if !newer x.last req then (transmit s slot x (message x.version op 1 stWindow req.toNat []), none)
      else
        let x := { x with last := some req, kept := ((req, none) :: x.kept).take 64 }
        let t := s.setSession slot (some x)
        let refused := x.dead || (match ver with | none => false | some v => decide (x.chosen ≠ some v))
        if refused then (reply t slot x.sid op stVersion req [], none) else (t, some x)

/-- A request that is executed and answered at once. -/
def answerRequest (s : State) (slot op : Nat) (req : W32) (ver : Option Byte) (f : State → Session → Nat × List Byte × State) : Out :=
  match request s slot op req ver with
  | (t, none) => .next t
  | (t, some x) =>
    let (status, body, t) := f t x
    .next (reply t slot x.sid op status req body)

/-! ### Opening and closing (R439, R440) -/

/-- The trust anchors that match something (R479). -/
def anchors (s : State) : List (List Byte) :=
  ([1, 2, 3, 4].map fun k => s.oct 0x8110 k).filter fun a => !allZero a
/-- Wall time in ms, once the wall base is set (R459, R479). -/
def wallTime (s : State) : Option Nat := if s.ent 0x8010 1 = 0 then none else some (s.ent 0x8010 1 + s.now.toNat / 1000000)

/-- A certificate whose key matches an anchor (R479). -/
def anchored (s : State) (cert : List Byte) : Bool := (anchors s).any fun a => decide (padTo 48 a = padTo 48 (Config.sha384 (Config.certKey cert)))

/-- What R439 requires of a handshake. -/
def handshakeOk (s : State) (suite group scheme : W16) (chain : List (List Byte)) : Bool :=
  decide (suite = 0x1302#16) && decide (group = 0x0018#16) && decide (scheme = 0x0805#16) && decide (chain ≠ []) &&
    chain.any (anchored s) && Config.chainValid (anchors s) (wallTime s) chain

/-- What the module presents in a handshake: its RSA certificate, and the RSA signature that authenticates it (R439, R470). -/
def serverProof (s : State) : List Byte × List Byte :=
  (Config.rsaCertificate, padTo 384 (Config.rsaSign s.trust.draws (padTo 48 (Config.sha384 (Config.dtlsTranscript s.fdp.nextSid)))))

/-- FDP_HANDSHAKE (R439, R440): a session opens in a free slot; a failed handshake raises FDP_PEER_REJECTED. -/
def execFdpHandshake (slot : Fin 8) (suite group scheme : W16) (chain : List (List Byte)) (port : Port) (channel : W16) (s : State) : Out :=
  if !reachable s slot.val then .next s
  else
    let s := takeRecord s slot.val channel
    if !handshakeOk s suite group scheme chain then .next (s.raise 0x8302 [])
    else if (s.session slot.val).isSome then .next s
    else
      let x : Session :=
        { sid := s.fdp.nextSid, fingerprint := padTo 8 (Config.sha384 (chain.headD [])), port := port, channel := channel, chosen := none,
          dead := false, mask := 0, presented := serverProof s, last := none, kept := [], lastRx := s.now, sent := [], records := 0 }
      .next { s with
        fdp := { sessions := sset none s.fdp.sessions slot.val (some x), nextSid := s.fdp.nextSid + 1 }
        trust := { s.trust with draws := s.trust.draws + 1 } }

/-- FDP_CLOSE: a DTLS close. -/
def execFdpClose (slot : Fin 8) (s : State) : Out :=
  if !reachable s slot.val then .next s else
  match s.session slot.val with
  | some x => .next ((takeRecord s slot.val x.channel).setSession slot.val none)
  | none => .next s

/-- FDP_SESSION_TIMEOUT: 300 s without a record from the peer. -/
def execFdpSessionTimeout (slot : Fin 8) (s : State) : Out :=
  match s.session slot.val with
  | some x => .next ((reach s (x.lastRx.toNat + 300000000000)).setSession slot.val none)
  | none => .next s

/-! ### HELLO and READ (R441, R442) -/

/-- A request whose opcode and body keep to Table 15-5. -/
def bodyOk (op : Nat) (b : List Byte) : Bool :=
  match op with
  | 1 => decide (b.length = 6)
  | 2 => decide (b.length = 4)
  | 3 => decide (8 ≤ b.length ∧ b.length = 8 + field b 4 2)
  | 4 => decide (b.length = 6 ∧ 1 ≤ field b 4 2 ∧ field b 4 2 ≤ 32)
  | 5 => decide (b.length = 12 ∧ 1 ≤ field b 2 2) &&
      (decide (field b 0 1 = 1 ∧ field b 2 2 ≤ 16) || decide (field b 0 1 = 2 ∧ field b 2 2 ≤ 1024))
  | _ => false

/-- The highest version that a range and the module's own share. -/
def commonVersion (s : State) (lowest highest : Byte) : Option Nat :=
  let lo := s.ent 0x1011 1 % 256
  let hi := s.ent 0x1011 1 / 256
  let top := Nat.min hi highest.toNat
  if Nat.max lo lowest.toNat ≤ top then some top else none

/-- HELLO. -/
def execHello (slot : Fin 8) (req : W32) (lowest highest : Byte) (mask : W16) (s : State) : Out :=
  answerRequest s slot.val opHello req none fun t x =>
    match commonVersion t lowest highest with
    | none => (stVersion, [], (t.setSession slot.val (some { x with dead := true })).raise 0x8301 [])
    | some v =>
      (stOk, le 1 v ++ le 1 (t.ent 0x1008 1) ++ le 2 t.device ++ le 2 1152 ++ le 2 0,
       t.setSession slot.val (some { x with chosen := some (BitVec.ofNat 8 v), mask := mask }))

/-- A READ takes fresh values where the entry's value is free. -/
def afterRead (s : State) (index _sub : Nat) : State :=
  if index = 0x2300 then { s with freeCtr := s.freeCtr + 16 } else s

/-- An entry whose value a unit of the main side holds: work counters, sequencers, caches, landing counts, page slots, semaphores and waits, region
queues, encode contexts, array counters (R517, Table 1-2; log entry 27). -/
def mainEntry (index sub : Nat) : Bool :=
  decide (0x4020 ≤ index ∧ index ≤ 0x4031) || decide (0x5120 ≤ index ∧ index ≤ 0x5141) || decide (index = 0x5220 ∨ index = 0x5221) ||
    decide (index = 0x5500 ∧ 2 ≤ sub) || decide (0x5501 ≤ index ∧ index ≤ 0x5504) || decide (0x5310 ≤ index ∧ index ≤ 0x5313 ∧ 2 ≤ sub) ||
    decide (0x5A00 ≤ index ∧ index ≤ 0x5A03) || decide (index = 0x6420)

/-- The answer of a READ: type code, length and value; STATE for what lies beyond the interface to an unpowered main side (R517). -/
def readAnswer (s : State) (index sub : Nat) : Nat × List Byte × State :=
  match entryOf index sub with
  | none => (stNoEntry, [], s)
  | some e =>
    if e.acc = .wo then (stAccess, [], s)
    else if mainEntry index sub && !s.ctl.powered then (stState, [], s)
    else (stOk, le 1 e.ty.code ++ le 1 0 ++ le 2 e.ty.size ++ entryBytes s index sub, afterRead s index sub)

/-- Take up a READ. -/
def answerRead (s : State) (slot sid : Nat) (req : W32) (index sub : Nat) : State :=
  let r := readAnswer s index sub
  reply r.2.2 slot sid opRead r.1 req r.2.1

/-- Accesses wait in order of arrival; those of one instant in the order M, H, P, lower core first (R437; log entry 102). -/
def insertHeld (h : Held) : List Held → List Held
  | [] => [h]
  | g :: r => if g.at_ = h.at_ ∧ h.rank < g.rank then h :: g :: r else g :: insertHeld h r

/-- The rank of a session's access. -/
def slotRank (slot : Nat) : Nat := if slot < 4 then 0 else 1

/-- FDP_READ (R441): a request by its opcode and body. One that breaks Table 15-5 is answered MALFORMED and not executed; a READ
reads its entry, once the accesses that wait are taken up (R437); the other requests are carried out by rows of their own. -/
def execFdpRead (slot : Fin 8) (req : W32) (ver op : Byte) (body : List Byte) (s : State) : Out :=
  if bodyOk op.toNat body = false then
    answerRequest s slot.val op.toNat req (if op = 1#8 then none else some ver) fun t _ => (stMalformed, [], t)
  else if op ≠ 2#8 then .next s
  else match request s slot.val opRead req (some ver) with
    | (t, none) => .next t
    | (t, some x) =>
      let index := field body 0 2
      let sub := field body 2 1
      if t.audit.held = [] then .next (answerRead t slot.val x.sid req index sub)
      else .next { t with audit := { t.audit with
        held := insertHeld ⟨t.now, slotRank slot.val, .read slot.val x.sid req index sub⟩ t.audit.held } }

/-! ### Events (R462, R463) -/

/-- A record of the ring with its sequence number (Table 15-15). -/
def recordBytes (seq : Nat) (r : EvRec) : List Byte :=
  le 2 r.code.toNat ++ le 2 r.device.toNat ++ le 4 seq ++ le 8 r.time.toNat ++ padTo 16 r.detail
/-- The ring's records with their sequence numbers, oldest first. -/
def numbered (v : Events) : List (Nat × EvRec) := v.ring.zipIdx.map fun r => (v.count - v.ring.length + r.2, r.1)
def classOf (r : EvRec) : Nat := r.code.toNat / 4096

/-- ALERT_OUT is low while an unacknowledged record's class is in the mask, and while Galena is held in reset (R463, R474). -/
def showAlert (s : State) : State :=
  let low := (numbered s.ev).any fun r => decide (s.ent 0x7F00 3 ≤ r.1 % 2 ^ 32) && Nat.testBit (s.ent 0x7F00 4) (classOf r.2)
  { s with ev := { s.ev with alertLow := low || s.ctl.galenaHeld } }

/-- NOTIFY of one record to each session whose mask names its class (R443). -/
def notify (s : State) (r : EvRec) (seq : Nat) : State :=
  (List.range 8).foldl (fun s k =>
    match s.session k with
    | some x =>
      if x.chosen.isSome ∧ x.dead = false ∧ x.mask.getLsbD (classOf r) ∧ reachable s k then
        transmit s k x (message x.version opNotify 0 0 0 (le 2 1 ++ le 2 0 ++ recordBytes seq r))
      else s
    | none => s) s

/-- EVENT_RECORD: the next raised event becomes a record of the ring of 4,096; an unacknowledged one that it overwrites is counted. -/
def execEventRecord (s : State) : Out :=
  match s.ev.raised with
  | [] => .next s
  | r :: rest =>
    if s.ctl.dev = .off ∨ s.ctl.galenaHeld then .next s else
    let full := decide (4096 ≤ s.ev.ring.length)
    let lost := full && decide (s.ent 0x7F00 3 ≤ (s.ev.count - s.ev.ring.length) % 2 ^ 32)
    let s := if lost then s.addEnt 0x7F00 5 1 else s
    let ring := if full then s.ev.ring.drop 1 else s.ev.ring
    let seq := s.ev.count
    let s := { s with ev := { s.ev with raised := rest, ring := ring ++ [r], count := seq + 1 } }
    .next (notify (showAlert s) r seq)

/-- EVENTS: up to count records from a sequence on. -/
def execEvents (slot : Fin 8) (req : W32) (ver : Byte) (start : W32) (count : W16) (s : State) : Out :=
  answerRequest s slot.val opEvents req (some ver) fun t _ =>
    if count.toNat < 1 ∨ 32 < count.toNat then (stMalformed, [], t)
    else
      let l := ((numbered t.ev).filter fun r => decide (start.toNat ≤ r.1 % 2 ^ 32)).take count.toNat
      (stOk, le 2 l.length ++ le 2 0 ++ l.flatMap fun r => recordBytes r.1 r.2, t)

/-! ### Reading the audit log (R562) -/

def auditRing : Nat := 1048576
/-- The durable entry with number q. -/
def auditAt (a : Audit) (q : Nat) : List Byte := sget [] a.ring (q % auditRing)

/-- The number of the durable entry whose sequence is `start` of the 2^31 up to the newest; none where `start` counts as younger. -/
def auditAge (a : Audit) (start : W32) : Option Nat :=
  if durable a = 0 then none
  else
    let back := (durable a - 1 + 2 ^ 32 - start.toNat % 2 ^ 32) % 2 ^ 32
    if back ≤ 2 ^ 31 then some back else none

/-- AUDIT_ENTRIES. -/
def execAuditEntries (slot : Fin 8) (req : W32) (ver : Byte) (count : W16) (start : W32) (s : State) : Out :=
  answerRequest s slot.val opAudit req (some ver) fun t _ =>
    if count.toNat < 1 ∨ 16 < count.toNat then (stMalformed, [], t)
    else match auditAge t.audit start with
      | none => (stOk, [], t)
      | some back =>
        if durable t.audit ≤ back ∨ auditRing ≤ back then (stRange, [], t)
        else
          let q := durable t.audit - 1 - back
          let n := Nat.min count.toNat (back + 1)
          (stOk, (List.range n).flatMap fun j => padTo 64 (auditAt t.audit (q + j)), t)

/-- AUDIT_CHECKPOINT_READ. -/
def execAuditCheckpointRead (slot : Fin 8) (req : W32) (ver : Byte) (count : W16) (number offset : W32) (s : State) : Out :=
  answerRequest s slot.val opAudit req (some ver) fun t _ =>
    if count.toNat < 1 ∨ 1024 < count.toNat then (stMalformed, [], t)
    else match t.audit.checkpoints.find? fun c => decide (c.1 = number.toNat) with
      | none => (stRange, [], t)
      | some c =>
        if 16672 ≤ offset.toNat then (stRange, [], t)
        else (stOk, slice (padTo 16672 c.2) offset.toNat count.toNat, t)

end Sys2Proof.Machine
end

