-- ==== Sys2Proof/Machine/Write.lean ====
section
/-!
DEFINITION. A write to the object dictionary (R433 to R437, R457 to R461): its checks, what each entry does with it, its audit entry, and
the answer once that is durable.
-/
namespace Sys2Proof.Machine

/-! ### Main-side commands (Table 15-8) -/

/-- A tab that is armed, runs, aborts or is paused in TEST is dropped when a command takes the module out of TEST: Table 15-8 sets
no condition on it (log entry 104). -/
def dropTab (s : State) : State :=
  match s.eff with
  | .armed => leavePause (cancelArming s)
  | .run => abortingComplete (abandon s)
  | .aborting => abortingComplete s
  | .pause => leavePause s
  | _ => s

/-- A command that leaves TEST, unless the dropped tab's power-down (Table 17-4) has shed the rails. -/
def leaveTest (s : State) (f : State → State) : State :=
  let t := dropTab s
  if t.ctl.powered then f t else t

/-- POWER_UP. -/
def powerUpCommand (s : State) : Nat × State :=
  if s.ctl.dev = .standby ∧ assigned s ∧ powerBlocked s = false then
    (stOk, toInit { s with power := { s.power with railHold := false } })
  else (stState, s)

/-- POWER_DOWN. -/
def powerDownCommand (s : State) : Nat × State :=
  match s.ctl.dev with
  | .ready => (stOk, powerDown s)
  | .pause => (stOk, powerDown s)
  | .test => (stOk, leaveTest s powerDown)
  | .recovery => (stOk, powerDown s)
  | .fault => (stOk, powerDown s)
  | _ => (stState, s)

/-- RESTART: it starts the images preferred now (R485). -/
def restartCommand (s : State) : Nat × State :=
  if s.ctl.dev = .fault then (stOk, toInit s)
  else if s.ctl.dev = .test then (stOk, leaveTest s fun t => toStart (noteSlots t))
  else if s.ctl.dev = .ready ∨ s.ctl.dev = .recovery then (stOk, toStart (noteSlots s))
  else (stState, s)

/-- ENTER_TEST. -/
def enterTestCommand (s : State) : Nat × State :=
  if s.ctl.dev = .ready then (stOk, { (s.enter .test) with ctl := { (s.enter .test).ctl with phase := .ready } }) else (stState, s)

/-- ENTER_RECOVERY. -/
def enterRecoveryCommand (s : State) : Nat × State :=
  if s.ctl.dev = .ready ∨ s.ctl.dev = .fault then (stOk, s.enter .recovery) else (stState, s)

/-- LEAVE. -/
def leaveCommand (s : State) : Nat × State :=
  if s.ctl.dev = .test then (stOk, leaveTest s fun t => t.enter .ready)
  else if s.ctl.dev = .recovery then (stOk, s.enter .ready)
  else (stState, s)

/-- A write to `0x5003:01`. -/
def mainCommand (s : State) (v : Nat) : Nat × State :=
  if v < 1 ∨ 6 < v then (stRange, s)
  else match v with
  | 1 => powerUpCommand s
  | 2 => powerDownCommand s
  | 3 => restartCommand s
  | 4 => enterTestCommand s
  | 5 => enterRecoveryCommand s
  | _ => leaveCommand s

/-! ### Entries with rules of their own -/

/-- A cached line of region g: each stack holds 4 GiB of each region (R175). -/
def inRegion (g : Nat) (x : CacheLine) : Bool := decide (x.line * 256 % stackSize / 2 ^ 32 = g)

/-- A write to a region mode (R177): in READY the region's dirty lines are written back first. -/
def regionModeWrite (s : State) (sub v : Nat) : State :=
  (if s.ctl.dev = .ready then flushLines s (inRegion (sub - 1)) else s).setEnt 0x4010 sub v

/-- The window w with one of its values replaced: base, size, access. -/
def lendAfter (s : State) (w sub v : Nat) : Nat × Nat × Nat :=
  let at_ (k : Nat) : Nat := if k = sub then v else s.ent (0x4500 + w) k
  (at_ 1, at_ 2, at_ 3)

/-- R199. -/
def lendOk (s : State) (w sub v : Nat) : Bool :=
  let (base, size, acc) := lendAfter s w sub v
  decide (acc = 0) || (decide (base % 4096 = 0) && decide (size % 4096 = 0) && decide (size ≠ 0) && decide (base + size ≤ hbmSize) &&
    (List.range 8).all fun k => decide (k = w) || decide (s.ent (0x4500 + k) 3 = 0) || disjoint (base, size) (s.ent (0x4500 + k) 1, s.ent (0x4500 + k) 2))

/-- The context base (Table 5-6): 0, or a multiple of 8 MiB with 1.5 GiB of HBM above it. -/
def contextBaseOk (v : Nat) : Bool := decide (v = 0) || (decide (v % 8388608 = 0) && decide (v + 1610612736 ≤ hbmSize))

/-- A stream's configuration entry (Table 11-12): unwritable while the stream is enabled. -/
def streamConfig (s : State) (k sub v : Nat) : Nat × State :=
  let mult := if sub ∈ [2, 4, 6, 0x1A] then 64 else if sub ∈ [7, 8, 0xF, 0x10] then 4096 else 1
  if (s.stream k).on then (stState, s)
  else if v % mult ≠ 0 then (stRange, s)
  else (stOk, s.setEnt (0x6100 + k) sub v)

/-- The use of THROTTLE_IN (R503, R509, R510): a held input takes effect, or ceases to, with the write. -/
def throttleUseWrite (s : State) (v : Nat) : State :=
  let s := s.setEnt 0x2100 6 v
  if s.ent 0x2100 4 ≠ 1 then s else if v ≠ 1 then throttleRelease s 1 else
  let t := throttleEnter s 1 false
  if s.ent 0x2100 7 = 0 ∧ eventDue t.power.throttleEventAt t.now then
    { (throttleEvent t 1 0 (t.ent 0x2000 1)) with power := { t.power with throttleEventAt := some t.now } }
  else t

/-- A trust anchor: register 7 measures the four (Table 16-5, R476). -/
def anchorWrite (s : State) (sub : Nat) (b : List Byte) : State :=
  let s := s.setOct 0x8110 sub b
  s.setOct 0x8210 8 (Config.sha384 ([1, 2, 3, 4].flatMap (s.oct 0x8110)))

/-- A plain numeric entry. -/
def plainWrite (s : State) (index sub v : Nat) : Nat × State := (stOk, s.setEnt index sub v)
/-- An effect that the entry's own range and access code allow. -/
def always (s : State) : Nat × State := (stOk, s)
/-- A multiple of 1,024 (Tables 16-4, 16-5). -/
def offsetWrite (s : State) (index sub v : Nat) : Nat × State := if v % 1024 = 0 then plainWrite s index sub v else (stRange, s)
/-- A command for a unit that works on memory, before the fill is complete (R517, R529). -/
def needsMemory (s : State) (r : Nat × State) : Nat × State := if s.ctl.filled then r else (stState, s)

/-- What an entry does with a write that its type, access code, class list and range allow. -/
def applyEntry (s : State) (o : Origin) (index sub : Nat) (b copy : List Byte) : Nat × State :=
  let v := ofLe b
  match index with
  | 0x2100 => if sub = 6 then always (throttleUseWrite s v) else plainWrite s index sub v
  | 0x4010 => always (regionModeWrite s sub v)
  | 0x4600 => if sub = 5 then rawCommand s v else if sub = 3 ∨ sub = 4 then always (s.setOct index sub b) else plainWrite s index sub v
  | 0x5000 =>
    if sub = 1 then tabAddressWrite s v
    else if sub = 2 then armingWrite s (BitVec.ofNat 64 v)
    else if sub = 3 then programCommand s v
    else plainWrite s index sub v
  | 0x5003 => if sub = 1 then mainCommand s v else plainWrite s index sub v
  | 0x5200 => needsMemory s (pageCommand s o b)
  | 0x5210 => pageAreaWrite s sub v
  | 0x5410 => if sub = 2 then shardCommand s v else plainWrite s index sub v
  | 0x5510 => if sub = 2 then (if contextBaseOk v then plainWrite s index sub v else (stRange, s)) else plainWrite s index sub v
  | 0x6410 => encodeCommand s o b copy
  | 0x7200 => if sub = 6 then clearHold s v else plainWrite s index sub v
  | 0x7F00 => always (showAlert (s.setEnt index sub v))
  | 0x8100 => if sub = 2 then offsetWrite s index sub v else plainWrite s index sub v
  | 0x8110 => always (anchorWrite s sub b)
  | 0x8120 => requestReport s b
  | 0x8130 =>
    if sub = 3 then ownerCommand s v
    else if sub = 5 then offsetWrite s index sub v
    else if sub = 6 then always (tokenChunk s b)
    else always (s.setOct index sub b)
  | 0x8140 =>
    if sub = 1 then offsetWrite s index sub v
    else if sub = 2 then always (imageChunk s b)
    else if sub = 3 then imageSource s v
    else if sub = 4 then firmwareCommand s o v
    else plainWrite s index sub v
  | 0x8400 => if sub = 3 then always (s.setOct index sub b) else plainWrite s index sub v
  | 0x9100 => if sub = 4 then semForce s v else plainWrite s index sub v
  | i =>
    if 0x4500 ≤ i ∧ i ≤ 0x4507 then (if lendOk s (i - 0x4500) sub v then plainWrite s i sub v else (stRange, s))
    else if 0x5310 ≤ i ∧ i ≤ 0x5313 then regionCommand s o (i - 0x5310) b copy
    else if 0x6100 ≤ i ∧ i ≤ 0x610F then
      (if sub = 1 then (if v = 1 then enableStream s (i - 0x6100) else disableStream s (i - 0x6100)) else streamConfig s (i - 0x6100) sub v)
    else if 0x6200 ≤ i ∧ i ≤ 0x620F then releaseBatches s (i - 0x6200) v
    else plainWrite s i sub v

/-! ### The checks (R434, R435, Table 15-6) -/

/-- The class bit of a writer: H 0, M 1, P 2. -/
def classBit (o : Origin) : Nat :=
  match o with
  | .prog _ => 2
  | .fdp slot _ _ => if slot.val < 4 then 1 else 0

/-- The length that the entry's type takes. -/
def lengthOk (e : EntryDef) (n : Nat) : Bool :=
  match e.ty with
  | .string m => decide (1 ≤ n ∧ n ≤ m)
  | t => decide (n = t.size)

/-- The value rule of the entry's type and the range of its row. -/
def valueOk (e : EntryDef) (b : List Byte) : Bool :=
  match e.ty with
  | .string _ => utf8Ok (b.takeWhile fun x => decide (x ≠ 0))
  | .octets _ => true
  | _ => decide (e.lo ≤ ofLe b ∧ ofLe b ≤ e.hi)

/-- The first check that a write fails, as its status. -/
def checkWrite (s : State) (o : Origin) (e : EntryDef) (b : List Byte) : Option Nat :=
  if !lengthOk e b.length then some stLength
  else if e.acc = .ro ∨ e.acc = .const then some stAccess
  else if !Nat.testBit e.writers (classBit o) then some stOriginator
  else if e.acc = .rws ∧ ¬ (s.ctl.dev = .standby ∨ s.ctl.dev = .ready) then some stState
  else if !valueOk e b then some stRange
  else none

/-- Check and apply a write: status, and the state it leaves. -/
def writeEntry (s : State) (o : Origin) (index sub : Nat) (b copy : List Byte) : Nat × State :=
  match entryOf index sub with
  | none => (stNoEntry, s)
  | some e =>
    match checkWrite s o e b with
    | some st => (st, s)
    | none => applyEntry s o index sub b copy

/-! ### The audit entry (Table 15-13, R457 to R459) -/

/-- The value before the write; none of a WO entry, nor of one that does not exist. -/
def oldValue (s : State) (index sub : Nat) : List Byte :=
  match entryOf index sub with
  | some e => if e.acc = .wo then [] else entryBytes s index sub
  | none => []
def entrySize (index sub : Nat) : Nat := match entryOf index sub with | some e => e.ty.size | none => 0

/-- Bytes 0 to 47. -/
def auditHead (s : State) (w : WriteReq) (old : List Byte) (seq : Nat) (refused : Bool) : List Byte :=
  let hashed := decide (16 < 2 * Nat.max (entrySize w.index w.sub) w.value.length)
  let values := padTo 16 (if hashed then Config.sha384 (old ++ w.value) else old ++ w.value)
  le 8 s.now.toNat ++ le 6 (s.ent 0x8010 1) ++ le 2 w.index ++ le 4 seq ++ le 1 w.sub ++
    le 1 (classBit w.o + (if hashed then 4 else 0) + (if refused then 8 else 0)) ++ le 2 w.source ++ padTo 8 w.print ++ values

/-- Make the audit entry of a write and hold its answer until it is durable. -/
def logWrite (s : State) (w : WriteReq) (old : List Byte) (status : Nat) : State :=
  let head := auditHead s w old s.audit.made (decide (status ≠ stOk))
  let chain := padTo 16 (Config.sha384 (s.audit.chain ++ head))
  let answer : Answer := match w.o with
    | .fdp slot req _ => .fdp slot w.sid req (BitVec.ofNat 8 status)
    | .prog c => .mover c w.moveId
  { s with audit := { s.audit with made := s.audit.made + 1, chain := chain, waiting := s.audit.waiting ++ [(head ++ chain, answer)] } }

/-! ### Writes from programs (R174, R290, R309) -/

/-- A mover write to the map is committed: its landing advances (R147). -/
def commitMapWrite (s : State) (c id n : Nat) : State :=
  match (s.core c).move id with
  | none => s
  | some m =>
    let key := transferKey s.device m.transfer.toNat
    let s := tallyLanding (s.addEnt 0x4030 (c + 1) n) key n
    if (match s.transfer key with | some x => decide (x.total ≤ x.committed) | none => false) then s.setTransfer key none else s

/-- The completion reaches the mover (R457). -/
def completeMapWrite (s : State) (c id : Nat) : State :=
  sweepMoves (s.modMove c id fun m => { m with mapWaits := m.mapWaits - 1 }) c

/-- Apply a write that Galena takes up, and log it. One of a program is committed, applied or refused (R290): before a refusal can abort the run. -/
def applyWrite (s : State) (w : WriteReq) : State :=
  let old := oldValue s w.index w.sub
  let s := match w.o with
    | .prog c => commitMapWrite s c.val w.moveId w.value.length
    | .fdp _ _ _ => s
  let (status, t) := writeEntry s w.o w.index w.sub w.value (w.copy.getD [])
  logWrite t w old status

/-- A write while the log has failed (R461): status AUDIT; from a program, the abort. -/
def refuseAudit (s : State) (w : WriteReq) : State :=
  match w.o with
  | .fdp slot req _ => reply s slot.val w.sid opWrite stAudit req []
  | .prog c => abortRun (completeMapWrite s c.val w.moveId) 0x8304

/-! ### Accesses in their order (R437, R458, R309) -/

def isRegionWrite (index sub : Nat) : Bool := decide (0x5310 ≤ index ∧ index ≤ 0x5313 ∧ sub = 1)

/-- A write must wait: 64 entries are not durable, or it is a region command whose unit is full. -/
def writeWaits (s : State) (w : WriteReq) : Bool :=
  decide (64 ≤ s.audit.waiting.length) ||
    (isRegionWrite w.index w.sub && decide (w.value.length = 16) && regionWaits s (w.index - 0x5310) w.value (w.copy.getD []))

/-- An access cannot be taken up yet; with the log failed no write waits (R461). -/
def accessWaits (s : State) (a : Access) : Bool :=
  match a with
  | .write w => !s.audit.failed && writeWaits s w
  | .read _ _ _ _ _ => false

/-- Take up an access. -/
def takeAccess (s : State) (a : Access) : State :=
  match a with
  | .write w => if s.audit.failed then refuseAudit s w else applyWrite s w
  | .read slot sid req index sub => answerRead s slot sid req index sub

/-- The write taken up last. -/
def noteTaken (s : State) (h : Held) : State :=
  match h.what with
  | .write _ => { s with audit := { s.audit with taken := some (h.at_, h.rank) } }
  | .read _ _ _ _ _ => s

/-- A write of a later rank that arrived at the same time has been taken up (R437): Galena would have taken this one first, so no such write
arrives now (log entry 102). -/
def overtaken (s : State) (rank : Nat) : Bool :=
  match s.audit.taken with
  | some (t, r) => decide (t = s.now ∧ rank < r)
  | none => false

/-- Take up accesses in order, as far as they can go: one that must wait holds up those behind it. -/
def takeAll : List Held → State → State
  | [], s => s
  | h :: r, s =>
    if accessWaits s h.what then { s with audit := { s.audit with held := h :: r } } else takeAll r (takeAccess (noteTaken s h) h.what)

/-- Take up the accesses that wait. -/
def runHeld (s : State) : State := takeAll s.audit.held { s with audit := { s.audit with held := [] } }

/-- An access arrives. -/
def arriveAccess (s : State) (rank : Nat) (a : Access) : State :=
  runHeld { s with audit := { s.audit with held := insertHeld ⟨s.now, rank, a⟩ s.audit.held } }

/-- The descriptor that a region or encode command names, as the command arrives (R307, R360). -/
def copyOf (s : State) (index sub : Nat) (b : List Byte) : Option (List Byte) :=
  if isRegionWrite index sub ∨ (index = 0x6410 ∧ sub = 1) then some (rgCopy s b) else none

/-- The reading of that descriptor from where it lies. -/
def copyRead (s : State) (index sub : Nat) (b : List Byte) : State :=
  if (copyOf s index sub b).isSome then (localRead s (rcDesc b) 64).2.1 else s

/-- The started descriptor of a core whose next map write is this one. -/
def mapWriter (s : State) (c index sub : Nat) (b : List Byte) : Option Move :=
  (s.core c).moves.find? fun m => m.started && decide (m.mapWrites.head? = some (index, sub, b))

/-- A write reaches Galena. -/
def writeCommand (o : Origin) (t : FTime) (index sub : Nat) (b : List Byte) (s : State) : Out :=
  atTime s t fun s =>
    match o with
    | .fdp slot req ver =>
      if overtaken s (slotRank slot.val) then .next s else
      (match request s slot.val opWrite req (some ver) with
      | (s, none) => .next s
      | (s, some x) =>
        let w : WriteReq :=
          { o := o, index := index, sub := sub, value := b, moveId := 0, sid := x.sid, source := if slot.val < 4 then 0 else x.port.val,
            print := x.fingerprint, copy := copyOf s index sub b }
        .next (arriveAccess (copyRead s index sub b) (slotRank slot.val) (.write w)))
    | .prog c =>
      if s.ctl.galenaHeld ∨ overtaken s (2 + c.val) then .next s else
      match mapWriter s c.val index sub b with
      | none => .next s
      | some m =>
        let s := s.modMove c.val m.id fun m => { m with mapWrites := m.mapWrites.drop 1, mapWaits := m.mapWaits + 1 }
        let w : WriteReq :=
          { o := o, index := index, sub := sub, value := b, moveId := m.id, sid := 0, source := c.val, print := [],
            copy := copyOf s index sub b }
        .next (arriveAccess (copyRead s index sub b) (2 + c.val) (.write w))

/-! ### The log in flash (R458, R460, R461) -/

/-- The head of the checkpoint after a durable entry with number q (Table 15-14, bytes 0 to 63). -/
def checkpointHead (s : State) (q : Nat) (entry : List Byte) : List Byte :=
  padTo 64 (le 1 1 ++ le 1 0 ++ le 2 s.device ++ le 4 (q / 4096) ++ le 8 (q + 1) ++ padTo 8 entry ++ slice entry 48 16)

/-- The answer that waited for an entry. -/
def giveAnswer (s : State) (a : Answer) (seq : Nat) : State :=
  match a with
  | .fdp slot sid req status => reply s slot.val sid opWrite status.toNat req (le 4 seq)
  | .mover c id => completeMapWrite s c.val id

/-- The oldest entry that waits is durable. -/
def entryDurable (s : State) (entry : List Byte) (a : Answer) (rest : List (List Byte × Answer)) : State :=
  let q := durable s.audit
  let s := { s with audit := { s.audit with ring := sset [] s.audit.ring (q % auditRing) entry, waiting := rest } }
  let s := giveAnswer s a q
  let s := if q % 4096 = 4095 then
      wakeFlint { s with audit := { s.audit with unsigned := s.audit.unsigned ++ [(q / 4096 % 2 ^ 32, checkpointHead s q entry)] } }
    else s
  runHeld s

/-- The answer AUDIT to a write whose entry cannot be made durable. -/
def failAnswer (s : State) (e : List Byte × Answer) : State :=
  match e.2 with
  | .fdp slot sid req _ => reply s slot.val sid opWrite stAudit req []
  | .mover c id => abortRun (completeMapWrite s c.val id) 0x8304

/-- An entry cannot be made durable (R461): the log fails until 52 V is removed; the writes that wait are refused. -/
def logFails (s : State) : State :=
  let t := { s with audit := { s.audit.dropWaiting with failed := true, held := s.audit.held } }.raise 0x8304 []
  runHeld (s.audit.waiting.foldl failAnswer t)

/-- AUDIT_ENTRY_DURABLE: the oldest entry is written to flash, or cannot be. -/
def execAuditEntryDurable (written : Bool) (s : State) : Out :=
  if s.ctl.dev = .off ∨ s.ctl.galenaHeld then .next s else
  match s.audit.waiting with
  | [] => .next s
  | (entry, a) :: rest => .next (if written then entryDurable s entry a rest else logFails s)

end Sys2Proof.Machine
end

