-- ==== Sys2Proof/Machine/Commands.lean ====
section
/-!
DEFINITION. The commands that are writes to dictionary entries: each is a write of its entry through `Write.lean`, with its checks, its audit
entry and its answer; and the two events that let a waiting region command go on.
-/
namespace Sys2Proof.Machine

/-- DICTIONARY_WRITE (R435). -/
def execDictionaryWrite (o : Origin) (t : FTime) (index : W16) (sub : Byte) (value : List Byte) (s : State) : Out :=
  writeCommand o t index.toNat sub.toNat value s

/-- POWER_UP (Table 15-8). -/
def execPowerUp (o : Origin) (t : FTime) (s : State) : Out := writeCommand o t 0x5003 1 [1] s
/-- POWER_DOWN (Table 15-8). -/
def execPowerDown (o : Origin) (t : FTime) (s : State) : Out := writeCommand o t 0x5003 1 [2] s
/-- RESTART (R446). -/
def execRestart (o : Origin) (t : FTime) (s : State) : Out := writeCommand o t 0x5003 1 [3] s
/-- ENTER_TEST (Table 15-8). -/
def execEnterTest (o : Origin) (t : FTime) (s : State) : Out := writeCommand o t 0x5003 1 [4] s
/-- ENTER_RECOVERY (Table 15-8). -/
def execEnterRecovery (o : Origin) (t : FTime) (s : State) : Out := writeCommand o t 0x5003 1 [5] s
/-- LEAVE (Table 15-8). -/
def execLeave (o : Origin) (t : FTime) (s : State) : Out := writeCommand o t 0x5003 1 [6] s
/-- ARM (Table 15-12). -/
def execArm (o : Origin) (t : FTime) (s : State) : Out := writeCommand o t 0x5000 3 [1] s
/-- PAUSE (Table 15-12). -/
def execPause (o : Origin) (t : FTime) (s : State) : Out := writeCommand o t 0x5000 3 [2] s
/-- RESUME (Table 15-12). -/
def execResume (o : Origin) (t : FTime) (s : State) : Out := writeCommand o t 0x5000 3 [3] s
/-- ABORT (Table 15-12). -/
def execAbort (o : Origin) (t : FTime) (s : State) : Out := writeCommand o t 0x5000 3 [4] s
/-- ARMING_WRITE (R451): a start fabric time is written to `0x5000:02`. -/
def execArmingWrite (o : Origin) (t : FTime) (start : FTime) (s : State) : Out := writeCommand o t 0x5000 2 (le 8 start.toNat) s
/-- SEM_FORCE (R167). -/
def execSemForce (o : Origin) (t : FTime) (value : W32) (s : State) : Out := writeCommand o t 0x9100 4 (le 4 value.toNat) s
/-- REGION_MODE_WRITE (R177). -/
def execRegionModeWrite (o : Origin) (t : FTime) (region : Fin 24) (mode : Byte) (s : State) : Out := writeCommand o t 0x4010 (region.val + 1) [mode] s
/-- EXPORT (R271). -/
def execExportShard (o : Origin) (t : FTime) (s : State) : Out := writeCommand o t 0x5410 2 [1] s
/-- VERIFY (R271). -/
def execVerify (o : Origin) (t : FTime) (s : State) : Out := writeCommand o t 0x5410 2 [2] s
/-- CLEAR_HOLD (R264). -/
def execClearHold (o : Origin) (t : FTime) (s : State) : Out := writeCommand o t 0x7200 6 [1] s
/-- PAGE_AREA_SET (R286). -/
def execPageAreaSet (o : Origin) (t : FTime) (sub : Byte) (value : List Byte) (s : State) : Out := writeCommand o t 0x5210 sub.toNat value s
/-- OPEN (R288): a page command whose op is `0x01`. -/
def execOpenSlot (o : Origin) (t : FTime) (cmd : List Byte) (s : State) : Out := writeCommand o t 0x5200 1 (cmd.set 0 1) s
/-- MAP (R288). -/
def execMap (o : Origin) (t : FTime) (cmd : List Byte) (s : State) : Out := writeCommand o t 0x5200 1 (cmd.set 0 2) s
/-- FREE (R288, R294). -/
def execFree (o : Origin) (t : FTime) (cmd : List Byte) (s : State) : Out := writeCommand o t 0x5200 1 (cmd.set 0 3) s
/-- CLOSE (R288, R294). -/
def execClose (o : Origin) (t : FTime) (cmd : List Byte) (s : State) : Out := writeCommand o t 0x5200 1 (cmd.set 0 4) s
/-- DECODE (R307): a region command whose op is `0x01`. -/
def execDecode (o : Origin) (t : FTime) (die : Fin 4) (cmd : List Byte) (s : State) : Out := writeCommand o t (0x5310 + die.val) 1 (cmd.set 0 1) s
/-- NMS (R307). -/
def execNms (o : Origin) (t : FTime) (die : Fin 4) (cmd : List Byte) (s : State) : Out := writeCommand o t (0x5310 + die.val) 1 (cmd.set 0 2) s
/-- CROP (R307). -/
def execCrop (o : Origin) (t : FTime) (die : Fin 4) (cmd : List Byte) (s : State) : Out := writeCommand o t (0x5310 + die.val) 1 (cmd.set 0 3) s
/-- STREAM_ENABLE (R320). -/
def execStreamEnable (o : Origin) (t : FTime) (k : Fin 16) (s : State) : Out := writeCommand o t (0x6100 + k.val) 1 [1] s
/-- STREAM_DISABLE (R321). -/
def execStreamDisable (o : Origin) (t : FTime) (k : Fin 16) (s : State) : Out := writeCommand o t (0x6100 + k.val) 1 [0] s
/-- BATCH_RELEASE (R348). -/
def execBatchRelease (o : Origin) (t : FTime) (k : Fin 16) (count : Byte) (s : State) : Out := writeCommand o t (0x6200 + k.val) 0xA [count] s
/-- ENCODE (R360). -/
def execEncode (o : Origin) (t : FTime) (cmd : List Byte) (s : State) : Out := writeCommand o t 0x6410 1 (cmd.set 0 1) s
/-- REPORT_REQUEST (R478). -/
def execReportRequest (o : Origin) (t : FTime) (nonce : List Byte) (s : State) : Out := writeCommand o t 0x8120 1 nonce s
/-- ENROLL (R480). -/
def execEnroll (o : Origin) (t : FTime) (s : State) : Out := writeCommand o t 0x8130 3 [1] s
/-- CHALLENGE (R481). -/
def execChallenge (o : Origin) (t : FTime) (s : State) : Out := writeCommand o t 0x8130 3 [2] s
/-- RELEASE (R481). -/
def execRelease (o : Origin) (t : FTime) (s : State) : Out := writeCommand o t 0x8130 3 [3] s
/-- INSTALL (R484). -/
def execInstall (o : Origin) (t : FTime) (s : State) : Out := writeCommand o t 0x8140 4 [1] s
/-- RAISE_FLOOR (R486). -/
def execRaiseFloor (o : Origin) (t : FTime) (s : State) : Out := writeCommand o t 0x8140 4 [2] s
/-- GALENA_RESTART (R487). -/
def execGalenaRestart (o : Origin) (t : FTime) (s : State) : Out := writeCommand o t 0x8140 4 [3] s
/-- WRITE_RAW (R539). -/
def execWriteRaw (o : Origin) (t : FTime) (s : State) : Out := writeCommand o t 0x4600 5 [1] s
/-- READ_RAW (R539). -/
def execReadRaw (o : Origin) (t : FTime) (s : State) : Out := writeCommand o t 0x4600 5 [2] s

/-- REGION_COMMAND_DONE (R309 to R316): the command at the head of the unit ends, and one that waits may be queued. -/
def execRegionCommandDone (t : FTime) (die : Fin 4) (s : State) : Out :=
  atTime s t fun s => if s.region die.val = [] then .next s else .next (runHeld (finishRegion s die.val))

/-- ABORTING_COMPLETE (R72). -/
def execAbortingComplete (s : State) : Out := if s.eff = .aborting then .next (runHeld (abortingComplete s)) else .next s

end Sys2Proof.Machine
end

