-- ==== Sys2Proof/Machine/Dispatch.lean ====
section
/-!
DEFINITION. One arm for each command of the table: a direct call of its meaning, or a rejection by name.
-/
namespace Sys2Proof.Machine

def exec (i : Instr) (s : State) : Host.Outcome State Fault Refusal :=
  match i with
  | .powerApplied mv => Sys2Proof.Machine.execPowerApplied mv s
  | .standbyPowerLoss => Sys2Proof.Machine.execStandbyPowerLoss  s
  | .supplyLow mv => Sys2Proof.Machine.execSupplyLow mv s
  | .supplyHalt t mv => Sys2Proof.Machine.execSupplyHalt t mv s
  | .holdupExpiry => Sys2Proof.Machine.execHoldupExpiry  s
  | .supplyRecovered mv => Sys2Proof.Machine.execSupplyRecovered mv s
  | .autoPowerUp => Sys2Proof.Machine.execAutoPowerUp  s
  | .railsReady => Sys2Proof.Machine.execRailsReady  s
  | .railTimeout rail => Sys2Proof.Machine.execRailTimeout rail s
  | .hbmTrainingDone failed => Sys2Proof.Machine.execHbmTrainingDone failed s
  | .memoryFillDone => Sys2Proof.Machine.execMemoryFillDone  s
  | .selfTestDone passed found spares => Sys2Proof.Machine.execSelfTestDone passed found spares s
  | .mainFirmwareVerified => Sys2Proof.Machine.execMainFirmwareVerified  s
  | .portStartTimeout p => Sys2Proof.Machine.execPortStartTimeout p s
  | .startComplete => Sys2Proof.Machine.execStartComplete  s
  | .dictionaryWrite o t index sub value => Sys2Proof.Machine.execDictionaryWrite o t index sub value s
  | .fdpHandshake slot suite group scheme chain port channel => Sys2Proof.Machine.execFdpHandshake slot suite group scheme chain port channel s
  | .fdpClose slot => Sys2Proof.Machine.execFdpClose slot s
  | .fdpSessionTimeout slot => Sys2Proof.Machine.execFdpSessionTimeout slot s
  | .hello slot req lowest highest mask => Sys2Proof.Machine.execHello slot req lowest highest mask s
  | .fdpRead slot req ver op body => Sys2Proof.Machine.execFdpRead slot req ver op body s
  | .events slot req ver start count => Sys2Proof.Machine.execEvents slot req ver start count s
  | .auditEntries slot req ver count start => Sys2Proof.Machine.execAuditEntries slot req ver count start s
  | .auditCheckpointRead slot req ver count number offset => Sys2Proof.Machine.execAuditCheckpointRead slot req ver count number offset s
  | .auditEntryDurable written => Sys2Proof.Machine.execAuditEntryDurable written s
  | .eventRecord => Sys2Proof.Machine.execEventRecord  s
  | .powerUp o t => Sys2Proof.Machine.execPowerUp o t s
  | .powerDown o t => Sys2Proof.Machine.execPowerDown o t s
  | .restart o t => Sys2Proof.Machine.execRestart o t s
  | .enterTest o t => Sys2Proof.Machine.execEnterTest o t s
  | .enterRecovery o t => Sys2Proof.Machine.execEnterRecovery o t s
  | .leave o t => Sys2Proof.Machine.execLeave o t s
  | .arm o t => Sys2Proof.Machine.execArm o t s
  | .pause o t => Sys2Proof.Machine.execPause o t s
  | .resume o t => Sys2Proof.Machine.execResume o t s
  | .abort o t => Sys2Proof.Machine.execAbort o t s
  | .armingWrite o t start => Sys2Proof.Machine.execArmingWrite o t start s
  | .armingChecksDone t => Sys2Proof.Machine.execArmingChecksDone t s
  | .tabMeasured => Sys2Proof.Machine.execTabMeasured  s
  | .armingDeadline => Sys2Proof.Machine.execArmingDeadline  s
  | .rampStep => Sys2Proof.Machine.execRampStep  s
  | .startFabricTimeReached => Sys2Proof.Machine.execStartFabricTimeReached  s
  | .capoSwitch => Sys2Proof.Machine.execCapoSwitch  s
  | .digestWalk => Sys2Proof.Machine.execDigestWalk  s
  | .verdict => Sys2Proof.Machine.execVerdict  s
  | .commitCapo => Sys2Proof.Machine.execCommitCapo  s
  | .runEnd => Sys2Proof.Machine.execRunEnd  s
  | .lateTransfer p stream => Sys2Proof.Machine.execLateTransfer p stream s
  | .abortFlitReceive t p f => Sys2Proof.Machine.execAbortFlitReceive t p f s
  | .abortingComplete => Sys2Proof.Machine.execAbortingComplete  s
  | .timeExchange t frac p => Sys2Proof.Machine.execTimeExchange t frac p s
  | .timeFlitReceive t frac p f => Sys2Proof.Machine.execTimeFlitReceive t frac p f s
  | .becomeRoot => Sys2Proof.Machine.execBecomeRoot  s
  | .upstreamReselect => Sys2Proof.Machine.execUpstreamReselect  s
  | .holdoverBoundExceeded t => Sys2Proof.Machine.execHoldoverBoundExceeded t s
  | .ppsInEdge t widthNs => Sys2Proof.Machine.execPpsInEdge t widthNs s
  | .ppsLost t => Sys2Proof.Machine.execPpsLost t s
  | .ppsOutPulse => Sys2Proof.Machine.execPpsOutPulse  s
  | .flitLockAcquired w => Sys2Proof.Machine.execFlitLockAcquired w s
  | .linkDown t p => Sys2Proof.Machine.execLinkDown t p s
  | .laserFault src => Sys2Proof.Machine.execLaserFault src s
  | .trainReceive p f => Sys2Proof.Machine.execTrainReceive p f s
  | .heldPortRetrain p => Sys2Proof.Machine.execHeldPortRetrain p s
  | .corruptFlit w => Sys2Proof.Machine.execCorruptFlit w s
  | .retryRepeat p => Sys2Proof.Machine.execRetryRepeat p s
  | .retryReceive t p f => Sys2Proof.Machine.execRetryReceive t p f s
  | .mapSend => Sys2Proof.Machine.execMapSend  s
  | .mapReceive p f => Sys2Proof.Machine.execMapReceive p f s
  | .headFlitReceive t p f => Sys2Proof.Machine.execHeadFlitReceive t p f s
  | .dataFlitReceive t p f => Sys2Proof.Machine.execDataFlitReceive t p f s
  | .landingCommit t src transfer bytes => Sys2Proof.Machine.execLandingCommit t src transfer bytes s
  | .readFlitReceive t p f => Sys2Proof.Machine.execReadFlitReceive t p f s
  | .respReceive t p f => Sys2Proof.Machine.execRespReceive t p f s
  | .ackReceive t p f => Sys2Proof.Machine.execAckReceive t p f s
  | .postFlitReceive t p f => Sys2Proof.Machine.execPostFlitReceive t p f s
  | .hostmsgReceive t p f => Sys2Proof.Machine.execHostmsgReceive t p f s
  | .schedFlitReceive t p f => Sys2Proof.Machine.execSchedFlitReceive t p f s
  | .completionTimeout t tag => Sys2Proof.Machine.execCompletionTimeout t tag s
  | .sendInstanceStart t entry => Sys2Proof.Machine.execSendInstanceStart t entry s
  | .sendReadDone t entry => Sys2Proof.Machine.execSendReadDone t entry s
  | .localInputStart t entry => Sys2Proof.Machine.execLocalInputStart t entry s
  | .groupBlockReduce t entry => Sys2Proof.Machine.execGroupBlockReduce t entry s
  | .stagedCopy t entry => Sys2Proof.Machine.execStagedCopy t entry s
  | .nop c => Sys2Proof.Machine.execNop c s
  | .halt c => Sys2Proof.Machine.execHalt c s
  | .programEnd c => Sys2Proof.Machine.execProgramEnd c s
  | .br c imm => Sys2Proof.Machine.execBr c imm s
  | .brc c cond a b imm => Sys2Proof.Machine.execBrc c cond a b imm s
  | .loop c counter live planned => Sys2Proof.Machine.execLoop c counter live planned s
  | .endl c => Sys2Proof.Machine.execEndl c s
  | .rdl c counter d => Sys2Proof.Machine.execRdl c counter d s
  | .movi c d imm => Sys2Proof.Machine.execMovi c d imm s
  | .movhi c d imm => Sys2Proof.Machine.execMovhi c d imm s
  | .alu c op d a b => Sys2Proof.Machine.execAlu c op d a b s
  | .cdiv c d a imm => Sys2Proof.Machine.execCdiv c d a imm s
  | .ld c size d a imm => Sys2Proof.Machine.execLd c size d a imm s
  | .st c size a b imm => Sys2Proof.Machine.execSt c size a b imm s
  | .shape c d a slot imm => Sys2Proof.Machine.execShape c d a slot imm s
  | .shapeValueArrival c => Sys2Proof.Machine.execShapeValueArrival c s
  | .setpad c pad imm => Sys2Proof.Machine.execSetpad c pad imm s
  | .wcbind c d counter => Sys2Proof.Machine.execWcbind c d counter s
  | .wcbindServe c => Sys2Proof.Machine.execWcbindServe c s
  | .wcinit c a counter => Sys2Proof.Machine.execWcinit c a counter s
  | .wcinitApply c => Sys2Proof.Machine.execWcinitApply c s
  | .take c d a imm => Sys2Proof.Machine.execTake c d a imm s
  | .takeServe c => Sys2Proof.Machine.execTakeServe c s
  | .apass c f gather => Sys2Proof.Machine.execApass c f gather s
  | .convPass c f => Sys2Proof.Machine.execConvPass c f s
  | .mpass c f => Sys2Proof.Machine.execMpass c f s
  | .passRetire c id => Sys2Proof.Machine.execPassRetire c id s
  | .postFieldApply c id => Sys2Proof.Machine.execPostFieldApply c id s
  | .add c f => Sys2Proof.Machine.execAdd c f s
  | .mul c f => Sys2Proof.Machine.execMul c f s
  | .scale c f => Sys2Proof.Machine.execScale c f s
  | .min c f => Sys2Proof.Machine.execMin c f s
  | .max c f => Sys2Proof.Machine.execMax c f s
  | .exp c f => Sys2Proof.Machine.execExp c f s
  | .log c f => Sys2Proof.Machine.execLog c f s
  | .recip c f => Sys2Proof.Machine.execRecip c f s
  | .rsqrt c f => Sys2Proof.Machine.execRsqrt c f s
  | .div c f => Sys2Proof.Machine.execDiv c f s
  | .act c f => Sys2Proof.Machine.execAct c f s
  | .actd c f => Sys2Proof.Machine.execActd c f s
  | .rowmax c f => Sys2Proof.Machine.execRowmax c f s
  | .rowsum c f => Sys2Proof.Machine.execRowsum c f s
  | .poolRowmax c f => Sys2Proof.Machine.execPoolRowmax c f s
  | .poolRowsum c f => Sys2Proof.Machine.execPoolRowsum c f s
  | .softmax c f => Sys2Proof.Machine.execSoftmax c f s
  | .softmaxd c f => Sys2Proof.Machine.execSoftmaxd c f s
  | .stats c f => Sys2Proof.Machine.execStats c f s
  | .output c f => Sys2Proof.Machine.execOutput c f s
  | .delta c f => Sys2Proof.Machine.execDelta c f s
  | .grad c f => Sys2Proof.Machine.execGrad c f s
  | .lnorm c f => Sys2Proof.Machine.execLnorm c f s
  | .rmsnorm c f => Sys2Proof.Machine.execRmsnorm c f s
  | .cast c f => Sys2Proof.Machine.execCast c f s
  | .move c a post => Sys2Proof.Machine.execMove c a post s
  | .moveStart t c => Sys2Proof.Machine.execMoveStart t c s
  | .moveRetire c id => Sys2Proof.Machine.execMoveRetire c id s
  | .wait c sem a imm => Sys2Proof.Machine.execWait c sem a imm s
  | .waitRelease c => Sys2Proof.Machine.execWaitRelease c s
  | .waitft c a imm => Sys2Proof.Machine.execWaitft c a imm s
  | .waitftRelease t c => Sys2Proof.Machine.execWaitftRelease t c s
  | .waitLong t c => Sys2Proof.Machine.execWaitLong t c s
  | .post c remote sem a imm => Sys2Proof.Machine.execPost c remote sem a imm s
  | .drainComplete => Sys2Proof.Machine.execDrainComplete  s
  | .contextSaved => Sys2Proof.Machine.execContextSaved  s
  | .drainTimeout t => Sys2Proof.Machine.execDrainTimeout t s
  | .semForce o t value => Sys2Proof.Machine.execSemForce o t value s
  | .regionModeWrite o t region mode => Sys2Proof.Machine.execRegionModeWrite o t region mode s
  | .exportShard o t => Sys2Proof.Machine.execExportShard o t s
  | .verify o t => Sys2Proof.Machine.execVerify o t s
  | .shardWalkDone t => Sys2Proof.Machine.execShardWalkDone t s
  | .clearHold o t => Sys2Proof.Machine.execClearHold o t s
  | .pageAreaSet o t sub value => Sys2Proof.Machine.execPageAreaSet o t sub value s
  | .openSlot o t cmd => Sys2Proof.Machine.execOpenSlot o t cmd s
  | .map o t cmd => Sys2Proof.Machine.execMap o t cmd s
  | .free o t cmd => Sys2Proof.Machine.execFree o t cmd s
  | .close o t cmd => Sys2Proof.Machine.execClose o t cmd s
  | .decode o t die cmd => Sys2Proof.Machine.execDecode o t die cmd s
  | .nms o t die cmd => Sys2Proof.Machine.execNms o t die cmd s
  | .crop o t die cmd => Sys2Proof.Machine.execCrop o t die cmd s
  | .regionCommandDone t die => Sys2Proof.Machine.execRegionCommandDone t die s
  | .streamEnable o t x => Sys2Proof.Machine.execStreamEnable o t x s
  | .streamDisable o t x => Sys2Proof.Machine.execStreamDisable o t x s
  | .batchRelease o t x count => Sys2Proof.Machine.execBatchRelease o t x count s
  | .listHeaderRead t x => Sys2Proof.Machine.execListHeaderRead t x s
  | .sampleDispatch t x => Sys2Proof.Machine.execSampleDispatch t x s
  | .sampleFinish t x sample => Sys2Proof.Machine.execSampleFinish t x sample s
  | .sampleEmit t x => Sys2Proof.Machine.execSampleEmit t x s
  | .sampleTimeout t x sample => Sys2Proof.Machine.execSampleTimeout t x sample s
  | .decodePipeFree p => Sys2Proof.Machine.execDecodePipeFree p s
  | .encode o t cmd => Sys2Proof.Machine.execEncode o t cmd s
  | .transcodeFrameDecoded t p => Sys2Proof.Machine.execTranscodeFrameDecoded t p s
  | .encodeFrameDone t p => Sys2Proof.Machine.execEncodeFrameDone t p s
  | .reportRequest o t nonce => Sys2Proof.Machine.execReportRequest o t nonce s
  | .reportReady => Sys2Proof.Machine.execReportReady  s
  | .enroll o t => Sys2Proof.Machine.execEnroll o t s
  | .challenge o t => Sys2Proof.Machine.execChallenge o t s
  | .release o t => Sys2Proof.Machine.execRelease o t s
  | .install o t => Sys2Proof.Machine.execInstall o t s
  | .installDone => Sys2Proof.Machine.execInstallDone  s
  | .raiseFloor o t => Sys2Proof.Machine.execRaiseFloor o t s
  | .galenaRestart o t => Sys2Proof.Machine.execGalenaRestart o t s
  | .governorTick t mv watts avg1ms avg10ms => Sys2Proof.Machine.execGovernorTick t mv watts avg1ms avg10ms s
  | .powerCapRelease => Sys2Proof.Machine.execPowerCapRelease  s
  | .taperStep => Sys2Proof.Machine.execTaperStep  s
  | .clockReturnStep t => Sys2Proof.Machine.execClockReturnStep t s
  | .throttleInAssert t => Sys2Proof.Machine.execThrottleInAssert t s
  | .throttleInRelease t => Sys2Proof.Machine.execThrottleInRelease t s
  | .haltInAssert t => Sys2Proof.Machine.execHaltInAssert t s
  | .haltInRelease t => Sys2Proof.Machine.execHaltInRelease t s
  | .inputReminder t haltPin => Sys2Proof.Machine.execInputReminder t haltPin s
  | .thermalThrottle t die mC => Sys2Proof.Machine.execThermalThrottle t die mC s
  | .thermalRelease t temps => Sys2Proof.Machine.execThermalRelease t temps s
  | .thermalHalt t die mC => Sys2Proof.Machine.execThermalHalt t die mC s
  | .scrubRead t scrubber loc lapMs lapEnds => Sys2Proof.Machine.execScrubRead t scrubber loc lapMs lapEnds s
  | .scrubOverdue scrubber elapsedMs => Sys2Proof.Machine.execScrubOverdue scrubber elapsedMs s
  | .sramRewrite loc => Sys2Proof.Machine.execSramRewrite loc s
  | .writeRaw o t => Sys2Proof.Machine.execWriteRaw o t s
  | .readRaw o t => Sys2Proof.Machine.execReadRaw o t s
  | .pcsLock p => Sys2Proof.Machine.execPcsLock p s
  | .trainAdvertise p => Sys2Proof.Machine.execTrainAdvertise p s
  | .flitSlot t p => Sys2Proof.Machine.execFlitSlot t p s
  | .idleReceive p f => Sys2Proof.Machine.execIdleReceive p f s
  | .checkpointSignatureDone => Sys2Proof.Machine.execCheckpointSignatureDone  s

end Sys2Proof.Machine
end

