-- ==== Sys2Proof/WellFormed.lean ====
section
/-!
DEFINITION. Well-formed commands: an instruction of a tile sequencer whose operands R120 refuses when a tab is armed can
stand in no instruction store, so no command carries it. Every other command is well-formed whatever its operands: the machine
answers an operand out of range as the rule of its row says.
-/
namespace Sys2Proof
open Sys2Proof.Machine

/-- The command can occur: its operands are none that R120 makes invalid in every program (Table 4-2, R119, R226). -/
def Instr.wf : Instr → Bool
  | .powerApplied _ => true
  | .standbyPowerLoss => true
  | .supplyLow _ => true
  | .supplyHalt _ _ => true
  | .holdupExpiry => true
  | .supplyRecovered _ => true
  | .autoPowerUp => true
  | .railsReady => true
  | .railTimeout _ => true
  | .hbmTrainingDone _ => true
  | .memoryFillDone => true
  | .selfTestDone _ _ _ => true
  | .mainFirmwareVerified => true
  | .portStartTimeout _ => true
  | .startComplete => true
  | .dictionaryWrite _ _ _ _ _ => true
  | .fdpHandshake _ _ _ _ _ _ _ => true
  | .fdpClose _ => true
  | .fdpSessionTimeout _ => true
  | .hello _ _ _ _ _ => true
  | .fdpRead _ _ _ _ _ => true
  | .events _ _ _ _ _ => true
  | .auditEntries _ _ _ _ _ => true
  | .auditCheckpointRead _ _ _ _ _ _ => true
  | .auditEntryDurable _ => true
  | .eventRecord => true
  | .powerUp _ _ => true
  | .powerDown _ _ => true
  | .restart _ _ => true
  | .enterTest _ _ => true
  | .enterRecovery _ _ => true
  | .leave _ _ => true
  | .arm _ _ => true
  | .pause _ _ => true
  | .resume _ _ => true
  | .abort _ _ => true
  | .armingWrite _ _ _ => true
  | .armingChecksDone _ => true
  | .tabMeasured => true
  | .armingDeadline => true
  | .rampStep => true
  | .startFabricTimeReached => true
  | .capoSwitch => true
  | .digestWalk => true
  | .verdict => true
  | .commitCapo => true
  | .runEnd => true
  | .lateTransfer _ _ => true
  | .abortFlitReceive _ _ _ => true
  | .abortingComplete => true
  | .timeExchange _ _ _ => true
  | .timeFlitReceive _ _ _ _ => true
  | .becomeRoot => true
  | .upstreamReselect => true
  | .holdoverBoundExceeded _ => true
  | .ppsInEdge _ _ => true
  | .ppsLost _ => true
  | .ppsOutPulse => true
  | .flitLockAcquired _ => true
  | .linkDown _ _ => true
  | .laserFault _ => true
  | .trainReceive _ _ => true
  | .heldPortRetrain _ => true
  | .corruptFlit _ => true
  | .retryRepeat _ => true
  | .retryReceive _ _ _ => true
  | .mapSend => true
  | .mapReceive _ _ => true
  | .headFlitReceive _ _ _ => true
  | .dataFlitReceive _ _ _ => true
  | .landingCommit _ _ _ _ => true
  | .readFlitReceive _ _ _ => true
  | .respReceive _ _ _ => true
  | .ackReceive _ _ _ => true
  | .postFlitReceive _ _ _ => true
  | .hostmsgReceive _ _ _ => true
  | .schedFlitReceive _ _ _ => true
  | .completionTimeout _ _ => true
  | .sendInstanceStart _ _ => true
  | .sendReadDone _ _ => true
  | .localInputStart _ _ => true
  | .groupBlockReduce _ _ => true
  | .stagedCopy _ _ => true
  | .nop _ => true
  | .halt _ => true
  | .programEnd _ => true
  | .br _ _ => true
  | .brc _ _ _ _ _ => true
  | .loop _ _ _ _ => true
  | .endl _ => true
  | .rdl _ _ _ => true
  | .movi _ _ _ => true
  | .movhi _ _ _ => true
  | .alu _ _ _ _ _ => true
  | .cdiv _ _ _ imm => decide (imm ≠ 0 ∧ imm.toNat ≤ 2 ^ 31)
  | .ld _ _ _ _ _ => true
  | .st _ _ _ _ _ => true
  | .shape _ _ _ _ _ => true
  | .shapeValueArrival _ => true
  | .setpad _ _ _ => true
  | .wcbind _ _ _ => true
  | .wcbindServe _ => true
  | .wcinit _ _ _ => true
  | .wcinitApply _ => true
  | .take _ _ _ imm => decide (imm ≠ 0 ∧ imm.toNat ≤ 65536)
  | .takeServe _ => true
  | .apass _ _ _ => true
  | .convPass _ _ => true
  | .mpass _ _ => true
  | .passRetire _ _ => true
  | .postFieldApply _ _ => true
  | .add _ f => rfOk 0x01 f
  | .mul _ f => rfOk 0x02 f
  | .scale _ f => rfOk 0x03 f
  | .min _ f => rfOk 0x04 f
  | .max _ f => rfOk 0x05 f
  | .exp _ f => rfOk 0x06 f
  | .log _ f => rfOk 0x07 f
  | .recip _ f => rfOk 0x08 f
  | .rsqrt _ f => rfOk 0x09 f
  | .div _ f => rfOk 0x0A f
  | .act _ f => rfOk 0x0B f
  | .actd _ f => rfOk 0x0C f
  | .rowmax _ f => rfOk 0x0D f
  | .rowsum _ f => rfOk 0x0E f
  | .poolRowmax _ f => rfOk 0x0D f
  | .poolRowsum _ f => rfOk 0x0E f
  | .softmax _ f => rfOk 0x0F f
  | .softmaxd _ f => rfOk 0x10 f
  | .stats _ f => rfOk 0x0F f
  | .output _ f => rfOk 0x0F f
  | .delta _ f => rfOk 0x10 f
  | .grad _ f => rfOk 0x10 f
  | .lnorm _ f => rfOk 0x11 f
  | .rmsnorm _ f => rfOk 0x12 f
  | .cast _ f => castFieldsOk f
  | .move _ _ _ => true
  | .moveStart _ _ => true
  | .moveRetire _ _ => true
  | .wait _ _ _ _ => true
  | .waitRelease _ => true
  | .waitft _ _ _ => true
  | .waitftRelease _ _ => true
  | .waitLong _ _ => true
  | .post _ _ _ _ _ => true
  | .drainComplete => true
  | .contextSaved => true
  | .drainTimeout _ => true
  | .semForce _ _ _ => true
  | .regionModeWrite _ _ _ _ => true
  | .exportShard _ _ => true
  | .verify _ _ => true
  | .shardWalkDone _ => true
  | .clearHold _ _ => true
  | .pageAreaSet _ _ _ _ => true
  | .openSlot _ _ _ => true
  | .map _ _ _ => true
  | .free _ _ _ => true
  | .close _ _ _ => true
  | .decode _ _ _ _ => true
  | .nms _ _ _ _ => true
  | .crop _ _ _ _ => true
  | .regionCommandDone _ _ => true
  | .streamEnable _ _ _ => true
  | .streamDisable _ _ _ => true
  | .batchRelease _ _ _ _ => true
  | .listHeaderRead _ _ => true
  | .sampleDispatch _ _ => true
  | .sampleFinish _ _ _ => true
  | .sampleEmit _ _ => true
  | .sampleTimeout _ _ _ => true
  | .decodePipeFree _ => true
  | .encode _ _ _ => true
  | .transcodeFrameDecoded _ _ => true
  | .encodeFrameDone _ _ => true
  | .reportRequest _ _ _ => true
  | .reportReady => true
  | .enroll _ _ => true
  | .challenge _ _ => true
  | .release _ _ => true
  | .install _ _ => true
  | .installDone => true
  | .raiseFloor _ _ => true
  | .galenaRestart _ _ => true
  | .governorTick _ _ _ _ _ => true
  | .powerCapRelease => true
  | .taperStep => true
  | .clockReturnStep _ => true
  | .throttleInAssert _ => true
  | .throttleInRelease _ => true
  | .haltInAssert _ => true
  | .haltInRelease _ => true
  | .inputReminder _ _ => true
  | .thermalThrottle _ _ _ => true
  | .thermalRelease _ _ => true
  | .thermalHalt _ _ _ => true
  | .scrubRead _ _ _ _ _ => true
  | .scrubOverdue _ _ => true
  | .sramRewrite _ => true
  | .writeRaw _ _ => true
  | .readRaw _ _ => true
  | .pcsLock _ => true
  | .trainAdvertise _ => true
  | .flitSlot _ _ => true
  | .idleReceive _ _ => true
  | .checkpointSignatureDone => true

end Sys2Proof
end

