-- ==== Sys2Proof/Safety.lean ====
section
/-!
DEFINITION. The terms in which claims about the module are made: when a core issues an instruction, when a session's request is taken
up, when a write is, and what a safe run is.
-/
namespace Sys2Proof.Machine

/-- Core c issues the instruction word w: a tab runs, no pause drains, the core is running and waits for nothing, and its program
counter holds w, stored without an error (R121, R162, R530). -/
structure Issuing (s : State) (c : Nat) (w : W64) : Prop where
  running : s.running = true
  noDrain : s.run.drainSince = none
  status : (s.core c).status = 2
  free : (s.core c).wait = .none
  inside : (s.core c).pc < (s.core c).program.length
  here : (s.core c).program.getD (s.core c).pc 0 = w
  code : readOnce s 6 c (8 * (s.core c).pc) 8 = (s, false)

/-- The registers after a write of v to register d: writes to `s0` are discarded (Table 4-1). -/
def regsAfter (x : CoreS) (d : Reg) (v : W64) : List W64 := if d = 0 then x.regs else x.regs.set d.val v

/-- The core is in skip mode (R123, R127). -/
def Skipping (s : State) (c : Nat) : Bool := (s.core c).loops.any fun l => l.skipping

/-- An RFUNC other than CAST has nothing that halts or holds it: its unit's queue has room, its sizes, its tiles and its place behind the oldest pass to the row unit are
right, its ranges lie in their stores, nothing earlier holds it, and no word it reads is uncorrectable (R95, R108, R113, R119, R121, R139). `clm` are the rows and `acc`
and `stores` the ranges that the function reads beside its source, `extra` the ranges it writes beside its destination, `out` the elements it writes a row. -/
structure RowReady (s : State) (c : Nat) (j : RowJob) (whole : Bool) (clm : List (Nat × Nat × Nat)) (acc extra : List (Nat × Nat)) (out : Nat)
    (stores : List (Nat × Nat) := []) : Prop where
  room : unitFull (s.core c) 2 = false
  length : whole = true → j.len ≤ 65536
  tiles : j.f.accTiled = true → j.f.fromPass = false →
    1 ≤ j.len ∧ j.len ≤ 512 ∧ 1 ≤ j.rows ∧ j.rows ≤ 128 ∧ j.src + j.tiles * j.rows ≤ 512
  oldest : fromPassOk (s.core c) j = true
  inside : rangesIn (((srcReads j).1 ++ clm).map clmSpan ++ ((dstWrites j out).1 ++ extra)) ((srcReads j).2 ++ acc ++ (dstWrites j out).2) = true
  free : held (s.core c) 2 (rangeUnits (((srcReads j).1 ++ clm).map clmSpan) ((srcReads j).2 ++ acc))
    (rangeUnits ((dstWrites j out).1 ++ extra) (dstWrites j out).2) = false
  sound : (checkSram s c (rowReads j ((srcReads j).1 ++ clm) ((srcReads j).2 ++ acc) stores)).2 = false

/-- The input rows of an RFUNC: none where a row function has empty rows (R130). -/
def rowInput (x : CoreS) (j : RowJob) : List (List W32) :=
  if j.len = 0 ∧ ¬ (j.op = 0x0D ∨ j.op = 0x0E) then [] else inputRows x j

/-- A pass has joined core c's row unit and the core goes on; registers and memories are as before. When it retires it writes the result
rows, each value rounded once to the output format, at the places of the destination form, and `more` (R96, R119). -/
def RowQueued (s t : State) (c : Nat) (j : RowJob) (rows : List (List FNum)) (more : List (Nat × List Byte)) : Prop :=
  let x := s.core c
  let y := t.core c
  let code (v : FNum) : Nat := (narrow (outFmtOf j.f) .rne v).1
  ∃ q : Pass, y.passes = x.passes ++ [q] ∧ q.id = x.nextId ∧ q.unit = 2 ∧ q.post = j.f.post ∧ y.pc = x.pc + 1 ∧
    y.regs = x.regs ∧ y.clm = x.clm ∧ y.acc = x.acc ∧ y.wide = x.wide ∧
    y.fromPass = (if j.f.fromPass then x.fromPass.drop 1 else x.fromPass) ∧
    q.clm = (if j.f.dstAcc then [] else rows.zipIdx.flatMap fun r => placeClm j r.2 (r.1.flatMap fun v => le (outSize j.f) (code v))) ++ more ∧
    q.writes = if j.f.dstAcc then rows.zipIdx.flatMap fun r => placeAcc j r.2 (r.1.map fun v => toF32 (decF (outFmtOf j.f) (code v)))
      else []

/-- The bytes that the output rows of a CAST span in core-local memory (R119, R138). -/
def castSpan (j : RowJob) : Nat :=
  let out := codeBytes (ccDest j.pv) j.len
  if j.f.accTiled then (ceilDiv out 256 * j.rows - 1) * 256 + (out - (ceilDiv out 256 - 1) * 256) else (j.rows - 1) * roundUp out 256 + out

/-- The ranges that a CAST reads of core-local memory and of the accumulator file: its rows, its noise record, its scales and its block records. -/
def castReads (x : CoreS) (j : RowJob) : List (Nat × Nat) × List (Nat × Nat) :=
  let w := j.pv
  let a := castArgs x j.f.p.val
  let b0 := a.r0 / 128 * a.g + a.k0 / 128
  let bn := (a.r0 + j.rows - 1) / 128 * a.g + a.k0 / 128 + ceilDiv j.len 128
  let none_ := decide (j.len = 0 ∨ j.rows = 0)
  let rows := if none_ ∨ j.f.fromPass ∨ j.f.srcAcc ∨ j.f.accTiled then []
    else (clmRows j.src j.rows (codeBytes (j.f.param.toNat % 16) j.len)).map clmSpan
  let noise := if j.f.param.toNat / 16 = 4 ∧ !none_ then [(noiseAt (ccSlot w), 32)] else []
  let grid := if none_ ∨ ccScaling w = 0 ∨ ccAmax w then [] else [(a.grid + 4 * b0, 4 * (bn - b0))]
  let records := if none_ ∨ ccScaling w < 2 then [] else [(a.records + 16 * b0, 16 * (bn - b0))]
  (rows ++ noise ++ grid ++ records,
    if !none_ ∧ !j.f.fromPass ∧ (j.f.srcAcc ∨ j.f.accTiled) then [(j.src, j.rows * j.tiles)] else [])

/-- The chunk lists that a pass of the array or of the matrix-vector unit reads, and the rows of its destination, hold it up no longer, and no word
of them is uncorrectable: nothing of the core is outstanding and no stored word has an error (R95, R530). -/
def PassFree (s : State) (c : Nat) : Prop := (s.core c).passes = [] ∧ s.mem.sramRaw = []

/-- A pass has joined a unit and the core goes on; registers and memories are as before (R95, R96). -/
def PassQueued (s t : State) (c unit : Nat) (post : PostField) (P : Pass → Prop) : Prop :=
  let x := s.core c
  let y := t.core c
  ∃ q : Pass, y.passes = x.passes ++ [q] ∧ q.id = x.nextId ∧ q.unit = unit ∧ q.post = post ∧ q.clm = [] ∧ y.pc = x.pc + 1 ∧
    y.regs = x.regs ∧ y.clm = x.clm ∧ y.acc = x.acc ∧ y.wide = x.wide ∧
    y.posts = x.posts ++ (match post with | some k => [(q.id, k)] | none => []) ∧ P q

/-- A CAST has nothing that halts or holds it (R139, R214, R221, R226, R257): its control word, operands, sizes, scales and ranges are right. -/
structure CastReady (s : State) (c : Nat) (j : RowJob) : Prop where
  tiles : j.f.accTiled = true → j.f.fromPass = false →
    1 ≤ j.len ∧ j.len ≤ 512 ∧ 1 ≤ j.rows ∧ j.rows ≤ 128 ∧ j.src + j.tiles * j.rows ≤ 512
  word : ccOk j.pv (j.f.param.toNat % 16) (j.f.param.toNat / 16) j.len = true
  base : j.f.p.val ≤ 12
  args : ccScaling j.pv ≠ 0 → castArgsOk (s.core c) j.f.p.val = true
  oldest : fromPassOk (s.core c) j = true
  inside : (∀ r ∈ (castReads (s.core c) j).1, r.1 + r.2 ≤ 0x400000) ∧ (∀ r ∈ (castReads (s.core c) j).2, r.1 + r.2 ≤ 512) ∧
    (j.len = 0 ∨ j.rows = 0 ∨ ccAmax j.pv = true ∨
      (j.dst + castSpan j ≤ (if ccDest j.pv = 8 ∨ ccDest j.pv = 9 then 0x3C0000 else 0x400000) ∧
        (ccDest j.pv = 8 ∨ ccDest j.pv = 9 → j.dst % 256 = 0)))
  idle : (s.core c).passes = []
  sound : s.mem.sramRaw = []
  noise : j.f.param.toNat / 16 ≠ 4 ∨
    (field ((s.core c).clmBytes (noiseAt (ccSlot j.pv)) 32) 24 2 ≠ 0 ∧
      noiseIndex ((s.core c).clmBytes (noiseAt (ccSlot j.pv)) 32) (j.rows - 1) (j.len - 1) < 2 ^ 48)
  scales : ccScaling j.pv = 0 ∨ ∃ l, openBlocks (s.core c) j.pv (castArgs (s.core c) j.f.p.val)
    (castBlocks (castArgs (s.core c) j.f.p.val) j.rows j.len) = .ok l

/-- Port p is in service and accepts this flit of kind k: its header has no reserved encoding and, if it is sequenced, it is the next one
(R382, R383). -/
def Accepts (s : State) (p : Port) (f : Flit) (k : Nat) : Prop :=
  s.inService p.val = true ∧ f.kind.toNat = k ∧ badHeader f = false ∧ (sequenced k = true → f.seq.toNat = (s.port p.val).rxSeq)

/-- No open flit waits on any port for an open transfer's place (R399). -/
def NothingWaits (s : State) : Prop := ∀ q, (s.port q).waiting = []

/-- No descriptor of any core waits to request or to send anything. -/
def QuietMovers (s : State) : Prop := ∀ c, ∀ m ∈ (s.core c).moves, m.reads = [] ∧ m.writes = []

/-- The open flits in VC v of a port's queue. -/
def vcQueue (s : State) (p v : Nat) : List Flit := ((s.port p).vcs.getD v []).map Prod.fst

/-- A message m of the session in slot k leaves: on the management port it joins those that the line takes; in band it waits while no tag is free, and
else goes out at once, with nothing before it and a route to the host, as one record in a HOSTMSG on the session's channel (R407, R440). -/
def Leaves (s u : State) (k : Nat) (x y : Session) (m : List Byte) : Prop :=
  (k < 4 ∨ freeTag s = none → y.sent = x.sent ++ [m]) ∧
  ∀ tag q, 4 ≤ k → freeTag s = some tag → x.sent = [] → routePort s s.device 0xFFFF = some q → (s.port q).vcs.length = 6 →
    y.sent = [] ∧ y.records = x.records + 1 ∧ vcQueue u q 3 = vcQueue s q 3 ++ hostFlits s tag x.channel (sealed x m)

/-- A session's write request is taken up at t (R440 to R443, R458, R461): the session is open and chose the version that the message names, Galena
answers it, the request ID is newer than its last and not among the kept ones, no access of a later rank of the same time has been taken, Galena's memory
reads without an error, and the log takes entries with no write waiting before this one. -/
structure SessionWrite (s : State) (slot : Fin 8) (req : W32) (ver : Byte) (t : FTime) : Prop where
  time : s.now ≤ t
  reachable : reachable s slot.val = true
  order : overtaken { s with now := t } (slotRank slot.val) = false
  memory : mgmtRead { s with now := t } = ({ s with now := t }, false)
  session : ∃ x, s.session slot.val = some x ∧ x.chosen = some ver ∧ x.dead = false ∧ newer x.last req = true ∧
    (x.kept.find? fun k => decide (k.1 = req)) = none
  log : s.audit.failed = false ∧ s.audit.waiting.length < 64 ∧ s.audit.held = []

/-- One audit entry has been made, with the next sequence number, and the write's answer with this status waits for it to be durable (R457). -/
def Logged (s u : State) (slot : Fin 8) (req : W32) (status : Nat) : Prop :=
  u.audit.made = s.audit.made + 1 ∧
  ∃ e x, s.session slot.val = some x ∧ u.audit.waiting = s.audit.waiting ++ [(e, .fdp slot x.sid req (BitVec.ofNat 8 status))] ∧
    field e 16 4 = s.audit.made % 2 ^ 32

/-- The write command i of a session ends with this status, logged, in a state of which P holds. -/
def Gives (s : State) (i : Instr) (slot : Fin 8) (req : W32) (status : Nat) (P : State → Prop) : Prop :=
  ∃ u, exec i s = .next u ∧ Logged s u slot req status ∧ P u

/-- What a refused write leaves alone: everything but time, sessions with the records that wait for Galena, and the log. -/
def Untouched (s u : State) : Prop :=
  u.ctl = s.ctl ∧ u.dict = s.dict ∧ u.octs = s.octs ∧ u.cores = s.cores ∧ u.mem = s.mem ∧ u.run = s.run ∧ u.power = s.power ∧
    { u.links with galenaIn := s.links.galenaIn } = s.links ∧ u.coll = s.coll ∧ u.time = s.time ∧ u.mfe = s.mfe ∧ u.video = s.video ∧ u.trust = s.trust ∧ u.pages = s.pages ∧
    u.regions = s.regions ∧ u.work = s.work

/-- A started mover descriptor of core c writes bytes b to an entry through the map, and Galena takes the write up at t (R174, R437, R458). -/
structure ProgramWrite (s : State) (c : Core) (index sub : Nat) (b : List Byte) (t : FTime) : Prop where
  time : s.now ≤ t
  up : s.ctl.galenaHeld = false
  order : overtaken { s with now := t } (2 + c.val) = false
  writer : (mapWriter s c.val index sub b).isSome = true
  log : s.audit.failed = false ∧ s.audit.waiting.length < 64 ∧ s.audit.held = []

/-- No stored unit of HBM and no word of a cached line has an error (R525, R531). -/
def HbmSound (s : State) : Prop := s.mem.hbmRaw = [] ∧ ∀ x ∈ s.mem.cache, x.bad = []

/-- The page area lies in HBM, and every mapped page names granules that exist (R286, R287). -/
def PagesSound (s : State) : Prop :=
  pageBase s ≠ 0 ∧ pageBase s + areaBytes s ≤ hbmSize ∧ granuleCount s ≤ 0x400000 ∧
  ∀ k j, k < 256 → j < pageEntries s → (entryAt s k j).mapped = true → (entryAt s k j).first + 2 ^ (entryAt s k j).size ≤ granuleCount s

/-- Entry number q of the log, durable or waiting (R457, R458). -/
def logEntry (a : Audit) (q : Nat) : List Byte :=
  if q < durable a then sget [] a.ring (q % 1048576) else ((a.waiting.map Prod.fst).getD (q - durable a) [])

/-- The chain after entry q − 1: 16 zero bytes before the first entry of the module's life (R459). -/
def chainBefore (a : Audit) (q : Nat) : List Byte := if q = 0 then List.replicate 16 0 else slice (logEntry a (q - 1)) 48 16

/-- The kept entries are 64 bytes each and numbered in order; each one's last 16 bytes are the hash of the chain before it and its own first 48; and the
log goes on from its last entry (Table 15-13, R459). -/
def AuditChained (a : Audit) : Prop :=
  a.waiting.length ≤ a.made ∧ a.chain = chainBefore a a.made ∧
  ∀ q, q < a.made → durable a ≤ q + 1048576 →
    (logEntry a q).length = 64 ∧ field (logEntry a q) 16 4 = q % 2 ^ 32 ∧
    (q = 0 ∨ durable a < q + 1048576 →
      slice (logEntry a q) 48 16 = padTo 16 (Config.sha384 (chainBefore a q ++ (logEntry a q).take 48)))

/-- A step ends safely: with a next state. The one fault is an input voltage outside the ratings, the one refusal an instruction
that no program can hold. -/
def Safe (o : Out) : Prop := ∃ t, o = .next t

end Sys2Proof.Machine
end

