-- ==== Sys2Proof/Certificates/Slice0/Obligations.lean ====
section
/-!
DEFINITION. The statements for the provers: what the commands of each family do to the module, what every step keeps, and the codes and maps that the
stored data rest on. A value that the spec leaves open is free in each of them.
-/
open Sys2Proof Sys2Proof.Machine

/-- Table 4-2 for the instructions that only set a register, a pad or nothing: NOP, RDL, MOVI, MOVHI, ALU, CDIV and SETPAD go on to the next
instruction with exactly the result of the table, and change nothing else in the module. -/
def Obligations.ScalarResults : Prop :=
  ∀ (s : State) (c : Core) (d a : Reg) (imm : W32) (k : Fin 4) (op : AluOp),
    let x := s.core c.val
    let goes (y : CoreS) : Out := .next (s.setCore c.val { y with pc := x.pc + 1 })
    let sets (o : Out) (P : W64 → Prop) : Prop := ∃ v, P v ∧ o = goes { x with regs := regsAfter x d v }
    (Issuing s c.val (iw 0x01 0 0) → exec (.nop c) s = goes x) ∧
    (Issuing s c.val (iw 0x07 k.val (fd d)) →
      sets (exec (.rdl c k d) s) fun v => v.toNat = (x.counters.getD k.val 0).toNat) ∧
    (Issuing s c.val (iw 0x10 0 (fd d + fi imm)) → sets (exec (.movi c d imm) s) fun v => v.toInt = imm.toInt) ∧
    (Issuing s c.val (iw 0x11 0 (fd d + fi imm)) →
      sets (exec (.movhi c d imm) s) fun v => v.toNat = imm.toNat * 2 ^ 32 + (x.reg d).toNat % 2 ^ 32) ∧
    (imm ≠ 0 → imm.toNat ≤ 2 ^ 31 → Issuing s c.val (iw 0x13 0 (fd d + fa a + fi imm)) →
      sets (exec (.cdiv c d a imm) s) fun v =>
        (x.reg a).toNat ≤ v.toNat * imm.toNat ∧ v.toNat * imm.toNat < (x.reg a).toNat + imm.toNat) ∧
    (Issuing s c.val (iw 0x21 k.val (fi imm)) → exec (.setpad c k imm) s = goes { x with pads := x.pads.set k.val imm }) ∧
    (∀ (rhs : AluB),
      let right : W64 := match rhs with | .reg b => x.reg b | .imm v => v.signExtend 64
      let left := x.reg a
      let n := right.toNat % 64
      Issuing s c.val (iw 0x12 (aluCode op + (match rhs with | .reg _ => 0 | .imm _ => 16))
        (fd d + fa a + (match rhs with | .reg b => fb b | .imm v => fi v))) →
      sets (exec (.alu c op d a rhs) s) fun v =>
        match op with
        | .add => v.toNat = (left.toNat + right.toNat) % 2 ^ 64
        | .sub => v.toNat = (left.toNat + 2 ^ 64 - right.toNat) % 2 ^ 64
        | .mul => v.toNat = left.toNat * right.toNat % 2 ^ 64
        | .and => ∀ i, v.getLsbD i = (left.getLsbD i && right.getLsbD i)
        | .or => ∀ i, v.getLsbD i = (left.getLsbD i || right.getLsbD i)
        | .xor => ∀ i, v.getLsbD i = (left.getLsbD i ^^ right.getLsbD i)
        | .shl => v.toNat = left.toNat * 2 ^ n % 2 ^ 64
        | .shr => v.toNat = left.toNat / 2 ^ n
        | .sar => v.toInt = left.toInt / 2 ^ n
        | .minu => v.toNat = Nat.min left.toNat right.toNat
        | .maxu => v.toNat = Nat.max left.toNat right.toNat
        | .mins => v.toInt = min left.toInt right.toInt
        | .maxs => v.toInt = max left.toInt right.toInt)

/-- HALT, PROGRAM_END, BR and BRC (R116, R121): HALT lets the queued instructions retire; PROGRAM_END ends the program once they have; a branch
adds its signed offset to the program counter, and a BRC whose condition fails goes on. Nothing else changes. LOOP and ENDL (R122, R123): a
planned count of 0 passes over the body; otherwise a level is opened, in skip mode where it lies in skip mode or its live count is 0, and
its counter is 0; ENDL counts up and runs the body again until the planned count is reached, skipping from the live count on, and then
closes the level with the counter at the planned count. -/
def Obligations.ControlFlow : Prop :=
  (∀ (s : State) (c : Core) (a b : Reg) (imm : W32) (k : Cond),
     let x := s.core c.val
     let goTo (n : Nat) : Out := .next (s.setCore c.val { x with pc := n })
     let u := x.reg a
     let v := x.reg b
     let taken : Prop :=
       match k with
       | .eq => u = v | .ne => u ≠ v | .lt => u.toInt < v.toInt | .ge => v.toInt ≤ u.toInt
       | .ltu => u.toNat < v.toNat | .geu => v.toNat ≤ u.toNat
     (Issuing s c.val (iw 0x02 0 0) → exec (.halt c) s = .next (s.setCore c.val { x with wait := .halt, waitSince := s.now })) ∧
     (s.running = true → x.wait = .halt → x.passes = [] → (∀ m ∈ x.moves, m.retired = true) → x.posts = [] →
       exec (.programEnd c) s = .next (s.setCore c.val { x with status := 4, wait := .none })) ∧
     (∀ n : Nat, (n : Int) = (x.pc : Int) + imm.toInt →
       (Issuing s c.val (iw 0x03 0 (fi imm)) → exec (.br c imm) s = goTo n) ∧
       (Issuing s c.val (iw 0x04 (condCode k) (fa a + fb b + fi imm)) → taken → exec (.brc c k a b imm) s = goTo n)) ∧
     (Issuing s c.val (iw 0x04 (condCode k) (fa a + fb b + fi imm)) → ¬ taken → exec (.brc c k a b imm) s = goTo (x.pc + 1))) ∧
  (∀ (s : State) (c : Core) (counter : Option (Fin 4)) (live : Option Reg) (planned : W32),
     let x := s.core c.val
     let w := iw 0x05 ((match counter with | some k => k.val + 4 | none => 0) + (if live.isSome then 8 else 0))
       ((match live with | some a => fa a | none => 0) + fi planned)
     let outer : Bool := x.loops.any fun l => l.skipping
     let n : Nat := if outer then planned.toNat else match live with | some a => (x.reg a).toNat | none => planned.toNat
     (Issuing s c.val w → planned = 0 → n = 0 →
       exec (.loop c counter live planned) s =
         .next (s.setCore c.val { x with pc := afterEndl x.program x.program.length (x.pc + 1) 1 })) ∧
     (Issuing s c.val w → planned ≠ 0 → n ≤ planned.toNat →
       ∃ l : LoopL, l.body = x.pc + 1 ∧ l.planned = planned ∧ l.live.toNat = n ∧ l.index = 0 ∧ l.counter = counter ∧
         l.skipping = (outer || decide (n = 0)) ∧
         exec (.loop c counter live planned) s = .next (s.setCore c.val { x with
           loops := l :: x.loops, pc := x.pc + 1
           counters := match counter with | some k => x.counters.set k.val 0 | none => x.counters })) ∧
     (∀ (l : LoopL) (r : List LoopL), Issuing s c.val (iw 0x06 0 0) → x.loops = l :: r → l.index.toNat < l.planned.toNat →
       exec (.endl c) s =
         if l.index.toNat + 1 < l.planned.toNat then
           .next (s.setCore c.val { x with
             loops := { l with index := l.index + 1,
                               skipping := (r.any fun l => l.skipping) || decide (l.live.toNat ≤ l.index.toNat + 1) } :: r
             counters := (match l.counter with | some k => x.counters.set k.val (l.index + 1) | none => x.counters)
             pc := l.body })
         else
           .next (s.setCore c.val { x with
             loops := r, pc := x.pc + 1
             counters := match l.counter with | some k => x.counters.set k.val l.planned | none => x.counters })))

/-- LD and ST (Table 4-2): an aligned access inside core-local memory that no earlier instruction holds up. LD gives the register the
little-endian value of the bytes read, zero-extended; ST stores the low bytes of its register at exactly the addresses from a + imm on.
Beside the program counter nothing else of the cores changes, and no byte of HBM does. An invalid operand (R121): an LD or ST outside
core-local memory or misaligned, a WCINIT limit above `0xFFFF_FFFD`, a WAIT target above `0xFFFF_FFFF`; and, by the model's choice (log
entry 157: R120 refuses such programs at arming), a branch before the first instruction and an ENDL without a loop. The core halts by fault
with its program counter at the instruction, and INSTR_INVALID (`0x5103`) is raised with the fabric time and the device address of the
module. -/
def Obligations.LoadStoreAndInvalidOperands : Prop :=
  (∀ (s : State) (c : Core) (size : MemSize) (d a b : Reg) (imm : W32) (v : Nat),
     let x := s.core c.val
     let n := sizeBytes size
     (v : Int) = ((x.reg a).toNat : Int) + imm.toInt → v % n = 0 → v + n ≤ 0x400000 →
     (Issuing s c.val (iw 0x14 (sizeCode size) (fd d + fa a + fi imm)) → held x 9 (clmUnits v n) [] = false →
       (sramReadCheck s 2 c.val v n).2 = false →
       ∃ t r, exec (.ld c size d a imm) s = .next t ∧
         r.toNat = (List.range n).foldr (fun i m => (sget 0 x.clm (v + i)).toNat + 256 * m) 0 ∧
         t.core c.val = { x with regs := regsAfter x d r, pc := x.pc + 1 } ∧
         (∀ k, k ≠ c.val → t.core k = s.core k) ∧ t.mem.hbm = s.mem.hbm) ∧
     (Issuing s c.val (iw 0x15 (sizeCode size) (fa a + fb b + fi imm)) → held x 9 [] (clmUnits v n) = false →
       ∃ t, exec (.st c size a b imm) s = .next t ∧
         (∀ i, i < n → sget 0 (t.core c.val).clm (v + i) = BitVec.ofNat 8 ((x.reg b).toNat / 256 ^ i)) ∧
         (∀ j, j < v ∨ v + n ≤ j → sget 0 (t.core c.val).clm j = sget 0 x.clm j) ∧
         t.core c.val = { x with clm := (t.core c.val).clm, pc := x.pc + 1 } ∧
         (∀ k, k ≠ c.val → t.core k = s.core k) ∧ t.mem.hbm = s.mem.hbm)) ∧
  (∀ (s : State) (c : Core) (size : MemSize) (d a b : Reg) (imm : W32) (counter : Byte) (sem : Sem),
     let x := s.core c.val
     let v : Int := ((x.reg a).toNat : Int) + imm.toInt
     let outside : Prop := v < 0 ∨ 0x400000 < v + sizeBytes size ∨ v % sizeBytes size ≠ 0
     let halts (i : Instr) : Prop := ∃ t, exec i s = .next t ∧ (t.core c.val).status = 5 ∧ (t.core c.val).pc = x.pc ∧
       ∃ e ∈ t.ev.raised, e.code = 0x5103 ∧ e.time = s.now ∧ e.device = BitVec.ofNat 16 s.device
     (Issuing s c.val (iw 0x14 (sizeCode size) (fd d + fa a + fi imm)) → outside → halts (.ld c size d a imm)) ∧
     (Issuing s c.val (iw 0x15 (sizeCode size) (fa a + fb b + fi imm)) → outside → halts (.st c size a b imm)) ∧
     (Issuing s c.val (iw 0x03 0 (fi imm)) → (x.pc : Int) + imm.toInt < 0 → halts (.br c imm)) ∧
     (Issuing s c.val (iw 0x06 0 0) → x.loops = [] → halts (.endl c)) ∧
     (Issuing s c.val (iw 0x23 0 (fa a + counter.toNat * 2 ^ 32)) → 0xFFFFFFFD < (x.reg a).toNat → halts (.wcinit c a counter)) ∧
     (Issuing s c.val (iw 0x50 0 (sem.val * 2 ^ 42 + a.val * 2 ^ 38 + fi imm)) → 0xFFFFFFFF < (x.reg a).toNat + imm.toNat →
       halts (.wait c sem a imm)))

/-- The handles of work counters (R132 to R135): WCBIND, WCINIT and TAKE wait for the home die; a TAKE in skip mode gives EXHAUSTED at once. The
home die binds a handle to its epoch, starts the next epoch at WCINIT, hands out whole chunks up to the limit, then EXHAUSTED, and answers a
handle of another epoch with STALE, counting it. -/
def Obligations.WorkCounters : Prop :=
  ∀ (s : State) (c : Core) (d a : Reg) (imm : W32) (counter : Byte),
    let x := s.core c.val
    let h := (x.reg a).toNat
    let waits (w : WaitFor) : Out :=
      .next (s.setCore c.val { x with status := 3, wait := w, waitSince := s.now, waitRaised := false })
    let serves (i : Instr) (P : State → W64 → Prop) (e : Reg) : Prop := ∃ t v, exec i s = .next t ∧ P t v ∧
      (t.core c.val).status = 2 ∧ (t.core c.val).wait = .none ∧ (t.core c.val).pc = x.pc + 1 ∧
      (t.core c.val).regs = regsAfter x e v
    let skips : Bool := x.loops.any fun l => l.skipping
    (Issuing s c.val (iw 0x22 0 (fd d + counter.toNat * 2 ^ 32)) → exec (.wcbind c d counter) s = waits (.wcbind d counter.toNat)) ∧
    (Issuing s c.val (iw 0x23 0 (fa a + counter.toNat * 2 ^ 32)) → h ≤ 0xFFFFFFFD →
      exec (.wcinit c a counter) s = waits (.wcinit counter.toNat (BitVec.ofNat 32 h))) ∧
    (imm ≠ 0 → imm.toNat ≤ 65536 → Issuing s c.val (iw 0x24 0 (fd d + fa a + fi imm)) →
      (skips = true → exec (.take c d a imm) s =
        .next (s.setCore c.val { x with regs := regsAfter x d 0xFFFFFFFF#64, pc := x.pc + 1 })) ∧
      (skips = false → h / 256 % 256 = 0 → h < 2 ^ 32 →
        exec (.take c d a imm) s = waits (.take d (h % 256) imm.toNat (BitVec.ofNat 16 (h / 65536))))) ∧
    (∀ (e : Reg) (k : Nat), s.running = true → x.wait = .wcbind e k →
      serves (.wcbindServe c) (fun t v => v.toNat = (k + (s.wc k).epoch * 65536) % 2 ^ 64 ∧ t.work = s.work) e) ∧
    (∀ (k : Nat) (limit : W32), s.running = true → x.wait = .wcinit k limit →
      serves (.wcinitApply c) (fun t _ =>
        t.wc k = { value := 0, limit := limit.toNat, epoch := ((s.wc k).epoch + 1) % 65536 } ∧ ∀ j, j ≠ k → t.wc j = s.wc j) 0) ∧
    (∀ (e : Reg) (k n : Nat) (epoch : W16), s.running = true → x.wait = .take e k n epoch →
      let w := s.wc k
      (w.epoch ≠ epoch.toNat → serves (.takeServe c) (fun t v => v = 0xFFFFFFFE#64 ∧ t.work = s.work ∧
        t.ent 0x5130 1 = (s.ent 0x5130 1 + 1) % 2 ^ 32) e) ∧
      (w.epoch = epoch.toNat → w.limit ≤ w.value → serves (.takeServe c) (fun t v => v = 0xFFFFFFFF#64 ∧ t.work = s.work ∧
        t.ent 0x5130 2 = (s.ent 0x5130 2 + 1) % 2 ^ 64) e) ∧
      (w.epoch = epoch.toNat → w.value < w.limit → serves (.takeServe c) (fun t v => v = BitVec.ofNat 64 w.value ∧
        t.wc k = { w with value := Nat.min (w.value + n) w.limit } ∧ ∀ j, j ≠ k → t.wc j = s.wc j) e))

/-- WAIT and WAITFT (R157, R158) hold the core until its semaphore has the target, or fabric time has come; the release goes on to the next
instruction and leaves the core's registers, memory and semaphores as they are. WAIT_LONG (R159) raises `0x5504` once for a wait longer than
the threshold. POST and POST_FIELD_APPLY (R117, R151, R154, R155): once every earlier instruction of the core has retired, a post raises its
semaphore, stops at 2^32 − 1 with SEM_OVERFLOW (R153), and is discarded and counted on a landing semaphore; a post to another module leaves
as one POST flit on the route, with a request open until it is answered. -/
def Obligations.WaitingAndPosting : Prop :=
  (∀ (s : State) (c : Core) (sem : Sem) (a : Reg) (imm : W32) (t : FTime),
     let x := s.core c.val
     let target := (x.reg a).toNat + imm.toNat
     let waits (w : WaitFor) : Out :=
       .next (s.setCore c.val { x with status := 3, wait := w, waitSince := s.now, waitRaised := false })
     let released (u : State) : Prop := u.core c.val = { x with status := 2, wait := .none, pc := x.pc + 1 } ∧
       ∀ k, k ≠ c.val → u.core k = s.core k
     (Issuing s c.val (iw 0x50 0 (sem.val * 2 ^ 42 + a.val * 2 ^ 38 + fi imm)) → target < 2 ^ 32 →
       exec (.wait c sem a imm) s = waits (.sem sem (BitVec.ofNat 64 target))) ∧
     (Issuing s c.val (iw 0x52 0 (a.val * 2 ^ 38 + fi imm)) → target < 2 ^ 64 →
       exec (.waitft c a imm) s = waits (.time (BitVec.ofNat 64 target))) ∧
     (∀ g : W64, s.running = true → x.wait = .sem sem g →
       (g.toNat ≤ s.sem c.val sem.val → ∃ u, exec (.waitRelease c) s = .next u ∧ released u) ∧
       (s.sem c.val sem.val < g.toNat → exec (.waitRelease c) s = .next s)) ∧
     (∀ g : FTime, s.running = true → x.wait = .time g → s.now ≤ t →
       (g ≤ t → ∃ u, exec (.waitftRelease t c) s = .next u ∧ u.now = t ∧ released u) ∧
       (t < g → exec (.waitftRelease t c) s = .next { s with now := t })) ∧
     (s.running = true → s.now ≤ t → x.status = 3 → x.waitRaised = false → s.ent 0x5510 3 ≠ 0 →
       x.waitSince.toNat + s.ent 0x5510 3 * 1000000 < t.toNat →
       ∃ u, exec (.waitLong t c) s = .next u ∧ u.core c.val = { x with waitRaised := true } ∧
         u.ent 0x5520 2 = (s.ent 0x5520 2 + 1) % 2 ^ 32 ∧ ∃ e, u.ev.raised = s.ev.raised ++ [e] ∧ e.code = 0x5504 ∧ e.time = t)) ∧
  (∀ (s : State) (c : Core) (sem : Sem) (a : Reg) (imm : W32),
     let x := s.core c.val
     let word (remote : Bool) : W64 := iw 0x51 (if remote then 1 else 0) (sem.val * 2 ^ 42 + a.val * 2 ^ 38 + fi imm)
     let settled : Prop := x.passes = [] ∧ (∀ m ∈ x.moves, m.retired = true) ∧ x.posts = []
     let t := (x.reg a).toNat
     let dev := t % 65536
     let core := t / 65536 % 1024
     let raised (o : Out) (k j n : Nat) : Prop := ∃ u, o = .next u ∧
       (s.isLanding k j = false → s.sem k j + n < 2 ^ 32 → u.sem k j = s.sem k j + n) ∧
       (s.isLanding k j = false → 2 ^ 32 ≤ s.sem k j + n → u.sem k j = 2 ^ 32 - 1 ∧ ∃ e ∈ u.ev.raised, e.code = 0x5503) ∧
       (s.isLanding k j = true → u.sem k j = s.sem k j ∧ u.ent 0x5520 1 = (s.ent 0x5520 1 + n) % 2 ^ 32) ∧
       (∀ i m, (i ≠ k ∨ m ≠ j) → u.sem i m = s.sem i m)
     (Issuing s c.val (word false) → settled → imm ≠ 0 → raised (exec (.post c false sem a imm) s) c.val sem.val imm.toNat) ∧
     (Issuing s c.val (word false) → settled → ∃ u, exec (.post c false sem a imm) s = .next u ∧ (u.core c.val).pc = x.pc + 1) ∧
     (Issuing s c.val (word true) → settled → t < 2 ^ 26 → core ≤ 191 → dev / 32 ≤ 319 → dev = s.device →
       raised (exec (.post c true sem a imm) s) core sem.val 1) ∧
     (∀ tag p : Nat, Issuing s c.val (word true) → settled → t < 2 ^ 26 → core ≤ 191 → dev / 32 ≤ 319 → dev ≠ s.device →
       freeTag s = some tag → routePort s s.device dev = some p →
       ∃ u f, exec (.post c true sem a imm) s = .next u ∧ (u.core c.val).pc = x.pc + 1 ∧
         (u.port p).vcs = (s.port p).vcs.set 0 ((s.port p).vcs.getD 0 [] ++ [(f, none)]) ∧ f.kind = 7 ∧ f.dst.toNat = dev ∧
         field f.payload 0 2 = core ∧ field f.payload 2 1 = sem.val ∧
         ∃ r, sget none u.links.requests tag = some r ∧ r.dst.toNat = dev ∧ r.kind = .post) ∧
     (∀ (id : Nat) (k : Sem), s.running = true → (x.posts.find? fun p => decide (p.1 = id)) = some (id, k) →
       (∀ q ∈ x.posts.takeWhile (fun q => !decide (q.1 = id)), q.2 ≠ k) → (∀ q ∈ x.passes, q.id ≠ id) →
       (∀ m ∈ x.moves, m.id = id → m.retired = true) →
       raised (exec (.postFieldApply c id) s) c.val k.val 1))

/-- SHAPE (R124, R126, R174): the core waits for the 32-bit value at a + imm, read here or at another module; the value goes to the register,
zero-extended, and to its shape slot, unless it is above the slot's planned maximum: then the core halts with SHAPE_OVER (`0x5101`). -/
def Obligations.ShapeValues : Prop :=
  ∀ (s : State) (c : Core) (d a : Reg) (slot : Fin 64) (imm : W32) (g : Nat),
    let x := s.core c.val
    let w := iw 0x20 0 (fd d + fa a + slot.val * 2 ^ 32 + fi imm)
    let n := match shapeEntry g with | some n => if n < 4 then n else 4 | none => 4
    let side := resolve s (gDev g) (gLocal g) n false
    (∀ l, Issuing s c.val w → (g : Int) = ((x.reg a).toNat : Int) + imm.toInt → g < 2 ^ 64 → g % 4 = 0 → side = .own l →
      held x 9 (execShape.mvShapeUnits c.val l) [] = false →
      exec (.shape c d a slot imm) s =
        .next (s.setCore c.val { x with status := 3, wait := .shape slot.val g d none, waitSince := s.now, waitRaised := false })) ∧
    (∀ dev l tag p, Issuing s c.val w → (g : Int) = ((x.reg a).toNat : Int) + imm.toInt → g < 2 ^ 64 → g % 4 = 0 →
      side = .far dev l → dev < 0xFFFF → freeTag s = some tag → routePort s s.device dev = some p →
      ∃ u r, exec (.shape c d a slot imm) s = .next u ∧ (u.core c.val).wait = .shape slot.val g d none ∧ (u.core c.val).pc = x.pc ∧
        sget none u.links.requests tag = some r ∧ r.kind = .read ∧ r.bytes = 4) ∧
    (∀ (k : Nat) (v : W32) (h : Nat), s.running = true → x.wait = .shape k h d (some v) →
      (v.toNat ≤ s.ent 0x5110 (k + 1) → ∃ u, exec (.shapeValueArrival c) s = .next u ∧
        (u.core c.val).regs = regsAfter x d (v.setWidth 64) ∧ sget 0 (u.core c.val).shapes k = v ∧
        (u.core c.val).status = 2 ∧ (u.core c.val).pc = x.pc + 1) ∧
      (s.ent 0x5110 (k + 1) < v.toNat → ∃ u, exec (.shapeValueArrival c) s = .next u ∧
        (u.core c.val).status = 5 ∧ (u.core c.val).regs = x.regs ∧ ∃ e ∈ u.ev.raised, e.code = 0x5101)) ∧
    (∀ (k l : Nat) (b : List Byte) (q : State), s.running = true → x.wait = .shape k g d none →
      resolve s (gDev g) (gLocal g) ((shapeEntry g).getD 4) false = .own l → ownRead s l ((shapeEntry g).getD 4) true = (b, q, false) → s.audit.held = [] →
      (BitVec.ofNat 32 (ofLe b)).toNat ≤ s.ent 0x5110 (k + 1) →
      ∃ u, exec (.shapeValueArrival c) s = .next u ∧
        (u.core c.val).regs = regsAfter x d (BitVec.ofNat 64 (ofLe b % 2 ^ 32)) ∧ (u.core c.val).pc = x.pc + 1)

/-- The elementwise RFUNCs (R104, R106, R110, R119): outside skip mode, with nothing to halt or hold them, they queue a pass to the row unit
whose results are those of the function, element by element, rounded once to the output format; in skip mode they only go on. -/
def Obligations.ElementwiseFunctions : Prop :=
  ∀ (s : State) (c : Core) (f : RFuncF),
    let x := s.core c.val
    let table : Nat := storeActs (f.param.toNat - 0x10)
    let oneWith (stores : List (Nat × Nat)) (mk : Core → RFuncF → Instr) (op : Nat) (fn : RowJob → W32 → FNum) : Prop :=
      let j := rowJob x op f
      rfOk op f = true → Issuing s c.val (rfuncWord op f) → Skipping s c.val = false →
      RowReady s c.val j false [] [] [] j.len (if j.len = 0 ∨ j.rows = 0 then [] else stores) →
      ∃ t, exec (mk c f) s = .next t ∧ RowQueued s t c.val j ((rowInput x j).map fun r => r.map (fn j)) []
    let one := oneWith []
    let twoWith (stores : List (Nat × Nat)) (mk : Core → RFuncF → Instr) (op : Nat) (fn : RowJob → W32 → W32 → FNum) : Prop :=
      let j := rowJob x op f
      rfOk op f = true → Issuing s c.val (rfuncWord op f) → Skipping s c.val = false →
      RowReady s c.val j false (if j.len = 0 ∨ j.rows = 0 then [] else clmRows j.pv.toNat j.rows (4 * j.len)) [] [] j.len
        (if j.len = 0 ∨ j.rows = 0 then [] else stores) →
      ∃ t, exec (mk c f) s = .next t ∧
        RowQueued s t c.val j ((rowInput x j).zipIdx.map fun r => (r.1.zip (secondRow x j r.2)).map fun v => fn j v.1 v.2) []
    let two := twoWith []
    two .add 0x01 (fun _ a b => (ofF32 a).add (ofF32 b)) ∧
    two .mul 0x02 (fun _ a b => (ofF32 a).mul (ofF32 b)) ∧
    one .scale 0x03 (fun j a => (ofF32 a).mul (ofF32 (j.pv.setWidth 32))) ∧
    two .min 0x04 (fun _ a b => ofF32 (fmin a b)) ∧
    two .max 0x05 (fun _ a b => ofF32 (fmax a b)) ∧
    one .exp 0x06 (fun _ a => ofF32 (fexp a)) ∧
    one .log 0x07 (fun _ a => ofF32 (flog a)) ∧
    one .recip 0x08 (fun _ a => ofF32 (frecip a)) ∧
    one .rsqrt 0x09 (fun _ a => ofF32 (frsqrt a)) ∧
    two .div 0x0A (fun _ a b => ofF32 (fdivRow a b)) ∧
    (f.param.toNat < 0x10 → one .act 0x0B fun j a => (actVal f.param.toNat a (j.pv.setWidth 32)).val) ∧
    (0x10 ≤ f.param.toNat → actTable x f.param.toNat ≠ [] →
      oneWith [(table, 4128)] .act 0x0B fun _ a => (tableVal (actTable x f.param.toNat) 32 a).val) ∧
    (f.param.toNat < 0x10 → f.p.val < 15 →
      two .actd 0x0C fun _ a b => (actdVal f.param.toNat a b ((x.regs.getD (f.p.val + 1) 0).setWidth 32)).val) ∧
    (0x10 ≤ f.param.toNat → field (actTable x f.param.toNat) 1 1 = 1 → f.p.val < 15 →
      twoWith [(table, 32), (table + 4128, 4096)] .actd 0x0C fun _ a b =>
        (ofF32 a).mul (ofF32 (toF32 (tableVal (actTable x f.param.toNat) 4128 b).val))) ∧
    (∀ (i : Instr) (op : Nat), (i, op) ∈ [(Instr.add c f, 1), (.mul c f, 2), (.scale c f, 3), (.min c f, 4), (.max c f, 5), (.exp c f, 6),
        (.log c f, 7), (.recip c f, 8), (.rsqrt c f, 9), (.div c f, 10), (.act c f, 11), (.actd c f, 12), (.rowmax c f, 13), (.rowsum c f, 14),
        (.softmax c f, 15), (.softmaxd c f, 16), (.lnorm c f, 17), (.rmsnorm c f, 18)] →
      rfOk op f = true → Issuing s c.val (rfuncWord op f) → Skipping s c.val = true →
      ∃ t, exec i s = .next t ∧ (t.core c.val).pc = x.pc + 1 ∧ (t.core c.val).passes = x.passes ∧ (t.core c.val).regs = x.regs ∧
        (t.core c.val).clm = x.clm ∧ (t.core c.val).acc = x.acc)

/-- ROWMAX, ROWSUM and the composed functions (R103, R107, R130): outside POOL mode a reduction writes one element a row, the maximum or the sum
of the row, and the pad pattern or 0 for an empty one; SOFTMAX and SOFTMAXD with the attention block OFF, LNORM and RMSNORM write the row
that their steps give. The pad pattern is read as FP32 whatever the output format, and SOFTMAXD has no limit of length, by the model's
reading (log entry 55). -/
def Obligations.ReductionsAndNorms : Prop :=
  ∀ (s : State) (c : Core) (f : RFuncF),
    let x := s.core c.val
    let job (op : Nat) : RowJob := rowJob x op f
    let runs (op : Nat) : Prop := rfOk op f = true ∧ Issuing s c.val (rfuncWord op f) ∧ Skipping s c.val = false
    let flat : Prop := f.srcAcc || f.dstAcc || f.accTiled || f.fromPass
    let noPool : Prop := flat ∨ (held x 2 (clmUnits convBlockAt 64) [] = false ∧ cvMode x.conv ≤ 1 ∧
      readOnce s 2 c.val convBlockAt 64 = (s, false))
    let off : Prop := held x 2 (clmUnits attnAt 64) [] = false ∧ atPhase x.attn = 0 ∧ readOnce s 2 c.val attnAt 64 = (s, false)
    let second (j : RowJob) : List (Nat × Nat × Nat) := if j.len = 0 ∨ j.rows = 0 then [] else clmRows j.pv.toNat j.rows (4 * j.len)
    let g := (x.regs.getD (f.p.val + 1) 0).toNat
    (let j := job 0x0D;
      runs 0x0D → noPool → RowReady s c.val j true [] [] [] 1 →
      ∃ t, exec (.rowmax c f) s = .next t ∧ RowQueued s t c.val j
        ((rowInput x j).map fun r => [if r = [] then ofF32 (x.pads.getD f.pad.val 0) else ofF32 (rowMax r)]) []) ∧
    (let j := job 0x0E;
      runs 0x0E → noPool → RowReady s c.val j true [] [] [] 1 →
      ∃ t, exec (.rowsum c f) s = .next t ∧ RowQueued s t c.val j
        ((rowInput x j).map fun r => [if r = [] then ofF32 0 else ofF32 (rowSum r)]) []) ∧
    (let j := job 0x0F;
      runs 0x0F → off → RowReady s c.val j true [] [] [] j.len →
      ∃ t, exec (.softmax c f) s = .next t ∧ RowQueued s t c.val j
        ((rowInput x j).map fun r => (softmaxRow r).map RV.val) []) ∧
    (let j := job 0x10;
      runs 0x10 → off → RowReady s c.val j false (second j) [] [] j.len →
      ∃ t, exec (.softmaxd c f) s = .next t ∧ RowQueued s t c.val j
        ((rowInput x j).zipIdx.map fun r => (softmaxdRow r.1 (secondRow x j r.2)).map RV.val) []) ∧
    (let j := job 0x11;
      runs 0x11 → f.p.val < 15 → RowReady s c.val j true (if j.len = 0 ∨ j.rows = 0 then [] else [(g, 1, 8 * j.len)]) [] [] j.len →
      ∃ t, exec (.lnorm c f) s = .next t ∧ RowQueued s t c.val j
        ((rowInput x j).map fun r => (lnormRow (j.pv.setWidth 32) ((j.pv >>> 32).setWidth 32) (x.words g j.len)
          (x.words (g + 4 * j.len) j.len) r).map RV.val) []) ∧
    (let j := job 0x12;
      runs 0x12 → f.p.val < 15 → RowReady s c.val j true (if j.len = 0 ∨ j.rows = 0 then [] else [(g, 1, 4 * j.len)]) [] [] j.len →
      ∃ t, exec (.rmsnorm c f) s = .next t ∧ RowQueued s t c.val j
        ((rowInput x j).map fun r => (rmsnormRow (j.pv.setWidth 32) ((j.pv >>> 32).setWidth 32) (x.words g j.len) r).map RV.val) [])

/-- The attention phases (R276 to R281): with a valid block of the phase, STATS writes m, s and ℓ of each row to its table entry and no rows;
OUTPUT writes the probabilities of each row; DELTA writes the dot product of each row pair to its table entry; GRAD writes the score
gradients. -/
def Obligations.AttentionPhases : Prop :=
  ∀ (s : State) (c : Core) (f : RFuncF),
    let x := s.core c.val
    let b := x.attn
    let base := atBase b
    let runs (op phase : Nat) : Prop := rfOk op f = true ∧ Issuing s c.val (rfuncWord op f) ∧ Skipping s c.val = false ∧
      held x 2 (clmUnits attnAt 64) [] = false ∧ readOnce s 2 c.val attnAt 64 = (s, false) ∧ attnOk b = true ∧ atPhase b = phase ∧ f.accTiled = decide (phase ≠ 3) ∧
      base + (x.reg f.rows).toNat ≤ 128
    let table (j : RowJob) : List (Nat × Nat) := if j.len = 0 ∨ j.rows = 0 then [] else [(attnTable + 32 * base, 32 * j.rows)]
    let read (j : RowJob) : List (Nat × Nat × Nat) := (table j).map fun r => (r.1, 1, r.2)
    let second (j : RowJob) : List (Nat × Nat × Nat) := if j.len = 0 ∨ j.rows = 0 then [] else clmRows j.pv.toNat j.rows (4 * j.len)
    let entries (j : RowJob) (o : Nat) (v : Nat → List W32) : List (Nat × List Byte) :=
      (List.range j.rows).map fun r => (attnTable + 32 * (base + r) + o, (v r).flatMap fun w => le 4 w.toNat)
    (let j := rowJob x 0x0F f;
      runs 0x0F 1 → RowReady s c.val j false (read j) [] (table j) 0 →
      ∃ t, exec (.stats c f) s = .next t ∧ RowQueued s t c.val j [] (entries j 0 fun r =>
        let v := statsRow b (x.attnRow (base + r)) ((rowInput x j).getD r [])
        [v.1, v.2.1, v.2.2])) ∧
    (let j := rowJob x 0x0F f;
      runs 0x0F 2 → RowReady s c.val j false (read j) [] [] j.len →
      ∃ t, exec (.output c f) s = .next t ∧ RowQueued s t c.val j
        ((rowInput x j).zipIdx.map fun r => (outputRow b (x.attnRow (base + r.2)) r.1).map RV.val) []) ∧
    (let j := rowJob x 0x10 f;
      runs 0x10 3 → j.len = atDim b → RowReady s c.val j false (second j ++ read j) [] (table j) 0 →
      ∃ t, exec (.delta c f) s = .next t ∧ RowQueued s t c.val j [] (entries j 12 fun r =>
        [fadd 0 (rowSum ((((rowInput x j).getD r []).zip (secondRow x j r)).map fun v => fmul v.1 v.2))])) ∧
    (let j := rowJob x 0x10 f;
      let n := j.tiles * j.rows
      let score := atScore b
      runs 0x10 4 → (n = 0 ∨ ((f.fromPass = true ∨ score + n ≤ j.src ∨ j.src + n ≤ score) ∧ score + n ≤ 512)) →
      RowReady s c.val j false (read j) [(score, n)] [] j.len →
      ∃ t, exec (.grad c f) s = .next t ∧ RowQueued s t c.val j
        ((rowInput x j).zipIdx.map fun r =>
          (gradRow b (x.attnRow (base + r.2)) r.1 (accWords x j score r.2)).map RV.val) [])

/-- POOL mode (R301, R306): with a convolution block that keeps its limits, a ROWMAX or ROWSUM without flags queues a pass of one value a row:
the maximum over the window, or its sum times the reciprocal of the count, of all taps or of the valid ones. -/
def Obligations.Pooling : Prop :=
  ∀ (s : State) (c : Core) (f : RFuncF),
    let x := s.core c.val
    let b := x.conv
    let fmt := f.param.toNat % 16
    let size := if fmt = 3 then 4 else 2
    let taps (rows len : Nat) : List (Nat × Nat) := (List.range rows).flatMap fun r => (List.range len).filterMap fun k =>
      (tapAt b (field b 48 4 + r) (field b 56 2 + k)).map fun p => (planeAt b (field b 52 2) size p, size)
    let ready (op : Nat) : Prop :=
      let j := rowJob x op f
      let out := if j.rows = 0 then [] else [(j.dst, j.rows * outSize f)]
      rfOk op f = true ∧ Issuing s c.val (rfuncWord op f) ∧ Skipping s c.val = false ∧
      (f.srcAcc || f.dstAcc || f.accTiled || f.fromPass) = false ∧ held x 2 (clmUnits convBlockAt 64) [] = false ∧
      readOnce s 2 c.val convBlockAt 64 = (s, false) ∧ cvMode b = 2 ∧
      convFail b j.rows size true (decide (1 ≤ fmt ∧ fmt ≤ 3)) j.len = none ∧ rangesIn out [] = true ∧
      unitFull x 2 = false ∧ held x 2 (rangeUnits (taps j.rows j.len) []) (rangeUnits out []) = false ∧
      (checkRanges s c.val (taps j.rows j.len)).2 = false
    let tap (r k : Nat) : Option (Nat × Nat × Nat) := tapAt b (field b 48 4 + r) (field b 56 2 + k)
    let val (r k : Nat) : W32 :=
      match tap r k with
      | none => poolVal fmt (x.pads.getD (cvPad b) 0).toNat
      | some p => poolVal fmt (ofLe (x.clmBytes (planeAt b (field b 52 2) size p) size))
    let window (j : RowJob) (r : Nat) : List W32 := (List.range j.len).map (val r)
    let count (j : RowJob) (r : Nat) : Nat :=
      if Nat.testBit (field b 2 1) 0 then ((List.range j.len).filter fun k => (tap r k).isSome).length else j.len
    (ready 0x0D → let j := rowJob x 0x0D f
      ∃ t, exec (.poolRowmax c f) s = .next t ∧
        RowQueued s t c.val j ((List.range j.rows).map fun r => [ofF32 (rowMax (window j r))]) []) ∧
    (ready 0x0E → let j := rowJob x 0x0E f
      ∃ t, exec (.poolRowsum c f) s = .next t ∧
        RowQueued s t c.val j ((List.range j.rows).map fun r =>
          [if count j r = 0 then ofF32 0
           else ofF32 (fmul (rowSum (window j r)) (frecip (fOfInt (count j r))))]) [])

/-- CAST (R226 to R230): with nothing to halt or hold it, it queues a pass to the row unit and goes on, its memories unchanged until the pass
retires. Between floating formats without scales, each element of the input is rounded once, in the mode named, to the destination format,
and the pass counts the narrowed elements in the slot of the control word. -/
def Obligations.CastQueues : Prop :=
  ∀ (s : State) (c : Core) (f : RFuncF),
    let x := s.core c.val
    let j := rowJob x 0x13 f
    let inp := f.param.toNat % 16
    let mode := f.param.toNat / 16
    let d := ccDest j.pv
    let elem (r k : Nat) : FNum :=
      if f.fromPass || f.srcAcc || f.accTiled then ofF32 (((inputRows x j).getD r []).getD k 0)
      else castElem inp (ccZero j.pv) (x.clmBytes (j.src + r * roundUp (codeBytes inp j.len) 256) (codeBytes inp j.len)) k
    let code (r k : Nat) : Nat × NClass := narrow (codeFmt d 0) (rmodeOf mode 0) (elem r k)
    castFieldsOk f = true → Issuing s c.val (rfuncWord 0x13 f) →
    (Skipping s c.val = true → ∃ t, exec (.cast c f) s = .next t ∧ (t.core c.val).pc = x.pc + 1 ∧ (t.core c.val).passes = x.passes) ∧
    (Skipping s c.val = false → CastReady s c.val j →
      ∃ t q, exec (.cast c f) s = .next t ∧ (t.core c.val).passes = x.passes ++ [q] ∧ q.id = x.nextId ∧ q.unit = 2 ∧ q.post = f.post ∧
        (t.core c.val).pc = x.pc + 1 ∧ (t.core c.val).clm = x.clm ∧ (t.core c.val).acc = x.acc ∧ (t.core c.val).regs = x.regs ∧
        (isFloat inp = true → isFloat d = true → mode ≤ 3 → (j.len = 0 ∨ j.rows = 0 → q.clm = []) ∧
          (j.len ≠ 0 → j.rows ≠ 0 → (f.fromPass = true → ∃ p, x.fromPass.head? = some p ∧ p.2.2.length = j.rows * j.len) →
          q.clm = (List.range j.rows).flatMap (fun r => castPlace j r (packCodes d ((List.range j.len).map fun k => (code r k).1))) ∧
          q.counts = if narrows inp d ∧ ccSlot j.pv ≠ 0 then
            [tally (ccSlot j.pv) d ((List.range j.rows).flatMap fun r => (List.range j.len).map fun k => (code r k).2)] else [])))

/-- APASS (R76 to R88, R95): an APASS without GATHER and without KEEP whose mode word, ranges and destination are right queues a pass of the
array. In BF16 with an overwriting accumulator destination, result (r, n) is the balanced tree sum of the products of streamed row r with
column n of the stationary operand, both as core-local memory holds them, and the pass will write it at row base + r, column n. -/
def Obligations.ArrayPass : Prop :=
  ∀ (s : State) (c : Core) (f : APassF),
    let x := s.core c.val
    let w := modeWord x f.mode
    let m := (x.reg f.m).toNat
    let xa := (x.reg f.x).toNat
    let wa := (x.reg f.w).toNat
    let fmt := mwFormat w
    let mx := fmt = 5 ∨ fmt = 6
    let limit := if mx then 0x3C0000 else 0x400000
    let lanes := ceilDiv (mwK w) (density fmt)
    let a (r k : Nat) : FNum := decF .bf16 (field (x.clmBytes (xa + 256 * r) 256) (2 * k) 2)
    let b (k n : Nat) : FNum := decF .bf16 (field (x.clmBytes (wa + 256 * k) 256) (2 * n) 2)
    f.keep = false → Issuing s c.val (apassWord f false) → Skipping s c.val = false → PassFree s c.val →
    mwFieldsOk w 0 = true → mwRowsOk w m = true → (m = 0 ∨ (xa + 256 * m ≤ limit ∧ (mx → xa % 256 = 0))) → wa + 256 * lanes ≤ limit →
    (mx → wa % 256 = 0) → (scaleBytesRead w m = 0 ∨ (x.reg f.c).toNat + scaleBytesRead w m ≤ 0x400000) →
    ∃ t, exec (.apass c f false) s = .next t ∧ t.ent 0x5A00 (c.val + 1) = (s.ent 0x5A00 (c.val + 1) + m) % 2 ^ 64 ∧
      (t.core c.val).lastMode = some w ∧ (t.core c.val).prevMode = some w ∧
      PassQueued s t c.val 0 f.post fun q =>
        (mwDest w = 2 → q.writes = []) ∧
        (fmt = 1 → mwDest w = 0 → q.writes = (List.range m).map fun r => (2, (mwBase w + r) * 128, (List.range (mwN w)).map fun n =>
          (treeUp 7 ((List.range 128).map fun k => if k < mwK w then toF32 ((a r k).mul (b k n)) else 0)).headD 0))

/-- APASS with GATHER (R90), and with KEEP (R87): the gather list gives the row addresses, and a kept pass with the mode of the last that ran
uses the latched operand; a CONV pass (R298 to R305) takes its rows from the window former, and adds the correction of R305 where a lane is
wholly padded. Each queues its pass; in BF16 with an overwriting accumulator destination the words that it will write are those of these
operands. In skip mode an APASS that overwrites accumulator rows queues +0 for them (Table 4-5), and any other only goes on, among them one
with a kept operand that the mode word of the pass before it, skipped or run, does not permit (log entry 156). -/
def Obligations.ArrayPassForms : Prop :=
  ∀ (s : State) (c : Core) (f : APassF),
    let x := s.core c.val
    let w := modeWord x f.mode
    let m := (x.reg f.m).toNat
    let xa := (x.reg f.x).toNat
    let wa := (x.reg f.w).toNat
    let fmt := mwFormat w
    let mx := fmt = 5 ∨ fmt = 6
    let limit := if mx then 0x3C0000 else 0x400000
    let size := if fmt ≤ 2 then 2 else 1
    let statOk : Prop := if f.keep then ∃ l, x.lastMode = some l ∧ mwKept l = mwKept w
      else wa + 256 * ceilDiv (mwK w) (density fmt) ≤ limit ∧ (mx → wa % 256 = 0)
    let scalesOk : Prop := scaleBytesRead w m = 0 ∨ (x.reg f.c).toNat + scaleBytesRead w m ≤ 0x400000
    let row (g : Bool) (r : Nat) : Nat := if g then (x.word (xa + 4 * r)).toNat else xa + 256 * r
    let rowsOk (g : Bool) : Prop :=
      if g then cvMode x.conv ≠ 1 ∧ cvMode x.conv < 3 ∧ (m = 0 ∨ xa + 4 * m ≤ 0x400000) ∧ ∀ r, r < m → row g r % 256 = 0 ∧ row g r + 256 ≤ limit
      else m = 0 ∨ (xa + 256 * m ≤ limit ∧ (mx → xa % 256 = 0))
    let stat (k n : Nat) : FNum :=
      decF .bf16 (field (if f.keep then sread 0 x.active (256 * k) 256 else x.clmBytes (wa + 256 * k) 256) (2 * n) 2)
    let tree (v : Nat → W32) : W32 := (treeUp 7 ((List.range 128).map fun k => if k < mwK w then v k else 0)).headD 0
    let writes (q : Pass) (v : Nat → Nat → W32) : Prop := q.writes.length = (if mwDest w = 2 then 0 else m) ∧
      (fmt = 1 → mwDest w = 0 → q.writes = (List.range m).map fun r => (2, (mwBase w + r) * 128, (List.range (mwN w)).map (v r)))
    let b := x.conv
    let tap (r k : Nat) : Option (Nat × Nat × Nat) := tapAt b (field b 48 4 + r) (field b 56 2 + k % field b 58 2)
    let pad : FNum := decF .bf16 ((x.pads.getD (cvPad b) 0).toNat % 65536)
    let seen (r k : Nat) : FNum :=
      match tap r k with
      | none => pad
      | some p => decF .bf16 (ofLe (x.clmBytes (planeAt b (field b 52 2 + k / field b 58 2) 2 p) 2))
    let idle (k : Nat) : Bool := (List.range m).all fun r => (tap r k).isNone
    let root (r n : Nat) : W32 := tree fun k => if idle k then 0 else toF32 ((seen r k).mul (stat k n))
    let missed (n : Nat) : W32 := toF32 (pad.mul (ofF32 (tree fun k => if idle k then toF32 (stat k n) else 0)))
    let skips (g : Bool) (i : Instr) : Prop := (i = .apass c f g ∨ (g = true ∧ i = .convPass c f)) ∧
      Issuing s c.val (apassWord f g) ∧ Skipping s c.val = true ∧ modeCheck s c.val f.mode = (s, false)
    (mwFieldsOk w 0 = true → mwRowsOk w m = true →
      (∀ g, Issuing s c.val (apassWord f g) → Skipping s c.val = false → PassFree s c.val → rowsOk g → statOk → scalesOk →
        ∃ t, exec (.apass c f g) s = .next t ∧ PassQueued s t c.val 0 f.post fun q => writes q fun r n =>
          tree fun k => toF32 ((decF .bf16 (field (x.clmBytes (row g r) 256) (2 * k) 2)).mul (stat k n))) ∧
      (Issuing s c.val (apassWord f true) → Skipping s c.val = false → PassFree s c.val → cvMode x.conv = 1 →
        convFail x.conv m size false (decide (1 ≤ fmt ∧ fmt ≤ 4) && decide (mwDest w ≠ 3)) (mwK w) = none → statOk → scalesOk →
        ∃ t, exec (.convPass c f) s = .next t ∧ PassQueued s t c.val 0 f.post fun q => writes q fun r n =>
          if pad.isZero ∨ (∀ k, k < mwK w → idle k = false) then root r n else fadd (root r n) (missed n)) ∧
      (∀ g i, skips g i → mwDest w = 0 → m ≠ 0 → keptOk x.prevMode f.keep w = true → x.passes = [] →
        ∃ t, exec i s = .next t ∧ PassQueued s t c.val 0 f.post fun q =>
          q.writes = (List.range m).map fun r => (2, (mwBase w + r) * 128, List.replicate (mwN w) 0))) ∧
    (∀ g i, skips g i → (mwDest w ≠ 0 ∨ m = 0 ∨ keptOk x.prevMode f.keep w = false) →
      ∃ t, exec i s = .next t ∧ (t.core c.val).pc = x.pc + 1 ∧ (t.core c.val).passes = x.passes)

/-- MPASS (R98): each result is the sum over k, in order and from +0 (log entry 45), of vector element times weight, rounded to FP32 at each
step; the pass writes it at its destination rows. K = 0 gives the empty sum (log entry 136). In skip mode an MPASS that overwrites
accumulator rows queues +0 for them, and any other only goes on (Table 4-5). PASS_RETIRE (R96): the oldest pass of its unit leaves the queue
with its words written, and the rest of the accumulator file is as before; a skipped pass waits for the instructions before it that post its
semaphore. -/
def Obligations.MatrixVectorPass : Prop :=
  ∀ (s : State) (c : Core) (f : MPassF),
    let x := s.core c.val
    let w := modeWord x f.mode
    let k := (x.reg f.m).toNat
    let xa := (x.reg f.x).toNat
    let wa := (x.reg f.w).toNat
    let stride := roundUp (2 * k) 256
    let v := mwVectors w
    let a (j i : Nat) : FNum := elemVal (mwFormat w) 0 (x.clmBytes (xa + j * stride) (2 * k)) i
    let b (i n : Nat) : FNum := elemVal (mwFormat w) 0 (x.clmBytes (wa + 256 * i + 2 * n) 2) 0
    (Issuing s c.val (mpassWord f) → Skipping s c.val = false → PassFree s c.val → mwFieldsOk w 1 = true → mwRowsOk w v = true → k ≤ 65536 →
      (k = 0 ∨ (xa + (v - 1) * stride + 2 * k ≤ 0x400000 ∧ (f.wstream = true ∨ wa + 256 * (k - 1) + 2 * mwN w ≤ 0x400000))) →
      ∃ t, exec (.mpass c f) s = .next t ∧ PassQueued s t c.val 1 f.post fun q =>
        (mwDest w = 2 → q.writes = []) ∧ (mwDest w ≠ 2 → q.writes.length = v) ∧
        (mwDest w = 0 → f.wstream = false → q.writes = (List.range v).map fun j => (2, (mwBase w + j) * 128, (List.range (mwN w)).map fun n =>
          (List.range k).foldl (fun y i => toF32 (((a j i).mul (b i n)).add (ofF32 y))) 0))) ∧
    (Issuing s c.val (mpassWord f) → Skipping s c.val = true → modeCheck s c.val f.mode = (s, false) →
      (mwDest w = 0 → mwFieldsOk w 1 = true → mwRowsOk w v = true → v ≠ 0 → x.passes = [] →
        ∃ t, exec (.mpass c f) s = .next t ∧ PassQueued s t c.val 1 f.post fun q =>
          q.writes = (List.range v).map fun j => (2, (mwBase w + j) * 128, List.replicate (mwN w) 0)) ∧
      (mwDest w ≠ 0 → ∃ t, exec (.mpass c f) s = .next t ∧ (t.core c.val).pc = x.pc + 1 ∧ (t.core c.val).passes = x.passes)) ∧
    (∀ (id : Nat) (p : Pass), s.running = true → (x.passes.find? fun q => decide (q.id = id)) = some p →
      (∀ q ∈ x.passes.takeWhile (fun q => !decide (q.id = id)), q.unit ≠ p.unit) → postsBefore x p = false →
      ∃ t, exec (.passRetire c id) s = .next t ∧ (t.core c.val).passes = x.passes.filter (fun q => !decide (q.id = id)) ∧
        (t.core c.val).pc = x.pc ∧ (t.core c.val).regs = x.regs ∧
        (∀ n, (∀ e ∈ p.writes, e.1 = 1 ∨ n < e.2.1 ∨ e.2.1 + e.2.2.length ≤ n) → sget 0 (t.core c.val).acc n = sget 0 x.acc n) ∧
        (∀ n, (∀ e ∈ p.clm, n < e.1 ∨ e.1 + e.2.length ≤ n) → sget 0 (t.core c.val).clm n = sget 0 x.clm n) ∧
        (∀ r l, p.writes = [(2, r, l)] → ∀ n, n < l.length → sget 0 (t.core c.val).acc (r + n) = l.getD n 0)) ∧
    (∀ (id : Nat) (p : Pass), (x.passes.find? fun q => decide (q.id = id)) = some p → postsBefore x p = true →
      exec (.passRetire c id) s = .next s)

/-- MOVE, MOVE_START and MOVE_RETIRE (R182, R187, R192, R195, R196, R292, R293): a valid descriptor is captured and queued, an invalid one halts
the core with MOVE_INVALID, an empty one only counts; started, a descriptor whose sources lie in this module holds what it will write. A
PAGE_GATHER reads its token rows at the pages that its slot's entries give, and counts one gather more on each entry; it stalls while a
count is full, and fails with SLOT_INVALID, GATHER_UNMAPPED or PAGE_ALIAS at the first entry that breaks R292. Complete at the source a
descriptor retires, holding no page any more, and is counted. -/
def Obligations.MoverDescriptors : Prop :=
  ∀ (s : State) (c : Core) (a : Reg) (p : PostField) (t : FTime),
    let x := s.core c.val
    let addr := (x.reg a).toNat
    let d := x.clmBytes addr 64
    let queued := (x.moves.filter fun m => !m.started).length
    let issues : Prop := Issuing s c.val (iw 0x40 0 (fa a + fpost p)) ∧ Skipping s c.val = false ∧ addr % 64 = 0 ∧
      addr + 64 ≤ 0x400000 ∧ x.passes = [] ∧ s.mem.sramRaw = []
    (issues → mvInvalid s d = false → mvBadAddress s d = none → queued < 4 → mvEmpty d = false →
      ∃ u m, exec (.move c a p) s = .next u ∧ (u.core c.val).moves = x.moves ++ [m] ∧ m.desc = d ∧ m.post = p ∧ m.started = false ∧
        m.pad = x.pads.getD (mvPad d) 0 ∧ (u.core c.val).pc = x.pc + 1 ∧ (u.core c.val).regs = x.regs ∧ u.mem = s.mem ∧
        (u.core c.val).posts = x.posts ++ (match p with | some k => [(m.id, k)] | none => [])) ∧
    (issues → mvInvalid s d = true → ∃ u, exec (.move c a p) s = .next u ∧ (u.core c.val).status = 5 ∧ (u.core c.val).pc = x.pc ∧
      ∃ e ∈ u.ev.raised, e.code = 0x4401) ∧
    (issues → mvInvalid s d = false → mvBadAddress s d = none → queued < 4 → mvEmpty d = true →
      ∃ u, exec (.move c a p) s = .next u ∧ (u.core c.val).moves = x.moves ∧ (u.core c.val).pc = x.pc + 1 ∧
        u.ent 0x4031 (c.val + 1) = (s.ent 0x4031 (c.val + 1) + 1) % 2 ^ 64) ∧
    (Issuing s c.val (iw 0x40 0 (fa a + fpost p)) → Skipping s c.val = true →
      ∃ u, exec (.move c a p) s = .next u ∧ (u.core c.val).moves = x.moves ∧ (u.core c.val).pc = x.pc + 1) ∧
    (∀ (m : Move) (q : State) (payload : List Byte), s.now ≤ t → (x.moves.find? fun m => !m.started) = some m →
      s.audit.held = [] → (∀ n ∈ x.moves, n.started = true → n.reads = []) → (x.moves.map Move.id).Nodup → mvOp m.desc ≠ 3 →
      isFar s (gDev (mvDst m.desc)) (gLocal (mvDst m.desc)) = false →
      readRuns ({ s with now := t }.modMove c.val m.id fun _ => { m with started := true })
        (mvRuns m.desc (mvRowAddr m.desc)) (List.replicate (mvPayload m.desc) 0) (!mvNoAlloc m.desc) = (q, payload, [], none) →
      (∀ r ∈ (mvOutput { m with started := true, payload := payload, reads := [] }).1, isMemory (gLocal r.1) r.2.length = true) →
      ∃ u n, exec (.moveStart t c) s = .next u ∧ (u.core c.val).move m.id = some n ∧ n.started = true ∧ n.desc = m.desc ∧
        n.reads = [] ∧ n.payload = payload ∧ n.writes = (mvOutput { m with started := true, payload := payload, reads := [] }).1 ∧
        (u.core c.val).clm = x.clm) ∧
    (∀ (m : Move) (k : Nat), s.now ≤ t → HbmSound s → PagesSound s → NothingWaits s → k < 256 → (x.moves.find? fun m => !m.started) = some m →
      (∀ n ∈ x.moves, n.started = true → n.reads = []) → (x.moves.map Move.id).Nodup → mvOp m.desc = 3 → mvReads m.desc = true →
      let d := m.desc
      let p := 2 ^ mvExp d
      let first := mvRow d (mvRowRange d).1 / p
      let last := mvRow d ((mvRowRange d).2 - 1) / p
      let entry (j : Nat) : PageEntry := entryAt s k j
      let good (j : Nat) : Prop := (entry j).mapped = true ∧ (entry j).size + 4 = mvExp d ∧ (entry j).owner = k ∧
        recordOf s (entry j).first = (k, 1) ∧ inHbm (poolBase s + (entry j).first * granuleBytes s) 1 = true
      let tokensIn : Prop := (s.pageSlot k).st = 1 ∧ mvRow d ((mvRowRange d).2 - 1) < pageEntries s * p
      let allGood : Prop := ∀ j, first ≤ j → j ≤ last → good j
      let fails (code : W16) : Prop := ∃ u, exec (.moveStart t c) s = .next u ∧ (u.core c.val).move m.id = none ∧
        ∃ e ∈ u.ev.raised, e.code = code
      let rowAt (i : Nat) : Nat := poolBase s + (entry (mvRow d i / p)).first * granuleBytes s + mvRow d i % p * mvSrcStride d +
        codeBytes (mvSrcFmt d) (mvCol d (mvColRange d).1)
      let pages := (List.range (last - first + 1)).map fun i => pageEntryAt s k (first + i)
      let h : Move := { m with started := true, granules := pages }
      (gatherSlot s d = none → fails 0x5203) ∧
      (gatherSlot s d = some k → ¬ tokensIn → fails 0x5203) ∧
      (gatherSlot s d = some k → tokensIn →
        (∀ j, first ≤ j → j ≤ last → (∀ i, first ≤ i → i < j → good i) →
          ((entry j).mapped = false → fails 0x4403) ∧
          ((entry j).mapped = true → (entry j).size + 4 ≠ mvExp d → fails 0x5203) ∧
          ((entry j).mapped = true → (entry j).size + 4 = mvExp d → (entry j).owner ≠ k ∨ recordOf s (entry j).first ≠ (k, 1) → fails 0x5201)) ∧
        (allGood → (∃ j, first ≤ j ∧ j ≤ last ∧ (entry j).inFlight = 65535) → exec (.moveStart t c) s = .next { s with now := t }) ∧
        (∀ (q : State) (payload : List Byte), allGood → (∀ j, first ≤ j → j ≤ last → (entry j).inFlight < 65535) →
          (∀ i, (mvRowRange d).1 ≤ i → i < (mvRowRange d).2 → rowAt i + mvRunBytes d ≤ hbmSize) →
          isFar s (gDev (mvDst d)) (gLocal (mvDst d)) = false →
          readRuns (pages.foldl holdPage ({ s with now := t }.modMove c.val m.id fun _ => h)) (mvRuns d fun i => globalOf s (rowAt i))
            (List.replicate (mvPayload d) 0) (!mvNoAlloc d) = (q, payload, [], none) →
          (∀ r ∈ (mvOutput { h with payload := payload, reads := [] }).1, isMemory (gLocal r.1) r.2.length = true) →
          ∃ u n, exec (.moveStart t c) s = .next u ∧ (u.core c.val).move m.id = some n ∧ n.started = true ∧ n.granules = pages ∧
            n.payload = payload ∧ n.writes = (mvOutput { h with payload := payload, reads := [] }).1 ∧
            ∀ j, first ≤ j → j ≤ last → entryAt u k j = { entry j with inFlight := (entry j).inFlight + 1 }))) ∧
    (∀ (id : Nat) (m : Move), x.move id = some m → m.started = true → m.retired = false → m.reads = [] → m.awaiting = 0 →
      ∃ u, exec (.moveRetire c id) s = .next u ∧
        u.ent 0x4031 (c.val + 1) = (s.ent 0x4031 (c.val + 1) + 1) % 2 ^ 64 ∧
        (∀ n ∈ (u.core c.val).moves, n.id = id → n.retired = true ∧ n.granules = []) ∧
        ∀ k j, HbmSound s → PagesSound s → k < 256 → j < pageEntries s → m.granules = [pageEntryAt s k j] → (entryAt s k j).pending = false →
          entryAt u k j = { entryAt s k j with inFlight := (entryAt s k j).inFlight - 1 })

/-- A commit (R147, R148, R180, R188, R195, R400) of the next bytes, those of the first run still to be written (log entry 61), of a descriptor
whose destination is this module's HBM, or of a segment that another module sent: exactly these bytes are stored, or their FP32 sums with
what is there for ADD32, whole 64-byte units but for the last; no other byte of the HBM changes, the mover counts them, the landing
semaphore of the transfer rises by the units of 64 bytes that they complete, and a segment committed whole is answered. -/
def Obligations.LandingCommits : Prop :=
  ∀ (s : State) (t : FTime) (transfer : W16) (bytes : Nat),
    let stored (u : State) (at_ : Nat) (b : List Byte) : Prop :=
      (∀ i, i < b.length → hbyte u (at_ + i) = b.getD i 0) ∧
      ∀ k, (∀ i, i < b.length → phys s (at_ + i) ≠ k) → sget 0 u.mem.hbm k = sget 0 s.mem.hbm k
    let rise (y : Transfer) (n : Nat) : Nat := landUnits y.total (y.committed + n) - y.landed
    let calm (x : Option Transfer) (n : Nat) : Prop :=
      ∀ y core sem, x = some y → y.land = some (core, sem) → s.sem core sem + rise y n < 2 ^ 32
    let signals (u : State) (x : Option Transfer) (n : Nat) : Prop :=
      ∀ y core sem, x = some y → y.land = some (core, sem) → s.running = true → s.isLanding core sem = true →
        u.sem core sem = s.sem core sem + rise y n
    s.now ≤ t → HbmSound s → NothingWaits s →
    (∀ (c : Nat) (m : Move) (w : Nat × List Byte) (rest : List (Nat × List Byte)),
      let at_ := gLocal w.1
      let n := unitCut at_ (Nat.min bytes w.2.length) (decide (w.2.length ≤ bytes))
      let b := if mvOp m.desc = 4 then addBytes (hread s at_ n) (w.2.take n) else w.2.take n
      n ≠ 0 → ownMove s transfer = some (c, m) → isFar s (gDev (mvDst m.desc)) (gLocal (mvDst m.desc)) = false →
      m.writes = w :: rest → w.2 ≠ [] → at_ + w.2.length ≤ hbmSize → m.transfer = transfer → c < 192 →
      calm (s.transfer (transferKey s.device transfer.toNat)) n →
      ∃ u, exec (.landingCommit t (BitVec.ofNat 16 s.device) transfer bytes) s = .next u ∧ stored u at_ b ∧
        u.ent 0x4030 (c + 1) = (s.ent 0x4030 (c + 1) + n) % 2 ^ 64 ∧
        signals u (s.transfer (transferKey s.device transfer.toNat)) n) ∧
    (∀ (src : W16) (g : Segment), src.toNat ≠ s.device →
      (s.links.segments.find? fun g => decide (g.src = src) && decide (g.transfer = transfer) && decide (g.pendingBytes ≠ [])) = some g →
      let most := Nat.min bytes g.pendingBytes.length
      let n := unitCut (g.base + g.done) most (decide (g.done + most = g.bytes))
      n ≠ 0 → g.base + g.bytes ≤ hbmSize → g.done + g.pendingBytes.length ≤ g.bytes → calm (s.transfer (transferKey src.toNat transfer.toNat)) n →
      ∃ u, exec (.landingCommit t src transfer bytes) s = .next u ∧ stored u (g.base + g.done) (g.pendingBytes.take n) ∧
        (g.done + n < g.bytes → { g with done := g.done + n, pendingBytes := g.pendingBytes.drop n } ∈ u.links.segments) ∧
        (g.done + n = g.bytes → ∀ q, routePort s s.device src.toNat = some q → (s.port q).vcs.length = 6 → ∃ a,
          vcQueue u q 3 = vcQueue s q 3 ++ [a] ∧ a.kind = 6 ∧ a.tag = g.tag ∧ field a.payload 0 1 = 0) ∧
        signals u (s.transfer (transferKey src.toNat transfer.toNat)) n)

/-- Pausing (R57, R162 to R165, R477, R489): once every queued instruction has retired and every answer is in, the drain is complete and a core
at a HALT has ended; with the contexts saved the module is in PAUSE, every port all open, its draw tapering (log entry 17), and the
measurement of the run kept, or owed where the engine has not made it (log entry 119); a drain that is not complete 100 µs after the pause
point ends in FAULT with `0x5505`, and the draw tapers too. Capo points (R64, R57, R455, R476): at a SWITCH entry every port of the mask
begins fret 0 of the named slot and no other port changes; at END every port is all open again, a core that still runs is halted with
RUN_OVERRUN (`0x5004`), the module is READY, register 6 is zero and the draw is tapered. -/
def Obligations.PauseAndCapoPoints : Prop :=
  (∀ (s : State) (t point : FTime), s.running = true → s.run.drainSince = some point →
     (s.run.drained = false → drained s = true →
       ∃ u, exec .drainComplete s = .next u ∧ u.run.drained = true ∧ u.mem = s.mem ∧ u.dict = s.dict ∧
         ∀ c x, (c, x) ∈ s.cores → x.wait = .halt → (c, { x with status := 4, wait := .none }) ∈ u.cores) ∧
     (s.run.drained = true →
       ∃ u, exec .contextSaved s = .next u ∧ u.eff = .pause ∧ u.run.drainSince = none ∧ u.run.pauseAsked = false ∧
         u.trust.pausedHash = (if s.trust.hashing then none else s.run.measurement) ∧ u.trust.hashing = false ∧
         (s.trust.hashing = true → u.trust.owedTab = some s.run.tab) ∧ u.power.taperLeft = 256 ∧ u.ent 0x2200 5 = 256 ∧
         (s.power.downAfterAbort = true → u.power.sheds = true) ∧ (∀ p, p < 48 → (u.port p).inForce = none)) ∧
     (s.run.drained = false → s.now ≤ t → point.toNat + 100000 ≤ t.toNat →
       ∃ u, exec (.drainTimeout t) s = .next u ∧ u.ctl.dev = .fault ∧ u.ent 0x5002 4 = 0x5505 ∧ u.power.taperLeft = 256 ∧ u.ent 0x2200 5 = 256 ∧
         ∃ e ∈ u.ev.raised, e.code = 0x5505 ∧ e.time = t)) ∧
  (∀ (s : State) (slot : Nat) (mask : BitVec 48) (c : Nat), s.coll.staged = [] → c < 2 ^ 64 → s.now.toNat ≤ c →
     (nextCapo s = some (1, slot, mask, c) → ∃ t, exec .capoSwitch s = .next t ∧ t.now.toNat = c ∧ t.run.nextCapo = s.run.nextCapo + 1 ∧
       (∀ p, p < 48 → t.port p = if mask.getLsbD p then { s.port p with inForce := some (slot, BitVec.ofNat 64 c) } else s.port p) ∧
       t.ent 0x3100 1 = s.run.nextCapo ∧
       t.ent 0x3100 2 = (match (s.run.capos.drop (s.run.nextCapo + 1)).head? with | some e => s.run.start.toNat + e.1 | none => 0) ∧
       t.cores = s.cores ∧ t.mem = s.mem ∧ t.ev = s.ev ∧ t.eff = s.eff) ∧
     (nextCapo s = some (3, slot, mask, c) → s.power.downAfterAbort = false →
       let overrun := s.cores.any fun x => decide (x.2.status = 2 ∨ x.2.status = 3)
       ∃ t, exec .runEnd s = .next t ∧ t.now.toNat = c ∧ t.eff = .ready ∧ (∀ p, p < 48 → (t.port p).inForce = none) ∧
         (∀ k, (t.core k).status ≠ 2 ∧ (t.core k).status ≠ 3) ∧ t.ent 0x3100 2 = 0 ∧ t.power.taperLeft = 256 ∧ t.ent 0x2200 5 = 256 ∧
         (∀ b ∈ t.oct 0x8210 7, b = 0) ∧ (overrun = true → ∃ e, t.ev.raised = s.ev.raised ++ [e] ∧ e.code = 0x5004) ∧
         (overrun = false → t.ev.raised = s.ev.raised ∧ t.cores = s.cores) ∧
         t.ent 0x5010 1 = s.ent 0x5010 1 ∧ t.ent 0x5010 2 = s.ent 0x5010 2))

/-- The verdict (R261, R262, R266, Table 8-8): the digest walk forms the digest of every block of every replicated shard from its next copy, and
compares the records that came before it; at the verdict time a complete vote without DIVERGE is kept for the commit capo, and an incomplete
one, or one with DIVERGE, raises an abort for which the module abandons the step: the next copy is not flipped and the step counter stands.
An uncorrectable unit that the walk meets aborts the step too (Table 18-3). -/
def Obligations.WalkAndVerdict : Prop :=
  ∀ (s : State) (c : Nat), comingCommit s = some c →
    (s.run.walked = false → s.ent 0x5400 4 ≠ 0 → replicated s ≠ [] → (∀ x ∈ replicated s, blockCount (shardHead s x.2) ≤ 65536) →
      let read := walkReads (reach s (c - s.ent 0x5400 4))
      (s.mem.hbmRaw = [] → (∀ x ∈ s.mem.cache, x.bad = []) → read.2 = false) ∧
      (read.2 = true → ∃ t, exec .digestWalk s = .next t ∧ t.ent 0x5010 1 = s.ent 0x5010 1 ∧ t.ent 0x5010 2 = s.ent 0x5010 2 ∧
        (s.running = true → abandons s.run read.1.now.toNat = true → t.eff = .aborting ∧ t.ent 0x5010 3 = 3)) ∧
      (read.2 = false → ∃ t, exec .digestWalk s = .next t ∧ t.run.walked = true ∧ t.mem.hbm = s.mem.hbm ∧ t.cores = s.cores ∧ t.run.early = [] ∧
        (∀ x ∈ replicated s, ∀ b, b < blockCount (shardHead s x.2) →
          (sget 0 t.run.digests (digestKey x.1 b)).toNat = blockDigest s x.2 b) ∧
        (s.run.early = [] → s.mem.hbmRaw = [] → (∀ x ∈ s.mem.cache, x.bad = []) → t.ev = s.ev) ∧
        (∀ r ∈ s.run.early, ∀ x, ((replicated s).find? fun e => decide (hdNumber (shardHead s e.2) = field r 0 4)) = some x →
          field r 4 2 < blockCount (shardHead s x.2) → blockDigest s x.2 (field r 4 2) ≠ field r 8 8 → ∃ e ∈ t.ev.raised, e.code = 0x7201))) ∧
    (s.run.verdict = none → s.now.toNat + 8192 ≤ c → s.run.start.toNat + 8192 ≤ c → c < 2 ^ 64 →
      ∃ t, exec .verdict s = .next t ∧ t.now.toNat = c - 8192 ∧ t.ent 0x5010 1 = s.ent 0x5010 1 ∧ t.ent 0x5010 2 = s.ent 0x5010 2 ∧
        let fails (reason : Nat) : Prop := s.run.aborts = [] → t.eff = .aborting ∧ t.ent 0x5010 3 = 3 ∧ t.ent 0x3110 4 = c - 8192 ∧
          ∀ p, p < 48 → s.inService p = true →
            (t.port p).urgent = (s.port p).urgent ++ [bareFlit 0xA (abortPayload s.device reason (c - 8192) (s.ent 0x5010 1 % 2 ^ 32))]
        match completeVote s with
        | none => (∃ e ∈ t.ev.raised, e.code = 0x5404) ∧ fails 0x5404
        | some w => (Nat.testBit w 1 = true → fails 0x7201) ∧
            (Nat.testBit w 1 = false → t.run.verdict = some (BitVec.ofNat 32 w) ∧ t.eff = s.eff ∧ t.cores = s.cores ∧ t.mem = s.mem))

/-- The commit capo (R65, R248, R234, R266, R267, Table 8-8): with NONFINITE clear the live bank flips, the weight version becomes the old step
number and the counter rises by one; with NONFINITE set nothing flips, the skip is counted with UPDATE_SKIPPED (`0x7102`), and the loss
scale is halved, or LOSS_SCALE_FLOOR (`0x7105`) is raised at 1. Every slot's counts are exported and cleared, and the mask's ports switch. -/
def Obligations.CommitCapo : Prop :=
  ∀ (s : State) (slot c : Nat) (mask : BitVec 48) (w : W32),
    let step := s.ent 0x5010 1
    let sum (k j : Nat) : Nat := (s.cores.map fun x => sget 0 x.2.slots (k * 8 + j)).sum % 2 ^ 64
    nextCapo s = some (2, slot, mask, c) → s.run.verdict = some w → s.run.deferred = none → s.coll.staged = [] → s.now.toNat ≤ c → c < 2 ^ 64 →
    ∃ t, exec .commitCapo s = .next t ∧ t.now.toNat = c ∧ t.run.nextCapo = s.run.nextCapo + 1 ∧ t.eff = s.eff ∧
      t.run.verdict = none ∧ t.run.nonfinite = false ∧ t.coll.record = [] ∧
      (w.getLsbD 0 = false → t.ent 0x5010 1 = (step + 1) % 2 ^ 64 ∧ t.ent 0x5010 2 = 1 - s.ent 0x5010 2 ∧ t.ent 0x5010 4 = step % 2 ^ 32 ∧
        t.ent 0x5010 3 = (if w.getLsbD 2 then 4 else 1) ∧ t.ent 0x5010 5 = s.ent 0x5010 5 ∧
        (s.ent 0x7210 3 + 1 < s.ent 0x7210 2 → t.ent 0x7210 3 = s.ent 0x7210 3 + 1 ∧ t.ent 0x7210 1 = s.ent 0x7210 1) ∧
        (s.ent 0x7210 2 ≤ s.ent 0x7210 3 + 1 → t.ent 0x7210 3 = 0 ∧
          t.ent 0x7210 1 = if s.ent 0x7210 1 < 24 then s.ent 0x7210 1 + 1 else s.ent 0x7210 1)) ∧
      (w.getLsbD 0 = true → t.ent 0x5010 1 = step ∧ t.ent 0x5010 2 = s.ent 0x5010 2 ∧ t.ent 0x5010 4 = s.ent 0x5010 4 ∧
        t.ent 0x5010 3 = 2 ∧ t.ent 0x5010 5 = (s.ent 0x5010 5 + 1) % 2 ^ 32 ∧ t.ent 0x7210 3 = 0 ∧ t.ent 0x7210 1 = s.ent 0x7210 1 - 1 ∧
        (∃ e ∈ t.ev.raised, e.code = 0x7102) ∧ (s.ent 0x7210 1 = 0 → ∃ e ∈ t.ev.raised, e.code = 0x7105)) ∧
      (∀ k j, k < 64 → j < 5 → t.ent (0x7010 + j) (k + 1) = sum k j) ∧ (∀ k, (t.core k).slots = []) ∧
      t.ent 0x7000 5 = t.ent 0x5010 1 % 2 ^ 32 ∧ t.ent 0x7000 6 = c ∧
      (s.run.pauseAsked = false → ∀ p, p < 48 → mask.getLsbD p = true → (t.port p).inForce = some (slot, BitVec.ofNat 64 c)) ∧
      (∀ k, (t.core k).regs = (s.core k).regs ∧ (t.core k).clm = (s.core k).clm ∧ (t.core k).sems = (s.core k).sems) ∧ t.mem.hbm = s.mem.hbm

/-- Aborts (R14, R69, R71, R72): an abort flit of a device address for the running step, raised before the commit capo less the guard and
earlier than every abort already acted on, is passed on by every other port in service and the step is abandoned; raised later, it is passed
on and the run goes on to its commit; not earlier than one already acted on, it is only counted. One for the step just committed, received
before the commit capo plus the guard, is a deferred abort: ABORT_DEFERRED (`0x3204`), and the step that follows is abandoned. ABORTING ends
in READY with the counter unchanged. -/
def Obligations.SystemAbort : Prop :=
  ∀ (s : State) (t : FTime) (p : Port) (f : Flit),
    let b := f.payload
    let orig := field b 2 2
    let reason := field b 4 2
    let raise := field b 8 8
    let step := field b 16 4
    let earliest : Prop := ∀ r ∈ s.run.aborts, raise < r.toNat
    (s.now ≤ t → Accepts s p f 0xA → (s.port p.val).discarding = false → noDevice (BitVec.ofNat 16 orig) = false → (s.port p.val).adapter = false → s.running = true →
      (∀ c n, s.run.lastCommit = some (c, n) → ¬ (step = n.toNat ∧ raise < c.toNat)) → step = s.ent 0x5010 1 % 2 ^ 32 →
      (earliest → ∃ u, exec (.abortFlitReceive t p f) s = .next u ∧
        (∀ q, q < 48 → q ≠ p.val → s.inService q = true → (u.port q).urgent = (s.port q).urgent ++ [bareFlit 0xA (abortPayload orig reason raise step)]) ∧
        (abandons s.run raise = true → u.eff = .aborting ∧ u.ent 0x5010 3 = 3 ∧ (∀ q, q < 48 → (u.port q).inForce = none) ∧
          ∀ k, (u.core k).status ≠ 2 ∧ (u.core k).status ≠ 3 ∧ (u.core k).passes = [] ∧ (u.core k).moves = [] ∧ (u.core k).slots = []) ∧
        (abandons s.run raise = false → u.eff = s.eff ∧ u.run.deferred.isSome = true ∧ u.cores = s.cores) ∧
        u.ent 0x5010 1 = s.ent 0x5010 1 ∧ u.ent 0x5010 2 = s.ent 0x5010 2) ∧
      (¬ earliest → ∃ u, exec (.abortFlitReceive t p f) s = .next u ∧ u.ent 0x3110 5 = (s.ent 0x3110 5 + 1) % 2 ^ 32 ∧ u.eff = s.eff ∧
        u.cores = s.cores ∧ ∀ q, (u.port q).urgent = (s.port q).urgent)) ∧
    (∀ c n, s.now ≤ t → Accepts s p f 0xA → (s.port p.val).discarding = false → noDevice (BitVec.ofNat 16 orig) = false → (s.port p.val).adapter = false →
      s.run.lastCommit = some (c, n) → step = n.toNat → raise < c.toNat → t.toNat < c.toNat + commitGuard → s.run.prevAborts = [] →
      ∃ u e, exec (.abortFlitReceive t p f) s = .next u ∧ e ∈ u.ev.raised ∧ e.code = 0x3204 ∧ e.time = t ∧ field e.detail 0 2 = orig ∧
        field e.detail 8 8 = raise ∧ (s.running = true → (commitCapo s.run).isSome = true → u.eff = .aborting) ∧
        u.ent 0x5010 1 = s.ent 0x5010 1 ∧ u.ent 0x5010 2 = s.ent 0x5010 2) ∧
    (s.eff = .aborting → s.power.sheds = false → s.power.downAfterAbort = false → s.audit.held = [] → NothingWaits s → (∀ die, die < 4 → (s.region die).length ≤ 1) →
      ∃ u, exec .abortingComplete s = .next u ∧ u.eff = .ready ∧ u.ent 0x5010 1 = s.ent 0x5010 1 ∧ u.ent 0x5010 2 = s.ent 0x5010 2 ∧
        (∀ b ∈ u.oct 0x8210 7, b = 0) ∧ ∀ die, die < 4 → (u.region die).head?.map RegionCmd.live ≠ some false)

/-- The supply (R490 to R492, R518, R520, Tables 17-2 and 17-3): 52 V in range starts the standby side, any other rated voltage, one of reversed
polarity too, leaves the module OFF; its loss turns the module off; a low supply throttles; beyond 44 V to 60 V the main side halts, in RUN
with an abort (deferred where the commit can no longer be stopped), and the rails go when the hold-up expires; recovery ends the condition.
Heat (R507, Table 17-3): at 100 °C a die throttles the module; with every die below 95 °C it releases; at 110 °C the module powers down as
HALT_IN would, in RUN with the abort, and power-up waits for every die to be below 60 °C. -/
def Obligations.SupplyAndHeat : Prop :=
  (∀ (s : State) (mv : Nat) (t : FTime) (v : Int),
     (s.ctl.dev = .off → -60000 ≤ v → v < 46000 ∨ (58000 < v ∧ v ≤ 64000) → exec (.powerApplied v) s = .next s) ∧
     (v < -60000 → exec (.powerApplied v) s = .fault .outsideRatings) ∧
     (s.ctl.dev = .off → 46000 ≤ mv → mv ≤ 58000 →
       ∃ u, exec (.powerApplied mv) s = .next u ∧ u.ctl.dev = .standby ∧ u.ent 0x2000 2 = mv ∧ u.ev.ring = [] ∧
         u.fdp.sessions = [] ∧ u.audit.waiting = [] ∧ u.mem.hbm = [] ∧ u.cores = []) ∧
     (64000 < mv → exec (.powerApplied mv) s = .fault .outsideRatings ∧ exec (.supplyHalt t mv) s = .fault .outsideRatings) ∧
     (s.ctl.dev ≠ .off → ∃ u, exec .standbyPowerLoss s = .next u ∧ u.ctl.dev = .off ∧ u.ctl.powered = false ∧ u.fdp.sessions = [] ∧
         u.ev.ring = [] ∧ u.mem.hbm = [] ∧ u.cores = [] ∧ u.audit.ring = s.audit.ring) ∧
     (s.ctl.dev ≠ .off → 44000 ≤ mv → mv < 46000 →
       ∃ u, exec (.supplyLow mv) s = .next u ∧ Nat.testBit (u.ent 0x2100 7) 3 = true ∧ u.power.mv = mv ∧
         (s.ent 0x2100 7 = 0 → u.ent 0x2000 1 = 1000 ∧ u.ent 0x2100 9 = (s.ent 0x2100 9 + 1) % 2 ^ 32)) ∧
     (s.ctl.dev ≠ .off → s.now ≤ t → mv < 44000 ∨ (60000 < mv ∧ mv ≤ 64000) → s.power.supplyHalt = none →
       ∃ u, exec (.supplyHalt t mv) s = .next u ∧ u.power.supplyHalt = some (if mv < 44000 then 2 else 3) ∧
         u.power.holdup = (s.power.holdup || s.ctl.powered) ∧
         (s.ctl.powered = true → u.ent 0x2000 7 = (s.ent 0x2000 7 + 1) % 2 ^ 32 ∧ ∃ e ∈ u.ev.raised, e.code = 0x1102 ∧ e.time = t) ∧
         (s.ctl.powered = true → s.running = true → (abandons s.run t.toNat = true → u.eff = .aborting) ∧
           (abandons s.run t.toNat = false → u.eff = .run ∧ u.run.deferred.isSome = true))) ∧
     (s.power.holdup = true →
       ∃ u, exec .holdupExpiry s = .next u ∧ u.ctl.dev = .standby ∧ u.ctl.powered = false ∧ u.mem.hbm = [] ∧ u.cores = [] ∧
         u.audit = s.audit ∧ u.fdp = s.fdp ∧ u.ev = s.ev) ∧
     (s.ctl.dev ≠ .off → 46000 ≤ mv → mv ≤ 58000 →
       ∃ u, exec (.supplyRecovered mv) s = .next u ∧ u.power.supplyHalt = none ∧ Nat.testBit (u.ent 0x2100 7) 3 = false ∧ u.power.mv = mv)) ∧
  (∀ (s : State) (t : FTime) (die : Fin 7) (mC : Nat) (temps : List Int), s.now ≤ t → s.ctl.dev ≠ .off →
     (100000 ≤ mC → mC < 2 ^ 31 →
       ∃ u, exec (.thermalThrottle t die mC) s = .next u ∧ Nat.testBit (u.ent 0x2100 7) 2 = true ∧ u.ent 0x2300 (die.val + 1) = mC) ∧
     (temps.length = 7 → (∀ x ∈ temps, -273150 ≤ x ∧ x < 95000) →
       ∃ u, exec (.thermalRelease t temps) s = .next u ∧ Nat.testBit (u.ent 0x2100 7) 2 = false ∧
         (∀ k, k < 7 → signed 32 (u.ent 0x2300 (k + 1)) = temps.getD k 0) ∧
         (u.power.thermalHold = true → ∃ x ∈ temps, 60000 ≤ x)) ∧
     (s.ctl.powered = true → 110000 ≤ mC → mC < 2 ^ 31 →
       ∃ u, exec (.thermalHalt t die mC) s = .next u ∧ u.power.thermalHold = true ∧ (∃ e ∈ u.ev.raised, e.code = 0x1102 ∧ e.time = t) ∧
         (s.eff = .run ∨ s.eff = .aborting → u.power.downAfterAbort = true) ∧
         (s.eff = .run → (abandons s.run t.toNat = true → u.eff = .aborting) ∧
           (abandons s.run t.toNat = false → u.eff = .run ∧ u.run.deferred.isSome = true)) ∧
         (s.eff ≠ .run → s.eff ≠ .aborting → u.power.sheds = true ∧ u.power.taperLeft = 256)))

/-- Start-up of the main side, from auto power-up to the memory fill (R445, R518, R520, R521, R528, Table 17-7). After the fill every byte of
HBM reads zero and every core is as at reset. The end of start-up (R22, R393, R445, R473, R485, R542): the self-test repairs and fuses each
fault, drops the candidates that passed and those repaired, and leads to START, where address and role come into force, or without a spare
to FAULT; the main-side images are selected, and a kind without a valid one powers the main side down; each port is in service or past its 3
s; then the module is READY. What `0x2400:02` and `:03` show of a stage and its duration is as the model reads them (log entry 31). -/
def Obligations.StartUp : Prop :=
  (∀ (s : State) (rail : W32) (k : Fin 12),
     (s.ctl.dev = .standby → s.ctl.galenaHeld = false → s.ent 0x5003 2 = 1 → assigned s = true → powerBlocked s = false →
       s.power.railHold = false →
       ∃ u, exec .autoPowerUp s = .next u ∧ u.ctl.dev = .init ∧ u.ctl.powered = true ∧ u.ent 0x2400 3 = 3 ∧ u.ent 0x5002 2 = 2 ∧
         u.mem.inits = s.mem.inits + 1) ∧
     (s.ctl.dev = .init → s.ctl.railsOk = false →
       (∃ u, exec .railsReady s = .next u ∧ u.ctl = { s.ctl with railsOk := true } ∧ u.ent 0x2400 3 = 4) ∧
       (∃ u, exec (.railTimeout rail) s = .next u ∧ u.ctl.dev = .standby ∧ u.ctl.powered = false ∧ u.power.railHold = true ∧
         ∃ e ∈ u.ev.raised, e.code = 0x1102)) ∧
     (s.ctl.dev = .init → s.ctl.railsOk = true → s.ctl.trained = false →
       (∃ u, exec (.hbmTrainingDone none) s = .next u ∧ u.ctl = { s.ctl with trained := true, fillAt := s.now } ∧ u.mem = s.mem ∧
         u.ent 0x2400 3 = 5) ∧
       (∃ u, exec (.hbmTrainingDone (some k)) s = .next u ∧ u.ctl.dev = .fault ∧ u.ent 0x5002 4 = 0x4102)) ∧
     (s.ctl.dev = .init → s.ctl.trained = true → s.ctl.filled = false →
       ∃ u, exec .memoryFillDone s = .next u ∧ u.ctl = { s.ctl with filled := true } ∧ (∀ a, hbyte u a = 0) ∧
         (∀ c, u.core c = CoreS.reset) ∧ u.mem.hbmRaw = [] ∧ ∀ x ∈ u.mem.sramRaw, (sramWhere x.1).1 = 9)) ∧
  (∀ (s : State) (passed : List Bool) (found : List (List Byte)) (p : Port),
     (s.ctl.dev = .init → s.ctl.filled = true → passed.length = s.mem.candidates.length →
       let tested (spares : Bool) : Prop := ∃ u, exec (.selfTestDone passed found spares) s = .next u ∧ u.ctl.dev = .start ∧
         (∀ c, c ∈ u.mem.candidates ↔ ∃ i : Nat, s.mem.candidates[i]? = some c ∧ passed[i]? = some false ∧ repairedBy found c = false) ∧
         u.mem.fuses.length = s.mem.fuses.length + found.length ∧
         u.device = (s.ent 0x3200 1 * 32 + s.ent 0x3200 2) % 65536 ∧ u.ent 0x3200 5 = s.ent 0x3200 3
       let fails (spares : Bool) : Prop := ∃ u, exec (.selfTestDone passed found spares) s = .next u ∧ u.ctl.dev = .fault ∧ u.ent 0x5002 4 = 0x4102
       ((repairAll found s).2 = [] → tested true) ∧ ((repairAll found s).2 ≠ [] → fails true) ∧
       (found = [] → tested false) ∧ (found ≠ [] → fails false)) ∧
     (s.ctl.dev = .start → s.ctl.firmwareOk = false →
       let found : Prop := ∀ k ∈ [2, 3, 4, 5], ∃ slot, (slot = startSlot s k ∨ slot = 1 - startSlot s k) ∧
         imageFailure s (imageBytes s k slot) k = 0
       ∃ u, exec .mainFirmwareVerified s = .next u ∧
         (found → u.ctl.dev = .start ∧ u.ctl.firmwareOk = true ∧
           ∀ k ∈ [2, 3, 4, 5], imageFailure s (imageBytes s k (u.ent 0x8200 (k + 5))) k = 0) ∧
         (¬ found → u.ctl.dev = .standby ∧ u.ctl.powered = false ∧ u.ctl.missing ≠ [])) ∧
     (s.ctl.dev = .start → s.inService p.val = false → p.val ∉ s.ctl.portsPast →
       exec (.portStartTimeout p) s = .next { s with ctl := { s.ctl with portsPast := p.val :: s.ctl.portsPast } }) ∧
     (s.ctl.dev = .start → s.ent 0x3000 2 = 3 → s.ctl.firmwareOk = true →
       (∀ q, q < 48 → s.portSt q = 4 ∨ q ∈ s.ctl.portsPast) →
       ∃ u, exec .startComplete s = .next u ∧ u.ctl = { s.ctl with dev := .ready } ∧ u.ent 0x5002 2 = 4 ∧
         u.ent 0x2400 2 = (s.now.toNat - s.ctl.startAt.toNat) / 1000000 % 2 ^ 32))

/-- The governor (R493, R495, R498 to R501, R505, R521): step i of the arming ramp gives the duty u₀ + ⌈i (256 − u₀) / 256⌉, u₀ being the duty
in force as the ramp begins; a taper falls by one step to 0, each at its instant, unless the ramp has taken over, and at 0 a POWER_DOWN
sheds the rails once the last of the draw lies within the ramp limit; a draw within the limit of the governor's own changes is a tick (log
entry 144), which shows the readings, the input voltage as the average of the last millisecond (log entry 153), keeps the peak, holds the
draw of a run to the limit with fill ballast and throttles above the cap; one that finds the memory fill overdue enters FAULT (log entry
155); the cap releases 10 ms after the draw fell; the clock returns by 50 MHz a step. The inputs (R503, R505, R508 to R511, Table 17-4):
each pin shows its level and counts its assertions; an enabled THROTTLE_IN throttles; HALT_IN takes the action chosen, raising the abort in
RUN or powering down; a reminder repeats the event every 60 s while the pin stays asserted. -/
def Obligations.GovernorAndInputs : Prop :=
  (∀ (s : State) (t : FTime) (mv watts avg1 avg10 : Nat),
     let s' : State := { s with now := t }
     let limit := s.ent 0x2200 1
     let falls : Prop := s.running = true ∧ watts + limit < s.power.lastW
     let draw := if s.running = true ∧ watts + limit < s.power.lastW then s.power.lastW - limit else watts
     let volts := (mv :: s.power.mvs).take 1000
     (∀ start w u0 i, s.power.ramp = some (start, w, u0, i) → s.eff = .armed → s.run.checked = true → i < 256 → u0 ≤ 256 → w ≤ start.toNat →
       s.ent 0x2200 5 ≤ 256 → s.power.taperLeft ≤ 256 →
       ∃ u v, exec .rampStep s = .next u ∧ u.ent 0x2200 5 * 256 < v * 256 + (i + 1) * (256 - v) + 256 ∧
         v * 256 + (i + 1) * (256 - v) ≤ u.ent 0x2200 5 * 256 ∧ u.power.ramp = some (start, w, v, i + 1) ∧ u.power.taperLeft = 0 ∧
         (i ≠ 0 → v = u0) ∧ (i = 0 → s.power.taperLeft = 0 → v = s.ent 0x2200 5) ∧ s.now.toNat ≤ u.now.toNat) ∧
     (∀ n start w total, s.power.taperLeft = n + 1 → s.power.taper = (start, w, total) →
       let at_ := start.toNat + ceilDiv ((total - n) * w) 256
       (rampOwns s at_ = true → exec .taperStep s = .next s) ∧
       (rampOwns s at_ = false →
         (n = 0 ∧ s.power.sheds = true ∧ s.power.lastW < 25 + limit → ∃ u, exec .taperStep s = .next u ∧ u.ctl.dev = .standby ∧ u.ctl.powered = false) ∧
         (n ≠ 0 ∨ s.power.sheds = false ∨ 25 + limit ≤ s.power.lastW → ∃ u, exec .taperStep s = .next u ∧ u.ent 0x2200 5 = n ∧
           u.power = { s.power with taperLeft := n } ∧ s.now.toNat ≤ u.now.toNat ∧ (at_ < 2 ^ 64 → at_ ≤ u.now.toNat)))) ∧
     (mv ≤ 64000 → s.now ≤ t → drawOk s' watts = false → exec (.governorTick t mv watts avg1 avg10) s = .next s') ∧
     (s.now ≤ t → s.ctl.dev ≠ .off → drawOk s' watts = true → mv ≤ 64000 →
       (fillOverdue s' = true → ∃ u, exec (.governorTick t mv watts avg1 avg10) s = .next u ∧ u.ctl.dev = .fault ∧ u.ent 0x5002 4 = 0x4102) ∧
       (fillOverdue s' = false → s.power.sheds = true → s.power.taperLeft = 0 → draw < 25 + limit →
         ∃ u, exec (.governorTick t mv watts avg1 avg10) s = .next u ∧ u.ctl.dev = .standby ∧ u.ctl.powered = false) ∧
       (fillOverdue s' = false → s.power.sheds = false ∨ s.power.taperLeft ≠ 0 ∨ 25 + limit ≤ draw → avg1 < 2 ^ 32 → (∀ v ∈ s.power.mvs, v ≤ 64000) →
         ∃ u, exec (.governorTick t mv watts avg1 avg10) s = .next u ∧ u.now = t ∧ u.ent 0x2000 2 = volts.sum / volts.length ∧ u.ent 0x2000 3 = avg1 ∧
           u.ent 0x2000 4 = Nat.max (s.ent 0x2000 4) draw ∧ u.power.energyUJ = s.power.energyUJ + draw ∧ u.power.lastW = draw ∧
           (falls → u.power.stretched = true) ∧ (falls → s.power.stretched = false → ∃ e ∈ u.ev.raised, e.code = 0x1201 ∧ e.time = t) ∧
           (4200 < draw ∨ 3600 < avg10 → Nat.testBit (u.ent 0x2100 7) 1 = true) ∧
           (draw ≤ 4200 → avg10 ≤ 3600 → u.ent 0x2100 7 = s.ent 0x2100 7) ∧ u.cores = s.cores ∧ u.mem = s.mem)) ∧
     (64000 < mv → exec (.governorTick t mv watts avg1 avg10) s = .fault .outsideRatings) ∧
     (∀ b : FTime, s.power.below = some b → b.toNat + 10000000 ≤ s.now.toNat →
       ∃ u, exec .powerCapRelease s = .next u ∧ Nat.testBit (u.ent 0x2100 7) 1 = false) ∧
     (s.now ≤ t → s.power.returnLeft ≠ 0 → s.power.returnAt ≤ t →
       ∃ u, exec (.clockReturnStep t) s = .next u ∧ u.ent 0x2000 1 = s.ent 0x2000 1 + 50 ∧ u.power.returnLeft = s.power.returnLeft - 1)) ∧
  (∀ (s : State) (t : FTime), s.now ≤ t →
     let aborts (u : State) : Prop := (abandons s.run t.toNat = true → u.eff = .aborting) ∧
       (abandons s.run t.toNat = false → u.eff = .run ∧ u.run.deferred.isSome = true)
     (s.ctl.dev = .off → ∀ i ∈ [Instr.throttleInAssert t, .throttleInRelease t, .haltInAssert t, .haltInRelease t, .inputReminder t true,
       .inputReminder t false], exec i s = .next { s with now := t }) ∧
     (s.ctl.dev ≠ .off → s.ent 0x2100 4 ≠ 1 →
       ∃ u, exec (.throttleInAssert t) s = .next u ∧ u.ent 0x2100 4 = 1 ∧ u.ent 0x2100 5 = (s.ent 0x2100 5 + 1) % 2 ^ 32 ∧
         (s.ent 0x2100 6 = 1 → Nat.testBit (u.ent 0x2100 7) 0 = true) ∧ (s.ent 0x2100 6 ≠ 1 → u.ent 0x2100 7 = s.ent 0x2100 7)) ∧
     (s.ctl.dev ≠ .off → s.ent 0x2100 4 = 1 → ∃ u, exec (.throttleInRelease t) s = .next u ∧ u.ent 0x2100 4 = 0 ∧ Nat.testBit (u.ent 0x2100 7) 0 = false) ∧
     (s.ctl.dev ≠ .off → s.ent 0x2100 1 ≠ 1 →
       ∃ u, exec (.haltInAssert t) s = .next u ∧ u.ent 0x2100 1 = 1 ∧ u.ent 0x2100 2 = (s.ent 0x2100 2 + 1) % 2 ^ 32 ∧
         (s.ent 0x2100 3 ≠ 1 → s.ctl.powered = true → s.eff ≠ .run → s.eff ≠ .aborting → u.power.sheds = true ∧ u.power.taperLeft = 256) ∧
         (s.ent 0x2100 3 ≠ 1 → s.ctl.powered = true → s.eff = .run ∨ s.eff = .aborting → u.power.downAfterAbort = true) ∧
         (s.eff = .run → s.ent 0x2100 3 = 1 ∨ s.ctl.powered = true → aborts u) ∧
         (s.ent 0x2100 3 = 1 → s.eff = .armed → u.eff = if s.ctl.resuming then .pause else .ready)) ∧
     (s.ctl.dev ≠ .off → s.ent 0x2100 1 = 1 → exec (.haltInRelease t) s = .next ({ s with now := t }.setEnt 0x2100 1 0)) ∧
     (s.ctl.dev ≠ .off → s.ent 0x2100 1 = 1 → eventDue s.power.haltEventAt t = true →
       ∃ u e, exec (.inputReminder t true) s = .next u ∧ u.power = { s.power with haltEventAt := some t } ∧
         u.ev.raised = s.ev.raised ++ [e] ∧ e.code = 0x1102 ∧ e.time = t ∧ field e.detail 1 1 = 1) ∧
     (s.ctl.dev ≠ .off → s.ent 0x2100 4 = 1 → s.ent 0x2100 6 = 1 → eventDue s.power.throttleEventAt t = true →
       ∃ u e, exec (.inputReminder t false) s = .next u ∧ u.power = { s.power with throttleEventAt := some t } ∧
         u.ev.raised = s.ev.raised ++ [e] ∧ e.code = 0x1101 ∧ e.time = t ∧ field e.detail 1 1 = 1))

/-- The exchange of time flits (R42 to R44, Table 2-1): a port in service sends its device address, its sequence number and its fabric time;
what it receives gives the neighbour's root and, when the neighbour echoes a message of ours, the delay of the link, half of the round trip
less the neighbour's own time. The fraction of a timestamp is one of the multiples of 125 ps (log entry 140). Root, upstream and holdover
(R34, R36, R37, R49, R50): the best candidate becomes root 100 ms into START; in HOLDOVER the best module left takes over from the root that
is lost and keeps counting from its own time (the instant is the model's choice, log entry 30); an upstream port that no longer delivers
gives way to the best that does, and without one LOCKED falls to HOLDOVER, which keeps the rate last used while LOCKED, and ACQUIRING to
FREE; a bound above 32 ns unlocks the module with TIME_UNLOCK. When a port delivers fabric time is as the model reads it (log entry 18), and
that the bound passes 32 ns only by the largest growth of R49, with the entry at 32,001 ps from then on, is the model's choice (log entry
29). The 100 ms count from the entry to START (log entry 152). -/
def Obligations.TimeExchangeAndRoot : Prop :=
  (∀ (s : State) (t : FTime) (frac : W16) (p : Port) (f : Flit), s.now ≤ t → s.inService p.val = true →
     let x := s.timePort p.val
     let m := timeOf f.payload
     (∃ u g, exec (.timeExchange t frac p) s = .next u ∧ u.now = t ∧ (u.port p.val).urgent = (s.port p.val).urgent ++ [g] ∧ g.kind = 9 ∧
       field g.payload 0 1 = 1 ∧ field g.payload 2 2 = s.device % 65536 ∧ field g.payload 8 2 = x.seq.toNat ∧
       field g.payload 12 2 = (fine frac).toNat ∧ field g.payload 16 8 = t.toNat ∧
       (u.timePort p.val).seq = x.seq + 1 ∧ (u.timePort p.val).sentAt.head? = some (x.seq, stamp t.toNat (fine frac).toNat)) ∧
     (f.kind = 9 → f.creditVc.toNat < 6 → m.version = 1 → m.flags.toNat < 32 → noDevice m.sender = false → noDevice m.root = false → (s.port p.val).adapter = false →
       ∃ u, exec (.timeFlitReceive t frac p f) s = .next u ∧ (u.timePort p.val).peerSeq = some m.seq ∧
         (u.timePort p.val).peerRx = stamp t.toNat (fine frac).toNat ∧
         (u.timePort p.val).advert = some (m.root, m.rootPrio, m.hops, m.flags) ∧
         ∀ t1, m.flags.getLsbD 0 = true → (x.sentAt.find? fun e => decide (e.1 = m.echoSeq)) = some (m.echoSeq, t1) →
           u.ent 0x3021 (p.val + 1) = unsigned 32 (toPs
             (((stamp t.toNat (fine frac).toNat - t1) - (stamp m.txTime.toNat m.txFrac.toNat - stamp m.echoTime.toNat m.echoFrac.toNat)) / 2)))) ∧
  (∀ (s : State) (t : FTime),
     (s.ctl.dev = .start → s.lock = 1 → bestPort s = none → s.time.prio ≠ 0xFF →
       (∀ p a, p < 48 → s.inService p = true → (s.timePort p).advert = some a → ownKey s < portRootKey s p) →
       s.time.listenAt.toNat + 100000000 ≤ s.now.toNat →
       ∃ u, exec .becomeRoot s = .next u ∧ u.lock = 3 ∧ u.now = BitVec.ofNat 64 (s.ent 0x3010 3) ∧ u.time.isRoot = true ∧
         u.ent 0x3000 5 = s.device ∧ u.ent 0x3000 4 = 0xFF ∧ u.ent 0x3000 6 = 0) ∧
     (s.lock = 4 → s.time.isRoot = false → bestPort s = none → s.time.prio ≠ 0xFF →
       (∀ p a, p < 48 → s.inService p = true → (s.timePort p).advert = some a →
         ownKey s < portRootKey s p ∨ a.1.toNat = s.ent 0x3000 5) →
       ∃ u, exec .becomeRoot s = .next u ∧ u.lock = 3 ∧ u.now = s.now ∧ u.time.isRoot = true ∧ u.ent 0x3000 5 = s.device ∧
         u.ent 0x3000 6 = 0 ∧ ∃ e ∈ u.ev.raised, e.code = 0x2105) ∧
     (s.time.isRoot = false → s.lock ≠ 1 → s.ent 0x3000 4 ≠ 0xFF → delivers s (s.ent 0x3000 4) = false →
       (∀ q, bestPort s = some q → ∃ u, exec .upstreamReselect s = .next u ∧ u.ent 0x3000 4 = q ∧ u.lock = s.lock) ∧
       (bestPort s = none → ∃ u, exec .upstreamReselect s = .next u ∧ u.ent 0x3000 4 = 0xFF ∧
         u.lock = (if s.lock = 3 then 4 else if s.lock = 2 then 1 else s.lock) ∧ (s.lock = 3 → u.time.holdAt = s.now ∧
           u.time.holdRate = s.ent 0x3000 7) ∧ (s.lock = 4 → u.ent 0x3000 7 = s.time.holdRate))) ∧
     (s.now ≤ t → s.lock = 4 → s.time.slewing = false →
       32000 * 1000000000 < s.ent 0x3000 3 * 1000000000 + 20000 * (t.toNat - s.time.holdAt.toNat) →
       ∃ u, exec (.holdoverBoundExceeded t) s = .next u ∧ u.lock = 5 ∧ u.ent 0x3000 3 = 32001 ∧
         ∃ e ∈ u.ev.raised, e.code = 0x2101 ∧ e.time = t))

/-- Pulse per second (R52 to R56): in START the root's first pulse sets the fabric time to the nearest whole second, the cable delay added;
later pulses within 1 µs discipline it, pulses closer than half a second are merged, pulses outside the window are counted and change
nothing; a pulse missing for 2 s is reported once; PPS_OUT rises at whole seconds, for 1 ms; a module that is no root, or does not use the
input, counts the edge, in a counter of the model's own (log entry 123). Where no pulse was accepted yet, the 2 s count from the entry to
START (log entry 130). -/
def Obligations.PulsePerSecond : Prop :=
  ∀ (s : State) (t : FTime) (width : Nat),
    let at_ := t.toNat * 1000 - s.time.cable.toNat
    let off : Int := (at_ : Int) - ((nearestSecond at_ * 1000 : Nat) : Int)
    let apart : Prop := ∀ l, s.time.ppsLast = some l → l.toNat + 500000000 ≤ t.toNat
    let takes : Prop := s.now ≤ t ∧ 50 ≤ width ∧ s.ctl.dev ≠ .off ∧ s.time.isRoot = true ∧ s.time.ppsUse = 1
    (takes → s.ctl.dev = .start → s.time.ppsLast = none →
      ∃ u, exec (.ppsInEdge t width) s = .next u ∧ u.now = BitVec.ofNat 64 ((nearestSecond at_ * 1000 + s.time.cable.toNat) / 1000) ∧
        u.time.ppsLast = some u.now) ∧
    (takes → apart → (s.ctl.dev ≠ .start ∧ off.natAbs ≤ 1000000) ∨ (s.ctl.dev = .start ∧ s.time.ppsLast ≠ none) →
      ∃ u, exec (.ppsInEdge t width) s = .next u ∧ u.now = t ∧ u.time.ppsLast = some t ∧ u.time.ppsLostRaised = false ∧ u.ev = s.ev) ∧
    (takes → apart → s.ctl.dev ≠ .start → 1000000 < off.natAbs →
      ∃ u, exec (.ppsInEdge t width) s = .next u ∧ u.ent 0x3010 6 = (s.ent 0x3010 6 + 1) % 2 ^ 32 ∧ u.time.ppsLast = s.time.ppsLast ∧
        u.ent 0x3000 7 = s.ent 0x3000 7) ∧
    (takes → ¬ apart →
      ∃ u, exec (.ppsInEdge t width) s = .next u ∧ u.ent 0x3010 5 = (s.ent 0x3010 5 + 1) % 2 ^ 32 ∧ u.time.ppsLast = s.time.ppsLast) ∧
    (s.now ≤ t → s.time.isRoot = true → s.time.ppsUse = 1 → s.time.ppsLostRaised = false →
      (s.time.ppsLast.getD s.ctl.startAt).toNat + 2000000000 ≤ t.toNat →
      ∃ u e, exec (.ppsLost t) s = .next u ∧ u.time.ppsLostRaised = true ∧ u.ev.raised = s.ev.raised ++ [e] ∧ e.code = 0x2104) ∧
    (s.ctl.powered = true → s.lock ≠ 1 → s.now.toNat + 2000000000 < 2 ^ 64 →
      ∃ u k, exec .ppsOutPulse s = .next u ∧ u.time.ppsOut = some k ∧ u.now = k ∧ k.toNat % 1000000000 = 0 ∧ s.now.toNat ≤ k.toNat ∧
        s.time.ppsOut ≠ some k ∧ u.ppsHigh = true ∧ ({ u with now := k + 1000000 } : State).ppsHigh = false) ∧
    (s.now ≤ t → 50 ≤ width → s.ctl.dev ≠ .off → s.time.isRoot = false ∨ s.time.ppsUse ≠ 1 →
      exec (.ppsInEdge t width) s = .next { s with now := t, time := { s.time with ppsCount := s.time.ppsCount + 1 } })

/-- Training (R381, R387, R390 to R393): lock by lock a port reaches training, flit lock after four good windows in a row; it sends TRAIN flits,
ADVERTISE and then CONFIRM; a TRAIN flit of either phase that R391 or R392 refuses holds the port with an event, and another ADVERTISE is
accepted; a CONFIRM of the version that the port has confirmed takes it into service, with the peer's device address and credits, if the
wiring rules still hold for it. Every TRAIN flit of one training offers the same credits, with the flits that still wait in a VC at least 16
and never more than its share of the buffer (log entry 3). A held port trains again only after its retrain, and a port that was past its 3 s
stays out of service (log entry 44). -/
def Obligations.LinkTraining : Prop :=
  ∀ (s : State) (p : Port) (f : Flit) (ws : List (List Byte)),
    let x := s.port p.val
    let m := trainOf f.payload
    let trainFlit : Prop := f.kind = 0xB ∧ badHeader f = false ∧ m.version = 1 ∧ m.role.toNat ∈ [1, 2, 3, 0x10]
    (portsAlive s = true → s.portSt p.val = 1 → exec (.pcsLock p) s = .next (s.setEnt 0x3300 (p.val + 1) 2)) ∧
    (portsAlive s = true → s.portSt p.val = 2 →
      (ws.length = 4 → (∀ w ∈ ws, goodWindow w = true) →
        ∃ u, exec (.flitLockAcquired ⟨p, ws⟩) s = .next u ∧ u.portSt p.val = 3 ∧ u.port p.val = forgetTraining x) ∧
      (∀ w ∈ ws, goodWindow w = false → exec (.flitLockAcquired ⟨p, ws⟩) s = .next s)) ∧
    (portsAlive s = true → trains s p.val = true →
      ∃ u g, exec (.trainAdvertise p) s = .next u ∧ (u.port p.val).control = x.control ++ [g] ∧ g.kind = 0xB ∧
        field g.payload 0 1 = 1 ∧ field g.payload 1 1 = (if x.chosen = none then 1 else 2) ∧ field g.payload 7 1 = p.val ∧
        field g.payload 8 2 = s.device % 65536 ∧
        (∀ v, v < 6 → (x.grants = [] → 16 ≤ field g.payload (24 + 2 * v) 2 + x.held.getD v 0 ∧
            field g.payload (24 + 2 * v) 2 ≤ 170 - x.held.getD v 0 ∧ (u.port p.val).grants.getD v 0 = field g.payload (24 + 2 * v) 2) ∧
          (x.grants.length = 6 → field g.payload (24 + 2 * v) 2 = x.grants.getD v 0 % 65536 ∧ (u.port p.val).grants = x.grants))) ∧
    (portsAlive s = true → trains s p.val = true → trainFlit →
      (∀ k, holdCode s p.val m = some k → m.phase = 1 ∨ (m.phase = 2 ∧ x.chosen ≠ none) →
        ∃ u, exec (.trainReceive p f) s = .next u ∧ u.portSt p.val = 5 ∧ trains u p.val = false ∧
          (u.port p.val).chosen = none ∧ (x.holdRaised = false → ∃ e ∈ u.ev.raised, e.code = BitVec.ofNat 16 k)) ∧
      (m.phase = 1 → holdCode s p.val m = none → ∃ u, exec (.trainReceive p f) s = .next u ∧ (u.port p.val).advert = some m ∧
        (u.port p.val).chosen = some 1 ∧ u.portSt p.val = s.portSt p.val)) ∧
    (∀ a v, portsAlive s = true → trains s p.val = true → trainFlit → m.phase = 2 → holdCode s p.val m = none → x.advert = some a → x.chosen = some v →
      x.confirmSent = true → m.chosen = v → p.val ∉ s.ctl.portsPast → wiringOk s p.val a = true →
      ∃ u, exec (.trainReceive p f) s = .next u ∧ u.portSt p.val = 4 ∧ u.ent 0x3301 (p.val + 1) = a.device.toNat ∧
        u.ent 0x3302 (p.val + 1) = a.port.toNat ∧ (u.port p.val).credits = a.credits.map BitVec.toNat ∧
        (u.port p.val).txSeq = 0 ∧ (u.port p.val).rxSeq = 0 ∧ (u.port p.val).replay = []) ∧
    (portsAlive s = true → trains s p.val = true → trainFlit → p.val ∈ s.ctl.portsPast →
      ∃ u, exec (.trainReceive p f) s = .next u ∧ u.portSt p.val ≠ 4) ∧
    (s.portSt p.val = 5 → exec (.heldPortRetrain p) s =
      .next (s.setPort p.val { forgetTraining x with retraining := true })) ∧
    (s.portSt p.val = 5 → x.retraining = false → ∃ u, exec (.trainReceive p f) s = .next u ∧ u.dict = s.dict ∧ u.ev = s.ev ∧
      u.port p.val = { x with failures := (u.port p.val).failures })

/-- Leaving service (R378, R394): a port that goes down discards its replay buffer, counts and raises LINK_DOWN; the failure of a laser source
takes its eight ports out together and no other. That the open flits of such a port are kept, and that a port in training begins again
without LINK_DOWN, is as the model reads R394 (log entry 43). Replay (R381 to R385, R387): a corrupt flit asks for a replay, and again while
the expected flit is missing, and the eighth window in a row that fails costs the port its flit lock; a RETRY resends from the flit it
names, unless that flit was resent eight times; every flit's Ack releases what it passes and its credits are added. -/
def Obligations.LinkLossAndReplay : Prop :=
  (∀ (s : State) (t : FTime) (p : Port) (src : Fin 6),
     (s.now ≤ t → s.inService p.val = true →
       ∃ u, exec (.linkDown t p) s = .next u ∧ u.portSt p.val = 1 ∧ (u.port p.val).replay = [] ∧ (u.port p.val).vcs = (s.port p.val).vcs ∧
         u.ent 0x3304 (p.val + 1) = (s.ent 0x3304 (p.val + 1) + 1) % 2 ^ 32 ∧ (s.running = true → (u.port p.val).noSched = true) ∧
         (∀ q, q ≠ p.val → u.port q = s.port q) ∧ ∃ e, u.ev.raised = s.ev.raised ++ [e] ∧ e.code = 0x3101 ∧ e.time = t) ∧
     (s.now ≤ t → s.inService p.val = false → s.portSt p.val = 2 ∨ s.portSt p.val = 3 →
       ∃ u, exec (.linkDown t p) s = .next u ∧ u.portSt p.val = 1 ∧ u.port p.val = forgetTraining (s.port p.val) ∧ u.ev = s.ev) ∧
     (s.ctl.powered = true → src.val ∉ s.links.lasers →
       ∃ u, exec (.laserFault src) s = .next u ∧ src.val ∈ u.links.lasers ∧ (laserPorts src.val).length = 8 ∧
         (∀ q ∈ laserPorts src.val, u.portSt q = 6 ∧ (u.port q).replay = []) ∧
         (∀ q, q < 48 → q ∉ laserPorts src.val → u.portSt q = s.portSt q ∧ u.port q = s.port q) ∧
         ∃ e ∈ u.ev.raised, e.code = 0x3105) ∧
     (s.ctl.powered = true → src.val ∈ s.links.lasers → exec (.laserFault src) s = .next s)) ∧
  (∀ (s : State) (t : FTime) (p : Port) (f : Flit) (w : List Byte) (bad : Bool),
     let x := s.port p.val
     let n := if goodWindow w then 0 else x.failures + 1
     let y := takeCredits (takeAck { x with failures := 0 } f.ack.toNat) f.creditVc.toNat f.credits.toNat
     (s.inService p.val = true → bad = true ∨ goodWindow w = false ∨ badHeader (flitOf w) = true →
       (n < 8 → ∃ u, exec (.corruptFlit ⟨p, w, bad⟩) s = .next u ∧ (u.port p.val).discarding = true ∧
         (u.port p.val).retryDue = (!x.discarding || x.retryDue) ∧ (u.port p.val).rxSeq = x.rxSeq ∧ (u.port p.val).failures = n) ∧
       (8 ≤ n → ∃ u, exec (.corruptFlit ⟨p, w, bad⟩) s = .next u ∧ u.portSt p.val = 2 ∧ (u.port p.val).replay = [] ∧
         ∃ e ∈ u.ev.raised, e.code = 0x3101)) ∧
     (goodWindow w = true → badHeader (flitOf w) = false → exec (.corruptFlit ⟨p, w, false⟩) s = .next s) ∧
     (s.inService p.val = true → x.discarding = true →
       exec (.retryRepeat p) s = .next (s.setPort p.val { x with retryDue := true })) ∧
     (s.now ≤ t → Accepts s p f 0xC → ∀ i, (y.replay.findIdx? fun e => decide (e.1.seq = f.seq)) = some i →
       (∀ e, y.replay[i]? = some e →
         (e.2 < 8 → ∃ u, exec (.retryReceive t p f) s = .next u ∧ (u.port p.val).resend = some i ∧ (u.port p.val).replay = y.replay ∧
           u.ent 0x3303 (p.val + 1) = (s.ent 0x3303 (p.val + 1) + 1) % 2 ^ 64) ∧
         (8 ≤ e.2 → ∃ u, exec (.retryReceive t p f) s = .next u ∧ u.portSt p.val = 3 ∧ (u.port p.val).replay = []))) ∧
     (Accepts s p f 0 → f.creditVc.toNat < x.credits.length →
       ∃ u, exec (.idleReceive p f) s = .next u ∧ u.port p.val = y ∧
         y.credits.getD f.creditVc.toNat 0 = x.credits.getD f.creditVc.toNat 0 + f.credits.toNat ∧
         (∀ e rest, y.replay = e :: rest → ¬ (1 ≤ seqDiff f.ack.toNat e.1.seq.toNat ∧ seqDiff f.ack.toNat e.1.seq.toNat ≤ 1024)) ∧
         (∃ gone, x.replay = gone ++ y.replay)))

/-- The layout of a flit (R379, R380, Tables 13-2 and 13-3): its 256 bytes give back every field, and they are a good window. The flit slot
(R383, R386): on a port in service the first waiting TIME or ABORT flit leaves before all else, then a RETRY that is due; then, with nothing
scheduled, replayed or of the port's own, the first flit of an open VC that has a credit; with nothing to send the slot holds IDLE. Within
one rank of Table 13-5 the oldest flit leaves first (log entry 28), and the fraction of a transmit time is as log entry 140 says. A replayed
flit whose stored word cannot be corrected takes the port out of service (Table 18-3). A TIME flit carries the time at which it leaves. What
leaves carries the next number expected as its Ack, and a sequenced flit enters the replay buffer with the next number. A training port
sends its TRAIN flits, and a CONFIRM that leaves may take it into service. Maps (R9, R26, R382, R395): a MAP_SEND queues one MAP flit on
every mesh port in service, with the module's role and the state and peer of its global ports; a MAP flit replaces the kept map of the
module that sent it, and one whose payload carries a reserved role or port state is discarded. -/
def Obligations.FlitSlotsAndMaps : Prop :=
  (∀ f : Flit, f.payload.length = 240 → (f.kind = 1 → f.dst = 0 ∧ f.src = 0 ∧ f.tag = 0) →
     (f.kind ≠ 1 → f.index.toNat < 2 ^ 15 ∧ f.stream = 0 ∧ f.rep = 0) →
     (wireOf f).length = 256 ∧ flitOf (wireOf f) = f ∧ (f.kind.toNat < 0xE → goodWindow (wireOf f) = true)) ∧
  (∀ (s : State) (t : FTime) (p : Port), s.now ≤ t →
     let x := s.port p.val
     (s.inService p.val = true → (replayCheck { s with now := t } p.val).2 = true →
       ∃ u e, exec (.flitSlot t p) s = .next u ∧ u.portSt p.val = 3 ∧ (u.port p.val).replay = [] ∧ e ∈ u.ev.raised ∧ e.code = 0x3101) ∧
     (s.inService p.val = true → x.replay.length < 1024 → (replayCheck { s with now := t } p.val).2 = false →
       ∃ u f, exec (.flitSlot t p) s = .next u ∧ (u.port p.val).sentFlit = some f ∧ f.ack.toNat = x.rxSeq % 2048 ∧
         (∀ g rest, x.urgent = g :: rest → f.kind = g.kind ∧ (u.port p.val).urgent = rest ∧
           (g.kind ≠ 9 → f.payload = g.payload) ∧
           (g.kind = 9 → f.payload = timePayload { timeOf g.payload with txTime := t } ∧ (u.timePort p.val).sentAt.head? =
             some ((timeOf g.payload).seq, stamp t.toNat (timeOf g.payload).txFrac.toNat)) ∧
           (sequenced g.kind.toNat = true → f.seq.toNat = x.txSeq % 2048 ∧ (u.port p.val).txSeq = (x.txSeq + 1) % 2048 ∧
             (u.port p.val).replay = x.replay ++ [(f, 0)])) ∧
         (x.urgent = [] → x.retryDue = true → f.kind = 0xC ∧ f.seq.toNat = x.rxSeq % 2048 ∧ (u.port p.val).retryDue = false ∧
           (u.port p.val).replay = x.replay) ∧
         (x.urgent = [] → x.retryDue = false → x.resend = none → s.running = false → x.control = [] → (∀ v, v < 6 → x.vcs.getD v [] = []) →
           f.kind = 0 ∧ (u.port p.val).replay = x.replay) ∧
         (∀ v g o rest, x.urgent = [] → x.retryDue = false → x.resend = none → s.running = false → x.control = [] →
           pickVc x = some v → x.vcs.getD v [] = (g, o) :: rest → g.kind ≠ 9 →
           f.kind = g.kind ∧ f.payload = g.payload ∧ (u.port p.val).vcs = x.vcs.set v rest ∧
             (u.port p.val).credits = x.credits.set v (x.credits.getD v 0 - 1))) ∧
     (s.inService p.val = false → portsAlive s = true → trains s p.val = true →
       ∃ u f, exec (.flitSlot t p) s = .next u ∧ (u.port p.val).sentFlit = some f ∧
         (∀ g rest, x.control = g :: rest → f = g ∧ (u.port p.val).control = rest ∧
           (confirms g = true → x.chosen ≠ none → (u.port p.val).confirmSent = true ∧
             ∀ a, x.advert = some a → x.confirmed = x.chosen → p.val ∉ s.ctl.portsPast → wiringOk s p.val a = true → u.portSt p.val = 4)) ∧ (x.control = [] → f.kind = 0))) ∧
  (∀ (s : State) (p : Port) (f : Flit),
     (∃ u, exec .mapSend s = .next u ∧ u.dict = s.dict ∧ ∀ q, q < 31 →
       (s.inService q = true → ∃ g, (u.port q).control = (s.port q).control ++ [g] ∧ g.kind = 0xD ∧ field g.payload 0 1 = 1 ∧
         field g.payload 1 1 = s.ent 0x3200 3 % 256 ∧
         ∀ k, k < 17 → field g.payload (4 + 4 * k) 1 = 31 + k ∧ field g.payload (5 + 4 * k) 1 = s.portSt (31 + k) % 256 ∧
           field g.payload (6 + 4 * k) 2 = s.ent 0x3301 (32 + k) % 65536) ∧
       (s.inService q = false → u.port q = s.port q)) ∧
     (Accepts s p f 0xD → (s.port p.val).adapter = false → p.val ≤ 30 → field f.payload 0 1 = 1 →
       ∃ u, exec (.mapReceive p f) s = .next u ∧ sget [] u.links.maps (meshPeer s p.val) = padTo 72 f.payload ∧
         (∀ a, a ≠ meshPeer s p.val → sget [] u.links.maps a = sget [] s.links.maps a) ∧
         (u.port p.val).rxSeq = ((s.port p.val).rxSeq + 1) % 2048) ∧
     (∀ k, k < 17 → s.inService p.val = true → f.kind = 0xD → field f.payload 1 1 ∉ [1, 2, 3] ∨ field f.payload (5 + 4 * k) 1 ∉ [1, 2, 3, 4, 5, 6] →
       ∃ u, exec (.mapReceive p f) s = .next u ∧ u.links.maps = s.links.maps ∧ (u.port p.val).rxSeq = (s.port p.val).rxSeq ∧ (u.port p.val).discarding = true))

/-- Requests of other modules (R398 to R402, R405): an accepted HEAD opens its segment and its transfer, a refused one only answers; DATA joins
its segment in order; a READ that R405 permits is answered on the response VC with status 0 and the bytes asked; a POST raises its semaphore
by 1 and is acknowledged. A HEAD that would open one transfer too many waits in its VC. A request whose source address names neither a
module nor the host opens, reads and raises nothing (R14). -/
def Obligations.RequestsServed : Prop :=
  ∀ (s : State) (t : FTime) (p q : Port) (f : Flit), s.now ≤ t → f.dst.toNat = s.device → NothingWaits s →
    let b := f.payload
    let n := field b 4 4
    let tid := field b 16 2
    let key := transferKey f.src.toNat tid
    let status := (accessStatus { s with now := t } f.src (field b 8 6) n true).2
    let first := if n < 208 then n else 208
    let answers (u : State) (fs : List Flit) : Prop := vcQueue u q.val 3 = vcQueue s q.val 3 ++ fs
    let routed : Prop := routePort s s.device f.src.toNat = some q.val ∧ (s.port q.val).vcs.length = 6
    (Accepts s p f 2 → opensTooMany s f = true →
      ∃ u, exec (.headFlitReceive t p f) s = .next u ∧ (u.port p.val).waiting = [f] ∧ u.links.segments = s.links.segments ∧
        u.links.transfers = s.links.transfers ∧ u.mem = s.mem) ∧
    (badSource f = true →
      (Accepts s p f 2 → opensTooMany s f = false → ∃ u, exec (.headFlitReceive t p f) s = .next u ∧ u.links.transfers = s.links.transfers ∧
        u.mem = s.mem ∧ ∀ g ∈ u.links.segments, g ∈ s.links.segments ∨ g.refused = true) ∧
      (Accepts s p f 4 → ∃ u, exec (.readFlitReceive t p f) s = .next u ∧ u.mem = s.mem) ∧
      (Accepts s p f 7 → ∃ u, exec (.postFlitReceive t p f) s = .next u ∧ u.cores = s.cores)) ∧
    (Accepts s p f 2 → opensTooMany s f = false → headOk b = true → badSource f = false →
      (status = 0 → f.last = decide (n ≤ 208) →
        ∃ u g, exec (.headFlitReceive t p f) s = .next u ∧ u.links.segments = s.links.segments ++ [g] ∧ g.src = f.src ∧ g.tag = f.tag ∧
          g.base = field b 8 6 ∧ g.bytes = n ∧ g.got = first ∧ g.refused = false ∧ g.complete = f.last ∧
          g.pendingBytes = slice (padTo 240 b) 32 first ∧ (u.transfer key).isSome = true ∧
          (s.transfer key = none → ∃ x, u.transfer key = some x ∧ x.total = field b 20 4 + 1 ∧ x.committed = 0)) ∧
      (status ≠ 0 → f.last = true → routed →
        ∃ u a, exec (.headFlitReceive t p f) s = .next u ∧ u.links.segments = s.links.segments ∧ answers u [a] ∧ a.kind = 6 ∧
          field a.payload 0 1 = status % 256)) ∧
    (∀ g, Accepts s p f 3 → (s.links.segments.find? (isSegment p.val f)) = some g → g.refused = false →
      g.got < g.bytes → f.index.toNat = g.index →
      let k := Nat.min 240 (g.bytes - g.got)
      f.last = decide (g.got + k = g.bytes) →
      ∃ u, exec (.dataFlitReceive t p f) s = .next u ∧ { g with
        got := g.got + k, index := g.index + 1, pendingBytes := g.pendingBytes ++ padTo k b, complete := f.last } ∈ u.links.segments ∧
        u.mem = s.mem) ∧
    (∀ (bytes : List Byte), Accepts s p f 4 → badSource f = false → 1 ≤ field b 8 4 → field b 8 4 ≤ 4096 → routed →
      (accessStatus { s with now := t } f.src (field b 0 6) (field b 8 4) false).2 = 0 →
      placeOf (field b 0 6) (field b 8 4) = .hbm → HbmSound s → hread s (field b 0 6) (field b 8 4) = bytes →
      ∃ u fs, exec (.readFlitReceive t p f) s = .next u ∧ answers u fs ∧ (∀ a ∈ fs, a.kind = 5 ∧ a.tag = f.tag ∧ a.dst = f.src) ∧
        fs.length = ceilDiv (field b 8 4 + 16) 240 ∧
        fs.flatMap Flit.payload = le 1 0 ++ le 3 0 ++ le 4 (field b 8 4) ++ le 8 0 ++ bytes ∧ u.mem.hbm = s.mem.hbm) ∧
    (Accepts s p f 7 → s.running = true → f.src.toNat ≠ 0xFFFF → badSource f = false → routed →
      let c := field b 0 2 % 1024
      let k := field b 2 1
      c ≤ 191 → k ≤ 47 → s.isLanding c k = false → s.sem c k + 1 < 2 ^ 32 →
      ∃ u a, exec (.postFlitReceive t p f) s = .next u ∧ u.sem c k = s.sem c k + 1 ∧
        (∀ i m, (i ≠ c ∨ m ≠ k) → u.sem i m = s.sem i m) ∧ answers u [a] ∧ a.kind = 6 ∧ field a.payload 0 1 = 0)

/-- Answers and messages (R400, R401, R407): a RESP gathers its bytes, and a SHAPE has its value once the last is in; an ACK closes its request
and is counted for the mover; a request without its answer in time is given up, counted and reported; a host message whole reaches Galena
and is acknowledged. -/
def Obligations.AnswersTaken : Prop :=
  ∀ (s : State) (t : FTime) (p : Port) (f : Flit), s.now ≤ t →
    let tag := f.tag.toNat
    let mine : Prop := f.dst.toNat = s.device
    (∀ r, Accepts s p f 5 → mine → requestOf s f = some r → r.kind = .read →
      let got := if f.index = 0 then slice (padTo 240 f.payload) 16 224 else r.got ++ padTo 240 f.payload
      let st := if f.index = 0 then some (BitVec.ofNat 8 (field f.payload 0 1)) else r.status
      (f.last = false → ∃ u, exec (.respReceive t p f) s = .next u ∧
        sget none u.links.requests tag = some { r with got := got, status := st }) ∧
      (∀ k g d, f.last = true → st = some 0 → r.moveId = 0 → r.bytes = 4 → QuietMovers s → (s.core r.core.val).wait = .shape k g d none →
        ∃ u, exec (.respReceive t p f) s = .next u ∧ sget none u.links.requests tag = none ∧
          (u.core r.core.val).wait = .shape k g d (some (BitVec.ofNat 32 (ofLe (padTo 4 got)))))) ∧
    (∀ r, Accepts s p f 6 → mine → requestOf s f = some r → field f.payload 0 1 = 0 → QuietMovers s →
      (r.kind = .post → ∃ u, exec (.ackReceive t p f) s = .next u ∧ sget none u.links.requests tag = none ∧ u.cores = s.cores) ∧
      (r.kind = .segment → ∃ u, exec (.ackReceive t p f) s = .next u ∧ sget none u.links.requests tag = none ∧
        u.ent 0x4030 (r.core.val + 1) = (s.ent 0x4030 (r.core.val + 1) + r.bytes) % 2 ^ 64)) ∧
    (∀ r, sget none s.links.requests tag = some r → r.deadline ≤ t →
      ∃ u, exec (.completionTimeout t f.tag) s = .next u ∧ sget none u.links.requests tag = none ∧
        u.ent 0x3320 2 = (s.ent 0x3320 2 + 1) % 2 ^ 32 ∧ ∃ e ∈ u.ev.raised, e.code = 0x3303 ∧ e.time = t) ∧
    (Accepts s p f 8 → mine → NothingWaits s → f.src = 0xFFFF#16 → f.index = 0 → f.last = true →
      let n := field f.payload 2 2
      1 ≤ n → n ≤ 224 →
      ∃ u, exec (.hostmsgReceive t p f) s = .next u ∧ u.links.galenaIn = s.links.galenaIn ++
        [(BitVec.ofNat 16 (field f.payload 0 2), slice (padTo 240 f.payload) 16 n)])

/-- Scheduled instances received (R389, R418, R421): a SCHED flit that no entry receives, or outside RUN, is a stray and changes nothing but its
count; an instance of one flit of a RECV lands its data bytes at its buffer, signals and is counted; a flit of a RELAY waits in a slot of
its share; a first flit before LAST of the instance in progress leaves that one malformed (R419). That a stream is unknown to the schedule
set in force where no entry receives it on the port is as the model reads R389 (log entry 37). -/
def Obligations.ScheduledReceive : Prop :=
  ∀ (s : State) (t : FTime) (p : Port) (f : Flit), s.now ≤ t → Accepts s p f 1 → (s.port p.val).adapter = false →
    let at_ := findEntry s receives p.val f.stream.toNat
    (at_ = none ∨ s.running = false →
      ∃ u, exec (.schedFlitReceive t p f) s = .next u ∧ u.ent 0x3320 3 = (s.ent 0x3320 3 + 1) % 2 ^ 64 ∧ u.mem = s.mem ∧ u.cores = s.cores ∧
        u.coll = s.coll) ∧
    (∀ i, at_ = some i → s.running = true →
      let e := centry s i
      let r := s.crecv i
      let d := ceD e
      let buf := bufAddr (centry s (i + 1)) r.count
      let sync := centry s (i + 2)
      let c := bits sync 33 24
      let k := bits sync 39 34
      (ceOp e = 2 → ceSource e = 0 → ceStaged e = false → ceCheck e = 0 → 1 ≤ d → d ≤ 224 → f.index = 0 → f.last = true → r.active = false →
        syncGate { s with now := t } sync r.count = true → field (padTo 240 f.payload) d 1 = 1 → buf + d ≤ hbmSize → HbmSound s →
        s.sem c k + ceilDiv d 64 < 2 ^ 32 →
        ∃ u, exec (.schedFlitReceive t p f) s = .next u ∧ (∀ m, m < d → hbyte u (buf + m) = (padTo 240 f.payload).getD m 0) ∧
          (∀ m, (∀ a, a < d → phys s (buf + a) ≠ m) → sget 0 u.mem.hbm m = sget 0 s.mem.hbm m) ∧
          (u.crecv i).count = r.count + 1 ∧ (u.crecv i).active = false ∧ u.ent 0x3420 2 = (s.ent 0x3420 2 + 1) % 2 ^ 64 ∧
          (Nat.testBit sync 104 = true → s.isLanding c k = true → u.sem c k = s.sem c k + ceilDiv d 64) ∧
          (Nat.testBit sync 104 = false → u.cores = s.cores)) ∧
      (ceOp e = 3 → f.index = 0 → f.last = decide (flitsOf d = 1) → r.active = false → (shareOf s i).2 < (shareOf s i).1 →
        ∃ u, exec (.schedFlitReceive t p f) s = .next u ∧ (u.crecv i).slots = r.slots ++ [(r.count, 0, f.last, padTo 240 f.payload)] ∧
          (u.crecv i).count = r.count + 1 ∧ u.mem.hbm = s.mem.hbm) ∧
      (f.index = 0 → r.active = true → ∃ u, exec (.schedFlitReceive t p f) s = .next u ∧ (∃ a ∈ u.ev.raised, a.code = 0x3404 ∧ a.time = t) ∧
        (abandons s.run t.toNat = true → u.eff = .aborting) ∧ (s.run.collFault = false → u.ent 0x3430 1 = 0x3404 ∧
          u.ent 0x3430 4 = (r.count - 1) % 2 ^ 32)))

/-- Sources of the collectives (R415, R417, R422): with its gate open and the instance before read, a SEND of memory begins an instance with the
D bytes of its buffer and the trailer, which wait while an earlier one has still to leave; once they are read the signal follows; a SEND of
the vote carries the module's vote word; a LOCAL input of memory joins its group, unless its instance was discarded, with its signal. -/
def Obligations.CollectiveSources : Prop :=
  ∀ (s : State) (t : FTime) (i : Nat), s.now ≤ t → s.running = true →
    let s' : State := { s with now := t }
    let e := centry s i
    let d := ceD e
    let x := s.csend i
    let r := s.crecv i
    let sync := centry s (syncOf s i)
    let signal (u : State) (sy : Nat) : Prop := (Nat.testBit sy 104 = true → s.isLanding (bits sy 33 24) (bits sy 39 34) = false →
        s.sem (bits sy 33 24) (bits sy 39 34) + 1 < 2 ^ 32 →
        u.sem (bits sy 33 24) (bits sy 39 34) = s.sem (bits sy 33 24) (bits sy 39 34) + 1) ∧
      (Nat.testBit sy 104 = false → u.cores = s.cores)
    (s.run.drainSince = none → ceOp e = 1 → ceSource e = 0 → x.reading = false → syncGate s' sync x.count = true →
      bufAddr (centry s (i + 1)) x.count + d ≤ hbmSize → HbmSound s →
      ∃ u tr, let b : List Byte := hread s (bufAddr (centry s (i + 1)) x.count) d ++ tr
        exec (.sendInstanceStart t i) s = .next u ∧ tr.length = 16 ∧ field tr 0 1 = 1 ∧ field tr 12 4 = x.count % 2 ^ 32 ∧
        (x.active = false →
          u.csend i = { x with count := x.count + 1, active := true, ordinal := x.count, sent := 0, reading := true, bytes := b }) ∧
        (x.active = true → u.csend i = { x with count := x.count + 1, reading := true, ahead := x.ahead ++ [(x.count, b)] }) ∧
        u.mem.hbm = s.mem.hbm) ∧
    (s.run.drainSince = none → ceOp e = 1 → ceSource e = 2 → x.active = false → x.reading = false → syncGate s' sync x.count = true →
      ∃ u tr, exec (.sendInstanceStart t i) s = .next u ∧ tr.length = 16 ∧
        u.csend i = { x with count := x.count + 1, active := true, ordinal := x.count, sent := 0, bytes := padTo d (le 4 (voteWord s)) ++ tr } ∧
        trVersioned tr = decide (ceVersionSource e ≠ 0) ∧
        (ceVersionSource e = 2 → trVersion tr = s.ent 0x5010 1 % 2 ^ 32)) ∧
    (x.reading = true → s.sem (bits sync 33 24) (bits sync 39 34) + 1 < 2 ^ 32 →
      ∃ u, exec (.sendReadDone t i) s = .next u ∧ u.csend i = { x with reading := false, readDone := x.readDone + 1 } ∧ signal u sync) ∧
    (let sy := centry s (i + 2);
      s.run.drainSince = none → ceOp e = 5 → ceLocal e = true → ceSource e ≠ 2 → syncGate s' sy r.count = true →
      bufAddr (centry s (i + 1)) r.count + d ≤ hbmSize → HbmSound s → s.sem (bits sy 33 24) (bits sy 39 34) + 1 < 2 ^ 32 →
      ∃ u tr, exec (.localInputStart t i) s = .next u ∧ tr.length = 16 ∧ (u.crecv i).count = r.count + 1 ∧
        (u.cgroup (groupAbove s i)).locals = (s.cgroup (groupAbove s i)).locals ++
          (if r.count < (s.cgroup (groupAbove s i)).done then []
            else [(i, r.count, hread s (bufAddr (centry s (i + 1)) r.count) d ++ tr)]) ∧ signal u sy)

/-- Reduction, staging and lateness (R67, R422, R423, R426): a block whose inputs are all present joins its group's output, each word the OR, or
each FP16 element the sum in input order, and its slots are free, and a slot that cannot be corrected aborts the step (Table 18-3); an
instance that lands in memory behind a closed gate is discarded with RECEIVER_LATE; a staged instance is copied and signalled when its gate
opens; an instance incomplete at its deadline is counted, reported twice and raises the abort at that deadline. That the gate of a group
which lands in memory is checked at its first block is as the model reads R422 (log entry 120). -/
def Obligations.ReduceStageLate : Prop :=
  ∀ (s : State) (t : FTime) (i : Nat) (p : Port) (stream : BitVec 14), s.running = true →
    let e := centry s i
    let d := ceD e
    (let y := s.cgroup i;
      let b := y.blocks
      let ins := (groupInputs s i).1
      let n := if 240 * (b + 1) < d then 240 else d - 240 * b
      let data (k : Nat) : List Byte := (inputFlit s i k y.done b).getD []
      let sound : Prop := ∀ k ∈ ins, ceLocal (centry s k) = false → (checkSlot s k y.done b).2 = false
      s.now ≤ t → ceOp e = 4 → ins ≠ [] → b + 1 ≠ flitsOf d → (∀ k ∈ ins, (inputFlit s i k y.done b).isSome = true) → grOutput e ≠ 0 →
      (¬ sound → ∃ u, exec (.groupBlockReduce t i) s = .next u ∧ u.cgroup i = (if abandons s.run t.toNat then u.cgroup i else y) ∧
        (abandons s.run t.toNat = true → u.eff = .aborting)) ∧
      (sound → ∃ u out, exec (.groupBlockReduce t i) s = .next u ∧ (u.cgroup i).blocks = b + 1 ∧ (u.cgroup i).out = y.out ++ out ∧
        (grOp e = 2 → out = (List.range (n / 4)).flatMap fun k => le 4 (ins.foldl (fun a j => a ||| field (data j) (4 * k) 4) 0)) ∧
        (grOp e ≠ 2 → out = (List.range (n / 2)).flatMap fun k => le 2 (sumFp16 (ins.map data) (2 * k))) ∧
        (∀ k ∈ ins, ∀ q ∈ (u.crecv k).slots, ¬ (q.1 = y.done ∧ q.2.1 = b)) ∧ u.mem.hbm = s.mem.hbm)) ∧
    (let y := s.cgroup i;
      let ins := (groupInputs s i).1
      s.now ≤ t → ceOp e = 4 → ins ≠ [] → y.blocks = 0 → (∀ k ∈ ins, (inputFlit s i k y.done 0).isSome = true) → grOutput e = 0 →
      syncGate { s with now := t } (centry s ((groupInputs s i).2 + 1)) y.done = false →
      ∃ u, exec (.groupBlockReduce t i) s = .next u ∧ (∃ a ∈ u.ev.raised, a.code = 0x3403 ∧ a.time = t) ∧
        (abandons s.run t.toNat = false → u.mem = s.mem ∧ (u.cgroup i).done = y.done + 1 ∧ ∀ k ∈ ins, ∀ q ∈ (u.crecv k).slots, q.1 ≠ y.done)) ∧
    (∀ x, s.now ≤ t → (s.coll.staged.find? fun x => decide (x.entry = i)) = some x →
      let sync := centry s (i + 3)
      let from_ := bufAddr (centry s (i + 1)) x.ordinal
      let dest := bufAddr (centry s (i + 2)) x.ordinal
      syncGate { s with now := t } sync x.ordinal = true → from_ + d ≤ hbmSize → dest + d ≤ hbmSize → HbmSound s →
      s.sem (bits sync 33 24) (bits sync 39 34) + ceilDiv d 64 < 2 ^ 32 →
      ∃ u, exec (.stagedCopy t i) s = .next u ∧ (∀ m, m < d → hbyte u (dest + m) = hbyte s (from_ + m)) ∧ x ∉ u.coll.staged ∧
        (Nat.testBit sync 104 = true → s.isLanding (bits sync 33 24) (bits sync 39 34) = true →
          u.sem (bits sync 33 24) (bits sync 39 34) = s.sem (bits sync 33 24) (bits sync 39 34) + ceilDiv d 64)) ∧
    (∀ set capo k, setInForce s p.val = some (set, capo) → findEntry s transmits p.val stream.toNat = some k →
      let x := s.csend k
      let n := repetition set.length capo s.now.toNat
      fretsOf set stream.toNat ≠ [] → capo ≤ s.now.toNat → repDue (centry s k) n = true → ceSource (centry s k) ≠ 3 →
      (p.val, stream.toNat) ∉ s.run.late → (x.sent = 0 → x.rep ≤ n) → (x.sent ≠ 0 → x.rep = n) →
      let fret := if x.sent = 0 then (fretsOf set stream.toNat).getD (slackOf set stream.toNat) 0
        else (fretsOf set stream.toNat).getD ((fretsOf set stream.toNat).length - 1) 0
      let due := capo + (n * set.length + fret + 1) * 128
      ∃ u, exec (.lateTransfer p stream) s = .next u ∧ (s.run.aborts = [] → u.ent 0x3110 4 = due) ∧
        (abandons s.run due = true → u.eff = .aborting ∧ u.ent 0x5010 3 = 3) ∧ (abandons s.run due = false → u.eff = .run ∧ u.run.deferred.isSome = true) ∧
        u.ent 0x3110 1 = (s.ent 0x3110 1 + 1) % 2 ^ 32 ∧ u.ent 0x3110 2 = stream.toNat ∧
        u.ent 0x3110 3 = p.val ∧ (∃ a ∈ u.ev.raised, a.code = 0x3202) ∧ ∃ a ∈ u.ev.raised, a.code = 0x3201)

/-- The main-side commands of Table 15-8 (R445, R446, R447, R498): each is accepted in the states that the table names, with the state that it
names, and answered STATE, with nothing changed, in every other. POWER_DOWN tapers the draw before the rails are shed. A command that leaves
TEST drops the tab that is armed, runs or is paused there (the model's choice, log entry 104). -/
def Obligations.MainSideCommands : Prop :=
  ∀ (s : State) (slot : Fin 8) (req : W32) (ver : Byte) (t : FTime), SessionWrite s slot req ver t →
    let o := Origin.fdp slot req ver
    let d := s.ctl.dev
    let accepts (i : Instr) (P : State → Prop) : Prop := Gives s i slot req stOk P
    let refuses (i : Instr) : Prop := Gives s i slot req stState (Untouched s)
    let moved (u : State) (e : Dev) : Prop := u.ctl.dev = e ∧ u.ent 0x5002 2 = d.code
    let test : Prop := d = .test ∧ s.ctl.powered = true ∧ s.power.sheds = false ∧ s.power.downAfterAbort = false ∧
      s.ctl.phase ∈ [Dev.ready, .armed, .run, .pause, .aborting]
    (d = .standby → assigned s = true → powerBlocked s = false → accepts (.powerUp o t) fun u => moved u .init ∧ u.ctl.powered = true) ∧
    (d = .ready ∨ d = .pause ∨ d = .recovery ∨ d = .fault ∨ test → accepts (.powerDown o t) fun u =>
      u.ctl.dev = d ∧ u.power.sheds = true ∧ u.power.taperLeft = 256 ∧ u.ent 0x2200 5 = 256 ∧ (d = .test → u.ctl.phase = .ready)) ∧
    (d = .fault → accepts (.restart o t) fun u => moved u .init ∧ u.mem.hbm = []) ∧
    (d = .ready ∨ d = .recovery ∨ test → accepts (.restart o t) fun u => moved u .start ∧ u.ent 0x3000 2 = 1) ∧
    (d = .ready → accepts (.enterTest o t) fun u => moved u .test ∧ u.ctl.phase = .ready) ∧
    (d = .ready ∨ d = .fault → accepts (.enterRecovery o t) fun u => moved u .recovery) ∧
    (d = .recovery ∨ test → accepts (.leave o t) fun u => moved u .ready) ∧
    (d ≠ .standby ∨ assigned s = false ∨ powerBlocked s = true → refuses (.powerUp o t)) ∧
    (¬ (d = .ready ∨ d = .pause ∨ d = .test ∨ d = .recovery ∨ d = .fault) → refuses (.powerDown o t)) ∧
    (¬ (d = .fault ∨ d = .ready ∨ d = .recovery ∨ d = .test) → refuses (.restart o t)) ∧
    (d ≠ .ready → refuses (.enterTest o t)) ∧
    (¬ (d = .ready ∨ d = .fault) → refuses (.enterRecovery o t)) ∧
    (¬ (d = .recovery ∨ d = .test) → refuses (.leave o t))

/-- The program commands of Table 15-12 (R162, R264, R454, R476): ARM selects a start and is refused while the hold is set; PAUSE asks a run
with a context base for its pause point, one that drains already too, and without one raises CONTEXT_INVALID (`0x5505`); RESUME selects a
resume in PAUSE; ABORT cancels an arming, raises the abort of a run, or leaves PAUSE for READY, when register 6 is zero. ARM and RESUME
clear `armSpent`, the model's mark of a selection that an arming has used (log entry 99). The hold is cleared by CLEAR_HOLD. Each completes:
it ends in a next state, its write logged and answered with a status; from whatever origin and in whatever state, each ends in a next state. -/
def Obligations.ProgramCommands : Prop :=
  (∀ (s : State) (o : Origin) (t : FTime), (∃ u, exec (.arm o t) s = .next u) ∧ (∃ u, exec (.pause o t) s = .next u) ∧
    (∃ u, exec (.resume o t) s = .next u) ∧ (∃ u, exec (.abort o t) s = .next u) ∧ ∃ u, exec (.clearHold o t) s = .next u) ∧
  ∀ (s : State) (slot : Fin 8) (req : W32) (ver : Byte) (t : FTime), SessionWrite s slot req ver t →
    let o := Origin.fdp slot req ver
    (s.eff = .ready → s.ent 0x7200 5 = 0 → ∃ u, exec (.arm o t) s = .next u ∧ Logged s u slot req stOk ∧
      u.ent 0x5000 3 = 1 ∧ u.ctl = { s.ctl with armSpent := false }) ∧
    (s.eff ≠ .ready ∨ s.ent 0x7200 5 ≠ 0 → ∃ u, exec (.arm o t) s = .next u ∧ Logged s u slot req stState ∧ Untouched s u) ∧
    (s.running = true → s.ent 0x5510 2 ≠ 0 → ∃ u, exec (.pause o t) s = .next u ∧ Logged s u slot req stOk ∧
      u.run.pauseAsked = true ∧ u.ent 0x5000 3 = 2 ∧ u.ctl = s.ctl ∧ u.cores = s.cores) ∧
    (s.running = true → s.ent 0x5510 2 = 0 → ∃ u, exec (.pause o t) s = .next u ∧ Logged s u slot req stState ∧
      u.run = s.run ∧ u.dict = s.dict ∧ ∃ e, u.ev.raised = s.ev.raised ++ [e] ∧ e.code = 0x5505 ∧ e.time = t) ∧
    (s.running = false → ∃ u, exec (.pause o t) s = .next u ∧ Logged s u slot req stState ∧ Untouched s u) ∧
    (s.eff = .pause → ∃ u, exec (.resume o t) s = .next u ∧ Logged s u slot req stOk ∧
      u.ent 0x5000 3 = 3 ∧ u.ctl = { s.ctl with armSpent := false }) ∧
    (s.eff ≠ .pause → ∃ u, exec (.resume o t) s = .next u ∧ Logged s u slot req stState ∧ Untouched s u) ∧
    (s.eff = .armed → ∃ u, exec (.abort o t) s = .next u ∧ Logged s u slot req stOk ∧
      u.eff = (if s.ctl.resuming then .pause else .ready) ∧ u.power.ramp = none ∧ u.run.checked = false ∧ { u.links with galenaIn := s.links.galenaIn } = s.links ∧ u.mem = s.mem) ∧
    (s.running = true → ∃ u, exec (.abort o t) s = .next u ∧ Logged s u slot req stOk ∧ (∃ e ∈ u.ev.raised, e.code = 0x5003) ∧
      (s.run.aborts = [] → abandons s.run t.toNat = true → u.eff = .aborting ∧ u.ent 0x5010 3 = 3 ∧ u.ent 0x5010 1 = s.ent 0x5010 1) ∧
      (∀ p, p < 48 → s.inService p = true → (u.port p).urgent = (s.port p).urgent ++
        [bareFlit 0xA (abortPayload s.device 0x5003 t.toNat (s.ent 0x5010 1 % 2 ^ 32))]) ∧
      (s.run.aborts = [] → abandons s.run t.toNat = false → u.eff = s.eff ∧ u.run.deferred.isSome = true)) ∧
    (s.eff = .pause → ∃ u, exec (.abort o t) s = .next u ∧ Logged s u slot req stOk ∧ u.eff = .ready ∧ u.mem = s.mem ∧
      ∀ b ∈ u.oct 0x8210 7, b = 0) ∧
    (s.eff ≠ .armed → s.running = false → s.eff ≠ .pause → ∃ u, exec (.abort o t) s = .next u ∧ Logged s u slot req stState ∧ Untouched s u) ∧
    (∀ v : Byte, v = 0 ∨ 4 < v.toNat → Gives s (.dictionaryWrite o t 0x5000 3 [v]) slot req stRange (Untouched s)) ∧
    (∃ u, exec (.clearHold o t) s = .next u ∧ Logged s u slot req stOk ∧ u.ent 0x7200 5 = 0 ∧ u.ctl = s.ctl ∧ u.run = s.run)

/-- The arming write (R451, R495, R496, R529): in LOCKED, with the memory filled and no hold, halt or power-down, a start selected in READY, or
a resume in PAUSE, by a selection that no arming has used (log entry 99), arms the module when the tab address is right and the start lies
far enough ahead: by the arming lead, and by the ramp window and 125 µs, each plus the hash time with an owner or for a resume. Too soon,
START_TOO_SOON (`0x1202`) is raised and nothing is armed. A hash of an earlier run that is still under way stays owed (log entry 119). The
arming checks (R450, R452, R476, R477, R483, R497): passed, the tab is loaded, its programs, sets, capo table and shards in place and the
ramp due; refused, the arming is cancelled, and the check's event is raised and kept. The measurement of the tab is recorded; `0x5000:07`
shows it once the tab is accepted, and register 6 in the run; a hash that is owed to an earlier tab comes first (log entry 119). A resume of
a run whose measurement is not recorded is refused with CONTEXT_INVALID (R477). Checks that are not complete in time raise START_TOO_SOON. -/
def Obligations.Arming : Prop :=
  (∀ (s : State) (slot : Fin 8) (req : W32) (ver : Byte) (t start : FTime), SessionWrite s slot req ver t →
     let i := Instr.armingWrite (.fdp slot req ver) t start
     let base := s.ent 0x5000 1
     let resume : Prop := s.eff = .pause ∧ s.ent 0x5000 3 = 3
     let allowed : Prop := s.ctl.filled = true ∧ s.ent 0x3000 2 = 3 ∧ s.ent 0x7200 5 = 0 ∧ s.ent 0x2100 1 = 0 ∧ s.power.supplyHalt = none ∧ s.power.sheds = false ∧ s.ctl.armSpent = false ∧
       (resume ∨ (s.eff = .ready ∧ s.ent 0x5000 3 = 1))
     let placed : Prop := base % 4096 = 0 ∧ base + 512 ≤ 0x012000000000
     let hash (n : Nat) : Prop := (s.ent 0x8130 7 = 1 ∨ resume → n = ceilDiv (field (hread s base 512) 16 8) 8 + 10000000) ∧
       (¬ (s.ent 0x8130 7 = 1 ∨ resume) → n = 0)
     let enough (n : Nat) : Prop := t.toNat + s.ent 0x5000 5 + n ≤ start.toNat ∧ t.toNat + rampWindow s + 125000 + n ≤ start.toNat
     (¬ allowed → Gives s i slot req stState (Untouched s)) ∧
     (allowed → ¬ placed → Gives s i slot req stRange (Untouched s)) ∧
     (∀ n, allowed → placed → hash n → enough n → Gives s i slot req stOk fun u => u.eff = .armed ∧ u.run.tab = base ∧ u.run.start = start ∧
       u.run.checked = false ∧ u.ent 0x5000 2 = start.toNat ∧ u.trust.hashing = true ∧
       (s.trust.hashing = true → u.trust.owedTab = some s.run.tab) ∧ (u.ctl.resuming = true ↔ resume) ∧ u.ctl.armSpent = true ∧ u.cores = s.cores ∧ u.mem = s.mem) ∧
     (∀ n, allowed → placed → hash n → ¬ enough n → Gives s i slot req stRange fun u => u.ctl = s.ctl ∧ u.run = s.run ∧ u.dict = s.dict ∧
       ∃ e, u.ev.raised = s.ev.raised ++ [e] ∧ e.code = 0x1202)) ∧
  (∀ (s : State) (t : FTime),
     let base := s.run.tab
     let back : Dev := if s.ctl.resuming then .pause else .ready
     (s.now ≤ t → s.eff = .armed → s.run.checked = false → t.toNat + rampWindow s ≤ s.run.start.toNat → hashLacks s = true →
       ∃ u, exec (.armingChecksDone t) s = .next u ∧ u.eff = back ∧ u.run.checked = false ∧ u.cores = s.cores ∧ u.mem.hbm = s.mem.hbm ∧
         u.ent 0x5000 4 = 0x5505 ∧ ∃ e ∈ u.ev.raised, e.code = 0x5505) ∧
     (s.now ≤ t → s.eff = .armed → s.run.checked = false → t.toNat + rampWindow s ≤ s.run.start.toNat → hashWaits s = false → hashLacks s = false →
       match armingChecks s base with
       | none => ∃ u, exec (.armingChecksDone t) s = .next u ∧ u.eff = .armed ∧ u.run.checked = true ∧ u.run.capos = capoTable s base ∧
           u.run.sets = (schedSets s base).map (fun x => (x.1, x.2.2)) ∧ u.run.shards = shardTabEntries s (thShards (tabHead s base)) ∧
           u.power.ramp = some (s.run.start, rampWindow s, s.ent 0x2200 5, 0) ∧ u.ent 0x5000 4 = 0 ∧ u.mem.hbm = s.mem.hbm ∧
           (∀ m, s.run.measurement = some m → m.length = 48 → u.oct 0x5000 7 = m) ∧
           (s.ctl.resuming = false → ∀ c, c < 192 →
             match (programs s base).find? fun p => decide (p.1 = c) with
             | some p => (u.core c).program = p.2.words ∧ (u.core c).modes = p.2.modes ∧ (u.core c).landing = BitVec.ofNat 48 p.2.landing
             | none => (u.core c).program = [])
       | some b => ∃ u, exec (.armingChecksDone t) s = .next u ∧ u.eff = back ∧ u.run.checked = false ∧ u.cores = s.cores ∧ u.mem.hbm = s.mem.hbm ∧
           u.ent 0x5000 4 = b.1 ∧ (∃ e ∈ u.ev.raised, e.code = BitVec.ofNat 16 b.1) ∧
           (HbmSound s → ∃ e, u.ev.raised = s.ev.raised ++ [e] ∧ e.code = BitVec.ofNat 16 b.1)) ∧
     (∀ b, s.trust.owedTab = some b → ∃ u, exec .tabMeasured s = .next u ∧ u.trust.owedTab = none ∧ u.oct 0x5000 7 = measure s b ∧
       (s.eff = .pause ∨ (s.eff = .armed ∧ s.ctl.resuming = true) → u.trust.pausedHash = some (measure s b) ∧ u.oct 0x8210 7 = measure s b) ∧
       u.run = s.run ∧ u.ctl = s.ctl ∧ u.cores = s.cores) ∧
     (s.trust.owedTab = none → s.trust.hashing = true → (s.run.checked = true ∨ (s.eff = .armed ∧ hashFirst s = true)) →
       ∃ u, exec .tabMeasured s = .next u ∧ u.run.measurement = some (measure s base) ∧ u.trust.hashing = false ∧ u.ctl = s.ctl ∧ u.cores = s.cores ∧
         u.oct 0x5000 7 = (if s.run.checked then measure s base else s.oct 0x5000 7) ∧
         u.oct 0x8210 7 = (if s.running then measure s base else s.oct 0x8210 7)) ∧
     (s.eff = .armed → s.run.checked = false → rampWindow s ≤ s.run.start.toNat →
       ∃ u, exec .armingDeadline s = .next u ∧ u.eff = back ∧ s.run.start.toNat - rampWindow s ≤ u.now.toNat ∧ u.ent 0x5000 4 = 0x1202 ∧ u.cores = s.cores ∧
         ∃ e, u.ev.raised = s.ev.raised ++ [e] ∧ e.code = 0x1202 ∧ field e.detail 12 1 = 4))

/-- The start fabric time (R28, R57, R165, Table 4-1): the module enters RUN at full duty; every core with a program starts at instruction 0
with `s1` to `s3` holding core number, device address and step, its control blocks cleared and the rest of its core-local memory kept; for a
resume each core stands as its context image says. Nothing else of the memory changes. -/
def Obligations.StartFabricTime : Prop :=
  ∀ (s : State), s.eff = .armed → s.run.checked = true → (∀ k, k < 16 → (s.stream k).batches = []) →
    ∃ u, exec .startFabricTimeReached s = .next u ∧ u.eff = .run ∧ u.ent 0x2200 5 = 256 ∧ u.mem.hbm = s.mem.hbm ∧
      u.now = (if s.now ≤ s.run.start then s.run.start else s.now) ∧ u.power.ramp = none ∧ u.run.verdict = none ∧ u.run.aborts = [] ∧
      (s.ctl.resuming = false → u.run.start = s.run.start ∧ ∀ c, c < 192 →
        let x := s.core c
        let y := u.core c
        y.status = (if x.program = [] then 4 else 2) ∧ y.pc = 0 ∧ y.program = x.program ∧ y.modes = x.modes ∧ y.wait = .none ∧ y.loops = [] ∧
        y.regs = [0, BitVec.ofNat 64 c, BitVec.ofNat 64 s.device, BitVec.ofNat 64 (s.ent 0x5010 1 % 2 ^ 32)] ++ List.replicate 12 0 ∧
        y.sems = [] ∧ y.acc = x.acc ∧ y.wide = x.wide ∧
        ∀ a, sget 0 y.clm a = if (0x3FC800 ≤ a ∧ a < 0x3FC840) ∨ (0x3FD840 ≤ a ∧ a < 0x3FD880) then 0 else sget 0 x.clm a) ∧
      (s.ctl.resuming = true → ∀ c, c < 192 → u.core c = { loadImage s c ((((programs s s.run.tab).find? fun p => decide (p.1 = c)).map fun p => p.2.words.length).getD 0) with
        waitSince := u.now }) ∧
      (∀ m, s.run.measurement = some m → m.length = 48 → u.oct 0x8210 7 = m) ∧
      (∀ p, p < 48 → s.ctl.resuming = false → (u.port p).inForce = (forceAt s.run.capos p 0).map fun f => (f.1, s.run.start + BitVec.ofNat 64 f.2))

/-- Walks over shards (R260, R271): EXPORT and VERIFY take up the shard that `0x5410:01` names; that a command is refused while a walk is in
progress, and that an index past the table answers RANGE, is the model's choice (log entry 158). Done, EXPORT has put version and digest
into the shard's header, and VERIFY reports whether the digest agrees. -/
def Obligations.ShardWalks : Prop :=
  ∀ (s : State) (slot : Fin 8) (req : W32) (ver : Byte) (t : FTime),
    let o := Origin.fdp slot req ver
    let n := s.ent 0x5410 1
    let open_ : Prop := (s.ctl.dev = .ready ∨ s.ctl.dev = .pause) ∧ s.run.walk = none
    let starts (i : Instr) (k : Nat) : Prop :=
      (open_ → n < s.run.shards.length → Gives s i slot req stOk fun u => u.run.walk = some (k, n) ∧ u.ent 0x5410 3 = 1 ∧ u.mem = s.mem) ∧
      (open_ → s.run.shards.length ≤ n → Gives s i slot req stRange (Untouched s)) ∧
      (¬ open_ → Gives s i slot req stState (Untouched s))
    (SessionWrite s slot req ver t → starts (.exportShard o t) 1 ∧ starts (.verify o t) 2) ∧
    (∀ cmd i, s.now ≤ t → s.run.walk = some (cmd, i) →
      let e := shardAt s i
      let h := shardHead s e
      let d := digestRange s h (liveCopy s e) 0 (hdCount h)
      ∃ u, exec (.shardWalkDone t) s = .next u ∧ u.run.walk = none ∧ u.ent 0x5410 4 = d ∧
        (cmd = 1 → u.ent 0x5410 3 = 2 ∧ (shHeader e + 128 ≤ 0x012000000000 →
          hread u (shHeader e + 8) 4 = le 4 (shardVersion s e) ∧ hread u (shHeader e + 16) 8 = le 8 d ∧
          ∀ a, a < 0x012000000000 → (a < shHeader e + 8 ∨ shHeader e + 24 ≤ a ∨ (shHeader e + 12 ≤ a ∧ a < shHeader e + 16)) → hbyte u a = hbyte s a)) ∧
        (cmd ≠ 1 → d = field h 16 8 → u.ent 0x5410 3 = 2 ∧ u.mem.hbm = s.mem.hbm ∧ (HbmSound s → u.ev = s.ev)) ∧
        (cmd ≠ 1 → d ≠ field h 16 8 → u.ent 0x5410 3 = 3 ∧ u.mem.hbm = s.mem.hbm ∧ (∃ x ∈ u.ev.raised, x.code = 0x5405) ∧
          (HbmSound s → ∃ x, u.ev.raised = s.ev.raised ++ [x] ∧ x.code = 0x5405)))

/-- A write to the dictionary (R434, R435, R457, Table 15-6): the first check that it fails, of entry, length, access, originator class, state
and range, is its status, and nothing else changes; a write that passes sets a plain entry, and no other. Refused or accepted, it is logged.
The order of the checks is the model's reading: R435 states none (log entry 100). A forced semaphore write (R167, R168): in RUN and TEST the
semaphore takes the value, or the saturating sum, without an overflow; in PAUSE the saved image does; other states refuse it. A TEST whose
own phase is PAUSE writes the image too (log entry 78). It is counted with SEM_FORCED (`0x5501`), and no other semaphore changes. A region's
mode is changed in STANDBY and READY only (R177). -/
def Obligations.DictionaryWrites : Prop :=
  (∀ (s : State) (slot : Fin 8) (req : W32) (ver : Byte) (t : FTime) (index : W16) (sub : Byte) (value : List Byte),
     let i := Instr.dictionaryWrite (.fdp slot req ver) t index sub value
     let n := index.toNat
     let k := sub.toNat
     let refused (st : Nat) : Prop := Gives s i slot req st (Untouched s)
     let cls := if slot.val < 4 then 1 else 0
     SessionWrite s slot req ver t → isRegionWrite n k = false →
     match entryOf n k with
     | none => refused stNoEntry
     | some e =>
       let readOnly : Prop := e.acc = .ro ∨ e.acc = .const
       let settled : Prop := e.acc = .rws → s.ctl.dev = .standby ∨ s.ctl.dev = .ready
       (lengthOk e value.length = false → refused stLength) ∧
       (lengthOk e value.length = true → readOnly → refused stAccess) ∧
       (lengthOk e value.length = true → ¬ readOnly → Nat.testBit e.writers cls = false → refused stOriginator) ∧
       (lengthOk e value.length = true → ¬ readOnly → Nat.testBit e.writers cls = true → ¬ settled → refused stState) ∧
       (lengthOk e value.length = true → ¬ readOnly → Nat.testBit e.writers cls = true → settled → valueOk e value = false → refused stRange) ∧
       (lengthOk e value.length = true → ¬ readOnly → Nat.testBit e.writers cls = true → settled → valueOk e value = true →
         n ∈ [0x2200, 0x3010, 0x3020, 0x3200, 0x3310, 0x4200, 0x5010, 0x6030, 0x7000, 0x7210, 0x7220, 0x8010] →
         Gives s i slot req stOk fun u => u.ent n k = ofLe value ∧ (∀ j l, ekey j l ≠ ekey n k → u.ent j l = s.ent j l) ∧
           u.ctl = s.ctl ∧ u.cores = s.cores ∧ u.mem = s.mem ∧ u.octs = s.octs)) ∧
  (∀ (s : State) (slot : Fin 8) (req : W32) (ver : Byte) (t : FTime) (value : W32) (region : Fin 24) (mode : Byte), SessionWrite s slot req ver t →
     let o := Origin.fdp slot req ver
     let c := s.ent 0x9100 1
     let k := s.ent 0x9100 2
     let new (old : Nat) : Nat := if s.ent 0x9100 3 = 2 then Nat.min (old + value.toNat) (2 ^ 32 - 1) else value.toNat
     let noted (u : State) : Prop := u.ent 0x9100 5 = (s.ent 0x9100 5 + 1) % 2 ^ 32 ∧ u.ent 0x9100 6 = t.toNat ∧
       (∃ e ∈ u.ev.raised, e.code = 0x5501) ∧
       ((s.eff = .pause → HbmSound s) → ∃ e, u.ev.raised = s.ev.raised ++ [e] ∧ e.code = 0x5501)
     (s.eff ≠ .pause → (s.ctl.dev = .run ∨ s.ctl.dev = .test) → Gives s (.semForce o t value) slot req stOk fun u =>
       u.sem c k = new (s.sem c k) ∧ noted u ∧ (∀ d j, d ≠ c ∨ j ≠ k → u.sem d j = s.sem d j) ∧ u.mem = s.mem) ∧
     (s.eff = .pause → Gives s (.semForce o t value) slot req stOk fun u => noted u ∧ u.cores = s.cores ∧
       (c < 192 → k < 48 → imageAt s c + 0x800000 ≤ 0x012000000000 → imageSem u c k = new (imageSem s c k) ∧ imageOk u c =
         (decide (hread s (imageAt s c) 1 = le 1 1) && decide (ofLe (hread s (imageAt s c + 2) 2) = c)))) ∧
     (s.eff ≠ .pause → s.ctl.dev ≠ .run → s.ctl.dev ≠ .test → Gives s (.semForce o t value) slot req stState (Untouched s)) ∧
     (s.ctl.dev = .standby ∨ s.ctl.dev = .ready → mode.toNat ≤ 1 → Gives s (.regionModeWrite o t region mode) slot req stOk fun u =>
       u.ent 0x4010 (region.val + 1) = mode.toNat ∧ (∀ r, r < 24 → r ≠ region.val → u.ent 0x4010 (r + 1) = s.ent 0x4010 (r + 1)) ∧
       u.mem.hbm = s.mem.hbm ∧ u.cores = s.cores) ∧
     (s.ctl.dev = .standby ∨ s.ctl.dev = .ready → 1 < mode.toNat → Gives s (.regionModeWrite o t region mode) slot req stRange (Untouched s)) ∧
     (s.ctl.dev ≠ .standby → s.ctl.dev ≠ .ready → Gives s (.regionModeWrite o t region mode) slot req stState (Untouched s)))

/-- The page area and page commands (R286, R288, R290, R294, Table 9-9): a write to the area, accepted only with every slot closed and where the
rules of R286 hold, zeroes it, at once (the model's reading of the 10 ms, log entry 67); OPEN opens a slot; MAP maps each page to its
granules, which the slot then owns; FREE clears a page that nothing reads, and marks one in flight as pending; CLOSE unmaps every page of
its slot; a command that breaks a rule is refused, counted and reported. From a session or from a program, the effect is the same; a
program's command is committed once it is applied or refused, and refused it aborts the program's run. -/
def Obligations.PageCommands : Prop :=
  ∀ (s : State) (slot : Fin 8) (req : W32) (ver : Byte) (t : FTime) (cmd : List Byte),
    let o := Origin.fdp slot req ver
    let b (op : Byte) : List Byte := cmd.set 0 op
    let k := field cmd 1 1
    let e := field cmd 2 1
    let page := field cmd 4 4
    let count := field cmd 8 2
    let granule := field cmd 12 4
    let g := 2 ^ ((s.pageSlot k).e - 4)
    let slotOk : Prop := 4 ≤ (s.pageSlot k).e ∧ (s.pageSlot k).e ≤ 13
    let counted (u : State) : Prop := u.ent 0x5200 2 = (s.ent 0x5200 2 + 1) % 2 ^ 64
    let opened (u : State) : Prop := u.pageSlot k = { st := 1, e := e, mapped := 0, pending := 0 } ∧ counted u ∧ u.mem.hbm = s.mem.hbm
    let mapped (u : State) : Prop := counted u ∧ ∀ j, j < count →
      (sameMapping s k (page + j, granule + j * g) = false →
        entryAt u k (page + j) =
          { first := granule + j * g, owner := k, size := (s.pageSlot k).e - 4, mapped := true, pending := false, inFlight := 0 } ∧
        ∀ i, i < g → recordOf u (granule + j * g + i) = (k, 1)) ∧
      (sameMapping s k (page + j, granule + j * g) = true → entryAt u k (page + j) = entryAt s k (page + j))
    let freed (u : State) : Prop := counted u ∧ ∀ j, j < count →
      ((entryAt s k (page + j)).inFlight = 0 → hread u (pageEntryAt s k (page + j)) 8 = List.replicate 8 0 ∧
        ∀ i, i < g → recordOf u (granule + j * g + i) = (0, 0)) ∧
      ((entryAt s k (page + j)).inFlight ≠ 0 →
        entryAt u k (page + j) = { entryAt s k (page + j) with mapped := false, pending := true } ∧
        ∀ i, i < g → recordOf u (granule + j * g + i) = (k, 2))
    let closed (u : State) : Prop := counted u ∧
      (∀ j, j < pageEntries s → (entryAt u k j).mapped = false) ∧ ((u.pageSlot k).st = 2 ∨ u.pageSlot k = PageSlot.reset)
    let may (op : Byte) : Prop := pageRefusal s (b op) = none
    let sizes : Prop := ∀ j, j < count → (entryAt s k (page + j)).size = (s.pageSlot k).e - 4
    let command (op : Byte) (o : Origin) : Instr :=
      if op = 1 then .openSlot o t cmd else if op = 2 then .map o t cmd else if op = 3 then .free o t cmd else .close o t cmd
    cmd.length = 16 → s.ctl.filled = true →
    (SessionWrite s slot req ver t →
      (∀ (sub : Byte) (value : List Byte), sub = 1 → value.length = 8 → (s.ctl.dev = .standby ∨ s.ctl.dev = .ready) →
        ((∀ x ∈ s.pages.slots, x.2.st = 0) → areaOk (s.setEnt 0x5210 1 (ofLe value)) = true → ofLe value ≠ 0 →
          Gives s (.pageAreaSet o t sub value) slot req stOk fun u => u.ent 0x5210 1 = ofLe value ∧ u.ent 0x5230 1 = s.ent 0x5210 5 ∧
            u.ent 0x5230 2 = 0 ∧ hread u (ofLe value) (areaBytes s) = List.replicate (areaBytes s) 0) ∧
        ((∀ x ∈ s.pages.slots, x.2.st = 0) → areaOk (s.setEnt 0x5210 1 (ofLe value)) = false →
          Gives s (.pageAreaSet o t sub value) slot req stRange (Untouched s)) ∧
        ((∃ x ∈ s.pages.slots, x.2.st ≠ 0) → areaOk (s.setEnt 0x5210 1 (ofLe value)) = true →
          Gives s (.pageAreaSet o t sub value) slot req stState (Untouched s))) ∧
      (may 1 → Gives s (.openSlot o t cmd) slot req stOk opened) ∧
      (may 2 → PagesSound s → slotOk → Gives s (.map o t cmd) slot req stOk mapped) ∧
      (may 3 → PagesSound s → slotOk → sizes → Gives s (.free o t cmd) slot req stOk freed) ∧
      (may 4 → PagesSound s → Gives s (.close o t cmd) slot req stOk closed) ∧
      (∀ op, op ∈ [(1 : Byte), 2, 3, 4] → ∀ ev n, pageRefusal s (b op) = some (ev, n) →
        Gives s (command op o) slot req stRange fun u => u.ent 0x5200 3 = (s.ent 0x5200 3 + 1) % 2 ^ 32 ∧ u.oct 0x5200 4 = b op ∧ u.pages = s.pages ∧
          u.mem.hbm = s.mem.hbm ∧ u.ctl = s.ctl ∧ (∃ x ∈ u.ev.raised, x.code = BitVec.ofNat 16 ev) ∧
          (HbmSound s → ∃ x, u.ev.raised = s.ev.raised ++ [x] ∧ x.code = BitVec.ofNat 16 ev))) ∧
    (∀ c op, op ∈ [(1 : Byte), 2, 3, 4] → ProgramWrite s c 0x5200 1 (b op) t → s.links.transfers = [] →
      let done (P : State → Prop) : Prop := ∃ u, exec (command op (.prog c)) s = .next u ∧ u.audit.made = s.audit.made + 1 ∧
        u.ent 0x4030 (c.val + 1) = (s.ent 0x4030 (c.val + 1) + 16) % 2 ^ 64 ∧ P u
      (may op → (op = 1 → done opened) ∧ (op = 2 → PagesSound s → slotOk → done mapped) ∧ (op = 3 → PagesSound s → slotOk → sizes → done freed) ∧
        (op = 4 → PagesSound s → done closed)) ∧
      (∀ ev n, pageRefusal s (b op) = some (ev, n) → done fun u => u.ent 0x5200 3 = (s.ent 0x5200 3 + 1) % 2 ^ 32 ∧ u.oct 0x5200 4 = b op ∧
        (∃ x ∈ u.ev.raised, x.code = BitVec.ofNat 16 ev) ∧ (s.running = true → abandons s.run t.toNat = true → u.eff = .aborting)))

/-- Streams are switched and batches released by writes (R320, R321, R348): an enable takes the stream's program, after the whole check of its
configuration; a disable frees everything the stream holds, unless a step in progress needs the stream; a release retires the oldest full
batches. That enabling a stream which is enabled answers STATE is as the model reads R320 (log entry 82). -/
def Obligations.StreamCommands : Prop :=
  ∀ (s : State) (slot : Fin 8) (req : W32) (ver : Byte) (t : FTime) (k : Fin 16) (count : Byte), SessionWrite s slot req ver t →
    let o := Origin.fdp slot req ver
    let x := s.stream k.val
    let p := hread s (s.strm k.val 6) 2048
    let may : Prop := s.ctl.dev = .ready ∨ s.ctl.dev = .test ∨ s.ctl.dev = .recovery
    let needed : Prop := (s.ctl.dev = .armed ∨ s.ctl.dev = .run ∨ s.ctl.dev = .pause ∨ s.ctl.dev = .aborting) ∧ s.strm k.val 0xE ≠ 0
    let others (u : State) : Prop := ∀ j, j ≠ k.val → u.stream j = s.stream j
    (may → x.on = false → streamValid s k.val p = true → Gives s (.streamEnable o t k) slot req stOk fun u =>
      u.stream k.val = { Stream.reset with on := true, program := p } ∧ u.strm k.val 1 = 1 ∧ u.strm k.val 0xB = batchBytes (s.strm k.val 0xA) p ∧
        (∀ j, 1 ≤ j → j ≤ 9 → u.ent (0x6200 + k.val) j = 0) ∧ others u) ∧
    (may → x.on = false → streamValid s k.val p = false → Gives s (.streamEnable o t k) slot req stRange fun u =>
      u.mfe = s.mfe ∧ (HbmSound s → (∀ i j, i < 0x4020 ∨ 0x4022 < i → u.ent i j = s.ent i j) ∧
        ∃ e, u.ev.raised = s.ev.raised ++ [e] ∧ e.code = 0x6104)) ∧
    (¬ may ∨ x.on = true → Gives s (.streamEnable o t k) slot req stState (Untouched s)) ∧
    (¬ needed → Gives s (.streamDisable o t k) slot req stOk fun u => u.stream k.val = Stream.reset ∧ u.strm k.val 1 = 0 ∧ others u ∧
      ∀ d ∈ u.video.decode, ¬ (d.1 = 1 ∧ d.2.1 = k.val)) ∧
    (needed → Gives s (.streamDisable o t k) slot req stState (Untouched s)) ∧
    (1 ≤ count.toNat → count.toNat ≤ 16 → (may ∨ s.ctl.dev = .start) → x.on = true → x.owed = 0 → Gives s (.batchRelease o t k count) slot req stOk fun u =>
      others u ∧
      (count.toNat ≤ x.batches.length → (∀ b ∈ x.batches.take count.toNat, b.full = true) →
        (u.stream k.val).batches = x.batches.drop count.toNat ∧ (u.stream k.val).owed = 0) ∧
      ((∀ b ∈ x.batches.head?, b.full = false) → (u.stream k.val).batches = x.batches ∧ (u.stream k.val).owed = count.toNat)) ∧
    (1 ≤ count.toNat → count.toNat ≤ 16 → ¬ may → s.ctl.dev ≠ .start → Gives s (.batchRelease o t k count) slot req stState (Untouched s)) ∧
    (count.toNat = 0 ∨ 16 < count.toNat → Gives s (.batchRelease o t k count) slot req stRange (Untouched s))

/-- Samples from list to batch (R322, R337, R339 to R341, R345, R346), with memory that holds no error: a list header is taken while its counts
are possible, and else stops the stream; the next descriptor of the stream in turn is dispatched, checked, and rejected with its reason
where a check fails; a decoded sample is finished with its slot's bytes; one past its budget is timed out; the oldest finished sample is
emitted with its slot record into its batch. -/
def Obligations.MediaSamples : Prop :=
  ∀ (s : State) (t : FTime) (st : Fin 16), s.now ≤ t → mediaRuns s = true → HbmSound s → s.mem.sramRaw = [] →
    let k := st.val
    let x := s.stream k
    let n := ofLe (peek s (s.strm k 2) 8)
    let r := if s.strm k 4 = 0 then x.reservePublished else ofLe (peek s (s.strm k 4) 8)
    let possible : Prop := x.published ≤ n ∧ n ≤ s.ent (0x6200 + k) 3 + s.strm k 3 ∧
      (s.strm k 4 ≠ 0 → x.reservePublished ≤ r ∧ r ≤ s.ent (0x6200 + k) 4 + s.strm k 5)
    let rejected (y : Sample) (reason : Nat) : Prop := y.st = 1 ∧ y.valid = false ∧ y.reason = reason ∧ y.instance_ = none ∧ y.pipe = none
    (x.on = true → x.stopped = false →
      (possible → ∃ u, exec (.listHeaderRead t st) s = .next u ∧ u.stream k = { x with published := n, reservePublished := r }) ∧
      (¬ possible → s.strm k 0xE = 0 → ∃ u, exec (.listHeaderRead t st) s = .next u ∧ u.stream k = { x with stopped := true } ∧
        ∃ e, u.ev.raised = s.ev.raised ++ [e] ∧ e.code = 0x6104)) ∧
    ((rotated s).find? (streamReady s) = some k → (∀ y ∈ x.window, y.st ≠ 2 ∧ y.number ≠ x.next) → replaces s = false →
      let d := (readDesc s k false x.next).1
      ∃ u y, exec (.sampleDispatch t st) s = .next u ∧ (u.stream k).window = x.window ++ [y] ∧ (u.stream k).next = x.next + 1 ∧
        y.number = x.next ∧ y.desc = d ∧ y.attempts = 1 ∧ u.mfe.nextStream = (k + 1) % 16 ∧
        match (checkSample s k d false).1 with
        | .ok _ => y.st = 0 ∧ (y.instance_.isSome = true ∨ y.pipe.isSome = true)
        | .error reason => rejected y reason) ∧
    (∀ m y, x.sample m = some y → y.st = 0 → y.replace = false →
      (t.toNat < budgetEnd s y → ∃ u z, exec (.sampleFinish t st m) s = .next u ∧ (u.stream k).sample m = some z ∧ z.desc = y.desc ∧
        match produce s k y.desc (peek s (sdSource y.desc) (sdBytes y.desc)) with
        | .ok o => z.st = 1 ∧ z.valid = true ∧ z.result = o.1 ∧ z.instance_ = none ∧ z.pipe = none ∧ z.took = t.toNat - y.at_.toNat
        | .error reason => rejected z reason) ∧
      (budgetEnd s y ≤ t.toNat → ∃ u z, exec (.sampleTimeout t st m) s = .next u ∧ (u.stream k).sample m = some z ∧ rejected z 0x0D ∧ z.timedOut = true ∧
        u.ent (0x6200 + k) 8 = (s.ent (0x6200 + k) 8 + 1) % 2 ^ 64)) ∧
    (∀ y l, x.window = y :: l → y.st = 1 →
      let base := batchAt s k (batchNo s k y)
      let e := (stageWith (stagesOf x.program (layoutProgram x y.desc)) 0xF).getD []
      let place := base + emitOffset e + slotNo s k y * emitStride e
      ∃ u, exec (.sampleEmit t st) s = .next u ∧ (u.stream k).window = l.filter (fun z => decide (z.number ≠ y.number)) ∧
        u.ent (0x6200 + k) 3 = (s.ent (0x6200 + k) 3 + 1) % 2 ^ 64 ∧
        (y.valid = true → u.ent (0x6200 + k) 6 = (s.ent (0x6200 + k) 6 + 1) % 2 ^ 64) ∧
        (s.strm k 0xA ≤ 256 → base + 8320 ≤ 0x012000000000 → s.strm k 0xD = 0xFFFFFFFFFFFFFFFF →
          hread u (base + 128 + 32 * slotNo s k y) 32 = slotRecord y ∧
          (8320 ≤ emitOffset e → place + y.result.length ≤ 0x012000000000 → hread u place y.result.length = y.result)))

/-- The video engine (R359 to R361, R365, R366, R369, R370), with memory that holds no error: an encode command that passes takes its context,
and one that fails is counted with ENCODE_INVALID (`0x6301`); a free decode pipe takes the next source frame, of the lowest context that
waits for one (log entry 91); a decoded frame frees its pipe; an encoded frame is written behind those before it, or, past the capacity,
ends its command with the clip record; the pipe is left idle only while no context waits for one. -/
def Obligations.VideoEncoding : Prop :=
  ∀ (s : State) (t : FTime), HbmSound s → s.mem.sramRaw = [] →
    (∀ (slot : Fin 8) (req : W32) (ver : Byte) (cmd : List Byte), SessionWrite s slot req ver t → cmd.length = 16 →
      let i := Instr.encode (.fdp slot req ver) t cmd
      let a := field cmd 8 8
      let d := peek s a 64
      let placed : Prop := isMemory a 64 = true ∧ a % 64 = 0
      let refused (status : Nat) : Prop := Gives s i slot req status fun u => u.ent 0x6410 3 = (s.ent 0x6410 3 + 1) % 2 ^ 32 ∧ u.video = s.video ∧
        u.ctl = s.ctl ∧ ∃ e, u.ev.raised = s.ev.raised ++ [e] ∧ e.code = 0x6301
      (encodes s = true → placed → evFault s d = none → Gives s i slot req stOk fun u => ∃ y, u.ctx (evCtx d) = some y ∧ y.desc = d ∧
        y.frames = 0 ∧ y.decoded = 0 ∧ y.start = t ∧ y.ended = 0) ∧
      (encodes s = true → ¬ placed ∨ evFault s d ≠ none → refused stRange) ∧
      (encodes s = false → refused stState)) ∧
    (∀ (p : Fin 4), waitingClip s = none →
      (s.video.decode.getD p.val (0, 0, 0) = (0, 0, 0) → p.val < s.video.decode.length → ∀ c x, (List.range 64).find? (wantsDecode s) = some c →
        s.ctx c = some x → exec (.decodePipeFree p) s = .next (s.setPipe p.val (2, c, x.decoded))) ∧
      (s.video.decode.getD p.val (0, 0, 0) ≠ (0, 0, 0) → exec (.decodePipeFree p) s = .next s)) ∧
    (∀ (p : Fin 4) c f x, s.now ≤ t → s.video.decode.getD p.val (0, 0, 0) = (2, c, f) → s.ctx c = some x →
      let y := decodeNext x (peek s (evSource x.desc) (evSourceBytes x.desc)) false t
      ∃ u, exec (.transcodeFrameDecoded t p) s = .next u ∧ u.video.decode.getD p.val (0, 0, 0) = (0, 0, 0) ∧
        (y.ended ≠ 0 ∧ y.waiting = none ∧ y.coding = none → u.ctx c = none ∧ u.ent 0x6410 2 = (s.ent 0x6410 2 + 1) % 2 ^ 64) ∧
        (¬ (y.ended ≠ 0 ∧ y.waiting = none ∧ y.coding = none) → ∃ z, u.ctx c = some z ∧ z.desc = x.desc ∧ z.decoded = y.decoded ∧ z.ended = y.ended)) ∧
    (∀ (p : Fin 2) c x f, s.now ≤ t → s.video.encode.getD p.val none = some c → s.ctx c = some x → x.coding = some f →
      let d := x.desc
      let b := (encodeOne x (inputFrame d (x.codingSize.getD (0, 0, false, 10)) f)).1
      ∃ u, exec (.encodeFrameDone t p) s = .next u ∧ (u.video.encode.getD p.val none = none → longestWaiting u = none) ∧ u.ent 0x6430 (p.val + 5) = (s.ent 0x6430 (p.val + 5) + 1) % 2 ^ 64 ∧
        (evCapacity d < 256 + x.bytes + b.length → u.ctx c = none ∧ (∃ e ∈ u.ev.raised, e.code = 0x6302) ∧
          (rgLand d = false → evOut d + 64 ≤ 0x012000000000 → field (hread u (evOut d) 64) 1 1 = 2 ∧ field (hread u (evOut d) 64) 4 4 = x.frames % 2 ^ 32)) ∧
        (256 + x.bytes + b.length ≤ evCapacity d → evOut d + evCapacity d ≤ 0x012000000000 → rgLand d = false →
          hread u (evOut d + 256 + x.bytes) b.length = b ∧ (u.ctx c = none ∨ ∃ z, u.ctx c = some z ∧ z.frames = x.frames + 1)))

/-- Commands of the detection and region units (R307 to R316): a command that passes is queued for its die, one that fails is counted with
REGION_INVALID (`0x5302`); done, with memory that holds no error, it has written its result and its landing, and the unit goes on to the
next. A clipping DECODE writes no x above the width, no y above the height and no coordinate below zero, and CROP fills the bins of a
degenerate box with the fill value. -/
def Obligations.RegionCommands : Prop :=
  ∀ (s : State) (t : FTime) (die : Fin 4),
    (∀ (slot : Fin 8) (req : W32) (ver : Byte) (cmd : List Byte) (op : Byte), SessionWrite s slot req ver t → cmd.length = 16 →
      op ∈ [(1 : Byte), 2, 3] → (s.region die.val).length < 16 →
      let o := Origin.fdp slot req ver
      let i : Instr := if op = 1 then .decode o t die cmd else if op = 2 then .nms o t die cmd else .crop o t die cmd
      let b := cmd.set 0 op
      let d := peek s (field cmd 8 8) 64
      (rgRefused s b d = false → Gives s i slot req stOk fun u =>
        u.region die.val = s.region die.val ++ [{ core := none, op := op.toNat, desc := d, live := true }] ∧ u.mem.hbm = s.mem.hbm) ∧
      (rgRefused s b d = true → Gives s i slot req stRange fun u => u.regions = s.regions ∧ u.mem.hbm = s.mem.hbm ∧ u.ctl = s.ctl ∧
        u.ent (0x5310 + die.val) 3 = (s.ent (0x5310 + die.val) 3 + 1) % 2 ^ 32 ∧ (∃ e ∈ u.ev.raised, e.code = 0x5302) ∧
        (HbmSound s → s.mem.sramRaw = [] → ∃ e, u.ev.raised = s.ev.raised ++ [e] ∧ e.code = 0x5302))) ∧
    (∀ x l, s.now ≤ t → s.region die.val = x :: l → x.live = true → HbmSound s → s.mem.sramRaw = [] → s.audit.held = [] →
      let r := rgResult s x.op x.desc
      let out := rgOut x.desc
      ∃ u, exec (.regionCommandDone t die) s = .next u ∧ u.ent (0x5310 + die.val) 2 = (s.ent (0x5310 + die.val) 2 + 1) % 2 ^ 64 ∧
        u.ent 0x5330 (die.val + 1) = (s.ent 0x5330 (die.val + 1) + r.2) % 2 ^ 64 ∧
        (rgLand x.desc = false → u.region die.val = l ∧ (out + r.1.length ≤ 0x012000000000 → hread u out r.1.length = r.1)) ∧
        (rgLand x.desc = true → s.running = true → s.isLanding (rgCore x.desc) (rgSem x.desc) = true →
          s.sem (rgCore x.desc) (rgSem x.desc) + ceilDiv (rgBytes x.op x.desc) 64 < 2 ^ 32 →
          u.sem (rgCore x.desc) (rgSem x.desc) = s.sem (rgCore x.desc) (rgSem x.desc) + ceilDiv (rgBytes x.op x.desc) 64)) ∧
    (∀ d i, Nat.testBit (field d 2 1) 0 = true → flt (fieldF d 52) 0#32 = false → flt (fieldF d 56) 0#32 = false →
      (decodeBox s d i).length = 4 ∧ ∀ j, j < 4 →
        let v := (decodeBox s d i).getD j 0
        (ofF32 v).isNan = true ∨ (flt v 0#32 = false ∧ flt (if j % 2 = 0 then fieldF d 52 else fieldF d 56) v = false)) ∧
    (∀ d b c i j, cropDegenerate b = true → cropBin s d b c i j = fieldF d 52)

/-- NMS (R313): the candidates are the boxes with a score at or above the threshold and finite, ordered coordinates, in descending order of
score and, of equal scores, in ascending order of index; in that order a candidate is kept exactly if fewer than TOPK before it are and its
IoU with none of these exceeds θ; IoU is I / (A + B − I) in FP32. -/
def Obligations.NmsKeeps : Prop :=
  ∀ (s : State) (d : List Byte),
    let order := nmsOrder s d
    let kept := nmsKept d order
    let score (i : Nat) : W32 := peekF s (field d 16 8 + 4 * i)
    let box (i : Nat) := boxAt s (field d 8 8) i
    let candidate (i : Nat) : Prop := i < field d 4 4 ∧ (ofF32 (score i)).isNan = false ∧ FNum.le (ofF32 (fieldF d 36)) (ofF32 (score i)) = true ∧
      (ofF32 (box i).1).isFinite = true ∧ (ofF32 (box i).2.1).isFinite = true ∧ (ofF32 (box i).2.2.1).isFinite = true ∧
      (ofF32 (box i).2.2.2).isFinite = true ∧ FNum.le (ofF32 (box i).1) (ofF32 (box i).2.2.1) = true ∧ FNum.le (ofF32 (box i).2.1) (ofF32 (box i).2.2.2) = true
    let above (a b : W32) : Prop := FNum.lt (ofF32 b) (ofF32 a) = true
    let area (b : W32 × W32 × W32 × W32) : W32 := fmul (fsub b.2.2.1 b.1) (fsub b.2.2.2 b.2.1)
    let clash (a b : Nat × W32 × (W32 × W32 × W32 × W32)) : Prop := above (iou a.2.2 b.2.2) (fieldF d 32)
    (∀ x, x ∈ order ↔ candidate x.1 ∧ x = (x.1, score x.1, box x.1)) ∧
    order.Pairwise (fun a b => above a.2.1 b.2.1 ∨ (¬ above b.2.1 a.2.1 ∧ a.1 < b.1)) ∧
    kept.Sublist order ∧ kept.length ≤ field d 40 4 ∧ kept.Pairwise (fun a b => ¬ clash b a) ∧
    (∀ before x after, order = before ++ x :: after →
      (x ∈ kept ↔ (kept.filter fun y => decide (y ∈ before)).length < field d 40 4 ∧ ∀ y ∈ kept, y ∈ before → ¬ clash x y)) ∧
    (∀ a b : W32 × W32 × W32 × W32,
      let w := fsub (fmin a.2.2.1 b.2.2.1) (fmax a.1 b.1)
      let h := fsub (fmin a.2.2.2 b.2.2.2) (fmax a.2.1 b.2.1)
      ∃ i u, (i = if above w 0 ∧ above h 0 then fmul w h else 0) ∧ u = fsub (fadd (area a) (area b)) i ∧
        iou a b = if (ofF32 u).isZero then 0 else fdiv i u)

/-- The check-bit test mode (R539, R540): with raw access open and a location named, WRITE_RAW stores the bytes of `0x4600:03` and `:04`
unchanged, so that a read finds what they decode to, and lists the location; READ_RAW shows the stored bytes undecoded. Both first write
back and drop the cached line of an HBM location. Scrubbing (R530, R533, R535 to R538): a scrubber's read corrects a location that has one
error and counts it, and poisons a unit that it cannot correct; an SRAM word it corrects waits to be rewritten, one it cannot correct stays
as it stands and is counted; a word of a clean cached line that it cannot correct is refilled (R531); a corrected SRAM word is rewritten; a
lap that ends is counted, timed and followed at once by the next, and one that takes too long is reported once. Where the words of the kinds
beside CLM and the wide buffer lie in their unit is the model's (log entry 151). -/
def Obligations.RawAndScrubbing : Prop :=
  (∀ (s : State) (slot : Fin 8) (req : W32) (ver : Byte) (t : FTime), SessionWrite s slot req ver t →
     let o := Origin.fdp slot req ver
     let d := s.oct 0x4600 3
     let c := s.oct 0x4600 4
     (rawOpen s = false → Gives s (.writeRaw o t) slot req stState (Untouched s) ∧ Gives s (.readRaw o t) slot req stState (Untouched s)) ∧
     (rawOpen s = true → rawTarget s = none → Gives s (.writeRaw o t) slot req stRange (Untouched s) ∧ Gives s (.readRaw o t) slot req stRange (Untouched s)) ∧
     (∀ kind key, rawOpen s = true → rawTarget s = some (kind, key) →
       ((kind, key) ∉ s.mem.rawList → 64 ≤ s.mem.rawList.length → Gives s (.writeRaw o t) slot req stRange (Untouched s)) ∧
       (((kind, key) ∈ s.mem.rawList ∨ s.mem.rawList.length < 64) → Gives s (.writeRaw o t) slot req stOk fun u => (kind, key) ∈ u.mem.rawList ∧
         u.ent 0x4600 6 = u.mem.rawList.length ∧
         (kind = 1 → hread u (s.ent 0x4600 2) 64 = (hbmDecode { data := d, check := c.take 4 }).1 ∧
           (∀ x ∈ u.mem.cache, x.line ≠ lineOf s (s.ent 0x4600 2)) ∧
           sget none u.mem.hbmRaw key = if (hbmDecode { data := d, check := c.take 4 }).2 = .clean then none else some { data := d, check := c.take 4 }) ∧
         (kind ≠ 1 → (u.core (sramWhere key).2).word64 kind (key % 2 ^ 24) = (sramDecode (BitVec.ofNat 64 (field d 0 8)) (c.getD 0 0)).1 ∧
           sget none u.mem.sramRaw key = if (sramDecode (BitVec.ofNat 64 (field d 0 8)) (c.getD 0 0)).2 = .clean then none
           else some { data := le 8 (field d 0 8), check := [c.getD 0 0] })) ∧
       Gives s (.readRaw o t) slot req stOk fun u => u.mem.hbm = s.mem.hbm ∧ u.cores = s.cores ∧
         (kind = 1 → ∀ x ∈ u.mem.cache, x.line ≠ lineOf s (s.ent 0x4600 2)) ∧ ((∀ x ∈ s.mem.cache, x.bad = []) → u.mem.hbmRaw = s.mem.hbmRaw ∧
         (kind = 1 → ∀ r, sget none s.mem.hbmRaw key = some r → u.oct 0x4600 3 = padTo 64 r.data ∧ u.oct 0x4600 4 = padTo 8 r.check) ∧
         (kind = 1 → sget none s.mem.hbmRaw key = none → u.oct 0x4600 3 = hread s (s.ent 0x4600 2) 64 ∧
           u.oct 0x4600 4 = padTo 8 (hbmMeta (hread s (s.ent 0x4600 2) 64) 0))))) ∧
  (∀ (s : State) (t : FTime) (b : Fin 6) (loc : EccLoc) (ms : Nat) (elapsed : W32), scrubs s = true →
     (s.now ≤ t → locDie loc = b.val → locValid loc = true →
       (∀ u r, loc = .hbm u → sget none s.mem.hbmRaw u = some r → ∃ v, exec (.scrubRead t b loc ms false) s = .next v ∧ v.mem.hbm = s.mem.hbm ∧
         ((hbmDecode r).2 = .clean → v.mem = s.mem) ∧
         ((hbmDecode r).2 = .corrected → sget none v.mem.hbmRaw u = none ∧ v.ent 0x4100 1 = (s.ent 0x4100 1 + 1) % 2 ^ 64) ∧
         ((hbmDecode r).2 = .bad false → sget none v.mem.hbmRaw u = some (poisonCode r.data) ∧ v.ent 0x4101 1 = (s.ent 0x4101 1 + 1) % 2 ^ 64) ∧
         ((hbmDecode r).2 = .bad true → v.mem = s.mem)) ∧
       (∀ r, locKind loc ≠ 1 → locKind loc ≠ 5 → sget none s.mem.sramRaw (locKey loc) = some r →
         let found := (sramDecode (BitVec.ofNat 64 (ofLe r.data)) (r.check.getD 0 0)).2
         ∃ v, exec (.scrubRead t b loc ms false) s = .next v ∧ v.cores = s.cores ∧ v.mem.sramRaw = s.mem.sramRaw ∧
           (found = .corrected → locKey loc ∈ v.mem.rewrites ∧ v.ent 0x4100 (locKind loc) = (s.ent 0x4100 (locKind loc) + 1) % 2 ^ 64) ∧
           (found = .bad false → v.mem.rewrites = s.mem.rewrites ∧ v.ent 0x4101 (locKind loc) = (s.ent 0x4101 (locKind loc) + 1) % 2 ^ 64)) ∧
       (∀ l w x, loc = .cache l w → s.mem.cache.find? (fun x => decide (x.line = l)) = some x → w ∈ x.bad →
         ∃ v, exec (.scrubRead t b loc ms false) s = .next v ∧ v.mem.hbm = s.mem.hbm ∧
           (x.dirty = false → (∀ y ∈ v.mem.cache, y.line = l → y.bad = []) ∧ v.ent 0x4100 5 = (s.ent 0x4100 5 + 1) % 2 ^ 64) ∧
           (x.dirty = true → v.mem.cache = s.mem.cache ∧ v.ent 0x4101 5 = (s.ent 0x4101 5 + 1) % 2 ^ 64)) ∧
       (ms = lapElapsed { s with now := t } b.val → ∃ v, exec (.scrubRead t b loc ms true) s = .next v ∧
         sget 0 v.mem.laps b.val = sget 0 s.mem.laps b.val + 1 ∧
         v.ent 0x4201 (b.val + 1) = ms % 2 ^ 32 ∧ b.val ∉ v.mem.overdue ∧ sget 0 v.mem.lapStart b.val = t)) ∧
     (locKind loc ≠ 1 → locKind loc ≠ 5 → locKey loc ∈ s.mem.rewrites → ∃ v, exec (.sramRewrite loc) s = .next v ∧ sget none v.mem.sramRaw (locKey loc) = none ∧
       locKey loc ∉ v.mem.rewrites ∧ v.cores = s.cores) ∧
     (s.ent 0x4200 2 < elapsed.toNat → lapElapsed s b.val ≤ elapsed.toNat → b.val ∉ s.mem.overdue → ∃ v e, exec (.scrubOverdue b elapsed) s = .next v ∧ b.val ∈ v.mem.overdue ∧
       v.ev.raised = s.ev.raised ++ [e] ∧ e.code = 0x4302 ∧ field e.detail 4 4 = elapsed.toNat ∧
       v.now = lapTime s b.val elapsed.toNat))

/-- The code of an SRAM word (R526, R527): the decoder's s and p decide as the rule's four cases say; so a word with its own check bits reads
clean, one wrong bit, among the 64 data bits or the 8 check bits, is corrected, and two wrong data bits are found and not corrected. -/
def Obligations.SramWordCode : Prop :=
  ∀ (d : W64) (c : Byte),
    let position (j : Nat) : Nat := ((List.range 72).filter fun p => !decide (p ∈ [0, 1, 2, 4, 8, 16, 32, 64])).getD j 0
    let bit (v : Bool) : Nat := if v then 1 else 0
    let check (k : Nat) : Nat := ((List.range 64).map fun j => if Nat.testBit (position j) k then bit (d.getLsbD j) else 0).sum % 2
    let s := ((List.range 7).map fun k => 2 ^ k * ((check k + bit (c.getLsbD k)) % 2)).sum
    let p := (((List.range 64).map fun j => bit (d.getLsbD j)).sum + ((List.range 8).map fun k => bit (c.getLsbD k)).sum) % 2
    let power : Prop := s = 0 ∨ s ∈ [1, 2, 4, 8, 16, 32, 64]
    (s = 0 → p = 0 → sramDecode d c = (d, .clean)) ∧
    (∀ j, j < 64 → p = 1 → s = position j → sramDecode d c = (d ^^^ (1#64 <<< j), .corrected)) ∧
    (p = 1 → power → sramDecode d c = (d, .corrected)) ∧
    (¬ (s = 0 ∧ p = 0) → ¬ (p = 1 ∧ (power ∨ ∃ j, j < 64 ∧ s = position j)) → (sramDecode d c).2 = .bad false) ∧
    (∀ k, k < 7 → bit ((sramCheck d).getLsbD k) = check k) ∧
    sramDecode d (sramCheck d) = (d, .clean) ∧
    (∀ i, i < 64 → sramDecode (d ^^^ (1#64 <<< i)) (sramCheck d) = (d, .corrected)) ∧
    (∀ j, j < 8 → sramDecode d (sramCheck d ^^^ (1#8 <<< j)) = (d, .corrected)) ∧
    (∀ i j, i < 64 → j < 64 → i ≠ j → (sramDecode (d ^^^ (1#64 <<< i) ^^^ (1#64 <<< j)) (sramCheck d)).2 = .bad false)

/-- The code of an HBM unit (R524, R525): 64 data bytes with the metadata of a data tag read clean; a wrong symbol, wherever it lies among data,
tag and check symbols and whatever its error, is corrected; a unit with the poison tag is bad. -/
def Obligations.HbmUnitCode : Prop :=
  ∀ (d : List Byte) (e : Byte), d.length = 64 → e ≠ 0 →
    hbmDecode { data := d, check := hbmMeta d 0 } = (d, .clean) ∧
    (∀ i, i < 64 → hbmDecode { data := d.set i (d.getD i 0 ^^^ e), check := hbmMeta d 0 } = (d, .corrected)) ∧
    (∀ i, i < 4 → hbmDecode { data := d, check := (hbmMeta d 0).set i ((hbmMeta d 0).getD i 0 ^^^ e) } = (d, .corrected)) ∧
    (hbmDecode (poisonCode d)).2 = .bad true

/-- The address map (R176): stack and share offset of an address in each of a region's two modes, with the home die that follows from the stack
(R16); so two different bytes of HBM never lie at one place, and the local address of a unit is found back. -/
def Obligations.HbmAddressMap : Prop :=
  ∀ (s : State) (a : Nat), a < 0x012000000000 →
    let g := a / 0xC00000000
    let o := a % 0xC00000000
    let stack := (stackOf s a).1
    let share := (stackOf s a).2
    (s.ent 0x4010 (g + 1) ≠ 1 → stack = o / 4096 % 12 ∧ share = g * 2 ^ 32 + (o / 4096 / 12 * 4096 + o % 4096)) ∧
    (s.ent 0x4010 (g + 1) = 1 →
      let q := o / 12884901888
      let u := o % 12884901888 / 4096
      stack = 3 * q + u % 3 ∧ share = g * 2 ^ 32 + (u / 3 * 4096 + o % 4096)) ∧
    homeDie s a = stack / 3 ∧ stack < 12 ∧ share < 24 * 2 ^ 32 ∧
    (∀ b, b < 0x012000000000 → phys s a = phys s b → a = b) ∧
    (a % 64 = 0 → localOf s (unitOf s a) = a)

/-- Attestation and checkpoints (R460, R470, R478): a report request fills the body at once with nonce, device and time, and is refused while
one is pending; ready, the report is body and both signatures; a signed checkpoint head is kept, and AUDIT_CHECKPOINT (`0x8303`) raised. -/
def Obligations.Attestation : Prop :=
  ∀ (s : State),
    (∀ (slot : Fin 8) (req : W32) (ver : Byte) (t : FTime) (nonce : List Byte), SessionWrite s slot req ver t → nonce.length = 32 →
      let i := Instr.reportRequest (.fdp slot req ver) t nonce
      (s.trust.reportBody = none → Gives s i slot req stOk fun u => u.ent 0x8120 2 = 1 ∧ ∃ b, u.trust.reportBody = some b ∧ b.length = 512 ∧
        field b 0 1 = 1 ∧ field b 2 2 = s.device % 65536 ∧ slice b 24 32 = nonce ∧ field b 56 8 = t.toNat ∧
        (s.trust.signing = 0 → s.audit.unsigned = [] → u.trust.signing = 2)) ∧
      (s.trust.reportBody.isSome = true → Gives s i slot req stState (Untouched s))) ∧
    (∀ b, s.trust.reportBody = some b → s.trust.signing = 2 → ∃ u sig, exec .reportReady s = .next u ∧ u.trust.report = b ++ sig ∧
      sig.length = 16608 ∧ u.trust.reportBody = none ∧ u.ent 0x8120 2 = 2) ∧
    (∀ n head r, s.audit.unsigned = (n, head) :: r → s.trust.signing = 1 → ∃ u sig, exec .checkpointSignatureDone s = .next u ∧ sig.length = 16608 ∧
      u.audit.unsigned = r ∧ u.audit.checkpoints = ((n, head ++ sig) :: s.audit.checkpoints).take 257 ∧
      ∃ e, u.ev.raised = s.ev.raised ++ [e] ∧ e.code = 0x8303)

/-- Owner and firmware (R480, R481, R484 to R487): ENROLL takes the keys in the entries, CHALLENGE replaces the challenge, RELEASE ends
ownership only with both signatures over serial number and challenge; INSTALL takes an image, from the chunks or from HBM, where a write
names one in READY, TEST and RECOVERY only; done, a valid one is in the slot that is not active by then, or of a kind that is being started
in the one that the start does not try first (R485), and no other slot has changed; RAISE_FLOOR never lowers a floor; GALENA_RESTART closes
every session, in STANDBY only. -/
def Obligations.OwnerAndFirmware : Prop :=
  ∀ (s : State) (slot : Fin 8) (req : W32) (ver : Byte) (t : FTime),
    let o := Origin.fdp slot req ver
    let quiet : Prop := s.ctl.dev = .standby ∨ s.ctl.dev = .ready
    let refused (i : Instr) (st : Nat) : Prop := Gives s i slot req st (Untouched s)
    let token := sread 0 s.trust.token 0 16608
    let digest := padTo 48 (Config.sha384 (s.oct 0x1000 3 ++ s.oct 0x8130 4))
    let signed : Prop := s.trust.challengeLive = true ∧ Config.rsaVerifies (s.trust.owner.take 384) digest (token.take 384) = true ∧
      Config.slhVerifies (s.trust.owner.drop 384) digest (token.drop 384) = true
    let a := s.ent 0x8140 3
    let n := s.ent 0x8140 5
    let kind := s.ent 0x8140 7
    let fits : Prop := 16800 ≤ n ∧ n ≤ 16793952 ∧ (a = 0 ∨ a + n ≤ 0x012000000000)
    (SessionWrite s slot req ver t → 4 ≤ slot.val → refused (.enroll o t) stOriginator ∧ refused (.challenge o t) stOriginator ∧ refused (.release o t) stOriginator) ∧
    (SessionWrite s slot req ver t → slot.val < 4 →
      (quiet → s.ent 0x8130 7 ≠ 1 → Gives s (.enroll o t) slot req stOk fun u => u.ent 0x8130 7 = 1 ∧ u.trust.owner = s.oct 0x8130 1 ++ s.oct 0x8130 2) ∧
      (¬ quiet ∨ s.ent 0x8130 7 = 1 → refused (.enroll o t) stState) ∧
      (Gives s (.challenge o t) slot req stOk fun u => u.trust.challengeLive = true ∧ u.oct 0x8130 4 = padTo 32 (Config.random32 s.trust.draws) ∧
        u.trust.draws = s.trust.draws + 1) ∧
      (¬ quiet ∨ s.ent 0x8130 7 ≠ 1 → refused (.release o t) stState) ∧
      (quiet → s.ent 0x8130 7 = 1 → ∃ st, Gives s (.release o t) slot req st fun u => u.trust.challengeLive = false ∧
        (signed → st = stOk ∧ u.ent 0x8130 7 = 0 ∧ u.trust.owner = []) ∧
        (¬ signed → st = stRange ∧ u.ent 0x8130 7 = 1 ∧ u.trust.owner = s.trust.owner ∧ ∃ e, u.ev.raised = s.ev.raised ++ [e] ∧ e.code = 0x8201)) ∧
      (quiet → s.ent 0x8200 (kind + 5) ≠ 0xFF → Gives s (.raiseFloor o t) slot req stOk fun u => s.ent 0x8200 (kind + 10) ≤ u.ent 0x8200 (kind + 10) ∧
        imageSecurity (imageBytes s kind (s.ent 0x8200 (kind + 5))) ≤ u.ent 0x8200 (kind + 10) ∧ u.trust = s.trust) ∧
      (¬ quiet ∨ s.ent 0x8200 (kind + 5) = 0xFF → refused (.raiseFloor o t) stState)) ∧
    (SessionWrite s slot req ver t →
      (installs s = true → s.trust.install = none → fits → Gives s (.install o t) slot req stOk fun u => u.ent 0x8140 6 = 1 ∧
        let b := if a = 0 then sread 0 s.trust.chunks 0 n else hread s a n
        u.trust.install = some (field b 5 1, b)) ∧
      (installs s = false ∨ s.trust.install ≠ none → refused (.install o t) stState) ∧
      (installs s = true → s.trust.install = none → ¬ fits → refused (.install o t) stRange) ∧
      (∀ v : FTime, (v = 0 ∨ hbmInstalls s = true → Gives s (.dictionaryWrite o t 0x8140 3 (le 8 v.toNat)) slot req stOk fun u => u.ent 0x8140 3 = v.toNat) ∧
        (v ≠ 0 → hbmInstalls s = false → refused (.dictionaryWrite o t 0x8140 3 (le 8 v.toNat)) stState)) ∧
      (s.ctl.dev = .standby → Gives s (.galenaRestart o t) slot req stOk fun u => u.fdp.sessions = [] ∧ u.ctl.dev = .standby) ∧
      (s.ctl.dev ≠ .standby → refused (.galenaRestart o t) stState)) ∧
    (∀ k b, s.trust.install = some (k, b) →
      let active := s.ent 0x8200 (k + 5)
      let valid : Prop := 1 ≤ k ∧ k ≤ 5 ∧ imageFailure s b k = 0
      ∃ u p, exec .installDone s = .next u ∧ u.trust.install = none ∧ p < 2 ∧
        (sget none s.trust.startSlots k = none → p ≠ active ∧ (active ≠ 0 → active ≠ 1 → p = 1 - s.ent 0x8200 k)) ∧
        (∀ m, sget none s.trust.startSlots k = some m → p = 1 - m) ∧
        (valid → u.ent 0x8140 6 = 2 ∧ u.ent 0x8200 k = p ∧ sget [] u.trust.images (k * 4 + p) = b ∧ k ∉ u.ctl.missing ∧
          ∀ j, j ≠ k * 4 + p → sget [] u.trust.images j = sget [] s.trust.images j) ∧
        (¬ valid → u.ent 0x8140 6 = 3 ∧ u.trust.images = s.trust.images ∧ ∃ e, u.ev.raised = s.ev.raised ++ [e] ∧ e.code = 0x8201))

/-- Sessions (R439 to R443): a handshake that R439 accepts opens a session in a free slot, and any other raises FDP_PEER_REJECTED (`0x8302`); a
close or 300 s of silence ends it; HELLO chooses the highest common version, and without one the session carries nothing further; a repeated
request is answered from the kept response and executed no second time, and one that is older than the window is answered WINDOW. Where
Galena's memory does not decode, it is restarted, and every session is closed (Table 18-3; that a request reads all of that memory is log
entry 151). -/
def Obligations.Sessions : Prop :=
  ∀ (s : State) (slot : Fin 8) (req : W32) (ver lowest highest : Byte) (mask suite group scheme channel : W16) (chain : List (List Byte)) (port : Port)
      (body : List Byte),
    let lo := s.ent 0x1011 1 % 256
    let hi := s.ent 0x1011 1 / 256
    let top := Nat.min hi highest.toNat
    let bottom := Nat.max lo lowest.toNat
    let shake := Instr.fdpHandshake slot suite group scheme chain port channel
    let fresh (x : Session) : Prop := (x.kept.find? fun k => decide (k.1 = req)) = none
    let same (u : State) : Prop := u.mem = s.mem ∧ u.cores = s.cores ∧ u.audit = s.audit ∧ u.ctl = s.ctl ∧ ∀ i j, i ≠ 0x3320 → u.ent i j = s.ent i j
    reachable s slot.val = true →
    (s.session slot.val = none → handshakeOk s suite group scheme chain = true → ∃ u x, exec shake s = .next u ∧
        u.session slot.val = some x ∧ x.sid = s.fdp.nextSid ∧ x.chosen = none ∧ x.last = none ∧ x.port = port ∧ x.channel = channel ∧
        x.presented = serverProof s ∧ u.trust.draws = s.trust.draws + 1 ∧ u.fdp.nextSid = s.fdp.nextSid + 1) ∧
    (handshakeOk s suite group scheme chain = false → exec shake s = .next ((takeRecord s slot.val channel).raise 0x8302 [])) ∧
    (suite ≠ 0x1302 ∨ group ≠ 0x0018 ∨ scheme ≠ 0x0805 ∨ chain = [] → handshakeOk s suite group scheme chain = false) ∧
    ((∀ c ∈ chain, ∀ k, 1 ≤ k → k ≤ 4 → allZero (s.oct 0x8110 k) = true ∨
        padTo 48 (s.oct 0x8110 k) ≠ padTo 48 (Config.sha384 (Config.certKey c))) → handshakeOk s suite group scheme chain = false) ∧
    (∃ u, exec (.fdpClose slot) s = .next u ∧ u.session slot.val = none ∧ (∀ k, k ≠ slot.val → u.session k = s.session k) ∧ same u) ∧
    (∀ x, s.session slot.val = some x → (mgmtRead s).2 = true →
      ∃ u, exec (.hello slot req lowest highest mask) s = .next u ∧ u.fdp.sessions = [] ∧ u.mem.hbm = s.mem.hbm ∧ u.cores = s.cores ∧ u.audit = s.audit) ∧
    (∀ x, s.session slot.val = some x → mgmtRead s = (s, false) →
      (x.lastRx.toNat + 300000000000 < 2 ^ 64 → ∃ u, exec (.fdpSessionTimeout slot) s = .next u ∧ u.session slot.val = none ∧
        x.lastRx.toNat + 300000000000 ≤ u.now.toNat ∧ u.dict = s.dict) ∧
      (newer x.last req = true → fresh x → x.dead = false → ∃ u y m, exec (.hello slot req lowest highest mask) s = .next u ∧
        u.session slot.val = some y ∧ Leaves s u slot.val x y m ∧ field m 1 1 = 1 ∧ field m 4 4 = req.toNat ∧ y.last = some req ∧
        (bottom ≤ top → y.chosen = some (BitVec.ofNat 8 top) ∧ y.mask = mask ∧ field m 3 1 = stOk) ∧
        (top < bottom → y.dead = true ∧ field m 3 1 = stVersion ∧ ∃ e, u.ev.raised = s.ev.raised ++ [e] ∧ e.code = 0x8301)) ∧
      (body.length = 4 → ∀ m, (x.kept.find? fun k => decide (k.1 = req)) = some (req, some m) →
        ∃ u y, exec (.fdpRead slot req ver 2 body) s = .next u ∧ u.session slot.val = some y ∧ Leaves s u slot.val x y m ∧
          y.kept = x.kept ∧ y.last = x.last ∧ y.lastRx = s.now ∧ same u) ∧
      (body.length = 4 → fresh x → newer x.last req = false → ∃ u y m, exec (.fdpRead slot req ver 2 body) s = .next u ∧
        u.session slot.val = some y ∧ Leaves s u slot.val x y m ∧ field m 3 1 = stWindow ∧ y.last = x.last ∧ same u))

/-- Requests that read (R433, R437, R441 to R443, R462, R562): each newer request of the version chosen gets one response with its request ID.
READ gives type, length and value, or NO_ENTRY, or ACCESS, or STATE for what a unit of the unpowered main side holds (R517, log entry 27),
once the accesses that wait before it are taken up; EVENTS gives the records from a sequence on; AUDIT gives entries or part of a
checkpoint; a request whose opcode or body breaks Table 15-5 is MALFORMED. -/
def Obligations.DictionaryReads : Prop :=
  ∀ (s : State) (slot : Fin 8) (req : W32) (ver : Byte) (body : List Byte) (start number offset : W32) (count : W16) (x : Session),
    let leaves (i : Instr) (op status : Nat) (b : List Byte) : Prop := ∃ u y, exec i s = .next u ∧ u.session slot.val = some y ∧
      Leaves s u slot.val x y (message ver.toNat op 1 status req.toNat b) ∧ y.last = some req ∧
      (∀ i j, i ≠ 0x3320 → u.ent i j = s.ent i j) ∧ u.mem = s.mem ∧ u.cores = s.cores ∧ u.audit = s.audit ∧ u.ev = s.ev
    let answers (i : Instr) (status : Nat) (b : List Byte) : Prop := leaves i (match i with | .fdpRead .. => 2 | .events .. => 4 | _ => 5) status b
    let index := field body 0 2
    let sub := field body 2 1
    let read := Instr.fdpRead slot req ver 2 body
    let malformed (op : Byte) : Prop :=
      match op.toNat with
      | 1 => body.length ≠ 6
      | 2 => body.length ≠ 4
      | 3 => body.length ≠ 8 + field body 4 2
      | 4 => body.length ≠ 6 ∨ field body 4 2 < 1 ∨ 32 < field body 4 2
      | 5 => body.length ≠ 12 ∨ field body 2 2 < 1 ∨ ¬ (field body 0 1 = 1 ∧ field body 2 2 ≤ 16 ∨ field body 0 1 = 2 ∧ field body 2 2 ≤ 1024)
      | _ => True
    let q := durable s.audit - 1
    reachable s slot.val = true → s.session slot.val = some x → x.chosen = some ver → x.dead = false → newer x.last req = true →
    (x.kept.find? fun k => decide (k.1 = req)) = none → mgmtRead s = (s, false) →
    (body.length = 4 → s.audit.held = [] → entryOf index sub = none → answers read stNoEntry []) ∧
    (∀ e, body.length = 4 → s.audit.held = [] → entryOf index sub = some e →
      (e.acc = .wo → answers read stAccess []) ∧
      (e.acc ≠ .wo → mainEntry index sub = true → s.ctl.powered = false → answers read stState []) ∧
      (e.acc ≠ .wo → mainEntry index sub = false ∨ s.ctl.powered = true → answers read stOk (le 1 e.ty.code ++ le 1 0 ++ le 2 e.ty.size ++ entryBytes s index sub))) ∧
    (body.length = 4 → s.audit.held ≠ [] → ∃ u h, exec read s = .next u ∧ h ∈ u.audit.held ∧ h.at_ = s.now ∧
      h.what = .read slot.val x.sid req index sub ∧ u.audit.held.length = s.audit.held.length + 1 ∧ u.dict = s.dict ∧ u.mem = s.mem) ∧
    (∀ op, malformed op → leaves (.fdpRead slot req ver op body) op.toNat stMalformed []) ∧
    (count.toNat < 1 ∨ 32 < count.toNat → answers (.events slot req ver start count) stMalformed []) ∧
    (1 ≤ count.toNat → count.toNat ≤ 32 →
      let l := ((numbered s.ev).filter fun r => decide (start.toNat ≤ r.1 % 2 ^ 32)).take count.toNat
      answers (.events slot req ver start count) stOk (le 2 l.length ++ le 2 0 ++ l.flatMap fun r => recordBytes r.1 r.2)) ∧
    (count.toNat < 1 ∨ 16 < count.toNat → answers (.auditEntries slot req ver count start) stMalformed []) ∧
    (1 ≤ count.toNat → count.toNat ≤ 16 → s.audit.waiting.length < s.audit.made → durable s.audit ≤ 1048576 → start.toNat ≤ q →
      answers (.auditEntries slot req ver count start) stOk
        ((List.range (Nat.min count.toNat (q - start.toNat + 1))).flatMap fun j => padTo 64 (sget [] s.audit.ring (start.toNat + j)))) ∧
    (count.toNat < 1 ∨ 1024 < count.toNat → answers (.auditCheckpointRead slot req ver count number offset) stMalformed []) ∧
    (1 ≤ count.toNat → count.toNat ≤ 1024 →
      ((∀ c ∈ s.audit.checkpoints, c.1 ≠ number.toNat) ∨ 16672 ≤ offset.toNat → answers (.auditCheckpointRead slot req ver count number offset) stRange []) ∧
      (∀ c, (s.audit.checkpoints.find? fun c => decide (c.1 = number.toNat)) = some c → offset.toNat < 16672 →
        answers (.auditCheckpointRead slot req ver count number offset) stOk (slice (padTo 16672 c.2) offset.toNat count.toNat)))

/-- Events and the audit log (R457, R458, R461 to R463): the next raised event becomes the newest of at most 4,096 records, and is notified to
the sessions that asked for its class; the oldest waiting audit entry becomes durable and its answer is given; where it cannot, the log has
failed with AUDIT_WRITE_FAIL (`0x8304`), nothing waits any more, and every later write is refused. -/
def Obligations.EventsAndLog : Prop :=
  ∀ (s : State), s.ctl.dev ≠ .off → s.ctl.galenaHeld = false →
    (∀ r l, s.ev.raised = r :: l → s.ev.ring.length ≤ 4096 → ∃ u, exec .eventRecord s = .next u ∧ u.ev.raised = l ∧ u.ev.count = s.ev.count + 1 ∧
      u.ev.ring = (if s.ev.ring.length = 4096 then s.ev.ring.drop 1 else s.ev.ring) ++ [r] ∧
      (∀ k x, k < 8 → s.session k = some x → x.chosen.isSome = true → x.dead = false → x.mask.getLsbD (r.code.toNat / 4096) = true → reachable s k = true →
        ∃ y m, u.session k = some y ∧ field m 1 1 = 6 ∧ slice m 16 32 = recordBytes s.ev.count r ∧
          (y.sent = x.sent ++ [m] ∨ 4 ≤ k ∧ y.sent = (x.sent ++ [m]).drop 1 ∧ y.records = x.records + 1)) ∧
      (∀ k x, k < 8 → s.session k = some x → x.mask.getLsbD (r.code.toNat / 4096) = false → u.session k = some x)) ∧
    (∀ e a l, s.audit.waiting = (e, a) :: l → l.length < s.audit.made → s.audit.held = [] →
      let q := s.audit.made - l.length - 1
      (∃ u, exec (.auditEntryDurable true) s = .next u ∧ u.audit.waiting = l ∧ sget [] u.audit.ring (q % 1048576) = e ∧ u.audit.made = s.audit.made ∧
        (∀ i j, i ≠ 0x3320 → u.ent i j = s.ent i j) ∧
        (∀ slot sid req status x, a = .fdp slot sid req status → s.session slot.val = some x → x.sid = sid → ∃ y m, u.session slot.val = some y ∧
          Leaves s u slot.val x y m ∧ field m 1 1 = 3 ∧ field m 3 1 = status.toNat ∧ field m 4 4 = req.toNat ∧ field m 12 4 = q % 2 ^ 32)) ∧
      (∃ u, exec (.auditEntryDurable false) s = .next u ∧ u.audit.failed = true ∧ u.audit.waiting = [] ∧ ∃ x ∈ u.ev.raised, x.code = 0x8304)) ∧
    (∀ (slot : Fin 8) (req : W32) (ver : Byte) (t : FTime) (index : W16) (sub : Byte) (value : List Byte) x, s.audit.failed = true → s.audit.held = [] →
      s.now ≤ t → overtaken { s with now := t } (slotRank slot.val) = false → mgmtRead { s with now := t } = ({ s with now := t }, false) →
      reachable s slot.val = true → s.session slot.val = some x → x.chosen = some ver → x.dead = false → newer x.last req = true →
      (x.kept.find? fun k => decide (k.1 = req)) = none →
      ∃ u y m, exec (.dictionaryWrite (.fdp slot req ver) t index sub value) s = .next u ∧ (slot.val < 4 → Untouched s u) ∧ u.mem = s.mem ∧
        u.cores = s.cores ∧ u.ctl = s.ctl ∧ (∀ i j, i ≠ 0x3320 → u.ent i j = s.ent i j) ∧ u.audit.made = s.audit.made ∧
        u.session slot.val = some y ∧ Leaves s u slot.val x y m ∧ field m 3 1 = stAudit)

/-- A step runs the command at the front of the queue (first in, first out), and an empty queue leaves the module as it is: the model's own
reading of a block that acts on commands from outside (log entry 10). -/
def Obligations.StepRunsFront : Prop :=
  ∀ (s : State) (c : Instr) (l : List Instr),
    (s.pending = c :: l → step s = exec c { s with pending := l }) ∧ (s.pending = [] → step s = .next s)

/-- No command touches the queue of those that wait behind it. -/
def Obligations.QueueKept : Prop :=
  ∀ (i : Instr) (s t : State), exec i s = .next t → t.pending = s.pending

/-- Every command completes: one that can occur, with an input voltage within the absolute ratings where it reports one, ends in a next state,
whatever the state it meets. Beyond the ratings of Table 19-6 the model stops with a fault, and an instruction that R120 keeps out of every
program is refused. -/
def Obligations.CommandsComplete : Prop :=
  ∀ (i : Instr) (s : State),
    let volts : List Int := match i with
      | .powerApplied mv => [mv]
      | .supplyHalt _ mv => [(mv : Int)]
      | .governorTick _ mv _ _ _ => [(mv : Int)]
      | _ => []
    (i.wf = true → (∀ mv ∈ volts, -60000 ≤ mv ∧ mv ≤ 64000) → ∃ t, exec i s = .next t) ∧
    (∀ mv ∈ volts, 64000 < mv ∨ mv < -60000 → exec i s = .fault .outsideRatings) ∧
    (i.wf = false → exec i s = .refused .illFormed)

/-- As shipped (R445, R436, R480): OFF, no command waits, no event, session, audit entry or owner, every entry at its default; among the
defaults, course and position unassigned, a loss scale of 2^16, a ramp rate of 40 and an arming lead of 200,000 ns. The value 0 of what the
spec gives no reset value is the model's choice (log entries 1 and 2). -/
def Obligations.AsShipped : Prop :=
  let s := State.reset
  s.ctl.dev = .off ∧ s.ctl.powered = false ∧ s.pending = [] ∧ s.now = 0 ∧ s.ev.ring = [] ∧ s.ev.raised = [] ∧ s.ev.count = 0 ∧ s.fdp.sessions = [] ∧ s.audit.made = 0 ∧
  s.audit.failed = false ∧ (∀ index sub, s.ent index sub = entryDefault index sub) ∧ s.ent 0x3200 1 = 0x7FF ∧ s.ent 0x3200 2 = 0xFF ∧
  s.ent 0x7210 1 = 16 ∧ s.ent 0x7210 2 = 2000 ∧ s.ent 0x2200 1 = 40 ∧ s.ent 0x5000 5 = 200000 ∧ s.ent 0x5003 2 = 1 ∧ s.ent 0x5510 3 = 10000 ∧
  s.ent 0x8130 7 = 0 ∧ s.mem.hbm = [] ∧ (∀ c, s.core c = CoreS.reset) ∧ CoreS.reset.status = 1 ∧ CoreS.reset.regs = List.replicate 16 0 ∧
  (∀ p, s.port p = PortS.reset) ∧ s.running = false

/-- The audit log stays chained (R457 to R460): from any state whose kept entries are numbered in order, each carrying the hash of the chain
before it and its own first 48 bytes, every step leaves a state of which the same holds. -/
def Obligations.AuditChainKept : Prop :=
  ∀ (s t : State), AuditChained s.audit → step s = .next t → AuditChained t.audit

/-- The log as shipped is chained, and the entry of an accepted or refused write is the newest of the log, 64 bytes whose last 16 are the chain. -/
def Obligations.AuditChainBegins : Prop :=
  AuditChained State.reset.audit ∧
  ∀ (s : State) (w : WriteReq) (old : List Byte) (status : Nat),
    let t := logWrite s w old status
    t.audit.made = s.audit.made + 1 ∧ ∃ e a, t.audit.waiting = s.audit.waiting ++ [(e, a)] ∧ e.length = 64 ∧ slice e 48 16 = t.audit.chain ∧
      t.audit.chain = padTo 16 (Config.sha384 (s.audit.chain ++ slice e 0 48)) ∧ field e 0 8 = s.now.toNat ∧ field e 14 2 = w.index % 65536 ∧
      field e 16 4 = s.audit.made % 2 ^ 32 ∧ field e 20 1 = w.sub % 256
end

