-- ==== Sys2Proof/Laws/SMap.lean ====
section
/-!
SUPPORT. The laws of the sparse maps: a key that was written reads as what was written, every other key as before, and writes keep the
canonical form.
-/
namespace Sys2Proof.Machine

section Reading
variable {α : Type} (d : α)

theorem sget_append (l r : SMap α) (j : Nat) :
    sget d (l ++ r) j = if (∃ c ∈ l, c.1 = j) then sget d l j else sget d r j := by
  induction l with
  | nil => simp
  | cons c l ih =>
    obtain ⟨k, v⟩ := c
    by_cases h : k = j
    · have : ∃ c ∈ (k, v) :: l, c.1 = j := ⟨(k, v), by simp, h⟩
      rw [if_pos this]
      simp [sget, h]
    · have : (∃ c ∈ (k, v) :: l, c.1 = j) ↔ ∃ c ∈ l, c.1 = j :=
        ⟨fun ⟨c, hc, e⟩ => ⟨c, (List.mem_cons.1 hc).resolve_left (by rintro rfl; exact h e), e⟩, fun ⟨c, hc, e⟩ => ⟨c, by simp [hc], e⟩⟩
      simp only [this, List.cons_append, sget, h, if_false, ih]

theorem sget_filter_keep (p : Nat → Bool) (m : SMap α) (j : Nat) (h : p j = true) : sget d (m.filter fun c => p c.1) j = sget d m j := by
  induction m with
  | nil => rfl
  | cons c m ih =>
    obtain ⟨k, v⟩ := c
    by_cases hk : p k = true
    · simp [hk, sget, ih]
    · have : k ≠ j := by rintro rfl; exact hk h
      simp [hk, sget, ih, this]

theorem sget_none (m : SMap α) (j : Nat) (h : ∀ c ∈ m, c.1 ≠ j) : sget d m j = d := by
  induction m with
  | nil => rfl
  | cons c m ih =>
    obtain ⟨k, v⟩ := c
    have hk : k ≠ j := h (k, v) (by simp)
    simp [sget, hk]
    exact ih fun c hc => h c (by simp [hc])

theorem sget_sclear (m : SMap α) (i n j : Nat) (h : j < i ∨ i + n ≤ j) : sget d (sclear m i n) j = sget d m j :=
  sget_filter_keep d (fun k => !(decide (i ≤ k) && decide (k < i + n))) m j (by simp; omega)
theorem sget_sclear_inside (m : SMap α) (i n j : Nat) (h1 : i ≤ j) (h2 : j < i + n) : sget d (sclear m i n) j = d :=
  sget_none d _ _ fun c hc => by simp [sclear] at hc; omega

variable [DecidableEq α]

theorem scells_keys (i : Nat) (vs : List α) : ∀ c ∈ scells d i vs, i ≤ c.1 ∧ c.1 < i + vs.length ∧ c.2 ≠ d := by
  induction vs generalizing i with
  | nil => simp [scells]
  | cons v r ih =>
    intro c hc
    by_cases hv : v = d
    · obtain ⟨h1, h2, h3⟩ := ih (i + 1) c (by simpa [scells, hv] using hc)
      exact ⟨by omega, by simp; omega, h3⟩
    · rcases (by simpa [scells, hv] using hc : c = (i, v) ∨ c ∈ scells d (i + 1) r) with rfl | h
      · simp [hv]
      · obtain ⟨h1, h2, h3⟩ := ih (i + 1) c h
        exact ⟨by omega, by simp; omega, h3⟩

theorem sget_scells (i : Nat) (vs : List α) (j : Nat) (h1 : i ≤ j) (h2 : j < i + vs.length) : sget d (scells d i vs) j = vs.getD (j - i) d := by
  induction vs generalizing i with
  | nil => simp at h2; omega
  | cons v r ih =>
    by_cases hj : i = j
    · subst hj
      by_cases hv : v = d
      · simp only [scells, hv, if_true, Nat.sub_self, List.getD_cons_zero]
        exact sget_none d _ _ fun c hc => by have := scells_keys d (i + 1) r c hc; omega
      · simp [scells, hv, sget]
    · have e : j - i = (j - (i + 1)) + 1 := by omega
      have := ih (i + 1) (by omega) (by simp at h2; omega)
      by_cases hv : v = d
      · simp [scells, hv, this, e]
      · simp [scells, hv, sget, hj, this, e]

/-- A read after a write, of any map. -/
theorem sget_swrite (m : SMap α) (i : Nat) (vs : List α) (j : Nat) :
    sget d (swrite d m i vs) j = if i ≤ j ∧ j < i + vs.length then vs.getD (j - i) d else sget d m j := by
  unfold swrite
  rw [List.append_assoc, sget_append, sget_append]
  by_cases hlo : j < i
  · have hn : ¬ (i ≤ j ∧ j < i + vs.length) := by omega
    rw [if_neg hn]
    have keep : sget d (m.filter fun c => decide (c.1 < i)) j = sget d m j := sget_filter_keep d (fun k => decide (k < i)) m j (by simpa using hlo)
    by_cases h : ∃ c ∈ m.filter (fun c => decide (c.1 < i)), c.1 = j
    · rw [if_pos h, keep]
    · rw [if_neg h]
      have : sget d m j = d := by
        rw [← keep]; exact sget_none d _ _ fun c hc hj => h ⟨c, hc, hj⟩
      have h2 : ¬ ∃ c ∈ scells d i vs, c.1 = j := fun ⟨c, hc, hj⟩ => by have := scells_keys d i vs c hc; omega
      rw [if_neg h2, this]
      exact sget_none d _ _ fun c hc => by simp at hc; omega
  · have h1 : ¬ ∃ c ∈ m.filter (fun c => decide (c.1 < i)), c.1 = j := fun ⟨c, hc, hj⟩ => by simp at hc; omega
    rw [if_neg h1]
    by_cases hhi : j < i + vs.length
    · have hin : i ≤ j ∧ j < i + vs.length := ⟨by omega, hhi⟩
      rw [if_pos hin]
      by_cases h : ∃ c ∈ scells d i vs, c.1 = j
      · rw [if_pos h, sget_scells d i vs j (by omega) hhi]
      · rw [if_neg h, ← sget_scells d i vs j (by omega) hhi, sget_none d (scells d i vs) j fun c hc hj => h ⟨c, hc, hj⟩]
        exact sget_none d _ _ fun c hc => by simp at hc; omega
    · have h2 : ¬ ∃ c ∈ scells d i vs, c.1 = j := fun ⟨c, hc, hj⟩ => by have := scells_keys d i vs c hc; omega
      rw [if_neg h2, if_neg (by omega)]
      exact sget_filter_keep d (fun k => decide (i + vs.length ≤ k)) m j (by simp; omega)

@[simp] theorem sget_sset (m : SMap α) (i : Nat) (v : α) (j : Nat) : sget d (sset d m i v) j = if j = i then v else sget d m j := by
  unfold sset
  rw [sget_swrite]
  by_cases h : j = i
  · subst h; simp
  · rw [if_neg (by simp; omega), if_neg h]

theorem sget_swrite_of_lt (m : SMap α) (i : Nat) (vs : List α) (j : Nat) (h : j < i) : sget d (swrite d m i vs) j = sget d m j := by
  rw [sget_swrite, if_neg (by omega)]
theorem sget_swrite_of_le (m : SMap α) (i : Nat) (vs : List α) (j : Nat) (h : i + vs.length ≤ j) : sget d (swrite d m i vs) j = sget d m j := by
  rw [sget_swrite, if_neg (by omega)]

/-- What was written is read back. -/
theorem sread_swrite (m : SMap α) (i : Nat) (vs : List α) : sread d (swrite d m i vs) i vs.length = vs := by
  apply List.ext_getElem (by simp [sread])
  intro k h1 h2
  simp only [sread, List.getElem_map, List.getElem_range]
  rw [sget_swrite, if_pos ⟨by omega, by omega⟩]
  simp [h2]

end Reading

section Canonical
variable {α : Type} [DecidableEq α] (d : α)

/-- The canonical form, said of the list as a whole: keys strictly rising and no default listed. -/
theorem swf_iff (m : SMap α) : swf d m = true ↔ m.Pairwise (fun a b => a.1 < b.1) ∧ ∀ c ∈ m, c.2 ≠ d := by
  induction m with
  | nil => simp [swf]
  | cons c m ih =>
    obtain ⟨k, v⟩ := c
    cases m with
    | nil => simp [swf]
    | cons c' r =>
      obtain ⟨k', v'⟩ := c'
      simp only [swf, Bool.and_eq_true, decide_eq_true_eq, ih]
      constructor
      · rintro ⟨⟨hv, hk⟩, hp, hd⟩
        refine ⟨List.pairwise_cons.2 ⟨fun c hc => ?_, hp⟩, by simpa [hv] using hd⟩
        rcases List.mem_cons.1 hc with rfl | hc
        · exact hk
        · exact lt_trans hk ((List.pairwise_cons.1 hp).1 c hc)
      · rintro ⟨hp, hd⟩
        have := List.pairwise_cons.1 hp
        exact ⟨⟨hd (k, v) (by simp), this.1 (k', v') (by simp)⟩, this.2, fun c hc => hd c (by simp [hc])⟩

theorem scells_pairwise (i : Nat) (vs : List α) : (scells d i vs).Pairwise (fun a b => a.1 < b.1) := by
  induction vs generalizing i with
  | nil => simp [scells]
  | cons v r ih =>
    by_cases hv : v = d
    · simpa [scells, hv] using ih (i + 1)
    · simp only [scells, hv, if_false, List.pairwise_cons]
      exact ⟨fun c hc => by have := scells_keys d (i + 1) r c hc; omega, ih (i + 1)⟩

/-- A write keeps the canonical form. -/
theorem swf_swrite (m : SMap α) (i : Nat) (vs : List α) (h : swf d m = true) : swf d (swrite d m i vs) = true := by
  rw [swf_iff] at h ⊢
  obtain ⟨hp, hd⟩ := h
  unfold swrite
  refine ⟨?_, ?_⟩
  · rw [List.append_assoc, List.pairwise_append, List.pairwise_append]
    refine ⟨hp.filter _, ⟨scells_pairwise d i vs, hp.filter _, fun a ha b hb => ?_⟩, fun a ha b hb => ?_⟩
    · have := scells_keys d i vs a ha; simp at hb; omega
    · simp at ha
      rcases List.mem_append.1 hb with hb | hb
      · have := scells_keys d i vs b hb; omega
      · simp at hb; omega
  · intro c hc
    rcases List.mem_append.1 hc with hc | hc
    · rcases List.mem_append.1 hc with hc | hc
      · exact hd c (List.mem_of_mem_filter hc)
      · exact (scells_keys d i vs c hc).2.2
    · exact hd c (List.mem_of_mem_filter hc)

theorem swf_sset (m : SMap α) (i : Nat) (v : α) (h : swf d m = true) : swf d (sset d m i v) = true := swf_swrite d m i [v] h

theorem swf_sclear (m : SMap α) (i n : Nat) (h : swf d m = true) : swf d (sclear m i n) = true := by
  rw [swf_iff] at h ⊢
  exact ⟨h.1.filter _, fun c hc => h.2 c (List.mem_of_mem_filter hc)⟩

/-- Maps in canonical form that read alike are equal. -/
theorem swf_ext (m n : SMap α) (hm : swf d m = true) (hn : swf d n = true) (h : ∀ j, sget d m j = sget d n j) : m = n := by
  rw [swf_iff] at hm hn
  have mem_iff (l : SMap α) (hl : l.Pairwise (fun a b => a.1 < b.1) ∧ ∀ c ∈ l, c.2 ≠ d) (k : Nat) (v : α) (hv : v ≠ d) : (k, v) ∈ l ↔ sget d l k = v := by
    obtain ⟨hp, hd⟩ := hl
    induction l with
    | nil => simp [sget, Ne.symm hv]
    | cons c r ih =>
      obtain ⟨k', v'⟩ := c
      have hc := List.pairwise_cons.1 hp
      have ihr := ih hc.2 (fun c hc => hd c (by simp [hc]))
      by_cases hk : k' = k
      · subst hk
        simp only [sget, if_true, List.mem_cons, Prod.mk.injEq, true_and]
        constructor
        · rintro (rfl | hr)
          · rfl
          · have := hc.1 _ hr; simp at this
        · rintro rfl; simp
      · simp [sget, hk, Ne.symm hk, ihr]
  have hmem : ∀ c, c ∈ m ↔ c ∈ n := by
    rintro ⟨k, v⟩
    by_cases hv : v = d
    · subst hv
      exact ⟨fun hc => absurd rfl (hm.2 _ hc), fun hc => absurd rfl (hn.2 _ hc)⟩
    · rw [mem_iff m hm k v hv, mem_iff n hn k v hv, h k]
  have nd (l : SMap α) (hl : l.Pairwise (fun a b => a.1 < b.1)) : l.Nodup := hl.imp fun hab e => by subst e; omega
  have perm : m.Perm n := (List.perm_ext_iff_of_nodup (nd m hm.1) (nd n hn.1)).2 hmem
  exact perm.eq_of_pairwise (fun a b _ _ hab hba => absurd hab (by omega)) hm.1 hn.1

end Canonical

end Sys2Proof.Machine
end

