-- ==== Sys2Proof/Laws/State.lean ====
section
/-!
SUPPORT. The named updates of the state, field by field: what each leaves alone, and what reading back gives. Later proofs
cite these and never open a record update.
-/
namespace Sys2Proof.Machine

variable (s : State)

section setEnt
variable (i j v : Nat)
@[simp] theorem State.setEnt_pending : (s.setEnt i j v).pending = s.pending := rfl
@[simp] theorem State.setEnt_now : (s.setEnt i j v).now = s.now := rfl
@[simp] theorem State.setEnt_freeCtr : (s.setEnt i j v).freeCtr = s.freeCtr := rfl
@[simp] theorem State.setEnt_octs : (s.setEnt i j v).octs = s.octs := rfl
@[simp] theorem State.setEnt_ctl : (s.setEnt i j v).ctl = s.ctl := rfl
@[simp] theorem State.setEnt_power : (s.setEnt i j v).power = s.power := rfl
@[simp] theorem State.setEnt_ev : (s.setEnt i j v).ev = s.ev := rfl
@[simp] theorem State.setEnt_fdp : (s.setEnt i j v).fdp = s.fdp := rfl
@[simp] theorem State.setEnt_audit : (s.setEnt i j v).audit = s.audit := rfl
@[simp] theorem State.setEnt_trust : (s.setEnt i j v).trust = s.trust := rfl
@[simp] theorem State.setEnt_time : (s.setEnt i j v).time = s.time := rfl
@[simp] theorem State.setEnt_links : (s.setEnt i j v).links = s.links := rfl
@[simp] theorem State.setEnt_coll : (s.setEnt i j v).coll = s.coll := rfl
@[simp] theorem State.setEnt_run : (s.setEnt i j v).run = s.run := rfl
@[simp] theorem State.setEnt_cores : (s.setEnt i j v).cores = s.cores := rfl
@[simp] theorem State.setEnt_work : (s.setEnt i j v).work = s.work := rfl
@[simp] theorem State.setEnt_mem : (s.setEnt i j v).mem = s.mem := rfl
@[simp] theorem State.setEnt_pages : (s.setEnt i j v).pages = s.pages := rfl
@[simp] theorem State.setEnt_regions : (s.setEnt i j v).regions = s.regions := rfl
@[simp] theorem State.setEnt_mfe : (s.setEnt i j v).mfe = s.mfe := rfl
@[simp] theorem State.setEnt_video : (s.setEnt i j v).video = s.video := rfl
end setEnt

section addEnt
variable (i j n : Nat)
@[simp] theorem State.addEnt_pending : (s.addEnt i j n).pending = s.pending := rfl
@[simp] theorem State.addEnt_now : (s.addEnt i j n).now = s.now := rfl
@[simp] theorem State.addEnt_freeCtr : (s.addEnt i j n).freeCtr = s.freeCtr := rfl
@[simp] theorem State.addEnt_octs : (s.addEnt i j n).octs = s.octs := rfl
@[simp] theorem State.addEnt_ctl : (s.addEnt i j n).ctl = s.ctl := rfl
@[simp] theorem State.addEnt_power : (s.addEnt i j n).power = s.power := rfl
@[simp] theorem State.addEnt_ev : (s.addEnt i j n).ev = s.ev := rfl
@[simp] theorem State.addEnt_fdp : (s.addEnt i j n).fdp = s.fdp := rfl
@[simp] theorem State.addEnt_audit : (s.addEnt i j n).audit = s.audit := rfl
@[simp] theorem State.addEnt_trust : (s.addEnt i j n).trust = s.trust := rfl
@[simp] theorem State.addEnt_time : (s.addEnt i j n).time = s.time := rfl
@[simp] theorem State.addEnt_links : (s.addEnt i j n).links = s.links := rfl
@[simp] theorem State.addEnt_coll : (s.addEnt i j n).coll = s.coll := rfl
@[simp] theorem State.addEnt_run : (s.addEnt i j n).run = s.run := rfl
@[simp] theorem State.addEnt_cores : (s.addEnt i j n).cores = s.cores := rfl
@[simp] theorem State.addEnt_work : (s.addEnt i j n).work = s.work := rfl
@[simp] theorem State.addEnt_mem : (s.addEnt i j n).mem = s.mem := rfl
@[simp] theorem State.addEnt_pages : (s.addEnt i j n).pages = s.pages := rfl
@[simp] theorem State.addEnt_regions : (s.addEnt i j n).regions = s.regions := rfl
@[simp] theorem State.addEnt_mfe : (s.addEnt i j n).mfe = s.mfe := rfl
@[simp] theorem State.addEnt_video : (s.addEnt i j n).video = s.video := rfl
end addEnt

section clearEnt
variable (i j : Nat)
@[simp] theorem State.clearEnt_pending : (s.clearEnt i j).pending = s.pending := rfl
@[simp] theorem State.clearEnt_now : (s.clearEnt i j).now = s.now := rfl
@[simp] theorem State.clearEnt_freeCtr : (s.clearEnt i j).freeCtr = s.freeCtr := rfl
@[simp] theorem State.clearEnt_octs : (s.clearEnt i j).octs = s.octs := rfl
@[simp] theorem State.clearEnt_ctl : (s.clearEnt i j).ctl = s.ctl := rfl
@[simp] theorem State.clearEnt_power : (s.clearEnt i j).power = s.power := rfl
@[simp] theorem State.clearEnt_ev : (s.clearEnt i j).ev = s.ev := rfl
@[simp] theorem State.clearEnt_fdp : (s.clearEnt i j).fdp = s.fdp := rfl
@[simp] theorem State.clearEnt_audit : (s.clearEnt i j).audit = s.audit := rfl
@[simp] theorem State.clearEnt_trust : (s.clearEnt i j).trust = s.trust := rfl
@[simp] theorem State.clearEnt_time : (s.clearEnt i j).time = s.time := rfl
@[simp] theorem State.clearEnt_links : (s.clearEnt i j).links = s.links := rfl
@[simp] theorem State.clearEnt_coll : (s.clearEnt i j).coll = s.coll := rfl
@[simp] theorem State.clearEnt_run : (s.clearEnt i j).run = s.run := rfl
@[simp] theorem State.clearEnt_cores : (s.clearEnt i j).cores = s.cores := rfl
@[simp] theorem State.clearEnt_work : (s.clearEnt i j).work = s.work := rfl
@[simp] theorem State.clearEnt_mem : (s.clearEnt i j).mem = s.mem := rfl
@[simp] theorem State.clearEnt_pages : (s.clearEnt i j).pages = s.pages := rfl
@[simp] theorem State.clearEnt_regions : (s.clearEnt i j).regions = s.regions := rfl
@[simp] theorem State.clearEnt_mfe : (s.clearEnt i j).mfe = s.mfe := rfl
@[simp] theorem State.clearEnt_video : (s.clearEnt i j).video = s.video := rfl
end clearEnt

section clearEnts
variable (l : List (Nat × Nat × Nat))
@[simp] theorem State.clearEnts_pending : (clearEnts l s).pending = s.pending := rfl
@[simp] theorem State.clearEnts_now : (clearEnts l s).now = s.now := rfl
@[simp] theorem State.clearEnts_freeCtr : (clearEnts l s).freeCtr = s.freeCtr := rfl
@[simp] theorem State.clearEnts_octs : (clearEnts l s).octs = s.octs := rfl
@[simp] theorem State.clearEnts_ctl : (clearEnts l s).ctl = s.ctl := rfl
@[simp] theorem State.clearEnts_power : (clearEnts l s).power = s.power := rfl
@[simp] theorem State.clearEnts_ev : (clearEnts l s).ev = s.ev := rfl
@[simp] theorem State.clearEnts_fdp : (clearEnts l s).fdp = s.fdp := rfl
@[simp] theorem State.clearEnts_audit : (clearEnts l s).audit = s.audit := rfl
@[simp] theorem State.clearEnts_trust : (clearEnts l s).trust = s.trust := rfl
@[simp] theorem State.clearEnts_time : (clearEnts l s).time = s.time := rfl
@[simp] theorem State.clearEnts_links : (clearEnts l s).links = s.links := rfl
@[simp] theorem State.clearEnts_coll : (clearEnts l s).coll = s.coll := rfl
@[simp] theorem State.clearEnts_run : (clearEnts l s).run = s.run := rfl
@[simp] theorem State.clearEnts_cores : (clearEnts l s).cores = s.cores := rfl
@[simp] theorem State.clearEnts_work : (clearEnts l s).work = s.work := rfl
@[simp] theorem State.clearEnts_mem : (clearEnts l s).mem = s.mem := rfl
@[simp] theorem State.clearEnts_pages : (clearEnts l s).pages = s.pages := rfl
@[simp] theorem State.clearEnts_regions : (clearEnts l s).regions = s.regions := rfl
@[simp] theorem State.clearEnts_mfe : (clearEnts l s).mfe = s.mfe := rfl
@[simp] theorem State.clearEnts_video : (clearEnts l s).video = s.video := rfl
end clearEnts

section setOct
variable (i j : Nat) (b : List Byte)
@[simp] theorem State.setOct_pending : (s.setOct i j b).pending = s.pending := rfl
@[simp] theorem State.setOct_now : (s.setOct i j b).now = s.now := rfl
@[simp] theorem State.setOct_freeCtr : (s.setOct i j b).freeCtr = s.freeCtr := rfl
@[simp] theorem State.setOct_dict : (s.setOct i j b).dict = s.dict := rfl
@[simp] theorem State.setOct_ctl : (s.setOct i j b).ctl = s.ctl := rfl
@[simp] theorem State.setOct_power : (s.setOct i j b).power = s.power := rfl
@[simp] theorem State.setOct_ev : (s.setOct i j b).ev = s.ev := rfl
@[simp] theorem State.setOct_fdp : (s.setOct i j b).fdp = s.fdp := rfl
@[simp] theorem State.setOct_audit : (s.setOct i j b).audit = s.audit := rfl
@[simp] theorem State.setOct_trust : (s.setOct i j b).trust = s.trust := rfl
@[simp] theorem State.setOct_time : (s.setOct i j b).time = s.time := rfl
@[simp] theorem State.setOct_links : (s.setOct i j b).links = s.links := rfl
@[simp] theorem State.setOct_coll : (s.setOct i j b).coll = s.coll := rfl
@[simp] theorem State.setOct_run : (s.setOct i j b).run = s.run := rfl
@[simp] theorem State.setOct_cores : (s.setOct i j b).cores = s.cores := rfl
@[simp] theorem State.setOct_work : (s.setOct i j b).work = s.work := rfl
@[simp] theorem State.setOct_mem : (s.setOct i j b).mem = s.mem := rfl
@[simp] theorem State.setOct_pages : (s.setOct i j b).pages = s.pages := rfl
@[simp] theorem State.setOct_regions : (s.setOct i j b).regions = s.regions := rfl
@[simp] theorem State.setOct_mfe : (s.setOct i j b).mfe = s.mfe := rfl
@[simp] theorem State.setOct_video : (s.setOct i j b).video = s.video := rfl
end setOct

section clearOct
variable (i j : Nat)
@[simp] theorem State.clearOct_pending : (s.clearOct i j).pending = s.pending := rfl
@[simp] theorem State.clearOct_now : (s.clearOct i j).now = s.now := rfl
@[simp] theorem State.clearOct_freeCtr : (s.clearOct i j).freeCtr = s.freeCtr := rfl
@[simp] theorem State.clearOct_dict : (s.clearOct i j).dict = s.dict := rfl
@[simp] theorem State.clearOct_ctl : (s.clearOct i j).ctl = s.ctl := rfl
@[simp] theorem State.clearOct_power : (s.clearOct i j).power = s.power := rfl
@[simp] theorem State.clearOct_ev : (s.clearOct i j).ev = s.ev := rfl
@[simp] theorem State.clearOct_fdp : (s.clearOct i j).fdp = s.fdp := rfl
@[simp] theorem State.clearOct_audit : (s.clearOct i j).audit = s.audit := rfl
@[simp] theorem State.clearOct_trust : (s.clearOct i j).trust = s.trust := rfl
@[simp] theorem State.clearOct_time : (s.clearOct i j).time = s.time := rfl
@[simp] theorem State.clearOct_links : (s.clearOct i j).links = s.links := rfl
@[simp] theorem State.clearOct_coll : (s.clearOct i j).coll = s.coll := rfl
@[simp] theorem State.clearOct_run : (s.clearOct i j).run = s.run := rfl
@[simp] theorem State.clearOct_cores : (s.clearOct i j).cores = s.cores := rfl
@[simp] theorem State.clearOct_work : (s.clearOct i j).work = s.work := rfl
@[simp] theorem State.clearOct_mem : (s.clearOct i j).mem = s.mem := rfl
@[simp] theorem State.clearOct_pages : (s.clearOct i j).pages = s.pages := rfl
@[simp] theorem State.clearOct_regions : (s.clearOct i j).regions = s.regions := rfl
@[simp] theorem State.clearOct_mfe : (s.clearOct i j).mfe = s.mfe := rfl
@[simp] theorem State.clearOct_video : (s.clearOct i j).video = s.video := rfl
end clearOct

section raise
variable (code : Nat) (vs : List (Nat × Nat))
@[simp] theorem State.raise_pending : (s.raise code vs).pending = s.pending := rfl
@[simp] theorem State.raise_now : (s.raise code vs).now = s.now := rfl
@[simp] theorem State.raise_freeCtr : (s.raise code vs).freeCtr = s.freeCtr := rfl
@[simp] theorem State.raise_dict : (s.raise code vs).dict = s.dict := rfl
@[simp] theorem State.raise_octs : (s.raise code vs).octs = s.octs := rfl
@[simp] theorem State.raise_ctl : (s.raise code vs).ctl = s.ctl := rfl
@[simp] theorem State.raise_power : (s.raise code vs).power = s.power := rfl
@[simp] theorem State.raise_fdp : (s.raise code vs).fdp = s.fdp := rfl
@[simp] theorem State.raise_audit : (s.raise code vs).audit = s.audit := rfl
@[simp] theorem State.raise_trust : (s.raise code vs).trust = s.trust := rfl
@[simp] theorem State.raise_time : (s.raise code vs).time = s.time := rfl
@[simp] theorem State.raise_links : (s.raise code vs).links = s.links := rfl
@[simp] theorem State.raise_coll : (s.raise code vs).coll = s.coll := rfl
@[simp] theorem State.raise_run : (s.raise code vs).run = s.run := rfl
@[simp] theorem State.raise_cores : (s.raise code vs).cores = s.cores := rfl
@[simp] theorem State.raise_work : (s.raise code vs).work = s.work := rfl
@[simp] theorem State.raise_mem : (s.raise code vs).mem = s.mem := rfl
@[simp] theorem State.raise_pages : (s.raise code vs).pages = s.pages := rfl
@[simp] theorem State.raise_regions : (s.raise code vs).regions = s.regions := rfl
@[simp] theorem State.raise_mfe : (s.raise code vs).mfe = s.mfe := rfl
@[simp] theorem State.raise_video : (s.raise code vs).video = s.video := rfl
end raise

section enter
variable (d : Dev)
@[simp] theorem State.enter_pending : (s.enter d).pending = s.pending := rfl
@[simp] theorem State.enter_now : (s.enter d).now = s.now := rfl
@[simp] theorem State.enter_freeCtr : (s.enter d).freeCtr = s.freeCtr := rfl
@[simp] theorem State.enter_octs : (s.enter d).octs = s.octs := rfl
@[simp] theorem State.enter_power : (s.enter d).power = s.power := rfl
@[simp] theorem State.enter_ev : (s.enter d).ev = s.ev := rfl
@[simp] theorem State.enter_fdp : (s.enter d).fdp = s.fdp := rfl
@[simp] theorem State.enter_audit : (s.enter d).audit = s.audit := rfl
@[simp] theorem State.enter_trust : (s.enter d).trust = s.trust := rfl
@[simp] theorem State.enter_time : (s.enter d).time = s.time := rfl
@[simp] theorem State.enter_links : (s.enter d).links = s.links := rfl
@[simp] theorem State.enter_coll : (s.enter d).coll = s.coll := rfl
@[simp] theorem State.enter_run : (s.enter d).run = s.run := rfl
@[simp] theorem State.enter_cores : (s.enter d).cores = s.cores := rfl
@[simp] theorem State.enter_work : (s.enter d).work = s.work := rfl
@[simp] theorem State.enter_mem : (s.enter d).mem = s.mem := rfl
@[simp] theorem State.enter_pages : (s.enter d).pages = s.pages := rfl
@[simp] theorem State.enter_regions : (s.enter d).regions = s.regions := rfl
@[simp] theorem State.enter_mfe : (s.enter d).mfe = s.mfe := rfl
@[simp] theorem State.enter_video : (s.enter d).video = s.video := rfl
end enter

section setCore
variable (c : Nat) (x : CoreS)
@[simp] theorem State.setCore_pending : (s.setCore c x).pending = s.pending := rfl
@[simp] theorem State.setCore_now : (s.setCore c x).now = s.now := rfl
@[simp] theorem State.setCore_freeCtr : (s.setCore c x).freeCtr = s.freeCtr := rfl
@[simp] theorem State.setCore_dict : (s.setCore c x).dict = s.dict := rfl
@[simp] theorem State.setCore_octs : (s.setCore c x).octs = s.octs := rfl
@[simp] theorem State.setCore_ctl : (s.setCore c x).ctl = s.ctl := rfl
@[simp] theorem State.setCore_power : (s.setCore c x).power = s.power := rfl
@[simp] theorem State.setCore_ev : (s.setCore c x).ev = s.ev := rfl
@[simp] theorem State.setCore_fdp : (s.setCore c x).fdp = s.fdp := rfl
@[simp] theorem State.setCore_audit : (s.setCore c x).audit = s.audit := rfl
@[simp] theorem State.setCore_trust : (s.setCore c x).trust = s.trust := rfl
@[simp] theorem State.setCore_time : (s.setCore c x).time = s.time := rfl
@[simp] theorem State.setCore_links : (s.setCore c x).links = s.links := rfl
@[simp] theorem State.setCore_coll : (s.setCore c x).coll = s.coll := rfl
@[simp] theorem State.setCore_run : (s.setCore c x).run = s.run := rfl
@[simp] theorem State.setCore_work : (s.setCore c x).work = s.work := rfl
@[simp] theorem State.setCore_mem : (s.setCore c x).mem = s.mem := rfl
@[simp] theorem State.setCore_pages : (s.setCore c x).pages = s.pages := rfl
@[simp] theorem State.setCore_regions : (s.setCore c x).regions = s.regions := rfl
@[simp] theorem State.setCore_mfe : (s.setCore c x).mfe = s.mfe := rfl
@[simp] theorem State.setCore_video : (s.setCore c x).video = s.video := rfl
end setCore

section modCore
variable (c : Nat) (f : CoreS → CoreS)
@[simp] theorem State.modCore_pending : (s.modCore c f).pending = s.pending := rfl
@[simp] theorem State.modCore_now : (s.modCore c f).now = s.now := rfl
@[simp] theorem State.modCore_freeCtr : (s.modCore c f).freeCtr = s.freeCtr := rfl
@[simp] theorem State.modCore_dict : (s.modCore c f).dict = s.dict := rfl
@[simp] theorem State.modCore_octs : (s.modCore c f).octs = s.octs := rfl
@[simp] theorem State.modCore_ctl : (s.modCore c f).ctl = s.ctl := rfl
@[simp] theorem State.modCore_power : (s.modCore c f).power = s.power := rfl
@[simp] theorem State.modCore_ev : (s.modCore c f).ev = s.ev := rfl
@[simp] theorem State.modCore_fdp : (s.modCore c f).fdp = s.fdp := rfl
@[simp] theorem State.modCore_audit : (s.modCore c f).audit = s.audit := rfl
@[simp] theorem State.modCore_trust : (s.modCore c f).trust = s.trust := rfl
@[simp] theorem State.modCore_time : (s.modCore c f).time = s.time := rfl
@[simp] theorem State.modCore_links : (s.modCore c f).links = s.links := rfl
@[simp] theorem State.modCore_coll : (s.modCore c f).coll = s.coll := rfl
@[simp] theorem State.modCore_run : (s.modCore c f).run = s.run := rfl
@[simp] theorem State.modCore_work : (s.modCore c f).work = s.work := rfl
@[simp] theorem State.modCore_mem : (s.modCore c f).mem = s.mem := rfl
@[simp] theorem State.modCore_pages : (s.modCore c f).pages = s.pages := rfl
@[simp] theorem State.modCore_regions : (s.modCore c f).regions = s.regions := rfl
@[simp] theorem State.modCore_mfe : (s.modCore c f).mfe = s.mfe := rfl
@[simp] theorem State.modCore_video : (s.modCore c f).video = s.video := rfl
end modCore

section setSem
variable (c k v : Nat)
@[simp] theorem State.setSem_pending : (s.setSem c k v).pending = s.pending := rfl
@[simp] theorem State.setSem_now : (s.setSem c k v).now = s.now := rfl
@[simp] theorem State.setSem_freeCtr : (s.setSem c k v).freeCtr = s.freeCtr := rfl
@[simp] theorem State.setSem_dict : (s.setSem c k v).dict = s.dict := rfl
@[simp] theorem State.setSem_octs : (s.setSem c k v).octs = s.octs := rfl
@[simp] theorem State.setSem_ctl : (s.setSem c k v).ctl = s.ctl := rfl
@[simp] theorem State.setSem_power : (s.setSem c k v).power = s.power := rfl
@[simp] theorem State.setSem_ev : (s.setSem c k v).ev = s.ev := rfl
@[simp] theorem State.setSem_fdp : (s.setSem c k v).fdp = s.fdp := rfl
@[simp] theorem State.setSem_audit : (s.setSem c k v).audit = s.audit := rfl
@[simp] theorem State.setSem_trust : (s.setSem c k v).trust = s.trust := rfl
@[simp] theorem State.setSem_time : (s.setSem c k v).time = s.time := rfl
@[simp] theorem State.setSem_links : (s.setSem c k v).links = s.links := rfl
@[simp] theorem State.setSem_coll : (s.setSem c k v).coll = s.coll := rfl
@[simp] theorem State.setSem_run : (s.setSem c k v).run = s.run := rfl
@[simp] theorem State.setSem_work : (s.setSem c k v).work = s.work := rfl
@[simp] theorem State.setSem_mem : (s.setSem c k v).mem = s.mem := rfl
@[simp] theorem State.setSem_pages : (s.setSem c k v).pages = s.pages := rfl
@[simp] theorem State.setSem_regions : (s.setSem c k v).regions = s.regions := rfl
@[simp] theorem State.setSem_mfe : (s.setSem c k v).mfe = s.mfe := rfl
@[simp] theorem State.setSem_video : (s.setSem c k v).video = s.video := rfl
end setSem

section modMove
variable (c id : Nat) (f : Move → Move)
@[simp] theorem State.modMove_pending : (s.modMove c id f).pending = s.pending := rfl
@[simp] theorem State.modMove_now : (s.modMove c id f).now = s.now := rfl
@[simp] theorem State.modMove_freeCtr : (s.modMove c id f).freeCtr = s.freeCtr := rfl
@[simp] theorem State.modMove_dict : (s.modMove c id f).dict = s.dict := rfl
@[simp] theorem State.modMove_octs : (s.modMove c id f).octs = s.octs := rfl
@[simp] theorem State.modMove_ctl : (s.modMove c id f).ctl = s.ctl := rfl
@[simp] theorem State.modMove_power : (s.modMove c id f).power = s.power := rfl
@[simp] theorem State.modMove_ev : (s.modMove c id f).ev = s.ev := rfl
@[simp] theorem State.modMove_fdp : (s.modMove c id f).fdp = s.fdp := rfl
@[simp] theorem State.modMove_audit : (s.modMove c id f).audit = s.audit := rfl
@[simp] theorem State.modMove_trust : (s.modMove c id f).trust = s.trust := rfl
@[simp] theorem State.modMove_time : (s.modMove c id f).time = s.time := rfl
@[simp] theorem State.modMove_links : (s.modMove c id f).links = s.links := rfl
@[simp] theorem State.modMove_coll : (s.modMove c id f).coll = s.coll := rfl
@[simp] theorem State.modMove_run : (s.modMove c id f).run = s.run := rfl
@[simp] theorem State.modMove_work : (s.modMove c id f).work = s.work := rfl
@[simp] theorem State.modMove_mem : (s.modMove c id f).mem = s.mem := rfl
@[simp] theorem State.modMove_pages : (s.modMove c id f).pages = s.pages := rfl
@[simp] theorem State.modMove_regions : (s.modMove c id f).regions = s.regions := rfl
@[simp] theorem State.modMove_mfe : (s.modMove c id f).mfe = s.mfe := rfl
@[simp] theorem State.modMove_video : (s.modMove c id f).video = s.video := rfl
end modMove

section setPort
variable (p : Nat) (x : PortS)
@[simp] theorem State.setPort_pending : (s.setPort p x).pending = s.pending := rfl
@[simp] theorem State.setPort_now : (s.setPort p x).now = s.now := rfl
@[simp] theorem State.setPort_freeCtr : (s.setPort p x).freeCtr = s.freeCtr := rfl
@[simp] theorem State.setPort_dict : (s.setPort p x).dict = s.dict := rfl
@[simp] theorem State.setPort_octs : (s.setPort p x).octs = s.octs := rfl
@[simp] theorem State.setPort_ctl : (s.setPort p x).ctl = s.ctl := rfl
@[simp] theorem State.setPort_power : (s.setPort p x).power = s.power := rfl
@[simp] theorem State.setPort_ev : (s.setPort p x).ev = s.ev := rfl
@[simp] theorem State.setPort_fdp : (s.setPort p x).fdp = s.fdp := rfl
@[simp] theorem State.setPort_audit : (s.setPort p x).audit = s.audit := rfl
@[simp] theorem State.setPort_trust : (s.setPort p x).trust = s.trust := rfl
@[simp] theorem State.setPort_time : (s.setPort p x).time = s.time := rfl
@[simp] theorem State.setPort_coll : (s.setPort p x).coll = s.coll := rfl
@[simp] theorem State.setPort_run : (s.setPort p x).run = s.run := rfl
@[simp] theorem State.setPort_cores : (s.setPort p x).cores = s.cores := rfl
@[simp] theorem State.setPort_work : (s.setPort p x).work = s.work := rfl
@[simp] theorem State.setPort_mem : (s.setPort p x).mem = s.mem := rfl
@[simp] theorem State.setPort_pages : (s.setPort p x).pages = s.pages := rfl
@[simp] theorem State.setPort_regions : (s.setPort p x).regions = s.regions := rfl
@[simp] theorem State.setPort_mfe : (s.setPort p x).mfe = s.mfe := rfl
@[simp] theorem State.setPort_video : (s.setPort p x).video = s.video := rfl
end setPort

section modPort
variable (p : Nat) (f : PortS → PortS)
@[simp] theorem State.modPort_pending : (s.modPort p f).pending = s.pending := rfl
@[simp] theorem State.modPort_now : (s.modPort p f).now = s.now := rfl
@[simp] theorem State.modPort_freeCtr : (s.modPort p f).freeCtr = s.freeCtr := rfl
@[simp] theorem State.modPort_dict : (s.modPort p f).dict = s.dict := rfl
@[simp] theorem State.modPort_octs : (s.modPort p f).octs = s.octs := rfl
@[simp] theorem State.modPort_ctl : (s.modPort p f).ctl = s.ctl := rfl
@[simp] theorem State.modPort_power : (s.modPort p f).power = s.power := rfl
@[simp] theorem State.modPort_ev : (s.modPort p f).ev = s.ev := rfl
@[simp] theorem State.modPort_fdp : (s.modPort p f).fdp = s.fdp := rfl
@[simp] theorem State.modPort_audit : (s.modPort p f).audit = s.audit := rfl
@[simp] theorem State.modPort_trust : (s.modPort p f).trust = s.trust := rfl
@[simp] theorem State.modPort_time : (s.modPort p f).time = s.time := rfl
@[simp] theorem State.modPort_coll : (s.modPort p f).coll = s.coll := rfl
@[simp] theorem State.modPort_run : (s.modPort p f).run = s.run := rfl
@[simp] theorem State.modPort_cores : (s.modPort p f).cores = s.cores := rfl
@[simp] theorem State.modPort_work : (s.modPort p f).work = s.work := rfl
@[simp] theorem State.modPort_mem : (s.modPort p f).mem = s.mem := rfl
@[simp] theorem State.modPort_pages : (s.modPort p f).pages = s.pages := rfl
@[simp] theorem State.modPort_regions : (s.modPort p f).regions = s.regions := rfl
@[simp] theorem State.modPort_mfe : (s.modPort p f).mfe = s.mfe := rfl
@[simp] theorem State.modPort_video : (s.modPort p f).video = s.video := rfl
end modPort

section setTransfer
variable (k : Nat) (x : Option Transfer)
@[simp] theorem State.setTransfer_pending : (s.setTransfer k x).pending = s.pending := rfl
@[simp] theorem State.setTransfer_now : (s.setTransfer k x).now = s.now := rfl
@[simp] theorem State.setTransfer_freeCtr : (s.setTransfer k x).freeCtr = s.freeCtr := rfl
@[simp] theorem State.setTransfer_dict : (s.setTransfer k x).dict = s.dict := rfl
@[simp] theorem State.setTransfer_octs : (s.setTransfer k x).octs = s.octs := rfl
@[simp] theorem State.setTransfer_ctl : (s.setTransfer k x).ctl = s.ctl := rfl
@[simp] theorem State.setTransfer_power : (s.setTransfer k x).power = s.power := rfl
@[simp] theorem State.setTransfer_ev : (s.setTransfer k x).ev = s.ev := rfl
@[simp] theorem State.setTransfer_fdp : (s.setTransfer k x).fdp = s.fdp := rfl
@[simp] theorem State.setTransfer_audit : (s.setTransfer k x).audit = s.audit := rfl
@[simp] theorem State.setTransfer_trust : (s.setTransfer k x).trust = s.trust := rfl
@[simp] theorem State.setTransfer_time : (s.setTransfer k x).time = s.time := rfl
@[simp] theorem State.setTransfer_coll : (s.setTransfer k x).coll = s.coll := rfl
@[simp] theorem State.setTransfer_run : (s.setTransfer k x).run = s.run := rfl
@[simp] theorem State.setTransfer_cores : (s.setTransfer k x).cores = s.cores := rfl
@[simp] theorem State.setTransfer_work : (s.setTransfer k x).work = s.work := rfl
@[simp] theorem State.setTransfer_mem : (s.setTransfer k x).mem = s.mem := rfl
@[simp] theorem State.setTransfer_pages : (s.setTransfer k x).pages = s.pages := rfl
@[simp] theorem State.setTransfer_regions : (s.setTransfer k x).regions = s.regions := rfl
@[simp] theorem State.setTransfer_mfe : (s.setTransfer k x).mfe = s.mfe := rfl
@[simp] theorem State.setTransfer_video : (s.setTransfer k x).video = s.video := rfl
end setTransfer

section setTimePort
variable (p : Nat) (x : TimePort)
@[simp] theorem State.setTimePort_pending : (s.setTimePort p x).pending = s.pending := rfl
@[simp] theorem State.setTimePort_now : (s.setTimePort p x).now = s.now := rfl
@[simp] theorem State.setTimePort_freeCtr : (s.setTimePort p x).freeCtr = s.freeCtr := rfl
@[simp] theorem State.setTimePort_dict : (s.setTimePort p x).dict = s.dict := rfl
@[simp] theorem State.setTimePort_octs : (s.setTimePort p x).octs = s.octs := rfl
@[simp] theorem State.setTimePort_ctl : (s.setTimePort p x).ctl = s.ctl := rfl
@[simp] theorem State.setTimePort_power : (s.setTimePort p x).power = s.power := rfl
@[simp] theorem State.setTimePort_ev : (s.setTimePort p x).ev = s.ev := rfl
@[simp] theorem State.setTimePort_fdp : (s.setTimePort p x).fdp = s.fdp := rfl
@[simp] theorem State.setTimePort_audit : (s.setTimePort p x).audit = s.audit := rfl
@[simp] theorem State.setTimePort_trust : (s.setTimePort p x).trust = s.trust := rfl
@[simp] theorem State.setTimePort_links : (s.setTimePort p x).links = s.links := rfl
@[simp] theorem State.setTimePort_coll : (s.setTimePort p x).coll = s.coll := rfl
@[simp] theorem State.setTimePort_run : (s.setTimePort p x).run = s.run := rfl
@[simp] theorem State.setTimePort_cores : (s.setTimePort p x).cores = s.cores := rfl
@[simp] theorem State.setTimePort_work : (s.setTimePort p x).work = s.work := rfl
@[simp] theorem State.setTimePort_mem : (s.setTimePort p x).mem = s.mem := rfl
@[simp] theorem State.setTimePort_pages : (s.setTimePort p x).pages = s.pages := rfl
@[simp] theorem State.setTimePort_regions : (s.setTimePort p x).regions = s.regions := rfl
@[simp] theorem State.setTimePort_mfe : (s.setTimePort p x).mfe = s.mfe := rfl
@[simp] theorem State.setTimePort_video : (s.setTimePort p x).video = s.video := rfl
end setTimePort

section setCsend
variable (i : Nat) (x : SendS)
@[simp] theorem State.setCsend_pending : (s.setCsend i x).pending = s.pending := rfl
@[simp] theorem State.setCsend_now : (s.setCsend i x).now = s.now := rfl
@[simp] theorem State.setCsend_freeCtr : (s.setCsend i x).freeCtr = s.freeCtr := rfl
@[simp] theorem State.setCsend_dict : (s.setCsend i x).dict = s.dict := rfl
@[simp] theorem State.setCsend_octs : (s.setCsend i x).octs = s.octs := rfl
@[simp] theorem State.setCsend_ctl : (s.setCsend i x).ctl = s.ctl := rfl
@[simp] theorem State.setCsend_power : (s.setCsend i x).power = s.power := rfl
@[simp] theorem State.setCsend_ev : (s.setCsend i x).ev = s.ev := rfl
@[simp] theorem State.setCsend_fdp : (s.setCsend i x).fdp = s.fdp := rfl
@[simp] theorem State.setCsend_audit : (s.setCsend i x).audit = s.audit := rfl
@[simp] theorem State.setCsend_trust : (s.setCsend i x).trust = s.trust := rfl
@[simp] theorem State.setCsend_time : (s.setCsend i x).time = s.time := rfl
@[simp] theorem State.setCsend_links : (s.setCsend i x).links = s.links := rfl
@[simp] theorem State.setCsend_run : (s.setCsend i x).run = s.run := rfl
@[simp] theorem State.setCsend_cores : (s.setCsend i x).cores = s.cores := rfl
@[simp] theorem State.setCsend_work : (s.setCsend i x).work = s.work := rfl
@[simp] theorem State.setCsend_mem : (s.setCsend i x).mem = s.mem := rfl
@[simp] theorem State.setCsend_pages : (s.setCsend i x).pages = s.pages := rfl
@[simp] theorem State.setCsend_regions : (s.setCsend i x).regions = s.regions := rfl
@[simp] theorem State.setCsend_mfe : (s.setCsend i x).mfe = s.mfe := rfl
@[simp] theorem State.setCsend_video : (s.setCsend i x).video = s.video := rfl
end setCsend

section setCrecv
variable (i : Nat) (x : RecvS)
@[simp] theorem State.setCrecv_pending : (s.setCrecv i x).pending = s.pending := rfl
@[simp] theorem State.setCrecv_now : (s.setCrecv i x).now = s.now := rfl
@[simp] theorem State.setCrecv_freeCtr : (s.setCrecv i x).freeCtr = s.freeCtr := rfl
@[simp] theorem State.setCrecv_dict : (s.setCrecv i x).dict = s.dict := rfl
@[simp] theorem State.setCrecv_octs : (s.setCrecv i x).octs = s.octs := rfl
@[simp] theorem State.setCrecv_ctl : (s.setCrecv i x).ctl = s.ctl := rfl
@[simp] theorem State.setCrecv_power : (s.setCrecv i x).power = s.power := rfl
@[simp] theorem State.setCrecv_ev : (s.setCrecv i x).ev = s.ev := rfl
@[simp] theorem State.setCrecv_fdp : (s.setCrecv i x).fdp = s.fdp := rfl
@[simp] theorem State.setCrecv_audit : (s.setCrecv i x).audit = s.audit := rfl
@[simp] theorem State.setCrecv_trust : (s.setCrecv i x).trust = s.trust := rfl
@[simp] theorem State.setCrecv_time : (s.setCrecv i x).time = s.time := rfl
@[simp] theorem State.setCrecv_links : (s.setCrecv i x).links = s.links := rfl
@[simp] theorem State.setCrecv_run : (s.setCrecv i x).run = s.run := rfl
@[simp] theorem State.setCrecv_cores : (s.setCrecv i x).cores = s.cores := rfl
@[simp] theorem State.setCrecv_work : (s.setCrecv i x).work = s.work := rfl
@[simp] theorem State.setCrecv_mem : (s.setCrecv i x).mem = s.mem := rfl
@[simp] theorem State.setCrecv_pages : (s.setCrecv i x).pages = s.pages := rfl
@[simp] theorem State.setCrecv_regions : (s.setCrecv i x).regions = s.regions := rfl
@[simp] theorem State.setCrecv_mfe : (s.setCrecv i x).mfe = s.mfe := rfl
@[simp] theorem State.setCrecv_video : (s.setCrecv i x).video = s.video := rfl
end setCrecv

section setCgroup
variable (i : Nat) (x : GroupS)
@[simp] theorem State.setCgroup_pending : (s.setCgroup i x).pending = s.pending := rfl
@[simp] theorem State.setCgroup_now : (s.setCgroup i x).now = s.now := rfl
@[simp] theorem State.setCgroup_freeCtr : (s.setCgroup i x).freeCtr = s.freeCtr := rfl
@[simp] theorem State.setCgroup_dict : (s.setCgroup i x).dict = s.dict := rfl
@[simp] theorem State.setCgroup_octs : (s.setCgroup i x).octs = s.octs := rfl
@[simp] theorem State.setCgroup_ctl : (s.setCgroup i x).ctl = s.ctl := rfl
@[simp] theorem State.setCgroup_power : (s.setCgroup i x).power = s.power := rfl
@[simp] theorem State.setCgroup_ev : (s.setCgroup i x).ev = s.ev := rfl
@[simp] theorem State.setCgroup_fdp : (s.setCgroup i x).fdp = s.fdp := rfl
@[simp] theorem State.setCgroup_audit : (s.setCgroup i x).audit = s.audit := rfl
@[simp] theorem State.setCgroup_trust : (s.setCgroup i x).trust = s.trust := rfl
@[simp] theorem State.setCgroup_time : (s.setCgroup i x).time = s.time := rfl
@[simp] theorem State.setCgroup_links : (s.setCgroup i x).links = s.links := rfl
@[simp] theorem State.setCgroup_run : (s.setCgroup i x).run = s.run := rfl
@[simp] theorem State.setCgroup_cores : (s.setCgroup i x).cores = s.cores := rfl
@[simp] theorem State.setCgroup_work : (s.setCgroup i x).work = s.work := rfl
@[simp] theorem State.setCgroup_mem : (s.setCgroup i x).mem = s.mem := rfl
@[simp] theorem State.setCgroup_pages : (s.setCgroup i x).pages = s.pages := rfl
@[simp] theorem State.setCgroup_regions : (s.setCgroup i x).regions = s.regions := rfl
@[simp] theorem State.setCgroup_mfe : (s.setCgroup i x).mfe = s.mfe := rfl
@[simp] theorem State.setCgroup_video : (s.setCgroup i x).video = s.video := rfl
end setCgroup

section setWc
variable (k : Nat) (w : WorkC)
@[simp] theorem State.setWc_pending : (s.setWc k w).pending = s.pending := rfl
@[simp] theorem State.setWc_now : (s.setWc k w).now = s.now := rfl
@[simp] theorem State.setWc_freeCtr : (s.setWc k w).freeCtr = s.freeCtr := rfl
@[simp] theorem State.setWc_dict : (s.setWc k w).dict = s.dict := rfl
@[simp] theorem State.setWc_octs : (s.setWc k w).octs = s.octs := rfl
@[simp] theorem State.setWc_ctl : (s.setWc k w).ctl = s.ctl := rfl
@[simp] theorem State.setWc_power : (s.setWc k w).power = s.power := rfl
@[simp] theorem State.setWc_ev : (s.setWc k w).ev = s.ev := rfl
@[simp] theorem State.setWc_fdp : (s.setWc k w).fdp = s.fdp := rfl
@[simp] theorem State.setWc_audit : (s.setWc k w).audit = s.audit := rfl
@[simp] theorem State.setWc_trust : (s.setWc k w).trust = s.trust := rfl
@[simp] theorem State.setWc_time : (s.setWc k w).time = s.time := rfl
@[simp] theorem State.setWc_links : (s.setWc k w).links = s.links := rfl
@[simp] theorem State.setWc_coll : (s.setWc k w).coll = s.coll := rfl
@[simp] theorem State.setWc_run : (s.setWc k w).run = s.run := rfl
@[simp] theorem State.setWc_cores : (s.setWc k w).cores = s.cores := rfl
@[simp] theorem State.setWc_mem : (s.setWc k w).mem = s.mem := rfl
@[simp] theorem State.setWc_pages : (s.setWc k w).pages = s.pages := rfl
@[simp] theorem State.setWc_regions : (s.setWc k w).regions = s.regions := rfl
@[simp] theorem State.setWc_mfe : (s.setWc k w).mfe = s.mfe := rfl
@[simp] theorem State.setWc_video : (s.setWc k w).video = s.video := rfl
end setWc

section setPageSlot
variable (k : Nat) (x : PageSlot)
@[simp] theorem State.setPageSlot_pending : (s.setPageSlot k x).pending = s.pending := rfl
@[simp] theorem State.setPageSlot_now : (s.setPageSlot k x).now = s.now := rfl
@[simp] theorem State.setPageSlot_freeCtr : (s.setPageSlot k x).freeCtr = s.freeCtr := rfl
@[simp] theorem State.setPageSlot_dict : (s.setPageSlot k x).dict = s.dict := rfl
@[simp] theorem State.setPageSlot_octs : (s.setPageSlot k x).octs = s.octs := rfl
@[simp] theorem State.setPageSlot_ctl : (s.setPageSlot k x).ctl = s.ctl := rfl
@[simp] theorem State.setPageSlot_power : (s.setPageSlot k x).power = s.power := rfl
@[simp] theorem State.setPageSlot_ev : (s.setPageSlot k x).ev = s.ev := rfl
@[simp] theorem State.setPageSlot_fdp : (s.setPageSlot k x).fdp = s.fdp := rfl
@[simp] theorem State.setPageSlot_audit : (s.setPageSlot k x).audit = s.audit := rfl
@[simp] theorem State.setPageSlot_trust : (s.setPageSlot k x).trust = s.trust := rfl
@[simp] theorem State.setPageSlot_time : (s.setPageSlot k x).time = s.time := rfl
@[simp] theorem State.setPageSlot_links : (s.setPageSlot k x).links = s.links := rfl
@[simp] theorem State.setPageSlot_coll : (s.setPageSlot k x).coll = s.coll := rfl
@[simp] theorem State.setPageSlot_run : (s.setPageSlot k x).run = s.run := rfl
@[simp] theorem State.setPageSlot_cores : (s.setPageSlot k x).cores = s.cores := rfl
@[simp] theorem State.setPageSlot_work : (s.setPageSlot k x).work = s.work := rfl
@[simp] theorem State.setPageSlot_mem : (s.setPageSlot k x).mem = s.mem := rfl
@[simp] theorem State.setPageSlot_regions : (s.setPageSlot k x).regions = s.regions := rfl
@[simp] theorem State.setPageSlot_mfe : (s.setPageSlot k x).mfe = s.mfe := rfl
@[simp] theorem State.setPageSlot_video : (s.setPageSlot k x).video = s.video := rfl
end setPageSlot

section setRegion
variable (die : Nat) (l : List RegionCmd)
@[simp] theorem State.setRegion_pending : (s.setRegion die l).pending = s.pending := rfl
@[simp] theorem State.setRegion_now : (s.setRegion die l).now = s.now := rfl
@[simp] theorem State.setRegion_freeCtr : (s.setRegion die l).freeCtr = s.freeCtr := rfl
@[simp] theorem State.setRegion_dict : (s.setRegion die l).dict = s.dict := rfl
@[simp] theorem State.setRegion_octs : (s.setRegion die l).octs = s.octs := rfl
@[simp] theorem State.setRegion_ctl : (s.setRegion die l).ctl = s.ctl := rfl
@[simp] theorem State.setRegion_power : (s.setRegion die l).power = s.power := rfl
@[simp] theorem State.setRegion_ev : (s.setRegion die l).ev = s.ev := rfl
@[simp] theorem State.setRegion_fdp : (s.setRegion die l).fdp = s.fdp := rfl
@[simp] theorem State.setRegion_audit : (s.setRegion die l).audit = s.audit := rfl
@[simp] theorem State.setRegion_trust : (s.setRegion die l).trust = s.trust := rfl
@[simp] theorem State.setRegion_time : (s.setRegion die l).time = s.time := rfl
@[simp] theorem State.setRegion_links : (s.setRegion die l).links = s.links := rfl
@[simp] theorem State.setRegion_coll : (s.setRegion die l).coll = s.coll := rfl
@[simp] theorem State.setRegion_run : (s.setRegion die l).run = s.run := rfl
@[simp] theorem State.setRegion_cores : (s.setRegion die l).cores = s.cores := rfl
@[simp] theorem State.setRegion_work : (s.setRegion die l).work = s.work := rfl
@[simp] theorem State.setRegion_mem : (s.setRegion die l).mem = s.mem := rfl
@[simp] theorem State.setRegion_pages : (s.setRegion die l).pages = s.pages := rfl
@[simp] theorem State.setRegion_mfe : (s.setRegion die l).mfe = s.mfe := rfl
@[simp] theorem State.setRegion_video : (s.setRegion die l).video = s.video := rfl
end setRegion

section setStream
variable (k : Nat) (x : Stream)
@[simp] theorem State.setStream_pending : (s.setStream k x).pending = s.pending := rfl
@[simp] theorem State.setStream_now : (s.setStream k x).now = s.now := rfl
@[simp] theorem State.setStream_freeCtr : (s.setStream k x).freeCtr = s.freeCtr := rfl
@[simp] theorem State.setStream_dict : (s.setStream k x).dict = s.dict := rfl
@[simp] theorem State.setStream_octs : (s.setStream k x).octs = s.octs := rfl
@[simp] theorem State.setStream_ctl : (s.setStream k x).ctl = s.ctl := rfl
@[simp] theorem State.setStream_power : (s.setStream k x).power = s.power := rfl
@[simp] theorem State.setStream_ev : (s.setStream k x).ev = s.ev := rfl
@[simp] theorem State.setStream_fdp : (s.setStream k x).fdp = s.fdp := rfl
@[simp] theorem State.setStream_audit : (s.setStream k x).audit = s.audit := rfl
@[simp] theorem State.setStream_trust : (s.setStream k x).trust = s.trust := rfl
@[simp] theorem State.setStream_time : (s.setStream k x).time = s.time := rfl
@[simp] theorem State.setStream_links : (s.setStream k x).links = s.links := rfl
@[simp] theorem State.setStream_coll : (s.setStream k x).coll = s.coll := rfl
@[simp] theorem State.setStream_run : (s.setStream k x).run = s.run := rfl
@[simp] theorem State.setStream_cores : (s.setStream k x).cores = s.cores := rfl
@[simp] theorem State.setStream_work : (s.setStream k x).work = s.work := rfl
@[simp] theorem State.setStream_mem : (s.setStream k x).mem = s.mem := rfl
@[simp] theorem State.setStream_pages : (s.setStream k x).pages = s.pages := rfl
@[simp] theorem State.setStream_regions : (s.setStream k x).regions = s.regions := rfl
@[simp] theorem State.setStream_video : (s.setStream k x).video = s.video := rfl
end setStream

section modStream
variable (k : Nat) (f : Stream → Stream)
@[simp] theorem State.modStream_pending : (s.modStream k f).pending = s.pending := rfl
@[simp] theorem State.modStream_now : (s.modStream k f).now = s.now := rfl
@[simp] theorem State.modStream_freeCtr : (s.modStream k f).freeCtr = s.freeCtr := rfl
@[simp] theorem State.modStream_dict : (s.modStream k f).dict = s.dict := rfl
@[simp] theorem State.modStream_octs : (s.modStream k f).octs = s.octs := rfl
@[simp] theorem State.modStream_ctl : (s.modStream k f).ctl = s.ctl := rfl
@[simp] theorem State.modStream_power : (s.modStream k f).power = s.power := rfl
@[simp] theorem State.modStream_ev : (s.modStream k f).ev = s.ev := rfl
@[simp] theorem State.modStream_fdp : (s.modStream k f).fdp = s.fdp := rfl
@[simp] theorem State.modStream_audit : (s.modStream k f).audit = s.audit := rfl
@[simp] theorem State.modStream_trust : (s.modStream k f).trust = s.trust := rfl
@[simp] theorem State.modStream_time : (s.modStream k f).time = s.time := rfl
@[simp] theorem State.modStream_links : (s.modStream k f).links = s.links := rfl
@[simp] theorem State.modStream_coll : (s.modStream k f).coll = s.coll := rfl
@[simp] theorem State.modStream_run : (s.modStream k f).run = s.run := rfl
@[simp] theorem State.modStream_cores : (s.modStream k f).cores = s.cores := rfl
@[simp] theorem State.modStream_work : (s.modStream k f).work = s.work := rfl
@[simp] theorem State.modStream_mem : (s.modStream k f).mem = s.mem := rfl
@[simp] theorem State.modStream_pages : (s.modStream k f).pages = s.pages := rfl
@[simp] theorem State.modStream_regions : (s.modStream k f).regions = s.regions := rfl
@[simp] theorem State.modStream_video : (s.modStream k f).video = s.video := rfl
end modStream

section setPipe
variable (p : Nat) (v : Nat × Nat × Nat)
@[simp] theorem State.setPipe_pending : (s.setPipe p v).pending = s.pending := rfl
@[simp] theorem State.setPipe_now : (s.setPipe p v).now = s.now := rfl
@[simp] theorem State.setPipe_freeCtr : (s.setPipe p v).freeCtr = s.freeCtr := rfl
@[simp] theorem State.setPipe_dict : (s.setPipe p v).dict = s.dict := rfl
@[simp] theorem State.setPipe_octs : (s.setPipe p v).octs = s.octs := rfl
@[simp] theorem State.setPipe_ctl : (s.setPipe p v).ctl = s.ctl := rfl
@[simp] theorem State.setPipe_power : (s.setPipe p v).power = s.power := rfl
@[simp] theorem State.setPipe_ev : (s.setPipe p v).ev = s.ev := rfl
@[simp] theorem State.setPipe_fdp : (s.setPipe p v).fdp = s.fdp := rfl
@[simp] theorem State.setPipe_audit : (s.setPipe p v).audit = s.audit := rfl
@[simp] theorem State.setPipe_trust : (s.setPipe p v).trust = s.trust := rfl
@[simp] theorem State.setPipe_time : (s.setPipe p v).time = s.time := rfl
@[simp] theorem State.setPipe_links : (s.setPipe p v).links = s.links := rfl
@[simp] theorem State.setPipe_coll : (s.setPipe p v).coll = s.coll := rfl
@[simp] theorem State.setPipe_run : (s.setPipe p v).run = s.run := rfl
@[simp] theorem State.setPipe_cores : (s.setPipe p v).cores = s.cores := rfl
@[simp] theorem State.setPipe_work : (s.setPipe p v).work = s.work := rfl
@[simp] theorem State.setPipe_mem : (s.setPipe p v).mem = s.mem := rfl
@[simp] theorem State.setPipe_pages : (s.setPipe p v).pages = s.pages := rfl
@[simp] theorem State.setPipe_regions : (s.setPipe p v).regions = s.regions := rfl
@[simp] theorem State.setPipe_mfe : (s.setPipe p v).mfe = s.mfe := rfl
end setPipe

section setCtx
variable (c : Nat) (x : Option EncCtx)
@[simp] theorem State.setCtx_pending : (s.setCtx c x).pending = s.pending := rfl
@[simp] theorem State.setCtx_now : (s.setCtx c x).now = s.now := rfl
@[simp] theorem State.setCtx_freeCtr : (s.setCtx c x).freeCtr = s.freeCtr := rfl
@[simp] theorem State.setCtx_dict : (s.setCtx c x).dict = s.dict := rfl
@[simp] theorem State.setCtx_octs : (s.setCtx c x).octs = s.octs := rfl
@[simp] theorem State.setCtx_ctl : (s.setCtx c x).ctl = s.ctl := rfl
@[simp] theorem State.setCtx_power : (s.setCtx c x).power = s.power := rfl
@[simp] theorem State.setCtx_ev : (s.setCtx c x).ev = s.ev := rfl
@[simp] theorem State.setCtx_fdp : (s.setCtx c x).fdp = s.fdp := rfl
@[simp] theorem State.setCtx_audit : (s.setCtx c x).audit = s.audit := rfl
@[simp] theorem State.setCtx_trust : (s.setCtx c x).trust = s.trust := rfl
@[simp] theorem State.setCtx_time : (s.setCtx c x).time = s.time := rfl
@[simp] theorem State.setCtx_links : (s.setCtx c x).links = s.links := rfl
@[simp] theorem State.setCtx_coll : (s.setCtx c x).coll = s.coll := rfl
@[simp] theorem State.setCtx_run : (s.setCtx c x).run = s.run := rfl
@[simp] theorem State.setCtx_cores : (s.setCtx c x).cores = s.cores := rfl
@[simp] theorem State.setCtx_work : (s.setCtx c x).work = s.work := rfl
@[simp] theorem State.setCtx_mem : (s.setCtx c x).mem = s.mem := rfl
@[simp] theorem State.setCtx_pages : (s.setCtx c x).pages = s.pages := rfl
@[simp] theorem State.setCtx_regions : (s.setCtx c x).regions = s.regions := rfl
@[simp] theorem State.setCtx_mfe : (s.setCtx c x).mfe = s.mfe := rfl
end setCtx

section setSession
variable (slot : Nat) (x : Option Session)
@[simp] theorem State.setSession_pending : (s.setSession slot x).pending = s.pending := rfl
@[simp] theorem State.setSession_now : (s.setSession slot x).now = s.now := rfl
@[simp] theorem State.setSession_freeCtr : (s.setSession slot x).freeCtr = s.freeCtr := rfl
@[simp] theorem State.setSession_dict : (s.setSession slot x).dict = s.dict := rfl
@[simp] theorem State.setSession_octs : (s.setSession slot x).octs = s.octs := rfl
@[simp] theorem State.setSession_ctl : (s.setSession slot x).ctl = s.ctl := rfl
@[simp] theorem State.setSession_power : (s.setSession slot x).power = s.power := rfl
@[simp] theorem State.setSession_ev : (s.setSession slot x).ev = s.ev := rfl
@[simp] theorem State.setSession_audit : (s.setSession slot x).audit = s.audit := rfl
@[simp] theorem State.setSession_trust : (s.setSession slot x).trust = s.trust := rfl
@[simp] theorem State.setSession_time : (s.setSession slot x).time = s.time := rfl
@[simp] theorem State.setSession_links : (s.setSession slot x).links = s.links := rfl
@[simp] theorem State.setSession_coll : (s.setSession slot x).coll = s.coll := rfl
@[simp] theorem State.setSession_run : (s.setSession slot x).run = s.run := rfl
@[simp] theorem State.setSession_cores : (s.setSession slot x).cores = s.cores := rfl
@[simp] theorem State.setSession_work : (s.setSession slot x).work = s.work := rfl
@[simp] theorem State.setSession_mem : (s.setSession slot x).mem = s.mem := rfl
@[simp] theorem State.setSession_pages : (s.setSession slot x).pages = s.pages := rfl
@[simp] theorem State.setSession_regions : (s.setSession slot x).regions = s.regions := rfl
@[simp] theorem State.setSession_mfe : (s.setSession slot x).mfe = s.mfe := rfl
@[simp] theorem State.setSession_video : (s.setSession slot x).video = s.video := rfl
end setSession

section setCache
variable (l : List CacheLine)
@[simp] theorem State.setCache_pending : (s.setCache l).pending = s.pending := rfl
@[simp] theorem State.setCache_now : (s.setCache l).now = s.now := rfl
@[simp] theorem State.setCache_freeCtr : (s.setCache l).freeCtr = s.freeCtr := rfl
@[simp] theorem State.setCache_dict : (s.setCache l).dict = s.dict := rfl
@[simp] theorem State.setCache_octs : (s.setCache l).octs = s.octs := rfl
@[simp] theorem State.setCache_ctl : (s.setCache l).ctl = s.ctl := rfl
@[simp] theorem State.setCache_power : (s.setCache l).power = s.power := rfl
@[simp] theorem State.setCache_ev : (s.setCache l).ev = s.ev := rfl
@[simp] theorem State.setCache_fdp : (s.setCache l).fdp = s.fdp := rfl
@[simp] theorem State.setCache_audit : (s.setCache l).audit = s.audit := rfl
@[simp] theorem State.setCache_trust : (s.setCache l).trust = s.trust := rfl
@[simp] theorem State.setCache_time : (s.setCache l).time = s.time := rfl
@[simp] theorem State.setCache_links : (s.setCache l).links = s.links := rfl
@[simp] theorem State.setCache_coll : (s.setCache l).coll = s.coll := rfl
@[simp] theorem State.setCache_run : (s.setCache l).run = s.run := rfl
@[simp] theorem State.setCache_cores : (s.setCache l).cores = s.cores := rfl
@[simp] theorem State.setCache_work : (s.setCache l).work = s.work := rfl
@[simp] theorem State.setCache_pages : (s.setCache l).pages = s.pages := rfl
@[simp] theorem State.setCache_regions : (s.setCache l).regions = s.regions := rfl
@[simp] theorem State.setCache_mfe : (s.setCache l).mfe = s.mfe := rfl
@[simp] theorem State.setCache_video : (s.setCache l).video = s.video := rfl
end setCache

section setUnit
variable (u : Nat) (r : Option RawCode)
@[simp] theorem State.setUnit_pending : (s.setUnit u r).pending = s.pending := rfl
@[simp] theorem State.setUnit_now : (s.setUnit u r).now = s.now := rfl
@[simp] theorem State.setUnit_freeCtr : (s.setUnit u r).freeCtr = s.freeCtr := rfl
@[simp] theorem State.setUnit_dict : (s.setUnit u r).dict = s.dict := rfl
@[simp] theorem State.setUnit_octs : (s.setUnit u r).octs = s.octs := rfl
@[simp] theorem State.setUnit_ctl : (s.setUnit u r).ctl = s.ctl := rfl
@[simp] theorem State.setUnit_power : (s.setUnit u r).power = s.power := rfl
@[simp] theorem State.setUnit_ev : (s.setUnit u r).ev = s.ev := rfl
@[simp] theorem State.setUnit_fdp : (s.setUnit u r).fdp = s.fdp := rfl
@[simp] theorem State.setUnit_audit : (s.setUnit u r).audit = s.audit := rfl
@[simp] theorem State.setUnit_trust : (s.setUnit u r).trust = s.trust := rfl
@[simp] theorem State.setUnit_time : (s.setUnit u r).time = s.time := rfl
@[simp] theorem State.setUnit_links : (s.setUnit u r).links = s.links := rfl
@[simp] theorem State.setUnit_coll : (s.setUnit u r).coll = s.coll := rfl
@[simp] theorem State.setUnit_run : (s.setUnit u r).run = s.run := rfl
@[simp] theorem State.setUnit_cores : (s.setUnit u r).cores = s.cores := rfl
@[simp] theorem State.setUnit_work : (s.setUnit u r).work = s.work := rfl
@[simp] theorem State.setUnit_pages : (s.setUnit u r).pages = s.pages := rfl
@[simp] theorem State.setUnit_regions : (s.setUnit u r).regions = s.regions := rfl
@[simp] theorem State.setUnit_mfe : (s.setUnit u r).mfe = s.mfe := rfl
@[simp] theorem State.setUnit_video : (s.setUnit u r).video = s.video := rfl
end setUnit

section setSramWord
variable (k : Nat) (r : Option RawCode)
@[simp] theorem State.setSramWord_pending : (s.setSramWord k r).pending = s.pending := rfl
@[simp] theorem State.setSramWord_now : (s.setSramWord k r).now = s.now := rfl
@[simp] theorem State.setSramWord_freeCtr : (s.setSramWord k r).freeCtr = s.freeCtr := rfl
@[simp] theorem State.setSramWord_dict : (s.setSramWord k r).dict = s.dict := rfl
@[simp] theorem State.setSramWord_octs : (s.setSramWord k r).octs = s.octs := rfl
@[simp] theorem State.setSramWord_ctl : (s.setSramWord k r).ctl = s.ctl := rfl
@[simp] theorem State.setSramWord_power : (s.setSramWord k r).power = s.power := rfl
@[simp] theorem State.setSramWord_ev : (s.setSramWord k r).ev = s.ev := rfl
@[simp] theorem State.setSramWord_fdp : (s.setSramWord k r).fdp = s.fdp := rfl
@[simp] theorem State.setSramWord_audit : (s.setSramWord k r).audit = s.audit := rfl
@[simp] theorem State.setSramWord_trust : (s.setSramWord k r).trust = s.trust := rfl
@[simp] theorem State.setSramWord_time : (s.setSramWord k r).time = s.time := rfl
@[simp] theorem State.setSramWord_links : (s.setSramWord k r).links = s.links := rfl
@[simp] theorem State.setSramWord_coll : (s.setSramWord k r).coll = s.coll := rfl
@[simp] theorem State.setSramWord_run : (s.setSramWord k r).run = s.run := rfl
@[simp] theorem State.setSramWord_cores : (s.setSramWord k r).cores = s.cores := rfl
@[simp] theorem State.setSramWord_work : (s.setSramWord k r).work = s.work := rfl
@[simp] theorem State.setSramWord_pages : (s.setSramWord k r).pages = s.pages := rfl
@[simp] theorem State.setSramWord_regions : (s.setSramWord k r).regions = s.regions := rfl
@[simp] theorem State.setSramWord_mfe : (s.setSramWord k r).mfe = s.mfe := rfl
@[simp] theorem State.setSramWord_video : (s.setSramWord k r).video = s.video := rfl
end setSramWord

section hput
variable (a : Nat) (b : List Byte)
@[simp] theorem State.hput_pending : (hput s a b).pending = s.pending := rfl
@[simp] theorem State.hput_now : (hput s a b).now = s.now := rfl
@[simp] theorem State.hput_freeCtr : (hput s a b).freeCtr = s.freeCtr := rfl
@[simp] theorem State.hput_dict : (hput s a b).dict = s.dict := rfl
@[simp] theorem State.hput_octs : (hput s a b).octs = s.octs := rfl
@[simp] theorem State.hput_ctl : (hput s a b).ctl = s.ctl := rfl
@[simp] theorem State.hput_power : (hput s a b).power = s.power := rfl
@[simp] theorem State.hput_ev : (hput s a b).ev = s.ev := rfl
@[simp] theorem State.hput_fdp : (hput s a b).fdp = s.fdp := rfl
@[simp] theorem State.hput_audit : (hput s a b).audit = s.audit := rfl
@[simp] theorem State.hput_trust : (hput s a b).trust = s.trust := rfl
@[simp] theorem State.hput_time : (hput s a b).time = s.time := rfl
@[simp] theorem State.hput_links : (hput s a b).links = s.links := rfl
@[simp] theorem State.hput_run : (hput s a b).run = s.run := rfl
@[simp] theorem State.hput_cores : (hput s a b).cores = s.cores := rfl
@[simp] theorem State.hput_work : (hput s a b).work = s.work := rfl
@[simp] theorem State.hput_pages : (hput s a b).pages = s.pages := rfl
@[simp] theorem State.hput_regions : (hput s a b).regions = s.regions := rfl
@[simp] theorem State.hput_mfe : (hput s a b).mfe = s.mfe := rfl
@[simp] theorem State.hput_video : (hput s a b).video = s.video := rfl
end hput

/-! ### Reading back -/

theorem ekey_inj {i j i' j' : Nat} (h : j < 256) (h' : j' < 256) : ekey i j = ekey i' j' ↔ i = i' ∧ j = j' := by
  unfold ekey; omega

/-- A numeric entry reads as what was last written, every other entry as before. -/
theorem State.ent_setEnt (i j v i' j' : Nat) :
    (s.setEnt i j v).ent i' j' = if ekey i' j' = ekey i j then (if v = entryDefault i j then entryDefault i' j' else v) else s.ent i' j' := by
  unfold State.ent State.setEnt setDict
  simp only [sget_sset]
  by_cases h : ekey i' j' = ekey i j
  · simp only [h, if_true]
    by_cases hv : v = entryDefault i j <;> simp [hv]
  · simp only [h, if_false]

@[simp] theorem State.ent_setEnt_self (i j v : Nat) : (s.setEnt i j v).ent i j = v := by
  rw [s.ent_setEnt i j v i j]
  by_cases h : v = entryDefault i j <;> simp [h]

theorem State.ent_setEnt_ne (i j v i' j' : Nat) (h : ekey i' j' ≠ ekey i j) : (s.setEnt i j v).ent i' j' = s.ent i' j' := by
  rw [s.ent_setEnt i j v i' j', if_neg h]

@[simp] theorem State.ent_addEnt_self (i j n : Nat) : (s.addEnt i j n).ent i j = (s.ent i j + n) % entryMod i j :=
  s.ent_setEnt_self _ _ _
theorem State.ent_addEnt_ne (i j n i' j' : Nat) (h : ekey i' j' ≠ ekey i j) : (s.addEnt i j n).ent i' j' = s.ent i' j' :=
  s.ent_setEnt_ne i j _ i' j' h

@[simp] theorem State.ent_clearEnt_self (i j : Nat) : (s.clearEnt i j).ent i j = entryDefault i j := by
  simp [State.ent, State.clearEnt]

/-- An entry depends on the dictionary alone. -/
theorem State.ent_of_dict {s t : State} (h : s.dict = t.dict) (i j : Nat) : s.ent i j = t.ent i j := by
  simp only [State.ent, h]
theorem State.oct_of_octs {s t : State} (h : s.octs = t.octs) (i j : Nat) : s.oct i j = t.oct i j := by
  simp only [State.oct, h]

@[simp] theorem State.core_setCore (c : Nat) (x : CoreS) (c' : Nat) : (s.setCore c x).core c' = if c' = c then x else s.core c' := by
  simp [State.core, State.setCore]
@[simp] theorem State.core_modCore (c : Nat) (f : CoreS → CoreS) (c' : Nat) :
    (s.modCore c f).core c' = if c' = c then f (s.core c) else s.core c' := s.core_setCore c _ c'
@[simp] theorem State.port_setPort (p : Nat) (x : PortS) (p' : Nat) : (s.setPort p x).port p' = if p' = p then x else s.port p' := by
  simp [State.port, State.setPort]
@[simp] theorem State.port_modPort (p : Nat) (f : PortS → PortS) (p' : Nat) :
    (s.modPort p f).port p' = if p' = p then f (s.port p) else s.port p' := s.port_setPort p _ p'
@[simp] theorem State.crecv_setCrecv (i : Nat) (x : RecvS) (j : Nat) : (s.setCrecv i x).crecv j = if j = i then x else s.crecv j := by
  simp [State.crecv, State.setCrecv]
@[simp] theorem State.cgroup_setCgroup (i : Nat) (x : GroupS) (j : Nat) : (s.setCgroup i x).cgroup j = if j = i then x else s.cgroup j := by
  simp [State.cgroup, State.setCgroup]

/-! ### Entering a state -/

@[simp] theorem State.enter_dev (d : Dev) : (s.enter d).ctl.dev = d := rfl
@[simp] theorem State.enter_phase (d : Dev) : (s.enter d).ctl.phase = s.ctl.phase := rfl

/-- What `enterEff` does: in TEST the phase moves, elsewhere the device state (R447). -/
theorem State.enterEff_cases (d : Dev) :
    (s.ctl.dev = .test ∧ s.enterEff d = { s with ctl := { s.ctl with phase := d } }) ∨ (s.ctl.dev ≠ .test ∧ s.enterEff d = s.enter d) := by
  unfold State.enterEff
  by_cases h : s.ctl.dev = .test
  · exact .inl ⟨h, if_pos h⟩
  · exact .inr ⟨h, if_neg h⟩

@[simp] theorem State.eff_enterEff (d : Dev) (h : d ≠ .test) : (s.enterEff d).eff = d := by
  rcases s.enterEff_cases d with ⟨h1, h2⟩ | ⟨h1, h2⟩
  · simp [h2, State.eff, h1]
  · simp [h2, State.eff, h]

/-! ### Free values, and a command's time -/

@[simp] theorem drawNat_snd (n : Nat) : (drawNat s n).2 = { s with freeCtr := s.freeCtr + 1 } := rfl
@[simp] theorem drawBytes_snd (n : Nat) : (drawBytes s n).2 = { s with freeCtr := s.freeCtr + n } := rfl
@[simp] theorem drawBytes_length (n : Nat) : (drawBytes s n).1.length = n := by simp [drawBytes]

/-- A command whose time has not passed takes place at its time; a command from the past changes nothing. -/
theorem atTime_of_le {t : FTime} (h : s.now ≤ t) (f : State → Out) : atTime s t f = f { s with now := t } := if_pos h
theorem atTime_of_not_le {t : FTime} (h : ¬ s.now ≤ t) (f : State → Out) : atTime s t f = .next s := if_neg h
theorem atTime_next {t : FTime} {f : State → Out} {u : State} (h : atTime s t f = .next u) :
    (s.now ≤ t ∧ f { s with now := t } = .next u) ∨ (¬ s.now ≤ t ∧ u = s) := by
  unfold atTime at h
  split at h
  · exact .inl ⟨‹_›, h⟩
  · exact .inr ⟨‹_›, by injection h with h; exact h.symm⟩

/-! ### A core's registers -/

@[simp] theorem CoreS.reg_zero (x : CoreS) : x.reg 0 = 0 := rfl
theorem CoreS.reg_setReg (x : CoreS) (r q : Reg) (v : W64) (hl : x.regs.length = 16) :
    (x.setReg r v).reg q = if q = 0 then 0 else if q = r then v else x.reg q := by
  unfold CoreS.reg CoreS.setReg
  by_cases hq : q = 0
  · simp [hq]
  · by_cases hr : q = r
    · subst hr
      simp [hq, List.getD_eq_getElem?_getD, hl]
    · have : r.val ≠ q.val := fun e => hr (Fin.ext e.symm)
      simp [hq, hr, List.getD_eq_getElem?_getD, List.getElem?_set_ne this]

end Sys2Proof.Machine
end

