-- ==== Sys2Proof/Laws/Quiet.lean ====
section
/-!
SUPPORT. What every shared operation leaves alone: one lemma for each says that it touches neither the queue of commands nor the audit log,
and for the operations of the log itself, that the queue stays. `Quiet` names this.
-/
set_option Elab.async false
set_option linter.unusedSimpArgs false
set_option linter.unusedTactic false
set_option linter.unreachableTactic false
namespace Sys2Proof.Machine
open Sys2Proof

/-- An operation that leaves the command queue and the audit log alone. -/
abbrev Quiet (s t : State) : Prop := t.pending = s.pending ∧ t.audit = s.audit
theorem Quiet.trans {s t u : State} (h : Quiet s t) (h' : Quiet t u) : Quiet s u := ⟨h'.1.trans h.1, h'.2.trans h.2⟩
theorem foldl_quiet {α : Type} (f : State → α → State) (h : ∀ s x, Quiet s (f s x)) (l : List α) (s : State) : Quiet s (l.foldl f s) := by
  induction l generalizing s with
  | nil => exact ⟨rfl, rfl⟩
  | cons x l ih => exact (h s x).trans (ih (f s x))
theorem foldl_quiet_snd {α β : Type} (f : β × State → α → β × State) (h : ∀ s x, Quiet s.2 (f s x).2) (l : List α) (s : β × State) : Quiet s.2 (l.foldl f s).2 := by
  induction l generalizing s with
  | nil => exact ⟨rfl, rfl⟩
  | cons x l ih => exact (h s x).trans (ih (f s x))

theorem foldl_quiet_fst {α β : Type} (f : State × β → α → State × β) (h : ∀ s x, Quiet s.1 (f s x).1) (l : List α) (s : State × β) : Quiet s.1 (l.foldl f s).1 := by
  induction l generalizing s with
  | nil => exact ⟨rfl, rfl⟩
  | cons x l ih => exact (h s x).trans (ih (f s x))

theorem ite_pending (c : Prop) [Decidable c] (s t : State) : (if c then s else t).pending = if c then s.pending else t.pending := by split <;> rfl
theorem ite_audit (c : Prop) [Decidable c] (s t : State) : (if c then s else t).audit = if c then s.audit else t.audit := by split <;> rfl

theorem State.setEnt_quiet (s : State) (index : Nat) (sub : Nat) (v : Nat) : (State.setEnt s index sub v).pending = s.pending ∧ (State.setEnt s index sub v).audit = s.audit := by
  simp only [State.setEnt, and_self]
theorem State.addEnt_quiet (s : State) (index : Nat) (sub : Nat) (n : Nat) : (State.addEnt s index sub n).pending = s.pending ∧ (State.addEnt s index sub n).audit = s.audit := by
  simp only [State.addEnt, and_self, State.setEnt_quiet]
theorem State.clearEnt_quiet (s : State) (index : Nat) (sub : Nat) : (State.clearEnt s index sub).pending = s.pending ∧ (State.clearEnt s index sub).audit = s.audit := by
  simp only [State.clearEnt, and_self]
theorem clearEnts_quiet (l : List (Nat × Nat × Nat)) (s : State) : (clearEnts l s).pending = s.pending ∧ (clearEnts l s).audit = s.audit := by
  simp only [clearEnts, and_self]
theorem State.setOct_quiet (s : State) (index : Nat) (sub : Nat) (b : List Byte) : (State.setOct s index sub b).pending = s.pending ∧ (State.setOct s index sub b).audit = s.audit := by
  simp only [State.setOct, and_self]
theorem State.clearOct_quiet (s : State) (index : Nat) (sub : Nat) : (State.clearOct s index sub).pending = s.pending ∧ (State.clearOct s index sub).audit = s.audit := by
  simp only [State.clearOct, Quiet, and_self]
theorem drawNat_quiet (s : State) (n : Nat) : (drawNat s n).2.pending = s.pending ∧ (drawNat s n).2.audit = s.audit := by
  simp only [drawNat, and_self]
theorem drawBytes_quiet (s : State) (n : Nat) : (drawBytes s n).2.pending = s.pending ∧ (drawBytes s n).2.audit = s.audit := by
  simp only [drawBytes, and_self]
theorem State.enter_quiet (s : State) (d : Dev) : (State.enter s d).pending = s.pending ∧ (State.enter s d).audit = s.audit := by
  simp only [State.enter, and_self, State.setEnt_quiet]
theorem State.enterEff_quiet (s : State) (d : Dev) : (State.enterEff s d).pending = s.pending ∧ (State.enterEff s d).audit = s.audit := by
  simp only [State.enterEff, ite_pending, ite_audit, ite_self, and_self, State.enter_quiet]
theorem State.raise_quiet (s : State) (code : Nat) (vs : List (Nat × Nat)) : (State.raise s code vs).pending = s.pending ∧ (State.raise s code vs).audit = s.audit := by
  simp only [State.raise, and_self]
theorem hput_quiet (s : State) (a : Nat) (b : List Byte) : (hput s a b).pending = s.pending ∧ (hput s a b).audit = s.audit := by
  simp only [hput, and_self]
theorem State.setCore_quiet (s : State) (c : Nat) (x : CoreS) : (State.setCore s c x).pending = s.pending ∧ (State.setCore s c x).audit = s.audit := by
  simp only [State.setCore, and_self]
theorem State.modCore_quiet (s : State) (c : Nat) (f : CoreS → CoreS) : (State.modCore s c f).pending = s.pending ∧ (State.modCore s c f).audit = s.audit := by
  simp only [State.modCore, and_self, State.setCore_quiet]
theorem State.setPort_quiet (s : State) (p : Nat) (x : PortS) : (State.setPort s p x).pending = s.pending ∧ (State.setPort s p x).audit = s.audit := by
  simp only [State.setPort, and_self]
theorem State.modPort_quiet (s : State) (p : Nat) (f : PortS → PortS) : (State.modPort s p f).pending = s.pending ∧ (State.modPort s p f).audit = s.audit := by
  simp only [State.modPort, and_self, State.setPort_quiet]
theorem noteCorrected_quiet (s : State) (kind : Nat) (unit : Nat) (addr : Nat) : (noteCorrected s kind unit addr).pending = s.pending ∧ (noteCorrected s kind unit addr).audit = s.audit := by
  simp only [noteCorrected, ite_pending, ite_audit, ite_self, and_self, State.addEnt_quiet, State.raise_quiet]
theorem addCandidate_quiet (s : State) (kind : Nat) (origin : Nat) (unit : Nat) (key : Nat) : (addCandidate s kind origin unit key).pending = s.pending ∧ (addCandidate s kind origin unit key).audit = s.audit := by
  simp only [addCandidate, ite_pending, ite_audit, ite_self, and_self, State.addEnt_quiet, State.setEnt_quiet]
theorem noteBad_quiet (s : State) (kind : Nat) (cause : Nat) (unit : Nat) (addr : Nat) : (noteBad s kind cause unit addr).pending = s.pending ∧ (noteBad s kind cause unit addr).audit = s.audit := by
  simp only [noteBad, ite_pending, ite_audit, ite_self, and_self, State.addEnt_quiet, State.setEnt_quiet, State.raise_quiet]
theorem State.setUnit_quiet (s : State) (u : Nat) (r : Option RawCode) : (State.setUnit s u r).pending = s.pending ∧ (State.setUnit s u r).audit = s.audit := by
  simp only [State.setUnit, Quiet, and_self]
theorem mergeUnit_quiet (a : Nat) (n : Nat) (s : State) (u : Nat × Option RawCode) : (mergeUnit a n s u).pending = s.pending ∧ (mergeUnit a n s u).audit = s.audit := by
  unfold mergeUnit
  repeat' first
    | (simp only [Quiet, and_self, State.setUnit_quiet, noteCorrected_quiet]; done)
    | (rename_i h; obtain ⟨h1, h2⟩ := Prod.ext_iff.1 h; clear h; (try simp only at h1 h2); (try subst h1); (try subst h2); (try simp only [Quiet, and_self, State.setUnit_quiet, noteCorrected_quiet]))
    | simp only [Quiet, and_self, State.setUnit_quiet, noteCorrected_quiet]
    | (with_reducible refine Quiet.trans ?_ (foldl_quiet _ ?_ _ _))
    | (with_reducible refine Quiet.trans ?_ (foldl_quiet_snd _ ?_ _ _))
    | (with_reducible refine Quiet.trans ?_ (foldl_quiet_fst _ ?_ _ _))
    | (intro _ _)
    | split
theorem hwrite_quiet (s : State) (a : Nat) (b : List Byte) : (hwrite s a b).pending = s.pending ∧ (hwrite s a b).audit = s.audit := by
  unfold hwrite
  repeat' first
    | (simp only [Quiet, and_self, hput_quiet, mergeUnit_quiet, State.setEnt_quiet]; done)
    | (rename_i h; obtain ⟨h1, h2⟩ := Prod.ext_iff.1 h; clear h; (try simp only at h1 h2); (try subst h1); (try subst h2); (try simp only [Quiet, and_self, hput_quiet, mergeUnit_quiet, State.setEnt_quiet]))
    | simp only [Quiet, and_self, hput_quiet, mergeUnit_quiet, State.setEnt_quiet]
    | (with_reducible refine Quiet.trans ?_ (foldl_quiet _ ?_ _ _))
    | (with_reducible refine Quiet.trans ?_ (foldl_quiet_snd _ ?_ _ _))
    | (with_reducible refine Quiet.trans ?_ (foldl_quiet_fst _ ?_ _ _))
    | (intro _ _)
    | split
theorem State.setSramWord_quiet (s : State) (k : Nat) (r : Option RawCode) : (State.setSramWord s k r).pending = s.pending ∧ (State.setSramWord s k r).audit = s.audit := by
  simp only [State.setSramWord, Quiet, and_self]
theorem mergeChecked_quiet (kind c first n : Nat) (s : State) (u : Nat × Option RawCode) :
    (mergeChecked kind c first n s u).pending = s.pending ∧ (mergeChecked kind c first n s u).audit = s.audit := by
  unfold mergeChecked
  dsimp only
  repeat' split
  all_goals first | exact ⟨rfl, rfl⟩ | simp only [noteCorrected_quiet, State.setSramWord_quiet, and_self]
theorem touchSram_quiet (s : State) (kind : Nat) (c : Nat) (first : Nat) (n : Nat) : (touchSram s kind c first n).pending = s.pending ∧ (touchSram s kind c first n).audit = s.audit := by
  unfold touchSram
  repeat' first
    | (simp only [Quiet, and_self, mergeChecked_quiet, State.setEnt_quiet]; done)
    | (rename_i h; obtain ⟨h1, h2⟩ := Prod.ext_iff.1 h; clear h; (try simp only at h1 h2); (try subst h1); (try subst h2); (try simp only [Quiet, and_self, mergeChecked_quiet, State.setEnt_quiet]))
    | simp only [Quiet, and_self, mergeChecked_quiet, State.setEnt_quiet]
    | (with_reducible refine Quiet.trans ?_ (foldl_quiet _ ?_ _ _))
    | (with_reducible refine Quiet.trans ?_ (foldl_quiet_snd _ ?_ _ _))
    | (with_reducible refine Quiet.trans ?_ (foldl_quiet_fst _ ?_ _ _))
    | (intro _ _)
    | split
theorem freshSram_quiet (s : State) (kind : Nat) (c : Nat) : (freshSram s kind c).pending = s.pending ∧ (freshSram s kind c).audit = s.audit := by
  simp only [freshSram, Quiet, and_self, touchSram_quiet]
theorem State.writeClm_quiet (s : State) (c : Nat) (a : Nat) (b : List Byte) : (State.writeClm s c a b).pending = s.pending ∧ (State.writeClm s c a b).audit = s.audit := by
  simp only [State.writeClm, and_self, touchSram_quiet, State.modCore_quiet]
theorem State.writeAcc_quiet (s : State) (c : Nat) (w : Nat) (v : List W32) : (State.writeAcc s c w v).pending = s.pending ∧ (State.writeAcc s c w v).audit = s.audit := by
  simp only [State.writeAcc, Quiet, and_self, touchSram_quiet, State.modCore_quiet]
theorem State.writeWide_quiet (s : State) (c : Nat) (w : Nat) (v : List W32) : (State.writeWide s c w v).pending = s.pending ∧ (State.writeWide s c w v).audit = s.audit := by
  simp only [State.writeWide, and_self, touchSram_quiet, State.modCore_quiet]
theorem hcheck_quiet (s : State) (a : Nat) (n : Nat) : (hcheck s a n).1.pending = s.pending ∧ (hcheck s a n).1.audit = s.audit := by
  unfold hcheck
  repeat' first
    | (simp only [Quiet, and_self, State.setUnit_quiet, noteCorrected_quiet, noteBad_quiet, addCandidate_quiet]; done)
    | (rename_i h; obtain ⟨h1, h2⟩ := Prod.ext_iff.1 h; clear h; (try simp only at h1 h2); (try subst h1); (try subst h2); (try simp only [Quiet, and_self, State.setUnit_quiet, noteCorrected_quiet, noteBad_quiet, addCandidate_quiet]))
    | simp only [Quiet, and_self, State.setUnit_quiet, noteCorrected_quiet, noteBad_quiet, addCandidate_quiet]
    | (with_reducible refine Quiet.trans ?_ (foldl_quiet _ ?_ _ _))
    | (with_reducible refine Quiet.trans ?_ (foldl_quiet_snd _ ?_ _ _))
    | (with_reducible refine Quiet.trans ?_ (foldl_quiet_fst _ ?_ _ _))
    | (intro _ _)
    | split
theorem sramReadCheck_quiet (s : State) (kind c first n : Nat) :
    (sramReadCheck s kind c first n).1.pending = s.pending ∧ (sramReadCheck s kind c first n).1.audit = s.audit := by
  unfold sramReadCheck
  refine foldl_quiet_fst _ ?_ _ (s, false)
  rintro ⟨t, b⟩ u
  simp only
  split
  · exact ⟨rfl, rfl⟩
  · split
    · exact ⟨rfl, rfl⟩
    · split
      · exact ⟨rfl, rfl⟩
      · exact noteCorrected_quiet ..
      · exact Quiet.trans (noteBad_quiet ..) (addCandidate_quiet ..)
theorem State.setCache_quiet (s : State) (l : List CacheLine) : (State.setCache s l).pending = s.pending ∧ (State.setCache s l).audit = s.audit := by
  simp only [State.setCache, Quiet, and_self]
theorem poisonUnits_quiet (s : State) (x : CacheLine) : (poisonUnits s x).pending = s.pending ∧ (poisonUnits s x).audit = s.audit := by
  unfold poisonUnits
  repeat' first
    | (simp only [Quiet, and_self, State.setUnit_quiet]; done)
    | (rename_i h; obtain ⟨h1, h2⟩ := Prod.ext_iff.1 h; clear h; (try simp only at h1 h2); (try subst h1); (try subst h2); (try simp only [Quiet, and_self, State.setUnit_quiet]))
    | simp only [Quiet, and_self, State.setUnit_quiet]
    | (with_reducible refine Quiet.trans ?_ (foldl_quiet _ ?_ _ _))
    | (with_reducible refine Quiet.trans ?_ (foldl_quiet_snd _ ?_ _ _))
    | (with_reducible refine Quiet.trans ?_ (foldl_quiet_fst _ ?_ _ _))
    | (intro _ _)
    | split
theorem writeBack_quiet (s : State) (x : CacheLine) : (writeBack s x).pending = s.pending ∧ (writeBack s x).audit = s.audit := by
  simp only [writeBack, ite_pending, ite_audit, ite_self, Quiet, and_self, poisonUnits_quiet, State.addEnt_quiet]
theorem makeRoom_quiet (s : State) (l : Nat) : (makeRoom s l).pending = s.pending ∧ (makeRoom s l).audit = s.audit := by
  unfold makeRoom
  repeat' first
    | (simp only [Quiet, and_self, writeBack_quiet, State.setCache_quiet]; done)
    | (rename_i h; obtain ⟨h1, h2⟩ := Prod.ext_iff.1 h; clear h; (try simp only at h1 h2); (try subst h1); (try subst h2); (try simp only [Quiet, and_self, writeBack_quiet, State.setCache_quiet]))
    | simp only [Quiet, and_self, writeBack_quiet, State.setCache_quiet]
    | (with_reducible refine Quiet.trans ?_ (foldl_quiet _ ?_ _ _))
    | (with_reducible refine Quiet.trans ?_ (foldl_quiet_snd _ ?_ _ _))
    | (with_reducible refine Quiet.trans ?_ (foldl_quiet_fst _ ?_ _ _))
    | (intro _ _)
    | split
theorem countLookup_quiet (s : State) (d : Nat) (hit : Bool) : (countLookup s d hit).pending = s.pending ∧ (countLookup s d hit).audit = s.audit := by
  simp only [countLookup, ite_pending, ite_audit, ite_self, Quiet, and_self, State.addEnt_quiet]
theorem useLine_quiet (s : State) (x : CacheLine) (a : Nat) (o : Nat) (n : Nat) (write : Bool) : (useLine s x a o n write).2.pending = s.pending ∧ (useLine s x a o n write).2.audit = s.audit := by
  unfold useLine
  repeat' first
    | (simp only [Quiet, and_self, writeBack_quiet, noteCorrected_quiet]; done)
    | (rename_i h; obtain ⟨h1, h2⟩ := Prod.ext_iff.1 h; clear h; (try simp only at h1 h2); (try subst h1); (try subst h2); (try simp only [Quiet, and_self, writeBack_quiet, noteCorrected_quiet]))
    | simp only [Quiet, and_self, writeBack_quiet, noteCorrected_quiet]
    | (with_reducible refine Quiet.trans ?_ (foldl_quiet _ ?_ _ _))
    | (with_reducible refine Quiet.trans ?_ (foldl_quiet_snd _ ?_ _ _))
    | (with_reducible refine Quiet.trans ?_ (foldl_quiet_fst _ ?_ _ _))
    | (intro _ _)
    | split
theorem lookup_quiet (s : State) (a : Nat) (n : Nat) (write : Bool) (alloc : Bool) : (lookup s a n write alloc).pending = s.pending ∧ (lookup s a n write alloc).audit = s.audit := by
  unfold lookup
  repeat' first
    | (simp only [Quiet, and_self, useLine_quiet, countLookup_quiet, State.setCache_quiet, makeRoom_quiet]; done)
    | (rename_i h; obtain ⟨h1, h2⟩ := Prod.ext_iff.1 h; clear h; (try simp only at h1 h2); (try subst h1); (try subst h2); (try simp only [Quiet, and_self, useLine_quiet, countLookup_quiet, State.setCache_quiet, makeRoom_quiet]))
    | simp only [Quiet, and_self, useLine_quiet, countLookup_quiet, State.setCache_quiet, makeRoom_quiet]
    | (with_reducible refine Quiet.trans ?_ (foldl_quiet _ ?_ _ _))
    | (with_reducible refine Quiet.trans ?_ (foldl_quiet_snd _ ?_ _ _))
    | (with_reducible refine Quiet.trans ?_ (foldl_quiet_fst _ ?_ _ _))
    | (intro _ _)
    | split
theorem accesses_quiet (g : Nat) (s : State) (a : Nat) (n : Nat) (write : Bool) (alloc : Bool) : (accesses g s a n write alloc).pending = s.pending ∧ (accesses g s a n write alloc).audit = s.audit := by
  unfold accesses
  repeat' first
    | (simp only [Quiet, and_self, lookup_quiet]; done)
    | (rename_i h; obtain ⟨h1, h2⟩ := Prod.ext_iff.1 h; clear h; (try simp only at h1 h2); (try subst h1); (try subst h2); (try simp only [Quiet, and_self, lookup_quiet]))
    | simp only [Quiet, and_self, lookup_quiet]
    | (with_reducible refine Quiet.trans ?_ (foldl_quiet _ ?_ _ _))
    | (with_reducible refine Quiet.trans ?_ (foldl_quiet_snd _ ?_ _ _))
    | (with_reducible refine Quiet.trans ?_ (foldl_quiet_fst _ ?_ _ _))
    | (intro _ _)
    | split
theorem lookups_quiet (s : State) (a : Nat) (n : Nat) (write : Bool) (alloc : Bool) : (lookups s a n write alloc).pending = s.pending ∧ (lookups s a n write alloc).audit = s.audit := by
  simp only [lookups, Quiet, and_self, accesses_quiet]
theorem flushLines_quiet (s : State) (p : CacheLine → Bool) : (flushLines s p).pending = s.pending ∧ (flushLines s p).audit = s.audit :=
  foldl_quiet writeBack writeBack_quiet _ s
theorem dropLine_quiet (s : State) (a : Nat) : (dropLine s a).pending = s.pending ∧ (dropLine s a).audit = s.audit := by
  unfold dropLine
  repeat' first
    | (simp only [Quiet, and_self, writeBack_quiet, State.setCache_quiet]; done)
    | (rename_i h; obtain ⟨h1, h2⟩ := Prod.ext_iff.1 h; clear h; (try simp only at h1 h2); (try subst h1); (try subst h2); (try simp only [Quiet, and_self, writeBack_quiet, State.setCache_quiet]))
    | simp only [Quiet, and_self, writeBack_quiet, State.setCache_quiet]
    | (with_reducible refine Quiet.trans ?_ (foldl_quiet _ ?_ _ _))
    | (with_reducible refine Quiet.trans ?_ (foldl_quiet_snd _ ?_ _ _))
    | (with_reducible refine Quiet.trans ?_ (foldl_quiet_fst _ ?_ _ _))
    | (intro _ _)
    | split
theorem memRead_quiet (s : State) (a : Nat) (n : Nat) (alloc : Bool) : (memRead s a n alloc).2.1.pending = s.pending ∧ (memRead s a n alloc).2.1.audit = s.audit := by
  simp only [memRead, Quiet, and_self, hcheck_quiet, lookups_quiet]
theorem memWrite_quiet (s : State) (a : Nat) (b : List Byte) : (memWrite s a b).pending = s.pending ∧ (memWrite s a b).audit = s.audit := by
  simp only [memWrite, Quiet, and_self, hwrite_quiet, lookups_quiet]
theorem readRanges_quiet (s : State) (l : List (Nat × Nat)) : (readRanges s l).pending = s.pending ∧ (readRanges s l).audit = s.audit := by
  unfold readRanges
  repeat' first
    | (simp only [Quiet, and_self, memRead_quiet]; done)
    | (rename_i h; obtain ⟨h1, h2⟩ := Prod.ext_iff.1 h; clear h; (try simp only at h1 h2); (try subst h1); (try subst h2); (try simp only [Quiet, and_self, memRead_quiet]))
    | simp only [Quiet, and_self, memRead_quiet]
    | (with_reducible refine Quiet.trans ?_ (foldl_quiet _ ?_ _ _))
    | (with_reducible refine Quiet.trans ?_ (foldl_quiet_snd _ ?_ _ _))
    | (with_reducible refine Quiet.trans ?_ (foldl_quiet_fst _ ?_ _ _))
    | (intro _ _)
    | split
theorem putRawHbm_quiet (s : State) (u : Nat) (d : List Byte) (m : List Byte) : (putRawHbm s u d m).pending = s.pending ∧ (putRawHbm s u d m).audit = s.audit := by
  simp only [putRawHbm, Quiet, and_self, State.setUnit_quiet, hput_quiet]
theorem putRawSram_quiet (s : State) (key : Nat) (d : W64) (c : Byte) : (putRawSram s key d c).pending = s.pending ∧ (putRawSram s key d c).audit = s.audit := by
  simp only [putRawSram, Quiet, and_self, State.modCore_quiet, State.setSramWord_quiet]
theorem saveImage_quiet (s : State) (c : Nat) (point : Nat) (offset : Nat) : (saveImage s c point offset).pending = s.pending ∧ (saveImage s c point offset).audit = s.audit := by
  simp only [saveImage, Quiet, and_self, memWrite_quiet]
theorem zeroArea_quiet (s : State) : (zeroArea s).pending = s.pending ∧ (zeroArea s).audit = s.audit := by
  simp only [zeroArea, ite_pending, ite_audit, ite_self, Quiet, and_self, memWrite_quiet]
theorem pageWrite_quiet (s : State) (a : Nat) (n : Nat) (v : Nat) : (pageWrite s a n v).pending = s.pending ∧ (pageWrite s a n v).audit = s.audit := by
  simp only [pageWrite, Quiet, and_self, hwrite_quiet, hcheck_quiet, lookups_quiet]
theorem setRecords_quiet (s : State) (n : Nat) (g : Nat) (v : Nat) : (setRecords s n g v).pending = s.pending ∧ (setRecords s n g v).audit = s.audit := by
  unfold setRecords
  repeat' first
    | (simp only [Quiet, and_self, pageWrite_quiet]; done)
    | (rename_i h; obtain ⟨h1, h2⟩ := Prod.ext_iff.1 h; clear h; (try simp only at h1 h2); (try subst h1); (try subst h2); (try simp only [Quiet, and_self, pageWrite_quiet]))
    | simp only [Quiet, and_self, pageWrite_quiet]
    | (with_reducible refine Quiet.trans ?_ (foldl_quiet _ ?_ _ _))
    | (with_reducible refine Quiet.trans ?_ (foldl_quiet_snd _ ?_ _ _))
    | (with_reducible refine Quiet.trans ?_ (foldl_quiet_fst _ ?_ _ _))
    | (intro _ _)
    | split
theorem State.setPageSlot_quiet (s : State) (k : Nat) (x : PageSlot) : (State.setPageSlot s k x).pending = s.pending ∧ (State.setPageSlot s k x).audit = s.audit := by
  simp only [State.setPageSlot, and_self]
theorem noteGranules_quiet (s : State) (free : Int) (pending : Int) : (noteGranules s free pending).pending = s.pending ∧ (noteGranules s free pending).audit = s.audit := by
  simp only [noteGranules, and_self, State.setEnt_quiet]
theorem closeIfDone_quiet (s : State) (k : Nat) : (closeIfDone s k).pending = s.pending ∧ (closeIfDone s k).audit = s.audit := by
  simp only [closeIfDone, ite_pending, ite_audit, ite_self, and_self, State.setPageSlot_quiet]
theorem releasePage_quiet (s : State) (a : Nat) : (releasePage s a).pending = s.pending ∧ (releasePage s a).audit = s.audit := by
  simp only [releasePage, ite_pending, ite_audit, ite_self, Quiet, and_self, setRecords_quiet, pageWrite_quiet, noteGranules_quiet, closeIfDone_quiet, State.setPageSlot_quiet]
theorem releaseMoves_quiet (s : State) (x : CoreS) : (releaseMoves s x).pending = s.pending ∧ (releaseMoves s x).audit = s.audit := by
  unfold releaseMoves
  repeat' first
    | (simp only [Quiet, and_self, releasePage_quiet]; done)
    | (rename_i h; obtain ⟨h1, h2⟩ := Prod.ext_iff.1 h; clear h; (try simp only at h1 h2); (try subst h1); (try subst h2); (try simp only [Quiet, and_self, releasePage_quiet]))
    | simp only [Quiet, and_self, releasePage_quiet]
    | (with_reducible refine Quiet.trans ?_ (foldl_quiet _ ?_ _ _))
    | (with_reducible refine Quiet.trans ?_ (foldl_quiet_snd _ ?_ _ _))
    | (with_reducible refine Quiet.trans ?_ (foldl_quiet_fst _ ?_ _ _))
    | (intro _ _)
    | split
theorem mapPorts_quiet (f : PortS → PortS) (s : State) : (mapPorts f s).pending = s.pending ∧ (mapPorts f s).audit = s.audit := by
  unfold mapPorts
  repeat' first
    | (simp only [Quiet, and_self, State.modPort_quiet]; done)
    | (rename_i h; obtain ⟨h1, h2⟩ := Prod.ext_iff.1 h; clear h; (try simp only at h1 h2); (try subst h1); (try subst h2); (try simp only [Quiet, and_self, State.modPort_quiet]))
    | simp only [Quiet, and_self, State.modPort_quiet]
    | (with_reducible refine Quiet.trans ?_ (foldl_quiet _ ?_ _ _))
    | (with_reducible refine Quiet.trans ?_ (foldl_quiet_snd _ ?_ _ _))
    | (with_reducible refine Quiet.trans ?_ (foldl_quiet_fst _ ?_ _ _))
    | (intro _ _)
    | split
theorem openPorts_quiet (s : State) : (openPorts s).pending = s.pending ∧ (openPorts s).audit = s.audit := by
  simp only [openPorts, and_self, mapPorts_quiet]
theorem floodAbort_quiet (s : State) (orig : Nat) (reason : Nat) (raise : Nat) (step : Nat) (except : Option Nat) : (floodAbort s orig reason raise step except).pending = s.pending ∧ (floodAbort s orig reason raise step except).audit = s.audit := by
  unfold floodAbort
  repeat' first
    | (simp only [Quiet, and_self, State.modPort_quiet]; done)
    | (rename_i h; obtain ⟨h1, h2⟩ := Prod.ext_iff.1 h; clear h; (try simp only at h1 h2); (try subst h1); (try subst h2); (try simp only [Quiet, and_self, State.modPort_quiet]))
    | simp only [Quiet, and_self, State.modPort_quiet]
    | (with_reducible refine Quiet.trans ?_ (foldl_quiet _ ?_ _ _))
    | (with_reducible refine Quiet.trans ?_ (foldl_quiet_snd _ ?_ _ _))
    | (with_reducible refine Quiet.trans ?_ (foldl_quiet_fst _ ?_ _ _))
    | (intro _ _)
    | split
theorem touchPass_quiet (c : Nat) (s : State) (p : Pass) : (touchPass c s p).pending = s.pending ∧ (touchPass c s p).audit = s.audit := by
  unfold touchPass
  repeat' first
    | (simp only [Quiet, and_self, touchSram_quiet]; done)
    | (rename_i h; obtain ⟨h1, h2⟩ := Prod.ext_iff.1 h; clear h; (try simp only at h1 h2); (try subst h1); (try subst h2); (try simp only [Quiet, and_self, touchSram_quiet]))
    | simp only [Quiet, and_self, touchSram_quiet]
    | (with_reducible refine Quiet.trans ?_ (foldl_quiet _ ?_ _ _))
    | (with_reducible refine Quiet.trans ?_ (foldl_quiet_snd _ ?_ _ _))
    | (with_reducible refine Quiet.trans ?_ (foldl_quiet_fst _ ?_ _ _))
    | (intro _ _)
    | split
theorem touchLeft_quiet (s : State) (c : Nat × CoreS) : (touchLeft s c).pending = s.pending ∧ (touchLeft s c).audit = s.audit := by
  unfold touchLeft
  repeat' first
    | (simp only [Quiet, and_self, touchPass_quiet]; done)
    | (rename_i h; obtain ⟨h1, h2⟩ := Prod.ext_iff.1 h; clear h; (try simp only at h1 h2); (try subst h1); (try subst h2); (try simp only [Quiet, and_self, touchPass_quiet]))
    | simp only [Quiet, and_self, touchPass_quiet]
    | (with_reducible refine Quiet.trans ?_ (foldl_quiet _ ?_ _ _))
    | (with_reducible refine Quiet.trans ?_ (foldl_quiet_snd _ ?_ _ _))
    | (with_reducible refine Quiet.trans ?_ (foldl_quiet_fst _ ?_ _ _))
    | (intro _ _)
    | split
theorem haltCores_quiet (s : State) : (haltCores s).pending = s.pending ∧ (haltCores s).audit = s.audit := by
  unfold haltCores
  repeat' first
    | (simp only [Quiet, and_self, touchLeft_quiet, releaseMoves_quiet]; done)
    | (rename_i h; obtain ⟨h1, h2⟩ := Prod.ext_iff.1 h; clear h; (try simp only at h1 h2); (try subst h1); (try subst h2); (try simp only [Quiet, and_self, touchLeft_quiet, releaseMoves_quiet]))
    | simp only [Quiet, and_self, touchLeft_quiet, releaseMoves_quiet]
    | (with_reducible refine Quiet.trans ?_ (foldl_quiet _ ?_ _ _))
    | (with_reducible refine Quiet.trans ?_ (foldl_quiet_snd _ ?_ _ _))
    | (with_reducible refine Quiet.trans ?_ (foldl_quiet_fst _ ?_ _ _))
    | (intro _ _)
    | split
theorem noteBallast_quiet (s : State) (c : Nat) : (noteBallast s c).pending = s.pending ∧ (noteBallast s c).audit = s.audit := by
  simp only [noteBallast, and_self, drawNat_quiet, State.addEnt_quiet]
theorem endBallast_quiet (s : State) (c : Nat) : (endBallast s c).pending = s.pending ∧ (endBallast s c).audit = s.audit := by
  simp only [endBallast, ite_pending, ite_audit, ite_self, Quiet, and_self, noteBallast_quiet]
theorem waitBallast_quiet (s : State) : (waitBallast s).pending = s.pending ∧ (waitBallast s).audit = s.audit := by
  unfold waitBallast
  repeat' first
    | (simp only [Quiet, and_self, endBallast_quiet]; done)
    | (rename_i h; obtain ⟨h1, h2⟩ := Prod.ext_iff.1 h; clear h; (try simp only at h1 h2); (try subst h1); (try subst h2); (try simp only [Quiet, and_self, endBallast_quiet]))
    | simp only [Quiet, and_self, endBallast_quiet]
    | (with_reducible refine Quiet.trans ?_ (foldl_quiet _ ?_ _ _))
    | (with_reducible refine Quiet.trans ?_ (foldl_quiet_snd _ ?_ _ _))
    | (with_reducible refine Quiet.trans ?_ (foldl_quiet_fst _ ?_ _ _))
    | (intro _ _)
    | split
theorem stopFaulted_quiet (s : State) (c : Nat) : (stopFaulted s c).pending = s.pending ∧ (stopFaulted s c).audit = s.audit := by
  simp only [stopFaulted, Quiet, and_self, State.modCore_quiet, endBallast_quiet]
theorem saveFaulted_quiet (s : State) : (saveFaulted s).pending = s.pending ∧ (saveFaulted s).audit = s.audit := by
  unfold saveFaulted
  split
  · exact ⟨rfl, rfl⟩
  · refine foldl_quiet _ (fun t c => ?_) _ s
    split
    · simp only [Quiet, State.modCore_quiet, saveImage_quiet, and_self]
    · exact ⟨rfl, rfl⟩
theorem foldl_setEnt_quiet (i : Nat) (g : Nat → Nat) (h : State → Nat → Nat) (l : List Nat) (s : State) :
    Quiet s (l.foldl (fun s d => s.setEnt i (g d) (h s d)) s) :=
  foldl_quiet _ (fun s d => State.setEnt_quiet s i (g d) (h s d)) l s
theorem hitRates_quiet (s : State) : (hitRates s).pending = s.pending ∧ (hitRates s).audit = s.audit := by
  have h (l : List Nat) (t : State) := foldl_setEnt_quiet 0x4023 (fun d => d + 1)
    (fun s d => if sget 0 s.mem.stepLookups d = 0 then 0 else sget 0 s.mem.stepHits d * 10000 / sget 0 s.mem.stepLookups d) l t
  simp only [hitRates, h, and_self]
theorem taperFrom_quiet (s : State) (u : Nat) : (taperFrom s u).pending = s.pending ∧ (taperFrom s u).audit = s.audit := by
  simp only [taperFrom, Quiet, and_self, State.setEnt_quiet]
theorem startTaper_quiet (s : State) : (startTaper s).pending = s.pending ∧ (startTaper s).audit = s.audit := by
  simp only [startTaper, Quiet, and_self, taperFrom_quiet]
theorem abandon_quiet (s : State) : (abandon s).pending = s.pending ∧ (abandon s).audit = s.audit := by
  simp only [abandon, Quiet, and_self, waitBallast_quiet, hitRates_quiet, State.setEnt_quiet, State.addEnt_quiet, openPorts_quiet, haltCores_quiet, startTaper_quiet, State.enterEff_quiet]
theorem actAbort_quiet (s : State) (orig : Nat) (reason : Nat) (raise : Nat) (except : Option Nat) : (actAbort s orig reason raise except).pending = s.pending ∧ (actAbort s orig reason raise except).audit = s.audit := by
  simp only [actAbort, ite_pending, ite_audit, ite_self, Quiet, and_self, floodAbort_quiet, State.setEnt_quiet, abandon_quiet]
theorem abortRun_quiet (s : State) (reason : Nat) : (abortRun s reason).pending = s.pending ∧ (abortRun s reason).audit = s.audit := by
  simp only [abortRun, ite_pending, ite_audit, ite_self, and_self, actAbort_quiet]
theorem coreFault_quiet (s : State) (c : Nat) (code : Nat) (vs : List (Nat × Nat)) : (coreFault s c code vs).pending = s.pending ∧ (coreFault s c code vs).audit = s.audit := by
  simp only [coreFault, Quiet, and_self, abortRun_quiet, saveFaulted_quiet, State.raise_quiet, stopFaulted_quiet]
theorem sigFail_quiet (s : State) (object : Nat) (slot : Nat) (bits_ : Nat) : (sigFail s object slot bits_).pending = s.pending ∧ (sigFail s object slot bits_).audit = s.audit := by
  simp only [sigFail, and_self, State.raise_quiet]
theorem runImage_quiet (s : State) (kind : Nat) (slot : Nat) : (runImage s kind slot).pending = s.pending ∧ (runImage s kind slot).audit = s.audit := by
  simp only [runImage, and_self, State.setOct_quiet, State.setEnt_quiet]
theorem trySlots_quiet (kind : Nat) (l : List Nat) (s : State) :
    (trySlots kind l s).1.pending = s.pending ∧ (trySlots kind l s).1.audit = s.audit := by
  induction l generalizing s with
  | nil => simp only [trySlots, State.setEnt_quiet, and_self]
  | cons k r ih =>
    unfold trySlots
    simp only
    split
    · simp only [runImage_quiet, and_self]
    · simp only [ih, sigFail_quiet, and_self]
theorem noteSlots_quiet (s : State) : (noteSlots s).pending = s.pending ∧ (noteSlots s).audit = s.audit := by
  simp only [noteSlots, Quiet, and_self]
theorem selectImage_quiet (s : State) (kind : Nat) : (selectImage s kind).1.pending = s.pending ∧ (selectImage s kind).1.audit = s.audit := by
  simp only [selectImage, and_self, trySlots_quiet]
theorem darkPorts_quiet (s : State) : (darkPorts s).pending = s.pending ∧ (darkPorts s).audit = s.audit := by
  unfold darkPorts
  refine foldl_quiet _ ?_ _ _
  intro s k
  refine foldl_quiet _ ?_ _ _
  intro s p
  exact State.setEnt_quiet ..
theorem mainReset_quiet (s : State) : (mainReset s).pending = s.pending ∧ (mainReset s).audit = s.audit := by
  simp only [mainReset, and_self, clearEnts_quiet, darkPorts_quiet]
theorem countCuts_quiet (s : State) (f : Nat × Nat × Nat → Bool) : (countCuts s f).pending = s.pending ∧ (countCuts s f).audit = s.audit := by
  unfold countCuts
  refine foldl_quiet _ ?_ _ _
  intro s p
  split
  · simp only [Quiet, and_self, State.addEnt_quiet, drawNat_quiet]
  · exact ⟨rfl, rfl⟩
theorem disableStreams_quiet (s : State) : (disableStreams s).pending = s.pending ∧ (disableStreams s).audit = s.audit := by
  simp only [disableStreams, and_self, clearEnts_quiet, countCuts_quiet]
theorem endWaits_quiet (s : State) : (endWaits s).pending = s.pending ∧ (endWaits s).audit = s.audit := by
  simp only [endWaits, ite_pending, ite_audit, ite_self, Quiet, and_self, waitBallast_quiet]
theorem toStandby_quiet (s : State) : (toStandby s).pending = s.pending ∧ (toStandby s).audit = s.audit := by
  simp only [toStandby, Quiet, and_self, State.setOct_quiet, State.enter_quiet, mainReset_quiet, disableStreams_quiet, endWaits_quiet]
theorem toInit_quiet (s : State) : (toInit s).pending = s.pending ∧ (toInit s).audit = s.audit := by
  unfold toInit
  repeat' first
    | (simp only [Quiet, and_self, clearEnts_quiet, State.enter_quiet, mainReset_quiet, disableStreams_quiet, State.setOct_quiet, noteSlots_quiet, State.setEnt_quiet]; done)
    | (rename_i h; obtain ⟨h1, h2⟩ := Prod.ext_iff.1 h; clear h; (try simp only at h1 h2); (try subst h1); (try subst h2); (try simp only [Quiet, and_self, clearEnts_quiet, State.enter_quiet, mainReset_quiet, disableStreams_quiet, State.setOct_quiet, noteSlots_quiet, State.setEnt_quiet]))
    | simp only [Quiet, and_self, clearEnts_quiet, State.enter_quiet, mainReset_quiet, disableStreams_quiet, State.setOct_quiet, noteSlots_quiet, State.setEnt_quiet]
    | (with_reducible refine Quiet.trans ?_ (foldl_quiet _ ?_ _ _))
    | (with_reducible refine Quiet.trans ?_ (foldl_quiet_snd _ ?_ _ _))
    | (with_reducible refine Quiet.trans ?_ (foldl_quiet_fst _ ?_ _ _))
    | (intro _ _)
    | split
theorem toStart_quiet (s : State) : (toStart s).pending = s.pending ∧ (toStart s).audit = s.audit := by
  simp only [toStart, Quiet, and_self, State.enter_quiet, State.clearOct_quiet, darkPorts_quiet, clearEnts_quiet, zeroArea_quiet, State.setEnt_quiet, State.setOct_quiet]
theorem spoilOutputs_quiet (s : State) : (spoilOutputs s).pending = s.pending ∧ (spoilOutputs s).audit = s.audit := by
  unfold spoilOutputs
  repeat' first
    | (simp only [Quiet, and_self, drawBytes_quiet, memWrite_quiet]; done)
    | (rename_i h; obtain ⟨h1, h2⟩ := Prod.ext_iff.1 h; clear h; (try simp only at h1 h2); (try subst h1); (try subst h2); (try simp only [Quiet, and_self, drawBytes_quiet, memWrite_quiet]))
    | simp only [Quiet, and_self, drawBytes_quiet, memWrite_quiet]
    | (with_reducible refine Quiet.trans ?_ (foldl_quiet _ ?_ _ _))
    | (with_reducible refine Quiet.trans ?_ (foldl_quiet_snd _ ?_ _ _))
    | (with_reducible refine Quiet.trans ?_ (foldl_quiet_fst _ ?_ _ _))
    | (intro _ _)
    | split
theorem endRun_quiet (s : State) : (endRun s).pending = s.pending ∧ (endRun s).audit = s.audit := by
  simp only [endRun, ite_pending, ite_audit, ite_self, Quiet, and_self, startTaper_quiet, waitBallast_quiet]
theorem toFault_quiet (s : State) (reason : Nat) : (toFault s reason).pending = s.pending ∧ (toFault s reason).audit = s.audit := by
  simp only [toFault, Quiet, and_self, endRun_quiet, State.setEnt_quiet, openPorts_quiet, disableStreams_quiet, spoilOutputs_quiet, State.enter_quiet, State.raise_quiet, State.setOct_quiet]
theorem noteSupply_quiet (s : State) (mv : Nat) : (noteSupply s mv).pending = s.pending ∧ (noteSupply s mv).audit = s.audit := by
  simp only [noteSupply, and_self, State.setEnt_quiet]
theorem sampleSupply_quiet (s : State) (mv : Nat) : (sampleSupply s mv).pending = s.pending ∧ (sampleSupply s mv).audit = s.audit := by
  simp only [sampleSupply, Quiet, and_self, State.setEnt_quiet, noteSupply_quiet]
theorem haltEvent_quiet (s : State) (source : Nat) (reminder : Nat) (value : Nat) : (haltEvent s source reminder value).pending = s.pending ∧ (haltEvent s source reminder value).audit = s.audit := by
  simp only [haltEvent, and_self, State.raise_quiet]
theorem throttleEvent_quiet (s : State) (source : Nat) (reminder : Nat) (mhz : Nat) : (throttleEvent s source reminder mhz).pending = s.pending ∧ (throttleEvent s source reminder mhz).audit = s.audit := by
  simp only [throttleEvent, and_self, State.raise_quiet]
theorem throttleEnter_quiet (s : State) (source : Nat) (announce : Bool) : (throttleEnter s source announce).pending = s.pending ∧ (throttleEnter s source announce).audit = s.audit := by
  simp only [throttleEnter, ite_pending, ite_audit, ite_self, and_self, State.setEnt_quiet, State.addEnt_quiet, throttleEvent_quiet]
theorem clockStep_quiet (s : State) : (clockStep s).pending = s.pending ∧ (clockStep s).audit = s.audit := by
  simp only [clockStep, ite_pending, ite_audit, ite_self, and_self, State.setEnt_quiet]
theorem throttleRelease_quiet (s : State) (source : Nat) : (throttleRelease s source).pending = s.pending ∧ (throttleRelease s source).audit = s.audit := by
  simp only [throttleRelease, ite_pending, ite_audit, ite_self, and_self, State.setEnt_quiet, clockStep_quiet]
theorem fuse_quiet (s : State) (f : List Byte) : (fuse s f).pending = s.pending ∧ (fuse s f).audit = s.audit := by
  simp only [fuse, ite_pending, ite_audit, ite_self, and_self, State.raise_quiet, State.setEnt_quiet, State.addEnt_quiet]
theorem repairAll_quiet (l : List (List Byte)) (s : State) : (repairAll l s).1.pending = s.pending ∧ (repairAll l s).1.audit = s.audit := by
  induction l generalizing s with
  | nil => exact ⟨rfl, rfl⟩
  | cons f r ih =>
    unfold repairAll
    split
    · simp only [ih, fuse_quiet, and_self]
    · exact ih s
theorem shedIfDue_quiet (s : State) : (shedIfDue s).pending = s.pending ∧ (shedIfDue s).audit = s.audit := by
  simp only [shedIfDue, ite_pending, ite_audit, ite_self, and_self, toStandby_quiet]
theorem rampLimited_quiet (s : State) (kind : Nat) (rate : Nat) : (rampLimited s kind rate).pending = s.pending ∧ (rampLimited s kind rate).audit = s.audit := by
  simp only [rampLimited, and_self, State.raise_quiet]
theorem fillRows_quiet (s : State) : (fillRows s).pending = s.pending ∧ (fillRows s).audit = s.audit := by
  unfold fillRows
  refine Quiet.trans (t := (drawNat s (192 * tickCycles s)).2) (drawNat_quiet ..) (foldl_quiet_fst _ (fun t c => ?_) _ _)
  simp only [Quiet, State.addEnt_quiet, drawNat_quiet, and_self]
theorem tickBallast_quiet (s : State) : (tickBallast s).pending = s.pending ∧ (tickBallast s).audit = s.audit := by
  unfold tickBallast
  repeat' first
    | (simp only [Quiet, and_self, drawNat_quiet, State.addEnt_quiet]; done)
    | (rename_i h; obtain ⟨h1, h2⟩ := Prod.ext_iff.1 h; clear h; (try simp only at h1 h2); (try subst h1); (try subst h2); (try simp only [Quiet, and_self, drawNat_quiet, State.addEnt_quiet]))
    | simp only [Quiet, and_self, drawNat_quiet, State.addEnt_quiet]
    | (with_reducible refine Quiet.trans ?_ (foldl_quiet _ ?_ _ _))
    | (with_reducible refine Quiet.trans ?_ (foldl_quiet_snd _ ?_ _ _))
    | (with_reducible refine Quiet.trans ?_ (foldl_quiet_fst _ ?_ _ _))
    | (intro _ _)
    | split
theorem noteDraw_quiet (s : State) (mv : Nat) (watts : Nat) (avg1ms : Nat) (avg10ms : Nat) : (noteDraw s mv watts avg1ms avg10ms).pending = s.pending ∧ (noteDraw s mv watts avg1ms avg10ms).audit = s.audit := by
  simp only [noteDraw, ite_pending, ite_audit, ite_self, Quiet, and_self, State.setEnt_quiet, sampleSupply_quiet]
theorem holdFall_quiet (s : State) (fall : Nat) : (holdFall s fall).pending = s.pending ∧ (holdFall s fall).audit = s.audit := by
  unfold holdFall
  dsimp only
  split <;> simp only [fillRows_quiet, rampLimited_quiet, and_self]
theorem noteRise_quiet (s : State) (rise : Nat) : (noteRise s rise).pending = s.pending ∧ (noteRise s rise).audit = s.audit := by
  simp only [noteRise, ite_pending, ite_audit, ite_self, Quiet, and_self, State.setEnt_quiet, State.addEnt_quiet, rampLimited_quiet]
theorem cancelArming_quiet (s : State) : (cancelArming s).pending = s.pending ∧ (cancelArming s).audit = s.audit := by
  simp only [cancelArming, ite_pending, ite_audit, ite_self, Quiet, and_self, taperFrom_quiet, State.enterEff_quiet]
theorem powerDown_quiet (s : State) : (powerDown s).pending = s.pending ∧ (powerDown s).audit = s.audit := by
  simp only [powerDown, and_self, startTaper_quiet]
theorem haltPowerDown_quiet (s : State) : (haltPowerDown s).pending = s.pending ∧ (haltPowerDown s).audit = s.audit := by
  unfold haltPowerDown
  repeat' first
    | (simp only [Quiet, and_self, powerDown_quiet, cancelArming_quiet, abortRun_quiet]; done)
    | split
theorem haltAbortHold_quiet (s : State) : (haltAbortHold s).pending = s.pending ∧ (haltAbortHold s).audit = s.audit := by
  unfold haltAbortHold
  repeat' first
    | (simp only [Quiet, and_self, cancelArming_quiet, abortRun_quiet]; done)
    | split
theorem noteTemp_quiet (s : State) (sub : Nat) (v : Nat) : (noteTemp s sub v).pending = s.pending ∧ (noteTemp s sub v).audit = s.audit := by
  simp only [noteTemp, Quiet, and_self, State.setEnt_quiet]
theorem freeCredit_quiet (s : State) (p : Nat) (vc : Nat) : (freeCredit s p vc).pending = s.pending ∧ (freeCredit s p vc).audit = s.audit := by
  simp only [freeCredit, and_self, State.modPort_quiet]
theorem receive_quiet (s : State) (p : Nat) (f : Flit) : (receive s p f).1.pending = s.pending ∧ (receive s p f).1.audit = s.audit := by
  unfold receive
  repeat' first
    | (simp only [Quiet, and_self, State.modPort_quiet, State.setPort_quiet, freeCredit_quiet]; done)
    | (rename_i h; obtain ⟨h1, h2⟩ := Prod.ext_iff.1 h; clear h; (try simp only at h1 h2); (try subst h1); (try subst h2); (try simp only [Quiet, and_self, State.modPort_quiet, State.setPort_quiet, freeCredit_quiet]))
    | simp only [Quiet, and_self, State.modPort_quiet, State.setPort_quiet, freeCredit_quiet]
    | (with_reducible refine Quiet.trans ?_ (foldl_quiet _ ?_ _ _))
    | (with_reducible refine Quiet.trans ?_ (foldl_quiet_snd _ ?_ _ _))
    | (with_reducible refine Quiet.trans ?_ (foldl_quiet_fst _ ?_ _ _))
    | (intro _ _)
    | split
theorem State.setTimePort_quiet (s : State) (p : Nat) (x : TimePort) : (State.setTimePort s p x).pending = s.pending ∧ (State.setTimePort s p x).audit = s.audit := by
  simp only [State.setTimePort, and_self]
theorem timeUnlock_quiet (s : State) (cause : Nat) (offsetPs : Int) : (timeUnlock s cause offsetPs).pending = s.pending ∧ (timeUnlock s cause offsetPs).audit = s.audit := by
  unfold timeUnlock
  repeat' first
    | (simp only [Quiet, and_self, State.raise_quiet, State.setEnt_quiet, cancelArming_quiet, abortRun_quiet]; done)
    | (rename_i h; obtain ⟨h1, h2⟩ := Prod.ext_iff.1 h; clear h; (try simp only at h1 h2); (try subst h1); (try subst h2); (try simp only [Quiet, and_self, State.raise_quiet, State.setEnt_quiet, cancelArming_quiet, abortRun_quiet]))
    | simp only [Quiet, and_self, State.raise_quiet, State.setEnt_quiet, cancelArming_quiet, abortRun_quiet]
    | (with_reducible refine Quiet.trans ?_ (foldl_quiet _ ?_ _ _))
    | (with_reducible refine Quiet.trans ?_ (foldl_quiet_snd _ ?_ _ _))
    | (with_reducible refine Quiet.trans ?_ (foldl_quiet_fst _ ?_ _ _))
    | (intro _ _)
    | split
theorem follow_quiet (s : State) (p : Nat) : (follow s p).pending = s.pending ∧ (follow s p).audit = s.audit := by
  unfold follow
  repeat' first
    | (simp only [Quiet, and_self, State.setEnt_quiet, State.raise_quiet]; done)
    | (rename_i h; obtain ⟨h1, h2⟩ := Prod.ext_iff.1 h; clear h; (try simp only at h1 h2); (try subst h1); (try subst h2); (try simp only [Quiet, and_self, State.setEnt_quiet, State.raise_quiet]))
    | simp only [Quiet, and_self, State.setEnt_quiet, State.raise_quiet]
    | (with_reducible refine Quiet.trans ?_ (foldl_quiet _ ?_ _ _))
    | (with_reducible refine Quiet.trans ?_ (foldl_quiet_snd _ ?_ _ _))
    | (with_reducible refine Quiet.trans ?_ (foldl_quiet_fst _ ?_ _ _))
    | (intro _ _)
    | split
theorem stepTime_quiet (s : State) (v : FTime) : (stepTime s v).pending = s.pending ∧ (stepTime s v).audit = s.audit := by
  simp only [stepTime, and_self]
theorem servo_quiet (s : State) (offsetPs : Int) : (servo s offsetPs).pending = s.pending ∧ (servo s offsetPs).audit = s.audit := by
  simp only [servo, and_self, State.setEnt_quiet]
theorem becomeLocked_quiet (s : State) : (becomeLocked s).pending = s.pending ∧ (becomeLocked s).audit = s.audit := by
  simp only [becomeLocked, and_self, drawNat_quiet, State.setEnt_quiet]
theorem discipline_quiet (s : State) (offsetPs : Int) (joined : Bool) :
    (discipline s offsetPs joined).pending = s.pending ∧ (discipline s offsetPs joined).audit = s.audit := by
  unfold discipline
  simp only [ite_pending, ite_audit, stepTime_quiet, timeUnlock_quiet, servo_quiet, becomeLocked_quiet, drawNat_quiet, State.setEnt_quiet, ite_self, and_self]
theorem takeOver_quiet (s : State) (q : Nat) : (takeOver s q).pending = s.pending ∧ (takeOver s q).audit = s.audit := by
  unfold takeOver
  split <;> simp only [and_self, State.setEnt_quiet, State.raise_quiet]
theorem localRead_quiet (s : State) (a : Nat) (n : Nat) : (localRead s a n).2.1.pending = s.pending ∧ (localRead s a n).2.1.audit = s.audit := by
  unfold localRead
  repeat' first
    | (simp only [Quiet, and_self, memRead_quiet, sramReadCheck_quiet]; done)
    | split
theorem localWrite_quiet (s : State) (a : Nat) (b : List Byte) : (localWrite s a b).pending = s.pending ∧ (localWrite s a b).audit = s.audit := by
  unfold localWrite
  repeat' first
    | (simp only [Quiet, and_self, memWrite_quiet, State.writeClm_quiet, touchSram_quiet, State.modCore_quiet]; done)
    | split
theorem State.setSem_quiet (s : State) (c : Nat) (k : Nat) (v : Nat) : (State.setSem s c k v).pending = s.pending ∧ (State.setSem s c k v).audit = s.audit := by
  simp only [State.setSem, and_self, State.modCore_quiet]
theorem misdirect_quiet (s : State) (c : Nat) (k : Nat) (n : Nat) : (misdirect s c k n).pending = s.pending ∧ (misdirect s c k n).audit = s.audit := by
  simp only [misdirect, ite_pending, ite_audit, ite_self, and_self, State.addEnt_quiet, State.raise_quiet, State.modCore_quiet]
theorem incSem_quiet (s : State) (c : Nat) (k : Nat) (n : Nat) (landing : Bool) : (incSem s c k n landing).pending = s.pending ∧ (incSem s c k n landing).audit = s.audit := by
  simp only [incSem, ite_pending, ite_audit, ite_self, and_self, misdirect_quiet, State.setSem_quiet, abortRun_quiet, State.raise_quiet]
theorem compareRecord_quiet (s : State) (r : List Byte) :
    (compareRecord s r).pending = s.pending ∧ (compareRecord s r).audit = s.audit := by
  unfold compareRecord
  split
  · exact ⟨rfl, rfl⟩
  · simp only [ite_pending, ite_audit, State.setEnt_quiet, State.addEnt_quiet, State.raise_quiet, ite_self, and_self]
theorem versionFault_quiet (s : State) (shard : Nat) (expected : Nat) (found : Nat) (sender : Nat) : (versionFault s shard expected found sender).pending = s.pending ∧ (versionFault s shard expected found sender).audit = s.audit := by
  simp only [versionFault, ite_pending, ite_audit, ite_self, and_self, State.setEnt_quiet, abortRun_quiet, State.raise_quiet]
theorem State.setCsend_quiet (s : State) (i : Nat) (x : SendS) : (State.setCsend s i x).pending = s.pending ∧ (State.setCsend s i x).audit = s.audit := by
  simp only [State.setCsend, and_self]
theorem State.setCrecv_quiet (s : State) (i : Nat) (x : RecvS) : (State.setCrecv s i x).pending = s.pending ∧ (State.setCrecv s i x).audit = s.audit := by
  simp only [State.setCrecv, and_self]
theorem State.setCgroup_quiet (s : State) (i : Nat) (x : GroupS) : (State.setCgroup s i x).pending = s.pending ∧ (State.setCgroup s i x).audit = s.audit := by
  simp only [State.setCgroup, and_self]
theorem syncSignal_quiet (s : State) (e : Nat) (n : Nat) (landing : Bool) : (syncSignal s e n landing).pending = s.pending ∧ (syncSignal s e n landing).audit = s.audit := by
  simp only [syncSignal, ite_pending, ite_audit, ite_self, and_self, incSem_quiet]
theorem collFault_quiet (s : State) (code : Nat) (port : Nat) (stream : Nat) (j : Nat) : (collFault s code port stream j).pending = s.pending ∧ (collFault s code port stream j).audit = s.audit := by
  simp only [collFault, ite_pending, ite_audit, ite_self, and_self, State.setEnt_quiet, abortRun_quiet, State.raise_quiet]
theorem trailerCheck_quiet (s : State) (kind : Nat) (t : List Byte) (sender : Nat) : (trailerCheck s kind t sender).1.pending = s.pending ∧ (trailerCheck s kind t sender).1.audit = s.audit := by
  unfold trailerCheck
  repeat' first
    | (simp only [Quiet, and_self, versionFault_quiet]; done)
    | (rename_i h; obtain ⟨h1, h2⟩ := Prod.ext_iff.1 h; clear h; (try simp only at h1 h2); (try subst h1); (try subst h2); (try simp only [Quiet, and_self, versionFault_quiet]))
    | simp only [Quiet, and_self, versionFault_quiet]
    | (with_reducible refine Quiet.trans ?_ (foldl_quiet _ ?_ _ _))
    | (with_reducible refine Quiet.trans ?_ (foldl_quiet_snd _ ?_ _ _))
    | (with_reducible refine Quiet.trans ?_ (foldl_quiet_fst _ ?_ _ _))
    | (intro _ _)
    | split
theorem takeNonfinite_quiet (s : State) (nf : Bool) : (takeNonfinite s nf).pending = s.pending ∧ (takeNonfinite s nf).audit = s.audit := by
  simp only [takeNonfinite, ite_pending, ite_audit, ite_self, and_self]
theorem landPart_quiet (s : State) (base : Nat) (data : List Byte) (d : Nat) (from_ : Nat) (till : Nat) (sync : Nat) (landed : Nat) (signals : Bool) : (landPart s base data d from_ till sync landed signals).1.pending = s.pending ∧ (landPart s base data d from_ till sync landed signals).1.audit = s.audit := by
  unfold landPart
  repeat' first
    | (simp only [Quiet, and_self, localWrite_quiet, syncSignal_quiet]; done)
    | (rename_i h; obtain ⟨h1, h2⟩ := Prod.ext_iff.1 h; clear h; (try simp only at h1 h2); (try subst h1); (try subst h2); (try simp only [Quiet, and_self, localWrite_quiet, syncSignal_quiet]))
    | simp only [Quiet, and_self, localWrite_quiet, syncSignal_quiet]
    | (with_reducible refine Quiet.trans ?_ (foldl_quiet _ ?_ _ _))
    | (with_reducible refine Quiet.trans ?_ (foldl_quiet_snd _ ?_ _ _))
    | (with_reducible refine Quiet.trans ?_ (foldl_quiet_fst _ ?_ _ _))
    | (intro _ _)
    | split
theorem checkSlot_quiet (s : State) (i : Nat) (j : Nat) (k : Nat) : (checkSlot s i j k).1.pending = s.pending ∧ (checkSlot s i j k).1.audit = s.audit := by
  simp only [checkSlot, Quiet, and_self, sramReadCheck_quiet]
theorem notePeak_quiet (s : State) (die : Nat) : (notePeak s die).pending = s.pending ∧ (notePeak s die).audit = s.audit := by
  simp only [notePeak, ite_pending, ite_audit, ite_self, and_self, State.setEnt_quiet]
theorem withRun_quiet (s : State) (r : Run) : Quiet s { s with run := r } := ⟨rfl, rfl⟩
theorem withColl_quiet (s : State) (r : Coll) : Quiet s { s with coll := r } := ⟨rfl, rfl⟩
theorem memWrite_to {s t : State} {a : Nat} {b : List Byte} (h : memWrite s a b = t) : Quiet s t := h ▸ memWrite_quiet s a b
theorem recvDone_quiet (s : State) (i j : Nat) (r : RecvS) : (recvDone s i j r).pending = s.pending ∧ (recvDone s i j r).audit = s.audit := by
  unfold recvDone
  dsimp only
  generalize hp : (if ceSource (centry s i) = 0 then trailerCheck s (ceCheck (centry s i)) (slice r.bytes (ceD (centry s i)) 16)
    (s.ent 0x3301 (cePort (centry s i) + 1)) else (s, true)) = p
  have h : Quiet s p.1 := by
    subst hp
    split
    · exact trailerCheck_quiet ..
    · exact ⟨rfl, rfl⟩
  refine Quiet.trans h ?_
  obtain ⟨u, ok⟩ := p
  clear h hp
  dsimp only
  by_cases h0 : (!ok) = true
  · rw [if_pos h0]
    exact ⟨rfl, rfl⟩
  rw [if_neg h0]
  by_cases h1 : ceSource (centry s i) = 1
  · rw [if_pos h1]
    refine Quiet.trans ?_ (foldl_quiet _ (fun _ _ => compareRecord_quiet ..) _ _)
    simp only [Quiet, State.addEnt_quiet, takeNonfinite_quiet, and_self]
  rw [if_neg h1]
  by_cases h3 : ceSource (centry s i) = 3
  · rw [if_pos h3]
    refine Quiet.trans ?_ (syncSignal_quiet ..)
    have a : Quiet u ((takeNonfinite u (trNonfinite (slice r.bytes (ceD (centry s i)) 16))).addEnt 0x3420 2 1) := by
      simp only [Quiet, State.addEnt_quiet, takeNonfinite_quiet, and_self]
    refine Quiet.trans a ?_
    split
    · exact ⟨rfl, rfl⟩
    · generalize hm : memWrite _ _ _ = m
      refine Quiet.trans (memWrite_to hm) ?_
      split
      · exact ⟨rfl, rfl⟩
      · exact Quiet.trans (State.raise_quiet m 0x7202 []) (withRun_quiet ..)
  rw [if_neg h3]
  have a : Quiet u ((takeNonfinite u (trNonfinite (slice r.bytes (ceD (centry s i)) 16))).addEnt 0x3420 2 1) := by
    simp only [Quiet, State.addEnt_quiet, takeNonfinite_quiet, and_self]
  refine Quiet.trans a ?_
  split
  · exact Quiet.trans (landPart_quiet ..) (withColl_quiet ..)
  · exact landPart_quiet ..
theorem malformed_quiet (s : State) (i : Nat) (r : RecvS) (more : Bool) : (malformed s i r more).pending = s.pending ∧ (malformed s i r more).audit = s.audit := by
  simp only [malformed, Quiet, and_self, collFault_quiet, State.setCrecv_quiet]
theorem instanceFlit_quiet (s : State) (i : Nat) (f : Flit) : (instanceFlit s i f).pending = s.pending ∧ (instanceFlit s i f).audit = s.audit := by
  unfold instanceFlit
  by_cases h : ceSource (centry s i) = 0 <;>
  simp only [h, if_true, if_false, ite_pending, ite_audit, malformed_quiet, collFault_quiet, State.setCrecv_quiet, recvDone_quiet, landPart_quiet,
    notePeak_quiet, touchSram_quiet, ite_self, and_self]
theorem recvFlit_quiet (s : State) (i : Nat) (f : Flit) : (recvFlit s i f).pending = s.pending ∧ (recvFlit s i f).audit = s.audit := by
  unfold recvFlit
  dsimp only
  repeat' split
  all_goals simp only [instanceFlit_quiet, malformed_quiet, and_self]
theorem bareTrailer_quiet (s : State) (source : Nat) (j : Nat) : (bareTrailer s source j).2.pending = s.pending ∧ (bareTrailer s source j).2.audit = s.audit := by
  unfold bareTrailer
  repeat' first
    | (simp only [Quiet, and_self, drawNat_quiet]; done)
    | split
theorem startSend_quiet (s : State) (entry : Nat) (b : List Byte) (reading : Bool) :
    (startSend s entry b reading).pending = s.pending ∧ (startSend s entry b reading).audit = s.audit := ⟨rfl, rfl⟩
theorem noteRepair_quiet (s : State) (entry k b : Nat) : (noteRepair s entry k b).pending = s.pending ∧ (noteRepair s entry k b).audit = s.audit := ⟨rfl, rfl⟩
theorem groupDone_quiet (s : State) (g : Nat) (j : Nat) (ins : List Nat) (next : Nat) (ts : List (List Byte)) : (groupDone s g j ins next ts).pending = s.pending ∧ (groupDone s g j ins next ts).audit = s.audit := by
  unfold groupDone
  repeat' first
    | (simp only [Quiet, and_self, takeNonfinite_quiet, State.addEnt_quiet, versionFault_quiet, trailerCheck_quiet, landPart_quiet, State.setCrecv_quiet, State.setCgroup_quiet]; done)
    | (rename_i h; obtain ⟨h1, h2⟩ := Prod.ext_iff.1 h; clear h; (try simp only at h1 h2); (try subst h1); (try subst h2); (try simp only [Quiet, and_self, takeNonfinite_quiet, State.addEnt_quiet, versionFault_quiet, trailerCheck_quiet, landPart_quiet, State.setCrecv_quiet, State.setCgroup_quiet]))
    | simp only [Quiet, and_self, takeNonfinite_quiet, State.addEnt_quiet, versionFault_quiet, trailerCheck_quiet, landPart_quiet, State.setCrecv_quiet, State.setCgroup_quiet]
    | (with_reducible refine Quiet.trans ?_ (foldl_quiet _ ?_ _ _))
    | (with_reducible refine Quiet.trans ?_ (foldl_quiet_snd _ ?_ _ _))
    | (with_reducible refine Quiet.trans ?_ (foldl_quiet_fst _ ?_ _ _))
    | (intro _ _)
    | split
theorem freeSlots_quiet (s : State) (ins : List Nat) (j : Nat) (gone : Nat → Bool) :
    (freeSlots s ins j gone).pending = s.pending ∧ (freeSlots s ins j gone).audit = s.audit :=
  foldl_quiet _ (fun _ _ => State.setCrecv_quiet ..) ins s
theorem dropInstance_quiet (s : State) (g : Nat) (j : Nat) (ins : List Nat) : (dropInstance s g j ins).pending = s.pending ∧ (dropInstance s g j ins).audit = s.audit := by
  simp only [dropInstance, Quiet, and_self, freeSlots_quiet, State.setCgroup_quiet]
theorem queueOpen_quiet (s : State) (p : Nat) (f : Flit) (from_ : Option (Nat × Nat)) : (queueOpen s p f from_).pending = s.pending ∧ (queueOpen s p f from_).audit = s.audit := by
  simp only [queueOpen, Quiet, and_self, State.modPort_quiet]
theorem sendOpen_quiet (s : State) (p : Nat) (f : Flit) : (sendOpen s p f).pending = s.pending ∧ (sendOpen s p f).audit = s.audit := by
  simp only [sendOpen, Quiet, and_self, queueOpen_quiet]
theorem holdPlace_quiet (s : State) (p : Nat) (vc : Nat) : (holdPlace s p vc).pending = s.pending ∧ (holdPlace s p vc).audit = s.audit := by
  simp only [holdPlace, Quiet, and_self, State.modPort_quiet]
theorem freePlace_quiet (s : State) (p : Nat) (vc : Nat) : (freePlace s p vc).pending = s.pending ∧ (freePlace s p vc).audit = s.audit := by
  simp only [freePlace, Quiet, and_self, State.modPort_quiet]
theorem emit_quiet (s : State) (dst : Nat) (fs : List Flit) : (emit s dst fs).1.pending = s.pending ∧ (emit s dst fs).1.audit = s.audit := by
  unfold emit
  repeat' first
    | (simp only [Quiet, and_self, sendOpen_quiet, State.addEnt_quiet]; done)
    | (rename_i h; obtain ⟨h1, h2⟩ := Prod.ext_iff.1 h; clear h; (try simp only at h1 h2); (try subst h1); (try subst h2); (try simp only [Quiet, and_self, sendOpen_quiet, State.addEnt_quiet]))
    | simp only [Quiet, and_self, sendOpen_quiet, State.addEnt_quiet]
    | (with_reducible refine Quiet.trans ?_ (foldl_quiet _ ?_ _ _))
    | (with_reducible refine Quiet.trans ?_ (foldl_quiet_snd _ ?_ _ _))
    | (with_reducible refine Quiet.trans ?_ (foldl_quiet_fst _ ?_ _ _))
    | (intro _ _)
    | split
theorem noteRefused_quiet (s : State) (dst : W16) (status : Nat) : (noteRefused s dst status).pending = s.pending ∧ (noteRefused s dst status).audit = s.audit := by
  simp only [noteRefused, ite_pending, ite_audit, ite_self, and_self, State.addEnt_quiet]
theorem sendAck_quiet (s : State) (dst : W16) (tag : BitVec 12) (status : Nat) (transfer : Nat) (bytes : Nat) : (sendAck s dst tag status transfer bytes).pending = s.pending ∧ (sendAck s dst tag status transfer bytes).audit = s.audit := by
  simp only [sendAck, and_self, emit_quiet, noteRefused_quiet]
theorem sendResp_quiet (s : State) (dst : W16) (tag : BitVec 12) (status : Nat) (data : List Byte) : (sendResp s dst tag status data).pending = s.pending ∧ (sendResp s dst tag status data).audit = s.audit := by
  simp only [sendResp, and_self, emit_quiet, noteRefused_quiet]
theorem refuseFlit_quiet (s : State) (f : Flit) (status : Nat) : (refuseFlit s f status).pending = s.pending ∧ (refuseFlit s f status).audit = s.audit := by
  simp only [refuseFlit, ite_pending, ite_audit, ite_self, and_self, sendResp_quiet, sendAck_quiet]
theorem relay_quiet (s : State) (p : Nat) (f : Flit) : (relay s p f).pending = s.pending ∧ (relay s p f).audit = s.audit := by
  unfold relay
  dsimp only
  split
  · simp only [ite_pending, ite_audit, State.addEnt_quiet, noteRefused_quiet, queueOpen_quiet, holdPlace_quiet, ite_self, and_self]
  · simp only [ite_pending, ite_audit, State.addEnt_quiet, refuseFlit_quiet, ite_self, and_self]
theorem lendRefused_quiet (s : State) (src : Nat) (a : Nat) : (lendRefused s src a).pending = s.pending ∧ (lendRefused s src a).audit = s.audit := by
  simp only [lendRefused, ite_pending, ite_audit, ite_self, and_self, State.addEnt_quiet, State.raise_quiet]
theorem accessStatus_quiet (s : State) (src : W16) (a : Nat) (n : Nat) (write : Bool) : (accessStatus s src a n write).1.pending = s.pending ∧ (accessStatus s src a n write).1.audit = s.audit := by
  unfold accessStatus
  repeat' first
    | (simp only [Quiet, and_self, lendRefused_quiet]; done)
    | split
theorem State.setTransfer_quiet (s : State) (k : Nat) (x : Option Transfer) : (State.setTransfer s k x).pending = s.pending ∧ (State.setTransfer s k x).audit = s.audit := by
  simp only [State.setTransfer, and_self]
theorem answered_quiet (s : State) (k : Nat) (n : Nat) : (answered s k n).pending = s.pending ∧ (answered s k n).audit = s.audit := by
  unfold answered
  repeat' first
    | (simp only [Quiet, and_self, State.setTransfer_quiet]; done)
    | split
theorem takeHead_quiet (s : State) (p : Nat) (f : Flit) : (takeHead s p f).pending = s.pending ∧ (takeHead s p f).audit = s.audit := by
  unfold takeHead
  repeat' first
    | (simp only [Quiet, and_self, accessStatus_quiet, State.setTransfer_quiet, answered_quiet, sendAck_quiet]; done)
    | (rename_i h; obtain ⟨h1, h2⟩ := Prod.ext_iff.1 h; clear h; (try simp only at h1 h2); (try subst h1); (try subst h2); (try simp only [Quiet, and_self, accessStatus_quiet, State.setTransfer_quiet, answered_quiet, sendAck_quiet]))
    | simp only [Quiet, and_self, accessStatus_quiet, State.setTransfer_quiet, answered_quiet, sendAck_quiet]
    | (with_reducible refine Quiet.trans ?_ (foldl_quiet _ ?_ _ _))
    | (with_reducible refine Quiet.trans ?_ (foldl_quiet_snd _ ?_ _ _))
    | (with_reducible refine Quiet.trans ?_ (foldl_quiet_fst _ ?_ _ _))
    | (intro _ _)
    | split
theorem takeData_quiet (s : State) (p : Nat) (f : Flit) : (takeData s p f).pending = s.pending ∧ (takeData s p f).audit = s.audit := by
  unfold takeData
  repeat' first
    | (simp only [Quiet, and_self, answered_quiet, sendAck_quiet]; done)
    | (rename_i h; obtain ⟨h1, h2⟩ := Prod.ext_iff.1 h; clear h; (try simp only at h1 h2); (try subst h1); (try subst h2); (try simp only [Quiet, and_self, answered_quiet, sendAck_quiet]))
    | simp only [Quiet, and_self, answered_quiet, sendAck_quiet]
    | (with_reducible refine Quiet.trans ?_ (foldl_quiet _ ?_ _ _))
    | (with_reducible refine Quiet.trans ?_ (foldl_quiet_snd _ ?_ _ _))
    | (with_reducible refine Quiet.trans ?_ (foldl_quiet_fst _ ?_ _ _))
    | (intro _ _)
    | split
theorem takeRead_quiet (s : State) (f : Flit) : (takeRead s f).pending = s.pending ∧ (takeRead s f).audit = s.audit := by
  simp only [takeRead, ite_pending, ite_audit, ite_self, Quiet, and_self, sendResp_quiet, accessStatus_quiet, localRead_quiet]
theorem takePost_quiet (s : State) (f : Flit) : (takePost s f).pending = s.pending ∧ (takePost s f).audit = s.audit := by
  simp only [takePost, ite_pending, ite_audit, ite_self, Quiet, and_self, sendAck_quiet, incSem_quiet]
theorem takeHostmsg_quiet (s : State) (p : Nat) (f : Flit) : (takeHostmsg s p f).pending = s.pending ∧ (takeHostmsg s p f).audit = s.audit := by
  unfold takeHostmsg
  repeat' first
    | (simp only [Quiet, and_self, sendAck_quiet]; done)
    | (rename_i h; obtain ⟨h1, h2⟩ := Prod.ext_iff.1 h; clear h; (try simp only at h1 h2); (try subst h1); (try subst h2); (try simp only [Quiet, and_self, sendAck_quiet]))
    | simp only [Quiet, and_self, sendAck_quiet]
    | (with_reducible refine Quiet.trans ?_ (foldl_quiet _ ?_ _ _))
    | (with_reducible refine Quiet.trans ?_ (foldl_quiet_snd _ ?_ _ _))
    | (with_reducible refine Quiet.trans ?_ (foldl_quiet_fst _ ?_ _ _))
    | (intro _ _)
    | split
theorem handleRequest_quiet (s : State) (p : Nat) (f : Flit) : (handleRequest s p f).pending = s.pending ∧ (handleRequest s p f).audit = s.audit := by
  unfold handleRequest
  repeat' first
    | (simp only [Quiet, and_self, relay_quiet, takeHead_quiet, takeData_quiet, takeRead_quiet, takePost_quiet, takeHostmsg_quiet]; done)
    | (rename_i h; obtain ⟨h1, h2⟩ := Prod.ext_iff.1 h; clear h; (try simp only at h1 h2); (try subst h1); (try subst h2); (try simp only [Quiet, and_self, relay_quiet, takeHead_quiet, takeData_quiet, takeRead_quiet, takePost_quiet, takeHostmsg_quiet]))
    | simp only [Quiet, and_self, relay_quiet, takeHead_quiet, takeData_quiet, takeRead_quiet, takePost_quiet, takeHostmsg_quiet]
    | (with_reducible refine Quiet.trans ?_ (foldl_quiet _ ?_ _ _))
    | (with_reducible refine Quiet.trans ?_ (foldl_quiet_snd _ ?_ _ _))
    | (with_reducible refine Quiet.trans ?_ (foldl_quiet_fst _ ?_ _ _))
    | (intro _ _)
    | split
theorem holdFlit_quiet (s : State) (p : Nat) (f : Flit) : (holdFlit s p f).pending = s.pending ∧ (holdFlit s p f).audit = s.audit := by
  simp only [holdFlit, Quiet, and_self, holdPlace_quiet, State.modPort_quiet]
theorem drainWaiting_quiet (n p : Nat) (s : State) :
    (drainWaiting n p s).pending = s.pending ∧ (drainWaiting n p s).audit = s.audit := by
  induction n generalizing s with
  | zero => exact ⟨rfl, rfl⟩
  | succ n ih =>
    unfold drainWaiting
    split
    · exact ⟨rfl, rfl⟩
    · simp only [ih, handleRequest_quiet, freePlace_quiet, State.modPort_quiet, and_self]
theorem drainAll_quiet (s : State) : (drainAll s).pending = s.pending ∧ (drainAll s).audit = s.audit :=
  foldl_quiet _ (fun s p => drainWaiting_quiet 1024 p s) _ s
theorem arriveRequest_quiet (s : State) (p : Nat) (f : Flit) : (arriveRequest s p f).pending = s.pending ∧ (arriveRequest s p f).audit = s.audit := by
  simp only [arriveRequest, ite_pending, ite_audit, ite_self, Quiet, and_self, holdFlit_quiet, drainAll_quiet, handleRequest_quiet]
theorem leaveService_quiet (s : State) (p : Nat) (st : Nat) : (leaveService s p st).pending = s.pending ∧ (leaveService s p st).audit = s.audit := by
  simp only [leaveService, and_self, State.raise_quiet, State.addEnt_quiet, State.setEnt_quiet, State.modPort_quiet]
theorem loseLock_quiet (s : State) (p : Nat) (st : Nat) : (loseLock s p st).pending = s.pending ∧ (loseLock s p st).audit = s.audit := by
  simp only [loseLock, ite_pending, ite_audit, ite_self, Quiet, and_self, leaveService_quiet, State.modPort_quiet, State.setEnt_quiet]
theorem chooseGrants_quiet (s : State) (p : Nat) : (chooseGrants s p).pending = s.pending ∧ (chooseGrants s p).audit = s.audit := by
  unfold chooseGrants
  repeat' first
    | (simp only [Quiet, and_self, drawNat_quiet, State.modPort_quiet]; done)
    | (rename_i h; obtain ⟨h1, h2⟩ := Prod.ext_iff.1 h; clear h; (try simp only at h1 h2); (try subst h1); (try subst h2); (try simp only [Quiet, and_self, drawNat_quiet, State.modPort_quiet]))
    | simp only [Quiet, and_self, drawNat_quiet, State.modPort_quiet]
    | (with_reducible refine Quiet.trans ?_ (foldl_quiet _ ?_ _ _))
    | (with_reducible refine Quiet.trans ?_ (foldl_quiet_snd _ ?_ _ _))
    | (with_reducible refine Quiet.trans ?_ (foldl_quiet_fst _ ?_ _ _))
    | (intro _ _)
    | split
theorem trainPayload_quiet (s : State) (p : Nat) (phase : Nat) (chosen : Nat) : (trainPayload s p phase chosen).2.pending = s.pending ∧ (trainPayload s p phase chosen).2.audit = s.audit := by
  simp only [trainPayload, Quiet, and_self, chooseGrants_quiet]
theorem holdPort_quiet (s : State) (p : Nat) (code : Nat) : (holdPort s p code).pending = s.pending ∧ (holdPort s p code).audit = s.audit := by
  simp only [holdPort, ite_pending, ite_audit, ite_self, and_self, State.setPort_quiet, State.setEnt_quiet, State.raise_quiet]
theorem roleConflict_quiet (s : State) (position : Nat) : (roleConflict s position).pending = s.pending ∧ (roleConflict s position).audit = s.audit := by
  simp only [roleConflict, ite_pending, ite_audit, ite_self, Quiet, and_self, State.raise_quiet, State.setEnt_quiet, leaveService_quiet, State.modPort_quiet]
theorem tryService_quiet (s : State) (p : Nat) : (tryService s p).pending = s.pending ∧ (tryService s p).audit = s.audit := by
  unfold tryService
  repeat' first
    | (simp only [Quiet, and_self, State.setPort_quiet, State.setTimePort_quiet, State.setEnt_quiet, roleConflict_quiet]; done)
    | (rename_i h; obtain ⟨h1, h2⟩ := Prod.ext_iff.1 h; clear h; (try simp only at h1 h2); (try subst h1); (try subst h2); (try simp only [Quiet, and_self, State.setPort_quiet, State.setTimePort_quiet, State.setEnt_quiet, roleConflict_quiet]))
    | simp only [Quiet, and_self, State.setPort_quiet, State.setTimePort_quiet, State.setEnt_quiet, roleConflict_quiet]
    | (with_reducible refine Quiet.trans ?_ (foldl_quiet _ ?_ _ _))
    | (with_reducible refine Quiet.trans ?_ (foldl_quiet_snd _ ?_ _ _))
    | (with_reducible refine Quiet.trans ?_ (foldl_quiet_fst _ ?_ _ _))
    | (intro _ _)
    | split
theorem noteReplay_quiet (s : State) (p : Nat) : (noteReplay s p).pending = s.pending ∧ (noteReplay s p).audit = s.audit := by
  simp only [noteReplay, ite_pending, ite_audit, ite_self, and_self, State.addEnt_quiet, State.raise_quiet, State.setPort_quiet]
theorem schedFlit_quiet {s t : State} {p k : Nat} {f : Flit} (h : schedFlit s p k = some (f, t)) : Quiet s t := by
  unfold schedFlit at h
  obtain ⟨-, h⟩ := Option.ite_none_left_eq_some.1 h
  split at h
  · cases h
  obtain ⟨-, h⟩ := Option.ite_none_left_eq_some.1 h
  dsimp only at h
  obtain ⟨-, h⟩ := Option.ite_none_left_eq_some.1 h
  split at h
  · cases h
  rename_i i _
  obtain ⟨-, h⟩ := Option.ite_none_left_eq_some.1 h
  split at h
  · cases h
  generalize hp : (if isOnward (centry s i) then checkSlot s (i - 1) (s.csend i).count (s.csend i).sent else (s, false)) = pool at h
  have hq : Quiet s pool.1 := by
    subst hp
    split
    · exact checkSlot_quiet ..
    · exact ⟨rfl, rfl⟩
  refine Quiet.trans hq ?_
  repeat' split at h
  all_goals
    obtain ⟨-, rfl⟩ := Prod.mk.inj (Option.some.inj h)
    first | exact ⟨rfl, rfl⟩ | simp only [Quiet, abortRun_quiet, and_self]
theorem slotFlit_quiet (s : State) (p t : Nat) : (slotFlit s p t).2.1.pending = s.pending ∧ (slotFlit s p t).2.1.audit = s.audit := by
  unfold slotFlit
  dsimp only
  split
  · exact ⟨rfl, rfl⟩
  · split
    · exact ⟨rfl, rfl⟩
    · split
      · exact ⟨rfl, rfl⟩
      · split
        · rename_i h
          split at h
          · exact schedFlit_quiet h
          · cases h
        · split
          · split <;> exact ⟨rfl, rfl⟩
          · split
            · dsimp only
              split <;> exact ⟨rfl, rfl⟩
            · exact ⟨rfl, rfl⟩
theorem stampFlit_quiet (s : State) (p : Nat) (f : Flit) (again : Bool) : (stampFlit s p f again).2.pending = s.pending ∧ (stampFlit s p f again).2.audit = s.audit := by
  simp only [stampFlit, ite_pending, ite_audit, ite_self, Quiet, and_self, drawNat_quiet, touchSram_quiet, State.setPort_quiet]
theorem replayCheck_quiet (s : State) (p : Nat) : (replayCheck s p).1.pending = s.pending ∧ (replayCheck s p).1.audit = s.audit := by
  unfold replayCheck
  repeat' first
    | (simp only [Quiet, and_self, sramReadCheck_quiet]; done)
    | (rename_i h; obtain ⟨h1, h2⟩ := Prod.ext_iff.1 h; clear h; (try simp only at h1 h2); (try subst h1); (try subst h2); (try simp only [Quiet, and_self, sramReadCheck_quiet]))
    | simp only [Quiet, and_self, sramReadCheck_quiet]
    | (with_reducible refine Quiet.trans ?_ (foldl_quiet _ ?_ _ _))
    | (with_reducible refine Quiet.trans ?_ (foldl_quiet_snd _ ?_ _ _))
    | (with_reducible refine Quiet.trans ?_ (foldl_quiet_fst _ ?_ _ _))
    | (intro _ _)
    | split
theorem departs_quiet (s : State) (p : Nat) (f : Flit) : (departs s p f).1.pending = s.pending ∧ (departs s p f).1.audit = s.audit := by
  unfold departs
  repeat' first
    | (simp only [Quiet, and_self, State.setTimePort_quiet]; done)
    | split
theorem checkSram_quiet (s : State) (c : Nat) (rs : List (Nat × Nat × Nat)) : (checkSram s c rs).1.pending = s.pending ∧ (checkSram s c rs).1.audit = s.audit := by
  unfold checkSram
  repeat' first
    | (simp only [Quiet, and_self, sramReadCheck_quiet]; done)
    | (rename_i h; obtain ⟨h1, h2⟩ := Prod.ext_iff.1 h; clear h; (try simp only at h1 h2); (try subst h1); (try subst h2); (try simp only [Quiet, and_self, sramReadCheck_quiet]))
    | simp only [Quiet, and_self, sramReadCheck_quiet]
    | (with_reducible refine Quiet.trans ?_ (foldl_quiet _ ?_ _ _))
    | (with_reducible refine Quiet.trans ?_ (foldl_quiet_snd _ ?_ _ _))
    | (with_reducible refine Quiet.trans ?_ (foldl_quiet_fst _ ?_ _ _))
    | (intro _ _)
    | split
theorem readOnce_quiet (s : State) (kind : Nat) (c : Nat) (first : Nat) (n : Nat) : (readOnce s kind c first n).1.pending = s.pending ∧ (readOnce s kind c first n).1.audit = s.audit := by
  simp only [readOnce, Quiet, and_self, checkSram_quiet]
theorem eccHalt_quiet (s : State) (c : Nat) : (eccHalt s c).pending = s.pending ∧ (eccHalt s c).audit = s.audit := by
  simp only [eccHalt, Quiet, and_self, abortRun_quiet, saveFaulted_quiet, stopFaulted_quiet]
theorem instrInvalid_quiet (s : State) (c : Nat) : (instrInvalid s c).pending = s.pending ∧ (instrInvalid s c).audit = s.audit := by
  simp only [instrInvalid, and_self, coreFault_quiet]
theorem endWait_quiet (s : State) (c : Nat) (f : CoreS → CoreS) : (endWait s c f).pending = s.pending ∧ (endWait s c f).audit = s.audit := by
  simp only [endWait, and_self, State.modCore_quiet, noteBallast_quiet]
theorem shapeOver_quiet (s : State) (c : Nat) (slot : Nat) (value : Nat) (maximum : Nat) : (shapeOver s c slot value maximum).pending = s.pending ∧ (shapeOver s c slot value maximum).audit = s.audit := by
  simp only [shapeOver, ite_pending, ite_audit, ite_self, and_self, State.setEnt_quiet, coreFault_quiet]
theorem State.setWc_quiet (s : State) (k : Nat) (w : WorkC) : (State.setWc s k w).pending = s.pending ∧ (State.setWc s k w).audit = s.audit := by
  simp only [State.setWc, and_self]
theorem noRoute_quiet (s : State) : (noRoute s).pending = s.pending ∧ (noRoute s).audit = s.audit := by
  simp only [noRoute, and_self, abortRun_quiet, State.raise_quiet]
theorem addRequest_quiet (s : State) (tag : Nat) (kind : ReqKind) (dst : Nat) (core : Core) (moveId : Nat) (addr : Nat) (bytes : Nat) (offset : Nat) : (addRequest s tag kind dst core moveId addr bytes offset).pending = s.pending ∧ (addRequest s tag kind dst core moveId addr bytes offset).audit = s.audit := by
  simp only [addRequest, and_self]
theorem State.setSession_quiet (s : State) (slot : Nat) (x : Option Session) : (State.setSession s slot x).pending = s.pending ∧ (State.setSession s slot x).audit = s.audit := by
  simp only [State.setSession, and_self]
theorem leaveInBand_quiet (s : State) (slot : Nat) : (leaveInBand s slot).pending = s.pending ∧ (leaveInBand s slot).audit = s.audit := by
  unfold leaveInBand
  split
  · split
    · exact ⟨rfl, rfl⟩
    · split
      · exact ⟨rfl, rfl⟩
      · simp only [ite_pending, ite_audit, addRequest_quiet, emit_quiet, State.setSession_quiet, ite_self, and_self]
  · exact ⟨rfl, rfl⟩
theorem transmit_quiet (s : State) (slot : Nat) (x : Session) (m : List Byte) : (transmit s slot x m).pending = s.pending ∧ (transmit s slot x m).audit = s.audit := by
  simp only [transmit, Quiet, and_self, leaveInBand_quiet, State.setSession_quiet]
theorem pageAreaWrite_quiet (s : State) (sub : Nat) (v : Nat) : (pageAreaWrite s sub v).2.pending = s.pending ∧ (pageAreaWrite s sub v).2.audit = s.audit := by
  unfold pageAreaWrite
  repeat' first
    | (simp only [Quiet, and_self, State.setEnt_quiet, zeroArea_quiet]; done)
    | (rename_i h; obtain ⟨h1, h2⟩ := Prod.ext_iff.1 h; clear h; (try simp only at h1 h2); (try subst h1); (try subst h2); (try simp only [Quiet, and_self, State.setEnt_quiet, zeroArea_quiet]))
    | simp only [Quiet, and_self, State.setEnt_quiet, zeroArea_quiet]
    | (with_reducible refine Quiet.trans ?_ (foldl_quiet _ ?_ _ _))
    | (with_reducible refine Quiet.trans ?_ (foldl_quiet_snd _ ?_ _ _))
    | (with_reducible refine Quiet.trans ?_ (foldl_quiet_fst _ ?_ _ _))
    | (intro _ _)
    | split
theorem mapPage_quiet (k : Nat) (s : State) (p : Nat × Nat) : (mapPage k s p).pending = s.pending ∧ (mapPage k s p).audit = s.audit := by
  simp only [mapPage, ite_pending, ite_audit, ite_self, Quiet, and_self, setRecords_quiet, pageWrite_quiet, State.setPageSlot_quiet, noteGranules_quiet]
theorem freePage_quiet (k : Nat) (s : State) (j : Nat) : (freePage k s j).pending = s.pending ∧ (freePage k s j).audit = s.audit := by
  simp only [freePage, ite_pending, ite_audit, ite_self, Quiet, and_self, setRecords_quiet, pageWrite_quiet, State.setPageSlot_quiet, noteGranules_quiet]
theorem applyPage_quiet (s : State) (b : List Byte) : (applyPage s b).pending = s.pending ∧ (applyPage s b).audit = s.audit := by
  unfold applyPage
  repeat' first
    | (simp only [Quiet, and_self, State.setPageSlot_quiet, mapPage_quiet, freePage_quiet, closeIfDone_quiet]; done)
    | (rename_i h; obtain ⟨h1, h2⟩ := Prod.ext_iff.1 h; clear h; (try simp only at h1 h2); (try subst h1); (try subst h2); (try simp only [Quiet, and_self, State.setPageSlot_quiet, mapPage_quiet, freePage_quiet, closeIfDone_quiet]))
    | simp only [Quiet, and_self, State.setPageSlot_quiet, mapPage_quiet, freePage_quiet, closeIfDone_quiet]
    | (with_reducible refine Quiet.trans ?_ (foldl_quiet _ ?_ _ _))
    | (with_reducible refine Quiet.trans ?_ (foldl_quiet_snd _ ?_ _ _))
    | (with_reducible refine Quiet.trans ?_ (foldl_quiet_fst _ ?_ _ _))
    | (intro _ _)
    | split
theorem refusePage_quiet (s : State) (o : Origin) (b : List Byte) (event : Nat) (granule : Nat) : (refusePage s o b event granule).pending = s.pending ∧ (refusePage s o b event granule).audit = s.audit := by
  simp only [refusePage, ite_pending, ite_audit, ite_self, and_self, State.setOct_quiet, State.addEnt_quiet, State.setEnt_quiet, State.raise_quiet, abortRun_quiet]
theorem pageCommand_quiet (s : State) (o : Origin) (b : List Byte) : (pageCommand s o b).2.pending = s.pending ∧ (pageCommand s o b).2.audit = s.audit := by
  unfold pageCommand
  repeat' first
    | (simp only [Quiet, and_self, refusePage_quiet, readRanges_quiet, State.addEnt_quiet, applyPage_quiet]; done)
    | split
theorem State.setRegion_quiet (s : State) (die : Nat) (l : List RegionCmd) : (State.setRegion s die l).pending = s.pending ∧ (State.setRegion s die l).audit = s.audit := by
  simp only [State.setRegion, and_self]
theorem refuseRegion_quiet (s : State) (o : Origin) (die : Nat) (op : Nat) : (refuseRegion s o die op).pending = s.pending ∧ (refuseRegion s o die op).audit = s.audit := by
  unfold refuseRegion
  repeat' first
    | (simp only [Quiet, and_self, State.raise_quiet, State.addEnt_quiet, State.setEnt_quiet, abortRun_quiet]; done)
    | (rename_i h; obtain ⟨h1, h2⟩ := Prod.ext_iff.1 h; clear h; (try simp only at h1 h2); (try subst h1); (try subst h2); (try simp only [Quiet, and_self, State.raise_quiet, State.addEnt_quiet, State.setEnt_quiet, abortRun_quiet]))
    | simp only [Quiet, and_self, State.raise_quiet, State.addEnt_quiet, State.setEnt_quiet, abortRun_quiet]
    | (with_reducible refine Quiet.trans ?_ (foldl_quiet _ ?_ _ _))
    | (with_reducible refine Quiet.trans ?_ (foldl_quiet_snd _ ?_ _ _))
    | (with_reducible refine Quiet.trans ?_ (foldl_quiet_fst _ ?_ _ _))
    | (intro _ _)
    | split
theorem regionCommand_quiet (s : State) (o : Origin) (die : Nat) (b : List Byte) (d : List Byte) : (regionCommand s o die b d).2.pending = s.pending ∧ (regionCommand s o die b d).2.audit = s.audit := by
  unfold regionCommand
  repeat' first
    | (simp only [Quiet, and_self, refuseRegion_quiet, State.setRegion_quiet]; done)
    | split
theorem spoilOutput_quiet (s : State) (x : RegionCmd) : (spoilOutput s x).pending = s.pending ∧ (spoilOutput s x).audit = s.audit := by
  simp only [spoilOutput, and_self, drawBytes_quiet, localWrite_quiet]
theorem stopRegions_quiet (s : State) : (stopRegions s).pending = s.pending ∧ (stopRegions s).audit = s.audit := by
  unfold stopRegions
  repeat' first
    | (simp only [Quiet, and_self, State.setRegion_quiet, spoilOutput_quiet]; done)
    | (rename_i h; obtain ⟨h1, h2⟩ := Prod.ext_iff.1 h; clear h; (try simp only at h1 h2); (try subst h1); (try subst h2); (try simp only [Quiet, and_self, State.setRegion_quiet, spoilOutput_quiet]))
    | simp only [Quiet, and_self, State.setRegion_quiet, spoilOutput_quiet]
    | (with_reducible refine Quiet.trans ?_ (foldl_quiet _ ?_ _ _))
    | (with_reducible refine Quiet.trans ?_ (foldl_quiet_snd _ ?_ _ _))
    | (with_reducible refine Quiet.trans ?_ (foldl_quiet_fst _ ?_ _ _))
    | (intro _ _)
    | split
theorem finishRegion_quiet (s : State) (die : Nat) : (finishRegion s die).pending = s.pending ∧ (finishRegion s die).audit = s.audit := by
  unfold finishRegion
  repeat' first
    | (simp only [Quiet, and_self, State.setRegion_quiet, spoilOutput_quiet, localRead_quiet, abortRun_quiet, State.addEnt_quiet, localWrite_quiet, incSem_quiet]; done)
    | (rename_i h; obtain ⟨h1, h2⟩ := Prod.ext_iff.1 h; clear h; (try simp only at h1 h2); (try subst h1); (try subst h2); (try simp only [Quiet, and_self, State.setRegion_quiet, spoilOutput_quiet, localRead_quiet, abortRun_quiet, State.addEnt_quiet, localWrite_quiet, incSem_quiet]))
    | simp only [Quiet, and_self, State.setRegion_quiet, spoilOutput_quiet, localRead_quiet, abortRun_quiet, State.addEnt_quiet, localWrite_quiet, incSem_quiet]
    | (with_reducible refine Quiet.trans ?_ (foldl_quiet _ ?_ _ _))
    | (with_reducible refine Quiet.trans ?_ (foldl_quiet_snd _ ?_ _ _))
    | (with_reducible refine Quiet.trans ?_ (foldl_quiet_fst _ ?_ _ _))
    | (intro _ _)
    | split
theorem saveAt_quiet (point : Nat) (s : State) (c : Nat) : (saveAt point s c).pending = s.pending ∧ (saveAt point s c).audit = s.audit :=
  saveImage_quiet s c point _
theorem keepMeasurement_quiet (s : State) : (keepMeasurement s).pending = s.pending ∧ (keepMeasurement s).audit = s.audit := ⟨rfl, rfl⟩
theorem setImageSem_quiet (s : State) (c : Nat) (k : Nat) (v : Nat) : (setImageSem s c k v).pending = s.pending ∧ (setImageSem s c k v).audit = s.audit := by
  simp only [setImageSem, Quiet, and_self, memWrite_quiet, lookups_quiet]
theorem noteForce_quiet (s : State) (c : Nat) (k : Nat) (old : Nat) (new : Nat) : (noteForce s c k old new).pending = s.pending ∧ (noteForce s c k old new).audit = s.audit := by
  simp only [noteForce, and_self, State.raise_quiet, State.setEnt_quiet, State.addEnt_quiet]
theorem semForce_quiet (s : State) (v : Nat) : (semForce s v).2.pending = s.pending ∧ (semForce s v).2.audit = s.audit := by
  unfold semForce
  repeat' first
    | (simp only [Quiet, and_self, memRead_quiet, noteForce_quiet, setImageSem_quiet, State.setSem_quiet]; done)
    | split
theorem filterLimit_quiet (s : State) (c : Nat) (off : Nat) (value : Nat) : (filterLimit s c off value).pending = s.pending ∧ (filterLimit s c off value).audit = s.audit := by
  simp only [filterLimit, ite_pending, ite_audit, ite_self, and_self, State.setEnt_quiet, coreFault_quiet]
theorem checkRanges_quiet (s : State) (c : Nat) (rs : List (Nat × Nat)) : (checkRanges s c rs).1.pending = s.pending ∧ (checkRanges s c rs).1.audit = s.audit := by
  unfold checkRanges
  repeat' first
    | (simp only [Quiet, and_self, sramReadCheck_quiet]; done)
    | (rename_i h; obtain ⟨h1, h2⟩ := Prod.ext_iff.1 h; clear h; (try simp only at h1 h2); (try subst h1); (try subst h2); (try simp only [Quiet, and_self, sramReadCheck_quiet]))
    | simp only [Quiet, and_self, sramReadCheck_quiet]
    | (with_reducible refine Quiet.trans ?_ (foldl_quiet _ ?_ _ _))
    | (with_reducible refine Quiet.trans ?_ (foldl_quiet_snd _ ?_ _ _))
    | (with_reducible refine Quiet.trans ?_ (foldl_quiet_fst _ ?_ _ _))
    | (intro _ _)
    | split
theorem modeCheck_quiet (s : State) (c : Nat) (m : ModeSrc) : (modeCheck s c m).1.pending = s.pending ∧ (modeCheck s c m).1.audit = s.audit := by
  unfold modeCheck
  repeat' first
    | (simp only [Quiet, and_self, readOnce_quiet]; done)
    | split
theorem queuePass_quiet (s : State) (c : Nat) (x : CoreS) (unit : Nat) (writes : List (Nat × Nat × List W32)) (reads : List (Nat × Nat × Nat)) (dests : List (Nat × Nat × Nat)) (busy : Nat) (p : PostField) (skipped : Bool) : (queuePass s c x unit writes reads dests busy p skipped).pending = s.pending ∧ (queuePass s c x unit writes reads dests busy p skipped).audit = s.audit := by
  simp only [queuePass, Quiet, and_self, State.setCore_quiet]
theorem convFix_quiet (s : State) (x : CoreS) (b : List Byte) (w : W64) (cAddr : Nat) (m : Nat) (st : Streamed) : (convFix s x b w cAddr m st).1.pending = s.pending ∧ (convFix s x b w cAddr m st).1.audit = s.audit := by
  unfold convFix
  repeat' first
    | (simp only [Quiet, and_self, drawNat_quiet]; done)
    | (rename_i h; obtain ⟨h1, h2⟩ := Prod.ext_iff.1 h; clear h; (try simp only at h1 h2); (try subst h1); (try subst h2); (try simp only [Quiet, and_self, drawNat_quiet]))
    | simp only [Quiet, and_self, drawNat_quiet]
    | (with_reducible refine Quiet.trans ?_ (foldl_quiet _ ?_ _ _))
    | (with_reducible refine Quiet.trans ?_ (foldl_quiet_snd _ ?_ _ _))
    | (with_reducible refine Quiet.trans ?_ (foldl_quiet_fst _ ?_ _ _))
    | (intro _ _)
    | split
theorem loadGap_quiet (s : State) (c : Nat) (keep : Bool) (h : Nat) (behind : Nat) (change : Bool) : (loadGap s c keep h behind change).pending = s.pending ∧ (loadGap s c keep h behind change).audit = s.audit := by
  simp only [loadGap, ite_pending, ite_audit, ite_self, Quiet, and_self, State.addEnt_quiet, drawNat_quiet]
theorem noteCount_quiet (s : State) (c : Nat) (n : SlotCount) : (noteCount s c n).pending = s.pending ∧ (noteCount s c n).audit = s.audit := by
  simp only [noteCount, ite_pending, ite_audit, ite_self, and_self, State.modCore_quiet]
theorem writePass_quiet (s : State) (c : Nat) (p : Pass) : (writePass s c p).pending = s.pending ∧ (writePass s c p).audit = s.audit := by
  unfold writePass
  repeat' first
    | (simp only [Quiet, and_self, State.writeClm_quiet, State.writeWide_quiet, State.writeAcc_quiet]; done)
    | (rename_i h; obtain ⟨h1, h2⟩ := Prod.ext_iff.1 h; clear h; (try simp only at h1 h2); (try subst h1); (try subst h2); (try simp only [Quiet, and_self, State.writeClm_quiet, State.writeWide_quiet, State.writeAcc_quiet]))
    | simp only [Quiet, and_self, State.writeClm_quiet, State.writeWide_quiet, State.writeAcc_quiet]
    | (with_reducible refine Quiet.trans ?_ (foldl_quiet _ ?_ _ _))
    | (with_reducible refine Quiet.trans ?_ (foldl_quiet_snd _ ?_ _ _))
    | (with_reducible refine Quiet.trans ?_ (foldl_quiet_fst _ ?_ _ _))
    | (intro _ _)
    | split
theorem scaleInvalid_quiet (s : State) (c : Nat) (v : W32) : (scaleInvalid s c v).pending = s.pending ∧ (scaleInvalid s c v).audit = s.audit := by
  simp only [scaleInvalid, ite_pending, ite_audit, ite_self, and_self, State.setEnt_quiet, coreFault_quiet]
theorem noteOverflow_quiet (s : State) (c : Nat) (slot : Nat) (b : Nat) : (noteOverflow s c slot b).pending = s.pending ∧ (noteOverflow s c slot b).audit = s.audit := by
  simp only [noteOverflow, ite_pending, ite_audit, ite_self, and_self, State.raise_quiet]
theorem moverFault_quiet (s : State) (c : Nat) (event : Nat) (clmAddr : Nat) (addr : Nat) : (moverFault s c event clmAddr addr).pending = s.pending ∧ (moverFault s c event clmAddr addr).audit = s.audit := by
  simp only [moverFault, ite_pending, ite_audit, ite_self, and_self, State.setEnt_quiet, eccHalt_quiet, coreFault_quiet]
theorem State.modMove_quiet (s : State) (c : Nat) (id : Nat) (f : Move → Move) : (State.modMove s c id f).pending = s.pending ∧ (State.modMove s c id f).audit = s.audit := by
  simp only [State.modMove, and_self, State.modCore_quiet]
theorem dropMove_quiet (s : State) (c : Nat) (id : Nat) : (dropMove s c id).pending = s.pending ∧ (dropMove s c id).audit = s.audit := by
  unfold dropMove
  repeat' first
    | (simp only [Quiet, and_self, releasePage_quiet, State.setTransfer_quiet, State.modCore_quiet]; done)
    | (rename_i h; obtain ⟨h1, h2⟩ := Prod.ext_iff.1 h; clear h; (try simp only at h1 h2); (try subst h1); (try subst h2); (try simp only [Quiet, and_self, releasePage_quiet, State.setTransfer_quiet, State.modCore_quiet]))
    | simp only [Quiet, and_self, releasePage_quiet, State.setTransfer_quiet, State.modCore_quiet]
    | (with_reducible refine Quiet.trans ?_ (foldl_quiet _ ?_ _ _))
    | (with_reducible refine Quiet.trans ?_ (foldl_quiet_snd _ ?_ _ _))
    | (with_reducible refine Quiet.trans ?_ (foldl_quiet_fst _ ?_ _ _))
    | (intro _ _)
    | split
theorem failMove_quiet (s : State) (c : Nat) (m : Move) (event : Nat) (addr : Nat) : (failMove s c m event addr).pending = s.pending ∧ (failMove s c m event addr).audit = s.audit := by
  simp only [failMove, Quiet, and_self, drainAll_quiet, moverFault_quiet, dropMove_quiet]
theorem sweepMoves_quiet (s : State) (c : Nat) : (sweepMoves s c).pending = s.pending ∧ (sweepMoves s c).audit = s.audit := by
  simp only [sweepMoves, and_self, State.modCore_quiet]
theorem ownRead_quiet (s : State) (a : Nat) (n : Nat) (alloc : Bool) : (ownRead s a n alloc).2.1.pending = s.pending ∧ (ownRead s a n alloc).2.1.audit = s.audit := by
  unfold ownRead
  repeat' first
    | (simp only [Quiet, and_self, memRead_quiet, localRead_quiet]; done)
    | split
theorem readRuns_quiet (s : State) (runs : List (Nat × Nat × Nat)) (payload : List Byte) (alloc : Bool) : (readRuns s runs payload alloc).1.pending = s.pending ∧ (readRuns s runs payload alloc).1.audit = s.audit := by
  unfold readRuns
  repeat' first
    | (simp only [Quiet, and_self, ownRead_quiet]; done)
    | (rename_i h; obtain ⟨h1, h2⟩ := Prod.ext_iff.1 h; clear h; (try simp only at h1 h2); (try subst h1); (try subst h2); (try simp only [Quiet, and_self, ownRead_quiet]))
    | simp only [Quiet, and_self, ownRead_quiet]
    | (with_reducible refine Quiet.trans ?_ (foldl_quiet _ ?_ _ _))
    | (with_reducible refine Quiet.trans ?_ (foldl_quiet_snd _ ?_ _ _))
    | (with_reducible refine Quiet.trans ?_ (foldl_quiet_fst _ ?_ _ _))
    | (intro _ _)
    | split
theorem completeRead_quiet (s : State) (c : Nat) (m : Move) : (completeRead s c m).pending = s.pending ∧ (completeRead s c m).audit = s.audit := by
  simp only [completeRead, ite_pending, ite_audit, ite_self, and_self, noteCount_quiet, State.modMove_quiet]
theorem routeLost_quiet (s : State) (c : Nat) (id : Nat) : (routeLost s c id).pending = s.pending ∧ (routeLost s c id).audit = s.audit := by
  simp only [routeLost, Quiet, and_self, drainAll_quiet, noRoute_quiet, dropMove_quiet]
theorem pump_quiet (n : Nat) (s : State) (c : Core) (id : Nat) :
    (pump n s c id).pending = s.pending ∧ (pump n s c id).audit = s.audit := by
  induction n generalizing s with
  | zero => exact ⟨rfl, rfl⟩
  | succ n ih =>
    unfold pump
    split
    · split
      · split
        · dsimp only
          split <;>
          · rename_i h
            obtain ⟨h1, -⟩ := Prod.ext_iff.1 h
            simp only at h1
            subst h1
            simp only [ih, State.modMove_quiet, addRequest_quiet, routeLost_quiet, emit_quiet, and_self]
        · exact failMove_quiet ..
      · split
        · exact ⟨rfl, rfl⟩
        · split
          · exact ⟨rfl, rfl⟩
          · split
            · dsimp only
              split <;>
              · rename_i h
                obtain ⟨h1, -⟩ := Prod.ext_iff.1 h
                simp only at h1
                subst h1
                simp only [ih, State.modMove_quiet, addRequest_quiet, routeLost_quiet, emit_quiet, and_self]
            · exact failMove_quiet ..
    · exact ⟨rfl, rfl⟩
theorem pumpAll_quiet (s : State) : (pumpAll s).pending = s.pending ∧ (pumpAll s).audit = s.audit := by
  unfold pumpAll
  repeat' first
    | (simp only [Quiet, and_self, pump_quiet]; done)
    | (rename_i h; obtain ⟨h1, h2⟩ := Prod.ext_iff.1 h; clear h; (try simp only at h1 h2); (try subst h1); (try subst h2); (try simp only [Quiet, and_self, pump_quiet]))
    | simp only [Quiet, and_self, pump_quiet]
    | (with_reducible refine Quiet.trans ?_ (foldl_quiet _ ?_ _ _))
    | (with_reducible refine Quiet.trans ?_ (foldl_quiet_snd _ ?_ _ _))
    | (with_reducible refine Quiet.trans ?_ (foldl_quiet_fst _ ?_ _ _))
    | (intro _ _)
    | split
theorem readRecord_quiet (s : State) (a : Nat) : (readRecord s a).pending = s.pending ∧ (readRecord s a).audit = s.audit := by
  simp only [readRecord, Quiet, and_self, memRead_quiet]
theorem readPage_quiet (s : State) (a : Nat) : (readPage s a).pending = s.pending ∧ (readPage s a).audit = s.audit := by
  simp only [readPage, Quiet, and_self, readRecord_quiet, memRead_quiet]
theorem holdPage_quiet (s : State) (a : Nat) : (holdPage s a).pending = s.pending ∧ (holdPage s a).audit = s.audit := by
  simp only [holdPage, Quiet, and_self, readRecord_quiet, pageWrite_quiet, hcheck_quiet]
theorem startReads_quiet (s : State) (c : Core) (m : Move) (runs : List (Nat × Nat × Nat)) : (startReads s c m runs).pending = s.pending ∧ (startReads s c m runs).audit = s.audit := by
  unfold startReads
  repeat' first
    | (simp only [Quiet, and_self, readRuns_quiet, failMove_quiet, State.setTransfer_quiet, State.modMove_quiet, completeRead_quiet, pump_quiet]; done)
    | (rename_i h; obtain ⟨h1, h2⟩ := Prod.ext_iff.1 h; clear h; (try simp only at h1 h2); (try subst h1); (try subst h2); (try simp only [Quiet, and_self, readRuns_quiet, failMove_quiet, State.setTransfer_quiet, State.modMove_quiet, completeRead_quiet, pump_quiet]))
    | simp only [Quiet, and_self, readRuns_quiet, failMove_quiet, State.setTransfer_quiet, State.modMove_quiet, completeRead_quiet, pump_quiet]
    | (with_reducible refine Quiet.trans ?_ (foldl_quiet _ ?_ _ _))
    | (with_reducible refine Quiet.trans ?_ (foldl_quiet_snd _ ?_ _ _))
    | (with_reducible refine Quiet.trans ?_ (foldl_quiet_fst _ ?_ _ _))
    | (intro _ _)
    | split
theorem tallyLanding_quiet (s : State) (key : Nat) (n : Nat) : (tallyLanding s key n).pending = s.pending ∧ (tallyLanding s key n).audit = s.audit := by
  unfold tallyLanding
  repeat' first
    | (simp only [Quiet, and_self, State.setTransfer_quiet, incSem_quiet]; done)
    | split
theorem addUnits_quiet (s : State) (a : Nat) (b : List Byte) : (addUnits s a b).1.pending = s.pending ∧ (addUnits s a b).1.audit = s.audit := by
  unfold addUnits
  repeat' first
    | (simp only [Quiet, and_self, hcheck_quiet, accesses_quiet, hwrite_quiet]; done)
    | (rename_i h; obtain ⟨h1, h2⟩ := Prod.ext_iff.1 h; clear h; (try simp only at h1 h2); (try subst h1); (try subst h2); (try simp only [Quiet, and_self, hcheck_quiet, accesses_quiet, hwrite_quiet]))
    | simp only [Quiet, and_self, hcheck_quiet, accesses_quiet, hwrite_quiet]
    | (with_reducible refine Quiet.trans ?_ (foldl_quiet _ ?_ _ _))
    | (with_reducible refine Quiet.trans ?_ (foldl_quiet_snd _ ?_ _ _))
    | (with_reducible refine Quiet.trans ?_ (foldl_quiet_fst _ ?_ _ _))
    | (intro _ _)
    | split
theorem commitOwn_quiet (s : State) (c : Nat) (m : Move) (bytes : Nat) :
    (commitOwn s c m bytes).pending = s.pending ∧ (commitOwn s c m bytes).audit = s.audit := by
  unfold commitOwn
  split
  · exact ⟨rfl, rfl⟩
  · by_cases hm : mvOp m.desc = 4 <;>
      simp only [hm, if_true, if_false, ite_pending, ite_audit, failMove_quiet, sweepMoves_quiet, tallyLanding_quiet, State.setTransfer_quiet, State.addEnt_quiet,
        State.modMove_quiet, localWrite_quiet, addUnits_quiet, drainAll_quiet, ite_self, and_self]
theorem commitFar_quiet (s : State) (src : W16) (transfer : W16) (bytes : Nat) : (commitFar s src transfer bytes).pending = s.pending ∧ (commitFar s src transfer bytes).audit = s.audit := by
  unfold commitFar
  repeat' first
    | (simp only [Quiet, and_self, localWrite_quiet, tallyLanding_quiet, drainAll_quiet, answered_quiet, sendAck_quiet]; done)
    | (rename_i h; obtain ⟨h1, h2⟩ := Prod.ext_iff.1 h; clear h; (try simp only at h1 h2); (try subst h1); (try subst h2); (try simp only [Quiet, and_self, localWrite_quiet, tallyLanding_quiet, drainAll_quiet, answered_quiet, sendAck_quiet]))
    | simp only [Quiet, and_self, localWrite_quiet, tallyLanding_quiet, drainAll_quiet, answered_quiet, sendAck_quiet]
    | (with_reducible refine Quiet.trans ?_ (foldl_quiet _ ?_ _ _))
    | (with_reducible refine Quiet.trans ?_ (foldl_quiet_snd _ ?_ _ _))
    | (with_reducible refine Quiet.trans ?_ (foldl_quiet_fst _ ?_ _ _))
    | (intro _ _)
    | split
theorem acceptShape_quiet (s : State) (c : Nat) (slot : Nat) (d : Reg) (v : W32) : (acceptShape s c slot d v).pending = s.pending ∧ (acceptShape s c slot d v).audit = s.audit := by
  simp only [acceptShape, ite_pending, ite_audit, ite_self, and_self, shapeOver_quiet, endWait_quiet]
theorem requestFailed_quiet (s : State) (r : Request) (status : Nat) : (requestFailed s r status).pending = s.pending ∧ (requestFailed s r status).audit = s.audit := by
  unfold requestFailed
  repeat' first
    | (simp only [Quiet, and_self, routeLost_quiet, failMove_quiet, noRoute_quiet, moverFault_quiet]; done)
    | split
theorem readDone_quiet (s : State) (r : Request) (b : List Byte) : (readDone s r b).pending = s.pending ∧ (readDone s r b).audit = s.audit := by
  unfold readDone
  repeat' first
    | (simp only [Quiet, and_self, State.modCore_quiet, State.modMove_quiet, completeRead_quiet]; done)
    | (rename_i h; obtain ⟨h1, h2⟩ := Prod.ext_iff.1 h; clear h; (try simp only at h1 h2); (try subst h1); (try subst h2); (try simp only [Quiet, and_self, State.modCore_quiet, State.modMove_quiet, completeRead_quiet]))
    | simp only [Quiet, and_self, State.modCore_quiet, State.modMove_quiet, completeRead_quiet]
    | (with_reducible refine Quiet.trans ?_ (foldl_quiet _ ?_ _ _))
    | (with_reducible refine Quiet.trans ?_ (foldl_quiet_snd _ ?_ _ _))
    | (with_reducible refine Quiet.trans ?_ (foldl_quiet_fst _ ?_ _ _))
    | (intro _ _)
    | split
theorem dropRequest_quiet (s : State) (tag : Nat) : (dropRequest s tag).pending = s.pending ∧ (dropRequest s tag).audit = s.audit := by
  simp only [dropRequest, and_self]
theorem State.setStream_quiet (s : State) (k : Nat) (x : Stream) : (State.setStream s k x).pending = s.pending ∧ (State.setStream s k x).audit = s.audit := by
  simp only [State.setStream, and_self]
theorem State.modStream_quiet (s : State) (k : Nat) (f : Stream → Stream) : (State.modStream s k f).pending = s.pending ∧ (State.modStream s k f).audit = s.audit := by
  simp only [State.modStream, and_self, State.setStream_quiet]
theorem readTables_quiet (s : State) (k : Nat) (p : List Byte) : (readTables s k p).pending = s.pending ∧ (readTables s k p).audit = s.audit := by
  simp only [readTables, Quiet, and_self, readRanges_quiet]
theorem enableStream_quiet (s : State) (k : Nat) : (enableStream s k).2.pending = s.pending ∧ (enableStream s k).2.audit = s.audit := by
  unfold enableStream
  dsimp only
  split
  · exact ⟨rfl, rfl⟩
  · generalize hp : (if inHbm (s.strm k 6) 2048 then readRanges s [(s.strm k 6, 2048)] else s) = p
    have h : Quiet s p := by
      subst hp
      split
      · exact readRanges_quiet ..
      · exact ⟨rfl, rfl⟩
    refine Quiet.trans h ?_
    split
    · simp only [Quiet, State.setStream_quiet, clearEnts_quiet, State.setEnt_quiet, readTables_quiet, and_self]
    · simp only [Quiet, State.raise_quiet, and_self]
theorem freePipes_quiet (s : State) (k : Nat) : (freePipes s k).pending = s.pending ∧ (freePipes s k).audit = s.audit := by
  simp only [freePipes, and_self]
theorem disableStream_quiet (s : State) (k : Nat) : (disableStream s k).2.pending = s.pending ∧ (disableStream s k).2.audit = s.audit := by
  unfold disableStream
  repeat' first
    | (simp only [Quiet, and_self, State.setStream_quiet, State.setEnt_quiet, freePipes_quiet, countCuts_quiet]; done)
    | split
theorem settle_quiet (s : State) (k : Nat) : (settle s k).pending = s.pending ∧ (settle s k).audit = s.audit := by
  simp only [settle, and_self, State.setEnt_quiet, State.setStream_quiet]
theorem oweReleases_quiet (s : State) (k : Nat) (n : Nat) : (oweReleases s k n).pending = s.pending ∧ (oweReleases s k n).audit = s.audit := by
  simp only [oweReleases, and_self, settle_quiet, State.modStream_quiet]
theorem oweStep_quiet (s : State) : (oweStep s).pending = s.pending ∧ (oweStep s).audit = s.audit := by
  unfold oweStep
  repeat' first
    | (simp only [Quiet, and_self, oweReleases_quiet]; done)
    | (rename_i h; obtain ⟨h1, h2⟩ := Prod.ext_iff.1 h; clear h; (try simp only at h1 h2); (try subst h1); (try subst h2); (try simp only [Quiet, and_self, oweReleases_quiet]))
    | simp only [Quiet, and_self, oweReleases_quiet]
    | (with_reducible refine Quiet.trans ?_ (foldl_quiet _ ?_ _ _))
    | (with_reducible refine Quiet.trans ?_ (foldl_quiet_snd _ ?_ _ _))
    | (with_reducible refine Quiet.trans ?_ (foldl_quiet_fst _ ?_ _ _))
    | (intro _ _)
    | split
theorem releaseBatches_quiet (s : State) (k : Nat) (n : Nat) : (releaseBatches s k n).2.pending = s.pending ∧ (releaseBatches s k n).2.audit = s.audit := by
  unfold releaseBatches
  repeat' first
    | (simp only [Quiet, and_self, oweReleases_quiet]; done)
    | split
theorem deliver_quiet (s : State) (k : Nat) (number : Nat) : (deliver s k number).pending = s.pending ∧ (deliver s k number).audit = s.audit := by
  unfold deliver
  repeat' first
    | (simp only [Quiet, and_self, incSem_quiet, State.modStream_quiet]; done)
    | (rename_i h; obtain ⟨h1, h2⟩ := Prod.ext_iff.1 h; clear h; (try simp only at h1 h2); (try subst h1); (try subst h2); (try simp only [Quiet, and_self, incSem_quiet, State.modStream_quiet]))
    | simp only [Quiet, and_self, incSem_quiet, State.modStream_quiet]
    | (with_reducible refine Quiet.trans ?_ (foldl_quiet _ ?_ _ _))
    | (with_reducible refine Quiet.trans ?_ (foldl_quiet_snd _ ?_ _ _))
    | (with_reducible refine Quiet.trans ?_ (foldl_quiet_fst _ ?_ _ _))
    | (intro _ _)
    | split
theorem deliverStream_quiet (s : State) (k : Nat) : (deliverStream s k).pending = s.pending ∧ (deliverStream s k).audit = s.audit := by
  unfold deliverStream
  repeat' first
    | (simp only [Quiet, and_self, deliver_quiet]; done)
    | (rename_i h; obtain ⟨h1, h2⟩ := Prod.ext_iff.1 h; clear h; (try simp only at h1 h2); (try subst h1); (try subst h2); (try simp only [Quiet, and_self, deliver_quiet]))
    | simp only [Quiet, and_self, deliver_quiet]
    | (with_reducible refine Quiet.trans ?_ (foldl_quiet _ ?_ _ _))
    | (with_reducible refine Quiet.trans ?_ (foldl_quiet_snd _ ?_ _ _))
    | (with_reducible refine Quiet.trans ?_ (foldl_quiet_fst _ ?_ _ _))
    | (intro _ _)
    | split
theorem deliverAll_quiet (s : State) (resume : Bool) : (deliverAll s resume).pending = s.pending ∧ (deliverAll s resume).audit = s.audit := by
  unfold deliverAll
  repeat' first
    | (simp only [Quiet, and_self, State.modStream_quiet, deliverStream_quiet]; done)
    | (rename_i h; obtain ⟨h1, h2⟩ := Prod.ext_iff.1 h; clear h; (try simp only at h1 h2); (try subst h1); (try subst h2); (try simp only [Quiet, and_self, State.modStream_quiet, deliverStream_quiet]))
    | simp only [Quiet, and_self, State.modStream_quiet, deliverStream_quiet]
    | (with_reducible refine Quiet.trans ?_ (foldl_quiet _ ?_ _ _))
    | (with_reducible refine Quiet.trans ?_ (foldl_quiet_snd _ ?_ _ _))
    | (with_reducible refine Quiet.trans ?_ (foldl_quiet_fst _ ?_ _ _))
    | (intro _ _)
    | split
theorem stopStream_quiet (s : State) (k : Nat) : (stopStream s k).pending = s.pending ∧ (stopStream s k).audit = s.audit := by
  simp only [stopStream, ite_pending, ite_audit, ite_self, and_self, State.raise_quiet, State.modStream_quiet, abortRun_quiet]
theorem publishedAt_quiet (s : State) (base : Nat) : (publishedAt s base).2.pending = s.pending ∧ (publishedAt s base).2.audit = s.audit := by
  simp only [publishedAt, and_self, localRead_quiet]
theorem readDesc_quiet (s : State) (k : Nat) (reserve : Bool) (i : Nat) : (readDesc s k reserve i).2.1.pending = s.pending ∧ (readDesc s k reserve i).2.1.audit = s.audit := by
  unfold readDesc
  repeat' first
    | (simp only [Quiet, and_self, localRead_quiet]; done)
    | split
theorem checkSample_quiet (s : State) (k : Nat) (d : List Byte) (lost : Bool) : (checkSample s k d lost).2.pending = s.pending ∧ (checkSample s k d lost).2.audit = s.audit := by
  unfold checkSample
  repeat' first
    | (simp only [Quiet, and_self, localRead_quiet]; done)
    | (rename_i h; obtain ⟨h1, h2⟩ := Prod.ext_iff.1 h; clear h; (try simp only at h1 h2); (try subst h1); (try subst h2); (try simp only [Quiet, and_self, localRead_quiet]))
    | simp only [Quiet, and_self, localRead_quiet]
    | (with_reducible refine Quiet.trans ?_ (foldl_quiet _ ?_ _ _))
    | (with_reducible refine Quiet.trans ?_ (foldl_quiet_snd _ ?_ _ _))
    | (with_reducible refine Quiet.trans ?_ (foldl_quiet_fst _ ?_ _ _))
    | (intro _ _)
    | split
theorem sampleEvent_quiet (s : State) (k : Nat) (x : Sample) (code : Nat) (reason : Nat) (status : Nat) : (sampleEvent s k x code reason status).pending = s.pending ∧ (sampleEvent s k x code reason status).audit = s.audit := by
  simp only [sampleEvent, ite_pending, ite_audit, ite_self, and_self, State.raise_quiet, State.modStream_quiet]
theorem State.setPipe_quiet (s : State) (p : Nat) (v : Nat × Nat × Nat) : (State.setPipe s p v).pending = s.pending ∧ (State.setPipe s p v).audit = s.audit := by
  simp only [State.setPipe, and_self]
theorem failAttempt_quiet (s : State) (k : Nat) (x : Sample) (reason : Nat) (timedOut : Bool) : (failAttempt s k x reason timedOut).1.pending = s.pending ∧ (failAttempt s k x reason timedOut).1.audit = s.audit := by
  unfold failAttempt
  repeat' first
    | (simp only [Quiet, and_self, State.addEnt_quiet, readDesc_quiet, State.modStream_quiet, State.raise_quiet, sampleEvent_quiet]; done)
    | (rename_i h; obtain ⟨h1, h2⟩ := Prod.ext_iff.1 h; clear h; (try simp only at h1 h2); (try subst h1); (try subst h2); (try simp only [Quiet, and_self, State.addEnt_quiet, readDesc_quiet, State.modStream_quiet, State.raise_quiet, sampleEvent_quiet]))
    | simp only [Quiet, and_self, State.addEnt_quiet, readDesc_quiet, State.modStream_quiet, State.raise_quiet, sampleEvent_quiet]
    | (with_reducible refine Quiet.trans ?_ (foldl_quiet _ ?_ _ _))
    | (with_reducible refine Quiet.trans ?_ (foldl_quiet_snd _ ?_ _ _))
    | (with_reducible refine Quiet.trans ?_ (foldl_quiet_fst _ ?_ _ _))
    | (intro _ _)
    | split
theorem dispatchAttempt_quiet (n : Nat) (s : State) (k : Nat) (x : Sample) :
    (dispatchAttempt n s k x).pending = s.pending ∧ (dispatchAttempt n s k x).audit = s.audit := by
  induction n generalizing s x with
  | zero => exact State.modStream_quiet ..
  | succ n ih =>
    unfold dispatchAttempt
    simp only
    repeat' first
      | (simp only [ih, and_self, State.modStream_quiet, State.setPipe_quiet, checkSample_quiet, failAttempt_quiet]; done)
      | (rename_i h; obtain ⟨h1, h2⟩ := Prod.ext_iff.1 h; clear h; (try simp only at h1 h2); (try subst h1); (try subst h2))
      | split
theorem noteRingWait_quiet (s : State) (k : Nat) : (noteRingWait s k).pending = s.pending ∧ (noteRingWait s k).audit = s.audit := by
  simp only [noteRingWait, ite_pending, ite_audit, ite_self, and_self, State.addEnt_quiet, State.modStream_quiet]
theorem dispatchStream_quiet (s : State) (k : Nat) : (dispatchStream s k).pending = s.pending ∧ (dispatchStream s k).audit = s.audit := by
  unfold dispatchStream
  repeat' first
    | (simp only [Quiet, and_self, dispatchAttempt_quiet, readDesc_quiet, State.setEnt_quiet, State.setStream_quiet]; done)
    | (rename_i h; obtain ⟨h1, h2⟩ := Prod.ext_iff.1 h; clear h; (try simp only at h1 h2); (try subst h1); (try subst h2); (try simp only [Quiet, and_self, dispatchAttempt_quiet, readDesc_quiet, State.setEnt_quiet, State.setStream_quiet]))
    | simp only [Quiet, and_self, dispatchAttempt_quiet, readDesc_quiet, State.setEnt_quiet, State.setStream_quiet]
    | (with_reducible refine Quiet.trans ?_ (foldl_quiet _ ?_ _ _))
    | (with_reducible refine Quiet.trans ?_ (foldl_quiet_snd _ ?_ _ _))
    | (with_reducible refine Quiet.trans ?_ (foldl_quiet_fst _ ?_ _ _))
    | (intro _ _)
    | split
theorem freeAttempt_quiet (s : State) (x : Sample) : (freeAttempt s x).pending = s.pending ∧ (freeAttempt s x).audit = s.audit := by
  unfold freeAttempt
  repeat' first
    | (simp only [Quiet, and_self, State.setPipe_quiet]; done)
    | split
theorem failDecode_quiet (s : State) (k : Nat) (x : Sample) (reason : Nat) (timedOut : Bool) : (failDecode s k x reason timedOut).pending = s.pending ∧ (failDecode s k x reason timedOut).audit = s.audit := by
  simp only [failDecode, ite_pending, ite_audit, ite_self, and_self, freeAttempt_quiet, failAttempt_quiet, State.modStream_quiet, dispatchAttempt_quiet]
theorem countClip_quiet (s : State) (k : Nat) (x : Sample) (src : List Byte) : (countClip s k x src).pending = s.pending ∧ (countClip s k x src).audit = s.audit := by
  unfold countClip
  split
  · exact ⟨rfl, rfl⟩
  · simp only [and_self, State.addEnt_quiet]
theorem countStopped_quiet (s : State) (x : Sample) : (countStopped s x).pending = s.pending ∧ (countStopped s x).audit = s.audit := by
  unfold countStopped
  split
  · exact ⟨rfl, rfl⟩
  · simp only [and_self, State.addEnt_quiet, drawNat_quiet]
theorem sampleRead_quiet (s : State) (k : Nat) (d : List Byte) : (sampleRead s k d).2.1.pending = s.pending ∧ (sampleRead s k d).2.1.audit = s.audit := by
  simp only [sampleRead, Quiet, and_self, localRead_quiet, sramReadCheck_quiet, readRanges_quiet, hcheck_quiet]
theorem completeBatch_quiet (s : State) (k : Nat) (b : Batch) : (completeBatch s k b).pending = s.pending ∧ (completeBatch s k b).audit = s.audit := by
  simp only [completeBatch, and_self, localWrite_quiet, State.addEnt_quiet, State.modStream_quiet, settle_quiet, deliver_quiet]
theorem emitSample_quiet (s : State) (k : Nat) (x : Sample) : (emitSample s k x).pending = s.pending ∧ (emitSample s k x).audit = s.audit := by
  unfold emitSample
  repeat' first
    | (simp only [Quiet, and_self, localWrite_quiet, State.addEnt_quiet, sampleEvent_quiet, State.modStream_quiet, State.setEnt_quiet, completeBatch_quiet]; done)
    | (rename_i h; obtain ⟨h1, h2⟩ := Prod.ext_iff.1 h; clear h; (try simp only at h1 h2); (try subst h1); (try subst h2); (try simp only [Quiet, and_self, localWrite_quiet, State.addEnt_quiet, sampleEvent_quiet, State.modStream_quiet, State.setEnt_quiet, completeBatch_quiet]))
    | simp only [Quiet, and_self, localWrite_quiet, State.addEnt_quiet, sampleEvent_quiet, State.modStream_quiet, State.setEnt_quiet, completeBatch_quiet]
    | (with_reducible refine Quiet.trans ?_ (foldl_quiet _ ?_ _ _))
    | (with_reducible refine Quiet.trans ?_ (foldl_quiet_snd _ ?_ _ _))
    | (with_reducible refine Quiet.trans ?_ (foldl_quiet_fst _ ?_ _ _))
    | (intro _ _)
    | split
theorem refuseEncode_quiet (s : State) (o : Origin) (ctx : Nat) (offset : Nat) : (refuseEncode s o ctx offset).pending = s.pending ∧ (refuseEncode s o ctx offset).audit = s.audit := by
  unfold refuseEncode
  repeat' first
    | (simp only [Quiet, and_self, State.raise_quiet, State.addEnt_quiet, State.setEnt_quiet, abortRun_quiet]; done)
    | (rename_i h; obtain ⟨h1, h2⟩ := Prod.ext_iff.1 h; clear h; (try simp only at h1 h2); (try subst h1); (try subst h2); (try simp only [Quiet, and_self, State.raise_quiet, State.addEnt_quiet, State.setEnt_quiet, abortRun_quiet]))
    | simp only [Quiet, and_self, State.raise_quiet, State.addEnt_quiet, State.setEnt_quiet, abortRun_quiet]
    | (with_reducible refine Quiet.trans ?_ (foldl_quiet _ ?_ _ _))
    | (with_reducible refine Quiet.trans ?_ (foldl_quiet_snd _ ?_ _ _))
    | (with_reducible refine Quiet.trans ?_ (foldl_quiet_fst _ ?_ _ _))
    | (intro _ _)
    | split
theorem State.setCtx_quiet (s : State) (c : Nat) (x : Option EncCtx) : (State.setCtx s c x).pending = s.pending ∧ (State.setCtx s c x).audit = s.audit := by
  simp only [State.setCtx, and_self]
theorem takeEncode_quiet (s : State) (p : Nat) : (takeEncode s p).pending = s.pending ∧ (takeEncode s p).audit = s.audit := by
  unfold takeEncode
  repeat' first
    | (simp only [Quiet, and_self, State.addEnt_quiet, State.setCtx_quiet]; done)
    | (rename_i h; obtain ⟨h1, h2⟩ := Prod.ext_iff.1 h; clear h; (try simp only at h1 h2); (try subst h1); (try subst h2); (try simp only [Quiet, and_self, State.addEnt_quiet, State.setCtx_quiet]))
    | simp only [Quiet, and_self, State.addEnt_quiet, State.setCtx_quiet]
    | (with_reducible refine Quiet.trans ?_ (foldl_quiet _ ?_ _ _))
    | (with_reducible refine Quiet.trans ?_ (foldl_quiet_snd _ ?_ _ _))
    | (with_reducible refine Quiet.trans ?_ (foldl_quiet_fst _ ?_ _ _))
    | (intro _ _)
    | split
theorem takeBoth_quiet (s : State) (p : Nat) : (takeBoth s p).pending = s.pending ∧ (takeBoth s p).audit = s.audit := by
  simp only [takeBoth, Quiet, and_self, takeEncode_quiet]
theorem takeEncodes_quiet (s : State) : (takeEncodes s).pending = s.pending ∧ (takeEncodes s).audit = s.audit := by
  simp only [takeEncodes, Quiet, and_self, takeBoth_quiet]
theorem planarFrame_quiet (s : State) (d : List Byte) (f : Nat) : (planarFrame s d f).2.1.pending = s.pending ∧ (planarFrame s d f).2.1.audit = s.audit := by
  simp only [planarFrame, and_self, localRead_quiet]
theorem endEncode_quiet (s : State) (c : Nat) (x : EncCtx) (status : Nat) : (endEncode s c x status).pending = s.pending ∧ (endEncode s c x status).audit = s.audit := by
  simp only [endEncode, ite_pending, ite_audit, ite_self, and_self, State.setCtx_quiet, State.addEnt_quiet, localWrite_quiet, State.raise_quiet, incSem_quiet]
theorem endIfDone_quiet (s : State) (c : Nat) : (endIfDone s c).pending = s.pending ∧ (endIfDone s c).audit = s.audit := by
  unfold endIfDone
  repeat' first
    | (simp only [Quiet, and_self, endEncode_quiet]; done)
    | split
theorem feedPlanar_quiet (s : State) (c : Nat) : (feedPlanar s c).pending = s.pending ∧ (feedPlanar s c).audit = s.audit := by
  unfold feedPlanar
  repeat' first
    | (simp only [Quiet, and_self, planarFrame_quiet, State.setCtx_quiet]; done)
    | split
theorem encodeCommand_quiet (s : State) (o : Origin) (b : List Byte) (d : List Byte) : (encodeCommand s o b d).2.pending = s.pending ∧ (encodeCommand s o b d).2.audit = s.audit := by
  unfold encodeCommand
  repeat' first
    | (simp only [Quiet, and_self, refuseEncode_quiet, takeEncodes_quiet, endIfDone_quiet, feedPlanar_quiet, State.setCtx_quiet]; done)
    | split
theorem frameDone_quiet (s : State) (c : Nat) (x : EncCtx) (f : List Nat × List Nat × List Nat) : (frameDone s c x f).pending = s.pending ∧ (frameDone s c x f).audit = s.audit := by
  simp only [frameDone, ite_pending, ite_audit, ite_self, and_self, endEncode_quiet, localWrite_quiet, endIfDone_quiet, feedPlanar_quiet, State.setCtx_quiet]
theorem tooSoon_quiet (s : State) (start : FTime) (shortfall : Nat) (cause : Nat) : (tooSoon s start shortfall cause).pending = s.pending ∧ (tooSoon s start shortfall cause).audit = s.audit := by
  simp only [tooSoon, and_self, State.raise_quiet]
theorem armingWrite_quiet (s : State) (start : FTime) : (armingWrite s start).2.pending = s.pending ∧ (armingWrite s start).2.audit = s.audit := by
  unfold armingWrite
  repeat' first
    | (simp only [Quiet, and_self, tooSoon_quiet, State.enterEff_quiet, State.setEnt_quiet]; done)
    | (rename_i h; obtain ⟨h1, h2⟩ := Prod.ext_iff.1 h; clear h; (try simp only at h1 h2); (try subst h1); (try subst h2); (try simp only [Quiet, and_self, tooSoon_quiet, State.enterEff_quiet, State.setEnt_quiet]))
    | simp only [Quiet, and_self, tooSoon_quiet, State.enterEff_quiet, State.setEnt_quiet]
    | (with_reducible refine Quiet.trans ?_ (foldl_quiet _ ?_ _ _))
    | (with_reducible refine Quiet.trans ?_ (foldl_quiet_snd _ ?_ _ _))
    | (with_reducible refine Quiet.trans ?_ (foldl_quiet_fst _ ?_ _ _))
    | (intro _ _)
    | split
theorem tabAddressWrite_quiet (s : State) (v : Nat) : (tabAddressWrite s v).2.pending = s.pending ∧ (tabAddressWrite s v).2.audit = s.audit := by
  unfold tabAddressWrite
  repeat' first
    | (simp only [Quiet, and_self, State.setEnt_quiet]; done)
    | split
theorem pauseCommand_quiet (s : State) : (pauseCommand s).2.pending = s.pending ∧ (pauseCommand s).2.audit = s.audit := by
  unfold pauseCommand
  repeat' first
    | (simp only [Quiet, and_self, State.raise_quiet, State.setEnt_quiet]; done)
    | split
theorem leavePause_quiet (s : State) : (leavePause s).pending = s.pending ∧ (leavePause s).audit = s.audit := by
  simp only [leavePause, and_self, State.setOct_quiet, State.enterEff_quiet]
theorem abortCommand_quiet (s : State) : (abortCommand s).2.pending = s.pending ∧ (abortCommand s).2.audit = s.audit := by
  unfold abortCommand
  repeat' first
    | (simp only [Quiet, and_self, State.setEnt_quiet, cancelArming_quiet, abortRun_quiet, State.raise_quiet, leavePause_quiet]; done)
    | split
theorem selectArming_quiet (s : State) (v : Nat) : (selectArming s v).pending = s.pending ∧ (selectArming s v).audit = s.audit := by
  simp only [selectArming, and_self, State.setEnt_quiet]
theorem programCommand_quiet (s : State) (v : Nat) : (programCommand s v).2.pending = s.pending ∧ (programCommand s v).2.audit = s.audit := by
  unfold programCommand
  repeat' first
    | (simp only [Quiet, and_self, State.setEnt_quiet, selectArming_quiet, pauseCommand_quiet, abortCommand_quiet]; done)
    | split
theorem refuseArming_quiet (s : State) (b : Bad) : (refuseArming s b).pending = s.pending ∧ (refuseArming s b).audit = s.audit := by
  simp only [refuseArming, and_self, State.setEnt_quiet, State.raise_quiet, cancelArming_quiet]
theorem loadCores_quiet (s : State) (l : List (Nat × ProgramImg)) : (loadCores s l).pending = s.pending ∧ (loadCores s l).audit = s.audit := by
  unfold loadCores
  repeat' first
    | (simp only [Quiet, and_self, State.modCore_quiet, freshSram_quiet]; done)
    | (rename_i h; obtain ⟨h1, h2⟩ := Prod.ext_iff.1 h; clear h; (try simp only at h1 h2); (try subst h1); (try subst h2); (try simp only [Quiet, and_self, State.modCore_quiet, freshSram_quiet]))
    | simp only [Quiet, and_self, State.modCore_quiet, freshSram_quiet]
    | (with_reducible refine Quiet.trans ?_ (foldl_quiet _ ?_ _ _))
    | (with_reducible refine Quiet.trans ?_ (foldl_quiet_snd _ ?_ _ _))
    | (with_reducible refine Quiet.trans ?_ (foldl_quiet_fst _ ?_ _ _))
    | (intro _ _)
    | split
theorem showTab_quiet (s : State) (base : Nat) (origin : Nat) : (showTab s base origin).pending = s.pending ∧ (showTab s base origin).audit = s.audit := by
  unfold showTab
  repeat' first
    | (simp only [Quiet, and_self, clearEnts_quiet, State.setEnt_quiet]; done)
    | (rename_i h; obtain ⟨h1, h2⟩ := Prod.ext_iff.1 h; clear h; (try simp only at h1 h2); (try subst h1); (try subst h2); (try simp only [Quiet, and_self, clearEnts_quiet, State.setEnt_quiet]))
    | simp only [Quiet, and_self, clearEnts_quiet, State.setEnt_quiet]
    | (with_reducible refine Quiet.trans ?_ (foldl_quiet _ ?_ _ _))
    | (with_reducible refine Quiet.trans ?_ (foldl_quiet_snd _ ?_ _ _))
    | (with_reducible refine Quiet.trans ?_ (foldl_quiet_fst _ ?_ _ _))
    | (intro _ _)
    | split
theorem loadTab_quiet (s : State) (base : Nat) : (loadTab s base).pending = s.pending ∧ (loadTab s base).audit = s.audit := by
  unfold loadTab
  dsimp only
  simp only [showTab_quiet]
  split <;> simp only [ite_pending, ite_audit, loadCores_quiet, State.setOct_quiet, ite_self, and_self]
theorem hashTab_quiet (s : State) (base : Nat) : (hashTab s base).pending = s.pending ∧ (hashTab s base).audit = s.audit := by
  simp only [hashTab, Quiet, and_self, readRanges_quiet]
theorem owedMeasured_quiet (s : State) (base : Nat) : (owedMeasured s base).pending = s.pending ∧ (owedMeasured s base).audit = s.audit := by
  simp only [owedMeasured, ite_pending, ite_audit, ite_self, Quiet, and_self, State.setOct_quiet, hashTab_quiet]
theorem runMeasured_quiet (s : State) : (runMeasured s).pending = s.pending ∧ (runMeasured s).audit = s.audit := by
  simp only [runMeasured, ite_pending, ite_audit, ite_self, Quiet, and_self, hashTab_quiet, State.setOct_quiet]
theorem forcePorts_quiet (s : State) (offset : Nat) : (forcePorts s offset).pending = s.pending ∧ (forcePorts s offset).audit = s.audit := by
  unfold forcePorts
  repeat' first
    | (simp only [Quiet, and_self, State.modPort_quiet]; done)
    | (rename_i h; obtain ⟨h1, h2⟩ := Prod.ext_iff.1 h; clear h; (try simp only at h1 h2); (try subst h1); (try subst h2); (try simp only [Quiet, and_self, State.modPort_quiet]))
    | simp only [Quiet, and_self, State.modPort_quiet]
    | (with_reducible refine Quiet.trans ?_ (foldl_quiet _ ?_ _ _))
    | (with_reducible refine Quiet.trans ?_ (foldl_quiet_snd _ ?_ _ _))
    | (with_reducible refine Quiet.trans ?_ (foldl_quiet_fst _ ?_ _ _))
    | (intro _ _)
    | split
theorem showCapo_quiet (s : State) : (showCapo s).pending = s.pending ∧ (showCapo s).audit = s.audit := by
  simp only [showCapo, and_self, State.setEnt_quiet]
theorem resumeCores_quiet (s : State) : (resumeCores s).pending = s.pending ∧ (resumeCores s).audit = s.audit := by
  unfold resumeCores
  repeat' first
    | (simp only [Quiet, and_self, freshSram_quiet, readRanges_quiet, State.setCore_quiet]; done)
    | (rename_i h; obtain ⟨h1, h2⟩ := Prod.ext_iff.1 h; clear h; (try simp only at h1 h2); (try subst h1); (try subst h2); (try simp only [Quiet, and_self, freshSram_quiet, readRanges_quiet, State.setCore_quiet]))
    | simp only [Quiet, and_self, freshSram_quiet, readRanges_quiet, State.setCore_quiet]
    | (with_reducible refine Quiet.trans ?_ (foldl_quiet _ ?_ _ _))
    | (with_reducible refine Quiet.trans ?_ (foldl_quiet_snd _ ?_ _ _))
    | (with_reducible refine Quiet.trans ?_ (foldl_quiet_fst _ ?_ _ _))
    | (intro _ _)
    | split
theorem startCores_quiet (s : State) : (startCores s).pending = s.pending ∧ (startCores s).audit = s.audit := by
  unfold startCores
  repeat' first
    | (simp only [Quiet, and_self, touchSram_quiet, State.setCore_quiet]; done)
    | (rename_i h; obtain ⟨h1, h2⟩ := Prod.ext_iff.1 h; clear h; (try simp only at h1 h2); (try subst h1); (try subst h2); (try simp only [Quiet, and_self, touchSram_quiet, State.setCore_quiet]))
    | simp only [Quiet, and_self, touchSram_quiet, State.setCore_quiet]
    | (with_reducible refine Quiet.trans ?_ (foldl_quiet _ ?_ _ _))
    | (with_reducible refine Quiet.trans ?_ (foldl_quiet_snd _ ?_ _ _))
    | (with_reducible refine Quiet.trans ?_ (foldl_quiet_fst _ ?_ _ _))
    | (intro _ _)
    | split
theorem reach_quiet (s : State) (t : Nat) : (reach s t).pending = s.pending ∧ (reach s t).audit = s.audit := by
  simp only [reach, ite_pending, ite_audit, ite_self, and_self]
theorem stagedLate_quiet (s : State) : (stagedLate s).pending = s.pending ∧ (stagedLate s).audit = s.audit := by
  unfold stagedLate
  repeat' first
    | (simp only [Quiet, and_self, collFault_quiet]; done)
    | split
theorem switchPorts_quiet (s : State) (slot : Nat) (mask : BitVec 48) (t : Nat) : (switchPorts s slot mask t).pending = s.pending ∧ (switchPorts s slot mask t).audit = s.audit := by
  unfold switchPorts
  repeat' first
    | (simp only [Quiet, and_self, State.modPort_quiet, State.setCsend_quiet]; done)
    | (rename_i h; obtain ⟨h1, h2⟩ := Prod.ext_iff.1 h; clear h; (try simp only at h1 h2); (try subst h1); (try subst h2); (try simp only [Quiet, and_self, State.modPort_quiet, State.setCsend_quiet]))
    | simp only [Quiet, and_self, State.modPort_quiet, State.setCsend_quiet]
    | (with_reducible refine Quiet.trans ?_ (foldl_quiet _ ?_ _ _))
    | (with_reducible refine Quiet.trans ?_ (foldl_quiet_snd _ ?_ _ _))
    | (with_reducible refine Quiet.trans ?_ (foldl_quiet_fst _ ?_ _ _))
    | (intro _ _)
    | split
theorem passCapo_quiet (s : State) : (passCapo s).pending = s.pending ∧ (passCapo s).audit = s.audit := by
  simp only [passCapo, and_self, showCapo_quiet]
theorem walkReads_quiet (s : State) : (walkReads s).1.pending = s.pending ∧ (walkReads s).1.audit = s.audit := by
  unfold walkReads
  repeat' first
    | (simp only [Quiet, and_self, memRead_quiet]; done)
    | (rename_i h; obtain ⟨h1, h2⟩ := Prod.ext_iff.1 h; clear h; (try simp only at h1 h2); (try subst h1); (try subst h2); (try simp only [Quiet, and_self, memRead_quiet]))
    | simp only [Quiet, and_self, memRead_quiet]
    | (with_reducible refine Quiet.trans ?_ (foldl_quiet _ ?_ _ _))
    | (with_reducible refine Quiet.trans ?_ (foldl_quiet_snd _ ?_ _ _))
    | (with_reducible refine Quiet.trans ?_ (foldl_quiet_fst _ ?_ _ _))
    | (intro _ _)
    | split
theorem scaleCommitted_quiet (s : State) : (scaleCommitted s).pending = s.pending ∧ (scaleCommitted s).audit = s.audit := by
  simp only [scaleCommitted, ite_pending, ite_audit, ite_self, and_self, State.setEnt_quiet]
theorem scaleSkipped_quiet (s : State) : (scaleSkipped s).pending = s.pending ∧ (scaleSkipped s).audit = s.audit := by
  simp only [scaleSkipped, ite_pending, ite_audit, ite_self, and_self, State.setEnt_quiet, State.raise_quiet]
theorem commitStep_quiet (s : State) (repaired : Bool) : (commitStep s repaired).pending = s.pending ∧ (commitStep s repaired).audit = s.audit := by
  simp only [commitStep, and_self, State.setEnt_quiet, scaleCommitted_quiet]
theorem skipStep_quiet (s : State) : (skipStep s).pending = s.pending ∧ (skipStep s).audit = s.audit := by
  simp only [skipStep, and_self, scaleSkipped_quiet, State.setEnt_quiet, State.addEnt_quiet, State.raise_quiet]
theorem exportSlot_quiet (s : State) (slot : Nat) : (exportSlot s slot).pending = s.pending ∧ (exportSlot s slot).audit = s.audit := by
  unfold exportSlot
  repeat' first
    | (simp only [Quiet, and_self, State.setEnt_quiet, State.raise_quiet]; done)
    | (rename_i h; obtain ⟨h1, h2⟩ := Prod.ext_iff.1 h; clear h; (try simp only at h1 h2); (try subst h1); (try subst h2); (try simp only [Quiet, and_self, State.setEnt_quiet, State.raise_quiet]))
    | simp only [Quiet, and_self, State.setEnt_quiet, State.raise_quiet]
    | (with_reducible refine Quiet.trans ?_ (foldl_quiet _ ?_ _ _))
    | (with_reducible refine Quiet.trans ?_ (foldl_quiet_snd _ ?_ _ _))
    | (with_reducible refine Quiet.trans ?_ (foldl_quiet_fst _ ?_ _ _))
    | (intro _ _)
    | split
theorem exportNumeric_quiet (s : State) (c : Nat) (committed : Bool) : (exportNumeric s c committed).pending = s.pending ∧ (exportNumeric s c committed).audit = s.audit := by
  unfold exportNumeric
  repeat' first
    | (simp only [Quiet, and_self, exportSlot_quiet, State.setEnt_quiet, State.addEnt_quiet]; done)
    | (rename_i h; obtain ⟨h1, h2⟩ := Prod.ext_iff.1 h; clear h; (try simp only at h1 h2); (try subst h1); (try subst h2); (try simp only [Quiet, and_self, exportSlot_quiet, State.setEnt_quiet, State.addEnt_quiet]))
    | simp only [Quiet, and_self, exportSlot_quiet, State.setEnt_quiet, State.addEnt_quiet]
    | (with_reducible refine Quiet.trans ?_ (foldl_quiet _ ?_ _ _))
    | (with_reducible refine Quiet.trans ?_ (foldl_quiet_snd _ ?_ _ _))
    | (with_reducible refine Quiet.trans ?_ (foldl_quiet_fst _ ?_ _ _))
    | (intro _ _)
    | split
theorem exportStages_quiet (s : State) : (exportStages s).pending = s.pending ∧ (exportStages s).audit = s.audit := by
  unfold exportStages
  repeat' first
    | (simp only [Quiet, and_self, State.setEnt_quiet]; done)
    | (rename_i h; obtain ⟨h1, h2⟩ := Prod.ext_iff.1 h; clear h; (try simp only at h1 h2); (try subst h1); (try subst h2); (try simp only [Quiet, and_self, State.setEnt_quiet]))
    | simp only [Quiet, and_self, State.setEnt_quiet]
    | (with_reducible refine Quiet.trans ?_ (foldl_quiet _ ?_ _ _))
    | (with_reducible refine Quiet.trans ?_ (foldl_quiet_snd _ ?_ _ _))
    | (with_reducible refine Quiet.trans ?_ (foldl_quiet_fst _ ?_ _ _))
    | (intro _ _)
    | split
theorem endStep_quiet (s : State) (c : Nat) (step : Nat) : (endStep s c step).pending = s.pending ∧ (endStep s c step).audit = s.audit := by
  simp only [endStep, and_self]
theorem pausePoint_quiet (s : State) (c : Nat) : (pausePoint s c).pending = s.pending ∧ (pausePoint s c).audit = s.audit := by
  simp only [pausePoint, ite_pending, ite_audit, ite_self, and_self, openPorts_quiet]
theorem deferAbort_quiet (s : State) (orig : Nat) (reason : Nat) (raise : Nat) (step : Nat) : (deferAbort s orig reason raise step).pending = s.pending ∧ (deferAbort s orig reason raise step).audit = s.audit := by
  simp only [deferAbort, ite_pending, ite_audit, ite_self, and_self, State.raise_quiet, abandon_quiet]
theorem lateAbort_quiet (s : State) (p : Nat) (orig : Nat) (reason : Nat) (raise : Nat) (step : Nat) : (lateAbort s p orig reason raise step).pending = s.pending ∧ (lateAbort s p orig reason raise step).audit = s.audit := by
  simp only [lateAbort, ite_pending, ite_audit, ite_self, Quiet, and_self, floodAbort_quiet, State.setEnt_quiet, deferAbort_quiet, State.addEnt_quiet]
theorem abortingComplete_quiet (s : State) : (abortingComplete s).pending = s.pending ∧ (abortingComplete s).audit = s.audit := by
  simp only [abortingComplete, ite_pending, ite_audit, ite_self, Quiet, and_self, stopRegions_quiet, State.setOct_quiet, State.enterEff_quiet, drainAll_quiet, shedIfDue_quiet]
theorem shardCommand_quiet (s : State) (v : Nat) : (shardCommand s v).2.pending = s.pending ∧ (shardCommand s v).2.audit = s.audit := by
  unfold shardCommand
  repeat' first
    | (simp only [Quiet, and_self, State.setEnt_quiet]; done)
    | split
theorem clearHold_quiet (s : State) (v : Nat) : (clearHold s v).2.pending = s.pending ∧ (clearHold s v).2.audit = s.audit := by
  unfold clearHold
  repeat' first
    | (simp only [Quiet, and_self, State.setEnt_quiet]; done)
    | split
theorem nextSigning_quiet (s : State) : (nextSigning s).pending = s.pending ∧ (nextSigning s).audit = s.audit := by
  simp only [nextSigning, and_self]
theorem wakeFlint_quiet (s : State) : (wakeFlint s).pending = s.pending ∧ (wakeFlint s).audit = s.audit := by
  simp only [wakeFlint, ite_pending, ite_audit, ite_self, and_self, nextSigning_quiet]
theorem signPair_quiet (s : State) (b : List Byte) : (signPair s b).2.pending = s.pending ∧ (signPair s b).2.audit = s.audit := by
  simp only [signPair, and_self]
theorem requestReport_quiet (s : State) (nonce : List Byte) : (requestReport s nonce).2.pending = s.pending ∧ (requestReport s nonce).2.audit = s.audit := by
  unfold requestReport
  repeat' first
    | (simp only [Quiet, and_self, State.setEnt_quiet, wakeFlint_quiet]; done)
    | split
theorem enrollOwner_quiet (s : State) : (enrollOwner s).2.pending = s.pending ∧ (enrollOwner s).2.audit = s.audit := by
  unfold enrollOwner
  repeat' first
    | (simp only [Quiet, and_self, State.setOct_quiet, State.setEnt_quiet]; done)
    | split
theorem newChallenge_quiet (s : State) : (newChallenge s).2.pending = s.pending ∧ (newChallenge s).2.audit = s.audit := by
  simp only [newChallenge, and_self, State.setOct_quiet]
theorem releaseOwner_quiet (s : State) : (releaseOwner s).2.pending = s.pending ∧ (releaseOwner s).2.audit = s.audit := by
  unfold releaseOwner
  repeat' first
    | (simp only [Quiet, and_self, State.setOct_quiet, State.setEnt_quiet, sigFail_quiet]; done)
    | (rename_i h; obtain ⟨h1, h2⟩ := Prod.ext_iff.1 h; clear h; (try simp only at h1 h2); (try subst h1); (try subst h2); (try simp only [Quiet, and_self, State.setOct_quiet, State.setEnt_quiet, sigFail_quiet]))
    | simp only [Quiet, and_self, State.setOct_quiet, State.setEnt_quiet, sigFail_quiet]
    | (with_reducible refine Quiet.trans ?_ (foldl_quiet _ ?_ _ _))
    | (with_reducible refine Quiet.trans ?_ (foldl_quiet_snd _ ?_ _ _))
    | (with_reducible refine Quiet.trans ?_ (foldl_quiet_fst _ ?_ _ _))
    | (intro _ _)
    | split
theorem ownerCommand_quiet (s : State) (v : Nat) : (ownerCommand s v).2.pending = s.pending ∧ (ownerCommand s v).2.audit = s.audit := by
  unfold ownerCommand
  repeat' first
    | (simp only [Quiet, and_self, enrollOwner_quiet, newChallenge_quiet, releaseOwner_quiet]; done)
    | split
theorem imageSource_quiet (s : State) (v : Nat) : (imageSource s v).2.pending = s.pending ∧ (imageSource s v).2.audit = s.audit := by
  unfold imageSource
  repeat' first
    | (simp only [Quiet, and_self, State.setEnt_quiet]; done)
    | split
theorem startInstall_quiet (s : State) : (startInstall s).2.pending = s.pending ∧ (startInstall s).2.audit = s.audit := by
  unfold startInstall
  repeat' first
    | (simp only [Quiet, and_self, memRead_quiet, State.setEnt_quiet]; done)
    | (rename_i h; obtain ⟨h1, h2⟩ := Prod.ext_iff.1 h; clear h; (try simp only at h1 h2); (try subst h1); (try subst h2); (try simp only [Quiet, and_self, memRead_quiet, State.setEnt_quiet]))
    | simp only [Quiet, and_self, memRead_quiet, State.setEnt_quiet]
    | (with_reducible refine Quiet.trans ?_ (foldl_quiet _ ?_ _ _))
    | (with_reducible refine Quiet.trans ?_ (foldl_quiet_snd _ ?_ _ _))
    | (with_reducible refine Quiet.trans ?_ (foldl_quiet_fst _ ?_ _ _))
    | (intro _ _)
    | split
theorem raiseFloor_quiet (s : State) (o : Origin) : (raiseFloor s o).2.pending = s.pending ∧ (raiseFloor s o).2.audit = s.audit := by
  unfold raiseFloor
  repeat' first
    | (simp only [Quiet, and_self, State.setEnt_quiet]; done)
    | (rename_i h; obtain ⟨h1, h2⟩ := Prod.ext_iff.1 h; clear h; (try simp only at h1 h2); (try subst h1); (try subst h2); (try simp only [Quiet, and_self, State.setEnt_quiet]))
    | simp only [Quiet, and_self, State.setEnt_quiet]
    | (with_reducible refine Quiet.trans ?_ (foldl_quiet _ ?_ _ _))
    | (with_reducible refine Quiet.trans ?_ (foldl_quiet_snd _ ?_ _ _))
    | (with_reducible refine Quiet.trans ?_ (foldl_quiet_fst _ ?_ _ _))
    | (intro _ _)
    | split
theorem galenaStarts_quiet (s : State) : (galenaStarts s).pending = s.pending ∧ (galenaStarts s).audit = s.audit := by
  simp only [galenaStarts, ite_pending, ite_audit, ite_self, Quiet, and_self, selectImage_quiet]
theorem restartGalena_quiet (s : State) : (restartGalena s).2.pending = s.pending ∧ (restartGalena s).2.audit = s.audit := by
  unfold restartGalena
  repeat' first
    | (simp only [Quiet, and_self, galenaStarts_quiet]; done)
    | split
theorem firmwareCommand_quiet (s : State) (o : Origin) (v : Nat) : (firmwareCommand s o v).2.pending = s.pending ∧ (firmwareCommand s o v).2.audit = s.audit := by
  unfold firmwareCommand
  repeat' first
    | (simp only [Quiet, and_self, startInstall_quiet, raiseFloor_quiet, restartGalena_quiet]; done)
    | split
theorem tokenChunk_quiet (s : State) (b : List Byte) : (tokenChunk s b).pending = s.pending ∧ (tokenChunk s b).audit = s.audit := by
  simp only [tokenChunk, and_self]
theorem imageChunk_quiet (s : State) (b : List Byte) : (imageChunk s b).pending = s.pending ∧ (imageChunk s b).audit = s.audit := by
  simp only [imageChunk, and_self]
theorem scrubCorrected_quiet (s : State) (b : Nat) (kind : Nat) (unit : Nat) (key : Nat) : (scrubCorrected s b kind unit key).pending = s.pending ∧ (scrubCorrected s b kind unit key).audit = s.audit := by
  simp only [scrubCorrected, ite_pending, ite_audit, ite_self, and_self, addCandidate_quiet]
theorem scrubBad_quiet (s : State) (kind : Nat) (unit : Nat) (key : Nat) (addr : Nat) : (scrubBad s kind unit key addr).pending = s.pending ∧ (scrubBad s kind unit key addr).audit = s.audit := by
  simp only [scrubBad, ite_pending, ite_audit, ite_self, and_self, State.addEnt_quiet, noteBad_quiet]
theorem scrubHbm_quiet (s : State) (b : Nat) (u : Nat) : (scrubHbm s b u).pending = s.pending ∧ (scrubHbm s b u).audit = s.audit := by
  unfold scrubHbm
  repeat' first
    | (simp only [Quiet, and_self, scrubCorrected_quiet, State.setUnit_quiet, noteCorrected_quiet, scrubBad_quiet]; done)
    | split
theorem scrubSram_quiet (s : State) (b kind key : Nat) :
    (scrubSram s b kind key).pending = s.pending ∧ (scrubSram s b kind key).audit = s.audit := by
  unfold scrubSram
  split
  · exact ⟨rfl, rfl⟩
  · split
    · exact ⟨rfl, rfl⟩
    · simp only [scrubCorrected_quiet, noteCorrected_quiet, and_self]
    · exact scrubBad_quiet ..
theorem scrubCache_quiet (s : State) (l : Nat) (w : Nat) : (scrubCache s l w).pending = s.pending ∧ (scrubCache s l w).audit = s.audit := by
  unfold scrubCache
  repeat' first
    | (simp only [Quiet, and_self, scrubBad_quiet, noteCorrected_quiet, State.setCache_quiet]; done)
    | split
theorem endLap_quiet (s : State) (b lapMs : Nat) : (endLap s b lapMs).pending = s.pending ∧ (endLap s b lapMs).audit = s.audit := by
  unfold endLap
  simp only [ite_pending, ite_audit, State.setEnt_quiet, State.addEnt_quiet, State.raise_quiet, ite_self, and_self]
theorem scrubLoc_quiet (s : State) (b : Nat) (loc : EccLoc) : (scrubLoc s b loc).pending = s.pending ∧ (scrubLoc s b loc).audit = s.audit := by
  unfold scrubLoc
  repeat' first
    | (simp only [Quiet, and_self, scrubHbm_quiet, scrubCache_quiet, scrubSram_quiet]; done)
    | split
theorem writeRaw_quiet (s : State) (kind : Nat) (key : Nat) : (writeRaw s kind key).2.pending = s.pending ∧ (writeRaw s kind key).2.audit = s.audit := by
  unfold writeRaw
  repeat' first
    | (simp only [Quiet, and_self, putRawHbm_quiet, dropLine_quiet, putRawSram_quiet, State.setEnt_quiet]; done)
    | split
theorem readRaw_quiet (s : State) (kind : Nat) (key : Nat) : (readRaw s kind key).2.pending = s.pending ∧ (readRaw s kind key).2.audit = s.audit := by
  simp only [readRaw, ite_pending, ite_audit, ite_self, and_self, dropLine_quiet, State.setOct_quiet]
theorem rawCommand_quiet (s : State) (v : Nat) : (rawCommand s v).2.pending = s.pending ∧ (rawCommand s v).2.audit = s.audit := by
  unfold rawCommand
  repeat' first
    | (simp only [Quiet, and_self, writeRaw_quiet, readRaw_quiet]; done)
    | split
theorem reply_quiet (s : State) (slot : Nat) (sid : Nat) (op : Nat) (status : Nat) (req : W32) (body : List Byte) : (reply s slot sid op status req body).pending = s.pending ∧ (reply s slot sid op status req body).audit = s.audit := by
  unfold reply
  repeat' first
    | (simp only [Quiet, and_self, transmit_quiet]; done)
    | split
theorem takeRecord_quiet (s : State) (slot : Nat) (channel : W16) : (takeRecord s slot channel).pending = s.pending ∧ (takeRecord s slot channel).audit = s.audit := by
  simp only [takeRecord, ite_pending, ite_audit, ite_self, Quiet, and_self]
theorem mgmtRead_quiet (s : State) : (mgmtRead s).1.pending = s.pending ∧ (mgmtRead s).1.audit = s.audit := by
  simp only [mgmtRead, Quiet, and_self, sramReadCheck_quiet]
theorem request_quiet (s : State) (slot : Nat) (op : Nat) (req : W32) (ver : Option Byte) : (request s slot op req ver).1.pending = s.pending ∧ (request s slot op req ver).1.audit = s.audit := by
  unfold request
  repeat' first
    | (simp only [Quiet, and_self, mgmtRead_quiet, galenaStarts_quiet, freshSram_quiet, takeRecord_quiet, transmit_quiet, State.setSession_quiet, reply_quiet]; done)
    | (rename_i h; obtain ⟨h1, h2⟩ := Prod.ext_iff.1 h; clear h; (try simp only at h1 h2); (try subst h1); (try subst h2); (try simp only [Quiet, and_self, mgmtRead_quiet, galenaStarts_quiet, freshSram_quiet, takeRecord_quiet, transmit_quiet, State.setSession_quiet, reply_quiet]))
    | simp only [Quiet, and_self, mgmtRead_quiet, galenaStarts_quiet, freshSram_quiet, takeRecord_quiet, transmit_quiet, State.setSession_quiet, reply_quiet]
    | (with_reducible refine Quiet.trans ?_ (foldl_quiet _ ?_ _ _))
    | (with_reducible refine Quiet.trans ?_ (foldl_quiet_snd _ ?_ _ _))
    | (with_reducible refine Quiet.trans ?_ (foldl_quiet_fst _ ?_ _ _))
    | (intro _ _)
    | split
theorem afterRead_quiet (s : State) (index : Nat) (sub : Nat) : (afterRead s index sub).pending = s.pending ∧ (afterRead s index sub).audit = s.audit := by
  simp only [afterRead, ite_pending, ite_audit, ite_self, and_self]
theorem readAnswer_quiet (s : State) (index : Nat) (sub : Nat) : (readAnswer s index sub).2.2.pending = s.pending ∧ (readAnswer s index sub).2.2.audit = s.audit := by
  unfold readAnswer
  repeat' first
    | (simp only [Quiet, and_self, afterRead_quiet]; done)
    | split
theorem answerRead_quiet (s : State) (slot : Nat) (sid : Nat) (req : W32) (index : Nat) (sub : Nat) : (answerRead s slot sid req index sub).pending = s.pending ∧ (answerRead s slot sid req index sub).audit = s.audit := by
  simp only [answerRead, Quiet, and_self, readAnswer_quiet, reply_quiet]
theorem showAlert_quiet (s : State) : (showAlert s).pending = s.pending ∧ (showAlert s).audit = s.audit := by
  simp only [showAlert, and_self]
theorem notify_quiet (s : State) (r : EvRec) (seq : Nat) : (notify s r seq).pending = s.pending ∧ (notify s r seq).audit = s.audit := by
  unfold notify
  repeat' first
    | (simp only [Quiet, and_self, transmit_quiet]; done)
    | (rename_i h; obtain ⟨h1, h2⟩ := Prod.ext_iff.1 h; clear h; (try simp only at h1 h2); (try subst h1); (try subst h2); (try simp only [Quiet, and_self, transmit_quiet]))
    | simp only [Quiet, and_self, transmit_quiet]
    | (with_reducible refine Quiet.trans ?_ (foldl_quiet _ ?_ _ _))
    | (with_reducible refine Quiet.trans ?_ (foldl_quiet_snd _ ?_ _ _))
    | (with_reducible refine Quiet.trans ?_ (foldl_quiet_fst _ ?_ _ _))
    | (intro _ _)
    | split
theorem dropTab_quiet (s : State) : (dropTab s).pending = s.pending ∧ (dropTab s).audit = s.audit := by
  unfold dropTab
  repeat' first
    | (simp only [Quiet, and_self, leavePause_quiet, cancelArming_quiet, abortingComplete_quiet, abandon_quiet]; done)
    | split
theorem leaveTest_quiet (s : State) (f : State → State) (h : ∀ t, Quiet t (f t)) : Quiet s (leaveTest s f) := by
  unfold leaveTest
  dsimp only
  split
  · exact Quiet.trans (dropTab_quiet s) (h _)
  · exact dropTab_quiet s
theorem powerUpCommand_quiet (s : State) : (powerUpCommand s).2.pending = s.pending ∧ (powerUpCommand s).2.audit = s.audit := by
  unfold powerUpCommand
  repeat' first
    | (simp only [Quiet, and_self, toInit_quiet]; done)
    | split
theorem powerDownCommand_quiet (s : State) : (powerDownCommand s).2.pending = s.pending ∧ (powerDownCommand s).2.audit = s.audit := by
  unfold powerDownCommand
  split <;> first | exact powerDown_quiet s | exact leaveTest_quiet s _ powerDown_quiet | exact ⟨rfl, rfl⟩
theorem restartCommand_quiet (s : State) : (restartCommand s).2.pending = s.pending ∧ (restartCommand s).2.audit = s.audit := by
  have h (t : State) : Quiet t (toStart (noteSlots t)) := Quiet.trans (noteSlots_quiet t) (toStart_quiet _)
  unfold restartCommand
  split
  · exact toInit_quiet s
  · split
    · exact leaveTest_quiet s _ h
    · split
      · exact h s
      · exact ⟨rfl, rfl⟩
theorem enterTestCommand_quiet (s : State) : (enterTestCommand s).2.pending = s.pending ∧ (enterTestCommand s).2.audit = s.audit := by
  unfold enterTestCommand
  repeat' first
    | (simp only [Quiet, and_self, State.enter_quiet]; done)
    | split
theorem enterRecoveryCommand_quiet (s : State) : (enterRecoveryCommand s).2.pending = s.pending ∧ (enterRecoveryCommand s).2.audit = s.audit := by
  unfold enterRecoveryCommand
  repeat' first
    | (simp only [Quiet, and_self, State.enter_quiet]; done)
    | split
theorem leaveCommand_quiet (s : State) : (leaveCommand s).2.pending = s.pending ∧ (leaveCommand s).2.audit = s.audit := by
  unfold leaveCommand
  split
  · exact leaveTest_quiet s _ fun t => State.enter_quiet t .ready
  · split
    · exact State.enter_quiet s .ready
    · exact ⟨rfl, rfl⟩
theorem mainCommand_quiet (s : State) (v : Nat) : (mainCommand s v).2.pending = s.pending ∧ (mainCommand s v).2.audit = s.audit := by
  unfold mainCommand
  repeat' first
    | (simp only [Quiet, and_self, powerUpCommand_quiet, powerDownCommand_quiet, restartCommand_quiet, enterTestCommand_quiet, enterRecoveryCommand_quiet, leaveCommand_quiet]; done)
    | split
theorem regionModeWrite_quiet (s : State) (sub v : Nat) : (regionModeWrite s sub v).pending = s.pending ∧ (regionModeWrite s sub v).audit = s.audit := by
  unfold regionModeWrite
  simp only [State.setEnt_quiet, ite_pending, ite_audit, flushLines_quiet, ite_self, and_self]
theorem streamConfig_quiet (s : State) (k : Nat) (sub : Nat) (v : Nat) : (streamConfig s k sub v).2.pending = s.pending ∧ (streamConfig s k sub v).2.audit = s.audit := by
  unfold streamConfig
  repeat' first
    | (simp only [Quiet, and_self, State.setEnt_quiet]; done)
    | (rename_i h; obtain ⟨h1, h2⟩ := Prod.ext_iff.1 h; clear h; (try simp only at h1 h2); (try subst h1); (try subst h2); (try simp only [Quiet, and_self, State.setEnt_quiet]))
    | simp only [Quiet, and_self, State.setEnt_quiet]
    | (with_reducible refine Quiet.trans ?_ (foldl_quiet _ ?_ _ _))
    | (with_reducible refine Quiet.trans ?_ (foldl_quiet_snd _ ?_ _ _))
    | (with_reducible refine Quiet.trans ?_ (foldl_quiet_fst _ ?_ _ _))
    | (intro _ _)
    | split
theorem throttleUseWrite_quiet (s : State) (v : Nat) : (throttleUseWrite s v).pending = s.pending ∧ (throttleUseWrite s v).audit = s.audit := by
  simp only [throttleUseWrite, ite_pending, ite_audit, ite_self, and_self, State.setEnt_quiet, throttleEnter_quiet, throttleRelease_quiet, throttleEvent_quiet]
theorem anchorWrite_quiet (s : State) (sub : Nat) (b : List Byte) : (anchorWrite s sub b).pending = s.pending ∧ (anchorWrite s sub b).audit = s.audit := by
  simp only [anchorWrite, and_self, State.setOct_quiet]
theorem plainWrite_quiet (s : State) (index : Nat) (sub : Nat) (v : Nat) : (plainWrite s index sub v).2.pending = s.pending ∧ (plainWrite s index sub v).2.audit = s.audit := by
  simp only [plainWrite, and_self, State.setEnt_quiet]
theorem always_quiet (s : State) : (always s).2.pending = s.pending ∧ (always s).2.audit = s.audit := by
  simp only [always, and_self]
theorem offsetWrite_quiet (s : State) (index : Nat) (sub : Nat) (v : Nat) : (offsetWrite s index sub v).2.pending = s.pending ∧ (offsetWrite s index sub v).2.audit = s.audit := by
  unfold offsetWrite
  repeat' first
    | (simp only [Quiet, and_self, plainWrite_quiet]; done)
    | split
theorem needsMemory_quiet (s : State) (r : Nat × State) (h : Quiet s r.2) : Quiet s (needsMemory s r).2 := by
  unfold needsMemory
  split
  · exact h
  · exact ⟨rfl, rfl⟩
theorem applyEntry_quiet (s : State) (o : Origin) (index : Nat) (sub : Nat) (b : List Byte) (copy : List Byte) : (applyEntry s o index sub b copy).2.pending = s.pending ∧ (applyEntry s o index sub b copy).2.audit = s.audit := by
  unfold applyEntry
  repeat' first
    | (simp only [Quiet, and_self, always_quiet, throttleUseWrite_quiet, plainWrite_quiet, regionModeWrite_quiet, rawCommand_quiet, State.setOct_quiet, tabAddressWrite_quiet, armingWrite_quiet, programCommand_quiet, mainCommand_quiet, needsMemory_quiet, pageCommand_quiet, pageAreaWrite_quiet, shardCommand_quiet, encodeCommand_quiet, clearHold_quiet, showAlert_quiet, State.setEnt_quiet, offsetWrite_quiet, anchorWrite_quiet, requestReport_quiet, ownerCommand_quiet, tokenChunk_quiet, imageChunk_quiet, imageSource_quiet, firmwareCommand_quiet, semForce_quiet, regionCommand_quiet, enableStream_quiet, disableStream_quiet, streamConfig_quiet, releaseBatches_quiet]; done)
    | (rename_i h; obtain ⟨h1, h2⟩ := Prod.ext_iff.1 h; clear h; (try simp only at h1 h2); (try subst h1); (try subst h2); (try simp only [Quiet, and_self, always_quiet, throttleUseWrite_quiet, plainWrite_quiet, regionModeWrite_quiet, rawCommand_quiet, State.setOct_quiet, tabAddressWrite_quiet, armingWrite_quiet, programCommand_quiet, mainCommand_quiet, needsMemory_quiet, pageCommand_quiet, pageAreaWrite_quiet, shardCommand_quiet, encodeCommand_quiet, clearHold_quiet, showAlert_quiet, State.setEnt_quiet, offsetWrite_quiet, anchorWrite_quiet, requestReport_quiet, ownerCommand_quiet, tokenChunk_quiet, imageChunk_quiet, imageSource_quiet, firmwareCommand_quiet, semForce_quiet, regionCommand_quiet, enableStream_quiet, disableStream_quiet, streamConfig_quiet, releaseBatches_quiet]))
    | simp only [Quiet, and_self, always_quiet, throttleUseWrite_quiet, plainWrite_quiet, regionModeWrite_quiet, rawCommand_quiet, State.setOct_quiet, tabAddressWrite_quiet, armingWrite_quiet, programCommand_quiet, mainCommand_quiet, needsMemory_quiet, pageCommand_quiet, pageAreaWrite_quiet, shardCommand_quiet, encodeCommand_quiet, clearHold_quiet, showAlert_quiet, State.setEnt_quiet, offsetWrite_quiet, anchorWrite_quiet, requestReport_quiet, ownerCommand_quiet, tokenChunk_quiet, imageChunk_quiet, imageSource_quiet, firmwareCommand_quiet, semForce_quiet, regionCommand_quiet, enableStream_quiet, disableStream_quiet, streamConfig_quiet, releaseBatches_quiet]
    | (with_reducible refine Quiet.trans ?_ (foldl_quiet _ ?_ _ _))
    | (with_reducible refine Quiet.trans ?_ (foldl_quiet_snd _ ?_ _ _))
    | (with_reducible refine Quiet.trans ?_ (foldl_quiet_fst _ ?_ _ _))
    | (intro _ _)
    | split
theorem writeEntry_quiet (s : State) (o : Origin) (index : Nat) (sub : Nat) (b : List Byte) (copy : List Byte) : (writeEntry s o index sub b copy).2.pending = s.pending ∧ (writeEntry s o index sub b copy).2.audit = s.audit := by
  unfold writeEntry
  repeat' first
    | (simp only [Quiet, and_self, applyEntry_quiet]; done)
    | split
theorem logWrite_pending (s : State) (w : WriteReq) (old : List Byte) (status : Nat) : (logWrite s w old status).pending = s.pending := rfl
theorem commitMapWrite_quiet (s : State) (c : Nat) (id : Nat) (n : Nat) : (commitMapWrite s c id n).pending = s.pending ∧ (commitMapWrite s c id n).audit = s.audit := by
  unfold commitMapWrite
  repeat' first
    | (simp only [Quiet, and_self, tallyLanding_quiet, State.addEnt_quiet, State.setTransfer_quiet]; done)
    | (rename_i h; obtain ⟨h1, h2⟩ := Prod.ext_iff.1 h; clear h; (try simp only at h1 h2); (try subst h1); (try subst h2); (try simp only [Quiet, and_self, tallyLanding_quiet, State.addEnt_quiet, State.setTransfer_quiet]))
    | simp only [Quiet, and_self, tallyLanding_quiet, State.addEnt_quiet, State.setTransfer_quiet]
    | (with_reducible refine Quiet.trans ?_ (foldl_quiet _ ?_ _ _))
    | (with_reducible refine Quiet.trans ?_ (foldl_quiet_snd _ ?_ _ _))
    | (with_reducible refine Quiet.trans ?_ (foldl_quiet_fst _ ?_ _ _))
    | (intro _ _)
    | split
theorem completeMapWrite_quiet (s : State) (c : Nat) (id : Nat) : (completeMapWrite s c id).pending = s.pending ∧ (completeMapWrite s c id).audit = s.audit := by
  simp only [completeMapWrite, and_self, sweepMoves_quiet, State.modMove_quiet]
theorem applyWrite_pending (s : State) (w : WriteReq) : (applyWrite s w).pending = s.pending := by
  unfold applyWrite
  simp only [logWrite_pending, writeEntry_quiet]
  split <;> simp only [commitMapWrite_quiet]
theorem refuseAudit_quiet (s : State) (w : WriteReq) : (refuseAudit s w).pending = s.pending ∧ (refuseAudit s w).audit = s.audit := by
  unfold refuseAudit
  repeat' first
    | (simp only [Quiet, and_self, reply_quiet, abortRun_quiet, completeMapWrite_quiet]; done)
    | split
theorem takeAccess_pending (s : State) (a : Access) : (takeAccess s a).pending = s.pending := by
  cases a with
  | write w => simp only [takeAccess, ite_pending, refuseAudit_quiet, applyWrite_pending, ite_self]
  | read slot sid req index sub => exact (answerRead_quiet ..).1
theorem noteTaken_pending (s : State) (h : Held) : (noteTaken s h).pending = s.pending := by
  unfold noteTaken
  split <;> rfl
theorem takeAll_pending (l : List Held) (s : State) : (takeAll l s).pending = s.pending := by
  induction l generalizing s with
  | nil => rfl
  | cons h r ih =>
    unfold takeAll
    split
    · rfl
    · rw [ih, takeAccess_pending, noteTaken_pending]
theorem runHeld_pending (s : State) : (runHeld s).pending = s.pending := takeAll_pending ..
theorem arriveAccess_pending (s : State) (rank : Nat) (a : Access) : (arriveAccess s rank a).pending = s.pending := runHeld_pending _
theorem copyRead_quiet (s : State) (index : Nat) (sub : Nat) (b : List Byte) : (copyRead s index sub b).pending = s.pending ∧ (copyRead s index sub b).audit = s.audit := by
  simp only [copyRead, ite_pending, ite_audit, ite_self, Quiet, and_self, localRead_quiet]
theorem giveAnswer_quiet (s : State) (a : Answer) (seq : Nat) : (giveAnswer s a seq).pending = s.pending ∧ (giveAnswer s a seq).audit = s.audit := by
  unfold giveAnswer
  repeat' first
    | (simp only [Quiet, and_self, reply_quiet, completeMapWrite_quiet]; done)
    | split
theorem entryDurable_pending (s : State) (entry : List Byte) (a : Answer) (rest : List (List Byte × Answer)) :
    (entryDurable s entry a rest).pending = s.pending := by
  unfold entryDurable
  simp only [runHeld_pending, ite_pending, giveAnswer_quiet, wakeFlint_quiet, ite_self]
theorem failAnswer_quiet (s : State) (e : List Byte × Answer) : (failAnswer s e).pending = s.pending ∧ (failAnswer s e).audit = s.audit := by
  unfold failAnswer
  repeat' first
    | (simp only [Quiet, and_self, reply_quiet, abortRun_quiet, completeMapWrite_quiet]; done)
    | split
theorem foldl_pending {α : Type} (f : State → α → State) (h : ∀ s x, (f s x).pending = s.pending) (l : List α) (s : State) :
    (l.foldl f s).pending = s.pending := by
  induction l generalizing s with
  | nil => rfl
  | cons x l ih => exact (ih (f s x)).trans (h s x)
theorem logFails_pending (s : State) : (logFails s).pending = s.pending := by
  unfold logFails
  rw [runHeld_pending]
  exact foldl_pending failAnswer (fun _ _ => (failAnswer_quiet ..).1) _ _

end Sys2Proof.Machine
end

