-- ==== Sys2Proof/Laws/Fine.lean ====
section
/-!
SUPPORT. The meanings of commands, one lemma each: the command ends in a next state, with the queue of commands and the audit log as they were.
-/
set_option Elab.async false
set_option linter.unusedSimpArgs false
set_option linter.unusedTactic false
set_option linter.unreachableTactic false
namespace Sys2Proof.Machine
open Sys2Proof

/-- A command that ends in a next state with the queue and the audit log as they were. -/
def Fine (s : State) (o : Out) : Prop := ∃ t, o = .next t ∧ Quiet s t
theorem Fine.same (s : State) : Fine s (.next s) := ⟨s, rfl, rfl, rfl⟩
theorem Fine.next {s t : State} (h : t.pending = s.pending) (h' : t.audit = s.audit) : Fine s (.next t) := ⟨t, rfl, h, h'⟩
theorem Fine.of {s t : State} {o : Out} (h : Fine t o) (h1 : t.pending = s.pending) (h2 : t.audit = s.audit) : Fine s o := by
  obtain ⟨u, e, q⟩ := h
  exact ⟨u, e, q.1.trans h1, q.2.trans h2⟩
theorem Fine.atTime {s : State} {t : FTime} (f : State → Out) (h : Fine { s with now := t } (f { s with now := t })) : Fine s (atTime s t f) := by
  unfold Machine.atTime
  split
  · exact Fine.of h rfl rfl
  · exact Fine.same s
theorem Fine.next_iff {s t : State} : Fine s (.next t) ↔ t.pending = s.pending ∧ t.audit = s.audit :=
  ⟨fun ⟨_, e, q⟩ => by cases e; exact q, fun q => ⟨t, rfl, q⟩⟩

theorem pair_cases {α β : Type} {p : α × β} {a : α} {b : β} (h : p = (a, b)) : p.1 = a ∧ p.2 = b := by
  subst h
  exact ⟨rfl, rfl⟩

theorem Fine.ite {c : Prop} [Decidable c] {s : State} {a b : Out} (ha : c → Fine s a) (hb : ¬c → Fine s b) : Fine s (if c then a else b) := by
  split
  · exact ha ‹_›
  · exact hb ‹_›
theorem afterCheck_fine {s : State} {c : Nat} {r : State × Bool} {f : State → Out} (h : Quiet s r.1) (hf : ∀ t, Fine t (f t)) :
    Fine s (afterCheck c r f) := by
  unfold afterCheck
  split
  · exact Fine.next_iff.2 (Quiet.trans h (eccHalt_quiet ..))
  · exact Fine.of (hf r.1) h.1 h.2
theorem dropInstance_fine (s : State) (g j : Nat) (ins : List Nat) (code p st o : Nat) : Fine s (.next (collFault (dropInstance s g j ins) code p st o)) :=
  Fine.next_iff.2 (Quiet.trans (dropInstance_quiet ..) (collFault_quiet ..))
theorem execSupplyLow_fine (mv : Nat) (s : State) : Fine s (execSupplyLow mv s) := by
  unfold execSupplyLow
  repeat' first
    | (simp only [Fine.next_iff, Quiet, ite_pending, ite_audit, ite_self, and_self, throttleEnter_quiet, noteSupply_quiet]; done)
    | (rename_i h; rcases pair_cases h with ⟨_, _⟩; clear h; subst_vars)
    | simp only [Fine.next_iff, Quiet, ite_pending, ite_audit, ite_self, and_self, throttleEnter_quiet, noteSupply_quiet]
    | (with_reducible refine Quiet.trans ?_ (foldl_quiet _ ?_ _ _))
    | (intro _ _)
    | split
theorem execHoldupExpiry_fine (s : State) : Fine s (execHoldupExpiry s) := by
  unfold execHoldupExpiry
  repeat' first
    | (simp only [Fine.next_iff, Quiet, ite_pending, ite_audit, ite_self, and_self, toStandby_quiet]; done)
    | (rename_i h; rcases pair_cases h with ⟨_, _⟩; clear h; subst_vars)
    | simp only [Fine.next_iff, Quiet, ite_pending, ite_audit, ite_self, and_self, toStandby_quiet]
    | (with_reducible refine Quiet.trans ?_ (foldl_quiet _ ?_ _ _))
    | (intro _ _)
    | split
theorem execSupplyRecovered_fine (mv : Nat) (s : State) : Fine s (execSupplyRecovered mv s) := by
  unfold execSupplyRecovered
  repeat' first
    | (simp only [Fine.next_iff, Quiet, ite_pending, ite_audit, ite_self, and_self, noteSupply_quiet, throttleRelease_quiet]; done)
    | (rename_i h; rcases pair_cases h with ⟨_, _⟩; clear h; subst_vars)
    | simp only [Fine.next_iff, Quiet, ite_pending, ite_audit, ite_self, and_self, noteSupply_quiet, throttleRelease_quiet]
    | (with_reducible refine Quiet.trans ?_ (foldl_quiet _ ?_ _ _))
    | (intro _ _)
    | split
theorem execAutoPowerUp_fine (s : State) : Fine s (execAutoPowerUp s) := by
  unfold execAutoPowerUp
  repeat' first
    | (simp only [Fine.next_iff, Quiet, ite_pending, ite_audit, ite_self, and_self, toInit_quiet]; done)
    | (rename_i h; rcases pair_cases h with ⟨_, _⟩; clear h; subst_vars)
    | simp only [Fine.next_iff, Quiet, ite_pending, ite_audit, ite_self, and_self, toInit_quiet]
    | (with_reducible refine Quiet.trans ?_ (foldl_quiet _ ?_ _ _))
    | (intro _ _)
    | split
theorem execRailsReady_fine (s : State) : Fine s (execRailsReady s) := by
  unfold execRailsReady
  repeat' first
    | (simp only [Fine.next_iff, Quiet, ite_pending, ite_audit, ite_self, and_self, State.setEnt_quiet]; done)
    | (rename_i h; rcases pair_cases h with ⟨_, _⟩; clear h; subst_vars)
    | simp only [Fine.next_iff, Quiet, ite_pending, ite_audit, ite_self, and_self, State.setEnt_quiet]
    | (with_reducible refine Quiet.trans ?_ (foldl_quiet _ ?_ _ _))
    | (intro _ _)
    | split
theorem execRailTimeout_fine (rail : W32) (s : State) : Fine s (execRailTimeout rail s) := by
  unfold execRailTimeout
  repeat' first
    | (simp only [Fine.next_iff, Quiet, ite_pending, ite_audit, ite_self, and_self, toStandby_quiet, haltEvent_quiet]; done)
    | (rename_i h; rcases pair_cases h with ⟨_, _⟩; clear h; subst_vars)
    | simp only [Fine.next_iff, Quiet, ite_pending, ite_audit, ite_self, and_self, toStandby_quiet, haltEvent_quiet]
    | (with_reducible refine Quiet.trans ?_ (foldl_quiet _ ?_ _ _))
    | (intro _ _)
    | split
theorem execHbmTrainingDone_fine (failed : Option (Fin 12)) (s : State) : Fine s (execHbmTrainingDone failed s) := by
  unfold execHbmTrainingDone
  repeat' first
    | (simp only [Fine.next_iff, Quiet, ite_pending, ite_audit, ite_self, and_self, toFault_quiet, State.raise_quiet, State.setEnt_quiet]; done)
    | (rename_i h; rcases pair_cases h with ⟨_, _⟩; clear h; subst_vars)
    | simp only [Fine.next_iff, Quiet, ite_pending, ite_audit, ite_self, and_self, toFault_quiet, State.raise_quiet, State.setEnt_quiet]
    | (with_reducible refine Quiet.trans ?_ (foldl_quiet _ ?_ _ _))
    | (intro _ _)
    | split
theorem execMemoryFillDone_fine (s : State) : Fine s (execMemoryFillDone s) := by
  unfold execMemoryFillDone
  repeat' first
    | (simp only [Fine.next_iff, Quiet, ite_pending, ite_audit, ite_self, and_self, State.setEnt_quiet]; done)
    | (rename_i h; rcases pair_cases h with ⟨_, _⟩; clear h; subst_vars)
    | simp only [Fine.next_iff, Quiet, ite_pending, ite_audit, ite_self, and_self, State.setEnt_quiet]
    | (with_reducible refine Quiet.trans ?_ (foldl_quiet _ ?_ _ _))
    | (intro _ _)
    | split
theorem execSelfTestDone_fine (passed : List Bool) (found : List (List Byte)) (spares : Bool) (s : State) : Fine s (execSelfTestDone passed found spares s) := by
  unfold execSelfTestDone
  repeat' first
    | (simp only [Fine.next_iff, Quiet, ite_pending, ite_audit, ite_self, and_self, repairAll_quiet, State.setEnt_quiet, State.addEnt_quiet, fuse_quiet, toStart_quiet, toFault_quiet, State.raise_quiet]; done)
    | (rename_i h; rcases pair_cases h with ⟨_, _⟩; clear h; subst_vars)
    | simp only [Fine.next_iff, Quiet, ite_pending, ite_audit, ite_self, and_self, repairAll_quiet, State.setEnt_quiet, State.addEnt_quiet, fuse_quiet, toStart_quiet, toFault_quiet, State.raise_quiet]
    | (with_reducible refine Quiet.trans ?_ (foldl_quiet _ ?_ _ _))
    | (intro _ _)
    | split
theorem execPortStartTimeout_fine (p : Port) (s : State) : Fine s (execPortStartTimeout p s) := by
  unfold execPortStartTimeout
  repeat' first
    | (simp only [Fine.next_iff, Quiet, ite_pending, ite_audit, ite_self, and_self]; done)
    | (rename_i h; rcases pair_cases h with ⟨_, _⟩; clear h; subst_vars)
    | simp only [Fine.next_iff, Quiet, ite_pending, ite_audit, ite_self, and_self]
    | (with_reducible refine Quiet.trans ?_ (foldl_quiet _ ?_ _ _))
    | (intro _ _)
    | split
theorem execStartComplete_fine (s : State) : Fine s (execStartComplete s) := by
  unfold execStartComplete
  repeat' first
    | (simp only [Fine.next_iff, Quiet, ite_pending, ite_audit, ite_self, and_self, State.enter_quiet, State.setEnt_quiet]; done)
    | (rename_i h; rcases pair_cases h with ⟨_, _⟩; clear h; subst_vars)
    | simp only [Fine.next_iff, Quiet, ite_pending, ite_audit, ite_self, and_self, State.enter_quiet, State.setEnt_quiet]
    | (with_reducible refine Quiet.trans ?_ (foldl_quiet _ ?_ _ _))
    | (intro _ _)
    | split
theorem execRampStep_fine (s : State) : Fine s (execRampStep s) := by
  unfold execRampStep
  repeat' first
    | (simp only [Fine.next_iff, Quiet, ite_pending, ite_audit, ite_self, and_self, State.setEnt_quiet]; done)
    | (rename_i h; rcases pair_cases h with ⟨_, _⟩; clear h; subst_vars)
    | simp only [Fine.next_iff, Quiet, ite_pending, ite_audit, ite_self, and_self, State.setEnt_quiet]
    | (with_reducible refine Quiet.trans ?_ (foldl_quiet _ ?_ _ _))
    | (intro _ _)
    | split
theorem execTaperStep_fine (s : State) : Fine s (execTaperStep s) := by
  unfold execTaperStep
  repeat' first
    | (simp only [Fine.next_iff, Quiet, ite_pending, ite_audit, ite_self, and_self, shedIfDue_quiet, State.setEnt_quiet]; done)
    | (rename_i h; rcases pair_cases h with ⟨_, _⟩; clear h; subst_vars)
    | simp only [Fine.next_iff, Quiet, ite_pending, ite_audit, ite_self, and_self, shedIfDue_quiet, State.setEnt_quiet]
    | (with_reducible refine Quiet.trans ?_ (foldl_quiet _ ?_ _ _))
    | (intro _ _)
    | split
theorem execPowerCapRelease_fine (s : State) : Fine s (execPowerCapRelease s) := by
  unfold execPowerCapRelease
  repeat' first
    | (simp only [Fine.next_iff, Quiet, ite_pending, ite_audit, ite_self, and_self, throttleRelease_quiet]; done)
    | (rename_i h; rcases pair_cases h with ⟨_, _⟩; clear h; subst_vars)
    | simp only [Fine.next_iff, Quiet, ite_pending, ite_audit, ite_self, and_self, throttleRelease_quiet]
    | (with_reducible refine Quiet.trans ?_ (foldl_quiet _ ?_ _ _))
    | (intro _ _)
    | split
theorem execClockReturnStep_fine (t : FTime) (s : State) : Fine s (execClockReturnStep t s) := by
  unfold execClockReturnStep
  repeat' first
    | (refine Fine.atTime _ ?_)
    | (simp only [Fine.next_iff, Quiet, ite_pending, ite_audit, ite_self, and_self, clockStep_quiet]; done)
    | (rename_i h; rcases pair_cases h with ⟨_, _⟩; clear h; subst_vars)
    | simp only [Fine.next_iff, Quiet, ite_pending, ite_audit, ite_self, and_self, clockStep_quiet]
    | (with_reducible refine Quiet.trans ?_ (foldl_quiet _ ?_ _ _))
    | (intro _ _)
    | split
theorem execThrottleInAssert_fine (t : FTime) (s : State) : Fine s (execThrottleInAssert t s) := by
  unfold execThrottleInAssert
  repeat' first
    | (refine Fine.atTime _ ?_)
    | (simp only [Fine.next_iff, Quiet, ite_pending, ite_audit, ite_self, and_self, State.addEnt_quiet, State.setEnt_quiet, throttleEnter_quiet, throttleEvent_quiet]; done)
    | (rename_i h; rcases pair_cases h with ⟨_, _⟩; clear h; subst_vars)
    | simp only [Fine.next_iff, Quiet, ite_pending, ite_audit, ite_self, and_self, State.addEnt_quiet, State.setEnt_quiet, throttleEnter_quiet, throttleEvent_quiet]
    | (with_reducible refine Quiet.trans ?_ (foldl_quiet _ ?_ _ _))
    | (intro _ _)
    | split
theorem execThrottleInRelease_fine (t : FTime) (s : State) : Fine s (execThrottleInRelease t s) := by
  unfold execThrottleInRelease
  repeat' first
    | (refine Fine.atTime _ ?_)
    | (simp only [Fine.next_iff, Quiet, ite_pending, ite_audit, ite_self, and_self, throttleRelease_quiet, State.setEnt_quiet]; done)
    | (rename_i h; rcases pair_cases h with ⟨_, _⟩; clear h; subst_vars)
    | simp only [Fine.next_iff, Quiet, ite_pending, ite_audit, ite_self, and_self, throttleRelease_quiet, State.setEnt_quiet]
    | (with_reducible refine Quiet.trans ?_ (foldl_quiet _ ?_ _ _))
    | (intro _ _)
    | split
theorem execHaltInAssert_fine (t : FTime) (s : State) : Fine s (execHaltInAssert t s) := by
  unfold execHaltInAssert
  repeat' first
    | (refine Fine.atTime _ ?_)
    | (simp only [Fine.next_iff, Quiet, ite_pending, ite_audit, ite_self, and_self, State.addEnt_quiet, State.setEnt_quiet, haltEvent_quiet, haltAbortHold_quiet, haltPowerDown_quiet]; done)
    | (rename_i h; rcases pair_cases h with ⟨_, _⟩; clear h; subst_vars)
    | simp only [Fine.next_iff, Quiet, ite_pending, ite_audit, ite_self, and_self, State.addEnt_quiet, State.setEnt_quiet, haltEvent_quiet, haltAbortHold_quiet, haltPowerDown_quiet]
    | (with_reducible refine Quiet.trans ?_ (foldl_quiet _ ?_ _ _))
    | (intro _ _)
    | split
theorem execHaltInRelease_fine (t : FTime) (s : State) : Fine s (execHaltInRelease t s) := by
  unfold execHaltInRelease
  repeat' first
    | (refine Fine.atTime _ ?_)
    | (simp only [Fine.next_iff, Quiet, ite_pending, ite_audit, ite_self, and_self, State.setEnt_quiet]; done)
    | (rename_i h; rcases pair_cases h with ⟨_, _⟩; clear h; subst_vars)
    | simp only [Fine.next_iff, Quiet, ite_pending, ite_audit, ite_self, and_self, State.setEnt_quiet]
    | (with_reducible refine Quiet.trans ?_ (foldl_quiet _ ?_ _ _))
    | (intro _ _)
    | split
theorem execInputReminder_fine (t : FTime) (haltPin : Bool) (s : State) : Fine s (execInputReminder t haltPin s) := by
  unfold execInputReminder
  repeat' first
    | (refine Fine.atTime _ ?_)
    | (simp only [Fine.next_iff, Quiet, ite_pending, ite_audit, ite_self, and_self, haltEvent_quiet, throttleEvent_quiet]; done)
    | (rename_i h; rcases pair_cases h with ⟨_, _⟩; clear h; subst_vars)
    | simp only [Fine.next_iff, Quiet, ite_pending, ite_audit, ite_self, and_self, haltEvent_quiet, throttleEvent_quiet]
    | (with_reducible refine Quiet.trans ?_ (foldl_quiet _ ?_ _ _))
    | (intro _ _)
    | split
theorem execThermalThrottle_fine (t : FTime) (die : Fin 7) (mC : Nat) (s : State) : Fine s (execThermalThrottle t die mC s) := by
  unfold execThermalThrottle
  repeat' first
    | (refine Fine.atTime _ ?_)
    | (simp only [Fine.next_iff, Quiet, ite_pending, ite_audit, ite_self, and_self, noteTemp_quiet, throttleEnter_quiet, State.setEnt_quiet]; done)
    | (rename_i h; rcases pair_cases h with ⟨_, _⟩; clear h; subst_vars)
    | simp only [Fine.next_iff, Quiet, ite_pending, ite_audit, ite_self, and_self, noteTemp_quiet, throttleEnter_quiet, State.setEnt_quiet]
    | (with_reducible refine Quiet.trans ?_ (foldl_quiet _ ?_ _ _))
    | (intro _ _)
    | split
theorem execThermalRelease_fine (t : FTime) (temps : List Int) (s : State) : Fine s (execThermalRelease t temps s) := by
  unfold execThermalRelease
  repeat' first
    | (refine Fine.atTime _ ?_)
    | (simp only [Fine.next_iff, Quiet, ite_pending, ite_audit, ite_self, and_self, noteTemp_quiet, State.setEnt_quiet, throttleRelease_quiet]; done)
    | (rename_i h; rcases pair_cases h with ⟨_, _⟩; clear h; subst_vars)
    | simp only [Fine.next_iff, Quiet, ite_pending, ite_audit, ite_self, and_self, noteTemp_quiet, State.setEnt_quiet, throttleRelease_quiet]
    | (with_reducible refine Quiet.trans ?_ (foldl_quiet _ ?_ _ _))
    | (intro _ _)
    | split
theorem execThermalHalt_fine (t : FTime) (die : Fin 7) (mC : Nat) (s : State) : Fine s (execThermalHalt t die mC s) := by
  unfold execThermalHalt
  repeat' first
    | (refine Fine.atTime _ ?_)
    | (simp only [Fine.next_iff, Quiet, ite_pending, ite_audit, ite_self, and_self, noteTemp_quiet, haltEvent_quiet, State.setEnt_quiet, haltPowerDown_quiet]; done)
    | (rename_i h; rcases pair_cases h with ⟨_, _⟩; clear h; subst_vars)
    | simp only [Fine.next_iff, Quiet, ite_pending, ite_audit, ite_self, and_self, noteTemp_quiet, haltEvent_quiet, State.setEnt_quiet, haltPowerDown_quiet]
    | (with_reducible refine Quiet.trans ?_ (foldl_quiet _ ?_ _ _))
    | (intro _ _)
    | split
theorem accepted_fine {s : State} {p : Nat} {f : Flit} {kind : Nat} {g : State → Out} (h : ∀ t, Quiet s t → Fine t (g t)) :
    Fine s (accepted s p f kind g) := by
  unfold accepted
  split
  · exact Fine.same s
  · split <;>
    · rename_i e
      obtain ⟨h1, -⟩ := Prod.ext_iff.1 e
      simp only at h1
      subst h1
      have q := receive_quiet s p f
      first
        | exact Fine.of (h _ q) q.1 q.2
        | exact Fine.next_iff.2 q
theorem execTimeExchange_fine (t : FTime) (frac : W16) (p : Port) (s : State) : Fine s (execTimeExchange t frac p s) := by
  unfold execTimeExchange
  repeat' first
    | (refine Fine.atTime _ ?_)
    | (simp only [Fine.next_iff, Quiet, ite_pending, ite_audit, ite_self, and_self, State.setTimePort_quiet, State.modPort_quiet]; done)
    | (rename_i h; rcases pair_cases h with ⟨_, _⟩; clear h; subst_vars)
    | simp only [Fine.next_iff, Quiet, ite_pending, ite_audit, ite_self, and_self, State.setTimePort_quiet, State.modPort_quiet]
    | (with_reducible refine Quiet.trans ?_ (foldl_quiet _ ?_ _ _))
    | (intro _ _)
    | split
theorem execTimeFlitReceive_fine (t : FTime) (frac : W16) (p : Port) (f : Flit) (s : State) : Fine s (execTimeFlitReceive t frac p f s) := by
  unfold execTimeFlitReceive
  repeat' first
    | (refine Fine.atTime _ ?_)
    | (simp only [Fine.next_iff, Quiet, ite_pending, ite_audit, ite_self, and_self, State.setTimePort_quiet, State.setEnt_quiet, discipline_quiet, follow_quiet, takeOver_quiet]; done)
    | (refine accepted_fine fun _ q => ?_)
    | (rename_i h; rcases pair_cases h with ⟨_, _⟩; clear h; subst_vars)
    | simp only [Fine.next_iff, Quiet, ite_pending, ite_audit, ite_self, and_self, State.setTimePort_quiet, State.setEnt_quiet, discipline_quiet, follow_quiet, takeOver_quiet]
    | (with_reducible refine Quiet.trans ?_ (foldl_quiet _ ?_ _ _))
    | (intro _ _)
    | split
theorem execBecomeRoot_fine (s : State) : Fine s (execBecomeRoot s) := by
  unfold execBecomeRoot
  repeat' first
    | (simp only [Fine.next_iff, Quiet, ite_pending, ite_audit, ite_self, and_self, State.setEnt_quiet, State.raise_quiet, stepTime_quiet]; done)
    | split
theorem execUpstreamReselect_fine (s : State) : Fine s (execUpstreamReselect s) := by
  unfold execUpstreamReselect
  repeat' first
    | (simp only [Fine.next_iff, Quiet, ite_pending, ite_audit, ite_self, and_self, follow_quiet, State.setEnt_quiet]; done)
    | (rename_i h; rcases pair_cases h with ⟨_, _⟩; clear h; subst_vars)
    | simp only [Fine.next_iff, Quiet, ite_pending, ite_audit, ite_self, and_self, follow_quiet, State.setEnt_quiet]
    | (with_reducible refine Quiet.trans ?_ (foldl_quiet _ ?_ _ _))
    | (intro _ _)
    | split
theorem execHoldoverBoundExceeded_fine (t : FTime) (s : State) : Fine s (execHoldoverBoundExceeded t s) := by
  unfold execHoldoverBoundExceeded
  repeat' first
    | (refine Fine.atTime _ ?_)
    | (simp only [Fine.next_iff, Quiet, ite_pending, ite_audit, ite_self, and_self, timeUnlock_quiet, State.setEnt_quiet]; done)
    | (rename_i h; rcases pair_cases h with ⟨_, _⟩; clear h; subst_vars)
    | simp only [Fine.next_iff, Quiet, ite_pending, ite_audit, ite_self, and_self, timeUnlock_quiet, State.setEnt_quiet]
    | (with_reducible refine Quiet.trans ?_ (foldl_quiet _ ?_ _ _))
    | (intro _ _)
    | split
theorem execPpsInEdge_fine (t : FTime) (widthNs : Nat) (s : State) : Fine s (execPpsInEdge t widthNs s) := by
  unfold execPpsInEdge
  repeat' first
    | (refine Fine.atTime _ ?_)
    | (simp only [Fine.next_iff, Quiet, ite_pending, ite_audit, ite_self, and_self, State.addEnt_quiet, State.raise_quiet, stepTime_quiet, servo_quiet]; done)
    | (rename_i h; rcases pair_cases h with ⟨_, _⟩; clear h; subst_vars)
    | simp only [Fine.next_iff, Quiet, ite_pending, ite_audit, ite_self, and_self, State.addEnt_quiet, State.raise_quiet, stepTime_quiet, servo_quiet]
    | (with_reducible refine Quiet.trans ?_ (foldl_quiet _ ?_ _ _))
    | (intro _ _)
    | split
theorem execPpsLost_fine (t : FTime) (s : State) : Fine s (execPpsLost t s) := by
  unfold execPpsLost
  repeat' first
    | (refine Fine.atTime _ ?_)
    | (simp only [Fine.next_iff, Quiet, ite_pending, ite_audit, ite_self, and_self, State.raise_quiet]; done)
    | (rename_i h; rcases pair_cases h with ⟨_, _⟩; clear h; subst_vars)
    | simp only [Fine.next_iff, Quiet, ite_pending, ite_audit, ite_self, and_self, State.raise_quiet]
    | (with_reducible refine Quiet.trans ?_ (foldl_quiet _ ?_ _ _))
    | (intro _ _)
    | split
theorem execPpsOutPulse_fine (s : State) : Fine s (execPpsOutPulse s) := by
  unfold execPpsOutPulse
  repeat' first
    | (simp only [Fine.next_iff, Quiet, ite_pending, ite_audit, ite_self, and_self]; done)
    | (rename_i h; rcases pair_cases h with ⟨_, _⟩; clear h; subst_vars)
    | simp only [Fine.next_iff, Quiet, ite_pending, ite_audit, ite_self, and_self]
    | (with_reducible refine Quiet.trans ?_ (foldl_quiet _ ?_ _ _))
    | (intro _ _)
    | split
theorem execSchedFlitReceive_fine (t : FTime) (p : Port) (f : Flit) (s : State) : Fine s (execSchedFlitReceive t p f s) := by
  unfold execSchedFlitReceive
  repeat' first
    | (refine Fine.atTime _ ?_)
    | (simp only [Fine.next_iff, Quiet, ite_pending, ite_audit, ite_self, and_self, State.addEnt_quiet, recvFlit_quiet]; done)
    | (refine accepted_fine fun _ q => ?_)
    | (rename_i h; rcases pair_cases h with ⟨_, _⟩; clear h; subst_vars)
    | simp only [Fine.next_iff, Quiet, ite_pending, ite_audit, ite_self, and_self, State.addEnt_quiet, recvFlit_quiet]
    | (with_reducible refine Quiet.trans ?_ (foldl_quiet _ ?_ _ _))
    | (intro _ _)
    | split
theorem sendBuffer_fine (s : State) (entry : Nat) : Fine s (sendBuffer s entry) := by
  unfold sendBuffer
  have q := localRead_quiet s (bufAddr (centry s (entry + 1)) (s.csend entry).count) (ceD (centry s entry))
  revert q
  dsimp only
  generalize localRead s (bufAddr (centry s (entry + 1)) (s.csend entry).count) (ceD (centry s entry)) = r
  intro q
  split
  · exact Fine.next_iff.2 (Quiet.trans q (abortRun_quiet ..))
  · exact Fine.next_iff.2 (Quiet.trans q (startSend_quiet ..))
theorem sendDigest_fine (s : State) (entry : Nat) : Fine s (sendDigest s entry) := by
  unfold sendDigest
  dsimp only
  split
  · exact Fine.next_iff.2 (Quiet.trans (bareTrailer_quiet ..) (startSend_quiet ..))
  · exact Fine.same s
theorem sendVote_fine (s : State) (entry : Nat) : Fine s (sendVote s entry) :=
  Fine.next_iff.2 (Quiet.trans (bareTrailer_quiet ..) (startSend_quiet ..))
theorem sendRepair_fine (s : State) (entry : Nat) : Fine s (sendRepair s entry) := by
  unfold sendRepair
  split
  · exact Fine.same _
  · rename_i k b _ _
    dsimp only
    generalize hr : memRead s (nextCopy s (shardAt s k) + b * blockElems * hdSize (shardHead s (shardAt s k)))
      (blockLen (shardHead s (shardAt s k)) b * hdSize (shardHead s (shardAt s k))) true = r
    have q : Quiet s r.2.1 := hr ▸ memRead_quiet ..
    have n := Quiet.trans q (noteRepair_quiet r.2.1 entry k b)
    split
    · exact Fine.next_iff.2 (Quiet.trans n (abortRun_quiet ..))
    · exact Fine.next_iff.2 (Quiet.trans n (startSend_quiet ..))
theorem sendGroup_fine (s : State) (entry : Nat) : Fine s (sendGroup s entry) := by
  unfold sendGroup
  split
  · exact Fine.same s
  · exact Fine.next_iff.2 (startSend_quiet ..)
theorem execSendInstanceStart_fine (t : FTime) (entry : Nat) (s : State) : Fine s (execSendInstanceStart t entry s) := by
  unfold execSendInstanceStart
  refine Fine.atTime _ ?_
  dsimp only
  split
  · exact Fine.same _
  · split
    · exact sendBuffer_fine ..
    · exact sendDigest_fine ..
    · exact sendVote_fine ..
    · exact sendRepair_fine ..
    · exact sendGroup_fine ..
theorem execSendReadDone_fine (t : FTime) (entry : Nat) (s : State) : Fine s (execSendReadDone t entry s) := by
  unfold execSendReadDone
  repeat' first
    | (refine Fine.atTime _ ?_)
    | (simp only [Fine.next_iff, Quiet, ite_pending, ite_audit, ite_self, and_self, syncSignal_quiet, State.setCsend_quiet]; done)
    | (rename_i h; rcases pair_cases h with ⟨_, _⟩; clear h; subst_vars)
    | simp only [Fine.next_iff, Quiet, ite_pending, ite_audit, ite_self, and_self, syncSignal_quiet, State.setCsend_quiet]
    | (with_reducible refine Quiet.trans ?_ (foldl_quiet _ ?_ _ _))
    | (intro _ _)
    | split
theorem execLateTransfer_fine (p : Port) (stream : BitVec 14) (s : State) : Fine s (execLateTransfer p stream s) := by
  unfold execLateTransfer
  repeat' first
    | (simp only [Fine.next_iff, Quiet, ite_pending, ite_audit, ite_self, and_self, State.setEnt_quiet, State.addEnt_quiet, State.raise_quiet, State.setCsend_quiet, actAbort_quiet]; done)
    | (rename_i h; rcases pair_cases h with ⟨_, _⟩; clear h; subst_vars)
    | simp only [Fine.next_iff, Quiet, ite_pending, ite_audit, ite_self, and_self, State.setEnt_quiet, State.addEnt_quiet, State.raise_quiet, State.setCsend_quiet, actAbort_quiet]
    | (with_reducible refine Quiet.trans ?_ (foldl_quiet _ ?_ _ _))
    | (intro _ _)
    | split
theorem execLocalInputStart_fine (t : FTime) (entry : Nat) (s : State) : Fine s (execLocalInputStart t entry s) := by
  unfold execLocalInputStart
  repeat' first
    | (refine Fine.atTime _ ?_)
    | (simp only [Fine.next_iff, Quiet, ite_pending, ite_audit, ite_self, and_self, State.setCgroup_quiet, State.setCrecv_quiet, localRead_quiet, abortRun_quiet, syncSignal_quiet]; done)
    | (rename_i h; rcases pair_cases h with ⟨_, _⟩; clear h; subst_vars)
    | simp only [Fine.next_iff, Quiet, ite_pending, ite_audit, ite_self, and_self, State.setCgroup_quiet, State.setCrecv_quiet, localRead_quiet, abortRun_quiet, syncSignal_quiet]
    | (with_reducible refine Quiet.trans ?_ (foldl_quiet _ ?_ _ _))
    | (intro _ _)
    | split
theorem execGroupBlockReduce_fine (t : FTime) (entry : Nat) (s : State) : Fine s (execGroupBlockReduce t entry s) := by
  unfold execGroupBlockReduce
  refine Fine.atTime _ ?_
  generalize { s with now := t } = s
  dsimp only
  split
  · exact Fine.same s
  split
  · exact dropInstance_fine ..
  generalize hp : (groupInputs s entry).1.foldl _ (s, false) = pool
  have hq : Quiet s pool.1 := by
    subst hp
    exact foldl_quiet_fst _ (fun a i => by
      split
      · exact ⟨rfl, rfl⟩
      · exact checkSlot_quiet ..) _ (s, false)
  split
  · exact Fine.next_iff.2 (Quiet.trans hq (abortRun_quiet ..))
  refine Fine.of ?_ hq.1 hq.2
  repeat' first
    | (simp only [Fine.next_iff, Quiet, ite_pending, ite_audit, ite_self, and_self, freeSlots_quiet, State.setCrecv_quiet, State.setCgroup_quiet, takeNonfinite_quiet, landPart_quiet, groupDone_quiet]; done)
    | split
theorem execStagedCopy_fine (t : FTime) (entry : Nat) (s : State) : Fine s (execStagedCopy t entry s) := by
  unfold execStagedCopy
  repeat' first
    | (refine Fine.atTime _ ?_)
    | (simp only [Fine.next_iff, Quiet, ite_pending, ite_audit, ite_self, and_self, localRead_quiet, abortRun_quiet, localWrite_quiet, syncSignal_quiet]; done)
    | (rename_i h; rcases pair_cases h with ⟨_, _⟩; clear h; subst_vars)
    | simp only [Fine.next_iff, Quiet, ite_pending, ite_audit, ite_self, and_self, localRead_quiet, abortRun_quiet, localWrite_quiet, syncSignal_quiet]
    | (with_reducible refine Quiet.trans ?_ (foldl_quiet _ ?_ _ _))
    | (intro _ _)
    | split
theorem execHeadFlitReceive_fine (t : FTime) (p : Port) (f : Flit) (s : State) : Fine s (execHeadFlitReceive t p f s) := by
  unfold execHeadFlitReceive
  repeat' first
    | (refine Fine.atTime _ ?_)
    | (simp only [Fine.next_iff, Quiet, ite_pending, ite_audit, ite_self, and_self, arriveRequest_quiet]; done)
    | (refine accepted_fine fun _ q => ?_)
    | split
theorem execDataFlitReceive_fine (t : FTime) (p : Port) (f : Flit) (s : State) : Fine s (execDataFlitReceive t p f s) := by
  unfold execDataFlitReceive
  repeat' first
    | (refine Fine.atTime _ ?_)
    | (simp only [Fine.next_iff, Quiet, ite_pending, ite_audit, ite_self, and_self, arriveRequest_quiet]; done)
    | (refine accepted_fine fun _ q => ?_)
    | split
theorem execReadFlitReceive_fine (t : FTime) (p : Port) (f : Flit) (s : State) : Fine s (execReadFlitReceive t p f s) := by
  unfold execReadFlitReceive
  repeat' first
    | (refine Fine.atTime _ ?_)
    | (simp only [Fine.next_iff, Quiet, ite_pending, ite_audit, ite_self, and_self, arriveRequest_quiet]; done)
    | (refine accepted_fine fun _ q => ?_)
    | split
theorem execPostFlitReceive_fine (t : FTime) (p : Port) (f : Flit) (s : State) : Fine s (execPostFlitReceive t p f s) := by
  unfold execPostFlitReceive
  repeat' first
    | (refine Fine.atTime _ ?_)
    | (simp only [Fine.next_iff, Quiet, ite_pending, ite_audit, ite_self, and_self, arriveRequest_quiet]; done)
    | (refine accepted_fine fun _ q => ?_)
    | split
theorem execHostmsgReceive_fine (t : FTime) (p : Port) (f : Flit) (s : State) : Fine s (execHostmsgReceive t p f s) := by
  unfold execHostmsgReceive
  repeat' first
    | (refine Fine.atTime _ ?_)
    | (simp only [Fine.next_iff, Quiet, ite_pending, ite_audit, ite_self, and_self, arriveRequest_quiet]; done)
    | (refine accepted_fine fun _ q => ?_)
    | split
theorem execPcsLock_fine (p : Port) (s : State) : Fine s (execPcsLock p s) := by
  unfold execPcsLock
  repeat' first
    | (simp only [Fine.next_iff, Quiet, ite_pending, ite_audit, ite_self, and_self, State.setEnt_quiet]; done)
    | (rename_i h; rcases pair_cases h with ⟨_, _⟩; clear h; subst_vars)
    | simp only [Fine.next_iff, Quiet, ite_pending, ite_audit, ite_self, and_self, State.setEnt_quiet]
    | (with_reducible refine Quiet.trans ?_ (foldl_quiet _ ?_ _ _))
    | (intro _ _)
    | split
theorem execFlitLockAcquired_fine (w : LockWindows) (s : State) : Fine s (execFlitLockAcquired w s) := by
  unfold execFlitLockAcquired
  repeat' first
    | (simp only [Fine.next_iff, Quiet, ite_pending, ite_audit, ite_self, and_self, State.modPort_quiet, State.setEnt_quiet]; done)
    | split
theorem execLinkDown_fine (t : FTime) (p : Port) (s : State) : Fine s (execLinkDown t p s) := by
  unfold execLinkDown
  repeat' first
    | (refine Fine.atTime _ ?_)
    | (simp only [Fine.next_iff, Quiet, ite_pending, ite_audit, ite_self, and_self, loseLock_quiet]; done)
    | split
theorem execLaserFault_fine (src : Fin 6) (s : State) : Fine s (execLaserFault src s) := by
  unfold execLaserFault
  repeat' first
    | (simp only [Fine.next_iff, Quiet, ite_pending, ite_audit, ite_self, and_self, State.raise_quiet, leaveService_quiet]; done)
    | (rename_i h; rcases pair_cases h with ⟨_, _⟩; clear h; subst_vars)
    | simp only [Fine.next_iff, Quiet, ite_pending, ite_audit, ite_self, and_self, State.raise_quiet, leaveService_quiet]
    | (with_reducible refine Quiet.trans ?_ (foldl_quiet _ ?_ _ _))
    | (intro _ _)
    | split
theorem execTrainAdvertise_fine (p : Port) (s : State) : Fine s (execTrainAdvertise p s) := by
  unfold execTrainAdvertise
  repeat' first
    | (simp only [Fine.next_iff, Quiet, ite_pending, ite_audit, ite_self, and_self, trainPayload_quiet, State.modPort_quiet, tryService_quiet]; done)
    | (rename_i h; rcases pair_cases h with ⟨_, _⟩; clear h; subst_vars)
    | simp only [Fine.next_iff, Quiet, ite_pending, ite_audit, ite_self, and_self, trainPayload_quiet, State.modPort_quiet, tryService_quiet]
    | (with_reducible refine Quiet.trans ?_ (foldl_quiet _ ?_ _ _))
    | (intro _ _)
    | split
theorem execTrainReceive_fine (p : Port) (f : Flit) (s : State) : Fine s (execTrainReceive p f s) := by
  unfold execTrainReceive
  repeat' first
    | (simp only [Fine.next_iff, Quiet, ite_pending, ite_audit, ite_self, and_self, State.modPort_quiet, holdPort_quiet, tryService_quiet]; done)
    | (rename_i h; rcases pair_cases h with ⟨_, _⟩; clear h; subst_vars)
    | simp only [Fine.next_iff, Quiet, ite_pending, ite_audit, ite_self, and_self, State.modPort_quiet, holdPort_quiet, tryService_quiet]
    | (with_reducible refine Quiet.trans ?_ (foldl_quiet _ ?_ _ _))
    | (intro _ _)
    | split
theorem execHeldPortRetrain_fine (p : Port) (s : State) : Fine s (execHeldPortRetrain p s) := by
  unfold execHeldPortRetrain
  repeat' first
    | (simp only [Fine.next_iff, Quiet, ite_pending, ite_audit, ite_self, and_self, State.modPort_quiet]; done)
    | (rename_i h; rcases pair_cases h with ⟨_, _⟩; clear h; subst_vars)
    | simp only [Fine.next_iff, Quiet, ite_pending, ite_audit, ite_self, and_self, State.modPort_quiet]
    | (with_reducible refine Quiet.trans ?_ (foldl_quiet _ ?_ _ _))
    | (intro _ _)
    | split
theorem execCorruptFlit_fine (w : FlitWindow) (s : State) : Fine s (execCorruptFlit w s) := by
  unfold execCorruptFlit
  repeat' first
    | (simp only [Fine.next_iff, Quiet, ite_pending, ite_audit, ite_self, and_self, loseLock_quiet, State.modPort_quiet]; done)
    | (rename_i h; rcases pair_cases h with ⟨_, _⟩; clear h; subst_vars)
    | simp only [Fine.next_iff, Quiet, ite_pending, ite_audit, ite_self, and_self, loseLock_quiet, State.modPort_quiet]
    | (with_reducible refine Quiet.trans ?_ (foldl_quiet _ ?_ _ _))
    | (intro _ _)
    | split
theorem execRetryRepeat_fine (p : Port) (s : State) : Fine s (execRetryRepeat p s) := by
  unfold execRetryRepeat
  repeat' first
    | (simp only [Fine.next_iff, Quiet, ite_pending, ite_audit, ite_self, and_self, State.modPort_quiet]; done)
    | (rename_i h; rcases pair_cases h with ⟨_, _⟩; clear h; subst_vars)
    | simp only [Fine.next_iff, Quiet, ite_pending, ite_audit, ite_self, and_self, State.modPort_quiet]
    | (with_reducible refine Quiet.trans ?_ (foldl_quiet _ ?_ _ _))
    | (intro _ _)
    | split
theorem execRetryReceive_fine (t : FTime) (p : Port) (f : Flit) (s : State) : Fine s (execRetryReceive t p f s) := by
  unfold execRetryReceive
  repeat' first
    | (refine Fine.atTime _ ?_)
    | (simp only [Fine.next_iff, Quiet, ite_pending, ite_audit, ite_self, and_self, noteReplay_quiet, leaveService_quiet, State.modPort_quiet]; done)
    | (refine accepted_fine fun _ q => ?_)
    | (rename_i h; rcases pair_cases h with ⟨_, _⟩; clear h; subst_vars)
    | simp only [Fine.next_iff, Quiet, ite_pending, ite_audit, ite_self, and_self, noteReplay_quiet, leaveService_quiet, State.modPort_quiet]
    | (with_reducible refine Quiet.trans ?_ (foldl_quiet _ ?_ _ _))
    | (intro _ _)
    | split
theorem execIdleReceive_fine (p : Port) (f : Flit) (s : State) : Fine s (execIdleReceive p f s) := by
  unfold execIdleReceive
  repeat' first
    | (simp only [Fine.next_iff, Quiet, ite_pending, ite_audit, ite_self, and_self]; done)
    | (refine accepted_fine fun _ q => ?_)
    | (rename_i h; rcases pair_cases h with ⟨_, _⟩; clear h; subst_vars)
    | simp only [Fine.next_iff, Quiet, ite_pending, ite_audit, ite_self, and_self]
    | (with_reducible refine Quiet.trans ?_ (foldl_quiet _ ?_ _ _))
    | (intro _ _)
    | split
theorem execMapSend_fine (s : State) : Fine s (execMapSend s) := by
  unfold execMapSend
  repeat' first
    | (simp only [Fine.next_iff, Quiet, ite_pending, ite_audit, ite_self, and_self, State.modPort_quiet]; done)
    | (rename_i h; rcases pair_cases h with ⟨_, _⟩; clear h; subst_vars)
    | simp only [Fine.next_iff, Quiet, ite_pending, ite_audit, ite_self, and_self, State.modPort_quiet]
    | (with_reducible refine Quiet.trans ?_ (foldl_quiet _ ?_ _ _))
    | (intro _ _)
    | split
theorem execMapReceive_fine (p : Port) (f : Flit) (s : State) : Fine s (execMapReceive p f s) := by
  unfold execMapReceive
  repeat' first
    | (simp only [Fine.next_iff, Quiet, ite_pending, ite_audit, ite_self, and_self, roleConflict_quiet]; done)
    | (refine accepted_fine fun _ q => ?_)
    | (rename_i h; rcases pair_cases h with ⟨_, _⟩; clear h; subst_vars)
    | simp only [Fine.next_iff, Quiet, ite_pending, ite_audit, ite_self, and_self, roleConflict_quiet]
    | (with_reducible refine Quiet.trans ?_ (foldl_quiet _ ?_ _ _))
    | (intro _ _)
    | split
theorem execFlitSlot_fine (t : FTime) (p : Port) (s : State) : Fine s (execFlitSlot t p s) := by
  unfold execFlitSlot
  refine Fine.atTime _ ?_
  generalize { s with now := t } = s
  dsimp only
  split
  · split
    · exact Fine.next_iff.2 (Quiet.trans (replayCheck_quiet ..) (leaveService_quiet ..))
    · exact Fine.next_iff.2 (Quiet.trans (replayCheck_quiet s p.val)
        (Quiet.trans (slotFlit_quiet ..) (Quiet.trans (departs_quiet ..) (stampFlit_quiet ..))))
  · split
    · split
      · exact Fine.next_iff.2 (Quiet.trans (State.modPort_quiet ..) (tryService_quiet ..))
      · exact Fine.next_iff.2 (State.modPort_quiet ..)
    · exact Fine.same s
theorem issue_fine {s : State} {c : Nat} {w : W64} {f : State → CoreS → Out} (h : ∀ t, Fine t (f t (s.core c))) : Fine s (issue s c w f) := by
  unfold issue
  simp only
  repeat' first
    | exact afterCheck_fine (readOnce_quiet ..) h
    | (simp only [Fine.next_iff, instrInvalid_quiet, and_self]; done)
    | split
theorem setAndGo_fine (s : State) (c : Nat) (x : CoreS) (d : Reg) (v : W64) : Fine s (setAndGo s c x d v) := by
  simp only [setAndGo, Fine.next_iff, Quiet, ite_pending, ite_audit, ite_self, and_self, State.setCore_quiet]
theorem startWait_fine (s : State) (c : Nat) (x : CoreS) (w : WaitFor) : Fine s (startWait s c x w) := by
  simp only [startWait, Fine.next_iff, Quiet, ite_pending, ite_audit, ite_self, and_self, State.setCore_quiet]
theorem execNop_fine (c : Core) (s : State) : Fine s (execNop c s) := by
  unfold execNop
  repeat' first
    | (simp only [Fine.next_iff, Quiet, ite_pending, ite_audit, ite_self, and_self, State.setCore_quiet]; done)
    | (refine issue_fine fun _ => ?_)
    | (rename_i h; rcases pair_cases h with ⟨_, _⟩; clear h; subst_vars)
    | simp only [Fine.next_iff, Quiet, ite_pending, ite_audit, ite_self, and_self, State.setCore_quiet]
    | (with_reducible refine Quiet.trans ?_ (foldl_quiet _ ?_ _ _))
    | (intro _ _)
    | split
theorem execHalt_fine (c : Core) (s : State) : Fine s (execHalt c s) := by
  unfold execHalt
  repeat' first
    | (simp only [Fine.next_iff, Quiet, ite_pending, ite_audit, ite_self, and_self, State.setCore_quiet]; done)
    | (refine issue_fine fun _ => ?_)
    | (rename_i h; rcases pair_cases h with ⟨_, _⟩; clear h; subst_vars)
    | simp only [Fine.next_iff, Quiet, ite_pending, ite_audit, ite_self, and_self, State.setCore_quiet]
    | (with_reducible refine Quiet.trans ?_ (foldl_quiet _ ?_ _ _))
    | (intro _ _)
    | split
theorem execProgramEnd_fine (c : Core) (s : State) : Fine s (execProgramEnd c s) := by
  unfold execProgramEnd
  repeat' first
    | (simp only [Fine.next_iff, Quiet, ite_pending, ite_audit, ite_self, and_self, State.setCore_quiet]; done)
    | (rename_i h; rcases pair_cases h with ⟨_, _⟩; clear h; subst_vars)
    | simp only [Fine.next_iff, Quiet, ite_pending, ite_audit, ite_self, and_self, State.setCore_quiet]
    | (with_reducible refine Quiet.trans ?_ (foldl_quiet _ ?_ _ _))
    | (intro _ _)
    | split
theorem branch_fine (s : State) (c : Nat) (x : CoreS) (imm : W32) : Fine s (branch s c x imm) := by
  unfold branch
  repeat' first
    | (simp only [Fine.next_iff, Quiet, ite_pending, ite_audit, ite_self, and_self, instrInvalid_quiet, State.setCore_quiet]; done)
    | (rename_i h; rcases pair_cases h with ⟨_, _⟩; clear h; subst_vars)
    | simp only [Fine.next_iff, Quiet, ite_pending, ite_audit, ite_self, and_self, instrInvalid_quiet, State.setCore_quiet]
    | (with_reducible refine Quiet.trans ?_ (foldl_quiet _ ?_ _ _))
    | (intro _ _)
    | split
theorem execBr_fine (c : Core) (imm : W32) (s : State) : Fine s (execBr c imm s) := by
  unfold execBr
  repeat' first
    | (simp only [Fine.next_iff, Quiet, ite_pending, ite_audit, ite_self, and_self]; done)
    | (refine issue_fine fun _ => ?_)
    | (refine Fine.of (branch_fine ..) ?_ ?_ <;> (simp only [ite_pending, ite_audit, ite_self]; done))
    | exact branch_fine ..
    | (rename_i h; rcases pair_cases h with ⟨_, _⟩; clear h; subst_vars)
    | simp only [Fine.next_iff, Quiet, ite_pending, ite_audit, ite_self, and_self]
    | (with_reducible refine Quiet.trans ?_ (foldl_quiet _ ?_ _ _))
    | (intro _ _)
    | split
theorem execBrc_fine (c : Core) (k : Cond) (a : Reg) (b : Reg) (imm : W32) (s : State) : Fine s (execBrc c k a b imm s) := by
  unfold execBrc
  repeat' first
    | (simp only [Fine.next_iff, Quiet, ite_pending, ite_audit, ite_self, and_self, State.setCore_quiet]; done)
    | (refine issue_fine fun _ => ?_)
    | (refine Fine.of (branch_fine ..) ?_ ?_ <;> (simp only [ite_pending, ite_audit, ite_self, State.setCore_quiet]; done))
    | exact branch_fine ..
    | (rename_i h; rcases pair_cases h with ⟨_, _⟩; clear h; subst_vars)
    | simp only [Fine.next_iff, Quiet, ite_pending, ite_audit, ite_self, and_self, State.setCore_quiet]
    | (with_reducible refine Quiet.trans ?_ (foldl_quiet _ ?_ _ _))
    | (intro _ _)
    | split
theorem execLoop_fine (c : Core) (counter : Option (Fin 4)) (live : Option Reg) (planned : W32) (s : State) : Fine s (execLoop c counter live planned s) := by
  unfold execLoop
  repeat' first
    | (simp only [Fine.next_iff, Quiet, ite_pending, ite_audit, ite_self, and_self, shapeOver_quiet, State.setCore_quiet]; done)
    | (refine issue_fine fun _ => ?_)
    | (rename_i h; rcases pair_cases h with ⟨_, _⟩; clear h; subst_vars)
    | simp only [Fine.next_iff, Quiet, ite_pending, ite_audit, ite_self, and_self, shapeOver_quiet, State.setCore_quiet]
    | (with_reducible refine Quiet.trans ?_ (foldl_quiet _ ?_ _ _))
    | (intro _ _)
    | split
theorem execEndl_fine (c : Core) (s : State) : Fine s (execEndl c s) := by
  unfold execEndl
  repeat' first
    | (simp only [Fine.next_iff, Quiet, ite_pending, ite_audit, ite_self, and_self, instrInvalid_quiet, State.setCore_quiet]; done)
    | (refine issue_fine fun _ => ?_)
    | (rename_i h; rcases pair_cases h with ⟨_, _⟩; clear h; subst_vars)
    | simp only [Fine.next_iff, Quiet, ite_pending, ite_audit, ite_self, and_self, instrInvalid_quiet, State.setCore_quiet]
    | (with_reducible refine Quiet.trans ?_ (foldl_quiet _ ?_ _ _))
    | (intro _ _)
    | split
theorem execRdl_fine (c : Core) (k : Fin 4) (d : Reg) (s : State) : Fine s (execRdl c k d s) := by
  unfold execRdl
  repeat' first
    | (simp only [Fine.next_iff, Quiet, ite_pending, ite_audit, ite_self, and_self]; done)
    | (refine issue_fine fun _ => ?_)
    | (refine Fine.of (setAndGo_fine ..) ?_ ?_ <;> (simp only [ite_pending, ite_audit, ite_self]; done))
    | exact setAndGo_fine ..
    | (rename_i h; rcases pair_cases h with ⟨_, _⟩; clear h; subst_vars)
    | simp only [Fine.next_iff, Quiet, ite_pending, ite_audit, ite_self, and_self]
    | (with_reducible refine Quiet.trans ?_ (foldl_quiet _ ?_ _ _))
    | (intro _ _)
    | split
theorem execMovi_fine (c : Core) (d : Reg) (imm : W32) (s : State) : Fine s (execMovi c d imm s) := by
  unfold execMovi
  repeat' first
    | (simp only [Fine.next_iff, Quiet, ite_pending, ite_audit, ite_self, and_self]; done)
    | (refine issue_fine fun _ => ?_)
    | (refine Fine.of (setAndGo_fine ..) ?_ ?_ <;> (simp only [ite_pending, ite_audit, ite_self]; done))
    | exact setAndGo_fine ..
    | (rename_i h; rcases pair_cases h with ⟨_, _⟩; clear h; subst_vars)
    | simp only [Fine.next_iff, Quiet, ite_pending, ite_audit, ite_self, and_self]
    | (with_reducible refine Quiet.trans ?_ (foldl_quiet _ ?_ _ _))
    | (intro _ _)
    | split
theorem execMovhi_fine (c : Core) (d : Reg) (imm : W32) (s : State) : Fine s (execMovhi c d imm s) := by
  unfold execMovhi
  repeat' first
    | (simp only [Fine.next_iff, Quiet, ite_pending, ite_audit, ite_self, and_self]; done)
    | (refine issue_fine fun _ => ?_)
    | (refine Fine.of (setAndGo_fine ..) ?_ ?_ <;> (simp only [ite_pending, ite_audit, ite_self]; done))
    | exact setAndGo_fine ..
    | (rename_i h; rcases pair_cases h with ⟨_, _⟩; clear h; subst_vars)
    | simp only [Fine.next_iff, Quiet, ite_pending, ite_audit, ite_self, and_self]
    | (with_reducible refine Quiet.trans ?_ (foldl_quiet _ ?_ _ _))
    | (intro _ _)
    | split
theorem execAlu_fine (c : Core) (op : AluOp) (d : Reg) (a : Reg) (b : AluB) (s : State) : Fine s (execAlu c op d a b s) := by
  unfold execAlu
  repeat' first
    | (simp only [Fine.next_iff, Quiet, ite_pending, ite_audit, ite_self, and_self]; done)
    | (refine issue_fine fun _ => ?_)
    | (refine Fine.of (setAndGo_fine ..) ?_ ?_ <;> (simp only [ite_pending, ite_audit, ite_self]; done))
    | exact setAndGo_fine ..
    | (rename_i h; rcases pair_cases h with ⟨_, _⟩; clear h; subst_vars)
    | simp only [Fine.next_iff, Quiet, ite_pending, ite_audit, ite_self, and_self]
    | (with_reducible refine Quiet.trans ?_ (foldl_quiet _ ?_ _ _))
    | (intro _ _)
    | split
theorem execCdiv_fine (c : Core) (d a : Reg) (imm : W32) (s : State) (ok : ¬(imm = 0 ∨ 2 ^ 31 < imm.toNat)) : Fine s (execCdiv c d a imm s) := by
  unfold execCdiv
  rw [if_neg ok]
  refine issue_fine fun s => ?_
  simp only [Fine.next_iff, setAndGo_fine]
theorem execLd_fine (c : Core) (size : MemSize) (d : Reg) (a : Reg) (imm : W32) (s : State) : Fine s (execLd c size d a imm s) := by
  unfold execLd
  refine issue_fine fun s => ?_
  split
  · exact Fine.next_iff.2 (instrInvalid_quiet s c.val)
  · split
    · exact Fine.next_iff.2 (instrInvalid_quiet s c.val)
    · split
      · exact Fine.same s
      · exact afterCheck_fine (sramReadCheck_quiet ..) fun _ => setAndGo_fine ..
theorem execSt_fine (c : Core) (size : MemSize) (a : Reg) (b : Reg) (imm : W32) (s : State) : Fine s (execSt c size a b imm s) := by
  unfold execSt
  repeat' first
    | (simp only [Fine.next_iff, Quiet, ite_pending, ite_audit, ite_self, and_self, instrInvalid_quiet, State.modCore_quiet, State.writeClm_quiet]; done)
    | (refine issue_fine fun _ => ?_)
    | (rename_i h; rcases pair_cases h with ⟨_, _⟩; clear h; subst_vars)
    | simp only [Fine.next_iff, Quiet, ite_pending, ite_audit, ite_self, and_self, instrInvalid_quiet, State.modCore_quiet, State.writeClm_quiet]
    | (with_reducible refine Quiet.trans ?_ (foldl_quiet _ ?_ _ _))
    | (intro _ _)
    | split
theorem execSetpad_fine (c : Core) (pad : Fin 4) (imm : W32) (s : State) : Fine s (execSetpad c pad imm s) := by
  unfold execSetpad
  repeat' first
    | (simp only [Fine.next_iff, Quiet, ite_pending, ite_audit, ite_self, and_self, State.setCore_quiet]; done)
    | (refine issue_fine fun _ => ?_)
    | (rename_i h; rcases pair_cases h with ⟨_, _⟩; clear h; subst_vars)
    | simp only [Fine.next_iff, Quiet, ite_pending, ite_audit, ite_self, and_self, State.setCore_quiet]
    | (with_reducible refine Quiet.trans ?_ (foldl_quiet _ ?_ _ _))
    | (intro _ _)
    | split
theorem execWcbind_fine (c : Core) (d : Reg) (counter : Byte) (s : State) : Fine s (execWcbind c d counter s) := by
  unfold execWcbind
  repeat' first
    | (simp only [Fine.next_iff, Quiet, ite_pending, ite_audit, ite_self, and_self]; done)
    | (refine issue_fine fun _ => ?_)
    | (refine Fine.of (startWait_fine ..) ?_ ?_ <;> (simp only [ite_pending, ite_audit, ite_self]; done))
    | exact startWait_fine ..
    | (rename_i h; rcases pair_cases h with ⟨_, _⟩; clear h; subst_vars)
    | simp only [Fine.next_iff, Quiet, ite_pending, ite_audit, ite_self, and_self]
    | (with_reducible refine Quiet.trans ?_ (foldl_quiet _ ?_ _ _))
    | (intro _ _)
    | split
theorem execWcbindServe_fine (c : Core) (s : State) : Fine s (execWcbindServe c s) := by
  unfold execWcbindServe
  repeat' first
    | (simp only [Fine.next_iff, Quiet, ite_pending, ite_audit, ite_self, and_self, endWait_quiet]; done)
    | (rename_i h; rcases pair_cases h with ⟨_, _⟩; clear h; subst_vars)
    | simp only [Fine.next_iff, Quiet, ite_pending, ite_audit, ite_self, and_self, endWait_quiet]
    | (with_reducible refine Quiet.trans ?_ (foldl_quiet _ ?_ _ _))
    | (intro _ _)
    | split
theorem execWcinit_fine (c : Core) (a : Reg) (counter : Byte) (s : State) : Fine s (execWcinit c a counter s) := by
  unfold execWcinit
  repeat' first
    | (simp only [Fine.next_iff, Quiet, ite_pending, ite_audit, ite_self, and_self, instrInvalid_quiet]; done)
    | (refine issue_fine fun _ => ?_)
    | (refine Fine.of (startWait_fine ..) ?_ ?_ <;> (simp only [ite_pending, ite_audit, ite_self, instrInvalid_quiet]; done))
    | exact startWait_fine ..
    | (rename_i h; rcases pair_cases h with ⟨_, _⟩; clear h; subst_vars)
    | simp only [Fine.next_iff, Quiet, ite_pending, ite_audit, ite_self, and_self, instrInvalid_quiet]
    | (with_reducible refine Quiet.trans ?_ (foldl_quiet _ ?_ _ _))
    | (intro _ _)
    | split
theorem execWcinitApply_fine (c : Core) (s : State) : Fine s (execWcinitApply c s) := by
  unfold execWcinitApply
  repeat' first
    | (simp only [Fine.next_iff, Quiet, ite_pending, ite_audit, ite_self, and_self, endWait_quiet, State.setWc_quiet]; done)
    | (rename_i h; rcases pair_cases h with ⟨_, _⟩; clear h; subst_vars)
    | simp only [Fine.next_iff, Quiet, ite_pending, ite_audit, ite_self, and_self, endWait_quiet, State.setWc_quiet]
    | (with_reducible refine Quiet.trans ?_ (foldl_quiet _ ?_ _ _))
    | (intro _ _)
    | split
theorem execTake_fine (c : Core) (d a : Reg) (imm : W32) (s : State) (ok : ¬(imm = 0 ∨ 65536 < imm.toNat)) : Fine s (execTake c d a imm s) := by
  unfold execTake
  rw [if_neg ok]
  refine issue_fine fun s => ?_
  dsimp only
  repeat' first
    | exact setAndGo_fine ..
    | exact startWait_fine ..
    | (simp only [Fine.next_iff, instrInvalid_quiet, and_self]; done)
    | split
theorem execTakeServe_fine (c : Core) (s : State) : Fine s (execTakeServe c s) := by
  unfold execTakeServe
  repeat' first
    | (simp only [Fine.next_iff, Quiet, ite_pending, ite_audit, ite_self, and_self, State.addEnt_quiet, State.raise_quiet, State.modCore_quiet, endWait_quiet, State.setWc_quiet]; done)
    | (rename_i h; rcases pair_cases h with ⟨_, _⟩; clear h; subst_vars)
    | simp only [Fine.next_iff, Quiet, ite_pending, ite_audit, ite_self, and_self, State.addEnt_quiet, State.raise_quiet, State.modCore_quiet, endWait_quiet, State.setWc_quiet]
    | (with_reducible refine Quiet.trans ?_ (foldl_quiet _ ?_ _ _))
    | (intro _ _)
    | split
theorem execWait_fine (c : Core) (sem : Sem) (a : Reg) (imm : W32) (s : State) : Fine s (execWait c sem a imm s) := by
  unfold execWait
  repeat' first
    | (simp only [Fine.next_iff, Quiet, ite_pending, ite_audit, ite_self, and_self, instrInvalid_quiet]; done)
    | (refine issue_fine fun _ => ?_)
    | (refine Fine.of (startWait_fine ..) ?_ ?_ <;> (simp only [ite_pending, ite_audit, ite_self, instrInvalid_quiet]; done))
    | exact startWait_fine ..
    | (rename_i h; rcases pair_cases h with ⟨_, _⟩; clear h; subst_vars)
    | simp only [Fine.next_iff, Quiet, ite_pending, ite_audit, ite_self, and_self, instrInvalid_quiet]
    | (with_reducible refine Quiet.trans ?_ (foldl_quiet _ ?_ _ _))
    | (intro _ _)
    | split
theorem execWaitRelease_fine (c : Core) (s : State) : Fine s (execWaitRelease c s) := by
  unfold execWaitRelease
  repeat' first
    | (simp only [Fine.next_iff, Quiet, ite_pending, ite_audit, ite_self, and_self, endWait_quiet]; done)
    | (rename_i h; rcases pair_cases h with ⟨_, _⟩; clear h; subst_vars)
    | simp only [Fine.next_iff, Quiet, ite_pending, ite_audit, ite_self, and_self, endWait_quiet]
    | (with_reducible refine Quiet.trans ?_ (foldl_quiet _ ?_ _ _))
    | (intro _ _)
    | split
theorem execWaitft_fine (c : Core) (a : Reg) (imm : W32) (s : State) : Fine s (execWaitft c a imm s) := by
  unfold execWaitft
  repeat' first
    | (simp only [Fine.next_iff, Quiet, ite_pending, ite_audit, ite_self, and_self, instrInvalid_quiet]; done)
    | (refine issue_fine fun _ => ?_)
    | (refine Fine.of (startWait_fine ..) ?_ ?_ <;> (simp only [ite_pending, ite_audit, ite_self, instrInvalid_quiet]; done))
    | exact startWait_fine ..
    | (rename_i h; rcases pair_cases h with ⟨_, _⟩; clear h; subst_vars)
    | simp only [Fine.next_iff, Quiet, ite_pending, ite_audit, ite_self, and_self, instrInvalid_quiet]
    | (with_reducible refine Quiet.trans ?_ (foldl_quiet _ ?_ _ _))
    | (intro _ _)
    | split
theorem execWaitftRelease_fine (t : FTime) (c : Core) (s : State) : Fine s (execWaitftRelease t c s) := by
  unfold execWaitftRelease
  repeat' first
    | (refine Fine.atTime _ ?_)
    | (simp only [Fine.next_iff, Quiet, ite_pending, ite_audit, ite_self, and_self, endWait_quiet]; done)
    | (rename_i h; rcases pair_cases h with ⟨_, _⟩; clear h; subst_vars)
    | simp only [Fine.next_iff, Quiet, ite_pending, ite_audit, ite_self, and_self, endWait_quiet]
    | (with_reducible refine Quiet.trans ?_ (foldl_quiet _ ?_ _ _))
    | (intro _ _)
    | split
theorem execWaitLong_fine (t : FTime) (c : Core) (s : State) : Fine s (execWaitLong t c s) := by
  unfold execWaitLong
  repeat' first
    | (refine Fine.atTime _ ?_)
    | (simp only [Fine.next_iff, Quiet, ite_pending, ite_audit, ite_self, and_self, State.modCore_quiet, State.raise_quiet, State.addEnt_quiet]; done)
    | (rename_i h; rcases pair_cases h with ⟨_, _⟩; clear h; subst_vars)
    | simp only [Fine.next_iff, Quiet, ite_pending, ite_audit, ite_self, and_self, State.modCore_quiet, State.raise_quiet, State.addEnt_quiet]
    | (with_reducible refine Quiet.trans ?_ (foldl_quiet _ ?_ _ _))
    | (intro _ _)
    | split
theorem execPostFieldApply_fine (c : Core) (id : Nat) (s : State) : Fine s (execPostFieldApply c id s) := by
  unfold execPostFieldApply
  repeat' first
    | (simp only [Fine.next_iff, Quiet, ite_pending, ite_audit, ite_self, and_self, incSem_quiet, State.setCore_quiet]; done)
    | (rename_i h; rcases pair_cases h with ⟨_, _⟩; clear h; subst_vars)
    | simp only [Fine.next_iff, Quiet, ite_pending, ite_audit, ite_self, and_self, incSem_quiet, State.setCore_quiet]
    | (with_reducible refine Quiet.trans ?_ (foldl_quiet _ ?_ _ _))
    | (intro _ _)
    | split
theorem skipGo_fine (s : State) (c : Nat) (x : CoreS) (p : PostField) : Fine s (skipGo s c x p) := by
  simp only [skipGo, Fine.next_iff, Quiet, ite_pending, ite_audit, ite_self, and_self, State.setCore_quiet]
theorem execDrainComplete_fine (s : State) : Fine s (execDrainComplete s) := by
  unfold execDrainComplete
  repeat' first
    | (simp only [Fine.next_iff, Quiet, ite_pending, ite_audit, ite_self, and_self]; done)
    | (rename_i h; rcases pair_cases h with ⟨_, _⟩; clear h; subst_vars)
    | simp only [Fine.next_iff, Quiet, ite_pending, ite_audit, ite_self, and_self]
    | (with_reducible refine Quiet.trans ?_ (foldl_quiet _ ?_ _ _))
    | (intro _ _)
    | split
theorem execContextSaved_fine (s : State) : Fine s (execContextSaved s) := by
  unfold execContextSaved
  split
  · exact Fine.same s
  · split
    · simp only [Fine.next_iff, State.enterEff_quiet, keepMeasurement_quiet, State.setEnt_quiet, openPorts_quiet, endRun_quiet]
      exact foldl_quiet _ (saveAt_quiet _) _ s
    · exact Fine.same s
theorem execDrainTimeout_fine (t : FTime) (s : State) : Fine s (execDrainTimeout t s) := by
  unfold execDrainTimeout
  repeat' first
    | (refine Fine.atTime _ ?_)
    | (simp only [Fine.next_iff, Quiet, ite_pending, ite_audit, ite_self, and_self, toFault_quiet, State.raise_quiet]; done)
    | (rename_i h; rcases pair_cases h with ⟨_, _⟩; clear h; subst_vars)
    | simp only [Fine.next_iff, Quiet, ite_pending, ite_audit, ite_self, and_self, toFault_quiet, State.raise_quiet]
    | (with_reducible refine Quiet.trans ?_ (foldl_quiet _ ?_ _ _))
    | (intro _ _)
    | split
theorem skipPass_fine (s : State) (c : Nat) (x : CoreS) (w : W64) (unit : Nat) (rows : Nat) (keep : Bool) (p : PostField) : Fine s (skipPass s c x w unit rows keep p) := by
  unfold skipPass
  repeat' first
    | (simp only [Fine.next_iff, Quiet, ite_pending, ite_audit, ite_self, and_self, queuePass_quiet]; done)
    | (refine Fine.of (skipGo_fine ..) ?_ ?_ <;> (simp only [ite_pending, ite_audit, ite_self, queuePass_quiet]; done))
    | exact skipGo_fine ..
    | split
theorem execMpass_fine (c : Core) (f : MPassF) (s : State) : Fine s (execMpass c f s) := by
  unfold execMpass
  refine issue_fine fun s => ?_
  dsimp only
  refine afterCheck_fine (modeCheck_quiet ..) fun s => ?_
  refine Fine.ite (fun _ => skipPass_fine ..) fun _ => Fine.ite (fun _ => Fine.same _) fun _ =>
    Fine.ite (fun _ => Fine.next_iff.2 (coreFault_quiet ..)) fun _ => Fine.ite (fun _ => Fine.next_iff.2 (instrInvalid_quiet ..)) fun _ =>
    Fine.ite (fun _ => Fine.next_iff.2 (instrInvalid_quiet ..)) fun _ => Fine.ite (fun _ => Fine.same _) fun _ => ?_
  refine afterCheck_fine (checkSram_quiet ..) fun s => Fine.next_iff.2 (Quiet.trans ?_ (queuePass_quiet ..))
  refine Quiet.trans ?_ (State.addEnt_quiet ..)
  split <;> exact ⟨rfl, rfl⟩
theorem execPassRetire_fine (c : Core) (id : Nat) (s : State) : Fine s (execPassRetire c id s) := by
  unfold execPassRetire
  repeat' first
    | (simp only [Fine.next_iff, Quiet, ite_pending, ite_audit, ite_self, and_self, writePass_quiet, State.modCore_quiet, State.addEnt_quiet, noteCount_quiet]; done)
    | (rename_i h; rcases pair_cases h with ⟨_, _⟩; clear h; subst_vars)
    | simp only [Fine.next_iff, Quiet, ite_pending, ite_audit, ite_self, and_self, writePass_quiet, State.modCore_quiet, State.addEnt_quiet, noteCount_quiet]
    | (with_reducible refine Quiet.trans ?_ (foldl_quiet _ ?_ _ _))
    | (intro _ _)
    | split
theorem rowUnit_fine (s : State) (c : Nat) (x : CoreS) (j : RowJob) (whole : Bool) (g : RowFn) : Fine s (rowUnit s c x j whole g) := by
  unfold rowUnit
  repeat' first
    | exact Fine.same _
    | (refine afterCheck_fine (checkSram_quiet ..) fun _ => ?_)
    | (refine afterCheck_fine (checkRanges_quiet ..) fun _ => ?_)
    | (refine afterCheck_fine (readOnce_quiet ..) fun _ => ?_)
    | (simp only [Fine.next_iff, Quiet, ite_pending, ite_audit, ite_self, and_self, coreFault_quiet, instrInvalid_quiet, checkRanges_quiet, eccHalt_quiet, State.setCore_quiet]; done)
    | (rename_i h; rcases pair_cases h with ⟨_, _⟩; clear h; subst_vars)
    | simp only [Fine.next_iff, Quiet, ite_pending, ite_audit, ite_self, and_self, coreFault_quiet, instrInvalid_quiet, checkRanges_quiet, eccHalt_quiet, State.setCore_quiet]
    | (with_reducible refine Quiet.trans ?_ (foldl_quiet _ ?_ _ _))
    | (intro _ _)
    | split
theorem rfunc_fine {s : State} {c : Core} {op : Nat} {f : RFuncF} {g : State → CoreS → RowJob → Out} (ok : rfOk op f = true)
    (h : ∀ t, Fine t (g t (s.core c.val) (rowJob (s.core c.val) op f))) : Fine s (rfunc s c op f g) := by
  unfold rfunc
  simp only [ok, Bool.not_true, Bool.false_eq_true, if_false]
  refine issue_fine fun s => ?_
  split
  · exact skipGo_fine ..
  · exact h s
theorem execAdd_fine (c : Core) (f : RFuncF) (s : State) (ok : rfOk 0x01 f = true) : Fine s (execAdd c f s) := by
  unfold execAdd
  repeat' first
    | (simp only [Fine.next_iff, Quiet, ite_pending, ite_audit, ite_self, and_self]; done)
    | (refine rfunc_fine (by assumption) fun _ => ?_)
    | (refine Fine.of (rowUnit_fine ..) ?_ ?_ <;> (simp only [ite_pending, ite_audit, ite_self]; done))
    | exact rowUnit_fine ..
    | (rename_i h; rcases pair_cases h with ⟨_, _⟩; clear h; subst_vars)
    | simp only [Fine.next_iff, Quiet, ite_pending, ite_audit, ite_self, and_self]
    | (with_reducible refine Quiet.trans ?_ (foldl_quiet _ ?_ _ _))
    | (intro _ _)
    | split
theorem execMul_fine (c : Core) (f : RFuncF) (s : State) (ok : rfOk 0x02 f = true) : Fine s (execMul c f s) := by
  unfold execMul
  repeat' first
    | (simp only [Fine.next_iff, Quiet, ite_pending, ite_audit, ite_self, and_self]; done)
    | (refine rfunc_fine (by assumption) fun _ => ?_)
    | (refine Fine.of (rowUnit_fine ..) ?_ ?_ <;> (simp only [ite_pending, ite_audit, ite_self]; done))
    | exact rowUnit_fine ..
    | (rename_i h; rcases pair_cases h with ⟨_, _⟩; clear h; subst_vars)
    | simp only [Fine.next_iff, Quiet, ite_pending, ite_audit, ite_self, and_self]
    | (with_reducible refine Quiet.trans ?_ (foldl_quiet _ ?_ _ _))
    | (intro _ _)
    | split
theorem execScale_fine (c : Core) (f : RFuncF) (s : State) (ok : rfOk 0x03 f = true) : Fine s (execScale c f s) := by
  unfold execScale
  repeat' first
    | (simp only [Fine.next_iff, Quiet, ite_pending, ite_audit, ite_self, and_self]; done)
    | (refine rfunc_fine (by assumption) fun _ => ?_)
    | (refine Fine.of (rowUnit_fine ..) ?_ ?_ <;> (simp only [ite_pending, ite_audit, ite_self]; done))
    | exact rowUnit_fine ..
    | (rename_i h; rcases pair_cases h with ⟨_, _⟩; clear h; subst_vars)
    | simp only [Fine.next_iff, Quiet, ite_pending, ite_audit, ite_self, and_self]
    | (with_reducible refine Quiet.trans ?_ (foldl_quiet _ ?_ _ _))
    | (intro _ _)
    | split
theorem execMin_fine (c : Core) (f : RFuncF) (s : State) (ok : rfOk 0x04 f = true) : Fine s (execMin c f s) := by
  unfold execMin
  repeat' first
    | (simp only [Fine.next_iff, Quiet, ite_pending, ite_audit, ite_self, and_self]; done)
    | (refine rfunc_fine (by assumption) fun _ => ?_)
    | (refine Fine.of (rowUnit_fine ..) ?_ ?_ <;> (simp only [ite_pending, ite_audit, ite_self]; done))
    | exact rowUnit_fine ..
    | (rename_i h; rcases pair_cases h with ⟨_, _⟩; clear h; subst_vars)
    | simp only [Fine.next_iff, Quiet, ite_pending, ite_audit, ite_self, and_self]
    | (with_reducible refine Quiet.trans ?_ (foldl_quiet _ ?_ _ _))
    | (intro _ _)
    | split
theorem execMax_fine (c : Core) (f : RFuncF) (s : State) (ok : rfOk 0x05 f = true) : Fine s (execMax c f s) := by
  unfold execMax
  repeat' first
    | (simp only [Fine.next_iff, Quiet, ite_pending, ite_audit, ite_self, and_self]; done)
    | (refine rfunc_fine (by assumption) fun _ => ?_)
    | (refine Fine.of (rowUnit_fine ..) ?_ ?_ <;> (simp only [ite_pending, ite_audit, ite_self]; done))
    | exact rowUnit_fine ..
    | (rename_i h; rcases pair_cases h with ⟨_, _⟩; clear h; subst_vars)
    | simp only [Fine.next_iff, Quiet, ite_pending, ite_audit, ite_self, and_self]
    | (with_reducible refine Quiet.trans ?_ (foldl_quiet _ ?_ _ _))
    | (intro _ _)
    | split
theorem execExp_fine (c : Core) (f : RFuncF) (s : State) (ok : rfOk 0x06 f = true) : Fine s (execExp c f s) := by
  unfold execExp
  repeat' first
    | (simp only [Fine.next_iff, Quiet, ite_pending, ite_audit, ite_self, and_self]; done)
    | (refine rfunc_fine (by assumption) fun _ => ?_)
    | (refine Fine.of (rowUnit_fine ..) ?_ ?_ <;> (simp only [ite_pending, ite_audit, ite_self]; done))
    | exact rowUnit_fine ..
    | (rename_i h; rcases pair_cases h with ⟨_, _⟩; clear h; subst_vars)
    | simp only [Fine.next_iff, Quiet, ite_pending, ite_audit, ite_self, and_self]
    | (with_reducible refine Quiet.trans ?_ (foldl_quiet _ ?_ _ _))
    | (intro _ _)
    | split
theorem execLog_fine (c : Core) (f : RFuncF) (s : State) (ok : rfOk 0x07 f = true) : Fine s (execLog c f s) := by
  unfold execLog
  repeat' first
    | (simp only [Fine.next_iff, Quiet, ite_pending, ite_audit, ite_self, and_self]; done)
    | (refine rfunc_fine (by assumption) fun _ => ?_)
    | (refine Fine.of (rowUnit_fine ..) ?_ ?_ <;> (simp only [ite_pending, ite_audit, ite_self]; done))
    | exact rowUnit_fine ..
    | (rename_i h; rcases pair_cases h with ⟨_, _⟩; clear h; subst_vars)
    | simp only [Fine.next_iff, Quiet, ite_pending, ite_audit, ite_self, and_self]
    | (with_reducible refine Quiet.trans ?_ (foldl_quiet _ ?_ _ _))
    | (intro _ _)
    | split
theorem execRecip_fine (c : Core) (f : RFuncF) (s : State) (ok : rfOk 0x08 f = true) : Fine s (execRecip c f s) := by
  unfold execRecip
  repeat' first
    | (simp only [Fine.next_iff, Quiet, ite_pending, ite_audit, ite_self, and_self]; done)
    | (refine rfunc_fine (by assumption) fun _ => ?_)
    | (refine Fine.of (rowUnit_fine ..) ?_ ?_ <;> (simp only [ite_pending, ite_audit, ite_self]; done))
    | exact rowUnit_fine ..
    | (rename_i h; rcases pair_cases h with ⟨_, _⟩; clear h; subst_vars)
    | simp only [Fine.next_iff, Quiet, ite_pending, ite_audit, ite_self, and_self]
    | (with_reducible refine Quiet.trans ?_ (foldl_quiet _ ?_ _ _))
    | (intro _ _)
    | split
theorem execRsqrt_fine (c : Core) (f : RFuncF) (s : State) (ok : rfOk 0x09 f = true) : Fine s (execRsqrt c f s) := by
  unfold execRsqrt
  repeat' first
    | (simp only [Fine.next_iff, Quiet, ite_pending, ite_audit, ite_self, and_self]; done)
    | (refine rfunc_fine (by assumption) fun _ => ?_)
    | (refine Fine.of (rowUnit_fine ..) ?_ ?_ <;> (simp only [ite_pending, ite_audit, ite_self]; done))
    | exact rowUnit_fine ..
    | (rename_i h; rcases pair_cases h with ⟨_, _⟩; clear h; subst_vars)
    | simp only [Fine.next_iff, Quiet, ite_pending, ite_audit, ite_self, and_self]
    | (with_reducible refine Quiet.trans ?_ (foldl_quiet _ ?_ _ _))
    | (intro _ _)
    | split
theorem execDiv_fine (c : Core) (f : RFuncF) (s : State) (ok : rfOk 0x0A f = true) : Fine s (execDiv c f s) := by
  unfold execDiv
  repeat' first
    | (simp only [Fine.next_iff, Quiet, ite_pending, ite_audit, ite_self, and_self]; done)
    | (refine rfunc_fine (by assumption) fun _ => ?_)
    | (refine Fine.of (rowUnit_fine ..) ?_ ?_ <;> (simp only [ite_pending, ite_audit, ite_self]; done))
    | exact rowUnit_fine ..
    | (rename_i h; rcases pair_cases h with ⟨_, _⟩; clear h; subst_vars)
    | simp only [Fine.next_iff, Quiet, ite_pending, ite_audit, ite_self, and_self]
    | (with_reducible refine Quiet.trans ?_ (foldl_quiet _ ?_ _ _))
    | (intro _ _)
    | split
theorem execAct_fine (c : Core) (f : RFuncF) (s : State) (ok : rfOk 0x0B f = true) : Fine s (execAct c f s) := by
  unfold execAct
  repeat' first
    | (simp only [Fine.next_iff, Quiet, ite_pending, ite_audit, ite_self, and_self, instrInvalid_quiet]; done)
    | (refine rfunc_fine (by assumption) fun _ => ?_)
    | (refine Fine.of (rowUnit_fine ..) ?_ ?_ <;> (simp only [ite_pending, ite_audit, ite_self, instrInvalid_quiet]; done))
    | exact rowUnit_fine ..
    | (rename_i h; rcases pair_cases h with ⟨_, _⟩; clear h; subst_vars)
    | simp only [Fine.next_iff, Quiet, ite_pending, ite_audit, ite_self, and_self, instrInvalid_quiet]
    | (with_reducible refine Quiet.trans ?_ (foldl_quiet _ ?_ _ _))
    | (intro _ _)
    | split
theorem execActd_fine (c : Core) (f : RFuncF) (s : State) (ok : rfOk 0x0C f = true) : Fine s (execActd c f s) := by
  unfold execActd
  repeat' first
    | (simp only [Fine.next_iff, Quiet, ite_pending, ite_audit, ite_self, and_self, instrInvalid_quiet]; done)
    | (refine rfunc_fine (by assumption) fun _ => ?_)
    | (refine Fine.of (rowUnit_fine ..) ?_ ?_ <;> (simp only [ite_pending, ite_audit, ite_self, instrInvalid_quiet]; done))
    | exact rowUnit_fine ..
    | (rename_i h; rcases pair_cases h with ⟨_, _⟩; clear h; subst_vars)
    | simp only [Fine.next_iff, Quiet, ite_pending, ite_audit, ite_self, and_self, instrInvalid_quiet]
    | (with_reducible refine Quiet.trans ?_ (foldl_quiet _ ?_ _ _))
    | (intro _ _)
    | split
theorem reduceOp_fine (s : State) (c : Nat) (x : CoreS) (j : RowJob) (g : RowFn) : Fine s (reduceOp s c x j g) := by
  unfold reduceOp
  refine Fine.ite (fun _ => Fine.same _) fun _ => Fine.ite (fun _ => rowUnit_fine ..) fun _ => ?_
  exact afterCheck_fine (readOnce_quiet ..) fun s => Fine.ite (fun _ => Fine.next_iff.2 (filterLimit_quiet ..)) fun _ =>
    Fine.ite (fun _ => Fine.same _) fun _ => rowUnit_fine ..
theorem execRowmax_fine (c : Core) (f : RFuncF) (s : State) (ok : rfOk 0x0D f = true) : Fine s (execRowmax c f s) := by
  unfold execRowmax
  repeat' first
    | (simp only [Fine.next_iff, Quiet, ite_pending, ite_audit, ite_self, and_self]; done)
    | (refine rfunc_fine (by assumption) fun _ => ?_)
    | (refine Fine.of (reduceOp_fine ..) ?_ ?_ <;> (simp only [ite_pending, ite_audit, ite_self]; done))
    | exact reduceOp_fine ..
    | (rename_i h; rcases pair_cases h with ⟨_, _⟩; clear h; subst_vars)
    | simp only [Fine.next_iff, Quiet, ite_pending, ite_audit, ite_self, and_self]
    | (with_reducible refine Quiet.trans ?_ (foldl_quiet _ ?_ _ _))
    | (intro _ _)
    | split
theorem execRowsum_fine (c : Core) (f : RFuncF) (s : State) (ok : rfOk 0x0E f = true) : Fine s (execRowsum c f s) := by
  unfold execRowsum
  repeat' first
    | (simp only [Fine.next_iff, Quiet, ite_pending, ite_audit, ite_self, and_self]; done)
    | (refine rfunc_fine (by assumption) fun _ => ?_)
    | (refine Fine.of (reduceOp_fine ..) ?_ ?_ <;> (simp only [ite_pending, ite_audit, ite_self]; done))
    | exact reduceOp_fine ..
    | (rename_i h; rcases pair_cases h with ⟨_, _⟩; clear h; subst_vars)
    | simp only [Fine.next_iff, Quiet, ite_pending, ite_audit, ite_self, and_self]
    | (with_reducible refine Quiet.trans ?_ (foldl_quiet _ ?_ _ _))
    | (intro _ _)
    | split
theorem poolOp_fine (s : State) (c : Nat) (x : CoreS) (j : RowJob) (h : Bool → List W32 → List Bool → RV) : Fine s (poolOp s c x j h) := by
  unfold poolOp
  refine Fine.ite (fun _ => Fine.same _) fun _ => Fine.ite (fun _ => Fine.same _) fun _ => ?_
  refine afterCheck_fine (readOnce_quiet ..) fun s => Fine.ite (fun _ => Fine.same _) fun _ => ?_
  dsimp only
  split
  · exact Fine.next_iff.2 (filterLimit_quiet ..)
  · refine Fine.ite (fun _ => Fine.next_iff.2 (instrInvalid_quiet ..)) fun _ => Fine.ite (fun _ => Fine.same _) fun _ => ?_
    exact afterCheck_fine (checkRanges_quiet ..) fun s => Fine.next_iff.2 (State.setCore_quiet ..)
theorem execPoolRowmax_fine (c : Core) (f : RFuncF) (s : State) (ok : rfOk 0x0D f = true) : Fine s (execPoolRowmax c f s) := by
  unfold execPoolRowmax
  repeat' first
    | (simp only [Fine.next_iff, Quiet, ite_pending, ite_audit, ite_self, and_self]; done)
    | (refine rfunc_fine (by assumption) fun _ => ?_)
    | (refine Fine.of (poolOp_fine ..) ?_ ?_ <;> (simp only [ite_pending, ite_audit, ite_self]; done))
    | exact poolOp_fine ..
    | (rename_i h; rcases pair_cases h with ⟨_, _⟩; clear h; subst_vars)
    | simp only [Fine.next_iff, Quiet, ite_pending, ite_audit, ite_self, and_self]
    | (with_reducible refine Quiet.trans ?_ (foldl_quiet _ ?_ _ _))
    | (intro _ _)
    | split
theorem execPoolRowsum_fine (c : Core) (f : RFuncF) (s : State) (ok : rfOk 0x0E f = true) : Fine s (execPoolRowsum c f s) := by
  unfold execPoolRowsum
  repeat' first
    | (simp only [Fine.next_iff, Quiet, ite_pending, ite_audit, ite_self, and_self]; done)
    | (refine rfunc_fine (by assumption) fun _ => ?_)
    | (refine Fine.of (poolOp_fine ..) ?_ ?_ <;> (simp only [ite_pending, ite_audit, ite_self]; done))
    | exact poolOp_fine ..
    | (rename_i h; rcases pair_cases h with ⟨_, _⟩; clear h; subst_vars)
    | simp only [Fine.next_iff, Quiet, ite_pending, ite_audit, ite_self, and_self]
    | (with_reducible refine Quiet.trans ?_ (foldl_quiet _ ?_ _ _))
    | (intro _ _)
    | split
theorem inPhase_fine {s : State} {c : Nat} {x : CoreS} {j : RowJob} {phase : Nat} {mine : List Nat} {f : State → List Byte → Out}
    (h : ∀ t b, Fine t (f t b)) : Fine s (inPhase s c x j phase mine f) := by
  unfold inPhase
  split
  · exact Fine.same s
  refine afterCheck_fine (readOnce_quiet ..) fun s => ?_
  dsimp only
  repeat' first
    | exact h _ _
    | exact Fine.same s
    | (simp only [Fine.next_iff, instrInvalid_quiet, and_self]; done)
    | split
theorem execSoftmax_fine (c : Core) (f : RFuncF) (s : State) (ok : rfOk 0x0F f = true) : Fine s (execSoftmax c f s) := by
  unfold execSoftmax
  repeat' first
    | (simp only [Fine.next_iff, Quiet, ite_pending, ite_audit, ite_self, and_self]; done)
    | (refine rfunc_fine (by assumption) fun _ => ?_)
    | (refine inPhase_fine fun _ _ => ?_)
    | (refine Fine.of (rowUnit_fine ..) ?_ ?_ <;> (simp only [ite_pending, ite_audit, ite_self]; done))
    | exact rowUnit_fine ..
    | (rename_i h; rcases pair_cases h with ⟨_, _⟩; clear h; subst_vars)
    | simp only [Fine.next_iff, Quiet, ite_pending, ite_audit, ite_self, and_self]
    | (with_reducible refine Quiet.trans ?_ (foldl_quiet _ ?_ _ _))
    | (intro _ _)
    | split
theorem execSoftmaxd_fine (c : Core) (f : RFuncF) (s : State) (ok : rfOk 0x10 f = true) : Fine s (execSoftmaxd c f s) := by
  unfold execSoftmaxd
  repeat' first
    | (simp only [Fine.next_iff, Quiet, ite_pending, ite_audit, ite_self, and_self]; done)
    | (refine rfunc_fine (by assumption) fun _ => ?_)
    | (refine inPhase_fine fun _ _ => ?_)
    | (refine Fine.of (rowUnit_fine ..) ?_ ?_ <;> (simp only [ite_pending, ite_audit, ite_self]; done))
    | exact rowUnit_fine ..
    | (rename_i h; rcases pair_cases h with ⟨_, _⟩; clear h; subst_vars)
    | simp only [Fine.next_iff, Quiet, ite_pending, ite_audit, ite_self, and_self]
    | (with_reducible refine Quiet.trans ?_ (foldl_quiet _ ?_ _ _))
    | (intro _ _)
    | split
theorem execStats_fine (c : Core) (f : RFuncF) (s : State) (ok : rfOk 0x0F f = true) : Fine s (execStats c f s) := by
  unfold execStats
  repeat' first
    | (simp only [Fine.next_iff, Quiet, ite_pending, ite_audit, ite_self, and_self]; done)
    | (refine rfunc_fine (by assumption) fun _ => ?_)
    | (refine inPhase_fine fun _ _ => ?_)
    | (refine Fine.of (rowUnit_fine ..) ?_ ?_ <;> (simp only [ite_pending, ite_audit, ite_self]; done))
    | exact rowUnit_fine ..
    | (rename_i h; rcases pair_cases h with ⟨_, _⟩; clear h; subst_vars)
    | simp only [Fine.next_iff, Quiet, ite_pending, ite_audit, ite_self, and_self]
    | (with_reducible refine Quiet.trans ?_ (foldl_quiet _ ?_ _ _))
    | (intro _ _)
    | split
theorem execOutput_fine (c : Core) (f : RFuncF) (s : State) (ok : rfOk 0x0F f = true) : Fine s (execOutput c f s) := by
  unfold execOutput
  repeat' first
    | (simp only [Fine.next_iff, Quiet, ite_pending, ite_audit, ite_self, and_self]; done)
    | (refine rfunc_fine (by assumption) fun _ => ?_)
    | (refine inPhase_fine fun _ _ => ?_)
    | (refine Fine.of (rowUnit_fine ..) ?_ ?_ <;> (simp only [ite_pending, ite_audit, ite_self]; done))
    | exact rowUnit_fine ..
    | (rename_i h; rcases pair_cases h with ⟨_, _⟩; clear h; subst_vars)
    | simp only [Fine.next_iff, Quiet, ite_pending, ite_audit, ite_self, and_self]
    | (with_reducible refine Quiet.trans ?_ (foldl_quiet _ ?_ _ _))
    | (intro _ _)
    | split
theorem execDelta_fine (c : Core) (f : RFuncF) (s : State) (ok : rfOk 0x10 f = true) : Fine s (execDelta c f s) := by
  unfold execDelta
  repeat' first
    | (simp only [Fine.next_iff, Quiet, ite_pending, ite_audit, ite_self, and_self, instrInvalid_quiet]; done)
    | (refine rfunc_fine (by assumption) fun _ => ?_)
    | (refine inPhase_fine fun _ _ => ?_)
    | (refine Fine.of (rowUnit_fine ..) ?_ ?_ <;> (simp only [ite_pending, ite_audit, ite_self, instrInvalid_quiet]; done))
    | exact rowUnit_fine ..
    | (rename_i h; rcases pair_cases h with ⟨_, _⟩; clear h; subst_vars)
    | simp only [Fine.next_iff, Quiet, ite_pending, ite_audit, ite_self, and_self, instrInvalid_quiet]
    | (with_reducible refine Quiet.trans ?_ (foldl_quiet _ ?_ _ _))
    | (intro _ _)
    | split
theorem execGrad_fine (c : Core) (f : RFuncF) (s : State) (ok : rfOk 0x10 f = true) : Fine s (execGrad c f s) := by
  unfold execGrad
  repeat' first
    | (simp only [Fine.next_iff, Quiet, ite_pending, ite_audit, ite_self, and_self, instrInvalid_quiet]; done)
    | (refine rfunc_fine (by assumption) fun _ => ?_)
    | (refine inPhase_fine fun _ _ => ?_)
    | (refine Fine.of (rowUnit_fine ..) ?_ ?_ <;> (simp only [ite_pending, ite_audit, ite_self, instrInvalid_quiet]; done))
    | exact rowUnit_fine ..
    | (rename_i h; rcases pair_cases h with ⟨_, _⟩; clear h; subst_vars)
    | simp only [Fine.next_iff, Quiet, ite_pending, ite_audit, ite_self, and_self, instrInvalid_quiet]
    | (with_reducible refine Quiet.trans ?_ (foldl_quiet _ ?_ _ _))
    | (intro _ _)
    | split
theorem execLnorm_fine (c : Core) (f : RFuncF) (s : State) (ok : rfOk 0x11 f = true) : Fine s (execLnorm c f s) := by
  unfold execLnorm
  repeat' first
    | (simp only [Fine.next_iff, Quiet, ite_pending, ite_audit, ite_self, and_self, instrInvalid_quiet]; done)
    | (refine rfunc_fine (by assumption) fun _ => ?_)
    | (refine Fine.of (rowUnit_fine ..) ?_ ?_ <;> (simp only [ite_pending, ite_audit, ite_self, instrInvalid_quiet]; done))
    | exact rowUnit_fine ..
    | (rename_i h; rcases pair_cases h with ⟨_, _⟩; clear h; subst_vars)
    | simp only [Fine.next_iff, Quiet, ite_pending, ite_audit, ite_self, and_self, instrInvalid_quiet]
    | (with_reducible refine Quiet.trans ?_ (foldl_quiet _ ?_ _ _))
    | (intro _ _)
    | split
theorem execRmsnorm_fine (c : Core) (f : RFuncF) (s : State) (ok : rfOk 0x12 f = true) : Fine s (execRmsnorm c f s) := by
  unfold execRmsnorm
  repeat' first
    | (simp only [Fine.next_iff, Quiet, ite_pending, ite_audit, ite_self, and_self, instrInvalid_quiet]; done)
    | (refine rfunc_fine (by assumption) fun _ => ?_)
    | (refine Fine.of (rowUnit_fine ..) ?_ ?_ <;> (simp only [ite_pending, ite_audit, ite_self, instrInvalid_quiet]; done))
    | exact rowUnit_fine ..
    | (rename_i h; rcases pair_cases h with ⟨_, _⟩; clear h; subst_vars)
    | simp only [Fine.next_iff, Quiet, ite_pending, ite_audit, ite_self, and_self, instrInvalid_quiet]
    | (with_reducible refine Quiet.trans ?_ (foldl_quiet _ ?_ _ _))
    | (intro _ _)
    | split
theorem execMoveStart_fine (t : FTime) (c : Core) (s : State) : Fine s (execMoveStart t c s) := by
  unfold execMoveStart
  repeat' first
    | (refine Fine.atTime _ ?_)
    | (simp only [Fine.next_iff, Quiet, ite_pending, ite_audit, ite_self, and_self, State.modMove_quiet, startReads_quiet, failMove_quiet, readPage_quiet, holdPage_quiet]; done)
    | (rename_i h; rcases pair_cases h with ⟨_, _⟩; clear h; subst_vars)
    | simp only [Fine.next_iff, Quiet, ite_pending, ite_audit, ite_self, and_self, State.modMove_quiet, startReads_quiet, failMove_quiet, readPage_quiet, holdPage_quiet]
    | (with_reducible refine Quiet.trans ?_ (foldl_quiet _ ?_ _ _))
    | (intro _ _)
    | split
theorem execMoveRetire_fine (c : Core) (id : Nat) (s : State) : Fine s (execMoveRetire c id s) := by
  unfold execMoveRetire
  repeat' first
    | (simp only [Fine.next_iff, Quiet, ite_pending, ite_audit, ite_self, and_self, releasePage_quiet, State.modMove_quiet, sweepMoves_quiet, State.addEnt_quiet]; done)
    | (rename_i h; rcases pair_cases h with ⟨_, _⟩; clear h; subst_vars)
    | simp only [Fine.next_iff, Quiet, ite_pending, ite_audit, ite_self, and_self, releasePage_quiet, State.modMove_quiet, sweepMoves_quiet, State.addEnt_quiet]
    | (with_reducible refine Quiet.trans ?_ (foldl_quiet _ ?_ _ _))
    | (intro _ _)
    | split
theorem execLandingCommit_fine (t : FTime) (src : W16) (transfer : W16) (bytes : Nat) (s : State) : Fine s (execLandingCommit t src transfer bytes s) := by
  unfold execLandingCommit
  repeat' first
    | (refine Fine.atTime _ ?_)
    | (simp only [Fine.next_iff, Quiet, ite_pending, ite_audit, ite_self, and_self, commitOwn_quiet, commitFar_quiet]; done)
    | (rename_i h; rcases pair_cases h with ⟨_, _⟩; clear h; subst_vars)
    | simp only [Fine.next_iff, Quiet, ite_pending, ite_audit, ite_self, and_self, commitOwn_quiet, commitFar_quiet]
    | (with_reducible refine Quiet.trans ?_ (foldl_quiet _ ?_ _ _))
    | (intro _ _)
    | split
theorem execShapeValueArrival_fine (c : Core) (s : State) : Fine s (execShapeValueArrival c s) := by
  unfold execShapeValueArrival
  repeat' first
    | (simp only [Fine.next_iff, Quiet, ite_pending, ite_audit, ite_self, and_self, acceptShape_quiet, ownRead_quiet, moverFault_quiet]; done)
    | (rename_i h; rcases pair_cases h with ⟨_, _⟩; clear h; subst_vars)
    | simp only [Fine.next_iff, Quiet, ite_pending, ite_audit, ite_self, and_self, acceptShape_quiet, ownRead_quiet, moverFault_quiet]
    | (with_reducible refine Quiet.trans ?_ (foldl_quiet _ ?_ _ _))
    | (intro _ _)
    | split
theorem execRespReceive_fine (t : FTime) (p : Port) (f : Flit) (s : State) : Fine s (execRespReceive t p f s) := by
  unfold execRespReceive
  repeat' first
    | (refine Fine.atTime _ ?_)
    | (simp only [Fine.next_iff, Quiet, ite_pending, ite_audit, ite_self, and_self, relay_quiet, dropRequest_quiet, pumpAll_quiet, readDone_quiet, requestFailed_quiet]; done)
    | (refine accepted_fine fun _ q => ?_)
    | (rename_i h; rcases pair_cases h with ⟨_, _⟩; clear h; subst_vars)
    | simp only [Fine.next_iff, Quiet, ite_pending, ite_audit, ite_self, and_self, relay_quiet, dropRequest_quiet, pumpAll_quiet, readDone_quiet, requestFailed_quiet]
    | (with_reducible refine Quiet.trans ?_ (foldl_quiet _ ?_ _ _))
    | (intro _ _)
    | split
theorem execAckReceive_fine (t : FTime) (p : Port) (f : Flit) (s : State) : Fine s (execAckReceive t p f s) := by
  unfold execAckReceive
  repeat' first
    | (refine Fine.atTime _ ?_)
    | (simp only [Fine.next_iff, Quiet, ite_pending, ite_audit, ite_self, and_self, relay_quiet, pumpAll_quiet, leaveInBand_quiet, dropRequest_quiet, requestFailed_quiet, State.modMove_quiet, State.addEnt_quiet, sweepMoves_quiet]; done)
    | (refine accepted_fine fun _ q => ?_)
    | (rename_i h; rcases pair_cases h with ⟨_, _⟩; clear h; subst_vars)
    | simp only [Fine.next_iff, Quiet, ite_pending, ite_audit, ite_self, and_self, relay_quiet, pumpAll_quiet, leaveInBand_quiet, dropRequest_quiet, requestFailed_quiet, State.modMove_quiet, State.addEnt_quiet, sweepMoves_quiet]
    | (with_reducible refine Quiet.trans ?_ (foldl_quiet _ ?_ _ _))
    | (intro _ _)
    | split
theorem execCompletionTimeout_fine (t : FTime) (tag : BitVec 12) (s : State) : Fine s (execCompletionTimeout t tag s) := by
  unfold execCompletionTimeout
  repeat' first
    | (refine Fine.atTime _ ?_)
    | (simp only [Fine.next_iff, Quiet, ite_pending, ite_audit, ite_self, and_self, abortRun_quiet, State.raise_quiet, State.addEnt_quiet, dropRequest_quiet]; done)
    | (rename_i h; rcases pair_cases h with ⟨_, _⟩; clear h; subst_vars)
    | simp only [Fine.next_iff, Quiet, ite_pending, ite_audit, ite_self, and_self, abortRun_quiet, State.raise_quiet, State.addEnt_quiet, dropRequest_quiet]
    | (with_reducible refine Quiet.trans ?_ (foldl_quiet _ ?_ _ _))
    | (intro _ _)
    | split
theorem execListHeaderRead_fine (t : FTime) (st : Fin 16) (s : State) : Fine s (execListHeaderRead t st s) := by
  unfold execListHeaderRead
  repeat' first
    | (refine Fine.atTime _ ?_)
    | (simp only [Fine.next_iff, Quiet, ite_pending, ite_audit, ite_self, and_self, publishedAt_quiet, stopStream_quiet, State.modStream_quiet]; done)
    | (rename_i h; rcases pair_cases h with ⟨_, _⟩; clear h; subst_vars)
    | simp only [Fine.next_iff, Quiet, ite_pending, ite_audit, ite_self, and_self, publishedAt_quiet, stopStream_quiet, State.modStream_quiet]
    | (with_reducible refine Quiet.trans ?_ (foldl_quiet _ ?_ _ _))
    | (intro _ _)
    | split
theorem execSampleDispatch_fine (t : FTime) (st : Fin 16) (s : State) : Fine s (execSampleDispatch t st s) := by
  unfold execSampleDispatch
  repeat' first
    | (refine Fine.atTime _ ?_)
    | (simp only [Fine.next_iff, Quiet, ite_pending, ite_audit, ite_self, and_self, noteRingWait_quiet, dispatchStream_quiet]; done)
    | (rename_i h; rcases pair_cases h with ⟨_, _⟩; clear h; subst_vars)
    | simp only [Fine.next_iff, Quiet, ite_pending, ite_audit, ite_self, and_self, noteRingWait_quiet, dispatchStream_quiet]
    | (with_reducible refine Quiet.trans ?_ (foldl_quiet _ ?_ _ _))
    | (intro _ _)
    | split
theorem execSampleFinish_fine (t : FTime) (st : Fin 16) (sample : Nat) (s : State) : Fine s (execSampleFinish t st sample s) := by
  unfold execSampleFinish
  refine Fine.atTime _ ?_
  generalize { s with now := t } = s
  dsimp only
  split
  · exact Fine.same s
  · refine Fine.ite (fun _ => ?_) fun _ => Fine.same s
    rename_i x _ _
    have q := sampleRead_quiet s st.val x.desc
    refine Fine.of (t := (sampleRead s st.val x.desc).2.1) ?_ q.1 q.2
    generalize sampleRead s st.val x.desc = r
    have k : Quiet r.2.1 (if r.2.2 then countStopped r.2.1 x else countClip r.2.1 st.val x r.1) := by
      split
      · exact countStopped_quiet ..
      · exact countClip_quiet ..
    split
    · exact Fine.next_iff.2 (Quiet.trans k (failDecode_quiet ..))
    · exact Fine.next_iff.2 (Quiet.trans k (Quiet.trans (freeAttempt_quiet ..) (State.modStream_quiet ..)))
theorem execSampleTimeout_fine (t : FTime) (st : Fin 16) (sample : Nat) (s : State) : Fine s (execSampleTimeout t st sample s) := by
  unfold execSampleTimeout
  repeat' first
    | (refine Fine.atTime _ ?_)
    | (simp only [Fine.next_iff, Quiet, ite_pending, ite_audit, ite_self, and_self, failDecode_quiet, countStopped_quiet, sampleEvent_quiet]; done)
    | (rename_i h; rcases pair_cases h with ⟨_, _⟩; clear h; subst_vars)
    | simp only [Fine.next_iff, Quiet, ite_pending, ite_audit, ite_self, and_self, failDecode_quiet, countStopped_quiet, sampleEvent_quiet]
    | (with_reducible refine Quiet.trans ?_ (foldl_quiet _ ?_ _ _))
    | (intro _ _)
    | split
theorem execSampleEmit_fine (t : FTime) (st : Fin 16) (s : State) : Fine s (execSampleEmit t st s) := by
  unfold execSampleEmit
  repeat' first
    | (refine Fine.atTime _ ?_)
    | (simp only [Fine.next_iff, Quiet, ite_pending, ite_audit, ite_self, and_self, emitSample_quiet]; done)
    | (rename_i h; rcases pair_cases h with ⟨_, _⟩; clear h; subst_vars)
    | simp only [Fine.next_iff, Quiet, ite_pending, ite_audit, ite_self, and_self, emitSample_quiet]
    | (with_reducible refine Quiet.trans ?_ (foldl_quiet _ ?_ _ _))
    | (intro _ _)
    | split
theorem execDecodePipeFree_fine (p : Fin 4) (s : State) : Fine s (execDecodePipeFree p s) := by
  unfold execDecodePipeFree
  repeat' first
    | (simp only [Fine.next_iff, Quiet, ite_pending, ite_audit, ite_self, and_self, dispatchStream_quiet, State.setPipe_quiet]; done)
    | (rename_i h; rcases pair_cases h with ⟨_, _⟩; clear h; subst_vars)
    | simp only [Fine.next_iff, Quiet, ite_pending, ite_audit, ite_self, and_self, dispatchStream_quiet, State.setPipe_quiet]
    | (with_reducible refine Quiet.trans ?_ (foldl_quiet _ ?_ _ _))
    | (intro _ _)
    | split
theorem execTranscodeFrameDecoded_fine (t : FTime) (p : Fin 4) (s : State) : Fine s (execTranscodeFrameDecoded t p s) := by
  unfold execTranscodeFrameDecoded
  repeat' first
    | (refine Fine.atTime _ ?_)
    | (simp only [Fine.next_iff, Quiet, ite_pending, ite_audit, ite_self, and_self, localRead_quiet, State.addEnt_quiet, takeEncodes_quiet, endIfDone_quiet, State.setCtx_quiet, State.setPipe_quiet]; done)
    | (rename_i h; rcases pair_cases h with ⟨_, _⟩; clear h; subst_vars)
    | simp only [Fine.next_iff, Quiet, ite_pending, ite_audit, ite_self, and_self, localRead_quiet, State.addEnt_quiet, takeEncodes_quiet, endIfDone_quiet, State.setCtx_quiet, State.setPipe_quiet]
    | (with_reducible refine Quiet.trans ?_ (foldl_quiet _ ?_ _ _))
    | (intro _ _)
    | split
theorem execEncodeFrameDone_fine (t : FTime) (p : Fin 2) (s : State) : Fine s (execEncodeFrameDone t p s) := by
  unfold execEncodeFrameDone
  repeat' first
    | (refine Fine.atTime _ ?_)
    | (simp only [Fine.next_iff, Quiet, ite_pending, ite_audit, ite_self, and_self, takeBoth_quiet, frameDone_quiet, State.addEnt_quiet]; done)
    | (rename_i h; rcases pair_cases h with ⟨_, _⟩; clear h; subst_vars)
    | simp only [Fine.next_iff, Quiet, ite_pending, ite_audit, ite_self, and_self, takeBoth_quiet, frameDone_quiet, State.addEnt_quiet]
    | (with_reducible refine Quiet.trans ?_ (foldl_quiet _ ?_ _ _))
    | (intro _ _)
    | split
theorem execTabMeasured_fine (s : State) : Fine s (execTabMeasured s) := by
  unfold execTabMeasured
  repeat' first
    | (simp only [Fine.next_iff, Quiet, ite_pending, ite_audit, ite_self, and_self, owedMeasured_quiet, runMeasured_quiet]; done)
    | split
theorem execArmingDeadline_fine (s : State) : Fine s (execArmingDeadline s) := by
  unfold execArmingDeadline
  repeat' first
    | (simp only [Fine.next_iff, Quiet, ite_pending, ite_audit, ite_self, and_self, drawNat_quiet, State.setEnt_quiet, tooSoon_quiet, cancelArming_quiet]; done)
    | (rename_i h; rcases pair_cases h with ⟨_, _⟩; clear h; subst_vars)
    | simp only [Fine.next_iff, Quiet, ite_pending, ite_audit, ite_self, and_self, drawNat_quiet, State.setEnt_quiet, tooSoon_quiet, cancelArming_quiet]
    | (with_reducible refine Quiet.trans ?_ (foldl_quiet _ ?_ _ _))
    | (intro _ _)
    | split
theorem execStartFabricTimeReached_fine (s : State) : Fine s (execStartFabricTimeReached s) := by
  unfold execStartFabricTimeReached
  repeat' first
    | (simp only [Fine.next_iff, Quiet, ite_pending, ite_audit, ite_self, and_self, clearEnts_quiet, resumeCores_quiet, startCores_quiet, touchSram_quiet, State.setCore_quiet, State.enterEff_quiet, State.setOct_quiet, State.setEnt_quiet, deliverAll_quiet, showCapo_quiet, forcePorts_quiet]; done)
    | (rename_i h; rcases pair_cases h with ⟨_, _⟩; clear h; subst_vars)
    | simp only [Fine.next_iff, Quiet, ite_pending, ite_audit, ite_self, and_self, clearEnts_quiet, resumeCores_quiet, startCores_quiet, touchSram_quiet, State.setCore_quiet, State.enterEff_quiet, State.setOct_quiet, State.setEnt_quiet, deliverAll_quiet, showCapo_quiet, forcePorts_quiet]
    | (with_reducible refine Quiet.trans ?_ (foldl_quiet _ ?_ _ _))
    | (intro _ _)
    | split
theorem execCapoSwitch_fine (s : State) : Fine s (execCapoSwitch s) := by
  unfold execCapoSwitch
  repeat' first
    | (simp only [Fine.next_iff, Quiet, ite_pending, ite_audit, ite_self, and_self, stagedLate_quiet, reach_quiet, passCapo_quiet, switchPorts_quiet]; done)
    | (rename_i h; rcases pair_cases h with ⟨_, _⟩; clear h; subst_vars)
    | simp only [Fine.next_iff, Quiet, ite_pending, ite_audit, ite_self, and_self, stagedLate_quiet, reach_quiet, passCapo_quiet, switchPorts_quiet]
    | (with_reducible refine Quiet.trans ?_ (foldl_quiet _ ?_ _ _))
    | (intro _ _)
    | split
theorem execDigestWalk_fine (s : State) : Fine s (execDigestWalk s) := by
  unfold execDigestWalk
  repeat' first
    | (simp only [Fine.next_iff, Quiet, ite_pending, ite_audit, ite_self, and_self, walkReads_quiet, abortRun_quiet, reach_quiet, compareRecord_quiet]; done)
    | (rename_i h; rcases pair_cases h with ⟨_, _⟩; clear h; subst_vars)
    | simp only [Fine.next_iff, Quiet, ite_pending, ite_audit, ite_self, and_self, walkReads_quiet, abortRun_quiet, reach_quiet, compareRecord_quiet]
    | (with_reducible refine Quiet.trans ?_ (foldl_quiet _ ?_ _ _))
    | (intro _ _)
    | split
theorem execVerdict_fine (s : State) : Fine s (execVerdict s) := by
  unfold execVerdict
  repeat' first
    | (simp only [Fine.next_iff, Quiet, ite_pending, ite_audit, ite_self, and_self, reach_quiet, abortRun_quiet, State.raise_quiet]; done)
    | (rename_i h; rcases pair_cases h with ⟨_, _⟩; clear h; subst_vars)
    | simp only [Fine.next_iff, Quiet, ite_pending, ite_audit, ite_self, and_self, reach_quiet, abortRun_quiet, State.raise_quiet]
    | (with_reducible refine Quiet.trans ?_ (foldl_quiet _ ?_ _ _))
    | (intro _ _)
    | split
theorem execCommitCapo_fine (s : State) : Fine s (execCommitCapo s) := by
  unfold execCommitCapo
  repeat' first
    | (simp only [Fine.next_iff, Quiet, ite_pending, ite_audit, ite_self, and_self, stagedLate_quiet, reach_quiet, skipStep_quiet, commitStep_quiet, oweStep_quiet, exportStages_quiet, hitRates_quiet, exportNumeric_quiet, pausePoint_quiet, passCapo_quiet, switchPorts_quiet, endStep_quiet, deferAbort_quiet]; done)
    | (rename_i h; rcases pair_cases h with ⟨_, _⟩; clear h; subst_vars)
    | simp only [Fine.next_iff, Quiet, ite_pending, ite_audit, ite_self, and_self, stagedLate_quiet, reach_quiet, skipStep_quiet, commitStep_quiet, oweStep_quiet, exportStages_quiet, hitRates_quiet, exportNumeric_quiet, pausePoint_quiet, passCapo_quiet, switchPorts_quiet, endStep_quiet, deferAbort_quiet]
    | (with_reducible refine Quiet.trans ?_ (foldl_quiet _ ?_ _ _))
    | (intro _ _)
    | split
theorem execRunEnd_fine (s : State) : Fine s (execRunEnd s) := by
  unfold execRunEnd
  repeat' first
    | (simp only [Fine.next_iff, Quiet, ite_pending, ite_audit, ite_self, and_self, stagedLate_quiet, reach_quiet, State.raise_quiet, haltCores_quiet, waitBallast_quiet, passCapo_quiet, openPorts_quiet, State.setOct_quiet, State.setEnt_quiet, startTaper_quiet, State.enterEff_quiet]; done)
    | (rename_i h; rcases pair_cases h with ⟨_, _⟩; clear h; subst_vars)
    | simp only [Fine.next_iff, Quiet, ite_pending, ite_audit, ite_self, and_self, stagedLate_quiet, reach_quiet, State.raise_quiet, haltCores_quiet, waitBallast_quiet, passCapo_quiet, openPorts_quiet, State.setOct_quiet, State.setEnt_quiet, startTaper_quiet, State.enterEff_quiet]
    | (with_reducible refine Quiet.trans ?_ (foldl_quiet _ ?_ _ _))
    | (intro _ _)
    | split
theorem execAbortFlitReceive_fine (t : FTime) (p : Port) (f : Flit) (s : State) : Fine s (execAbortFlitReceive t p f s) := by
  unfold execAbortFlitReceive
  repeat' first
    | (refine Fine.atTime _ ?_)
    | (simp only [Fine.next_iff, Quiet, ite_pending, ite_audit, ite_self, and_self, lateAbort_quiet, actAbort_quiet, State.addEnt_quiet]; done)
    | (refine accepted_fine fun _ q => ?_)
    | (rename_i h; rcases pair_cases h with ⟨_, _⟩; clear h; subst_vars)
    | simp only [Fine.next_iff, Quiet, ite_pending, ite_audit, ite_self, and_self, lateAbort_quiet, actAbort_quiet, State.addEnt_quiet]
    | (with_reducible refine Quiet.trans ?_ (foldl_quiet _ ?_ _ _))
    | (intro _ _)
    | split
theorem execReportReady_fine (s : State) : Fine s (execReportReady s) := by
  unfold execReportReady
  repeat' first
    | (simp only [Fine.next_iff, Quiet, ite_pending, ite_audit, ite_self, and_self, signPair_quiet, nextSigning_quiet, State.setEnt_quiet]; done)
    | (rename_i h; rcases pair_cases h with ⟨_, _⟩; clear h; subst_vars)
    | simp only [Fine.next_iff, Quiet, ite_pending, ite_audit, ite_self, and_self, signPair_quiet, nextSigning_quiet, State.setEnt_quiet]
    | (with_reducible refine Quiet.trans ?_ (foldl_quiet _ ?_ _ _))
    | (intro _ _)
    | split
theorem execInstallDone_fine (s : State) : Fine s (execInstallDone s) := by
  unfold execInstallDone
  repeat' first
    | (simp only [Fine.next_iff, Quiet, ite_pending, ite_audit, ite_self, and_self, State.setEnt_quiet, sigFail_quiet]; done)
    | (rename_i h; rcases pair_cases h with ⟨_, _⟩; clear h; subst_vars)
    | simp only [Fine.next_iff, Quiet, ite_pending, ite_audit, ite_self, and_self, State.setEnt_quiet, sigFail_quiet]
    | (with_reducible refine Quiet.trans ?_ (foldl_quiet _ ?_ _ _))
    | (intro _ _)
    | split
theorem execScrubRead_fine (t : FTime) (scrubber : Fin 6) (loc : EccLoc) (lapMs : Nat) (lapEnds : Bool) (s : State) : Fine s (execScrubRead t scrubber loc lapMs lapEnds s) := by
  unfold execScrubRead
  repeat' first
    | (refine Fine.atTime _ ?_)
    | (simp only [Fine.next_iff, Quiet, ite_pending, ite_audit, ite_self, and_self, scrubLoc_quiet, endLap_quiet]; done)
    | (rename_i h; rcases pair_cases h with ⟨_, _⟩; clear h; subst_vars)
    | simp only [Fine.next_iff, Quiet, ite_pending, ite_audit, ite_self, and_self, scrubLoc_quiet, endLap_quiet]
    | (with_reducible refine Quiet.trans ?_ (foldl_quiet _ ?_ _ _))
    | (intro _ _)
    | split
theorem execScrubOverdue_fine (scrubber : Fin 6) (elapsedMs : W32) (s : State) : Fine s (execScrubOverdue scrubber elapsedMs s) := by
  unfold execScrubOverdue
  repeat' first
    | exact Fine.same _
    | (refine Fine.atTime _ ?_)
    | (simp only [Fine.next_iff, Quiet, ite_pending, ite_audit, ite_self, and_self, State.setEnt_quiet, State.raise_quiet]; done)
    | (rename_i h; rcases pair_cases h with ⟨_, _⟩; clear h; subst_vars)
    | simp only [Fine.next_iff, Quiet, ite_pending, ite_audit, ite_self, and_self, State.setEnt_quiet, State.raise_quiet]
    | (with_reducible refine Quiet.trans ?_ (foldl_quiet _ ?_ _ _))
    | (intro _ _)
    | split
theorem execSramRewrite_fine (loc : EccLoc) (s : State) : Fine s (execSramRewrite loc s) := by
  unfold execSramRewrite
  repeat' first
    | (simp only [Fine.next_iff, Quiet, ite_pending, ite_audit, ite_self, and_self]; done)
    | (rename_i h; rcases pair_cases h with ⟨_, _⟩; clear h; subst_vars)
    | simp only [Fine.next_iff, Quiet, ite_pending, ite_audit, ite_self, and_self]
    | (with_reducible refine Quiet.trans ?_ (foldl_quiet _ ?_ _ _))
    | (intro _ _)
    | split
theorem answerRequest_fine {s : State} {slot op : Nat} {req : W32} {ver : Option Byte} {f : State → Session → Nat × List Byte × State}
    (h : ∀ t x, Quiet t (f t x).2.2) : Fine s (answerRequest s slot op req ver f) := by
  unfold answerRequest
  have q := request_quiet s slot op req ver
  split <;> rename_i e <;> rw [e] at q
  · exact Fine.next_iff.2 q
  · simp only [Fine.next_iff, reply_quiet]
    exact Quiet.trans q (h _ _)
theorem execFdpHandshake_fine (slot : Fin 8) (suite : W16) (group : W16) (scheme : W16) (chain : List (List Byte)) (port : Port) (channel : W16) (s : State) : Fine s (execFdpHandshake slot suite group scheme chain port channel s) := by
  unfold execFdpHandshake
  repeat' first
    | (simp only [Fine.next_iff, Quiet, ite_pending, ite_audit, ite_self, and_self, takeRecord_quiet, State.raise_quiet]; done)
    | (rename_i h; rcases pair_cases h with ⟨_, _⟩; clear h; subst_vars)
    | simp only [Fine.next_iff, Quiet, ite_pending, ite_audit, ite_self, and_self, takeRecord_quiet, State.raise_quiet]
    | (with_reducible refine Quiet.trans ?_ (foldl_quiet _ ?_ _ _))
    | (intro _ _)
    | split
theorem execFdpClose_fine (slot : Fin 8) (s : State) : Fine s (execFdpClose slot s) := by
  unfold execFdpClose
  repeat' first
    | (simp only [Fine.next_iff, Quiet, ite_pending, ite_audit, ite_self, and_self, State.setSession_quiet, takeRecord_quiet]; done)
    | split
theorem execFdpSessionTimeout_fine (slot : Fin 8) (s : State) : Fine s (execFdpSessionTimeout slot s) := by
  unfold execFdpSessionTimeout
  repeat' first
    | (simp only [Fine.next_iff, Quiet, ite_pending, ite_audit, ite_self, and_self, State.setSession_quiet, reach_quiet]; done)
    | (rename_i h; rcases pair_cases h with ⟨_, _⟩; clear h; subst_vars)
    | simp only [Fine.next_iff, Quiet, ite_pending, ite_audit, ite_self, and_self, State.setSession_quiet, reach_quiet]
    | (with_reducible refine Quiet.trans ?_ (foldl_quiet _ ?_ _ _))
    | (intro _ _)
    | split
theorem execHello_fine (slot : Fin 8) (req : W32) (lowest : Byte) (highest : Byte) (mask : W16) (s : State) : Fine s (execHello slot req lowest highest mask s) := by
  unfold execHello
  repeat' first
    | (simp only [Fine.next_iff, Quiet, ite_pending, ite_audit, ite_self, and_self, State.raise_quiet, State.setSession_quiet]; done)
    | (refine answerRequest_fine fun _ _ => ?_)
    | (rename_i h; rcases pair_cases h with ⟨_, _⟩; clear h; subst_vars)
    | simp only [Fine.next_iff, Quiet, ite_pending, ite_audit, ite_self, and_self, State.raise_quiet, State.setSession_quiet]
    | (with_reducible refine Quiet.trans ?_ (foldl_quiet _ ?_ _ _))
    | (intro _ _)
    | split
theorem execEventRecord_fine (s : State) : Fine s (execEventRecord s) := by
  unfold execEventRecord
  repeat' first
    | (simp only [Fine.next_iff, Quiet, ite_pending, ite_audit, ite_self, and_self, State.addEnt_quiet, notify_quiet, showAlert_quiet]; done)
    | (rename_i h; rcases pair_cases h with ⟨_, _⟩; clear h; subst_vars)
    | simp only [Fine.next_iff, Quiet, ite_pending, ite_audit, ite_self, and_self, State.addEnt_quiet, notify_quiet, showAlert_quiet]
    | (with_reducible refine Quiet.trans ?_ (foldl_quiet _ ?_ _ _))
    | (intro _ _)
    | split
theorem execEvents_fine (slot : Fin 8) (req : W32) (ver : Byte) (start : W32) (count : W16) (s : State) : Fine s (execEvents slot req ver start count s) := by
  unfold execEvents
  repeat' first
    | (simp only [Fine.next_iff, Quiet, ite_pending, ite_audit, ite_self, and_self]; done)
    | (refine answerRequest_fine fun _ _ => ?_)
    | (rename_i h; rcases pair_cases h with ⟨_, _⟩; clear h; subst_vars)
    | simp only [Fine.next_iff, Quiet, ite_pending, ite_audit, ite_self, and_self]
    | (with_reducible refine Quiet.trans ?_ (foldl_quiet _ ?_ _ _))
    | (intro _ _)
    | split
theorem execAuditEntries_fine (slot : Fin 8) (req : W32) (ver : Byte) (count : W16) (start : W32) (s : State) : Fine s (execAuditEntries slot req ver count start s) := by
  unfold execAuditEntries
  repeat' first
    | (simp only [Fine.next_iff, Quiet, ite_pending, ite_audit, ite_self, and_self]; done)
    | (refine answerRequest_fine fun _ _ => ?_)
    | (rename_i h; rcases pair_cases h with ⟨_, _⟩; clear h; subst_vars)
    | simp only [Fine.next_iff, Quiet, ite_pending, ite_audit, ite_self, and_self]
    | (with_reducible refine Quiet.trans ?_ (foldl_quiet _ ?_ _ _))
    | (intro _ _)
    | split
theorem execAuditCheckpointRead_fine (slot : Fin 8) (req : W32) (ver : Byte) (count : W16) (number : W32) (offset : W32) (s : State) : Fine s (execAuditCheckpointRead slot req ver count number offset s) := by
  unfold execAuditCheckpointRead
  repeat' first
    | (simp only [Fine.next_iff, Quiet, ite_pending, ite_audit, ite_self, and_self]; done)
    | (refine answerRequest_fine fun _ _ => ?_)
    | (rename_i h; rcases pair_cases h with ⟨_, _⟩; clear h; subst_vars)
    | simp only [Fine.next_iff, Quiet, ite_pending, ite_audit, ite_self, and_self]
    | (with_reducible refine Quiet.trans ?_ (foldl_quiet _ ?_ _ _))
    | (intro _ _)
    | split

/-! ### Commands that write the audit log -/

/-- A command that ends in a next state with the queue of commands as it was; it may add to the audit log. -/
def Ends (s : State) (o : Out) : Prop := ∃ t, o = .next t ∧ t.pending = s.pending
theorem Fine.ends {s : State} {o : Out} (h : Fine s o) : Ends s o := by
  obtain ⟨t, e, q⟩ := h
  exact ⟨t, e, q.1⟩
theorem Ends.atTime {s : State} {t : FTime} (f : State → Out) (h : Ends { s with now := t } (f { s with now := t })) : Ends s (atTime s t f) := by
  unfold Machine.atTime
  split
  · exact h
  · exact ⟨s, rfl, rfl⟩

theorem writeCommand_ends (o : Origin) (t : FTime) (index sub : Nat) (b : List Byte) (s : State) : Ends s (writeCommand o t index sub b s) := by
  unfold writeCommand
  refine Ends.atTime _ ?_
  generalize { s with now := t } = s
  dsimp only
  split
  · rename_i slot req ver
    have q := request_quiet s slot.val opWrite req (some ver)
    split
    · exact ⟨_, rfl, rfl⟩
    · split <;> rename_i e <;> rw [e] at q
      · exact ⟨_, rfl, q.1⟩
      · exact ⟨_, rfl, (arriveAccess_pending ..).trans ((copyRead_quiet ..).1.trans q.1)⟩
  · split
    · exact ⟨_, rfl, rfl⟩
    · split
      · exact ⟨_, rfl, rfl⟩
      · exact ⟨_, rfl, (arriveAccess_pending ..).trans ((copyRead_quiet ..).1.trans (State.modMove_quiet ..).1)⟩
theorem execFdpRead_ends (slot : Fin 8) (req : W32) (ver op : Byte) (body : List Byte) (s : State) : Ends s (execFdpRead slot req ver op body s) := by
  unfold execFdpRead
  split
  · exact (answerRequest_fine fun _ _ => ⟨rfl, rfl⟩).ends
  · split
    · exact (Fine.same s).ends
    · have q := request_quiet s slot.val opRead req (some ver)
      split <;> rename_i e <;> rw [e] at q
      · exact ⟨_, rfl, q.1⟩
      · dsimp only
        split
        · exact ⟨_, rfl, (answerRead_quiet ..).1.trans q.1⟩
        · exact ⟨_, rfl, q.1⟩

theorem execAuditEntryDurable_ends (written : Bool) (s : State) : Ends s (execAuditEntryDurable written s) := by
  unfold execAuditEntryDurable
  repeat' first
    | exact ⟨_, rfl, rfl⟩
    | exact ⟨_, rfl, entryDurable_pending ..⟩
    | exact ⟨_, rfl, logFails_pending ..⟩
    | split

theorem execRegionCommandDone_ends (t : FTime) (die : Fin 4) (s : State) : Ends s (execRegionCommandDone t die s) := by
  unfold execRegionCommandDone
  refine Ends.atTime _ ?_
  split
  · exact ⟨_, rfl, rfl⟩
  · exact ⟨_, rfl, by simp only [runHeld_pending, finishRegion_quiet]⟩

theorem execAbortingComplete_ends (s : State) : Ends s (execAbortingComplete s) := by
  unfold execAbortingComplete
  split
  · exact ⟨_, rfl, by simp only [runHeld_pending, abortingComplete_quiet]⟩
  · exact ⟨_, rfl, rfl⟩

end Sys2Proof.Machine
end

