-- ==== Sys2Proof/Laws/Memory.lean ====
section
/-!
SUPPORT. Memory: every operation keeps its canonical form, addresses are spread without overlap (R176), and a byte that was
written reads as written while every other byte reads as before.
-/
namespace Sys2Proof.Machine

/-! ### The canonical form -/

theorem Memory.wf_swrite {m : SMap Byte} (h : Memory.wf m = true) (a : Nat) (b : List Byte) : Memory.wf (swrite 0 m a b) = true :=
  swf_swrite 0 m a b h

theorem hstore_wf (s : State) (n a : Nat) (b : List Byte) (m : SMap Byte) (h : Memory.wf m = true) : Memory.wf (hstore s n a b m) = true := by
  induction n generalizing a b m with
  | zero => exact h
  | succ n ih =>
    unfold hstore
    split
    · exact h
    · exact ih _ _ _ (Memory.wf_swrite h _ _)

theorem hput_wf (s : State) (a : Nat) (b : List Byte) (h : Memory.wf s.mem.hbm = true) : Memory.wf (hput s a b).mem.hbm = true :=
  hstore_wf s _ _ _ _ h

theorem foldl_keeps {α β : Type} (f : State → α → State) (g : State → β) (h : ∀ s x, g (f s x) = g s) (l : List α) (s : State) :
    g (l.foldl f s) = g s := by
  induction l generalizing s with
  | nil => rfl
  | cons x l ih => rw [List.foldl_cons, ih, h]

@[simp] theorem setUnit_hbm (s : State) (u : Nat) (r : Option RawCode) : (s.setUnit u r).mem.hbm = s.mem.hbm := rfl
@[simp] theorem setSramWord_hbm (s : State) (k : Nat) (r : Option RawCode) : (s.setSramWord k r).mem.hbm = s.mem.hbm := rfl

@[simp] theorem noteCorrected_hbm (s : State) (kind unit addr : Nat) : (noteCorrected s kind unit addr).mem.hbm = s.mem.hbm := by
  unfold noteCorrected
  simp only
  split <;> split <;> rfl

/-- What a write leaves of a unit's code changes no byte. -/
theorem mergeUnit_hbm (a n : Nat) (s : State) (u : Nat × Option RawCode) : (mergeUnit a n s u).mem.hbm = s.mem.hbm := by
  unfold mergeUnit
  simp only
  repeat' split
  all_goals simp

@[simp] theorem hwrite_hbm (s : State) (a : Nat) (b : List Byte) : (hwrite s a b).mem.hbm = (hput s a b).mem.hbm := by
  unfold hwrite; simp only
  split
  · rfl
  · exact foldl_keeps _ (fun t => t.mem.hbm) (mergeUnit_hbm a b.length) _ _

theorem hwrite_wf (s : State) (a : Nat) (b : List Byte) (h : Memory.wf s.mem.hbm = true) : Memory.wf (hwrite s a b).mem.hbm = true := by
  rw [hwrite_hbm]; exact hput_wf s a b h

theorem putRawHbm_wf (s : State) (u : Nat) (d m : List Byte) (h : Memory.wf s.mem.hbm = true) : Memory.wf (putRawHbm s u d m).mem.hbm = true :=
  hput_wf s _ _ h

/-! ### Checks of stored codes change no byte (R530 to R534) -/

theorem mergeChecked_hbm (kind c a n : Nat) (s : State) (u : Nat × Option RawCode) : (mergeChecked kind c a n s u).mem.hbm = s.mem.hbm := by
  unfold mergeChecked
  simp only
  repeat' split
  all_goals simp

@[simp] theorem touchSram_hbm (s : State) (kind c a n : Nat) : (touchSram s kind c a n).mem.hbm = s.mem.hbm := by
  unfold touchSram; simp only
  split
  · rfl
  · exact foldl_keeps _ (fun t => t.mem.hbm) (mergeChecked_hbm kind c a n) _ _

@[simp] theorem freshSram_hbm (s : State) (kind c : Nat) : (freshSram s kind c).mem.hbm = s.mem.hbm := touchSram_hbm ..

@[simp] theorem noteBad_hbm (s : State) (kind cause unit addr : Nat) : (noteBad s kind cause unit addr).mem.hbm = s.mem.hbm := by
  unfold noteBad; simp only
  split <;> split <;> rfl

@[simp] theorem addCandidate_hbm (s : State) (kind origin unit key : Nat) : (addCandidate s kind origin unit key).mem.hbm = s.mem.hbm := by
  unfold addCandidate; simp only
  split
  · rfl
  · split <;> rfl

theorem foldl_keeps_fst {α β γ : Type} (f : State × γ → α → State × γ) (g : State → β) (h : ∀ s x, g (f s x).1 = g s.1) (l : List α) (s : State × γ) :
    g (l.foldl f s).1 = g s.1 := by
  induction l generalizing s with
  | nil => rfl
  | cons x l ih => rw [List.foldl_cons, ih, h]

@[simp] theorem hcheck_hbm (s : State) (a n : Nat) : (hcheck s a n).1.mem.hbm = s.mem.hbm := by
  unfold hcheck
  refine foldl_keeps_fst _ (fun t => t.mem.hbm) (fun t u => ?_) _ _
  simp only
  repeat' split
  all_goals simp

@[simp] theorem sramReadCheck_hbm (s : State) (kind c a n : Nat) : (sramReadCheck s kind c a n).1.mem.hbm = s.mem.hbm := by
  unfold sramReadCheck
  refine foldl_keeps_fst _ (fun t => t.mem.hbm) (fun t u => ?_) _ _
  simp only
  repeat' split
  all_goals simp

/-- A check finds nothing and changes nothing where no unit is listed. -/
theorem hcheck_clean (s : State) (a n : Nat) (h : s.mem.hbmRaw = []) : hcheck s a n = (s, false) := by simp [hcheck, h]
theorem sramReadCheck_clean (s : State) (kind c a n : Nat) (h : s.mem.sramRaw = []) : sramReadCheck s kind c a n = (s, false) := by
  simp [sramReadCheck, h]
theorem touchSram_clean (s : State) (kind c a n : Nat) (h : s.mem.sramRaw = []) (h' : s.mem.rawList = []) : touchSram s kind c a n = s := by
  simp [touchSram, h, h']

/-! ### The cache holds no data of its own: an access leaves what HBM holds as it is (R178) -/

@[simp] theorem addEnt_hbm (s : State) (i j n : Nat) : (s.addEnt i j n).mem.hbm = s.mem.hbm := rfl
@[simp] theorem setCache_hbm (s : State) (l : List CacheLine) : (s.setCache l).mem.hbm = s.mem.hbm := rfl

theorem poisonUnits_hbm (s : State) (x : CacheLine) : (poisonUnits s x).mem.hbm = s.mem.hbm :=
  foldl_keeps (fun (t : State) w => let u := 4 * x.line + w / 8
    t.setUnit u (some (poisonCode (hread t (localOf t u) 64))))
    (fun t => t.mem.hbm) (fun _ _ => rfl) _ _

theorem writeBack_hbm (s : State) (x : CacheLine) : (writeBack s x).mem.hbm = s.mem.hbm := by
  unfold writeBack
  split
  · rw [poisonUnits_hbm, addEnt_hbm]
  · rfl

theorem makeRoom_hbm (s : State) (l : Nat) : (makeRoom s l).mem.hbm = s.mem.hbm := by
  unfold makeRoom
  simp only
  split
  · rfl
  · split
    · rw [writeBack_hbm, setCache_hbm]
    · rfl

theorem countLookup_hbm (s : State) (d : Nat) (hit : Bool) : (countLookup s d hit).mem.hbm = s.mem.hbm := by
  cases hit <;> rfl

theorem useLine_hbm (s : State) (x : CacheLine) (a o n : Nat) (w : Bool) : (useLine s x a o n w).2.mem.hbm = s.mem.hbm := by
  unfold useLine
  extract_lets left
  split
  · split
    · exact writeBack_hbm ..
    · exact noteCorrected_hbm ..
  · rfl

theorem lookup_hbm (s : State) (a n : Nat) (write alloc : Bool) : (lookup s a n write alloc).mem.hbm = s.mem.hbm := by
  unfold lookup
  simp only
  split
  · rw [setCache_hbm, useLine_hbm, countLookup_hbm]
  · split
    · rw [setCache_hbm, makeRoom_hbm, countLookup_hbm]
    · rw [countLookup_hbm]

theorem accesses_hbm (g : Nat) (s : State) (a n : Nat) (write alloc : Bool) : (accesses g s a n write alloc).mem.hbm = s.mem.hbm := by
  unfold accesses
  split
  · rfl
  · exact foldl_keeps _ (fun t => t.mem.hbm) (fun _ _ => lookup_hbm ..) _ _

theorem flushLines_hbm (s : State) (p : CacheLine → Bool) : (flushLines s p).mem.hbm = s.mem.hbm := by
  unfold flushLines
  rw [setCache_hbm]
  exact foldl_keeps _ (fun t => t.mem.hbm) writeBack_hbm _ _

theorem dropLine_hbm (s : State) (a : Nat) : (dropLine s a).mem.hbm = s.mem.hbm := by
  unfold dropLine
  rw [setCache_hbm]
  exact foldl_keeps _ (fun t => t.mem.hbm) writeBack_hbm _ _

/-- What a unit of the module reads leaves every byte as it is. -/
@[simp] theorem memRead_hbm (s : State) (a n : Nat) (alloc : Bool) : (memRead s a n alloc).2.1.mem.hbm = s.mem.hbm := by
  unfold memRead
  rw [show lookups s a n false alloc = accesses 256 s a n false alloc from rfl]
  simp only [hcheck_hbm, accesses_hbm]
@[simp] theorem readRanges_hbm (s : State) (l : List (Nat × Nat)) : (readRanges s l).mem.hbm = s.mem.hbm :=
  foldl_keeps _ (fun t => t.mem.hbm) (fun _ _ => memRead_hbm ..) _ _

/-- A unit's write keeps the canonical form. -/
theorem memWrite_wf (s : State) (a : Nat) (b : List Byte) (h : Memory.wf s.mem.hbm = true) : Memory.wf (memWrite s a b).mem.hbm = true :=
  hwrite_wf _ a b (by rw [show lookups s a b.length true true = accesses 256 s a b.length true true from rfl, accesses_hbm]; exact h)

theorem setClm_wf (x : CoreS) (a : Nat) (b : List Byte) (h : Memory.wf x.clm = true) : Memory.wf (x.setClm a b).clm = true :=
  Memory.wf_swrite h a b

theorem reset_memory_wf : Memory.wf State.reset.mem.hbm = true ∧ Memory.wf CoreS.reset.clm = true := ⟨rfl, rfl⟩

/-! ### Addresses (R176) -/

/-- The places of a run of bytes that crosses no 4,096-byte boundary lie side by side. -/
theorem phys_add (s : State) (a i : Nat) (h : a % 4096 + i < 4096) : phys s (a + i) = phys s a + i := by
  have e1 : (a + i) / regionSize = a / regionSize := by unfold regionSize; omega
  have e2 : (a + i) % regionSize = a % regionSize + i := by unfold regionSize; omega
  unfold phys stackOf
  simp only [e1, e2]
  have hr : a % regionSize % 4096 = a % 4096 := by unfold regionSize; omega
  generalize a % regionSize = o at hr
  have hi : o % 4096 + i < 4096 := by omega
  split
  · have q : (o + i) / 12884901888 = o / 12884901888 := by omega
    have u : (o + i) % 12884901888 / 4096 = o % 12884901888 / 4096 := by omega
    simp only [q, u]; omega
  · have u : (o + i) / 4096 = o / 4096 := by omega
    simp only [u]; omega

/-- Offsets that the two spreadings give to one place are one offset (R176). -/
theorem spread_near_inj {o o' : Nat} (h1 : 3 * (o / 12884901888) + o % 12884901888 / 4096 % 3 = 3 * (o' / 12884901888) + o' % 12884901888 / 4096 % 3)
    (h2 : o % 12884901888 / 4096 / 3 * 4096 + o % 4096 = o' % 12884901888 / 4096 / 3 * 4096 + o' % 4096) : o = o' := by
  have e1 : o / 12884901888 = o' / 12884901888 := by omega
  have e2 : o % 12884901888 / 4096 % 3 = o' % 12884901888 / 4096 % 3 := by omega
  have e3 : o % 12884901888 / 4096 / 3 = o' % 12884901888 / 4096 / 3 := by omega
  have e4 : o % 4096 = o' % 4096 := by omega
  have e5 : o % 12884901888 / 4096 = o' % 12884901888 / 4096 := by
    rw [← Nat.div_add_mod (o % 12884901888 / 4096) 3, ← Nat.div_add_mod (o' % 12884901888 / 4096) 3, e2, e3]
  have e6 : o % 12884901888 = o' % 12884901888 := by
    rw [← Nat.div_add_mod (o % 12884901888) 4096, ← Nat.div_add_mod (o' % 12884901888) 4096, e5]
    congr 1; omega
  rw [← Nat.div_add_mod o 12884901888, ← Nat.div_add_mod o' 12884901888, e1, e6]
theorem spread_far_inj {o o' : Nat} (h1 : o / 4096 % 12 = o' / 4096 % 12)
    (h2 : o / 4096 / 12 * 4096 + o % 4096 = o' / 4096 / 12 * 4096 + o' % 4096) : o = o' := by
  have e3 : o / 4096 / 12 = o' / 4096 / 12 := by omega
  have e4 : o % 4096 = o' % 4096 := by omega
  have e5 : o / 4096 = o' / 4096 := by
    rw [← Nat.div_add_mod (o / 4096) 12, ← Nat.div_add_mod (o' / 4096) 12, h1, e3]
  rw [← Nat.div_add_mod o 4096, ← Nat.div_add_mod o' 4096, e5, e4]

/-- The stack of an address, and its place in the stack's share of the address's region. -/
theorem stackOf_eq (s : State) (a : Nat) : ∃ k w, k < 12 ∧ w < 4294967296 ∧ stackOf s a = (k, a / regionSize * 4294967296 + w) ∧
    (s.ent 0x4010 (a / regionSize + 1) = 1 ∧ k = 3 * (a % regionSize / 12884901888) + a % regionSize % 12884901888 / 4096 % 3 ∧
        w = a % regionSize % 12884901888 / 4096 / 3 * 4096 + a % regionSize % 4096 ∨
      s.ent 0x4010 (a / regionSize + 1) ≠ 1 ∧ k = a % regionSize / 4096 % 12 ∧ w = a % regionSize / 4096 / 12 * 4096 + a % regionSize % 4096) := by
  have ho : a % regionSize < 51539607552 := Nat.mod_lt _ (by decide)
  unfold stackOf
  simp only
  generalize a % regionSize = o at ho
  by_cases h : s.ent 0x4010 (a / regionSize + 1) = 1
  · rw [if_pos h]
    refine ⟨_, _, ?_, ?_, by rw [Nat.add_assoc], .inl ⟨h, rfl, rfl⟩⟩ <;> omega
  · rw [if_neg h]
    refine ⟨_, _, ?_, ?_, by rw [Nat.add_assoc], .inr ⟨h, rfl, rfl⟩⟩ <;> omega

/-- Two addresses of local HBM never share a place (R176). -/
theorem phys_inj (s : State) {a b : Nat} (ha : a < hbmSize) (hb : b < hbmSize) (h : phys s a = phys s b) : a = b := by
  obtain ⟨k, w, hk, hw, e, c⟩ := stackOf_eq s a
  obtain ⟨k', w', hk', hw', e', c'⟩ := stackOf_eq s b
  have ga : a / regionSize < 24 := by unfold regionSize; unfold hbmSize at ha; omega
  have gb : b / regionSize < 24 := by unfold regionSize; unfold hbmSize at hb; omega
  unfold phys at h
  rw [e, e'] at h
  simp only [stackSize] at h
  have hk2 : k = k' := by omega
  have hg : a / regionSize = b / regionSize := by omega
  have hw2 : w = w' := by omega
  have ho : a % regionSize = b % regionSize := by
    rw [hg] at c
    rcases c with ⟨m, c1, c2⟩ | ⟨m, c1, c2⟩ <;> rcases c' with ⟨m', c1', c2'⟩ | ⟨m', c1', c2'⟩
    · exact spread_near_inj (by rw [← c1, ← c1', hk2]) (by rw [← c2, ← c2', hw2])
    · exact absurd m m'
    · exact absurd m' m
    · exact spread_far_inj (by rw [← c1, ← c1', hk2]) (by rw [← c2, ← c2', hw2])
  rw [← Nat.div_add_mod a regionSize, ← Nat.div_add_mod b regionSize, hg, ho]

/-! ### A read after a write -/

theorem hstore_get (s : State) (n a : Nat) (b : List Byte) (m : SMap Byte) (hn : b.length < n) (ha : a + b.length ≤ hbmSize) (x : Nat) (hx : x < hbmSize) :
    sget 0 (hstore s n a b m) (phys s x) = if a ≤ x ∧ x < a + b.length then b.getD (x - a) 0 else sget 0 m (phys s x) := by
  induction n generalizing a b m with
  | zero => omega
  | succ n ih =>
    unfold hstore
    by_cases hb : b = []
    · subst hb; rw [if_pos rfl, if_neg (by simp)]
    · have hpos : 0 < b.length := List.length_pos_iff.2 hb
      rw [if_neg hb]
      simp only
      have hd : (b.drop (4096 - a % 4096)).length = b.length - (4096 - a % 4096) := List.length_drop ..
      have hmod : a % 4096 < 4096 := Nat.mod_lt _ (by decide)
      have step := sget_swrite (0 : Byte) m (phys s a) (b.take (4096 - a % 4096)) (phys s x)
      have hl : (b.take (4096 - a % 4096)).length = min (4096 - a % 4096) b.length := List.length_take ..
      -- a place lies in this chunk exactly where its address does
      have chunk : (phys s a ≤ phys s x ∧ phys s x < phys s a + (b.take (4096 - a % 4096)).length) ↔ a ≤ x ∧ x < a + min (4096 - a % 4096) b.length := by
        rw [hl]
        constructor
        · rintro ⟨h1, h2⟩
          have e : phys s x = phys s (a + (phys s x - phys s a)) := by
            rw [phys_add s a _ (by omega)]; omega
          have := phys_inj s hx (by omega) e
          omega
        · rintro ⟨h1, h2⟩
          have e := phys_add s a (x - a) (by omega)
          rw [show a + (x - a) = x by omega] at e
          omega
      have val (h1 : a ≤ x) (h2 : x < a + min (4096 - a % 4096) b.length) : (b.take (4096 - a % 4096)).getD (phys s x - phys s a) 0 = b.getD (x - a) 0 := by
        have e := phys_add s a (x - a) (by omega)
        rw [show a + (x - a) = x by omega] at e
        rw [e, Nat.add_sub_cancel_left, List.getD_eq_getElem?_getD, List.getD_eq_getElem?_getD, List.getElem?_take_of_lt (by omega)]
      by_cases hlong : 4096 - a % 4096 ≤ b.length
      · rw [ih _ _ _ (by omega) (by omega), step, hd]
        by_cases hin : a ≤ x ∧ x < a + (4096 - a % 4096)
        · rw [if_neg (by omega), if_pos (chunk.2 (by omega)), val hin.1 (by omega), if_pos (by omega)]
        · by_cases hin2 : a ≤ x ∧ x < a + b.length
          · rw [if_pos (by omega), if_pos hin2, List.getD_eq_getElem?_getD, List.getD_eq_getElem?_getD, List.getElem?_drop]
            congr 2; omega
          · rw [if_neg (by omega), if_neg (fun h => by have := chunk.1 h; omega), if_neg hin2]
      · have hnil : b.drop (4096 - a % 4096) = [] := List.drop_eq_nil_of_le (by omega)
        have hst : hstore s n (a + (4096 - a % 4096)) (b.drop (4096 - a % 4096)) (swrite 0 m (phys s a) (b.take (4096 - a % 4096))) =
            swrite 0 m (phys s a) (b.take (4096 - a % 4096)) := by
          rw [hnil]; cases n <;> simp [hstore]
        rw [hst, step]
        by_cases hin : a ≤ x ∧ x < a + b.length
        · rw [if_pos (chunk.2 (by omega)), val hin.1 (by omega), if_pos hin]
        · rw [if_neg (fun h => by have := chunk.1 h; omega), if_neg hin]

/-- Where an address lies depends on the region modes alone. -/
theorem phys_of_dict {s t : State} (h : s.dict = t.dict) (a : Nat) : phys s a = phys t a := by
  simp only [phys, stackOf, State.ent_of_dict h]

/-- A byte of local HBM after a write: the byte written, or what it was. -/
theorem hbyte_hput (s : State) (a : Nat) (b : List Byte) (ha : a + b.length ≤ hbmSize) (x : Nat) (hx : x < hbmSize) :
    hbyte (hput s a b) x = if a ≤ x ∧ x < a + b.length then b.getD (x - a) 0 else hbyte s x := by
  unfold hbyte
  rw [phys_of_dict (State.hput_dict s a b)]
  exact hstore_get s _ a b _ (by omega) ha x hx

/-- What was written to local HBM is read back. -/
theorem hread_hput (s : State) (a : Nat) (b : List Byte) (ha : a + b.length ≤ hbmSize) : hread (hput s a b) a b.length = b := by
  apply List.ext_getElem (by simp [hread])
  intro k h1 h2
  simp only [hread, List.getElem_map, List.getElem_range]
  rw [hbyte_hput s a b ha _ (by omega), if_pos ⟨by omega, by omega⟩]
  simp [h2]

/-- Bytes outside a write read as before. -/
theorem hread_hput_outside (s : State) (a : Nat) (b : List Byte) (ha : a + b.length ≤ hbmSize) (x n : Nat) (hx : x + n ≤ hbmSize)
    (h : x + n ≤ a ∨ a + b.length ≤ x) : hread (hput s a b) x n = hread s x n := by
  unfold hread
  apply List.map_congr_left
  intro i hi
  have := List.mem_range.1 hi
  rw [hbyte_hput s a b ha _ (by omega), if_neg (by omega)]

/-- What was written to a core's memory is read back, and bytes outside the write read as before. -/
@[simp] theorem clmBytes_setClm (x : CoreS) (a : Nat) (b : List Byte) : (x.setClm a b).clmBytes a b.length = b := sread_swrite 0 x.clm a b
theorem clmBytes_setClm_outside (x : CoreS) (a : Nat) (b : List Byte) (c n : Nat) (h : c + n ≤ a ∨ a + b.length ≤ c) :
    (x.setClm a b).clmBytes c n = x.clmBytes c n := by
  unfold CoreS.clmBytes CoreS.setClm sread
  apply List.map_congr_left
  intro i hi
  have := List.mem_range.1 hi
  simp only []
  rw [sget_swrite, if_neg (by omega)]

end Sys2Proof.Machine
end

