-- ==== Sys2Proof/Tests/Slice0.lean ====
section
/-!
SUPPORT. Tests. Values come from the tables and worked examples of the manual, or from hand calculation by its rules. The theorems named witness_ show,
for each statement, states and operands that meet its hypotheses together, clause by clause.
-/
open Sys2Proof Sys2Proof.Machine
set_option Elab.async false
namespace Sys2Proof.Tests

/-! ### States to test on -/

/-- Reset, in RUN, with core 0 as given. -/
def running (x : CoreS) : State :=
  let s := State.reset
  { s with ctl := { s.ctl with dev := .run, powered := true, filled := true, everLocked := true }, cores := [(0, x)] }

/-- A core about to issue w, with registers as given. -/
def about (w : W64) (regs : List W64) : CoreS :=
  { CoreS.reset with status := 2, program := [w], regs := regs ++ List.replicate (16 - regs.length) 0 }

theorem issuing_about {w : W64} {x : CoreS} (h : x.status = 2) (hw : x.wait = .none) (hp : x.pc < x.program.length) (hw2 : x.program.getD x.pc 0 = w) :
    Issuing (running x) 0 w :=
  { running := rfl, noDrain := rfl, status := h, free := hw, inside := hp, here := hw2, code := rfl }

theorem issues (w : W64) (regs : List W64) : Issuing (running (about w regs)) 0 w :=
  issuing_about rfl rfl (Nat.zero_lt_one) rfl

/-- The state after a command; reset where it does not complete. -/
def after (o : Out) : State := match o with | .next s => s | _ => State.reset
def ran (i : Instr) (w : W64) (regs : List W64) : CoreS := (after (exec i (running (about w regs)))).core 0

/-- A state with entries set. -/
def withEnts (l : List (Nat × Nat × Nat)) (s : State) : State := l.foldl (fun s e => s.setEnt e.1 e.2.1 e.2.2) s


/-- With every stored word clean a read of a memory finds nothing. -/
theorem checkSram_clean {s : State} (h : s.mem.sramRaw = []) (c : Nat) (rs : List (Nat × Nat × Nat)) : checkSram s c rs = (s, false) := by
  induction rs with
  | nil => rfl
  | cons r rs ih =>
    have hr : sramReadCheck s r.1 c r.2.1 r.2.2 = (s, false) := by simp only [sramReadCheck, h, List.foldl_nil]
    simpa [checkSram, hr] using ih
theorem modeCheck_clean {s : State} (h : s.mem.sramRaw = []) (c : Nat) (m : ModeSrc) : modeCheck s c m = (s, false) := by
  cases m with
  | store i => exact checkSram_clean h _ _
  | reg r => rfl

theorem mgmtRead_clean {s : State} (h : s.mem.sramRaw = []) : mgmtRead s = (s, false) := by
  simp only [mgmtRead, sramReadCheck, h, List.foldl_nil]

theorem nothingWaits {s : State} (h : ∀ e ∈ s.links.ports, e.2.waiting = []) : NothingWaits s := by
  intro q
  have : ∀ l : SMap PortS, (∀ e ∈ l, e.2.waiting = []) → (sget PortS.reset l q).waiting = [] := by
    intro l
    induction l with
    | nil => exact fun _ => rfl
    | cons e r ih =>
      intro h
      rw [sget]
      split
      · exact h e List.mem_cons_self
      · exact ih fun x hx => h x (List.mem_cons_of_mem _ hx)
  exact this _ h
/-! ### Scalar instructions, control flow, waits -/

theorem witness_ScalarResults :
    (∀ w regs, Issuing (running (about w regs)) 0 w) ∧ (1 : W32) ≠ 0 ∧ (1 : W32).toNat ≤ 2 ^ 31 ∧ (2 ^ 31 : W32) ≠ 0 ∧ (2 ^ 31 : W32).toNat ≤ 2 ^ 31 :=
  ⟨issues, by decide, by decide, by decide, by decide⟩

/-- CDIV rounds up (Table 4-2): 9 / 4 gives 3. -/
theorem test_cdiv : (ran (.cdiv 0 3 1 4) (iw 0x13 0 (fd 3 + fa 1 + fi 4)) [0, 9]).regs.take 4 = [0, 9, 0, 3] := by decide +kernel
/-- MOVI sign-extends its immediate. -/
theorem test_movi : (ran (.movi 0 2 0xFFFFFFFF#32) (iw 0x10 0 (fd 2 + fi 0xFFFFFFFF#32)) []).regs.take 3 = [0, 0, 0xFFFFFFFFFFFFFFFF#64] := by decide +kernel
/-- Writes to `s0` are discarded (Table 4-1). -/
theorem test_s0 : (ran (.movi 0 0 5) (iw 0x10 0 (fi 5)) []).regs = List.replicate 16 0 := by decide +kernel

theorem witness_ControlFlow :
    (∀ w regs, Issuing (running (about w regs)) 0 w) ∧
    (let s := running { about 0 [] with wait := .halt }
     s.running = true ∧ (s.core 0).wait = .halt ∧ (s.core 0).passes = [] ∧ (∀ m ∈ (s.core 0).moves, m.retired = true) ∧ (s.core 0).posts = []) ∧
    ((0 : Nat) : Int) = ((CoreS.reset).pc : Int) + (0 : W32).toInt ∧
    (∀ k : Cond, ∃ u v : W64, match k with
      | .eq => u = v | .ne => u ≠ v | .lt => u.toInt < v.toInt | .ge => v.toInt ≤ u.toInt | .ltu => u.toNat < v.toNat | .geu => v.toNat ≤ u.toNat) ∧
    (∀ k : Cond, ∃ u v : W64, ¬ match k with
      | .eq => u = v | .ne => u ≠ v | .lt => u.toInt < v.toInt | .ge => v.toInt ≤ u.toInt | .ltu => u.toNat < v.toNat | .geu => v.toNat ≤ u.toNat) ∧
    (0xFFFFFFFF#32 ≠ 0 ∧ (0xFFFFFFFF#64).toNat ≤ (0xFFFFFFFF#32).toNat) ∧
    (let l : LoopL := { body := 1, planned := 2, live := 2, index := 1, counter := none, skipping := false }
     let x := { about (iw 0x06 0 0) [] with loops := [l] }
     Issuing (running x) 0 (iw 0x06 0 0) ∧ ((running x).core 0).loops = l :: [] ∧ l.index.toNat < l.planned.toNat) := by
  refine ⟨issues, by decide, by decide, ?_, ?_, by decide, issuing_about rfl rfl (by decide) rfl, rfl, by decide⟩
  · intro k; cases k
    · exact ⟨0, 0, rfl⟩
    · exact ⟨0, 1, by decide⟩
    · exact ⟨0xFFFFFFFFFFFFFFFF#64, 0, by decide⟩
    · exact ⟨0, 0, by decide⟩
    · exact ⟨0, 1, by decide⟩
    · exact ⟨0, 0, by decide⟩
  · intro k; cases k
    · exact ⟨0, 1, by decide⟩
    · exact ⟨0, 0, by decide⟩
    · exact ⟨0, 0, by decide⟩
    · exact ⟨0xFFFFFFFFFFFFFFFF#64, 0, by decide⟩
    · exact ⟨0, 0, by decide⟩
    · exact ⟨0, 1, by decide⟩

/-- A branch to itself (R116). -/
theorem test_br : (ran (.br 0 0xFFFFFFFF#32) (iw 0x03 0 (fi 0xFFFFFFFF#32)) []).status = 5 := by decide +kernel
/-- A loop whose live count is 0 runs its body in skip mode (R123). -/
theorem test_loop : (ran (.loop 0 (some 1) (some 2) 3) (iw 0x05 13 (fa 2 + fi 3)) []).loops.map LoopL.skipping = [true] := by decide +kernel

theorem witness_LoadStoreAndInvalidOperands :
    (((0x3FFFF8 : Nat) : Int) = ((0x3FFFF8#64).toNat : Int) + (0 : W32).toInt ∧ 0x3FFFF8 % sizeBytes .b8 = 0 ∧ 0x3FFFF8 + sizeBytes .b8 ≤ 0x400000) ∧
    (∀ w regs v n, held ((running (about w regs)).core 0) 9 (clmUnits v n) [] = false ∧ held ((running (about w regs)).core 0) 9 [] (clmUnits v n) = false ∧
      (sramReadCheck (running (about w regs)) 2 0 v n).2 = false) ∧
    (((0x3FFFFD#64).toNat : Int) + (0 : W32).toInt + sizeBytes .b4 > 0x400000 ∧ ((0#64).toNat : Int) + (0xFFFFFFFF#32).toInt < 0 ∧
      (((2#64).toNat : Int) + (0 : W32).toInt) % sizeBytes .b4 ≠ 0) ∧
    (((running (about 0 [])).core 0).pc : Int) + (0xFFFFFFFF#32).toInt < 0 ∧ ((running (about 0 [])).core 0).loops = [] ∧
    0xFFFFFFFD < (((running (about 0 [0, 0xFFFFFFFE#64])).core 0).reg 1).toNat ∧
    0xFFFFFFFF < (((running (about 0 [0, 0xFFFFFFFF#64])).core 0).reg 1).toNat + (1 : W32).toNat :=
  ⟨by decide, fun _ _ _ _ => ⟨by simp [held, running, about, State.core, sget, CoreS.reset], by simp [held, running, about, State.core, sget, CoreS.reset], rfl⟩,
    by decide, by decide, rfl, by decide, by decide⟩

/-- A store is little-endian (R7). -/
theorem test_st : (ran (.st 0 .b4 1 2 4) (iw 0x15 0 (fa 1 + fb 2 + fi 4)) [0, 60, 0x8899AABBCCDDEEFF#64]).clm =
    [(64, 0xFF#8), (65, 0xEE#8), (66, 0xDD#8), (67, 0xCC#8)] := by decide +kernel

theorem witness_WorkCounters :
    (∀ w regs, Issuing (running (about w regs)) 0 w) ∧ (0xFFFFFFFD#64).toNat ≤ 0xFFFFFFFD ∧ ((65536 : W32) ≠ 0 ∧ (65536 : W32).toNat ≤ 65536) ∧
    (let l : LoopL := { body := 1, planned := 1, live := 0, index := 0, counter := none, skipping := true }
     let x := { about (iw 0x24 0 (fi 1)) [] with loops := [l] }
     Issuing (running x) 0 (iw 0x24 0 (fi 1)) ∧ ((running x).core 0).loops.any (fun l => l.skipping) = true) ∧
    ((0x20003#64).toNat / 256 % 256 = 0 ∧ (0x20003#64).toNat < 2 ^ 32) ∧
    (∀ w, (running { about 0 [] with wait := w }).running = true ∧ ((running { about 0 [] with wait := w }).core 0).wait = w) ∧
    (let s := (running { about 0 [] with wait := .take 1 3 4 2 }).setWc 3 { value := 9, limit := 10, epoch := 2 }
     (s.wc 3).epoch = (2 : W16).toNat ∧ (s.wc 3).value < (s.wc 3).limit) ∧
    (let s := (running { about 0 [] with wait := .take 1 3 4 2 }).setWc 3 { value := 10, limit := 10, epoch := 2 }
     (s.wc 3).epoch = (2 : W16).toNat ∧ (s.wc 3).limit ≤ (s.wc 3).value) ∧
    ((running (about 0 [])).wc 3).epoch ≠ (2 : W16).toNat :=
  ⟨issues, by decide, by decide, ⟨issuing_about rfl rfl (by decide) rfl, rfl⟩, by decide, fun _ => ⟨rfl, rfl⟩, by decide, by decide, by decide⟩

/-- A chunk at the limit is the rest (R134): of 4 asked, 1 is left. -/
theorem test_take : (after (exec (.takeServe 0) ((running { about 0 [] with wait := .take 1 3 4 2 }).setWc 3 { value := 9, limit := 10, epoch := 2 }))).wc 3 =
    { value := 10, limit := 10, epoch := 2 } := by decide +kernel

theorem witness_WaitingAndPosting :
    (∀ w regs, Issuing (running (about w regs)) 0 w) ∧ ((0xFFFFFFFE#64).toNat + (1 : W32).toNat < 2 ^ 32) ∧
    ((0xFFFFFFFFFFFFFFFE#64).toNat + (1 : W32).toNat < 2 ^ 64) ∧
    (let s := (running { about 0 [] with wait := .sem 3 2 }).setSem 0 3 2
     s.running = true ∧ (s.core 0).wait = .sem 3 2 ∧ (2#64).toNat ≤ s.sem 0 3) ∧
    (let s := (running { about 0 [] with wait := .sem 3 2 }).setSem 0 3 1
     s.running = true ∧ (s.core 0).wait = .sem 3 2 ∧ s.sem 0 3 < (2#64).toNat) ∧
    (let s := running { about 0 [] with wait := .time 5 }
     s.running = true ∧ (s.core 0).wait = .time 5 ∧ s.now ≤ (4#64) ∧ (5 : FTime) ≤ 5#64 ∧ (4#64) < (5 : FTime)) ∧
    (let s := (running { about 0 [] with status := 3, wait := .time 5 })
     s.running = true ∧ s.now ≤ (10000000001#64 : FTime) ∧ (s.core 0).status = 3 ∧ (s.core 0).waitRaised = false ∧ s.ent 0x5510 3 ≠ 0 ∧
       (s.core 0).waitSince.toNat + s.ent 0x5510 3 * 1000000 < (10000000001#64 : FTime).toNat) ∧
    (∀ w regs, let x := (running (about w regs)).core 0; x.passes = [] ∧ (∀ m ∈ x.moves, m.retired = true) ∧ x.posts = []) ∧
    (let t := (191 * 65536 + 0 : Nat); t < 2 ^ 26 ∧ t / 65536 % 1024 ≤ 191 ∧ t % 65536 / 32 ≤ 319 ∧ 0 % 65536 = (running (about 0 [])).ent 0x3200 4) ∧
    (let s := withEnts [(0x3300, 1, 4)] (running (about 0 []))
     1 ≠ s.device ∧ freeTag s = some 0 ∧ (routePort s s.device 1).isSome = true) ∧
    (let s := running { about 0 [] with posts := [(7, 3)] }
     s.running = true ∧ ((s.core 0).posts.find? fun p => decide (p.1 = 7)) = some (7, 3) ∧
       (∀ q ∈ (s.core 0).posts.takeWhile (fun q => !decide (q.1 = 7)), q.2 ≠ 3) ∧ (∀ q ∈ (s.core 0).passes, q.id ≠ 7) ∧
       (∀ m ∈ (s.core 0).moves, m.id = 7 → m.retired = true)) := by
  refine ⟨issues, by decide, by decide, by decide, by decide, by decide, by decide, ?_, by decide, by decide +kernel, by decide⟩
  intro w regs
  exact ⟨rfl, by simp [running, about, State.core, sget, CoreS.reset], rfl⟩

/-- Three posts of 2^31 stop at 2^32 − 1 (R151). -/
theorem test_saturate : (after (exec (.post 0 false 5 0 0x80000000#32) ((running (about (iw 0x51 0 (5 * 2 ^ 42 + fi 0x80000000#32)) [])).setSem 0 5 0x80000001))).sem 0 5 =
    2 ^ 32 - 1 := by decide +kernel
/-! ### The row unit -/

/-- An RFUNC of rows in core-local memory, with `s1` the source, `s2` the destination, `s3` the length, `s4` the rows and `s5` the value P. -/
def rf : RFuncF :=
  { srcAcc := false, dstAcc := false, accTiled := false, fromPass := false, src := 1, dst := 2, len := 3, rows := 4, p := 5, pad := 1, post := none,
    param := 0, outFmt := 0 }

theorem rowReady {s : State} {j : RowJob} {whole : Bool} {clm : List (Nat × Nat × Nat)} {acc extra stores : List (Nat × Nat)} {out : Nat}
    (h : unitFull (s.core 0) 2 = false ∧ (whole = true → j.len ≤ 65536) ∧ (j.f.accTiled = true → j.f.fromPass = false →
        1 ≤ j.len ∧ j.len ≤ 512 ∧ 1 ≤ j.rows ∧ j.rows ≤ 128 ∧ j.src + j.tiles * j.rows ≤ 512) ∧ fromPassOk (s.core 0) j = true ∧
      rangesIn (((srcReads j).1 ++ clm).map clmSpan ++ ((dstWrites j out).1 ++ extra)) ((srcReads j).2 ++ acc ++ (dstWrites j out).2) = true ∧
      held (s.core 0) 2 (rangeUnits (((srcReads j).1 ++ clm).map clmSpan) ((srcReads j).2 ++ acc)) (rangeUnits ((dstWrites j out).1 ++ extra) (dstWrites j out).2) = false ∧
      (checkSram s 0 (rowReads j ((srcReads j).1 ++ clm) ((srcReads j).2 ++ acc) stores)).2 = false) : RowReady s 0 j whole clm acc extra out stores :=
  ⟨h.1, h.2.1, h.2.2.1, h.2.2.2.1, h.2.2.2.2.1, h.2.2.2.2.2.1, h.2.2.2.2.2.2⟩

/-- A row unit's core: 2 rows of 3 elements at 0, the second operand at 0x800, results at 0x1000. -/
def rowCore (op : Nat) (f : RFuncF) : CoreS := about (rfuncWord op f) [0, 0, 0x1000, 3, 2, 0x800, 0x2000]
def rowOf (op : Nat) (f : RFuncF) : RowJob := rowJob (rowCore op f) op f

/-- The same with activation table 3 loaded, whose derivative part is there (Table 8-1). -/
def tableCore (op : Nat) : CoreS := { rowCore op { rf with param := 0x13 } with acts := [(3, [1, 1])] }

theorem witness_ElementwiseFunctions :
    (∀ op f, Issuing (running (rowCore op f)) 0 (rfuncWord op f) ∧ Skipping (running (rowCore op f)) 0 = false) ∧
    (∀ op ∈ [1, 2, 3, 4, 5, 6, 7, 8, 9, 10, 11, 12], rfOk op { rf with param := 1 } = true) ∧
    RowReady (running (rowCore 3 rf)) 0 (rowOf 3 rf) false [] [] [] 3 ∧
    RowReady (running (rowCore 1 rf)) 0 (rowOf 1 rf) false (clmRows 0x800 2 12) [] [] 3 ∧
    (let f := { rf with param := 0x13 }
     rfOk 11 f = true ∧ 0x10 ≤ f.param.toNat ∧ actTable { rowCore 11 f with acts := [(3, [1])] } f.param.toNat ≠ []) ∧
    RowReady (running (tableCore 11)) 0 (rowJob (tableCore 11) 11 { rf with param := 0x13 }) false [] [] [] 3 [(storeActs 3, 4128)] ∧
    (field (actTable (tableCore 12) 0x13) 1 1 = 1 ∧ rf.p.val < 15 ∧
      RowReady (running (tableCore 12)) 0 (rowJob (tableCore 12) 12 { rf with param := 0x13 }) false (clmRows 0x800 2 12) [] [] 3
        [(storeActs 3, 32), (storeActs 3 + 4128, 4096)]) ∧
    (rf.param.toNat < 0x10 ∧ rf.p.val < 15) ∧
    (let l : LoopL := { body := 1, planned := 1, live := 0, index := 0, counter := none, skipping := true }
     Issuing (running { rowCore 1 rf with loops := [l] }) 0 (rfuncWord 1 rf) ∧ Skipping (running { rowCore 1 rf with loops := [l] }) 0 = true) :=
  ⟨fun _ _ => ⟨issues _ _, rfl⟩, by decide +kernel, rowReady (by decide +kernel), rowReady (by decide +kernel), by decide +kernel, rowReady (by decide +kernel),
    ⟨by decide +kernel, by decide, rowReady (by decide +kernel)⟩, by decide +kernel, issuing_about rfl rfl (by decide +kernel) rfl, rfl⟩

theorem witness_ReductionsAndNorms :
    (∀ op f, Issuing (running (rowCore op f)) 0 (rfuncWord op f) ∧ Skipping (running (rowCore op f)) 0 = false) ∧
    (∀ op ∈ [13, 14, 15, 16, 17, 18], rfOk op rf = true) ∧
    (held (rowCore 13 rf) 2 (clmUnits convBlockAt 64) [] = false ∧ cvMode (rowCore 13 rf).conv ≤ 1 ∧
      readOnce (running (rowCore 13 rf)) 2 0 convBlockAt 64 = (running (rowCore 13 rf), false)) ∧
    (held (rowCore 15 rf) 2 (clmUnits attnAt 64) [] = false ∧ atPhase (rowCore 15 rf).attn = 0 ∧
      readOnce (running (rowCore 15 rf)) 2 0 attnAt 64 = (running (rowCore 15 rf), false)) ∧
    RowReady (running (rowCore 13 rf)) 0 (rowOf 13 rf) true [] [] [] 1 ∧ RowReady (running (rowCore 15 rf)) 0 (rowOf 15 rf) true [] [] [] 3 ∧
    RowReady (running (rowCore 16 rf)) 0 (rowOf 16 rf) false (clmRows 0x800 2 12) [] [] 3 ∧
    RowReady (running (rowCore 17 rf)) 0 (rowOf 17 rf) true [(0x2000, 1, 24)] [] [] 3 ∧ RowReady (running (rowCore 18 rf)) 0 (rowOf 18 rf) true [(0x2000, 1, 12)] [] [] 3 :=
  ⟨fun _ _ => ⟨issues _ _, rfl⟩, by decide +kernel, by decide +kernel, by decide +kernel, rowReady (by decide +kernel), rowReady (by decide +kernel),
    rowReady (by decide +kernel), rowReady (by decide +kernel), rowReady (by decide +kernel)⟩

/-- An attention block of a phase (Table 9-3): version 1, τ = 1, rows from 4, dimension 3, scores from accumulator row 10. -/
def attnBlock (phase : Nat) : List Byte := le 1 1 ++ le 1 phase ++ le 2 0 ++ le 2 4 ++ le 2 3 ++ le 4 0x3F800000 ++ le 4 0 ++ le 4 0 ++ le 2 10
def attnCore (op phase : Nat) (f : RFuncF) : CoreS := (rowCore op f).setClm attnAt (attnBlock phase)
def rfAttn (phase : Nat) : RFuncF := { rf with accTiled := decide (phase ≠ 3) }

theorem attn_issues (op phase : Nat) (f : RFuncF) : Issuing (running (attnCore op phase f)) 0 (rfuncWord op f) :=
  issuing_about rfl rfl Nat.zero_lt_one rfl

theorem witness_AttentionPhases :
    (∀ op phase f, Issuing (running (attnCore op phase f)) 0 (rfuncWord op f)) ∧
    (∀ phase ∈ [1, 2, 3, 4], let f := rfAttn phase
      let op := if phase ≤ 2 then 15 else 16
      let x := (running (attnCore op phase f)).core 0
      rfOk op f = true ∧ Skipping (running (attnCore op phase f)) 0 = false ∧ held x 2 (clmUnits attnAt 64) [] = false ∧
        readOnce (running (attnCore op phase f)) 2 0 attnAt 64 = (running (attnCore op phase f), false) ∧ attnOk x.attn = true ∧
        atPhase x.attn = phase ∧ f.accTiled = decide (phase ≠ 3) ∧ atBase x.attn + (x.reg f.rows).toNat ≤ 128) ∧
    RowReady (running (attnCore 15 1 (rfAttn 1))) 0 (rowJob (attnCore 15 1 (rfAttn 1)) 15 (rfAttn 1)) false [(attnTable + 32 * 4, 1, 64)] [] [(attnTable + 32 * 4, 64)] 0 ∧
    RowReady (running (attnCore 15 2 (rfAttn 2))) 0 (rowJob (attnCore 15 2 (rfAttn 2)) 15 (rfAttn 2)) false [(attnTable + 32 * 4, 1, 64)] [] [] 3 ∧
    ((rowJob (attnCore 16 3 (rfAttn 3)) 16 (rfAttn 3)).len = atDim (attnBlock 3) ∧
      RowReady (running (attnCore 16 3 (rfAttn 3))) 0 (rowJob (attnCore 16 3 (rfAttn 3)) 16 (rfAttn 3)) false (clmRows 0x800 2 12 ++ [(attnTable + 32 * 4, 1, 64)]) []
        [(attnTable + 32 * 4, 64)] 0) ∧
    (let j := rowJob (attnCore 16 4 (rfAttn 4)) 16 (rfAttn 4)
     j.src + j.tiles * j.rows ≤ atScore (attnBlock 4) ∧ atScore (attnBlock 4) + j.tiles * j.rows ≤ 512 ∧
      RowReady (running (attnCore 16 4 (rfAttn 4))) 0 j false [(attnTable + 32 * 4, 1, 64)] [(10, 2)] [] 3) :=
  ⟨attn_issues, by decide +kernel, rowReady (by decide +kernel), rowReady (by decide +kernel), ⟨by decide +kernel, rowReady (by decide +kernel)⟩,
    by decide +kernel, by decide +kernel, rowReady (by decide +kernel)⟩
/-- A convolution block (Table 10-1) of 1 × 1 × 1 inputs, taps and outputs, its planes from 0. -/
def convBytes (mode : Nat) : List Byte :=
  le 1 1 ++ le 1 mode ++ le 2 0 ++ le 4 0 ++ le 4 0 ++ le 4 0 ++ le 2 1 ++ le 2 1 ++ le 2 1 ++ le 2 1 ++ le 4 0x010101 ++ le 4 0x010101 ++ le 4 0x010101 ++
  le 2 0 ++ le 2 0 ++ le 2 0 ++ le 2 1 ++ le 2 1 ++ le 2 1 ++ le 4 0 ++ le 2 0 ++ le 2 1 ++ le 2 0 ++ le 2 1
def poolCore (op : Nat) : CoreS := (about (rfuncWord op { rf with param := 1 }) [0, 0, 0x1000, 1, 1]).setClm convBlockAt (convBytes 2)

theorem witness_Pooling : ∀ op ∈ [13, 14],
    let f := { rf with param := 1 }
    let s := running (poolCore op)
    let x := s.core 0
    let j := rowJob x op f
    let taps := (List.range j.rows).flatMap fun r => (List.range j.len).filterMap fun k =>
      (tapAt x.conv (field x.conv 48 4 + r) (field x.conv 56 2 + k)).map fun p => (planeAt x.conv (field x.conv 52 2) 2 p, 2)
    rfOk op f = true ∧ Skipping s 0 = false ∧ (f.srcAcc || f.dstAcc || f.accTiled || f.fromPass) = false ∧
      held x 2 (clmUnits convBlockAt 64) [] = false ∧ readOnce s 2 0 convBlockAt 64 = (s, false) ∧ cvMode x.conv = 2 ∧ convFail x.conv j.rows 2 true (decide (1 ≤ 1 ∧ 1 ≤ 3)) j.len = none ∧
      rangesIn [(j.dst, j.rows * outSize f)] [] = true ∧ unitFull x 2 = false ∧ taps ≠ [] ∧
      held x 2 (rangeUnits taps []) (rangeUnits (if j.rows = 0 then [] else [(j.dst, j.rows * outSize f)]) []) = false ∧ (checkRanges s 0 taps).2 = false := by
  decide +kernel
theorem witness_Pooling_issues (op : Nat) : Issuing (running (poolCore op)) 0 (rfuncWord op { rf with param := 1 }) :=
  issuing_about rfl rfl Nat.zero_lt_one rfl

/-- A CAST of 2 rows of 3 FP32 elements to BF16. -/
def castF : RFuncF := { rf with param := 3 }
def castCore : CoreS := about (rfuncWord 0x13 castF) [0, 0, 0x1000, 3, 2, 1]

theorem witness_CastQueues :
    castFieldsOk castF = true ∧ Issuing (running castCore) 0 (rfuncWord 0x13 castF) ∧ Skipping (running castCore) 0 = false ∧
    CastReady (running castCore) 0 (rowJob castCore 0x13 castF) ∧ isFloat 3 = true ∧ isFloat (ccDest 1) = true ∧ castF.param.toNat / 16 ≤ 3 ∧
    (let x := { castCore with loops := [{ body := 1, planned := 1, live := 0, index := 0, counter := none, skipping := true }] }
     Issuing (running x) 0 (rfuncWord 0x13 castF) ∧ Skipping (running x) 0 = true) :=
  ⟨by decide +kernel, issues _ _, rfl,
    { tiles := by decide +kernel, word := by decide +kernel, base := by decide +kernel, args := by decide +kernel, oldest := rfl, inside := by decide +kernel,
      idle := rfl, sound := rfl, noise := .inl (by decide +kernel), scales := .inl (by decide +kernel) },
    rfl, by decide +kernel, by decide +kernel, issuing_about rfl rfl Nat.zero_lt_one rfl, rfl⟩

/-! ### The array and the matrix-vector unit -/

/-- BF16, K = 3, N = 2, to accumulator row 510 (Table 3-5). -/
def modeA : W64 := BitVec.ofNat 64 (1 + 2 * 2 ^ 8 + 1 * 2 ^ 18 + 510 * 2 ^ 27)
def passF : APassF := { mode := .store 0, keep := false, m := 1, x := 2, w := 3, c := 4, post := none }
def passCore (g : Bool) (f : APassF) (mode : W64) : CoreS := { about (apassWord f g) [0, 2, 0x2000, 0x1000, 0] with modes := [mode] }

theorem pass_issues (g : Bool) (f : APassF) (mode : W64) : Issuing (running (passCore g f mode)) 0 (apassWord f g) :=
  issuing_about rfl rfl Nat.zero_lt_one rfl

theorem witness_ArrayPass :
    Issuing (running (passCore false passF modeA)) 0 (apassWord passF false) ∧ PassFree (running (passCore false passF modeA)) 0 ∧
    (let s := running (passCore false passF modeA)
     let x := s.core 0
     let w := modeWord x passF.mode
     let m := (x.reg 1).toNat
     passF.keep = false ∧ Skipping s 0 = false ∧ mwFieldsOk w 0 = true ∧ mwRowsOk w m = true ∧
      (m = 0 ∨ ((x.reg 2).toNat + 256 * m ≤ 0x400000 ∧ (mwFormat w = 5 ∨ mwFormat w = 6 → (x.reg 2).toNat % 256 = 0))) ∧
      (x.reg 3).toNat + 256 * ceilDiv (mwK w) (density (mwFormat w)) ≤ 0x400000 ∧ (mwFormat w = 5 ∨ mwFormat w = 6 → (x.reg 3).toNat % 256 = 0) ∧
      (scaleBytesRead w m = 0 ∨ (x.reg 4).toNat + scaleBytesRead w m ≤ 0x400000)) :=
  ⟨pass_issues _ _ _, ⟨rfl, rfl⟩, by decide +kernel⟩

/-- The last rows of the accumulator file are 510 and 511; a pass of 3 rows from 510 does not fit (R93). -/
theorem test_mode_rows : mwRowsOk modeA 2 = true ∧ mwRowsOk modeA 3 = false := by decide +kernel

theorem witness_ArrayPassForms :
    (∀ g f m, Issuing (running (passCore g f m)) 0 (apassWord f g) ∧ PassFree (running (passCore g f m)) 0) ∧
    (let s := running ((passCore true passF modeA).setClm 0x2000 (le 4 0x3FFF00 ++ le 4 0))
     let x := s.core 0
     cvMode x.conv ≠ 1 ∧ cvMode x.conv < 3 ∧ 0x2000 + 4 * 2 ≤ 0x400000 ∧
      (∀ r, r < 2 → (x.word (0x2000 + 4 * r)).toNat % 256 = 0 ∧ (x.word (0x2000 + 4 * r)).toNat + 256 ≤ 0x400000) ∧ scaleBytesRead modeA 2 = 0) ∧
    (let x := { passCore true { passF with keep := true } modeA with lastMode := some modeA }
     ∃ l, x.lastMode = some l ∧ mwKept l = mwKept (modeWord x passF.mode)) ∧
    (let m := BitVec.ofNat 64 (1 + 1 * 2 ^ 18)
     let x := (passCore true { passF with m := 5 } m).setClm convBlockAt (convBytes 1)
     let y := { x with regs := x.regs.set 5 1 }
     mwFieldsOk m 0 = true ∧ mwRowsOk m 1 = true ∧ cvMode y.conv = 1 ∧ convFail y.conv 1 2 false (decide (1 ≤ 1 ∧ 1 ≤ 4) && decide (mwDest m ≠ 3)) (mwK m) = none) ∧
    (let x := { passCore false passF modeA with loops := [{ body := 1, planned := 1, live := 0, index := 0, counter := none, skipping := true }] }
     Skipping (running x) 0 = true ∧ (running x).mem.sramRaw = [] ∧ mwDest modeA = 0 ∧ (x.reg 1).toNat ≠ 0 ∧ x.passes = [] ∧ keptOk x.prevMode false modeA = true ∧ keptOk x.prevMode true modeA = false ∧
      keptOk { x with prevMode := some modeA }.prevMode true modeA = true) ∧
    (mwDest (modeA + BitVec.ofNat 64 (2 ^ 25)) ≠ 0) :=
  ⟨fun _ _ _ => ⟨pass_issues _ _ _, rfl, rfl⟩, by decide +kernel, ⟨modeA, rfl, rfl⟩, by decide +kernel, by decide +kernel, by decide +kernel⟩

/-- A core in skip mode. -/
def skipLoop (x : CoreS) : CoreS := { x with loops := [{ body := 1, planned := 1, live := 0, index := 0, counter := none, skipping := true }] }
def mpassF : MPassF := { mode := .store 0, wstream := false, m := 1, x := 2, w := 3, post := none }
def modeM : W64 := BitVec.ofNat 64 (1 + 1 * 2 ^ 18 + 7 * 2 ^ 39 + 2 ^ 42)
def mpassCore : CoreS := { about (mpassWord mpassF) [0, 3, 0x2000, 0x1000] with modes := [modeM] }

theorem witness_MatrixVectorPass :
    Issuing (running mpassCore) 0 (mpassWord mpassF) ∧ PassFree (running mpassCore) 0 ∧
    (mwFieldsOk modeM 1 = true ∧ mwRowsOk modeM (mwVectors modeM) = true ∧ (3 : Nat) ≤ 65536 ∧ 0x2000 + (mwVectors modeM - 1) * roundUp 6 256 + 2 * 3 ≤ 0x400000 ∧
      (0x1000 + 256 * (3 - 1) + 2 * mwN modeM ≤ 0x400000) ∧ mwDest modeM = 0) ∧
    (let p : Pass := { id := 4, unit := 2, writes := [(2, 128, [7])], clm := [(0x40, [9])], reads := [], dests := [], post := none, busy := 0, counts := [], skipped := false }
     let s := running { about 0 [] with passes := [p] }
     s.running = true ∧ ((s.core 0).passes.find? fun q => decide (q.id = 4)) = some p ∧
      (∀ q ∈ (s.core 0).passes.takeWhile (fun q => !decide (q.id = 4)), q.unit ≠ p.unit) ∧ postsBefore (s.core 0) p = false ∧
      (let p := { p with skipped := true, post := some 2 }
       let s := running { about 0 [] with passes := [{ p with id := 3, unit := 0 }, p] }
       ((s.core 0).passes.find? fun q => decide (q.id = 4)) = some p ∧ postsBefore (s.core 0) p = true)) :=
  ⟨issuing_about rfl rfl Nat.zero_lt_one rfl, ⟨rfl, rfl⟩, by decide +kernel, by decide +kernel⟩
theorem witness_MatrixVectorPass_skips :
    (∀ m, Issuing (running { skipLoop mpassCore with modes := [m] }) 0 (mpassWord mpassF) ∧
      modeCheck (running { skipLoop mpassCore with modes := [m] }) 0 (.store 0) = (running { skipLoop mpassCore with modes := [m] }, false)) ∧
    (∀ m, Skipping (running { skipLoop mpassCore with modes := [m] }) 0 = true) ∧ mwVectors modeM ≠ 0 ∧
    (skipLoop mpassCore).passes = [] ∧ mwDest modeM = 0 ∧ mwDest (modeM + BitVec.ofNat 64 (2 ^ 25)) ≠ 0 :=
  ⟨fun _ => ⟨issuing_about rfl rfl Nat.zero_lt_one rfl, modeCheck_clean rfl 0 (.store 0)⟩, fun _ => rfl, by decide +kernel⟩

/-! ### The mover -/

/-- A COPY (Table 6-3) of 1 row of 64 bytes, from core 0's memory at 0x100 to HBM at `a`. -/
def copyDesc (rows a : Nat) : List Byte :=
  le 4 0x07070101 ++ le 4 0 ++ le 8 (0xF00000000100) ++ le 8 a ++ le 4 64 ++ le 4 64 ++ le 4 rows ++ le 4 64 ++ le 8 0 ++ le 4 rows ++ le 4 64 ++ le 8 0
def hbmDesc (rows a : Nat) : List Byte :=
  le 4 0x07070101 ++ le 4 0 ++ le 8 0x100 ++ le 8 a ++ le 4 64 ++ le 4 64 ++ le 4 rows ++ le 4 64 ++ le 8 0 ++ le 4 rows ++ le 4 64 ++ le 8 0
def moveCore (d : List Byte) : CoreS := (about (iw 0x40 0 (fa 1)) [0, 0x2000]).setClm 0x2000 d
/-- A descriptor of core 0 as captured. -/
def move1 (d : List Byte) : Move :=
  { id := 3, desc := d, pad := 0, clmAddr := 0x2000, post := none, transfer := 5, started := false, retired := false, reads := [], payload := [],
    awaiting := 0, writes := [], remote := 0, mapWrites := [], mapWaits := 0, granules := [] }

theorem witness_MoverDescriptors :
    (∀ d, Issuing (running (moveCore d)) 0 (iw 0x40 0 (fa 1)) ∧ Skipping (running (moveCore d)) 0 = false) ∧
    (let x := moveCore (copyDesc 1 0x10000)
     let d := x.clmBytes 0x2000 64
     let s := running x
     0x2000 % 64 = 0 ∧ 0x2000 + 64 ≤ 0x400000 ∧ x.passes = [] ∧ s.mem.sramRaw = [] ∧ mvInvalid s d = false ∧ mvBadAddress s d = none ∧
      (x.moves.filter fun m => !m.started).length < 4 ∧ mvEmpty d = false) ∧
    (let x := moveCore (copyDesc 0 0x10000)
     let d := x.clmBytes 0x2000 64
     mvInvalid (running x) d = false ∧ mvBadAddress (running x) d = none ∧ mvEmpty d = true) ∧
    mvInvalid (running (moveCore [])) ((moveCore []).clmBytes 0x2000 64) = true ∧
    (let m := move1 (copyDesc 1 0x10000)
     let s := running { about 0 [] with moves := [m] }
     s.now ≤ (9 : FTime) ∧ ((s.core 0).moves.find? fun m => !m.started) = some m ∧ s.audit.held = [] ∧ (∀ n ∈ (s.core 0).moves, n.started = true → n.reads = []) ∧
      ((s.core 0).moves.map Move.id).Nodup ∧ mvOp m.desc ≠ 3 ∧ isFar s (gDev (mvDst m.desc)) (gLocal (mvDst m.desc)) = false ∧
      (let r := readRuns ({ s with now := 9 }.modMove 0 m.id fun _ => { m with started := true })
        (mvRuns m.desc (mvRowAddr m.desc)) (List.replicate (mvPayload m.desc) 0) (!mvNoAlloc m.desc)
       r.2.2 = ([], none) ∧ ∀ v ∈ (mvOutput { m with started := true, payload := r.2.1, reads := [] }).1, isMemory (gLocal v.1) v.2.length = true)) ∧
    (let m := { move1 (hbmDesc 1 0x10000) with started := true }
     let x := { about 0 [] with moves := [m] }
     x.move 3 = some m ∧ m.started = true ∧ m.retired = false ∧ m.reads = [] ∧ m.awaiting = 0) := by
  constructor
  · exact fun _ => ⟨issuing_about rfl rfl Nat.zero_lt_one rfl, rfl⟩
  · decide +kernel

/-- A PAGE_GATHER (Table 6-3) of 2 rows of 64 bytes at 16 rows to a page, from the slot whose entries lie at `src` to HBM at 0x10000. -/
def gatherDesc (src : Nat) : List Byte :=
  le 4 0x07470301 ++ le 4 0 ++ le 8 src ++ le 8 0x10000 ++ le 4 64 ++ le 4 64 ++ le 4 2 ++ le 4 64 ++ le 8 0 ++ le 4 16 ++ le 4 64 ++ le 8 0
def gatherMove (src : Nat) : Move := { move1 (gatherDesc src) with started := false }
/-- A page area of one page per slot at 4,096, with its entries at 8,192, and 16 granules of 4,096 bytes from 0x100000 (Table 9-8). -/
def paged (s : State) : State :=
  let s := withEnts [(0x5210, 1, 4096), (0x5210, 2, 1), (0x5210, 3, 0x100000), (0x5210, 4, 4096), (0x5210, 5, 16)] s
  { s with ctl := { s.ctl with filled := true } }
/-- Page 0 of slot 0 as e has it, with the record o of its first granule (Table 9-6). -/
def mapping (s : State) (e : PageEntry) (o : Nat) : State := hput (hput s 8192 (le 8 e.word)) (4096 + 4 * e.first) (le 4 o)

theorem le_length : ∀ n v, (le n v).length = n := by
  intro n
  induction n with
  | zero => exact fun _ => rfl
  | succ n ih => exact fun v => congrArg (· + 1) (ih _)

/-- No entry but that one is mapped. -/
theorem pagesSound {s : State} {e : PageEntry} {o : Nat} (h0 : s.mem.hbm = []) (hp : s.dict = (paged State.reset).dict) (hf : e.first < 16)
    (he : (entryAt (mapping s e o) 0 0).mapped = true → (entryAt (mapping s e o) 0 0).first + 2 ^ (entryAt (mapping s e o) 0 0).size ≤ 16) :
    PagesSound (mapping s e o) := by
  have hb : pageBase s = 4096 ∧ pageEntries s = 1 ∧ granuleCount s = 16 := by
    simp only [pageBase, pageEntries, granuleCount, State.ent_of_dict hp]
    decide +kernel
  have hd : (mapping s e o).dict = s.dict := by rw [mapping, State.hput_dict, State.hput_dict]
  have b1 : pageBase (mapping s e o) = 4096 := by rw [← hb.1]; exact State.ent_of_dict hd _ _
  have b2 : pageEntries (mapping s e o) = 1 := by rw [← hb.2.1]; exact State.ent_of_dict hd _ _
  have b3 : granuleCount (mapping s e o) = 16 := by rw [← hb.2.2]; exact State.ent_of_dict hd _ _
  refine ⟨by omega, ?_, by omega, ?_⟩
  · rw [areaBytes, b1, b2, b3]; decide
  · intro k j hk hj hm
    rw [b2] at hj
    obtain rfl : j = 0 := by omega
    rw [b3]
    by_cases k0 : k = 0
    · subst k0; exact he hm
    · exfalso
      have ha : pageEntryAt (mapping s e o) k 0 = 8192 + 8 * k := by
        rw [pageEntryAt, b1, b2, b3, Nat.mul_one, Nat.add_zero]; rfl
      have lz : ∀ n v, (le n v).length = n := le_length
      have hz : hread (mapping s e o) (8192 + 8 * k) 8 = List.replicate 8 0 := by
        rw [mapping, hread_hput_outside _ _ _ (by rw [lz]; simp only [hbmSize]; omega) _ _ (by simp only [hbmSize]; omega) (by rw [lz]; omega),
          hread_hput_outside _ _ _ (by rw [lz]; simp only [hbmSize]; omega) _ _ (by simp only [hbmSize]; omega) (by rw [lz]; omega)]
        simp only [hread, hbyte, h0]
        rfl
      rw [entryAt, ha, hz] at hm
      revert hm
      decide +kernel

/-- Core 0 about to start it, with page 0 of slot 0 as e and o have it. -/
def gatherState (src st : Nat) (e : PageEntry) (o : Nat) : State :=
  mapping ((paged (running { about 0 [] with moves := [gatherMove src] })).setPageSlot 0 { st := st, e := 4, mapped := 0, pending := 0 }) e o
def gatherEntry : PageEntry := { first := 15, owner := 0, size := 0, mapped := true, pending := false, inFlight := 2 }

/-- What a start of any gather asks. -/
def gatherFits (s : State) (src : Nat) : Prop :=
  s.now ≤ (9 : FTime) ∧ HbmSound s ∧ PagesSound s ∧ NothingWaits s ∧ ((s.core 0).moves.find? fun m => !m.started) = some (gatherMove src) ∧
    (∀ n ∈ (s.core 0).moves, n.started = true → n.reads = []) ∧ ((s.core 0).moves.map Move.id).Nodup ∧ mvOp (gatherMove src).desc = 3 ∧
    mvReads (gatherMove src).desc = true
theorem gather_fits {src st : Nat} {e : PageEntry} {o : Nat} (hf : e.first < 16)
    (he : (entryAt (gatherState src st e o) 0 0).mapped = true →
      (entryAt (gatherState src st e o) 0 0).first + 2 ^ (entryAt (gatherState src st e o) 0 0).size ≤ 16)
    (h : let s := gatherState src st e o
      s.now ≤ (9 : FTime) ∧ (s.mem.hbmRaw = [] ∧ ∀ x ∈ s.mem.cache, x.bad = []) ∧ (∀ e ∈ s.links.ports, e.2.waiting = []) ∧
      ((s.core 0).moves.find? fun m => !m.started) = some (gatherMove src) ∧ (∀ n ∈ (s.core 0).moves, n.started = true → n.reads = []) ∧
      ((s.core 0).moves.map Move.id).Nodup ∧ mvOp (gatherMove src).desc = 3 ∧ mvReads (gatherMove src).desc = true) :
    gatherFits (gatherState src st e o) src :=
  ⟨h.1, h.2.1, pagesSound rfl rfl hf he, nothingWaits h.2.2.1, h.2.2.2⟩

theorem witness_MoverDescriptors_closed :
    (gatherFits (gatherState 4096 1 gatherEntry 256) 4096 ∧ gatherSlot (gatherState 4096 1 gatherEntry 256) (gatherDesc 4096) = none) ∧
    (gatherFits (gatherState 8192 0 gatherEntry 256) 8192 ∧ ((gatherState 8192 0 gatherEntry 256).pageSlot 0).st ≠ 1) :=
  ⟨⟨gather_fits (by decide) (by decide +kernel) (by decide +kernel), by decide +kernel⟩,
    ⟨gather_fits (by decide) (by decide +kernel) (by decide +kernel), by decide +kernel⟩⟩
theorem witness_MoverDescriptors_gather :
    ∀ x ∈ [(gatherEntry, 256), ({ gatherEntry with mapped := false }, 256), ({ gatherEntry with size := 1, first := 14 }, 256),
        ({ gatherEntry with inFlight := 65535 }, 256), ({ gatherEntry with owner := 1 }, 256), (gatherEntry, 257)], let s := gatherState 8192 1 x.1 x.2
      gatherFits s 8192 ∧ gatherSlot s (gatherDesc 8192) = some 0 ∧
        (s.pageSlot 0).st = 1 ∧ mvRow (gatherDesc 8192) ((mvRowRange (gatherDesc 8192)).2 - 1) < pageEntries s * 16 ∧
        2 ^ mvExp (gatherDesc 8192) = 16 ∧ mvRow (gatherDesc 8192) (mvRowRange (gatherDesc 8192)).1 = 0 := by
  intro x hx
  refine ⟨gather_fits ?_ ?_ ?_, ?_⟩ <;> revert x <;> decide +kernel
theorem witness_MoverDescriptors_entry :
    (entryAt (gatherState 8192 1 { gatherEntry with mapped := false } 256) 0 0).mapped = false ∧
    ((entryAt (gatherState 8192 1 { gatherEntry with size := 1, first := 14 } 256) 0 0).mapped = true ∧
      (entryAt (gatherState 8192 1 { gatherEntry with size := 1, first := 14 } 256) 0 0).size + 4 ≠ mvExp (gatherDesc 8192)) ∧
    (∀ x ∈ [({ gatherEntry with owner := 1 }, 256), (gatherEntry, 257)], let s := gatherState 8192 1 x.1 x.2
     (entryAt s 0 0).mapped = true ∧ (entryAt s 0 0).size + 4 = mvExp (gatherDesc 8192) ∧ ((entryAt s 0 0).owner ≠ 0 ∨ recordOf s (entryAt s 0 0).first ≠ (0, 1))) ∧
    (∀ n ∈ [2, 65535], let s := gatherState 8192 1 { gatherEntry with inFlight := n } 256
     (entryAt s 0 0).mapped = true ∧ (entryAt s 0 0).size + 4 = mvExp (gatherDesc 8192) ∧ (entryAt s 0 0).owner = 0 ∧ recordOf s (entryAt s 0 0).first = (0, 1) ∧
       inHbm (poolBase s + (entryAt s 0 0).first * granuleBytes s) 1 = true ∧ (entryAt s 0 0).inFlight = n) := by decide +kernel
theorem witness_MoverDescriptors_held :
    let s := gatherState 8192 1 gatherEntry 256
    let d := gatherDesc 8192
    let rowAt (i : Nat) : Nat := poolBase s + (entryAt s 0 (mvRow d i / 16)).first * granuleBytes s + mvRow d i % 16 * mvSrcStride d +
      codeBytes (mvSrcFmt d) (mvCol d (mvColRange d).1)
    let pages := [pageEntryAt s 0 0]
    let h : Move := { gatherMove 8192 with started := true, granules := pages }
    (mvRowRange d).1 = 0 ∧ (mvRowRange d).2 = 2 ∧ (∀ i, i < 2 → rowAt i + mvRunBytes d ≤ hbmSize) ∧ isFar s (gDev (mvDst d)) (gLocal (mvDst d)) = false ∧
      (let r := readRuns (pages.foldl holdPage ({ s with now := 9 }.modMove 0 3 fun _ => h)) (mvRuns d fun i => globalOf s (rowAt i))
        (List.replicate (mvPayload d) 0) (!mvNoAlloc d)
       r.2.2 = ([], none) ∧ ∀ v ∈ (mvOutput { h with payload := r.2.1, reads := [] }).1, isMemory (gLocal v.1) v.2.length = true) := by decide +kernel
theorem witness_MoverDescriptors_retire :
    let s := gatherState 8192 1 gatherEntry 256
    let m : Move := { gatherMove 8192 with started := true, granules := [pageEntryAt s 0 0] }
    let u := s.modMove 0 3 fun _ => m
    (u.core 0).move 3 = some m ∧ m.started = true ∧ m.retired = false ∧ m.reads = [] ∧ m.awaiting = 0 ∧ m.granules = [pageEntryAt u 0 0] ∧
      (entryAt u 0 0).pending = false ∧ 0 < pageEntries u := by decide +kernel

/-- Core 0's descriptor of transfer 5 with n bytes left to store at 0x10000: a COPY, or an ADD32 (Table 6-3). -/
def storing (op : Byte) (n : Nat) : Move :=
  { move1 ((hbmDesc 1 0x10000).set 1 op) with started := true, writes := [(0x10000, List.replicate n 7)] }
/-- A segment of transfer 6 from module 1 with all its bytes before the last unit committed or here. -/
def segmentAt (done : Nat) : Segment :=
  { port := 0, vc := 0, src := 1, tag := 2, transfer := 6, base := hbmSize - 128, bytes := 128, got := done + 64, index := 1, done := done, refused := false,
    pendingBytes := List.replicate 64 7, complete := decide (done = 64) }
def sinking (done : Nat) : State :=
  let s := withEnts [(0x3300, 1, 4)] (running (about 0 []))
  { s with links := { s.links with
      segments := [segmentAt done], transfers := [(transferKey 1 6, some { total := 128, committed := done, land := some (0, 3), landed := 0, answered := 0 })] } }

theorem witness_LandingCommits :
    (∀ op ∈ [(1 : Byte), 4], ∀ x ∈ [(64, 64, 64), (100, 70, 64), (3, 9, 3)], let m := storing op x.1
     let s := running { about 0 [] with moves := [m] }
     s.now ≤ (9 : FTime) ∧ HbmSound s ∧ ownMove s 5 = some (0, m) ∧ mvOp m.desc = op.toNat ∧ isFar s (gDev (mvDst m.desc)) (gLocal (mvDst m.desc)) = false ∧
      m.writes = (0x10000, List.replicate x.1 7) :: [] ∧ List.replicate x.1 (7 : Byte) ≠ [] ∧ gLocal 0x10000 + x.1 ≤ hbmSize ∧ m.transfer = 5 ∧
      unitCut (gLocal 0x10000) (Nat.min x.2.1 x.1) (decide (x.1 ≤ x.2.1)) = x.2.2 ∧ s.transfer (transferKey s.device 5) = none) ∧
    (∀ done ∈ [0, 64], let s := sinking done
     let g := segmentAt done
     (1 : W16).toNat ≠ s.device ∧ HbmSound s ∧
      (s.links.segments.find? fun g => decide (g.src = 1) && decide (g.transfer = 6) && decide (g.pendingBytes ≠ [])) = some g ∧
      g.base + g.bytes ≤ hbmSize ∧ g.done + g.pendingBytes.length ≤ g.bytes ∧ unitCut (g.base + done) 64 (decide (done + 64 = g.bytes)) = 64 ∧
      (done = 0 → g.done + 64 < g.bytes) ∧ (done = 64 → g.done + 64 = g.bytes) ∧ routePort s s.device 1 = some 0 ∧ (s.port 0).vcs.length = 6) ∧
    NothingWaits (running { about 0 [] with moves := [storing 1 64] }) ∧ NothingWaits (sinking 64) ∧
    (∀ y core sem, (sinking 64).transfer (transferKey 1 6) = some y → y.land = some (core, sem) →
      (sinking 64).sem core sem + (landUnits y.total (y.committed + 64) - y.landed) < 2 ^ 32) := by
  refine ⟨?_, ?_, nothingWaits (by decide +kernel), nothingWaits (by decide +kernel), ?_⟩
  · simp only [HbmSound]; decide +kernel
  · simp only [HbmSound]; decide +kernel
  intro y core sem h1 h2
  have e : y = { total := 128, committed := 64, land := some (0, 3), landed := 0, answered := 0 } := by
    simpa [State.transfer, sget, sinking] using h1.symm
  subst e
  obtain ⟨rfl, rfl⟩ : core = 0 ∧ sem = 3 := by simpa [eq_comm] using h2
  decide +kernel
/-! ### Steps, pauses and aborts -/

def inRun (f : Run → Run) (s : State) : State := { s with run := f s.run }
def idleCore : CoreS := about 0 []
def inDev (d : Dev) (s : State) : State := { s with ctl := { s.ctl with dev := d, powered := true, filled := true } }

theorem witness_PauseAndCapoPoints :
    (let s := inRun (fun r => { r with drainSince := some 7 }) (running { idleCore with wait := .halt })
     s.running = true ∧ s.run.drainSince = some 7 ∧ s.run.drained = false ∧ drained s = true ∧ s.now ≤ (100007 : FTime) ∧
      (7 : FTime).toNat + 100000 ≤ (100007 : FTime).toNat) ∧
    (let s := inRun (fun r => { r with drainSince := some 7, drained := true }) (running idleCore)
     s.running = true ∧ s.run.drainSince = some 7 ∧ s.run.drained = true ∧ s.trust.hashing = false ∧
       ({ s with trust := { s.trust with hashing := true } } : State).trust.hashing = true) ∧
    (∀ kind ∈ [1, 3], let s := inRun (fun r => { r with start := 100, capos := [(8, kind, 2, 5)] }) (running idleCore)
     s.coll.staged = [] ∧ 108 < 2 ^ 64 ∧ s.now.toNat ≤ 108 ∧ nextCapo s = some (kind, 2, 5, 108) ∧ s.power.downAfterAbort = false) := by decide +kernel

/-- A step of one commit capo at 20,000 ns after a start at 100 ns, over a shard table of one replicated shard with its header at 0 (Table 8-4). -/
def stepState : State :=
  inRun (fun r => { r with start := 100, capos := [(20000, 2, 1, 5)], shards := [le 8 0 ++ le 8 0 ++ le 8 0 ++ le 2 2] })
    (withEnts [(0x5400, 4, 4096)] (running idleCore))

/-- A digest record (Table 8-7) of block 0 of shard 0 in replica group 0, with digest v. -/
def digestRecord (v : Nat) : List Byte := le 4 0 ++ le 2 0 ++ le 2 0 ++ le 8 v

theorem witness_WalkAndVerdict :
    comingCommit stepState = some 20100 ∧ stepState.run.walked = false ∧ stepState.ent 0x5400 4 ≠ 0 ∧ replicated stepState ≠ [] ∧
      (∀ x ∈ replicated stepState, blockCount (shardHead stepState x.2) ≤ 65536) ∧ stepState.run.verdict = none ∧
      stepState.now.toNat + 8192 ≤ 20100 ∧ stepState.run.start.toNat + 8192 ≤ 20100 ∧ stepState.run.aborts = [] ∧ completeVote stepState = some 0 ∧
      (let s := inRun (fun r => { r with diverged := true }) stepState
       ∃ w, completeVote s = some w ∧ Nat.testBit w 1 = true) ∧ stepState.run.early = [] ∧ (∀ x ∈ stepState.mem.cache, x.bad = []) ∧
      (let s := { stepState with mem := { stepState.mem with hbm := [(24, 1)] } }
       ∃ x, ((replicated s).find? fun e => decide (hdNumber (shardHead s e.2) = field (digestRecord 1) 0 4)) = some x ∧
        field (digestRecord 1) 4 2 < blockCount (shardHead s x.2) ∧
        (blockDigest s x.2 (field (digestRecord 1) 4 2) ≠ field (digestRecord 1) 8 8 ∨
          blockDigest s x.2 (field (digestRecord 0) 4 2) ≠ field (digestRecord 0) 8 8)) := by
  and_intros
  all_goals decide +kernel

/-- The walk meets an uncorrectable unit, the shard's header (Table 18-3), or none. -/
def poisoned (s : State) : State := { s with mem := { s.mem with hbmRaw := sset none [] 0 (some (poisonCode (List.replicate 64 0))) } }
theorem witness_WalkAndVerdict_read :
    (walkReads (reach stepState (20100 - stepState.ent 0x5400 4))).2 = false ∧
    (let s := poisoned (withEnts [(0x5400, 4, 16384)] stepState)
     let read := walkReads (reach s (20100 - s.ent 0x5400 4))
     comingCommit s = some 20100 ∧ s.run.walked = false ∧ s.ent 0x5400 4 ≠ 0 ∧ replicated s ≠ [] ∧ (∀ x ∈ replicated s, blockCount (shardHead s x.2) ≤ 65536) ∧ read.2 = true ∧
       s.running = true ∧ abandons s.run read.1.now.toNat = true) := by decide +kernel

def verdictState (w : W32) : State := inRun (fun r => { r with verdict := some w }) stepState
theorem witness_CommitCapo (w : W32) :
    (verdictState w).run.verdict = some w ∧ (verdictState w).run.deferred = none ∧ (verdictState w).coll.staged = [] ∧ (verdictState w).run.pauseAsked = false :=
  ⟨rfl, rfl, rfl, rfl⟩
theorem witness_CommitCapo_time (w : W32) :
    nextCapo (verdictState w) = some (2, 1, 5, 20100) ∧ (verdictState w).now.toNat ≤ 20100 ∧ 20100 < 2 ^ 64 := by
  have h : nextCapo (verdictState w) = nextCapo stepState := rfl
  rw [h]
  exact ⟨by decide +kernel, Nat.zero_le _, by decide⟩
/-- Clean steps at 2,000 (R234): the 1,999th raises the count, the 2,000th doubles the scale. -/
theorem witness_CommitCapo_scale :
    (let s := withEnts [(0x7210, 3, 1998)] stepState
     s.ent 0x7210 3 + 1 < s.ent 0x7210 2) ∧
    (let s := withEnts [(0x7210, 3, 1999)] stepState
     s.ent 0x7210 2 ≤ s.ent 0x7210 3 + 1) ∧ (withEnts [(0x7210, 1, 0)] stepState).ent 0x7210 1 = 0 := by decide +kernel

/-- An abort flit (Table 2-6) of module 1 for step 0, raised at `raise`. -/
def abortFlit (raise : Nat) : Flit :=
  { bareFlit 0xA (le 2 1 ++ le 2 1 ++ le 4 0x5404 ++ le 8 raise ++ le 4 0) with seq := 0 }
def abortState (s : State) : State := withEnts [(0x3300, 1, 4), (0x3300, 2, 4)] s

theorem witness_SystemAbort :
    Accepts (abortState stepState) 0 (abortFlit 9000) 0xA ∧ ((abortState stepState).port 0).discarding = false ∧ field (abortFlit 9000).payload 0 1 = 1 ∧
    ((abortState stepState).port 0).adapter = false ∧ (abortState stepState).running = true ∧ (abortState stepState).run.lastCommit = none ∧
    field (abortFlit 9000).payload 16 4 = (abortState stepState).ent 0x5010 1 % 2 ^ 32 ∧ (abortState stepState).run.aborts = [] :=
  have heard : Accepts (abortState stepState) 0 (abortFlit 9000) 0xA := by constructor <;> decide +kernel
  ⟨heard, by and_intros <;> rfl⟩
/-- The guard before the commit capo (R71): an abort raised at the guard's start no longer abandons the step. -/
theorem witness_SystemAbort_time :
    (abortState stepState).now ≤ (50 : FTime) ∧ field (abortFlit 9000).payload 8 8 = 9000 ∧ abandons stepState.run 9000 = true ∧ abandons stepState.run 20050 = false ∧
    9000 < (9001 : FTime).toNat ∧ ¬ 9000 < (9000 : FTime).toNat := by decide +kernel
theorem witness_SystemAbort_device : noDevice (BitVec.ofNat 16 (field (abortFlit 9000).payload 2 2)) = false := by decide +kernel
/-- The step before it committed at 20,100; the abort for it is heard within the guard of 6,000 ns. -/
def committedState : State := inRun (fun r => { r with start := 20100, lastCommit := some (20100, 0) }) (abortState stepState)
theorem witness_SystemAbort_late :
    committedState.now ≤ (20150 : FTime) ∧ Accepts committedState 0 (abortFlit 9000) 0xA ∧ (committedState.port 0).discarding = false ∧
      (committedState.port 0).adapter = false ∧ committedState.run.lastCommit = some (20100, 0) ∧ field (abortFlit 9000).payload 16 4 = (0 : W32).toNat ∧
      field (abortFlit 9000).payload 8 8 < (20100 : FTime).toNat ∧ (20150 : FTime).toNat < (20100 : FTime).toNat + commitGuard ∧ committedState.run.prevAborts = [] ∧
      committedState.running = true ∧ (commitCapo committedState.run).isSome = true := by
  refine ⟨by decide +kernel, by constructor <;> decide +kernel, ?_⟩
  decide +kernel
theorem witness_SystemAbort_end_waits : NothingWaits (inDev .aborting State.reset) := nothingWaits (by decide +kernel)
theorem witness_SystemAbort_end :
    (inDev .aborting State.reset).eff = .aborting ∧ (inDev .aborting State.reset).power.sheds = false ∧ (inDev .aborting State.reset).power.downAfterAbort = false ∧
    (inDev .aborting State.reset).audit.held = [] ∧ ∀ die, die < 4 → ((inDev .aborting State.reset).region die).length ≤ 1 := by decide +kernel

/-! ### Power, heat and start-up -/


theorem witness_SupplyAndHeat :
    (State.reset.ctl.dev = .off ∧ 46000 ≤ 46000 ∧ 58000 ≤ 58000 ∧ 64000 < 64001) ∧
    (let s := inDev .ready State.reset
     s.ctl.dev ≠ .off ∧ 44000 ≤ 45999 ∧ 45999 < 46000 ∧ s.now ≤ (5 : FTime) ∧ s.power.supplyHalt = none ∧ s.ctl.powered = true ∧ s.ent 0x2100 7 = 0 ∧
      43999 < 44000 ∧ (60000 < 60001 ∧ 64000 ≤ 64000)) ∧
    ({ State.reset with power := { State.reset.power with holdup := true } }).power.holdup = true ∧
    (100000 ≤ 100000 ∧ 100000 < 2 ^ 31 ∧ 110000 ≤ 110000 ∧ 110000 < 2 ^ 31) ∧
    ((List.replicate 7 (94999 : Int)).length = 7 ∧ ∀ x ∈ List.replicate 7 (94999 : Int), -273150 ≤ x ∧ x < 95000) ∧
    ((inDev .run State.reset).eff = .run ∧ (inDev .aborting State.reset).eff = .aborting ∧ (inDev .ready State.reset).eff ≠ .run ∧
      (inDev .ready State.reset).eff ≠ .aborting) := by decide +kernel

/-- A reversed supply (R549), and a halt or HALT_IN in RUN before the guard of the commit capo and within it. -/
theorem witness_SupplyAndHeat_run :
    ((-60000 : Int) ≤ -60000 ∧ (-60000 : Int) < 46000 ∧ (-60001 : Int) < -60000) ∧
    (let s := stepState
     s.ctl.dev ≠ .off ∧ s.now ≤ (9000 : FTime) ∧ s.now ≤ (20050 : FTime) ∧ s.power.supplyHalt = none ∧ s.ctl.powered = true ∧ s.running = true ∧ s.eff = .run ∧
       s.ent 0x2100 1 ≠ 1 ∧ abandons s.run (9000 : FTime).toNat = true ∧ abandons s.run (20050 : FTime).toNat = false) := by decide +kernel

/-- Row faults of one SRAM bank (Table 18-4): the first four find a spare row, the fifth none (R542). -/
def rowFault : List Byte := le 1 2 ++ le 1 0 ++ le 2 0 ++ le 4 9 ++ le 2 7 ++ le 1 1 ++ le 1 0
theorem witness_StartUp_repair :
    (repairAll (List.replicate 4 rowFault) (inDev .init State.reset)).2 = [] ∧ (repairAll (List.replicate 5 rowFault) (inDev .init State.reset)).2 ≠ [] := by
  decide +kernel

theorem witness_StartUp :
    (let s := withEnts [(0x3200, 1, 319), (0x3200, 2, 31)] { State.reset with ctl := { State.reset.ctl with dev := .standby } }
     s.ctl.dev = .standby ∧ s.ctl.galenaHeld = false ∧ s.ent 0x5003 2 = 1 ∧ assigned s = true ∧ powerBlocked s = false ∧ s.power.railHold = false) ∧
    (let s := inDev .init State.reset
     s.ctl.dev = .init ∧ s.ctl.railsOk = false) ∧
    (let s := { inDev .init State.reset with ctl := { (inDev .init State.reset).ctl with railsOk := true } }
     s.ctl.dev = .init ∧ s.ctl.railsOk = true ∧ s.ctl.trained = false) ∧
    (let s := { inDev .init State.reset with ctl := { (inDev .init State.reset).ctl with trained := true, filled := false } }
     s.ctl.dev = .init ∧ s.ctl.trained = true ∧ s.ctl.filled = false) ∧
    (let s := { inDev .init State.reset with ctl := { (inDev .init State.reset).ctl with filled := true } }
     s.ctl.dev = .init ∧ s.ctl.filled = true ∧ ([] : List Bool).length = s.mem.candidates.length ∧ s.mem.fuses.length + ([] : List (List Byte)).length ≤ 2048) ∧
    (let s := inDev .start State.reset
     s.ctl.dev = .start ∧ s.ctl.firmwareOk = false ∧ s.inService 47 = false ∧ 47 ∉ s.ctl.portsPast) ∧
    (let s := withEnts [(0x3000, 2, 3)] (inDev .start State.reset)
     let s := { s with ctl := { s.ctl with firmwareOk := true, portsPast := List.range 48 } }
     s.ctl.dev = .start ∧ s.ent 0x3000 2 = 3 ∧ s.ctl.firmwareOk = true ∧ ∀ q, q < 48 → s.portSt q = 4 ∨ q ∈ s.ctl.portsPast) := by decide +kernel

/-- The last step of a taper, with an arming ramp that begins at start - 700; and that of a POWER_DOWN's, with a last draw of w. -/
def taperRamp (start : FTime) : State :=
  let s := inDev .armed State.reset
  { s with power := { s.power with ramp := some (start, 700, 0, 0), taperLeft := 1, taper := (0, 700, 1) }, run := { s.run with checked := true } }
def lastTaper (w : Nat) : State := { State.reset with power := { State.reset.power with taperLeft := 1, sheds := true, taper := (0, 700, 1), lastW := w } }
theorem witness_GovernorAndInputs_ramp :
    (let s := inDev .armed State.reset
     let s := { s with power := { s.power with ramp := some (900, 700, 0, 0) }, run := { s.run with checked := true } }
     s.power.ramp = some (900, 700, 0, 0) ∧ s.eff = .armed ∧ s.run.checked = true ∧ s.ent 0x2200 5 ≤ 256 ∧ s.power.taperLeft = 0) ∧
    (let s := taperRamp 702
     s.power.taperLeft = 0 + 1 ∧ s.power.taper = (0, 700, 1) ∧ rampOwns s ((0 : FTime).toNat + ceilDiv ((1 - 0) * 700) 256) = true) ∧
    (let s := taperRamp 900
     s.power.taperLeft = 0 + 1 ∧ rampOwns s ((0 : FTime).toNat + ceilDiv ((1 - 0) * 700) 256) = false ∧ s.power.sheds = false) ∧
    (let s := lastTaper 0
     s.power.taperLeft = 0 + 1 ∧ s.power.taper = (0, 700, 1) ∧ rampOwns s 3 = false ∧ s.power.sheds = true ∧ s.power.lastW < 25 + s.ent 0x2200 1) ∧
    (let s := lastTaper 1000
     s.power.taperLeft = 0 + 1 ∧ rampOwns s 3 = false ∧ 25 + s.ent 0x2200 1 ≤ s.power.lastW) := by decide +kernel
theorem witness_GovernorAndInputs_tick :
    (let s := { inDev .init State.reset with now := 5 }
     64000 ≤ 64000 ∧ s.now ≤ (5 : FTime) ∧ drawOk s 42000 = false) ∧
    (let s := inDev .init State.reset
     let s := { s with ctl := { s.ctl with trained := true, filled := false } }
     s.now ≤ (60000001 : FTime) ∧ s.ctl.dev ≠ .off ∧ drawOk { s with now := 60000001 } 0 = true ∧ fillOverdue { s with now := 60000001 } = true) ∧
    (let s := inDev .ready State.reset
     let s := { s with power := { s.power with sheds := true, taperLeft := 0 } }
     s.now ≤ (5 : FTime) ∧ s.ctl.dev ≠ .off ∧ drawOk { s with now := 5 } 0 = true ∧ fillOverdue { s with now := 5 } = false ∧ s.power.sheds = true ∧
       s.power.taperLeft = 0 ∧ 0 < 25 + s.ent 0x2200 1) ∧
    (let s := inDev .run State.reset
     let s := { s with power := { s.power with lastW := 2000, mvs := [52000] } }
     s.now ≤ (5 : FTime) ∧ s.ctl.dev ≠ .off ∧ drawOk { s with now := 5 } 100 = true ∧ fillOverdue { s with now := 5 } = false ∧ s.power.sheds = false ∧
       (∀ v ∈ s.power.mvs, v ≤ 64000) ∧ s.running = true ∧ 100 + s.ent 0x2200 1 < s.power.lastW ∧ s.power.stretched = false) := by
  decide +kernel

theorem witness_GovernorAndInputs :
    (let s := inDev .armed State.reset
     let s := { s with power := { s.power with ramp := some (900, 700, 0, 255) }, run := { s.run with checked := true } }
     s.power.ramp = some (900, 700, 0, 255) ∧ s.eff = .armed ∧ s.run.checked = true ∧ 255 < 256 ∧ 0 ≤ 256 ∧ 700 ≤ (900 : FTime).toNat ∧ s.ent 0x2200 5 ≤ 256 ∧
       s.power.taperLeft ≤ 256) ∧
    State.reset.ctl.dev = .off ∧
    (let s := { State.reset with power := { State.reset.power with taperLeft := 1, sheds := true } }
     s.power.taperLeft = 0 + 1 ∧ s.power.sheds = true ∧ governs s = true ∧ drawOk s (s.power.lastW + s.ent 0x2200 1) = true ∧
       drawOk s (s.power.lastW + s.ent 0x2200 1 + 1) = false) ∧
    (let s := { State.reset with power := { State.reset.power with taperLeft := 256 } }
     s.power.taperLeft = 255 + 1 ∧ s.power.sheds = false ∧ 700 + ceilDiv ((256 - 255) * 75000) 256 < 2 ^ 64) ∧
    (let s := inDev .ready State.reset
     s.now ≤ (1 : FTime) ∧ s.ctl.dev ≠ .off ∧ 64000 ≤ 64000 ∧ 5000 < 2 ^ 32 ∧ drawOk s 4200 = true ∧ drawOk s 4201 = true ∧ 4200 < 4201 ∧ 3600 < 3601 ∧ 4200 ≤ 4200 ∧ 3600 ≤ 3600 ∧ 64000 < 64001) ∧
    (let s := { State.reset with now := 10000005, power := { State.reset.power with below := some 5 } }
     s.power.below = some 5 ∧ (5 : FTime).toNat + 10000000 ≤ s.now.toNat) ∧
    (let s := { State.reset with power := { State.reset.power with returnLeft := 1, returnAt := 9 } }
     s.now ≤ (9 : FTime) ∧ s.power.returnLeft ≠ 0 ∧ s.power.returnAt ≤ (9 : FTime)) ∧
    (let s := withEnts [(0x2100, 6, 0)] (inDev .ready State.reset)
     s.ctl.dev ≠ .off ∧ s.ent 0x2100 4 ≠ 1 ∧ s.ent 0x2100 6 ≠ 1 ∧ s.ent 0x2100 1 ≠ 1 ∧ s.ent 0x2100 3 ≠ 1 ∧ s.ctl.powered = true ∧ s.eff ≠ .run ∧ s.eff ≠ .aborting) ∧
    (let s := withEnts [(0x2100, 1, 1), (0x2100, 3, 1), (0x2100, 4, 1), (0x2100, 6, 1)] (inDev .armed State.reset)
     s.ent 0x2100 4 = 1 ∧ s.ent 0x2100 1 = 1 ∧ s.ent 0x2100 3 = 1 ∧ s.ent 0x2100 6 = 1 ∧ s.eff = .armed ∧ eventDue s.power.haltEventAt 9 = true ∧
      eventDue s.power.throttleEventAt 9 = true) := by decide +kernel

/-! ### Shape values -/

/-- The module, at device address 0, with mesh ports 0 and 1 and port 47 in service: port 0 leads to position 1 (Table 13-8). -/
def linked (s : State) : State := withEnts [(0x3300, 1, 4), (0x3300, 2, 4), (0x3300, 48, 4)] s
/-- Core 0 about to issue SHAPE slot 1, `s1` <- [`s2`]. -/
def shapeWord : W64 := iw 0x20 0 (fd 1 + fa 2 + 1 * 2 ^ 32)
/-- Address 64 of the core-local memory of core 0 in the module's window (Table 6-1). -/
def shapeAddr (dev : Nat) : Nat := dev * 2 ^ 48 + 0xF00000000000 + 64

theorem witness_ShapeValues :
    (let g := shapeAddr State.reset.device
     let s := linked (running (about shapeWord [0, 0, BitVec.ofNat 64 g]))
     Issuing s 0 shapeWord ∧ (g : Int) = (((s.core 0).reg 2).toNat : Int) + (0 : W32).toInt ∧ g < 2 ^ 64 ∧ g % 4 = 0 ∧ shapeEntry g = none ∧
       resolve s (gDev g) (gLocal g) 4 false = .own 0xF00000000040 ∧ held (s.core 0) 9 (execShape.mvShapeUnits 0 0xF00000000040) [] = false) ∧
    (let g := shapeAddr 1
     let s := linked (running (about shapeWord [0, 0, BitVec.ofNat 64 g]))
     Issuing s 0 shapeWord ∧ (g : Int) = (((s.core 0).reg 2).toNat : Int) + (0 : W32).toInt ∧ g < 2 ^ 64 ∧ g % 4 = 0 ∧
       resolve s (gDev g) (gLocal g) 4 false = .far 1 0xF00000000040 ∧ 1 < 0xFFFF ∧ freeTag s = some 0 ∧ routePort s s.device 1 = some 0) ∧
    (let s := withEnts [(0x5110, 2, 7)] (running { about 0 [] with wait := .shape 1 64 1 (some 7) })
     s.running = true ∧ (s.core 0).wait = .shape 1 64 1 (some 7) ∧ (7 : W32).toNat ≤ s.ent 0x5110 2 ∧ s.ent 0x5110 2 < (8 : W32).toNat) ∧
    (let g := shapeAddr State.reset.device
     let s := withEnts [(0x5110, 2, 7)] (running { about 0 [] with wait := .shape 1 g 1 none })
     s.running = true ∧ (s.core 0).wait = .shape 1 g 1 none ∧ resolve s (gDev g) (gLocal g) ((shapeEntry g).getD 4) false = .own 0xF00000000040 ∧
       s.audit.held = [] ∧ (ownRead s 0xF00000000040 4 true).2.2 = false ∧ (BitVec.ofNat 32 (ofLe (ownRead s 0xF00000000040 4 true).1)).toNat ≤ s.ent 0x5110 2) := by
  and_intros <;> first | decide +kernel | exact ⟨by decide +kernel, by decide +kernel, by decide, by decide, by decide, by decide, by decide +kernel⟩

/-! ### Fabric time -/

/-- A time message (Table 2-1) that a LOCKED root of address 1 sends: version 1, echo of message 5 received at `echo`. -/
def timeFlit (flags hops : Nat) : Flit :=
  { bareFlit 9 (le 1 1 ++ le 1 flags ++ le 2 1 ++ le 2 1 ++ le 1 0 ++ le 1 hops ++ le 2 9 ++ le 2 5 ++ le 2 0 ++ le 2 0 ++ le 8 1200 ++ le 8 1100 ++ le 4 0) with
    creditVc := 5 }
def exchanged : State := (linked (inDev .ready State.reset)).setTimePort 0 { TimePort.reset with sentAt := [(5, stamp 1000 0)] }

theorem witness_TimeExchangeAndRoot :
    (let s := exchanged
     let f := timeFlit 3 14
     s.now ≤ (1300 : FTime) ∧ s.inService 0 = true ∧ f.kind = 9 ∧ f.creditVc.toNat < 6 ∧ (timeOf f.payload).version = 1 ∧ (timeOf f.payload).flags.toNat < 32 ∧
       noDevice (timeOf f.payload).sender = false ∧ noDevice (timeOf f.payload).root = false ∧ (s.port 0).adapter = false ∧ (timeOf f.payload).flags.getLsbD 0 = true ∧
       ((s.timePort 0).sentAt.find? fun e => decide (e.1 = (timeOf f.payload).echoSeq)) = some ((timeOf f.payload).echoSeq, stamp 1000 0)) ∧
    (let s := { withEnts [(0x3000, 2, 1)] (inDev .start State.reset) with now := 100000000 }
     let s := { s with time := { s.time with prio := 1 } }
     s.ctl.dev = .start ∧ s.lock = 1 ∧ bestPort s = none ∧ s.time.prio ≠ 0xFF ∧
       (∀ p, p < 48 → s.inService p = false) ∧ s.time.listenAt.toNat + 100000000 ≤ s.now.toNat) ∧
    (let s := (withEnts [(0x3000, 2, 4), (0x3000, 5, 1)] exchanged).setTimePort 0 { TimePort.reset with advert := some (1, 0, 14, 0) }
     s.lock = 4 ∧ s.time.isRoot = false ∧ bestPort s = none ∧ s.time.prio ≠ 0xFF ∧
       (∀ p, p < 48 → s.inService p = true → (s.timePort p).advert.all (fun a => decide (ownKey s < portRootKey s p ∨ a.1.toNat = s.ent 0x3000 5)) = true)) ∧
    (let s := (withEnts [(0x3000, 2, 3), (0x3000, 4, 1)] exchanged).setTimePort 0 { TimePort.reset with advert := some (1, 0, 14, 2) }
     s.time.isRoot = false ∧ s.lock ≠ 1 ∧ s.ent 0x3000 4 ≠ 0xFF ∧ delivers s (s.ent 0x3000 4) = false ∧ bestPort s = some 0) ∧
    (let s := (withEnts [(0x3000, 2, 3), (0x3000, 4, 1)] exchanged).setTimePort 0 { TimePort.reset with advert := some (1, 0, 15, 2) }
     s.time.isRoot = false ∧ s.lock ≠ 1 ∧ s.ent 0x3000 4 ≠ 0xFF ∧ delivers s (s.ent 0x3000 4) = false ∧ bestPort s = none) ∧
    (let s := withEnts [(0x3000, 2, 4)] State.reset
     let s := { s with time := { s.time with slewing := false } }
     s.now ≤ (1600000001 : FTime) ∧ s.lock = 4 ∧ s.time.slewing = false ∧
       32000 * 1000000000 < s.ent 0x3000 3 * 1000000000 + 20000 * ((1600000001 : FTime).toNat - s.time.holdAt.toNat)) := by decide +kernel

/-- The root with PPS_IN in use, 3 ns of cable and its last pulse at `last`. -/
def pulsed (d : Dev) (last : Option FTime) : State :=
  let s := withEnts [(0x3000, 2, 3)] (inDev d State.reset)
  { s with time := { s.time with isRoot := true, ppsUse := 1, ppsLast := last, cable := 3000 } }
/-- The offset of a pulse at t from the nearest whole second, in picoseconds (R52). -/
def pulseOff (t : Nat) : Int := ((t * 1000 - 3000 : Nat) : Int) - ((nearestSecond (t * 1000 - 3000) * 1000 : Nat) : Int)

theorem witness_PulsePerSecond :
    (let s := pulsed .start none
     s.now ≤ (9000000400 : FTime) ∧ 50 ≤ 50 ∧ s.time.isRoot = true ∧ s.time.ppsUse = 1 ∧ s.ctl.dev = .start ∧ s.time.ppsLast = none ∧
       (pulsed .start (some 8000000000)).time.ppsLast ≠ none) ∧
    (let s := pulsed .ready (some 8000000000)
     s.time.ppsLast = some 8000000000 ∧ (8000000000 : FTime).toNat + 500000000 ≤ (9000001000 : FTime).toNat ∧ s.ctl.dev ≠ .start ∧ s.time.cable.toNat = 3000 ∧
       (pulseOff 9000001003).natAbs ≤ 1000000 ∧ 1000000 < (pulseOff 9000001004).natAbs ∧
       ¬ (8000000000 : FTime).toNat + 500000000 ≤ (8499999999 : FTime).toNat ∧ s.time.ppsLostRaised = false ∧
       (s.time.ppsLast.getD s.ctl.startAt).toNat + 2000000000 ≤ (10000000000 : FTime).toNat ∧ s.ctl.powered = true ∧ s.lock ≠ 1 ∧
       s.now.toNat + 2000000000 < 2 ^ 64) ∧
    (inDev .ready State.reset).time.isRoot = false := by decide +kernel

/-! ### Links -/

/-- A TRAIN payload (Table 13-7) of a WORKER at address 1 on its port 30, as the peer of port 0. -/
def trainFlit (phase chosen lowest device : Nat) : Flit :=
  bareFlit 0xB (le 1 1 ++ le 1 phase ++ le 1 lowest ++ le 1 1 ++ le 1 chosen ++ le 1 0 ++ le 1 1 ++ le 1 30 ++ le 2 device ++ le 2 0 ++ le 4 7 ++ le 8 99 ++
    (List.range 6).flatMap (fun _ => le 2 16) ++ le 2 1024)
def trainingAt (st : Nat) (x : PortS) : State := (withEnts [(0x3300, 1, st)] (inDev .start State.reset)).setPort 0 x

/-- The bytes of an empty payload (Table 13-2), in parts. -/
def zeros60 : List Byte := List.replicate 60 0
def zeros240 : List Byte := zeros60 ++ (zeros60 ++ (zeros60 ++ zeros60))
/-- A window of a 12-byte header, an empty payload and the check v. -/
def windowOf (h : List Byte) (v : Nat) : List Byte := (h ++ zeros240) ++ le 4 v
/-- An IDLE flit's header, and one with the reserved Credit VC 6. -/
def idleHead : List Byte := List.replicate 12 0
def reservedHead : List Byte := [0, 0, 0, 0x80, 1, 0, 0, 0, 0, 0, 0, 0]

theorem crc_zeros240 {h : List Byte} {c0 c1 c2 c3 c4 : W32} (h0 : h.foldl crcByte 0xFFFFFFFF#32 = c0) (h1 : zeros60.foldl crcByte c0 = c1)
    (h2 : zeros60.foldl crcByte c1 = c2) (h3 : zeros60.foldl crcByte c2 = c3) (h4 : zeros60.foldl crcByte c3 = c4) : crc32 (h ++ zeros240) = ~~~c4 := by
  simp only [crc32, zeros240, List.foldl_append, h0, h1, h2, h3, h4]
theorem crc_idle : crc32 (idleHead ++ zeros240) = 0xA66359F1#32 :=
  crc_zeros240 (c0 := 0x842A3990#32) (c1 := 0xF03D44AD#32) (c2 := 0x3A767AE1#32) (c3 := 0x7400F70D#32) (c4 := 0x599CA60E#32)
    (by decide +kernel) (by decide +kernel) (by decide +kernel) (by decide +kernel) (by decide +kernel)
theorem crc_reserved : crc32 (reservedHead ++ zeros240) = 0xD629C198#32 :=
  crc_zeros240 (c0 := 0x2ED53941#32) (c1 := 0xA79E109E#32) (c2 := 0xFDCEF66B#32) (c3 := 0xD3DBA9D0#32) (c4 := 0x29D63E67#32)
    (by decide +kernel) (by decide +kernel) (by decide +kernel) (by decide +kernel) (by decide +kernel)

def window : List Byte := windowOf idleHead 0xA66359F1
def badWindow : List Byte := windowOf idleHead 0xA66359F0
def reservedWindow : List Byte := windowOf reservedHead 0xD629C198

theorem good_window {h : List Byte} {v : Nat} {c : W32} (hc : crc32 (h ++ zeros240) = c) (hl : (h ++ zeros240).length = 252)
    (hk : bits (field (windowOf h v) 0 1) 3 0 < 0xE) : goodWindow (windowOf h v) = decide (field (windowOf h v) 252 4 = c.toNat) := by
  have ht : (windowOf h v).take 252 = h ++ zeros240 := by rw [windowOf, List.take_append_of_le_length (by omega), List.take_of_length_le (by omega)]
  have hn : (windowOf h v).length = 256 := by rw [windowOf, List.length_append, hl]; rfl
  simp only [goodWindow, ht, hc, hn, hk, decide_true, Bool.true_and, Bool.and_true]
theorem windows :
    goodWindow window = true ∧ goodWindow badWindow = false ∧ goodWindow reservedWindow = true ∧
      badHeader (flitOf window) = false ∧ badHeader (flitOf reservedWindow) = true := by
  refine ⟨(good_window crc_idle (by decide +kernel) (by decide +kernel)).trans (by decide +kernel), (good_window crc_idle (by decide +kernel) (by decide +kernel)).trans (by decide +kernel),
    (good_window crc_reserved (by decide +kernel) (by decide +kernel)).trans (by decide +kernel), by decide +kernel, by decide +kernel⟩

theorem witness_LinkTraining :
    (portsAlive (trainingAt 1 PortS.reset) = true ∧ (trainingAt 1 PortS.reset).portSt 0 = 1 ∧ (trainingAt 2 PortS.reset).portSt 0 = 2 ∧
      portsAlive (trainingAt 2 PortS.reset) = true) ∧
    (portsAlive (trainingAt 3 PortS.reset) = true ∧ trains (trainingAt 3 PortS.reset) 0 = true ∧
      trains (trainingAt 5 { PortS.reset with retraining := true }) 0 = true ∧ trains (trainingAt 5 PortS.reset) 0 = false ∧
      (trainingAt 5 PortS.reset).portSt 0 = 5 ∧ ((trainingAt 5 PortS.reset).port 0).retraining = false ∧
      ((trainingAt 3 PortS.reset).port 0).holdRaised = false) ∧
    (let m := trainOf (trainFlit 1 0 1 1).payload
     (trainFlit 1 0 1 1).kind = 0xB ∧ badHeader (trainFlit 1 0 1 1) = false ∧ m.version = 1 ∧ m.role.toNat ∈ [1, 2, 3, 0x10] ∧ m.phase = 1 ∧
       holdCode (trainingAt 3 PortS.reset) 0 m = none ∧
       holdCode (trainingAt 3 PortS.reset) 0 (trainOf (trainFlit 1 0 2 1).payload) = some 0x3102 ∧
       holdCode (trainingAt 3 PortS.reset) 0 (trainOf (trainFlit 1 0 1 2).payload) = some 0x3103 ∧
       holdCode (trainingAt 3 PortS.reset) 0 (trainOf (trainFlit 1 0 1 0).payload) = some 0x3104) ∧
    (let a := trainOf (trainFlit 1 0 1 1).payload
     let m := trainOf (trainFlit 2 1 1 1).payload
     let s := trainingAt 3 { PortS.reset with advert := some a, chosen := some 1, confirmSent := true }
     m.phase = 2 ∧ 0 ∉ s.ctl.portsPast ∧ (s.port 0).advert = some a ∧ (s.port 0).chosen = some 1 ∧ (s.port 0).confirmSent = true ∧ m.chosen = 1 ∧
       portsAlive s = true ∧ trains s 0 = true ∧ badHeader (trainFlit 2 1 1 1) = false ∧ m.version = 1 ∧ m.role.toNat ∈ [1, 2, 3, 0x10] ∧
       holdCode s 0 m = none ∧ wiringOk s 0 a = true ∧ holdCode s 0 (trainOf (trainFlit 2 1 1 0).payload) = some 0x3104) ∧
    ((PortS.reset.grants = [] ∧ { PortS.reset with grants := [16, 17, 18, 19, 20, 21] }.grants.length = 6) ∧
      trains (trainingAt 3 { PortS.reset with grants := [16, 17, 18, 19, 20, 21] }) 0 = true) ∧
    (let s := trainingAt 3 PortS.reset
     let s := { s with ctl := { s.ctl with portsPast := [0] } }
     portsAlive s = true ∧ trains s 0 = true ∧ 0 ∈ s.ctl.portsPast) := by decide +kernel

/-- Port 0 in service with three unanswered flits 5, 6 and 7 in its replay buffer, the first resent n times, and 9 expected. -/
def replaying (n : Nat) : State :=
  let f (k : BitVec 11) : Flit := { bareFlit 1 [] with seq := k }
  (linked (inDev .ready State.reset)).setPort 0 { PortS.reset with
    replay := [(f 5, n), (f 6, 0), (f 7, 0)], credits := [1, 1, 1, 1, 1, 1], rxSeq := 9, txSeq := 8, discarding := true }

theorem witness_LeavingService :
    ((replaying 7).now ≤ (3 : FTime) ∧ (replaying 7).inService 0 = true ∧ (replaying 7).ctl.powered = true ∧ 5 ∉ (replaying 7).links.lasers) ∧
    ((trainingAt 2 PortS.reset).now ≤ (3 : FTime) ∧ (trainingAt 2 PortS.reset).inService 0 = false ∧ (trainingAt 2 PortS.reset).portSt 0 = 2 ∧
      (trainingAt 3 PortS.reset).inService 0 = false ∧ (trainingAt 3 PortS.reset).portSt 0 = 3) ∧
    (let s := { replaying 7 with links := { (replaying 7).links with lasers := [5] } }
     s.ctl.powered = true ∧ 5 ∈ s.links.lasers) := by decide +kernel

theorem witness_ReplayAndCredits :
    ((replaying 7).now ≤ (3 : FTime) ∧ (replaying 7).inService 0 = true ∧ ((replaying 7).port 0).discarding = true) ∧
    (((replaying 7).port 0).failures + 1 < 8 ∧
      (let s := (replaying 7).modPort 0 fun x => { x with failures := 7 }
       s.inService 0 = true ∧ 8 ≤ (s.port 0).failures + 1)) ∧
    (∀ n ∈ [7, 8], let s := replaying n
     let f : Flit := { bareFlit 0xC [] with seq := 5, ack := 5 }
     let y := takeCredits (takeAck { s.port 0 with failures := 0 } f.ack.toNat) f.creditVc.toNat f.credits.toNat
     Accepts s 0 f 0xC ∧ (y.replay.findIdx? fun e => decide (e.1.seq = f.seq)) = some 0 ∧ (y.replay.map Prod.snd).head? = some n) ∧
    (Accepts (replaying 7) 0 { bareFlit 0 [] with ack := 6, creditVc := 5, credits := 15 } 0 ∧ (5 : BitVec 3).toNat < ((replaying 7).port 0).credits.length) := by
  simp only [Accepts]
  decide +kernel

/-- The example header of chapter 13: a HEAD of VC 0, sequence 5, acknowledging 17, with 4 credits for VC 3, from an unassigned module to 0x1B29. -/
def exampleFlit : Flit :=
  { bareFlit 2 (List.replicate 240 0) with seq := 5, ack := 17, creditVc := 3, credits := 4, dst := 0x1B29, src := 0xFFFF, tag := 5 }
theorem test_flit_header : le 12 (headerOfFlit exampleFlit) = [0x02, 0x05, 0x88, 0xC0, 0x28, 0x65, 0xE3, 0xFF, 0xBF, 0, 0, 0] := by decide +kernel
/-- The check of "123456789" by the polynomial, start value and final exclusive or of R380. -/
theorem test_crc : crc32 [0x31, 0x32, 0x33, 0x34, 0x35, 0x36, 0x37, 0x38, 0x39] = 0xCBF43926 := by decide +kernel

theorem witness_FlitLayout :
    (exampleFlit.payload.length = 240 ∧ exampleFlit.kind ≠ 1 ∧ exampleFlit.index.toNat < 2 ^ 15 ∧ exampleFlit.stream = 0 ∧ exampleFlit.rep = 0 ∧
      exampleFlit.kind.toNat < 0xE) ∧
    (let f := { bareFlit 1 (List.replicate 240 0) with stream := 0x3FFF, rep := 1, index := 0x3FFFF }
     f.payload.length = 240 ∧ f.dst = 0 ∧ f.src = 0 ∧ f.tag = 0) := by decide +kernel

theorem witness_FlitSlots :
    (∀ f ∈ [timeFlit 0 0, bareFlit 0xA []], let s := linked (inDev .ready State.reset)
     let s := s.setPort 0 { PortS.reset with urgent := [f], replay := List.replicate 1023 (bareFlit 1 [], 0) }
     s.now ≤ (3 : FTime) ∧ s.inService 0 = true ∧ (s.port 0).replay.length < 1024 ∧ (s.port 0).urgent = f :: []) ∧
    (let s := (linked (inDev .ready State.reset)).setPort 0 { PortS.reset with retryDue := true }
     s.inService 0 = true ∧ (s.port 0).urgent = [] ∧ (s.port 0).retryDue = true) ∧
    (let s := linked (inDev .ready State.reset)
     s.inService 0 = true ∧ (s.port 0).urgent = [] ∧ (s.port 0).retryDue = false ∧ (s.port 0).resend = none ∧ s.running = false ∧ (s.port 0).control = [] ∧
       (∀ v, v < 6 → (s.port 0).vcs.getD v [] = [])) ∧
    (let s := (linked (inDev .ready State.reset)).setPort 0 { PortS.reset with
      vcs := PortS.reset.vcs.set 3 [(bareFlit 5 [], none)], credits := PortS.reset.credits.set 3 1 }
     s.inService 0 = true ∧ (s.port 0).urgent = [] ∧ (s.port 0).control = [] ∧ (s.port 0).resend = none ∧ pickVc (s.port 0) = some 3 ∧
       (s.port 0).vcs.getD 3 [] = [(bareFlit 5 [], none)]) ∧
    (∀ ph ∈ [1, 2], let x := { PortS.reset with control := [trainFlit ph 1 1 1], advert := some (trainOf (trainFlit 1 0 1 1).payload), chosen := some 1, confirmed := some 1 }
     let s := trainingAt 3 x
     s.inService 0 = false ∧ portsAlive s = true ∧ trains s 0 = true ∧ (s.port 0).control = trainFlit ph 1 1 1 :: [] ∧
       confirms (trainFlit ph 1 1 1) = decide (ph = 2) ∧ (s.port 0).chosen ≠ none ∧ (s.port 0).confirmed = (s.port 0).chosen ∧ 0 ∉ s.ctl.portsPast ∧
       (∃ a, (s.port 0).advert = some a ∧ wiringOk s 0 a = true) ∧ ((trainingAt 3 PortS.reset).port 0).control = []) := by decide +kernel
/-- Port 0 about to replay flit 5, with the first word of its stored copy clean or uncorrectable (Table 18-3). -/
def resending (bad : Bool) : State :=
  let s := (replaying 0).modPort 0 fun x => { x with resend := some 0 }
  if bad then { s with mem := { s.mem with sramRaw := sset none [] (sramKey 7 (linkDie 0) (replayWord 0 5)) (some { data := le 8 3, check := [0] }) } } else s
theorem witness_FlitSlots_replay :
    ∀ bad : Bool, (resending bad).now ≤ (3 : FTime) ∧ (resending bad).inService 0 = true ∧ ((resending bad).port 0).replay.length < 1024 ∧
      (replayCheck { resending bad with now := 3 } 0).2 = bad := by decide +kernel

/-- A MAP flit (R9, R395) of role r, each of whose global ports is in state st. -/
def mapOf (r st : Nat) : Flit := bareFlit 0xD (le 1 1 ++ le 1 r ++ le 2 1 ++ (List.range 17).flatMap fun k => le 1 (31 + k) ++ le 1 st ++ le 2 2)
theorem witness_CourseMaps :
    (linked (inDev .ready State.reset)).inService 0 = true ∧ (linked (inDev .ready State.reset)).inService 2 = false ∧
    (let s := linked (inDev .ready State.reset)
     Accepts s 0 (mapOf 3 4) 0xD ∧ (s.port 0).adapter = false ∧ (0 : Port).val ≤ 30 ∧ field (mapOf 3 4).payload 0 1 = 1) ∧
    (let s := linked (inDev .ready State.reset)
     s.inService 0 = true ∧ (mapOf 3 4).kind = 0xD ∧ field (mapOf 4 4).payload 1 1 ∉ [1, 2, 3] ∧ field (mapOf 3 7).payload 69 1 ∉ [1, 2, 3, 4, 5, 6]) := by
  simp only [Accepts]
  decide +kernel

/-! ### Requests of other modules -/

/-- A module in RUN with window 0 lending the first megabyte for writing, device 1 on port 0. -/
def lending : State := linked (withEnts [(0x4500, 1, 0), (0x4500, 2, 1048576), (0x4500, 3, 2)] (running idleCore))
/-- A HEAD (Table 13-9) from device 1 of a segment of n bytes to address a. -/
def headFlit (n a : Nat) (last : Bool) : Flit :=
  { bareFlit 2 (le 1 1 ++ le 3 0 ++ le 4 n ++ le 6 a ++ le 2 0 ++ le 2 3 ++ le 2 0 ++ le 4 (n - 1) ++ le 8 0) with src := 1, tag := 7, last := last }

theorem witness_RequestsServed_head :
    (∀ n ∈ [1, 208, 209, 240], Accepts lending 0 (headFlit n 0 (decide (n ≤ 208))) 2 ∧ opensTooMany lending (headFlit n 0 (decide (n ≤ 208))) = false ∧
      headOk (headFlit n 0 (decide (n ≤ 208))).payload = true ∧ (headFlit n 0 true).dst.toNat = lending.device ∧
      (accessStatus { lending with now := 5 } 1 0 n true).2 = 0 ∧ field (headFlit n 0 true).payload 8 6 = 0 ∧ field (headFlit n 0 true).payload 4 4 = n) ∧
    ((accessStatus { lending with now := 5 } 1 1048576 64 true).2 = 2 ∧ headOk (headFlit 64 1048576 true).payload = true ∧
      field (headFlit 64 1048576 true).payload 8 6 = 1048576 ∧ routePort lending lending.device 1 = some 0 ∧ (lending.port 0).vcs.length = 6) := by
  simp only [Accepts]
  decide +kernel

/-- All 16,384 transfers of other modules are open (R399). -/
def crowded : State :=
  { lending with links := { lending.links with transfers := List.replicate 16384 (0, some { total := 1, committed := 0, land := none, landed := 0, answered := 0 }) } }
theorem witness_RequestsServed_crowded : Accepts crowded 0 (headFlit 1 0 true) 2 ∧ opensTooMany crowded (headFlit 1 0 true) = true ∧ NothingWaits crowded ∧
    (headFlit 1 0 true).dst.toNat = crowded.device := by
  have hm : isMine crowded (headFlit 1 0 true) = true := by decide +kernel
  have hn : crowded.transfer (transferKey (headFlit 1 0 true).src.toNat (field (headFlit 1 0 true).payload 16 2)) = none := by
    refine sget_none none _ _ fun c h => ?_
    rw [(List.mem_replicate.mp h).2]
    decide +kernel
  have hl : openTransfers crowded = 16384 := List.length_replicate
  refine ⟨by simp only [Accepts]; decide +kernel, ?_, nothingWaits (by decide +kernel), by decide +kernel⟩
  simp only [opensTooMany, hm, hn, hl]
  rfl

def gathering (got : Nat) : State :=
  { lending with links := { lending.links with segments := [
    { port := 0, vc := 0, src := 1, tag := 7, transfer := 3, base := 0, bytes := 449, got := got, index := 1, done := 0, refused := false,
      pendingBytes := [], complete := false }] } }
def dataFlit (last : Bool) : Flit := { bareFlit 3 [] with src := 1, tag := 7, index := 1, last := last }
/-- A DATA flit in the middle of a segment, and one that ends it. -/
theorem witness_RequestsServed_data :
    ∀ x ∈ [(208, false), (209, true)], let s := gathering x.1
      Accepts s 0 (dataFlit x.2) 3 ∧
      ((s.links.segments.find? (isSegment 0 (dataFlit x.2))).map fun g => (g.refused, g.got, g.bytes, g.index)) = some (false, x.1, 449, 1) ∧
      x.2 = decide (x.1 + Nat.min 240 (449 - x.1) = 449) := by
  simp only [Accepts]
  decide +kernel

def readFlit (a n : Nat) : Flit := { bareFlit 4 (le 8 a ++ le 4 n) with src := 1, tag := 7, last := true }
def postFlit (c k : Nat) : Flit := { bareFlit 7 (le 2 c ++ le 1 k) with src := 1, tag := 7, last := true }
theorem witness_RequestsServed_read :
    (∀ n ∈ [1, 4096], Accepts lending 0 (readFlit 0 n) 4 ∧ 1 ≤ field (readFlit 0 n).payload 8 4 ∧ field (readFlit 0 n).payload 8 4 ≤ 4096 ∧
      field (readFlit 0 n).payload 0 6 = 0 ∧ (accessStatus { lending with now := 5 } 1 0 n false).2 = 0 ∧ placeOf 0 n = .hbm ∧ HbmSound lending) ∧
    (Accepts lending 0 (postFlit 191 47) 7 ∧ lending.running = true ∧ (postFlit 191 47).src.toNat ≠ 0xFFFF ∧ field (postFlit 191 47).payload 0 2 % 1024 = 191 ∧
      field (postFlit 191 47).payload 2 1 = 47 ∧ lending.isLanding 191 47 = false ∧ lending.sem 191 47 + 1 < 2 ^ 32) := by
  simp only [Accepts, HbmSound]
  decide +kernel

/-- The same from a source address of no module (R14). -/
theorem witness_RequestsServed_source :
    (∀ f ∈ [headFlit 1 0 true, readFlit 0 1, postFlit 191 47], badSource f = false ∧ badSource { f with src := 0x2800 } = true) ∧
    (Accepts lending 0 { headFlit 1 0 true with src := 0x2800 } 2 ∧ Accepts lending 0 { readFlit 0 1 with src := 0x2800 } 4 ∧
      Accepts lending 0 { postFlit 191 47 with src := 0x2800 } 7 ∧ opensTooMany lending { headFlit 1 0 true with src := 0x2800 } = false) := by
  simp only [Accepts]
  decide +kernel
theorem witness_RequestsServed_waits : NothingWaits lending ∧ NothingWaits (gathering 208) := ⟨nothingWaits (by decide +kernel), nothingWaits (by decide +kernel)⟩

/-! ### Answers -/

def asking (kind : ReqKind) (x : CoreS) : State :=
  let s := linked (running x)
  { s with links := { s.links with requests := sset none [] 7 (some
    { kind := kind, dst := 1, core := 0, moveId := 0, deadline := 50, addr := 64, bytes := 4, offset := 0, got := [], status := none }) } }
def respFlit (last : Bool) : Flit :=
  { bareFlit 5 (le 1 0 ++ le 3 0 ++ le 4 4 ++ le 8 0 ++ le 4 9) with src := 1, tag := 7, last := last }
def ackFlit : Flit := { bareFlit 6 (le 1 0 ++ le 1 0 ++ le 2 0 ++ le 4 4) with src := 1, tag := 7, last := true }
def hostFlit (n : Nat) : Flit := { bareFlit 8 (le 2 1 ++ le 2 n) with src := 0xFFFF, last := true }
def shaped : CoreS := { idleCore with wait := .shape 1 64 1 none }

theorem quiet_of_one {kind : ReqKind} {x : CoreS} (h : x.moves = []) : QuietMovers (asking kind x) := by
  intro c m hm
  have hc : (asking kind x).core c = if 0 = c then x else CoreS.reset := by
    cases c with
    | zero => rfl
    | succ n => rfl
  rw [hc] at hm
  split at hm
  · rw [h] at hm; cases hm
  · cases hm

theorem witness_AnswersTaken_resp :
    QuietMovers (asking .read shaped) ∧ QuietMovers (asking .post idleCore) ∧ QuietMovers (asking .segment idleCore) ∧
    (∀ last : Bool, (asking .read shaped).inService 0 = true ∧ (respFlit last).kind.toNat = 5 ∧ badHeader (respFlit last) = false ∧
      (sequenced 5 = true → (respFlit last).seq.toNat = ((asking .read shaped).port 0).rxSeq) ∧ (respFlit last).dst.toNat = (asking .read shaped).device ∧
      (requestOf (asking .read shaped) (respFlit last)).map (fun r => (r.kind, r.bytes, r.moveId)) = some (.read, 4, 0) ∧
      BitVec.ofNat 8 (field (respFlit last).payload 0 1) = 0) ∧ ((asking .read shaped).core 0).wait = .shape 1 64 1 none :=
  ⟨quiet_of_one rfl, quiet_of_one rfl, quiet_of_one rfl, by decide +kernel, by decide +kernel⟩

def askedBy (post : Bool) : State := asking (if post then .post else .segment) idleCore
theorem witness_AnswersTaken_ack :
    (∀ post : Bool, (askedBy post).inService 0 = true ∧ ackFlit.kind.toNat = 6 ∧ badHeader ackFlit = false ∧
      (sequenced 6 = true → ackFlit.seq.toNat = ((askedBy post).port 0).rxSeq) ∧ ackFlit.dst.toNat = (askedBy post).device ∧
      (requestOf (askedBy post) ackFlit).map Request.kind = some (if post then .post else .segment) ∧ field ackFlit.payload 0 1 = 0) ∧
    ((sget none (askedBy true).links.requests 7).map Request.deadline = some 50 ∧ (50 : FTime) ≤ (50 : FTime)) := by
  decide +kernel

theorem witness_AnswersTaken_host :
    ∀ n ∈ [1, 224], Accepts (linked (inDev .ready State.reset)) 0 (hostFlit n) 8 ∧ (hostFlit n).src = 0xFFFF#16 ∧ (hostFlit n).index = 0 ∧
      field (hostFlit n).payload 2 2 = n ∧ 1 ≤ n ∧ n ≤ 224 := by
  simp only [Accepts]
  decide +kernel
theorem witness_AnswersTaken_host_waits : NothingWaits (linked (inDev .ready State.reset)) := nothingWaits (by decide +kernel)

/-! ### Collectives -/

/-- A stream head (Table 14-2) of stream 9 on port 0 with D data bytes, from repetition 0 every repetition. -/
def head (op source d : Nat) : Nat := op + 9 * 2 ^ 8 + source * 2 ^ 32 + 1 * 2 ^ 64 + d * 2 ^ 96
/-- A BUFFER of one instance at 4,096, and a SYNC with no gate whose signal is semaphore 3 of core 0 (Table 14-3). -/
def buffer : Nat := 2 + 4096 * 2 ^ 8 + 1 * 2 ^ 56
def syncEntry (signals : Nat) : Nat := 3 + 3 * 2 ^ 34 + signals * 2 ^ 104
def collecting (image : List Nat) (x : CoreS) : State :=
  let s := linked (running x)
  { s with coll := { s.coll with image := image } }
def schedFlit (d : Nat) : Flit := { bareFlit 1 (List.replicate d 7 ++ le 1 1) with stream := 9, last := true }

theorem witness_ScheduledReceive :
    (let s := collecting [] idleCore
     s.now ≤ (5 : FTime) ∧ Accepts s 0 (schedFlit 1) 1 ∧ (s.port 0).adapter = false ∧ findEntry s receives 0 9 = none) ∧
    (∀ d ∈ [1, 224], ∀ sig ∈ [0, 1], let s := collecting [head 2 0 d, buffer, syncEntry sig] { idleCore with landing := 8 }
     let e := centry s 0
     let sync := centry s 2
     Accepts s 0 (schedFlit d) 1 ∧ findEntry s receives 0 9 = some 0 ∧ s.running = true ∧ ceOp e = 2 ∧ ceSource e = 0 ∧ ceStaged e = false ∧ ceCheck e = 0 ∧
       ceD e = d ∧ 1 ≤ d ∧ d ≤ 224 ∧ (s.crecv 0).active = false ∧ syncGate { s with now := 5 } sync (s.crecv 0).count = true ∧
       field (padTo 240 (schedFlit d).payload) d 1 = 1 ∧ bufAddr (centry s 1) 0 + d ≤ hbmSize ∧ HbmSound s ∧
       s.sem (bits sync 33 24) (bits sync 39 34) + ceilDiv d 64 < 2 ^ 32 ∧ Nat.testBit sync 104 = decide (sig = 1) ∧
       s.isLanding (bits sync 33 24) (bits sync 39 34) = true) ∧
    (let s := collecting [head 3 0 224, 0 + 1 * 2 ^ 96] idleCore
     let e := centry s 0
     Accepts s 0 (schedFlit 224) 1 ∧ findEntry s receives 0 9 = some 0 ∧ s.running = true ∧ ceOp e = 3 ∧ (schedFlit 224).index = 0 ∧
       (schedFlit 224).last = decide (flitsOf (ceD e) = 1) ∧ (s.crecv 0).active = false ∧ (shareOf s 0).2 < (shareOf s 0).1) ∧
    (let s := (collecting [head 2 0 480, buffer, syncEntry 1] idleCore).setCrecv 0 { RecvS.reset with active := true, count := 1 }
     s.now ≤ (5 : FTime) ∧ Accepts s 0 (schedFlit 1) 1 ∧ (s.port 0).adapter = false ∧ findEntry s receives 0 9 = some 0 ∧ s.running = true ∧
       (schedFlit 1).index = 0 ∧ (s.crecv 0).active = true ∧ abandons s.run (5 : FTime).toNat = true ∧ s.run.collFault = false) := by
  simp only [Accepts, HbmSound]
  decide +kernel

theorem witness_CollectiveSources :
    (∀ sig ∈ [0, 1], let s := collecting [head 1 0 64, buffer, syncEntry sig] idleCore
     let e := centry s 0
     let sync := centry s (syncOf s 0)
     s.now ≤ (5 : FTime) ∧ s.running = true ∧ s.run.drainSince = none ∧ ceOp e = 1 ∧ ceSource e = 0 ∧ (s.csend 0).active = false ∧ (s.csend 0).reading = false ∧
       ((s.setCsend 0 { SendS.reset with active := true }).csend 0).active = true ∧
       syncGate { s with now := 5 } sync (s.csend 0).count = true ∧ bufAddr (centry s 1) (s.csend 0).count + ceD e ≤ hbmSize ∧ HbmSound s ∧
       s.sem (bits sync 33 24) (bits sync 39 34) + 1 < 2 ^ 32 ∧ Nat.testBit sync 104 = decide (sig = 1) ∧
       s.isLanding (bits sync 33 24) (bits sync 39 34) = false) ∧
    (let s := collecting [head 1 0 64, buffer, syncEntry 1] idleCore
     let s := s.setCsend 0 { SendS.reset with reading := true }
     let sync := centry s (syncOf s 0)
     s.running = true ∧ (s.csend 0).reading = true ∧ s.sem (bits sync 33 24) (bits sync 39 34) + 1 < 2 ^ 32) ∧
    (let s := collecting [4 + 1 * 2 ^ 24, head 5 0 64 + 2 ^ 28, buffer, syncEntry 1] idleCore
     let e := centry s 1
     let sy := centry s 3
     s.running = true ∧ s.run.drainSince = none ∧ ceOp e = 5 ∧ ceLocal e = true ∧ ceSource e ≠ 2 ∧ syncGate { s with now := 5 } sy (s.crecv 1).count = true ∧
       bufAddr (centry s 2) (s.crecv 1).count + ceD e ≤ hbmSize ∧ HbmSound s ∧ s.sem (bits sy 33 24) (bits sy 39 34) + 1 < 2 ^ 32 ∧
       (s.crecv 1).count ≥ (s.cgroup (groupAbove s 1)).done ∧
       (let s := s.setCgroup 0 { GroupS.reset with done := 1 }
        (s.crecv 1).count < (s.cgroup (groupAbove s 1)).done)) ∧
    (∀ v ∈ [0, 2], let s := collecting [head 1 2 4 + v * 2 ^ 28, syncEntry 1] idleCore
     let e := centry s 0
     let sync := centry s (syncOf s 0)
     s.running = true ∧ s.run.drainSince = none ∧ ceOp e = 1 ∧ ceSource e = 2 ∧ ceVersionSource e = v ∧ (s.csend 0).active = false ∧ (s.csend 0).reading = false ∧
       syncGate { s with now := 5 } sync (s.csend 0).count = true) := by
  simp only [HbmSound]
  decide +kernel

/-- Groups of two received inputs of 480 data bytes: by OR (2) and by sum (1), at the first of two blocks. -/
def grouped (op : Nat) : State :=
  let s := collecting [4 + op * 2 ^ 8 + 1 * 2 ^ 12 + 2 * 2 ^ 24 + 480 * 2 ^ 96, head 5 0 480, head 5 0 480 + 2 ^ 8] idleCore
  (s.setCrecv 1 { RecvS.reset with slots := [(0, 0, false, le 4 3)] }).setCrecv 2 { RecvS.reset with slots := [(0, 0, false, le 4 5)] }
/-- A staged RECV of 64 bytes waiting for its copy, its gate open. -/
def stagedState : State :=
  let s := collecting [head 2 0 64 + 2 ^ 31, buffer, 2 + 8192 * 2 ^ 8 + 1 * 2 ^ 56, syncEntry 1] { idleCore with landing := 8 }
  { s with coll := { s.coll with staged := [{ entry := 0, ordinal := 0, capo := 0 }] } }
/-- A set of one fret of stream 9 in force on port 0 since its capo point at 0, and a SEND of memory on it. -/
def lateState : State :=
  let s := (collecting [head 1 0 64, buffer, syncEntry 1] idleCore).modPort 0 fun x => { x with inForce := some (0, 0) }
  { s with run := { s.run with sets := sset [] [] 0 [BitVec.ofNat 32 (2 ^ 30 + 9 * 2 ^ 16)] }, now := 300 }

/-- A group of two received inputs of 8 data bytes that lands in memory, its gate closed until semaphore 0 of core 0 is 1. -/
def landing : State :=
  let s := collecting [4 + 2 * 2 ^ 8 + 2 * 2 ^ 24 + 8 * 2 ^ 96, head 5 0 8, head 5 0 8 + 2 ^ 8, buffer, syncEntry 1 + 2 ^ 40 + 2 ^ 72] idleCore
  (s.setCrecv 1 { RecvS.reset with slots := [(0, 0, true, le 4 3)] }).setCrecv 2 { RecvS.reset with slots := [(0, 0, true, le 4 5)] }

/-- Both slots of the first block read clean, and with the first word of one uncorrectable. -/
theorem witness_ReduceStageLate_slots :
    (∀ k ∈ [1, 2], ceLocal (centry (grouped 2) k) = false ∧ (checkSlot (grouped 2) k ((grouped 2).cgroup 0).done ((grouped 2).cgroup 0).blocks).2 = false) ∧
    (let s := grouped 2
     let s := { s with mem := { s.mem with sramRaw := sset none [] (sramKey 7 (poolDie s 1) (32 * slotAt s 1 0 0)) (some { data := le 8 3, check := [0] }) } }
     s.running = true ∧ (groupInputs s 0).1 = [1, 2] ∧ ceLocal (centry s 1) = false ∧ (checkSlot s 1 (s.cgroup 0).done (s.cgroup 0).blocks).2 = true ∧
       abandons s.run (5 : FTime).toNat = true) ∧
    (let set : List W32 := [BitVec.ofNat 32 (2 ^ 30 + 9 * 2 ^ 16)]
     0 + (repetition set.length 0 lateState.now.toNat * set.length + (fretsOf set 9).getD (slackOf set 9) 0 + 1) * 128 = 384 ∧ lateState.run.aborts = [] ∧
       abandons lateState.run 384 = true ∧
       abandons (inRun (fun r => { r with start := 1, capos := [(6000, 2, 0, 0)] }) lateState).run 384 = false) := by
  decide +kernel

theorem witness_ReduceStageLate :
    (∀ op ∈ [1, 2], let s := grouped op
     let e := centry s 0
     s.running = true ∧ s.now ≤ (5 : FTime) ∧ ceOp e = 4 ∧ (groupInputs s 0).1 = [1, 2] ∧ (s.cgroup 0).blocks + 1 ≠ flitsOf (ceD e) ∧
       (∀ k ∈ (groupInputs s 0).1, (inputFlit s 0 k (s.cgroup 0).done (s.cgroup 0).blocks).isSome = true) ∧ grOutput e ≠ 0 ∧ grOp e = op) ∧
    (let s := landing
     let e := centry s 0
     s.running = true ∧ s.now ≤ (5 : FTime) ∧ ceOp e = 4 ∧ (groupInputs s 0).1 = [1, 2] ∧ (s.cgroup 0).blocks = 0 ∧
       (∀ k ∈ (groupInputs s 0).1, (inputFlit s 0 k (s.cgroup 0).done 0).isSome = true) ∧ grOutput e = 0 ∧
       syncGate { s with now := 5 } (centry s ((groupInputs s 0).2 + 1)) (s.cgroup 0).done = false ∧
       abandons (inRun (fun r => { r with start := 1, capos := [(6000, 2, 0, 0)] }) s).run 5 = false) ∧
    (let s := stagedState
     let sync := centry s 3
     s.now ≤ (5 : FTime) ∧ (s.coll.staged.find? fun x => decide (x.entry = 0)) = some { entry := 0, ordinal := 0, capo := 0 } ∧
       syncGate { s with now := 5 } sync 0 = true ∧ bufAddr (centry s 1) 0 + ceD (centry s 0) ≤ hbmSize ∧ bufAddr (centry s 2) 0 + ceD (centry s 0) ≤ hbmSize ∧
       HbmSound s ∧ s.sem (bits sync 33 24) (bits sync 39 34) + ceilDiv (ceD (centry s 0)) 64 < 2 ^ 32 ∧
       Nat.testBit sync 104 = true ∧ s.isLanding (bits sync 33 24) (bits sync 39 34) = true) ∧
    (let s := lateState
     let set : List W32 := [BitVec.ofNat 32 (2 ^ 30 + 9 * 2 ^ 16)]
     let n := repetition set.length 0 s.now.toNat
     setInForce s 0 = some (set, 0) ∧ findEntry s transmits 0 9 = some 0 ∧ fretsOf set 9 ≠ [] ∧ 0 ≤ s.now.toNat ∧ repDue (centry s 0) n = true ∧
       ceSource (centry s 0) ≠ 3 ∧ ((0, 9) : Nat × Nat) ∉ s.run.late ∧ (s.csend 0).sent = 0 ∧ (s.csend 0).rep ≤ n ∧
       (let s := s.setCsend 0 { SendS.reset with sent := 1, rep := n }
        (s.csend 0).sent ≠ 0 ∧ (s.csend 0).rep = n)) := by
  simp only [HbmSound]
  decide +kernel

/-! ### Writes of a session -/

/-- An open session of class M that chose version 1. -/
def openSession : Session :=
  { sid := 3, fingerprint := [], port := 0, channel := 0, chosen := some 1, dead := false, mask := 0, last := none, kept := [], lastRx := 0, presented := ([], []), records := 0, sent := [] }
def sess (s : State) : State := s.setSession 0 (some openSession)

theorem taken {s : State} (hn : s.now ≤ (5 : FTime)) (hr : reachable s 0 = true) (h0 : s.fdp.sessions = []) (hf : s.audit.failed = false)
    (hw : s.audit.waiting = []) (hh : s.audit.held = []) (ht : s.audit.taken = none) (hm : s.mem.sramRaw = []) :
    SessionWrite (sess s) 0 1 1 5 := by
  refine ⟨hn, hr, ?_, ?_, ⟨openSession, ?_, rfl, rfl, rfl, rfl⟩, hf, ?_, hh⟩
  · show (match s.audit.taken with | some (t, r) => decide (t = (5 : FTime) ∧ slotRank 0 < r) | none => false) = false
    rw [ht]
  · show sramReadCheck { sess s with now := 5 } 9 0 0 (8 * 2 ^ 24) = _
    unfold sramReadCheck
    rw [show ({ sess s with now := 5 } : State).mem.sramRaw = [] from hm]
    rfl
  · show sget none (sset none s.fdp.sessions 0 (some openSession)) 0 = _
    rw [h0]; rfl
  · show s.audit.waiting.length < 64
    rw [hw]; decide

/-- The log takes entries and a request of the session is newer than any before, in any device state but OFF. -/
theorem taken_in (d : Dev) (h : d ≠ .off) : SessionWrite (sess (inDev d State.reset)) 0 1 1 5 := by
  cases d <;> first | exact absurd rfl h | exact taken (by decide +kernel) rfl rfl rfl rfl rfl rfl rfl

def inPhase (x : Dev) (s : State) : State := { s with ctl := { s.ctl with dev := .test, phase := x } }

theorem witness_MainSideCommands :
    (SessionWrite (sess (inDev .ready State.reset)) 0 1 1 5 ∧ SessionWrite (sess (inDev .fault State.reset)) 0 1 1 5) ∧
    (let s := withEnts [(0x3200, 1, 0), (0x3200, 2, 0)] (sess (inDev .standby State.reset))
     s.power.sheds = false ∧ s.ctl.dev = .standby ∧ assigned s = true ∧ powerBlocked s = false) ∧
    ((inDev .standby State.reset).ctl.dev = .standby ∧ assigned (inDev .standby State.reset) = false) ∧
    (∀ x ∈ [Dev.ready, .armed, .run, .pause, .aborting], let s := inPhase x (inDev .ready State.reset)
     s.ctl.dev = .test ∧ s.ctl.powered = true ∧ s.power.sheds = false ∧ s.power.downAfterAbort = false ∧
       s.ctl.phase ∈ [Dev.ready, .armed, .run, .pause, .aborting]) ∧
    (inDev .start State.reset).ctl.dev ≠ .ready := by
  refine ⟨?_, by decide +kernel⟩
  exact ⟨taken_in .ready (by decide), taken_in .fault (by decide)⟩
theorem witness_MainSideCommands_test : SessionWrite (sess (inPhase .run (inDev .ready State.reset))) 0 1 1 5 :=
  taken (by decide +kernel) rfl rfl rfl rfl rfl rfl rfl

theorem witness_ProgramCommands :
    (SessionWrite (sess (inDev .ready State.reset)) 0 1 1 5 ∧ SessionWrite (sess (inDev .run State.reset)) 0 1 1 5 ∧
      SessionWrite (sess (inDev .armed State.reset)) 0 1 1 5 ∧ SessionWrite (sess (inDev .pause State.reset)) 0 1 1 5) ∧
    ((inDev .ready State.reset).eff = .ready ∧ (inDev .ready State.reset).ent 0x7200 5 = 0 ∧ (withEnts [(0x7200, 5, 1)] State.reset).ent 0x7200 5 ≠ 0) ∧
    (let s := sess (inDev .run State.reset)
     s.running = true ∧ s.run.drainSince = none ∧ s.ent 0x5510 2 = 0 ∧ (withEnts [(0x5510, 2, 4096)] s).ent 0x5510 2 ≠ 0 ∧ s.run.aborts = [] ∧
       abandons s.run 5 = true) ∧
    (let s := sess (inRun (fun r => { r with drainSince := some 7 }) (inDev .run State.reset))
     s.running = true ∧ s.ent 0x5510 2 = 0 ∧ (withEnts [(0x5510, 2, 4096)] s).running = true) ∧
    (abandons { (sess (inDev .run State.reset)).run with capos := [(6000, 2, 0, 0)], start := 1 } 5 = false) ∧
    ((inDev .armed State.reset).eff = .armed ∧ (inDev .pause State.reset).eff = .pause ∧ (inDev .start State.reset).eff ≠ .armed ∧
      (inDev .start State.reset).running = false ∧ (inDev .start State.reset).eff ≠ .pause) ∧
    (4 < (5 : Byte).toNat) :=
  ⟨⟨taken_in .ready (by decide), taken_in .run (by decide), taken_in .armed (by decide), taken_in .pause (by decide)⟩, by decide +kernel, by decide +kernel,
    by decide +kernel, by decide +kernel, by decide +kernel, by decide⟩

/-- The bytes b at address 0 of HBM, within its first 4,096 bytes (R176: stack 0, the same offset). -/
def withHbm (b : List Byte) (s : State) : State := { s with mem := { s.mem with hbm := swrite 0 [] 0 b } }
/-- A tab (Tables 15-9, 15-10, 2-4): header, one section table entry at 512, the capo table at 576 with a switch of no port at 0 and the end at 128. -/
def smallTab : List Byte :=
  padTo 512 ([0x46, 0x54, 0x41, 0x42] ++ le 1 1 ++ le 1 1 ++ le 2 0 ++ le 8 0 ++ le 8 608 ++ le 4 1 ++ le 4 0 ++ le 8 512) ++
    padTo 64 (le 1 3 ++ le 1 0 ++ le 2 0 ++ le 4 0 ++ le 8 576 ++ le 8 32) ++
    (le 8 0 ++ le 1 1 ++ le 7 0) ++ (le 8 128 ++ le 1 3 ++ le 7 0)
def armedTab : State :=
  let s := withHbm smallTab (inDev .armed State.reset)
  { s with run := { s.run with tab := 0, start := 1000000 }, trust := { s.trust with hashing := true } }

theorem witness_Arming :
    (let s := withEnts [(0x3000, 2, 3), (0x5000, 3, 1)] (sess (inDev .ready State.reset))
     s.ctl.filled = true ∧ s.ent 0x3000 2 = 3 ∧ s.ent 0x7200 5 = 0 ∧ s.ent 0x2100 1 = 0 ∧ s.power.supplyHalt = none ∧ s.power.sheds = false ∧ s.ctl.armSpent = false ∧ s.eff = .ready ∧ s.ent 0x5000 3 = 1 ∧
       s.ent 0x5000 1 % 4096 = 0 ∧ s.ent 0x5000 1 + 512 ≤ 0x012000000000 ∧ s.ent 0x8130 7 ≠ 1 ∧
       (5 + s.ent 0x5000 5 ≤ 200005 ∧ 5 + rampWindow s + 125000 ≤ 200005) ∧ ¬ 5 + s.ent 0x5000 5 ≤ 200004) ∧
    SessionWrite (withEnts [(0x3000, 2, 3), (0x5000, 3, 1)] (sess (inDev .ready State.reset))) 0 1 1 5 ∧
    (let s := withEnts [(0x3000, 2, 3), (0x5000, 3, 3), (0x8130, 7, 1)] (sess (inDev .pause State.reset))
     s.eff = .pause ∧ s.ctl.armSpent = false ∧ s.ent 0x5000 3 = 3 ∧ s.ent 0x8130 7 = 1) ∧
    (withEnts [(0x5000, 1, 4097)] State.reset).ent 0x5000 1 % 4096 ≠ 0 ∧
    ({ State.reset with trust := { State.reset.trust with hashing := true } } : State).trust.hashing = true := by
  refine ⟨by decide +kernel, ?_, by decide +kernel, by decide +kernel⟩
  exact taken (s := withEnts [(0x3000, 2, 3), (0x5000, 3, 1)] (inDev .ready State.reset)) (by decide +kernel) (by decide +kernel) rfl rfl rfl rfl rfl rfl
/-- A resume waits for the hash of the tab that it names; without the measurement of the run that it resumes it is refused (R477). -/
def resumedTab (m : Option (List Byte)) : State :=
  { armedTab with ctl := { armedTab.ctl with resuming := true }, trust := { armedTab.trust with pausedHash := m, hashing := false } }
theorem witness_Arming_resume :
    (hashLacks armedTab = false ∧ hashLacks (resumedTab none) = true ∧ hashLacks (resumedTab (some [])) = false ∧ hashWaits (resumedTab (some [])) = false) ∧
    ((resumedTab none).now ≤ (5 : FTime) ∧ (resumedTab none).eff = .armed ∧ (resumedTab none).run.checked = false ∧
      (5 : FTime).toNat + rampWindow (resumedTab none) ≤ (resumedTab none).run.start.toNat) ∧
    (let s := { resumedTab none with trust := { (resumedTab none).trust with owedTab := some 4096 } }
     s.trust.owedTab = some 4096 ∧ s.eff = .armed ∧ s.ctl.resuming = true) := by decide +kernel
/-- A tab that passes every check, and one of zeros that does not. -/
theorem witness_Arming_checks :
    (armedTab.now ≤ (5 : FTime) ∧ armedTab.eff = .armed ∧ armedTab.run.checked = false ∧ (5 : FTime).toNat + rampWindow armedTab ≤ armedTab.run.start.toNat ∧
      hashWaits armedTab = false ∧ armedTab.ctl.resuming = false ∧ armingChecks armedTab armedTab.run.tab = none) ∧
    (armingChecks (inDev .armed State.reset) 0).isSome = true ∧
    (let s := { armedTab with run := { armedTab.run with checked := true } }
     s.trust.owedTab = none ∧ s.trust.hashing = true ∧ s.run.checked = true) ∧
    (let s := withEnts [(0x8130, 7, 1)] armedTab
     s.trust.owedTab = none ∧ s.trust.hashing = true ∧ s.eff = .armed ∧ hashFirst s = true ∧ hashWaits s = true) ∧
    (let s := inDev .pause State.reset
     let s := { s with trust := { s.trust with owedTab := some 4096 } }
     s.trust.owedTab = some 4096 ∧ s.eff = .pause) := by decide +kernel

theorem witness_StartFabricTime :
    (∀ d : Bool, let s := { armedTab with run := { armedTab.run with checked := true }, ctl := { armedTab.ctl with resuming := d } }
     s.eff = .armed ∧ s.run.checked = true ∧ (∀ k, k < 16 → (s.stream k).batches = []) ∧ s.ctl.resuming = d) := by decide +kernel

theorem witness_ShardWalks :
    (let s := sess (inDev .ready State.reset)
     let s := { s with run := { s.run with shards := [le 8 128 ++ le 8 256 ++ le 8 0 ++ le 2 0] } }
     s.ctl.dev = .ready ∧ s.run.walk = none ∧ s.ent 0x5410 1 < s.run.shards.length) ∧
    (let s := sess (inDev .pause State.reset)
     s.ctl.dev = .pause ∧ s.run.walk = none ∧ s.run.shards.length ≤ s.ent 0x5410 1) ∧
    SessionWrite (sess (inDev .ready State.reset)) 0 1 1 5 ∧ SessionWrite (sess (inDev .pause State.reset)) 0 1 1 5 ∧
    (∀ cmd ∈ [1, 2], let s := inDev .ready State.reset
     let s := { s with run := { s.run with shards := [le 8 128 ++ le 8 256 ++ le 8 0 ++ le 2 0], walk := some (cmd, 0) } }
     s.now ≤ (5 : FTime) ∧ s.run.walk = some (cmd, 0) ∧ (∀ x ∈ s.mem.cache, x.bad = []) ∧ shHeader (shardAt s 0) + 128 ≤ 0x012000000000) := by
  exact ⟨by decide +kernel, by decide +kernel, taken_in .ready (by decide), taken_in .pause (by decide), by decide +kernel⟩

theorem witness_DictionaryWrites :
    SessionWrite (sess (inDev .ready State.reset)) 0 1 1 5 ∧
    (isRegionWrite 0x2200 1 = false ∧ entryOf 0x9FFF 1 = none) ∧
    ((entryOf 0x2200 1).map (fun e => (lengthOk e 4, lengthOk e 3, e.acc, Nat.testBit e.writers 1, valueOk e (le 4 40), valueOk e (le 4 4))) =
      some (true, false, .rws, true, true, false)) ∧
    ((entryOf 0x2000 1).map (fun e => (lengthOk e e.ty.size, e.acc)) = some (true, .ro)) ∧
    ((entryOf 0x3200 1).map EntryDef.acc = some .rws) ∧
    (let s := withEnts [(0x9100, 1, 191), (0x9100, 2, 47), (0x9100, 3, 2)] (sess (inDev .run State.reset))
     s.eff ≠ .pause ∧ s.ctl.dev = .run ∧ s.ent 0x9100 3 = 2 ∧ s.ent 0x9100 1 < 192 ∧ s.ent 0x9100 2 < 48 ∧ imageAt s 191 + 0x800000 ≤ 0x012000000000) ∧
    ((inDev .pause State.reset).eff = .pause ∧ (inDev .pause State.reset).mem.hbmRaw = [] ∧ (∀ x ∈ (inDev .pause State.reset).mem.cache, x.bad = []) ∧
      (inDev .standby State.reset).ctl.dev = .standby ∧ (1 : Byte).toNat ≤ 1 ∧ 1 < (2 : Byte).toNat) := by
  refine ⟨taken_in .ready (by decide), ?_⟩
  decide +kernel

/-! ### Pages, streams, samples, video, regions -/

def openPage (s : State) : State := (paged s).setPageSlot 0 { st := 1, e := 4, mapped := 0, pending := 0 }
/-- Page 0 of slot 0 mapped to granule 15 with n reads in flight (Table 9-6). -/
def mappedPage (n : Nat) : State :=
  let s := sess (inDev .ready State.reset)
  mapping (openPage s) { first := 15, owner := 0, size := 0, mapped := true, pending := false, inFlight := n } 256
def pageCmd (op slot e page count granule : Nat) : List Byte := le 1 op ++ le 1 slot ++ le 1 e ++ le 1 0 ++ le 4 page ++ le 2 count ++ le 2 0 ++ le 4 granule

theorem pagesSound_of {s : State} (h : pageBase s ≠ 0 ∧ pageBase s + areaBytes s ≤ hbmSize ∧ granuleCount s ≤ 0x400000)
    (he : ∀ k, k < 256 → ∀ j, j < pageEntries s → (entryAt s k j).mapped = true → (entryAt s k j).first + 2 ^ (entryAt s k j).size ≤ granuleCount s) :
    PagesSound s := ⟨h.1, h.2.1, h.2.2, fun k j hk hj => he k hk j hj⟩

theorem witness_PageCommands :
    (let s := sess (paged (inDev .ready State.reset))
     let v := le 8 4096
     let w := le 8 4097
     (pageCmd 1 0 4 0 0 0).length = 16 ∧ s.ctl.filled = true ∧ s.ctl.dev = .ready ∧ v.length = 8 ∧ (∀ x ∈ s.pages.slots, x.2.st = 0) ∧
       areaOk (s.setEnt 0x5210 1 (ofLe v)) = true ∧ ofLe v ≠ 0 ∧ areaOk (s.setEnt 0x5210 1 (ofLe w)) = false ∧
       pageRefusal s (pageCmd 1 0 4 0 0 0) = none ∧ pageRefusal s (pageCmd 1 16 13 0 0 0) = none ∧ (pageRefusal s (pageCmd 1 0 14 0 0 0)).isSome = true) ∧
    (let s := sess (openPage (inDev .ready State.reset))
     (∃ x ∈ s.pages.slots, x.2.st ≠ 0) ∧ areaOk (s.setEnt 0x5210 1 4096) = true ∧
     pageRefusal s (pageCmd 2 0 0 0 1 15) = none ∧ (pageRefusal s (pageCmd 2 0 0 0 1 16)).isSome = true ∧ 4 ≤ (s.pageSlot 0).e ∧ (s.pageSlot 0).e ≤ 13 ∧
       sameMapping s 0 (0, 15) = false ∧ pageRefusal s (pageCmd 4 0 0 0 0 0) = none ∧ (pageRefusal s (pageCmd 3 0 0 0 1 15)).isSome = true) ∧
    SessionWrite (sess (paged (inDev .ready State.reset))) 0 1 1 5 ∧ SessionWrite (sess (openPage (inDev .ready State.reset))) 0 1 1 5 ∧
    PagesSound (sess (openPage (inDev .ready State.reset))) :=
  ⟨by decide +kernel, by decide +kernel, taken (by decide +kernel) (by decide +kernel) rfl rfl rfl rfl rfl rfl,
    taken (by decide +kernel) (by decide +kernel) rfl rfl rfl rfl rfl rfl,
    pagesSound_of (by decide +kernel) (by decide +kernel)⟩
theorem witness_PageCommands_mapped :
    (∀ n ∈ [0, 1], let s := mappedPage n
      pageRefusal s (pageCmd 3 0 0 0 1 15) = none ∧ (entryAt s 0 0).inFlight = n ∧ (entryAt s 0 0).size = (s.pageSlot 0).e - 4 ∧
        sameMapping s 0 (0, 15) = true) ∧ PagesSound (mappedPage 1) :=
  ⟨by decide +kernel, pagesSound rfl rfl (by decide) (by decide +kernel)⟩

/-- A descriptor about to write a page command through the map, with page 0 of slot 0 as e and o have it. -/
def asks (b : List Byte) (st : Nat) (e : PageEntry) (o : Nat) : State :=
  let m : Move :=
    { id := 1, desc := [], pad := 0, clmAddr := 0, post := none, transfer := 0, started := true, retired := false, reads := [], payload := [],
      awaiting := 0, writes := [], remote := 0, mapWrites := [(0x5200, 1, b)], mapWaits := 0, granules := [] }
  mapping ((paged (running { idleCore with moves := [m] })).setPageSlot 0 { st := st, e := 4, mapped := 0, pending := 0 }) e o
def programWrites (s : State) (b : List Byte) : Bool :=
  decide (s.now ≤ (5 : FTime)) && !s.ctl.galenaHeld && !overtaken { s with now := 5 } 2 && (mapWriter s 0 0x5200 1 b).isSome && !s.audit.failed &&
    decide (s.audit.waiting.length < 64) && decide (s.audit.held = []) && decide (s.links.transfers = [])
theorem program_writes {s : State} {b : List Byte} (h : programWrites s b = true) : ProgramWrite s 0 0x5200 1 b 5 ∧ s.links.transfers = [] := by
  simp only [programWrites, Bool.and_eq_true, Bool.not_eq_true', decide_eq_true_eq] at h
  obtain ⟨⟨⟨⟨⟨⟨⟨h1, h2⟩, h3⟩, h4⟩, h5⟩, h6⟩, h7⟩, h8⟩ := h
  exact ⟨⟨h1, h2, h3, h4, h5, h6, h7⟩, h8⟩
def freePage : PageEntry := { first := 15, owner := 0, size := 0, mapped := false, pending := false, inFlight := 0 }
def usedPage : PageEntry := { freePage with mapped := true }
theorem witness_PageCommands_program :
    ∀ x ∈ [(pageCmd 1 0 4 0 0 0, 0, freePage, 0), (pageCmd 2 0 0 0 1 15, 1, freePage, 0), (pageCmd 3 0 0 0 1 15, 1, usedPage, 256),
        (pageCmd 4 0 0 0 0 0, 1, usedPage, 256)], let s := asks x.1 x.2.1 x.2.2.1 x.2.2.2
      programWrites s x.1 = true ∧ pageRefusal s x.1 = none ∧ s.ctl.filled = true ∧ (x.2.1 = 1 → (s.pageSlot 0).e = 4 ∧ (entryAt s 0 0).size = 0) := by
  decide +kernel
theorem witness_PageCommands_program_sound :
    ∀ x ∈ [(pageCmd 2 0 0 0 1 15, freePage, 0), (pageCmd 3 0 0 0 1 15, usedPage, 256), (pageCmd 4 0 0 0 0 0, usedPage, 256)],
      PagesSound (asks x.1 1 x.2.1 x.2.2) := by
  intro x hx
  refine pagesSound rfl rfl ?_ ?_ <;> revert x <;> decide +kernel
theorem witness_PageCommands_program_refused :
    ∀ x ∈ [(pageCmd 1 0 14 0 0 0, 0), (pageCmd 2 0 0 0 1 16, 1), (pageCmd 3 0 0 0 1 15, 1), (pageCmd 4 0 0 0 0 0, 0)], let s := asks x.1 x.2 freePage 0
      programWrites s x.1 = true ∧ (pageRefusal s x.1).isSome = true ∧ s.running = true ∧ abandons s.run 5 = true := by
  decide +kernel

/-- A stream's program: DECODE of planar pictures, one component, then EMIT of one element at 12,288 (Tables 11-5, 11-6). -/
def streamProgram : List Byte :=
  padTo 32 (le 1 1 ++ le 1 0 ++ le 2 0 ++ le 2 1 ++ le 1 0 ++ le 1 1) ++
    padTo 32 (le 1 0xF ++ le 1 0 ++ le 2 0 ++ le 4 12288 ++ le 4 256 ++ le 4 1 ++ le 4 1 ++ le 4 1)
/-- Stream 0 set up: its program at 0, list at 4,096, ring at `0x100000`, staging at `0x200000`. -/
def streamSet (s : State) : State :=
  withHbm streamProgram (withEnts [(0x6100, 2, 4096), (0x6100, 3, 64), (0x6100, 6, 0), (0x6100, 7, 0x100000), (0x6100, 8, 12288 + 4096), (0x6100, 9, 2),
    (0x6100, 0xA, 1), (0x6100, 0xC, 1), (0x6100, 0xD, 0xFFFFFFFFFFFFFFFF), (0x6100, 0xF, 0x200000), (0x6100, 0x10, 4096), (0x6100, 0x12, 64), (0x6100, 0x13, 64),
    (0x6100, 0x14, 4096), (0x6100, 0x15, 4), (0x6100, 0x16, 65536)] s)

def someBatch (full : Bool) : Batch :=
  { number := 0, full := full, delivered := false, emitted := 0, valid := 0, rejected := 0, rows := 0, mask := 0, replaced := false, timedOut := false }

theorem witness_StreamCommands :
    (let s := streamSet (sess (inDev .ready State.reset))
     s.ctl.dev = .ready ∧ (s.stream 0).on = false ∧ streamValid s 0 (hread s (s.strm 0 6) 2048) = true ∧
       streamValid (withEnts [(0x6100, 2, 4097)] s) 0 (hread s (s.strm 0 6) 2048) = false ∧ HbmSound s) ∧
    (let s := withEnts [(0x6100, 0xE, 1)] (inDev .armed State.reset)
     s.ctl.dev = .armed ∧ s.strm 0 0xE ≠ 0 ∧ (inDev .armed State.reset).strm 0 0xE = 0) ∧
    (∀ n ∈ [1, 16], let s := (inDev .ready State.reset).setStream 0 { Stream.reset with on := true, batches := List.replicate n (someBatch true), nextBatch := n }
     (s.stream 0).on = true ∧ (s.stream 0).owed = 0 ∧ n ≤ (s.stream 0).batches.length ∧ ∀ b ∈ (s.stream 0).batches.take n, b.full = true) ∧
    (let s := (inDev .start State.reset).setStream 0 { Stream.reset with on := true, batches := [someBatch false], nextBatch := 1 }
     s.ctl.dev = .start ∧ (s.stream 0).on = true ∧ ∀ b ∈ (s.stream 0).batches.head?, b.full = false) ∧
    SessionWrite (sess (inDev .ready State.reset)) 0 1 1 5 ∧ (16 < (17 : Byte).toNat ∧ (0 : Byte).toNat = 0) := by
  simp only [HbmSound]
  and_intros
  all_goals first | decide +kernel | exact taken_in .ready (by decide)

def someSample (st : Nat) : Sample :=
  { number := 0, index := 0, reserve := false, attempts := 1, desc := le 1 1 ++ le 1 6, replace := false, st := st, at_ := 0, took := 0, instance_ := some 0,
    pipe := none, reason := 0, timedOut := false, valid := true, result := le 4 7, extents := (1, 1), rows := 1 }
/-- Stream 0 enabled with one descriptor published and the samples w in its window. -/
def streaming (w : List Sample) : State :=
  (streamSet (inDev .ready State.reset)).setStream 0 { Stream.reset with on := true, program := streamProgram, published := 1, window := w }

theorem witness_MediaSamples :
    (let s := streaming []
     s.now ≤ (5 : FTime) ∧ mediaRuns s = true ∧ HbmSound s ∧ s.mem.sramRaw = [] ∧ (s.stream 0).on = true ∧ (s.stream 0).stopped = false ∧
       ¬ (s.stream 0).published ≤ ofLe (peek s (s.strm 0 2) 8) ∧ s.strm 0 0xE = 0) ∧
    (let s := (streaming []).modStream 0 fun x => { x with published := 0 }
     (s.stream 0).published ≤ ofLe (peek s (s.strm 0 2) 8) ∧ ofLe (peek s (s.strm 0 2) 8) ≤ s.ent 0x6200 3 + s.strm 0 3 ∧ s.strm 0 4 = 0) ∧
    ((rotated (streaming [])).find? (streamReady (streaming [])) = some 0 ∧ replaces (streaming []) = false) ∧
    (let s := streaming [someSample 0]
     (s.stream 0).sample 0 = some (someSample 0) ∧ (someSample 0).st = 0 ∧ (someSample 0).replace = false ∧ (5 : FTime).toNat < budgetEnd s (someSample 0) ∧
       budgetEnd s (someSample 0) ≤ (1000000000000 : FTime).toNat) ∧
    (let s := streaming [someSample 1]
     (s.stream 0).window = someSample 1 :: [] ∧ (someSample 1).st = 1 ∧ (someSample 1).valid = true ∧ s.strm 0 0xA ≤ 256 ∧
       batchAt s 0 (batchNo s 0 (someSample 1)) + 8320 ≤ 0x012000000000 ∧ s.strm 0 0xD = 0xFFFFFFFFFFFFFFFF ∧
       8320 ≤ emitOffset ((stageWith (stagesOf streamProgram 0) 0xF).getD [])) := by
  simp only [HbmSound]
  decide +kernel

/-- An encode descriptor (Table 12-4): ten PLANAR frames of 64 × 64 at `0x100000`, their bitstream at `0x200000`. -/
def encodeDesc : List Byte :=
  le 1 1 ++ le 1 1 ++ le 1 0 ++ le 1 0 ++ le 1 3 ++ le 1 30 ++ le 1 30 ++ le 1 10 ++ le 1 51 ++ le 1 1 ++ le 2 0 ++ le 4 1000000 ++ le 8 0x100000 ++
    le 4 12288 ++ le 2 0 ++ le 2 10 ++ le 2 64 ++ le 2 64 ++ le 2 0 ++ le 2 0 ++ le 2 64 ++ le 2 64 ++ le 2 64 ++ le 2 64 ++ le 8 0x200000 ++ le 4 65536 ++ le 4 0
def encCmd (a : Nat) : List Byte := le 1 1 ++ le 7 0 ++ le 8 a
def encoding (d : List Byte) (coding : Option (List Nat × List Nat × List Nat)) : State :=
  let s := inDev .ready State.reset
  let x : EncCtx := { desc := d, frames := 0, decoded := 0, size := none, waiting := none, coding := coding, codingSize := none, ended := 0, qpI := 30, qpP := 30, largest := 0,
                      start := 0, readyAt := 0, history := d }
  { s with video := { s.video with ctxs := sset none [] 3 (some x), decode := [(2, 3, 0), (0, 0, 0)], encode := [some 3, none] } }

theorem witness_VideoEncoding :
    (let s := withHbm encodeDesc (sess (inDev .ready State.reset))
     HbmSound s ∧ s.mem.sramRaw = [] ∧ (encCmd 0).length = 16 ∧ encodes s = true ∧ field (encCmd 0) 8 8 = 0 ∧ isMemory 0 64 = true ∧
       hread s 0 64 = encodeDesc ∧ evFault s encodeDesc = none ∧ evFault s (encodeDesc.set 5 0) = some 5 ∧ encodes (inDev .fault State.reset) = false) ∧
    SessionWrite (sess (inDev .ready State.reset)) 0 1 1 5 ∧ SessionWrite (sess (inDev .fault State.reset)) 0 1 1 5 ∧
    (let s := encoding (encodeDesc.set 1 2) none
     waitingClip s = none ∧ (s.video.decode.getD 0 (0, 0, 0)) = (2, 3, 0) ∧ (s.ctx 3).isSome = true ∧ s.now ≤ (5 : FTime)) ∧
    (let s := encoding (encodeDesc.set 1 2) none
     let s := { s with video := { s.video with decode := [(0, 0, 0), (0, 0, 0)] } }
     s.video.decode.getD 1 (0, 0, 0) = (0, 0, 0) ∧ 1 < s.video.decode.length ∧ (List.range 64).find? (wantsDecode s) = some 3 ∧ (s.ctx 3).isSome = true) :=
  ⟨by simp only [HbmSound]; decide +kernel, taken_in .ready (by decide), taken_in .fault (by decide), by decide +kernel, by decide +kernel⟩
/-- A frame that exceeds the capacity whatever its bits are. Whether it fits is not the model's to decide (log entry 7). -/
theorem witness_VideoEncoding_coding (b : List Byte) :
    let s := encoding (padTo 56 encodeDesc) (some ([], [], []))
    (s.video.encode.getD 0 none = some 3 ∧ ((s.ctx 3).map fun x => (x.coding, evCapacity x.desc)) = some (some ([], [], []), 0) ∧
      rgLand (padTo 56 encodeDesc) = false ∧ evOut (padTo 56 encodeDesc) + 64 ≤ 0x012000000000) ∧ 0 < 256 + 0 + b.length :=
  ⟨by decide +kernel, by omega⟩

/-- Descriptors of the region unit in the core-local memory of core 0: a DECODE, an NMS and a CROP of no boxes (Tables 10-2 to 10-4). -/
def cropDesc : List Byte :=
  padTo 64 (le 1 1 ++ le 1 3 ++ le 1 1 ++ le 1 0 ++ le 4 0 ++ le 8 0xF00000000040 ++ le 8 0xF00000000040 ++ le 8 0xF00000000040 ++ le 2 1 ++ le 2 1 ++
    le 2 1 ++ le 2 1 ++ le 2 1 ++ le 2 0 ++ le 4 0 ++ le 4 0 ++ le 4 0 ++ le 4 0x3F800000 ++ le 4 0)
theorem witness_RegionCommands :
    (let s := sess (inDev .run State.reset)
     (encCmd 0).length = 16 ∧ (s.region 0).length < 16 ∧ rgRefused s ((encCmd 0xF00000000000).set 0 3) cropDesc = false ∧
       rgRefused s ((encCmd 0xF00000000000).set 0 1) cropDesc = true) ∧
    SessionWrite (sess (inDev .run State.reset)) 0 1 1 5 ∧
    (let x : RegionCmd := { core := none, op := 3, desc := cropDesc, live := true }
     let s := running { idleCore with landing := 1 }
     let s := { s with regions := [(0, [x])] }
     s.region 0 = x :: [] ∧ HbmSound s ∧ s.mem.sramRaw = [] ∧ s.audit.held = [] ∧ rgLand x.desc = false ∧ rgLand (cropDesc.set 62 1) = true ∧
       s.isLanding 0 0 = true ∧ s.sem 0 0 + 1 < 2 ^ 32) ∧
    (Nat.testBit (field (cropDesc.set 2 1) 2 1) 0 = true ∧ flt (fieldF cropDesc 52) 0#32 = false ∧ flt (fieldF cropDesc 56) 0#32 = false) ∧
    cropDegenerate (0x40000000, 0, 0x3F800000, 0) = true := by
  simp only [HbmSound]
  refine ⟨by decide +kernel, taken_in .run (by decide), by decide +kernel, by decide +kernel, by decide +kernel⟩

/-! ### Memory protection -/

def zeros64 : List Byte := List.replicate 64 0
/-- Raw access open on unit 0 of HBM, on word 0 of the memory of core 0, and on word 1 of its wide buffer (R540). -/
def rawState (kind addr : Nat) : State := withEnts [(0x4600, 1, kind), (0x4600, 2, addr)] (sess (inDev .recovery State.reset))
/-- Unit 0 stored with these check bytes; SRAM word 0 of core 0 stored with its data bit 3 wrong. -/
def scrubbed (r : RawCode) : State :=
  let s := inDev .ready State.reset
  { s with ctl := { s.ctl with filled := true },
           mem := { s.mem with hbmRaw := sset none [] 0 (some r), sramRaw := sset none [] (sramKey 2 0 0) (some { data := le 8 8, check := [sramCheck 0] }) } }

theorem witness_RawAndScrubbing :
    (rawOpen (rawState 1 0) = true ∧ rawTarget (rawState 1 0) = some (1, 0) ∧ rawTarget (rawState 1 32) = none ∧ rawOpen (inDev .ready State.reset) = false ∧
      rawTarget (rawState 2 0xF00000000000) = some (2, sramKey 2 0 0) ∧ rawTarget (rawState 3 0xF00000800008) = some (3, sramKey 3 0 1) ∧
      (rawState 1 0).mem.rawList.length < 64 ∧ sget none (rawState 1 0).mem.hbmRaw 0 = none) ∧
    (let s := rawState 1 0
     let s := { s with mem := { s.mem with rawList := List.replicate 64 (2, 5) } }
     ((1, 0) : Nat × Nat) ∉ s.mem.rawList ∧ 64 ≤ s.mem.rawList.length) ∧
    (let s := rawState 1 0
     let s := { s with mem := { s.mem with hbmRaw := sset none [] 0 (some (poisonCode zeros64)) } }
     (∀ x ∈ s.mem.cache, x.bad = []) ∧ sget none s.mem.hbmRaw 0 = some (poisonCode zeros64)) ∧
    SessionWrite (sess (inDev .recovery State.reset)) 0 1 1 5 ∧ SessionWrite (sess (inDev .ready State.reset)) 0 1 1 5 :=
  ⟨by decide +kernel, by decide +kernel, by decide +kernel, taken_in .recovery (by decide), taken_in .ready (by decide)⟩

/-- The four results of a scrubber's read, an SRAM word corrected and rewritten, and a lap overdue. -/
theorem witness_RawAndScrubbing_scrub :
    (let r : RawCode := { data := zeros64, check := (hbmMeta zeros64 0).set 0 1 }
     scrubs (scrubbed r) = true ∧ locDie (.hbm 0) = 0 ∧ locValid (.hbm 0) = true ∧ sget none (scrubbed r).mem.hbmRaw 0 = some r ∧ (hbmDecode r).2 = .corrected) ∧
    (hbmDecode { data := zeros64, check := hbmMeta zeros64 0 }).2 = .clean ∧
    (hbmDecode { data := (zeros64.set 0 1).set 9 1, check := hbmMeta zeros64 0 }).2 = .bad false ∧
    (hbmDecode (poisonCode zeros64)).2 = .bad true ∧
    (let s := scrubbed (poisonCode zeros64)
     let loc := EccLoc.clm 0 0
     locKind loc ≠ 1 ∧ locValid loc = true ∧ (sget none s.mem.sramRaw (locKey loc)).map (fun r => (sramDecode (BitVec.ofNat 64 (ofLe r.data)) (r.check.getD 0 0)).2) =
       some .corrected) ∧
    (let s := scrubbed (poisonCode zeros64)
     let s := { s with mem := { s.mem with rewrites := [locKey (.clm 0 0)] } }
     locKey (.clm 0 0) ∈ s.mem.rewrites) ∧
    (let s := scrubbed (poisonCode zeros64)
     s.ent 0x4200 2 < (BitVec.ofNat 32 (s.ent 0x4200 2 + 1)).toNat ∧ 5 ∉ s.mem.overdue) := by decide +kernel

/-- Laps, a cached line with a word that does not decode, clean and dirty, and the other memories that a scrubber reads. -/
theorem witness_RawAndScrubbing_kinds :
    (let s := { scrubbed (poisonCode zeros64) with now := 9 }
     (0 : Nat) = lapElapsed { s with now := 9 } 0 ∧ s.now ≤ (9 : FTime) ∧ lapElapsed s 0 ≤ (BitVec.ofNat 32 (s.ent 0x4200 2 + 1)).toNat) ∧
    (∀ d : Bool, let s := scrubbed (poisonCode zeros64)
     let s := { s with mem := { s.mem with cache := [{ line := 0, dirty := d, bad := [3] }] } }
     scrubs s = true ∧ locDie (.cache 0 3) = 0 ∧ locValid (.cache 0 3) = true ∧
       s.mem.cache.find? (fun x => decide (x.line = 0)) = some { line := 0, dirty := d, bad := [3] } ∧ 3 ∈ [3]) ∧
    (∀ loc ∈ [EccLoc.acc 0 1, .store 0 1, .link 0 1, .front 1, .mgmt 1], locKind loc ≠ 1 ∧ locKind loc ≠ 5 ∧ locValid loc = true) ∧
    ([EccLoc.acc 0 1, .store 191 1, .link 1 1, .front 1, .mgmt 1].map locDie = [0, 3, 5, 6, 6]) := by decide +kernel

/-- R527's worked figures: data bits 0 and 1 wrong give s = 6 and p = 0, which is uncorrectable; data bit 10 stands at position 15. -/
theorem test_sram_word : sramDecode 3 0 = (3, .bad false) ∧ sramDecode (1#64 <<< 10) 0 = (0, .corrected) ∧ sramDecode 0 0x8F = (1#64 <<< 10, .corrected) ∧
    sramCheck 0 = 0 := by decide +kernel

theorem witness_SramWordCode :
    (sramCheck 0 = 0 ∧ (0 : Nat) = 0) ∧ (0 < 64 ∧ 63 < 64 ∧ (0 : Nat) ≠ 63) ∧ ((7 : Nat) < 8) := by decide +kernel
theorem witness_HbmUnitCode : zeros64.length = 64 ∧ (1 : Byte) ≠ 0 ∧ 0 < 64 ∧ 63 < 64 ∧ 0 < 4 ∧ 3 < 4 := by decide +kernel

/-- R177's example: local address 0x4A001000 of an interleaved region lies in stack 9 at share offset 103,456,768. -/
theorem test_address_map : stackOf State.reset 0x4A001000 = (9, 103456768) := by decide +kernel
theorem witness_HbmAddressMap :
    (0x011FFFFFFFC0 < 0x012000000000 ∧ 0x011FFFFFFFC0 % 64 = 0 ∧ State.reset.ent 0x4010 24 ≠ 1) ∧ (withEnts [(0x4010, 24, 1)] State.reset).ent 0x4010 24 = 1 := by
  decide +kernel

/-! ### Trust -/

theorem witness_Attestation :
    (SessionWrite (sess (inDev .ready State.reset)) 0 1 1 5 ∧ zeros64.length / 2 = 32 ∧ State.reset.trust.reportBody = none ∧ State.reset.trust.signing = 0 ∧
      State.reset.audit.unsigned = []) ∧
    (let s := { State.reset with trust := { State.reset.trust with reportBody := some [], signing := 2 } }
     s.trust.reportBody = some [] ∧ s.trust.signing = 2 ∧ s.trust.reportBody.isSome = true) ∧
    (let s := { State.reset with trust := { State.reset.trust with signing := 1 }, audit := { State.reset.audit with unsigned := [(0, [])] } }
     s.audit.unsigned = (0, []) :: [] ∧ s.trust.signing = 1) :=
  ⟨⟨taken_in .ready (by decide), rfl, rfl, rfl, rfl⟩, by decide +kernel, by decide +kernel⟩

/-- A session of slot 4, of class H. -/
def sessH (s : State) : State := s.setSession 4 (some openSession)
theorem taken_H : SessionWrite (sessH (inDev .ready State.reset)) 4 1 1 5 :=
  ⟨by decide +kernel, rfl, rfl, rfl, ⟨openSession, rfl, rfl, rfl, rfl, rfl⟩, rfl, by decide +kernel, rfl⟩

/-- Whether a token or an image is genuine is not the model's to decide (log entry 5); the rest is met. -/
theorem witness_OwnerAndFirmware :
    SessionWrite (sessH (inDev .ready State.reset)) 4 1 1 5 ∧ SessionWrite (sess (inDev .ready State.reset)) 0 1 1 5 ∧
    SessionWrite (sess (inDev .standby State.reset)) 0 1 1 5 ∧ SessionWrite (sess (inDev .run State.reset)) 0 1 1 5 ∧
    ((inDev .ready State.reset).ent 0x8130 7 ≠ 1 ∧ (withEnts [(0x8130, 7, 1)] State.reset).ent 0x8130 7 = 1 ∧ (inDev .run State.reset).ctl.dev ≠ .standby) ∧
    (let s := withEnts [(0x8140, 7, 2), (0x8200, 7, 0)] (inDev .ready State.reset)
     s.ent 0x8200 (s.ent 0x8140 7 + 5) ≠ 0xFF ∧ (withEnts [(0x8200, 7, 0xFF)] s).ent 0x8200 (s.ent 0x8140 7 + 5) = 0xFF) ∧
    (let s := withEnts [(0x8140, 5, 16800)] (inDev .ready State.reset)
     installs s = true ∧ s.trust.install = none ∧ s.ent 0x8140 5 = 16800 ∧ s.ent 0x8140 3 = 0 ∧ installs (inDev .run s) = false) ∧
    ((withEnts [(0x8140, 5, 16799)] State.reset).ent 0x8140 5 < 16800 ∧ (withEnts [(0x8140, 5, 16793953)] State.reset).ent 0x8140 5 > 16793952) ∧
    ((withEnts [(0x8140, 3, 64), (0x8140, 5, 16800)] (inDev .ready State.reset)).ent 0x8140 3 + 16800 ≤ 0x012000000000 ∧
      hbmInstalls (inDev .ready State.reset) = true ∧ hbmInstalls (inDev .fault State.reset) = false ∧ (64 : FTime) ≠ 0) ∧
    (let s := { State.reset with trust := { State.reset.trust with install := some (1, []), startSlots := [(1, some 1)] } }
     sget none State.reset.trust.startSlots 1 = none ∧ sget none s.trust.startSlots 1 = some 1) ∧
    (∀ active ∈ [0, 1, 0xFF], let s := { withEnts [(0x8200, 6, active)] State.reset with trust := { State.reset.trust with install := some (1, []) } }
     s.trust.install = some (1, []) ∧ s.ent 0x8200 6 = active ∧ imageFailure s [] 1 ≠ 0) :=
  ⟨taken_H, taken_in .ready (by decide), taken_in .standby (by decide), taken_in .run (by decide), by decide +kernel, by decide +kernel, by decide +kernel,
    by decide +kernel, by decide +kernel, by decide +kernel, by decide +kernel⟩

/-! ### Sessions, events and the log -/

/-- Whether a certificate chain is valid is not the model's to decide (log entry 5); a chain that is none never is. -/
theorem witness_Sessions :
    (let s := inDev .ready State.reset
     reachable s 0 = true ∧ reachable s 4 = true ∧ s.session 0 = none ∧ handshakeOk s 0x1302 0x0018 0x0805 [] = false ∧ handshakeOk s 0x1301 0x0018 0x0805 [[]] = false) ∧
    (let s := sess (inDev .ready State.reset)
     s.session 0 = some openSession ∧ openSession.lastRx.toNat + 300000000000 < 2 ^ 64 ∧ newer openSession.last 1 = true ∧
       (openSession.kept.find? fun k => decide (k.1 = 1)) = none ∧ openSession.dead = false ∧
       Nat.max (s.ent 0x1011 1 % 256) (1 : Byte).toNat ≤ Nat.min (s.ent 0x1011 1 / 256) (3 : Byte).toNat ∧
       Nat.min (s.ent 0x1011 1 / 256) (3 : Byte).toNat < Nat.max (s.ent 0x1011 1 % 256) (2 : Byte).toNat) ∧
    (let s := { State.reset with octs := sset none [] (ekey 0x8110 1) (some (List.replicate 48 0)) }
     ∀ k, 1 ≤ k → k ≤ 4 → allZero (s.oct 0x8110 k) = true) ∧ (le 4 0x00011000).length = 4 ∧
    (let s := (withEnts [(0x3200, 5, 3)] (sessH (linked (inDev .ready State.reset)))).setPort 47 { PortS.reset with adapter := true }
     freeTag s = some 0 ∧ openSession.sent = [] ∧ routePort s s.device 0xFFFF = some 47 ∧ (s.port 47).vcs.length = 6) ∧
    (let x : Session := { openSession with last := some 9, kept := [(9, some [1])] }
     (x.kept.find? fun k => decide (k.1 = 9)) = some (9, some [1]) ∧ (x.kept.find? fun k => decide (k.1 = 8)) = none ∧ newer x.last 8 = false ∧
       newer x.last (9 + 0x7FFFFFFF) = true ∧ newer x.last (9 + 0x80000000) = false) := by
  and_intros <;> decide +kernel

/-- Galena's memory clean, and with one word that does not decode (Table 18-3). -/
theorem witness_Sessions_memory :
    (∀ s : State, s.mem.sramRaw = [] → mgmtRead s = (s, false)) ∧ (sess (inDev .ready State.reset)).mem.sramRaw = [] ∧
    (let s := sess (inDev .ready State.reset)
     let s := { s with mem := { s.mem with sramRaw := sset none [] (sramKey 9 0 0) (some { data := le 8 3, check := [0] }) } }
     reachable s 0 = true ∧ s.session 0 = some openSession ∧ (mgmtRead s).2 = true) :=
  ⟨fun _ h => mgmtRead_clean h, rfl, by decide +kernel⟩

theorem witness_DictionaryReads :
    (let s := sess (inDev .ready State.reset)
     reachable s 0 = true ∧ s.session 0 = some openSession ∧ openSession.chosen = some 1 ∧ openSession.dead = false ∧ newer openSession.last 1 = true ∧
       (openSession.kept.find? fun k => decide (k.1 = 1)) = none ∧ entryOf (field (le 4 0x00019FFF) 0 2) (field (le 4 0x00019FFF) 2 1) = none ∧
       (entryOf (field (le 4 0x00011000) 0 2) (field (le 4 0x00011000) 2 1)).isSome = true ∧ (le 4 0x00011000).length = 4 ∧
       (entryOf (field (le 4 0x000A6200) 0 2) (field (le 4 0x000A6200) 2 1)).map EntryDef.acc = some .wo ∧ s.audit.held = []) ∧
    (let s := sess (inDev .ready State.reset)
     let s := { s with audit := { s.audit with held := [{ at_ := 5, rank := 0, what := .read 0 3 0 0x1000 1 }] } }
     s.audit.held ≠ []) ∧
    (([] : List Byte).length ≠ 6 ∧ ([] : List Byte).length ≠ 4 ∧ ([] : List Byte).length ≠ 8 + field [] 4 2 ∧ ([] : List Byte).length ≠ 12 ∧
      32 < field (le 4 0 ++ le 2 33) 4 2 ∧ ¬ (field (le 2 3 ++ le 10 1) 0 1 = 1 ∨ field (le 2 3 ++ le 10 1) 0 1 = 2)) ∧
    ((0 : W16).toNat < 1 ∧ 32 < (33 : W16).toNat ∧ 1 ≤ (32 : W16).toNat ∧ (32 : W16).toNat ≤ 32 ∧ 16 < (17 : W16).toNat ∧ (16 : W16).toNat ≤ 16 ∧
      1024 < (1025 : W16).toNat ∧ (1024 : W16).toNat ≤ 1024) ∧
    (let s := sess (inDev .ready State.reset)
     let s := { s with audit := { s.audit with made := 2, ring := [(0, [1]), (1, [2])], checkpoints := [(7, [])] } }
     s.audit.waiting.length < s.audit.made ∧ durable s.audit ≤ 1048576 ∧ (1 : W32).toNat ≤ durable s.audit - 1 ∧
       (s.audit.checkpoints.find? fun c => decide (c.1 = (7 : W32).toNat)) = some (7, []) ∧ (∀ c ∈ s.audit.checkpoints, c.1 ≠ (6 : W32).toNat) ∧
       (16671 : W32).toNat < 16672 ∧ 16672 ≤ (16672 : W32).toNat) := by decide +kernel

/-- An entry of a unit of the main side, unpowered and powered (R517). -/
theorem witness_DictionaryReads_main :
    (let s := sess (inDev .standby State.reset)
     let s := { s with ctl := { s.ctl with powered := false } }
     reachable s 0 = true ∧ s.session 0 = some openSession ∧ mainEntry 0x5120 1 = true ∧ (entryOf 0x5120 1).map EntryDef.acc = some .ro ∧ s.ctl.powered = false ∧
       s.mem.sramRaw = []) ∧
    mainEntry 0x1000 1 = false ∧ (inDev .ready State.reset).ctl.powered = true := by decide +kernel

theorem witness_EventsAndLog :
    (let r : EvRec := { code := 0x5501, device := 0, time := 0, detail := [] }
     let s := inDev .ready State.reset
     let s := { s with ev := { s.ev with raised := [r], ring := List.replicate 4096 r } }
     s.ctl.dev ≠ .off ∧ s.ctl.galenaHeld = false ∧ s.ev.raised = r :: [] ∧ s.ev.ring.length = 4096 ∧
       ({ openSession with mask := 0x20 } : Session).mask.getLsbD (r.code.toNat / 4096) = true ∧ openSession.mask.getLsbD (r.code.toNat / 4096) = false ∧
       openSession.chosen.isSome = true ∧ openSession.dead = false ∧ reachable s 0 = true) ∧
    (let a := Answer.fdp 0 3 1 0
     let s := sess (inDev .ready State.reset)
     let s := { s with audit := { s.audit with made := 1, waiting := [(zeros64, a)] } }
     s.audit.waiting = (zeros64, a) :: [] ∧ ([] : List (List Byte × Answer)).length < s.audit.made ∧ s.audit.held = [] ∧
       s.session 0 = some openSession ∧ openSession.sid = 3) ∧
    (let s := sess (inDev .ready State.reset)
     let s := { s with audit := { s.audit with failed := true } }
     s.audit.failed = true ∧ s.audit.held = [] ∧ s.now ≤ (5 : FTime) ∧ reachable s 0 = true ∧ s.session 0 = some openSession ∧ overtaken { s with now := 5 } (slotRank 0) = false ∧
       s.mem.sramRaw = []) := by decide +kernel

/-! ### The machine as a whole -/

theorem witness_StepRunsFront :
    { State.reset with pending := [Instr.eventRecord, .railsReady] }.pending = .eventRecord :: [Instr.railsReady] ∧ State.reset.pending = [] := by decide +kernel
theorem witness_QueueKept : exec .eventRecord State.reset = .next State.reset := by rfl
theorem witness_CommandsComplete :
    (Instr.powerApplied 64000).wf = true ∧ (∀ mv ∈ [(64000 : Int), -60000], -60000 ≤ mv ∧ mv ≤ 64000) ∧ 64000 < 64001 ∧ (-60001 : Int) < -60000 ∧ (Instr.cdiv 0 1 2 0).wf = false ∧
      (Instr.cdiv 0 1 2 1).wf = true := by decide +kernel
theorem witness_AuditChainKept :
    AuditChained (inDev .ready State.reset).audit ∧ step (inDev .ready State.reset) = .next (inDev .ready State.reset) :=
  ⟨⟨Nat.zero_le _, by decide +kernel, fun _ h => absurd h (Nat.not_lt_zero _)⟩, rfl⟩

/-! ### Worked examples of the manual, and ill-formed commands -/

/-- The example of chapter 0: FT 1,000,200,000 in memory order; course 217, position 9. -/
theorem test_ftime : le 8 1000200000 = [0x40, 0xD7, 0x9D, 0x3B, 0, 0, 0, 0] ∧ 217 * 32 + 9 = 0x1B29 ∧ courseOf 0x1B29 = 217 ∧ positionOf 0x1B29 = 9 := by decide +kernel
/-- The example of chapter 19: port 12 of position 9 leads to position 22. -/
theorem test_mesh_peer : meshPeer (withEnts [(0x3200, 4, 0x1B29)] State.reset) 12 = 22 ∧ meshPort (withEnts [(0x3200, 4, 0x1B20)] State.reset) 9 = 8 := by decide +kernel
/-- Table 5-1: the landing count by bytes committed, of 96,000. -/
theorem test_landing_units : [0, 208, 448, 688, 928, 96000].map (landUnits 96000) = [0, 3, 7, 10, 14, 1500] := by decide +kernel
/-- The example of chapter 7: 118.7, 0.0009 and 0.0002 at scale 0.25, and 118.7 at scale 0.5, in E4M3. -/
theorem test_e4m3 :
    (narrow .e4m3 .rne ((ofF32 0x42ED6666).mul (.fin false 1 2))).1 = 0x7E ∧ (narrow .e4m3 .rne ((ofF32 0x3A6BEDFA).mul (.fin false 1 2))).1 = 0x02 ∧
      (narrow .e4m3 .rne ((ofF32 0x3951B717).mul (.fin false 1 2))).1 = 0x00 ∧ (narrow .e4m3 .rne ((ofF32 0x42ED6666).mul (.fin false 1 1))).1 = 0x77 := by decide +kernel
/-- Table 7-9: E(118.7) = −1, E(9.3) = −5, E(40) = −3, and the three promotions with margin 1. -/
theorem test_promotion :
    [0x42ED6666, 0x4114CCCD, 0x42200000].map (expOfAmax 4) = [-1, -5, -3] ∧
      promote 4 1 { scale := 0, amax := 0x42ED6666, tag := 0, overflow := true } (-2) = -1 ∧ promote 4 1 { scale := 0, amax := 0x4114CCCD, tag := 0, overflow := false } 0 = -1 ∧
      promote 4 1 { scale := 0, amax := 0x42200000, tag := 0, overflow := false } (-3) = -3 := by decide +kernel
/-- The example of chapter 17: W_r is 75,000 ns at 40 W/µs and 300,000 ns at 10 W/µs. -/
theorem test_ramp_window : rampWindow State.reset = 75000 ∧ rampWindow (withEnts [(0x2200, 1, 10)] State.reset) = 300000 := by decide +kernel
/-- The response of the example of chapter 15: sequence 1,234,567 to request 263. -/
theorem test_response : message 1 3 1 0 263 (le 4 1234567) = [1, 3, 1, 0, 7, 1, 0, 0, 4, 0, 0, 0, 0x87, 0xD6, 0x12, 0] := by decide +kernel

/-- The port of Table 2-10: slot 1 of 1,250 frets with stream 212, in force at FT 1,410,200,000; no flit of repetition 38 was sent. -/
def lateExample : State :=
  let f (k n : Nat) : W32 := BitVec.ofNat 32 (k * 2 ^ 30 + n * 2 ^ 16)
  let set := List.replicate 40 (f 0 0) ++ List.replicate 128 (f 1 212) ++ List.replicate 8 (f 2 212) ++ List.replicate 1074 (f 0 0)
  let s := (collecting [1 + 212 * 2 ^ 8 + 3 * 2 ^ 22 + 1 * 2 ^ 64 + 1535984 * 2 ^ 96, buffer, syncEntry 1] idleCore).modPort 3 fun x =>
    { x with inForce := some (1, 1410200000) }
  { s with run := { s.run with sets := sset [] [] 13 set }, now := 1416280000 }
theorem test_late : (after (exec (.lateTransfer 3 212) lateExample)).now = 1416286272 := by decide +kernel

/-- The six boxes and scores of the example of chapter 10, and its NMS descriptor (θ = 0.5, threshold 0.5, top-k 3). -/
def nmsState : State :=
  let f := [0x41200000, 0x41200000, 0x41F00000, 0x41F00000, 0x41400000, 0x41400000, 0x42000000, 0x42000000, 0x42480000, 0x42480000, 0x428C0000, 0x428C0000,
    0x41300000, 0x41200000, 0x41F80000, 0x41F00000, 0x42C80000, 0x42C80000, 0x42C80000, 0x42C80000, 0x42700000, 0x42700000, 0x42A00000, 0x42A00000,
    0x3F666666, 0x3F4CCCCD, 0x3F4CCCCD, 0x3F733333, 0x3F333333, 0x7FC00000]
  running { idleCore with clm := swrite 0 [] 0 (f.flatMap (le 4)) }
def nmsDesc : List Byte :=
  padTo 64 (le 1 1 ++ le 3 0 ++ le 4 6 ++ le 8 0xF00000000000 ++ le 8 0xF00000000060 ++ le 8 0 ++ le 4 0x3F000000 ++ le 4 0x3F000000 ++ le 4 3)
theorem test_nms : (nmsOrder nmsState nmsDesc).map Prod.fst = [3, 0, 1, 2, 4] ∧ (nmsKept nmsDesc (nmsOrder nmsState nmsDesc)).map Prod.fst = [3, 2, 4] := by decide +kernel
/-- The example of chapter 10: bin (0, 0) of box (50, 20, 64, 34) samples x at 50.25 and 50.75. -/
theorem test_crop_coord : cropCoord 0x42480000 0x3F800000 0 0 2 = 0x42490000 ∧ cropCoord 0x42480000 0x3F800000 0 1 2 = 0x424B0000 := by decide +kernel

def plainF : RFuncF :=
  { srcAcc := false, dstAcc := false, accTiled := false, fromPass := false, src := 0, dst := 0, len := 0, rows := 0, p := 0, pad := 0, post := none, param := 0, outFmt := 1 }
/-- Operands that R120 refuses: CDIV by 0 and above 2^31, TAKE of none and above 65,536, an output format or function code that is reserved, a CAST of a
reserved format. -/
theorem test_ill_formed :
    (Instr.cdiv 0 1 2 0).wf = false ∧ (Instr.cdiv 0 1 2 0x80000001#32).wf = false ∧ (Instr.take 0 1 2 0).wf = false ∧ (Instr.take 0 1 2 65537).wf = false ∧
      (Instr.add 0 plainF).wf = true ∧ (Instr.add 0 { plainF with outFmt := 3 }).wf = false ∧ (Instr.act 0 { plainF with param := 0x0B }).wf = false ∧
      (Instr.cast 0 { plainF with param := 7 }).wf = false ∧ exec (.cdiv 0 1 2 0) State.reset = .refused .illFormed := by
  refine ⟨?_, ?_, ?_, ?_, ?_, ?_, ?_, ?_, rfl⟩ <;> decide +kernel
/-- Each check of WellFormed refuses an ill-formed row function. -/
theorem test_ill_formed_rows :
    ∀ i ∈ [Instr.mul 0 { plainF with outFmt := 3 }, .scale 0 { plainF with outFmt := 3 }, .min 0 { plainF with outFmt := 3 }, .max 0 { plainF with outFmt := 3 },
      .exp 0 { plainF with outFmt := 3 }, .log 0 { plainF with outFmt := 3 }, .recip 0 { plainF with outFmt := 3 }, .rsqrt 0 { plainF with outFmt := 3 },
      .div 0 { plainF with outFmt := 3 }, .actd 0 { plainF with outFmt := 3 }, .rowmax 0 { plainF with outFmt := 3 }, .rowsum 0 { plainF with outFmt := 3 },
      .poolRowmax 0 { plainF with outFmt := 3 }, .poolRowsum 0 { plainF with outFmt := 3 }, .softmax 0 { plainF with outFmt := 3 }, .softmaxd 0 { plainF with outFmt := 3 },
      .stats 0 { plainF with outFmt := 3 }, .output 0 { plainF with outFmt := 3 }, .delta 0 { plainF with outFmt := 3 }, .grad 0 { plainF with outFmt := 3 },
      .lnorm 0 { plainF with outFmt := 3 }, .rmsnorm 0 { plainF with outFmt := 3 }], i.wf = false := by decide +kernel

end Sys2Proof.Tests
end

section
/-!
SUPPORT. Numbers in runs of bytes: what a field reads of the bytes that `le` wrote, of a run that others precede or follow, and of a padded run.
-/
namespace Sys2Proof.Machine

@[simp] theorem length_le (n v : Nat) : (le n v).length = n := by
  induction n generalizing v with
  | zero => rfl
  | succ n ih => simp [le, ih]

theorem ofLe_le (n v : Nat) : ofLe (le n v) = v % 256 ^ n := by
  induction n generalizing v with
  | zero => simp [le, ofLe, Nat.mod_one]
  | succ n ih =>
    rw [le, ofLe, ih, BitVec.toNat_ofNat, show 256 ^ (n + 1) = 256 * 256 ^ n from Nat.pow_succ']
    exact (Nat.mod_mul (x := v) (a := 256) (b := 256 ^ n)).symm

@[simp] theorem length_padTo (n : Nat) (b : List Byte) : (padTo n b).length = n := by
  simp only [padTo, List.length_append, List.length_take, List.length_replicate]
  omega

theorem padTo_of_length {n : Nat} {b : List Byte} (h : b.length = n) : padTo n b = b := by
  subst h
  simp [padTo]

theorem getD_padTo (n i : Nat) (b : List Byte) : (padTo n b).getD i 0 = if i < n then b.getD i 0 else 0 := by
  simp only [padTo, List.getD_eq_getElem?_getD, List.getElem?_append, List.length_take, List.getElem?_take, List.getElem?_replicate]
  by_cases hn : i < n
  · by_cases hb : i < b.length
    · simp [hn, hb]
    · simp only [hn, show ¬ i < min n b.length by omega, if_false, if_true, List.getElem?_eq_none (Nat.le_of_not_lt hb)]
      split <;> rfl
  · simp only [hn, show ¬ i < min n b.length by omega, if_false]
    split <;> rfl

theorem padTo_eq_map (n : Nat) (b : List Byte) : padTo n b = (List.range n).map fun i => b.getD i 0 := by
  apply List.ext_getElem (by simp)
  intro i h _
  have hi : i < n := by simpa using h
  have := getD_padTo n i b
  rw [if_pos hi, List.getD_eq_getElem _ _ h] at this
  simpa using this

/-- A field is made of the bytes at its places, and bytes beyond the run are zero. -/
theorem field_eq (b : List Byte) (o n : Nat) : field b o n = ofLe ((List.range n).map fun i => b.getD (o + i) 0) := by
  unfold field
  rw [padTo_eq_map]
  congr 1
  apply List.map_congr_left
  intro i hi
  simp [slice, List.getD_eq_getElem?_getD, List.mem_range.1 hi]

theorem field_congr {b c : List Byte} {o p n : Nat} (h : ∀ i, i < n → b.getD (o + i) 0 = c.getD (p + i) 0) : field b o n = field c p n := by
  rw [field_eq, field_eq]
  congr 1
  exact List.map_congr_left fun i hi => h i (List.mem_range.1 hi)

theorem field_le_append (n v : Nat) (b : List Byte) : field (le n v ++ b) 0 n = v % 256 ^ n := by
  rw [← ofLe_le, field, slice, List.drop_zero, List.take_append_of_le_length (by simp), List.take_of_length_le (by simp), padTo_of_length (by simp)]

theorem field_append_of_le {a : List Byte} {o : Nat} (h : a.length ≤ o) (b : List Byte) (n : Nat) : field (a ++ b) o n = field b (o - a.length) n := by
  refine field_congr fun i _ => ?_
  rw [List.getD_eq_getElem?_getD, List.getElem?_append_right (by omega), List.getD_eq_getElem?_getD]
  congr 2
  omega

theorem field_append_of_lt {a : List Byte} {o n : Nat} (h : o + n ≤ a.length) (b : List Byte) : field (a ++ b) o n = field a o n := by
  refine field_congr fun i hi => ?_
  rw [List.getD_eq_getElem?_getD, List.getElem?_append_left (by omega), List.getD_eq_getElem?_getD]

theorem field_padTo {m o n : Nat} (h : o + n ≤ m) (b : List Byte) : field (padTo m b) o n = field b o n :=
  field_congr fun i hi => by rw [getD_padTo, if_pos (by omega)]

/-- Rows of w bytes each: dropping k rows leaves the others. -/
theorem drop_flatMap_of_length {α : Type} (g : α → List Byte) {w : Nat} (hw : ∀ x, (g x).length = w) (l : List α) (k : Nat) :
    (l.flatMap g).drop (w * k) = (l.drop k).flatMap g := by
  induction k generalizing l with
  | zero => rfl
  | succ k ih =>
    cases l with
    | nil => simp
    | cons x l =>
      rw [List.flatMap_cons, Nat.mul_succ, Nat.add_comm, ← List.drop_drop, ← hw x, List.drop_left, hw x, ih, List.drop_succ_cons]

/-- A field of row k of rows of w bytes. -/
theorem field_flatMap_range {w m k o n : Nat} (g : Nat → List Byte) (hw : ∀ x, (g x).length = w) (hk : k < m) (ho : o + n ≤ w) :
    field ((List.range m).flatMap g) (w * k + o) n = field (g k) o n := by
  have hr : (List.range m).drop k = k :: (List.range m).drop (k + 1) := by
    rw [List.drop_eq_getElem_cons (by simpa using hk), List.getElem_range]
  have hd := drop_flatMap_of_length g hw (List.range m) k
  rw [hr, List.flatMap_cons] at hd
  calc field ((List.range m).flatMap g) (w * k + o) n
      = field (((List.range m).flatMap g).drop (w * k)) o n := field_congr fun i _ => by simp [List.getD_eq_getElem?_getD, Nat.add_assoc]
    _ = field (g k) o n := by rw [hd, field_append_of_lt (by rw [hw]; exact ho)]

end Sys2Proof.Machine
end

section
/-!
SUPPORT. The layout of a flit (R379, R380): the fields of the header lie side by side, and the 256 bytes give the flit back.
-/
namespace Sys2Proof.Machine

/-- Bits 95 to 37 of the header, which a SCHED flit lays out as Table 13-3 says and any other as Table 13-2 does. -/
def upperHeader (f : Flit) : Nat :=
  if f.kind = 1 then f.stream.toNat + f.index.toNat * 2 ^ 14 + f.rep.toNat * 2 ^ 32
  else f.dst.toNat + f.src.toNat * 2 ^ 16 + f.tag.toNat * 2 ^ 32 + f.index.toNat % 2 ^ 15 * 2 ^ 44

theorem upperHeader_lt (f : Flit) : upperHeader f < 2 ^ 59 := by
  have := f.dst.isLt
  have := f.src.isLt
  have := f.tag.isLt
  have := f.index.isLt
  have := f.stream.isLt
  have := f.rep.isLt
  unfold upperHeader
  split <;> omega

theorem headerOfFlit_lt (f : Flit) : headerOfFlit f < 2 ^ 96 := by
  have := f.kind.isLt
  have := f.vc.isLt
  have := f.seq.isLt
  have := f.ack.isLt
  have := f.creditVc.isLt
  have := f.credits.isLt
  have hu := upperHeader_lt f
  unfold headerOfFlit
  change _ + upperHeader f * 2 ^ 37 < _
  split <;> omega

/-- The fields that every flit has, and what lies above them. -/
theorem bits_headerOfFlit (f : Flit) :
    bits (headerOfFlit f) 3 0 = f.kind.toNat ∧ bits (headerOfFlit f) 6 4 = f.vc.toNat ∧ headerOfFlit f / 2 ^ 7 % 2 = f.last.toNat ∧
      bits (headerOfFlit f) 18 8 = f.seq.toNat ∧ bits (headerOfFlit f) 29 19 = f.ack.toNat ∧ bits (headerOfFlit f) 32 30 = f.creditVc.toNat ∧
      bits (headerOfFlit f) 36 33 = f.credits.toNat ∧ headerOfFlit f / 2 ^ 37 = upperHeader f := by
  have := f.kind.isLt
  have := f.vc.isLt
  have := f.seq.isLt
  have := f.ack.isLt
  have := f.creditVc.isLt
  have := f.credits.isLt
  have := f.last.toNat_lt
  have hl : (if f.last then 2 ^ 7 else 0) = f.last.toNat * 2 ^ 7 := by cases f.last <;> rfl
  unfold headerOfFlit bits
  rw [hl, ← upperHeader]
  refine ⟨?_, ?_, ?_, ?_, ?_, ?_, ?_, ?_⟩ <;> omega

theorem testBit_headerOfFlit (f : Flit) : (headerOfFlit f).testBit 7 = f.last := by
  obtain ⟨-, -, hl, -⟩ := bits_headerOfFlit f
  rw [Nat.testBit_eq_decide_div_mod_eq, hl]
  cases f.last <;> rfl

/-- The fields of a SCHED flit (Table 13-3). -/
theorem bits_headerOfFlit_sched {f : Flit} (h : f.kind = 1) :
    bits (headerOfFlit f) 50 37 = f.stream.toNat ∧ bits (headerOfFlit f) 68 51 = f.index.toNat ∧ bits (headerOfFlit f) 84 69 = f.rep.toNat := by
  obtain ⟨-, -, -, -, -, -, -, hu⟩ := bits_headerOfFlit f
  have := f.index.isLt
  have := f.stream.isLt
  have := f.rep.isLt
  unfold upperHeader at hu
  rw [if_pos h] at hu
  unfold bits
  refine ⟨?_, ?_, ?_⟩ <;> omega

/-- The fields of any other flit (Table 13-2). -/
theorem bits_headerOfFlit_open {f : Flit} (h : f.kind ≠ 1) :
    bits (headerOfFlit f) 52 37 = f.dst.toNat ∧ bits (headerOfFlit f) 68 53 = f.src.toNat ∧ bits (headerOfFlit f) 80 69 = f.tag.toNat ∧
      bits (headerOfFlit f) 95 81 = f.index.toNat % 2 ^ 15 := by
  obtain ⟨-, -, -, -, -, -, -, hu⟩ := bits_headerOfFlit f
  have := f.dst.isLt
  have := f.src.isLt
  have := f.tag.isLt
  unfold upperHeader at hu
  rw [if_neg h] at hu
  unfold bits
  refine ⟨?_, ?_, ?_, ?_⟩ <;> omega

theorem length_wireOf (f : Flit) : (wireOf f).length = 256 := by simp [wireOf]

theorem field_wireOf_header (f : Flit) : field (wireOf f) 0 12 = headerOfFlit f := by
  unfold wireOf
  rw [List.append_assoc, field_le_append, show 256 ^ 12 = 2 ^ 96 from rfl, Nat.mod_eq_of_lt (headerOfFlit_lt f)]

theorem slice_wireOf_payload (f : Flit) : slice (wireOf f) 12 240 = padTo 240 f.payload := by
  unfold wireOf slice
  rw [List.append_assoc, List.drop_left' (by simp), List.take_left' (by simp)]

/-- The bytes of a flit give back every field: those that its kind has, with a payload of 240 bytes. -/
theorem flitOf_wireOf {f : Flit} (hp : f.payload.length = 240) (hs : f.kind = 1 → f.dst = 0 ∧ f.src = 0 ∧ f.tag = 0)
    (ho : f.kind ≠ 1 → f.index.toNat < 2 ^ 15 ∧ f.stream = 0 ∧ f.rep = 0) : flitOf (wireOf f) = f := by
  obtain ⟨hk, hv, -, hq, ha, hc, hn, -⟩ := bits_headerOfFlit f
  have hkind : decide (f.kind.toNat = 1) = decide (f.kind = 1) := by
    rw [decide_eq_decide]
    exact ⟨fun h => BitVec.eq_of_toNat_eq h, fun h => by rw [h]; rfl⟩
  unfold flitOf
  rw [field_wireOf_header, slice_wireOf_payload, padTo_of_length hp]
  simp only [hk, hv, hq, ha, hc, hn, hkind, testBit_headerOfFlit, BitVec.ofNat_toNat, BitVec.setWidth_eq]
  by_cases h1 : f.kind = 1
  · obtain ⟨hst, hi, hr⟩ := bits_headerOfFlit_sched h1
    obtain ⟨hd, hsr, ht⟩ := hs h1
    simp only [h1, hst, hi, hr, decide_true, if_true, BitVec.ofNat_toNat, BitVec.setWidth_eq]
    cases f
    dsimp only at h1 hd hsr ht ⊢
    rw [h1, hd, hsr, ht]
  · obtain ⟨hd, hsr, ht, hi⟩ := bits_headerOfFlit_open h1
    obtain ⟨hlt, hst, hr⟩ := ho h1
    simp only [h1, hd, hsr, ht, hi, Nat.mod_eq_of_lt hlt, decide_false, Bool.false_eq_true, if_false, BitVec.ofNat_toNat, BitVec.setWidth_eq]
    cases f
    dsimp only at hst hr ⊢
    rw [hst, hr]

/-- The first byte carries the kind, and the last four the CRC of the others. -/
theorem goodWindow_wireOf {f : Flit} (h : f.kind.toNat < 0xE) : goodWindow (wireOf f) = true := by
  have hlen : (le 12 (headerOfFlit f) ++ padTo 240 f.payload).length = 252 := by simp
  have hcrc : field (wireOf f) 252 4 = (crc32 ((wireOf f).take 252)).toNat := by
    unfold wireOf
    dsimp only
    rw [field_append_of_le (by rw [hlen]), hlen, List.take_left' hlen, ← List.append_nil (le 4 _), field_le_append]
    exact Nat.mod_eq_of_lt (BitVec.isLt _)
  have hkind : bits (field (wireOf f) 0 1) 3 0 = f.kind.toNat := by
    obtain ⟨hk, -⟩ := bits_headerOfFlit f
    rw [← hk]
    unfold wireOf bits
    rw [le, List.append_assoc, List.cons_append, field_eq]
    simp [ofLe]
  simp [goodWindow, length_wireOf, hcrc, hkind, h]

end Sys2Proof.Machine
end

section
/-!
SUPPORT. What accesses to stored data leave alone: the links, the units of fabric time, the control state and the clock.
-/
namespace Sys2Proof.Machine

/-- What no access to stored data touches. -/
def besideMemory (s : State) : Links × TimeS × Ctl × FTime := (s.links, s.time, s.ctl, s.now)

theorem besideMemory_inj {s t : State} (h : besideMemory s = besideMemory t) : s.links = t.links ∧ s.time = t.time ∧ s.ctl = t.ctl ∧ s.now = t.now := by
  simpa [besideMemory] using h

section
variable (s : State)

@[simp] theorem setEnt_besideMemory (i j v : Nat) : besideMemory (s.setEnt i j v) = besideMemory s := rfl
@[simp] theorem addEnt_besideMemory (i j n : Nat) : besideMemory (s.addEnt i j n) = besideMemory s := rfl
@[simp] theorem setUnit_besideMemory (u : Nat) (r : Option RawCode) : besideMemory (s.setUnit u r) = besideMemory s := rfl
@[simp] theorem setSramWord_besideMemory (k : Nat) (r : Option RawCode) : besideMemory (s.setSramWord k r) = besideMemory s := rfl
@[simp] theorem setPageSlot_besideMemory (k : Nat) (x : PageSlot) : besideMemory (s.setPageSlot k x) = besideMemory s := rfl
@[simp] theorem noteGranules_besideMemory (free pending : Int) : besideMemory (noteGranules s free pending) = besideMemory s := rfl
@[simp] theorem setCache_besideMemory (l : List CacheLine) : besideMemory (s.setCache l) = besideMemory s := rfl

@[simp] theorem noteCorrected_besideMemory (kind unit addr : Nat) : besideMemory (noteCorrected s kind unit addr) = besideMemory s := by
  unfold noteCorrected
  dsimp only
  split <;> split <;> rfl

@[simp] theorem addCandidate_besideMemory (kind origin unit key : Nat) : besideMemory (addCandidate s kind origin unit key) = besideMemory s := by
  unfold addCandidate
  split
  · rfl
  · split <;> rfl

@[simp] theorem noteBad_besideMemory (kind cause unit addr : Nat) : besideMemory (noteBad s kind cause unit addr) = besideMemory s := by
  unfold noteBad
  dsimp only
  split <;> split <;> simp [besideMemory]

theorem mergeUnit_besideMemory (a n : Nat) (u : Nat × Option RawCode) : besideMemory (mergeUnit a n s u) = besideMemory s := by
  unfold mergeUnit
  dsimp only
  split
  · rfl
  · split
    · rfl
    · split
      · rfl
      · split <;> simp

theorem hwrite_besideMemory (a : Nat) (b : List Byte) : besideMemory (hwrite s a b) = besideMemory s := by
  unfold hwrite
  split
  · rfl
  · exact foldl_keeps _ besideMemory (mergeUnit_besideMemory · a b.length) _ (hput s a b)

theorem mergeChecked_besideMemory (kind c first n : Nat) (u : Nat × Option RawCode) : besideMemory (mergeChecked kind c first n s u) = besideMemory s := by
  unfold mergeChecked
  dsimp only
  split
  · rfl
  · split
    · rfl
    · split
      · rfl
      · split <;> simp

@[simp] theorem touchSram_besideMemory (kind c first n : Nat) : besideMemory (touchSram s kind c first n) = besideMemory s := by
  unfold touchSram
  split
  · rfl
  · exact foldl_keeps _ besideMemory (mergeChecked_besideMemory · kind c first n) _ s

theorem sramReadCheck_besideMemory (kind c first n : Nat) : besideMemory (sramReadCheck s kind c first n).1 = besideMemory s := by
  unfold sramReadCheck
  refine foldl_keeps_fst _ besideMemory (fun t u => ?_) _ (s, false)
  dsimp only
  split
  · rfl
  · split
    · rfl
    · split
      · rfl
      · exact noteCorrected_besideMemory ..
      · simp

theorem hcheck_besideMemory (a n : Nat) : besideMemory (hcheck s a n).1 = besideMemory s := by
  unfold hcheck
  refine foldl_keeps_fst _ besideMemory (fun t u => ?_) _ (s, false)
  dsimp only
  split
  · rfl
  · split
    · rfl
    · split
      · rfl
      · simp
      · split <;> simp

theorem writeBack_besideMemory (x : CacheLine) : besideMemory (writeBack s x) = besideMemory s := by
  unfold writeBack
  split
  · exact foldl_keeps (fun (t : State) w => t.setUnit (4 * x.line + w / 8) (some (poisonCode (hread t (localOf t (4 * x.line + w / 8)) 64))))
      besideMemory (fun _ _ => rfl) _ _
  · rfl

theorem makeRoom_besideMemory (l : Nat) : besideMemory (makeRoom s l) = besideMemory s := by
  unfold makeRoom
  dsimp only
  split
  · rfl
  · split
    · exact writeBack_besideMemory ..
    · rfl

theorem countLookup_besideMemory (d : Nat) (hit : Bool) : besideMemory (countLookup s d hit) = besideMemory s := by cases hit <;> rfl

theorem useLine_besideMemory (x : CacheLine) (a o n : Nat) (w : Bool) : besideMemory (useLine s x a o n w).2 = besideMemory s := by
  unfold useLine
  extract_lets left
  split
  · dsimp only
    split
    · exact writeBack_besideMemory ..
    · exact noteCorrected_besideMemory ..
  · rfl

theorem lookup_besideMemory (a n : Nat) (write alloc : Bool) : besideMemory (lookup s a n write alloc) = besideMemory s := by
  unfold lookup
  dsimp only
  split
  · rw [setCache_besideMemory, useLine_besideMemory, countLookup_besideMemory]
  · split
    · rw [setCache_besideMemory, makeRoom_besideMemory, countLookup_besideMemory]
    · rw [countLookup_besideMemory]

theorem lookups_besideMemory (a n : Nat) (write alloc : Bool) : besideMemory (lookups s a n write alloc) = besideMemory s := by
  unfold lookups accesses
  split
  · rfl
  · exact foldl_keeps _ besideMemory (fun _ _ => lookup_besideMemory ..) _ _

theorem pageWrite_besideMemory (a n v : Nat) : besideMemory (pageWrite s a n v) = besideMemory s := by
  rw [pageWrite, hwrite_besideMemory, hcheck_besideMemory, lookups_besideMemory]

/-- A gather that lets a page go writes page entries and records only. -/
theorem releasePage_besideMemory (a : Nat) : besideMemory (releasePage s a) = besideMemory s := by
  have hset (t : State) (n g v : Nat) : besideMemory (setRecords t n g v) = besideMemory t :=
    foldl_keeps _ besideMemory (fun _ _ => pageWrite_besideMemory ..) _ _
  have hclose (t : State) (k : Nat) : besideMemory (closeIfDone t k) = besideMemory t := by
    unfold closeIfDone
    dsimp only
    split <;> rfl
  unfold releasePage
  dsimp only
  split
  · rw [hclose, setPageSlot_besideMemory, noteGranules_besideMemory, hset, pageWrite_besideMemory]
  · exact pageWrite_besideMemory ..

theorem touchPass_besideMemory (c : Nat) (p : Pass) : besideMemory (touchPass c s p) = besideMemory s := by
  unfold touchPass
  dsimp only
  rw [foldl_keeps _ besideMemory (fun _ _ => touchSram_besideMemory ..), foldl_keeps _ besideMemory (fun _ _ => touchSram_besideMemory ..)]

end

/-- What the read-check of a replayed flit leaves alone. -/
theorem replayCheck_besideMemory (s : State) (p : Nat) : besideMemory (replayCheck s p).1 = besideMemory s := by
  unfold replayCheck
  dsimp only
  split
  · rfl
  · split
    · exact sramReadCheck_besideMemory ..
    · rfl

end Sys2Proof.Machine
end

section
/-!
SUPPORT. A run that is aborted, and a SCHED flit that leaves, keep every port's next expected sequence number (R383).
-/
namespace Sys2Proof.Machine

theorem port_of_links {s t : State} (h : s.links.ports = t.links.ports) (p : Nat) : s.port p = t.port p := by
  simp only [State.port, h]

theorem modPort_rxSeq {f : PortS → PortS} (h : ∀ x, (f x).rxSeq = x.rxSeq) (s : State) (q p : Nat) : ((s.modPort q f).port p).rxSeq = (s.port p).rxSeq := by
  rw [State.port_modPort]
  split
  · rename_i e
    rw [h, e]
  · rfl

theorem floodAbort_rxSeq (s : State) (orig reason raise step : Nat) (except : Option Nat) (p : Nat) :
    ((floodAbort s orig reason raise step except).port p).rxSeq = (s.port p).rxSeq := by
  refine foldl_keeps _ (fun t => (t.port p).rxSeq) (fun t q => ?_) _ s
  split
  · exact modPort_rxSeq (by intro; rfl) t q p
  · rfl

theorem haltCores_ports (s : State) : (haltCores s).links.ports = s.links.ports := by
  have h (t : State) (c : Nat × CoreS) : besideMemory (touchLeft (releaseMoves t c.2) c) = besideMemory t := by
    unfold touchLeft releaseMoves
    rw [foldl_keeps _ besideMemory (fun _ _ => touchPass_besideMemory ..), foldl_keeps _ besideMemory releasePage_besideMemory]
  obtain ⟨hl, -⟩ := besideMemory_inj (foldl_keeps _ besideMemory h s.cores s)
  have hp := congrArg Links.ports hl
  exact hp

theorem foldl_setEnt_links (i : Nat) (g : Nat → Nat) (v : State → Nat → Nat) (l : List Nat) (s : State) :
    (l.foldl (fun t d => t.setEnt i (g d) (v t d)) s).links = s.links :=
  foldl_keeps _ (fun t => t.links) (fun _ _ => State.setEnt_links ..) l s

theorem hitRates_links (s : State) : (hitRates s).links = s.links := by
  have h := foldl_setEnt_links 0x4023 (fun d => d + 1)
    fun t d => if sget 0 t.mem.stepLookups d = 0 then 0 else sget 0 t.mem.stepHits d * 10000 / sget 0 t.mem.stepLookups d
  simp only [hitRates, h]

theorem waitBallast_links (s : State) : (waitBallast s).links = s.links := by
  refine foldl_keeps _ (fun t => t.links) (fun t c => ?_) _ s
  unfold endBallast
  split <;> rfl

theorem startTaper_links (s : State) : (startTaper s).links = s.links := rfl

theorem enterEff_links (s : State) (d : Dev) : (s.enterEff d).links = s.links := by
  unfold State.enterEff
  split <;> rfl

theorem abandon_rxSeq (s : State) (p : Nat) : ((abandon s).port p).rxSeq = (s.port p).rxSeq := by
  have hopen (t : State) : ((openPorts t).port p).rxSeq = (t.port p).rxSeq :=
    foldl_keeps _ (fun t => (t.port p).rxSeq) (fun t q => modPort_rxSeq (by intro; rfl) t q p) _ t
  unfold abandon
  dsimp only
  rw [port_of_links (congrArg Links.ports (startTaper_links _)), port_of_links (congrArg Links.ports (enterEff_links _ _))]
  have e : ((openPorts (haltCores (waitBallast (hitRates s)))).port p).rxSeq = (s.port p).rxSeq := by
    rw [hopen, port_of_links (haltCores_ports _), port_of_links (congrArg Links.ports (waitBallast_links _)),
      port_of_links (congrArg Links.ports (hitRates_links s))]
  generalize openPorts (haltCores (waitBallast (hitRates s))) = u at e ⊢
  exact e

theorem actAbort_rxSeq (s : State) (orig reason raise : Nat) (except : Option Nat) (p : Nat) :
    ((actAbort s orig reason raise except).port p).rxSeq = (s.port p).rxSeq := by
  rw [← floodAbort_rxSeq s orig reason raise (s.ent 0x5010 1 % 2 ^ 32) except p]
  unfold actAbort
  generalize floodAbort s orig reason raise (s.ent 0x5010 1 % 2 ^ 32) except = u
  have hv : (if u.run.aborts = [] then u.setEnt 0x3110 4 raise else u).links = u.links := by split <;> rfl
  dsimp only
  generalize (if u.run.aborts = [] then u.setEnt 0x3110 4 raise else u) = v at hv ⊢
  rw [← port_of_links (congrArg Links.ports hv)]
  split
  · rfl
  · split
    · exact abandon_rxSeq _ p
    · rfl

theorem abortRun_rxSeq (s : State) (reason p : Nat) : ((abortRun s reason).port p).rxSeq = (s.port p).rxSeq := by
  unfold abortRun
  split
  · exact actAbort_rxSeq ..
  · rfl

/-- A SCHED flit leaves from the collective engines' state (R386); a slot of theirs that does not decode aborts the run (Table 18-3). -/
theorem schedFlit_rxSeq {s t : State} {p k : Nat} {f : Flit} (h : schedFlit s p k = some (f, t)) (q : Nat) : (t.port q).rxSeq = (s.port q).rxSeq := by
  unfold schedFlit at h
  obtain ⟨-, h⟩ := Option.ite_none_left_eq_some.1 h
  split at h
  · cases h
  obtain ⟨-, h⟩ := Option.ite_none_left_eq_some.1 h
  dsimp only at h
  obtain ⟨-, h⟩ := Option.ite_none_left_eq_some.1 h
  split at h
  · cases h
  rename_i i _
  obtain ⟨-, h⟩ := Option.ite_none_left_eq_some.1 h
  split at h
  · cases h
  generalize hp : (if isOnward (centry s i) then checkSlot s (i - 1) (s.csend i).count (s.csend i).sent else (s, false)) = pool at h
  have hl : pool.1.links = s.links := by
    subst hp
    split
    · exact (besideMemory_inj (sramReadCheck_besideMemory ..)).1
    · rfl
  rw [← port_of_links (congrArg Links.ports hl)]
  split at h
  · obtain ⟨-, rfl⟩ := Prod.mk.inj (Option.some.inj h)
    exact abortRun_rxSeq ..
  · refine congrArg PortS.rxSeq (port_of_links (congrArg Links.ports ?_) q)
    repeat' split at h
    all_goals
      obtain ⟨-, rfl⟩ := Prod.mk.inj (Option.some.inj h)
      rfl

end Sys2Proof.Machine
end

section
/-!
SUPPORT. The flit slot of a port in service (R383, R386): what waits leaves in the order of Table 13-5, and takes its link fields as it goes.
-/
namespace Sys2Proof.Machine

theorem kind_eq_iff_toNat (f : Flit) (k : Nat) (hk : k < 16) : f.kind = BitVec.ofNat 4 k ↔ f.kind.toNat = k := by
  rw [← BitVec.toNat_inj, BitVec.toNat_ofNat, Nat.mod_eq_of_lt hk]

section
variable (s : State) (t : FTime) (p : Nat)
@[simp] theorem withNow_port : ({ s with now := t } : State).port p = s.port p := rfl
@[simp] theorem withNow_inService : ({ s with now := t } : State).inService p = s.inService p := rfl
@[simp] theorem withNow_portsAlive : portsAlive { s with now := t } = portsAlive s := rfl
@[simp] theorem withNow_trains : trains { s with now := t } p = trains s p := rfl
end

/-! ### What a departure changes -/

theorem departs_of_ne {f : Flit} (h : f.kind ≠ 9) (s : State) (p : Nat) : departs s p f = (s, f) :=
  if_pos fun e => h ((kind_eq_iff_toNat f 9 (by decide)).2 e)

/-- A TIME flit takes the time at which it leaves, which is kept against its sequence number (R42). -/
theorem departs_time {f : Flit} (h : f.kind = 9) (s : State) (p : Nat) :
    (departs s p f).2 = { f with payload := timePayload { timeOf f.payload with txTime := s.now } } ∧
      ((departs s p f).1.timePort p).sentAt.head? = some ((timeOf f.payload).seq, stamp s.now.toNat (timeOf f.payload).txFrac.toNat) ∧
      (departs s p f).1.links = s.links := by
  have hk : ¬ f.kind.toNat ≠ kTime := fun hn => hn ((kind_eq_iff_toNat f 9 (by decide)).1 h)
  rw [departs, if_neg hk]
  refine ⟨rfl, ?_, rfl⟩
  simp [State.timePort, State.setTimePort]

theorem departs_links (s : State) (p : Nat) (f : Flit) : (departs s p f).1.links = s.links := by
  by_cases h : f.kind = 9
  · exact (departs_time h s p).2.2
  · rw [departs_of_ne h]

/-- A flit takes a number of its own where it is sequenced and leaves for the first time. -/
def takesNumber (f : Flit) (again : Bool) : Bool := sequenced f.kind.toNat && !again

/-- The link fields of a flit that leaves, and what its port keeps of it (R383). -/
theorem stampFlit_spec (s : State) (p : Nat) (f : Flit) (again : Bool) :
    let g := (stampFlit s p f again).1
    let x := s.port p
    g.kind = f.kind ∧ g.payload = f.payload ∧ g.ack.toNat = x.rxSeq % 2048 ∧
      g.seq = (if takesNumber f again then BitVec.ofNat 11 x.txSeq else f.seq) ∧
      ∃ owed, (stampFlit s p f again).2.port p = { x with
        txSeq := if takesNumber f again then (x.txSeq + 1) % 2048 else x.txSeq
        replay := if takesNumber f again then x.replay ++ [(g, 0)] else x.replay
        owed := owed, sentFlit := some g } := by
  refine ⟨rfl, rfl, BitVec.toNat_ofNat .., rfl, ?_⟩
  unfold stampFlit
  dsimp only
  rw [State.port_setPort, if_pos rfl]
  exact ⟨_, rfl⟩

theorem stampFlit_time (s : State) (p : Nat) (f : Flit) (again : Bool) : (stampFlit s p f again).2.time = s.time := by
  unfold stampFlit
  dsimp only
  split
  · exact (besideMemory_inj (touchSram_besideMemory ..)).2.1
  · rfl

/-- What leaves in a slot, with its link fields, and the state once it has left. -/
def sendSlot (s : State) (p t : Nat) : Flit × State :=
  let q := slotFlit s p t
  let d := departs q.2.1 p q.1
  stampFlit d.1 p d.2 q.2.2

/-- A port in service whose replayed flit reads without an error sends what its slot holds. -/
theorem execFlitSlot_inService {s : State} {t : FTime} {p : Port} (ht : s.now ≤ t) (hs : s.inService p.val = true)
    (hok : (replayCheck { s with now := t } p.val).2 = false) :
    ∃ r, besideMemory r = besideMemory { s with now := t } ∧ exec (.flitSlot t p) s = .next (sendSlot r p.val t.toNat).2 := by
  refine ⟨(replayCheck { s with now := t } p.val).1, replayCheck_besideMemory .., ?_⟩
  change execFlitSlot t p s = _
  rw [execFlitSlot, atTime_of_le s ht]
  simp only [withNow_inService, hs, hok, if_true, Bool.false_eq_true, if_false]
  rfl

/-- The flit that a slot takes leaves with its kind, its payload and the port's link fields. -/
theorem sendSlot_spec {s v : State} {p t : Nat} {g : Flit} {again : Bool} (h : slotFlit s p t = (g, v, again)) :
    let f := (sendSlot s p t).1
    let u := (sendSlot s p t).2
    let x := v.port p
    f.kind = g.kind ∧ f.ack.toNat = x.rxSeq % 2048 ∧ f.seq = (if takesNumber g again then BitVec.ofNat 11 x.txSeq else g.seq) ∧
      (g.kind ≠ 9 → f.payload = g.payload) ∧
      (g.kind = 9 → f.payload = timePayload { timeOf g.payload with txTime := v.now } ∧
        (u.timePort p).sentAt.head? = some ((timeOf g.payload).seq, stamp v.now.toNat (timeOf g.payload).txFrac.toNat)) ∧
      ∃ owed, u.port p = { x with
        txSeq := if takesNumber g again then (x.txSeq + 1) % 2048 else x.txSeq
        replay := if takesNumber g again then x.replay ++ [(f, 0)] else x.replay
        owed := owed, sentFlit := some f } := by
  have hport : (departs v p g).1.port p = v.port p := port_of_links (congrArg Links.ports (departs_links v p g)) p
  have hflit : (departs v p g).2.kind = g.kind ∧ (departs v p g).2.seq = g.seq := by
    by_cases hk : g.kind = 9
    · rw [(departs_time hk v p).1]
      exact ⟨rfl, rfl⟩
    · rw [departs_of_ne hk]
      exact ⟨rfl, rfl⟩
  obtain ⟨hkind, hseq⟩ := hflit
  have hnew : takesNumber (departs v p g).2 again = takesNumber g again := by rw [takesNumber, hkind, takesNumber]
  have hspec := stampFlit_spec (departs v p g).1 p (departs v p g).2 again
  have htime := stampFlit_time (departs v p g).1 p (departs v p g).2 again
  simp only [sendSlot, h]
  simp only [hport, hkind, hseq, hnew] at hspec
  obtain ⟨h1, h2, h3, h4, h5⟩ := hspec
  refine ⟨h1, h3, h4, fun hk => ?_, fun hk => ⟨?_, ?_⟩, h5⟩
  · rw [h2, departs_of_ne hk]
  · rw [h2, (departs_time hk v p).1]
  · rw [State.timePort, htime]
    exact (departs_time hk v p).2.1

/-! ### What the slot takes (Table 13-5) -/

section
variable {s : State} {p : Nat}

theorem slotFlit_urgent {g : Flit} {rest : List Flit} (hr : (s.port p).replay.length < 1024) (hu : (s.port p).urgent = g :: rest) (t : Nat) :
    slotFlit s p t = (g, s.setPort p { s.port p with urgent := rest }, false) := by
  have hfind : (g :: rest).find? (fun f => decide ((s.port p).replay.length < 1024) || !sequenced f.kind.toNat) = some g :=
    List.find?_cons_of_pos (by simp [hr])
  unfold slotFlit
  simp only [hu, hfind, List.erase_cons_head]

theorem slotFlit_retry (hu : (s.port p).urgent = []) (hd : (s.port p).retryDue = true) (t : Nat) :
    slotFlit s p t = ({ bareFlit kRetry [] with seq := BitVec.ofNat 11 (s.port p).rxSeq }, s.setPort p { s.port p with retryDue := false }, true) := by
  unfold slotFlit
  simp only [hu, List.find?_nil, hd, if_true]

theorem schedFlit_not_running (h : s.running = false) (t : Nat) : schedFlit s p t = none := by
  unfold schedFlit
  rw [if_pos (.inl (by rw [h]; rfl))]

theorem pickVc_empty {x : PortS} (h : ∀ v, v < 6 → x.vcs.getD v [] = []) : pickVc x = none := by
  have hready : [5, 4, 3, 2, 1, 0].filter (fun v => decide (x.vcs.getD v [] ≠ []) && decide (x.credits.getD v 0 ≠ 0)) = [] := by
    refine List.filter_eq_nil_iff.2 fun v hv => ?_
    have hv6 : v < 6 := by simp at hv; omega
    rw [h v hv6]
    simp
  unfold pickVc
  rw [hready]
  rfl

theorem freePlace_port (s : State) (q vc p : Nat) : ∃ held owed, (freePlace s q vc).port p = { s.port p with held := held, owed := owed } := by
  unfold freePlace
  rw [State.port_modPort]
  split
  · rename_i e
    rw [e]
    exact ⟨_, _, rfl⟩
  · exact ⟨_, _, rfl⟩

/-- No slot changes which number its port expects next. -/
theorem slotFlit_rxSeq (s : State) (p t : Nat) : ((slotFlit s p t).2.1.port p).rxSeq = (s.port p).rxSeq := by
  have hset (x : PortS) : (s.setPort p x).port p = x := by rw [State.port_setPort, if_pos rfl]
  unfold slotFlit
  dsimp only
  split
  · rw [hset]
  · split
    · rw [hset]
    · split
      · rw [hset]
      · split
        · rename_i h
          split at h
          · exact schedFlit_rxSeq h p
          · cases h
        · split
          · split
            · rw [hset]
            · rfl
          · split
            · rename_i v _
              dsimp only
              split
              · rename_i q _
                obtain ⟨held, owed, e⟩ := freePlace_port (s.setPort p (takeVc (s.port p) v)) q.1 q.2 p
                rw [e, hset]
                rfl
              · rw [hset]
                rfl
            · rfl

/-! With nothing of a higher rank the slot goes to the open VC that `pickVc` names, and holds IDLE where it names none. -/
section
variable (hr : (s.port p).replay.length < 1024) (hu : (s.port p).urgent = []) (hd : (s.port p).retryDue = false)
  (he : (s.port p).resend = none) (hrun : s.running = false) (hc : (s.port p).control = [])
include hr hu hd he hrun hc

theorem slotFlit_idle (hv : pickVc (s.port p) = none) (t : Nat) : slotFlit s p t = (bareFlit 0 [], s, false) := by
  unfold slotFlit
  simp only [hu, List.find?_nil, hd, Bool.false_eq_true, if_false, he, schedFlit_not_running hrun, ite_self, hc, hr, decide_true, hv]

theorem slotFlit_vc {v : Nat} {g : Flit} {o : Option (Nat × Nat)} {rest : List (Flit × Option (Nat × Nat))} (hv : pickVc (s.port p) = some v)
    (hq : (s.port p).vcs.getD v [] = (g, o) :: rest) (t : Nat) :
    ∃ w held owed, slotFlit s p t = (g, w, false) ∧ w.port p = { takeVc (s.port p) v with held := held, owed := owed } := by
  have hset : (s.setPort p (takeVc (s.port p) v)).port p = takeVc (s.port p) v := by rw [State.port_setPort, if_pos rfl]
  unfold slotFlit
  simp only [hu, List.find?_nil, hd, Bool.false_eq_true, if_false, he, schedFlit_not_running hrun, ite_self, hc, hr, decide_true, if_true, hv, hq,
    List.headD_cons]
  cases o with
  | none => exact ⟨_, _, _, rfl, hset⟩
  | some q =>
    obtain ⟨held, owed, hf⟩ := freePlace_port (s.setPort p (takeVc (s.port p) v)) q.1 q.2 p
    exact ⟨_, held, owed, rfl, by rw [hf, hset]⟩

end
end
end Sys2Proof.Machine
end

section
/-!
SUPPORT. A port enters and leaves service (R26, R390, R394): what its state is then, and what other ports keep.
-/
namespace Sys2Proof.Machine

theorem portSt_setEnt_other (s : State) {i j : Nat} (v p : Nat) (hi : i ≠ 0x3300) (hj : j < 256) (hp : p < 255) : (s.setEnt i j v).portSt p = s.portSt p :=
  s.ent_setEnt_ne _ _ _ _ _ fun h => hi (((ekey_inj (by omega) hj).1 h).1.symm)

theorem isBridge_setEnt_other (s : State) {i j : Nat} (v : Nat) (hi : i ≠ 0x3200) (hj : j < 256) : (s.setEnt i j v).isBridge = s.isBridge := by
  unfold State.isBridge
  rw [s.ent_setEnt_ne i j v _ _ fun h => hi ((ekey_inj (by decide) hj).1 h).1.symm]

theorem portSt_setEnt_ne (s : State) {p q : Nat} (v : Nat) (h : q ≠ p) (hp : p < 255) (hq : q < 255) : (s.setEnt 0x3300 (p + 1) v).portSt q = s.portSt q :=
  s.ent_setEnt_ne _ _ _ _ _ fun e => h (by have := ((ekey_inj (by omega) (by omega)).1 e).2; omega)

theorem leaveService_port (s : State) (p st q : Nat) (h : q ≠ p) : (leaveService s p st).port q = s.port q := by
  unfold leaveService
  rw [State.port_modPort, if_neg h]
  rfl

/-- A port that leaves service is in its new state with an empty replay buffer, and LINK_DOWN is raised (R394). -/
theorem leaveService_spec (s : State) {p : Nat} (st : Nat) (hp : p < 48) :
    (leaveService s p st).portSt p = st ∧ ((leaveService s p st).port p).replay = [] ∧ ∃ e ∈ (leaveService s p st).ev.raised, e.code = 0x3101 := by
  refine ⟨?_, ?_, ?_⟩
  · exact (portSt_setEnt_other _ _ p (by decide) (by omega) (by omega)).trans (s.ent_setEnt_self ..)
  · unfold leaveService
    rw [State.port_modPort, if_pos rfl]
    rfl
  · exact ⟨_, List.mem_append_right _ (List.mem_singleton.2 rfl), rfl⟩

theorem leaveService_portSt_ne (s : State) {p q : Nat} (st : Nat) (h : q ≠ p) (hp : p < 255) (hq : q < 255) :
    (leaveService s p st).portSt q = s.portSt q :=
  (portSt_setEnt_other _ _ q (by decide) (by omega) hq).trans (portSt_setEnt_ne s st h hp hq)

/-- What a conflict of roles does: nothing, or the bridge becomes a WORKER, whose port 47 may leave service or give up its training (R26). -/
theorem roleConflict_cases (s : State) (position : Nat) :
    let u := (s.setEnt 0x3200 5 1).raise 0x3301 []
    roleConflict s position = s ∨ roleConflict s position = leaveService u 47 1 ∨ roleConflict s position = u.modPort 47 forgetTraining ∨
      roleConflict s position = u := by
  unfold roleConflict
  by_cases hc : s.isBridge ∧ position < positionOf s.device
  · rw [if_pos hc]
    refine .inr ?_
    dsimp only
    generalize (s.setEnt 0x3200 5 1).raise 0x3301 [] = u
    by_cases ha : (u.port 47).adapter = true
    · rw [if_pos ha]
      exact .inl rfl
    · rw [if_neg ha]
      exact .inr (ite_eq_or_eq _ _ _)
  · rw [if_neg hc]
    exact .inl rfl

/-- A conflict of roles concerns port 47 alone. -/
theorem roleConflict_other (s : State) (position : Nat) {p : Nat} (h : p ≠ 47) (hp : p < 255) :
    (roleConflict s position).port p = s.port p ∧ (roleConflict s position).portSt p = s.portSt p := by
  have hst : ((s.setEnt 0x3200 5 1).raise 0x3301 []).portSt p = s.portSt p := portSt_setEnt_other s 1 p (by decide) (by decide) hp
  rcases roleConflict_cases s position with e | e | e | e <;> rw [e]
  · exact ⟨rfl, rfl⟩
  · exact ⟨leaveService_port _ _ _ _ h, (leaveService_portSt_ne _ 1 h (by decide) hp).trans hst⟩
  · exact ⟨by rw [State.port_modPort, if_neg h]; rfl, hst⟩
  · exact ⟨rfl, hst⟩

theorem roleConflict_maps (s : State) (position : Nat) : (roleConflict s position).links.maps = s.links.maps := by
  rcases roleConflict_cases s position with e | e | e | e <;> rw [e] <;> rfl

theorem roleConflict_of_not_bridge {s : State} (h : s.isBridge = false) (position : Nat) : roleConflict s position = s := by
  unfold roleConflict
  rw [if_neg (by simp [h])]

/-- On a bridge's port 47 nothing but an adapter fits (Table 13-8). -/
theorem wiringOk_bridge {s : State} {m : TrainP} (h : wiringOk s 47 m = true) (hb : s.isBridge = true) : m.role = 0x10#8 := by
  simpa [wiringOk, hb] using h

/-- A port both of whose CONFIRMs have passed enters service, but for one that R393 keeps out or whose wiring is wrong. -/
def MayServe (s : State) (p : Nat) (m : TrainP) (v : Byte) : Prop :=
  (s.port p).advert = some m ∧ (s.port p).chosen = some v ∧ (s.port p).confirmSent = true ∧ (s.port p).confirmed = some v ∧ p ∉ s.ctl.portsPast ∧
    wiringOk s p m = true

theorem tryService_of_not {s : State} {p : Nat} (h : ∀ m v, ¬ MayServe s p m v) : tryService s p = s := by
  unfold tryService
  dsimp only
  split
  · rename_i m v ha hc
    rw [if_neg fun hs => h m v ⟨ha, hc, hs.1, hs.2.1, hs.2.2.1, hs.2.2.2⟩]
  · rfl

/-- A conflict of roles changes nothing of a port that enters service: port 47 of a bridge takes an adapter, which has no role in the conflict. -/
theorem roleConflict_entering {s : State} {p : Nat} (h : p = 47 → s.isBridge = false) (hp : p < 48) (position : Nat) :
    (roleConflict s position).port p = s.port p ∧ (roleConflict s position).portSt p = s.portSt p := by
  by_cases hp47 : p = 47
  · rw [roleConflict_of_not_bridge (h hp47)]
    exact ⟨rfl, rfl⟩
  · exact roleConflict_other s position hp47 (by omega)

/-- The state in which a port enters service, before a second bridge of the course may change the module's role (R390, R26). -/
theorem tryService_eq {s : State} {p : Nat} {m : TrainP} {v : Byte} (h : MayServe s p m v) (hp : p < 48) :
    ∃ u, tryService s p = (if m.role = 3 ∧ courseOf m.device.toNat = courseOf u.device then roleConflict u (positionOf m.device.toNat) else u) ∧
      u.portSt p = 4 ∧ u.isBridge = s.isBridge ∧ (u.port p).sentFlit = (s.port p).sentFlit ∧ (u.port p).control = (s.port p).control ∧
      (u.port p).confirmSent = true := by
  obtain ⟨ha, hc, hs, hcf, hpast, hw⟩ := h
  unfold tryService
  simp only [ha, hc, hs, hcf, hpast, hw, not_false_eq_true, and_self, if_true]
  generalize hu : State.setEnt _ 0x3302 (p + 1) m.port.toNat = u
  have hup : u.portSt p = 4 ∧ u.isBridge = s.isBridge ∧ (u.port p).sentFlit = (s.port p).sentFlit ∧ (u.port p).control = (s.port p).control ∧
      (u.port p).confirmSent = true := by
    rw [← hu]
    refine ⟨?_, ?_, ?_⟩
    · rw [portSt_setEnt_other _ _ _ (by decide) (by omega) (by omega), portSt_setEnt_other _ _ _ (by decide) (by omega) (by omega)]
      exact State.ent_setEnt_self ..
    · rw [isBridge_setEnt_other _ _ (by decide) (by omega), isBridge_setEnt_other _ _ (by decide) (by omega),
        isBridge_setEnt_other _ _ (by decide) (by omega)]
      rfl
    · change ((s.setPort p _).port p).sentFlit = _ ∧ ((s.setPort p _).port p).control = _ ∧ ((s.setPort p _).port p).confirmSent = _
      simp only [State.port_setPort, if_true, and_self]
  clear hu
  refine ⟨_, rfl, ?_⟩
  split
  · rwa [portSt_setEnt_other u 9 p (by decide) (by decide) (by omega), isBridge_setEnt_other u 9 (by decide) (by decide)]
  · exact hup

/-- A port that enters service is in port state 4; what it sent last and what waits on it stay. -/
theorem tryService_enters {s : State} {p : Nat} {m : TrainP} {v : Byte} (h : MayServe s p m v) (hp : p < 48) :
    (tryService s p).portSt p = 4 ∧ ((tryService s p).port p).sentFlit = (s.port p).sentFlit ∧ ((tryService s p).port p).control = (s.port p).control ∧
      ((tryService s p).port p).confirmSent = true := by
  obtain ⟨u, he, h4, hb, hkept⟩ := tryService_eq h hp
  obtain ⟨-, -, -, -, -, hw⟩ := h
  rw [he]
  split
  · rename_i hrole
    have hnb : p = 47 → u.isBridge = false := by
      rintro rfl
      rw [hb, Bool.eq_false_iff]
      intro hbr
      exact absurd (hrole.1.symm.trans (wiringOk_bridge hw hbr)) (by decide)
    obtain ⟨hrp, hr4⟩ := roleConflict_entering hnb hp (positionOf m.device.toNat)
    rw [hrp, hr4]
    exact ⟨h4, hkept⟩
  · exact ⟨h4, hkept⟩

/-- Whether or not a port enters service, what it sent last, what waits on it, and that its CONFIRM has left, stay. -/
theorem tryService_port (s : State) {p : Nat} (hp : p < 48) :
    ((tryService s p).port p).sentFlit = (s.port p).sentFlit ∧ ((tryService s p).port p).control = (s.port p).control ∧
      ((tryService s p).port p).confirmSent = (s.port p).confirmSent := by
  by_cases h : ∃ m v, MayServe s p m v
  · obtain ⟨m, v, hm⟩ := h
    obtain ⟨-, hsent, hcontrol, hconfirm⟩ := tryService_enters hm hp
    obtain ⟨-, -, hs, -⟩ := hm
    exact ⟨hsent, hcontrol, hconfirm.trans hs.symm⟩
  · rw [tryService_of_not fun m v hm => h ⟨m, v, hm⟩]
    exact ⟨rfl, rfl, rfl⟩

end Sys2Proof.Machine
end

section
/-!
SUPPORT. Reception of a flit that the port accepts or discards (R382 to R384), and the maps of a course (R395).
-/
namespace Sys2Proof.Machine

/-! ### Reception -/

/-- The port once it has accepted a flit: its Ack and credit fields are taken, and a sequenced one is counted (R383, R387). -/
def acceptedPort (x : PortS) (f : Flit) : PortS :=
  let y := takeCredits (takeAck { x with failures := 0 } f.ack.toNat) f.creditVc.toNat f.credits.toNat
  if sequenced f.kind.toNat then { y with rxSeq := (y.rxSeq + 1) % 2048, discarding := false, retryDue := false } else y

theorem acceptedPort_rxSeq {f : Flit} (h : sequenced f.kind.toNat = true) (x : PortS) : (acceptedPort x f).rxSeq = (x.rxSeq + 1) % 2048 := by
  rw [acceptedPort, if_pos h]
  rfl

theorem acceptedPort_adapter (x : PortS) (f : Flit) : (acceptedPort x f).adapter = x.adapter := by
  unfold acceptedPort
  split <;> rfl

/-- A flit that the port accepts is handed on, with its buffer place owed where its kind uses credits. -/
theorem accepted_of_accepts {s : State} {p : Port} {f : Flit} {k : Nat} (h : Accepts s p f k) (g : State → Out) :
    accepted s p.val f k g = g (if credited k then freeCredit (s.setPort p.val (acceptedPort (s.port p.val) f)) p.val f.vc.toNat
      else s.setPort p.val (acceptedPort (s.port p.val) f)) := by
  obtain ⟨hin, rfl, hb, hq⟩ := h
  have hseq : ¬ (sequenced f.kind.toNat = true ∧ f.seq.toNat ≠ (s.port p.val).rxSeq) := fun ⟨h1, h2⟩ => h2 (hq h1)
  have hr : receive s p.val f = (if credited f.kind.toNat then freeCredit (s.setPort p.val (acceptedPort (s.port p.val) f)) p.val f.vc.toNat
      else s.setPort p.val (acceptedPort (s.port p.val) f), true) := by
    unfold receive
    simp only [hin, hb, Bool.true_eq_false, Bool.false_eq_true, if_false, if_neg hseq]
    rfl
  rw [accepted, if_neg (not_not.2 rfl), hr]

theorem accepted_uncredited {s : State} {p : Port} {f : Flit} {k : Nat} (h : Accepts s p f k) (hk : credited k = false) (g : State → Out) :
    accepted s p.val f k g = g (s.setPort p.val (acceptedPort (s.port p.val) f)) := by
  rw [accepted_of_accepts h, hk]
  rfl

/-- A sequenced flit with a reserved encoding is discarded, and a replay is asked for (R382, R384). -/
theorem accepted_of_badHeader {s : State} {p : Port} {f : Flit} {k : Nat} (hin : s.inService p.val = true) (hk : f.kind.toNat = k)
    (hb : badHeader f = true) (hq : sequenced k = true) (g : State → Out) : accepted s p.val f k g = .next (s.modPort p.val askReplay) := by
  have hr : receive s p.val f = (s.modPort p.val askReplay, false) := by
    unfold receive
    simp only [hin, hb, hk, hq, Bool.true_eq_false, if_false, if_true]
  rw [accepted, if_neg (not_not.2 hk), hr]

/-! ### Maps -/

theorem inService_of_dict {s t : State} (h : s.dict = t.dict) (p : Nat) : s.inService p = t.inService p := by
  unfold State.inService State.portSt
  rw [State.ent_of_dict h]

theorem mapPayload_of_dict {s t : State} (h : s.dict = t.dict) : mapPayload s = mapPayload t := by
  simp only [mapPayload, State.portSt, State.ent_of_dict h]

/-- The row of a global port in a MAP payload: its number, its state and its peer (R395). -/
def mapRow (s : State) (k : Nat) : List Byte := le 1 (31 + k) ++ le 1 (s.portSt (31 + k)) ++ le 2 (s.ent 0x3301 (32 + k))

theorem mapPayload_eq (s : State) : mapPayload s = padTo 240 ((le 1 1 ++ (le 1 (s.ent 0x3200 3) ++ le 2 0)) ++ (List.range 17).flatMap (mapRow s)) := by
  simp only [mapPayload, List.append_assoc]
  rfl

theorem field_mapPayload_head (s : State) : field (mapPayload s) 0 1 = 1 ∧ field (mapPayload s) 1 1 = s.ent 0x3200 3 % 256 := by
  rw [mapPayload_eq]
  refine ⟨?_, ?_⟩
  · rw [field_padTo (by decide), List.append_assoc, field_le_append, pow_one]
  · rw [field_padTo (by decide), List.append_assoc, field_append_of_le (by simp), length_le, List.append_assoc, field_le_append, pow_one]

theorem field_mapPayload_row (s : State) {k o n : Nat} (hk : k < 17) (ho : o + n ≤ 4) :
    field (mapPayload s) (4 + 4 * k + o) n = field (mapRow s k) o n := by
  have hlen : (le 1 1 ++ (le 1 (s.ent 0x3200 3) ++ le 2 0)).length = 4 := by simp
  rw [mapPayload_eq, field_padTo (by omega), field_append_of_le (by rw [hlen]; omega), hlen, show 4 + 4 * k + o - 4 = 4 * k + o by omega]
  exact field_flatMap_range (mapRow s) (by simp [mapRow]) hk ho

theorem field_mapRow (s : State) (k : Nat) : field (mapRow s k) 0 1 = (31 + k) % 256 ∧ field (mapRow s k) 1 1 = s.portSt (31 + k) % 256 ∧
    field (mapRow s k) 2 2 = s.ent 0x3301 (32 + k) % 65536 := by
  unfold mapRow
  refine ⟨?_, ?_, ?_⟩
  · rw [List.append_assoc, field_le_append, pow_one]
  · rw [List.append_assoc, field_append_of_le (by simp), length_le, field_le_append, pow_one]
  · rw [field_append_of_le (by simp), List.length_append, length_le, length_le, ← List.append_nil (le 2 _), field_le_append, show 256 ^ 2 = 65536 from rfl]

/-- MAP flits are queued on the ports in service below n. -/
theorem mapSend_foldl (s : State) (n : Nat) :
    let u := (List.range n).foldl (fun s p =>
      if s.inService p then s.modPort p fun x => { x with control := x.control ++ [bareFlit kMap (mapPayload s)] } else s) s
    u.dict = s.dict ∧ ∀ q, u.port q = if q < n ∧ s.inService q = true then
      { s.port q with control := (s.port q).control ++ [bareFlit kMap (mapPayload s)] } else s.port q := by
  induction n with
  | zero => exact ⟨rfl, fun q => by simp⟩
  | succ n ih =>
    obtain ⟨hd, hp⟩ := ih
    rw [List.range_succ, List.foldl_append]
    generalize (List.range n).foldl _ s = u at hd hp ⊢
    rw [List.foldl_cons, List.foldl_nil, inService_of_dict hd, mapPayload_of_dict hd]
    by_cases hn : s.inService n = true
    · rw [if_pos hn]
      refine ⟨hd, fun q => ?_⟩
      rw [State.port_modPort]
      by_cases hq : q = n
      · rw [if_pos hq, hp n, if_neg (by omega), hq, if_pos ⟨by omega, hn⟩]
      · rw [if_neg hq, hp q]
        simp only [show q < n + 1 ↔ q < n by omega]
    · rw [if_neg hn]
      refine ⟨hd, fun q => ?_⟩
      rw [hp q]
      by_cases hq : q = n
      · rw [if_neg (by omega), if_neg (by rw [hq]; exact fun h => hn h.2)]
      · simp only [show q < n + 1 ↔ q < n by omega]

/-- MAP_SEND queues one MAP flit on every mesh port in service (R395). -/
theorem execMapSend_spec (s : State) : ∃ u, exec .mapSend s = .next u ∧ u.dict = s.dict ∧ ∀ q, u.port q = if q < 31 ∧ s.inService q = true then
    { s.port q with control := (s.port q).control ++ [bareFlit kMap (mapPayload s)] } else s.port q :=
  ⟨_, rfl, mapSend_foldl s 31⟩

/-- A role or port state that Tables 1-3 and 13-13 reserve makes a MAP flit one with a reserved encoding (R9). -/
theorem badHeader_of_map {f : Flit} (hk : f.kind = 0xD) {k : Nat} (h17 : k < 17)
    (h : field f.payload 1 1 ∉ [1, 2, 3] ∨ field f.payload (5 + 4 * k) 1 ∉ [1, 2, 3, 4, 5, 6]) : badHeader f = true := by
  have hm : mapOk f.payload = false := by
    rw [Bool.eq_false_iff]
    intro hok
    simp only [mapOk, Bool.and_eq_true, decide_eq_true_eq, List.all_eq_true, List.mem_range] at hok
    obtain ⟨⟨-, hrole⟩, hst⟩ := hok
    have := hst k h17
    rcases h with h | h <;> simp only [List.mem_cons, List.not_mem_nil, or_false] at h <;> omega
  have hkm : f.kind.toNat = kMap := (kind_eq_iff_toNat f 0xD (by decide)).1 hk
  simp [badHeader, hm, hkm]

end Sys2Proof.Machine
end

section
/-!
The flit layer: what a flit slot carries and how maps are kept (O28).
-/
namespace Sys2Proof.Machine
open Sys2Proof

/-! ### The slot of a port in service -/

section
variable {s : State} {p t : Nat}

theorem sendSlot_urgent {g : Flit} {rest : List Flit} (hr : (s.port p).replay.length < 1024) (hu : (s.port p).urgent = g :: rest) :
    let f := (sendSlot s p t).1
    let u := (sendSlot s p t).2
    let x := s.port p
    f.kind = g.kind ∧ (u.port p).urgent = rest ∧ (g.kind ≠ 9 → f.payload = g.payload) ∧
      (g.kind = 9 → f.payload = timePayload { timeOf g.payload with txTime := s.now } ∧
        (u.timePort p).sentAt.head? = some ((timeOf g.payload).seq, stamp s.now.toNat (timeOf g.payload).txFrac.toNat)) ∧
      (sequenced g.kind.toNat = true → f.seq.toNat = x.txSeq % 2048 ∧ (u.port p).txSeq = (x.txSeq + 1) % 2048 ∧
        (u.port p).replay = x.replay ++ [(f, 0)]) := by
  obtain ⟨hk, -, hq, hpl, htime, owed, hx⟩ := sendSlot_spec (slotFlit_urgent hr hu t)
  rw [State.port_setPort, if_pos rfl] at hq hx
  refine ⟨hk, by rw [hx], hpl, htime, fun hs => ?_⟩
  have hn : takesNumber g false = true := by rw [takesNumber, hs]; rfl
  simp only [hn, if_true] at hq hx
  exact ⟨by rw [hq, BitVec.toNat_ofNat], by rw [hx], by rw [hx]⟩

theorem sendSlot_retry (hu : (s.port p).urgent = []) (hd : (s.port p).retryDue = true) :
    let f := (sendSlot s p t).1
    let u := (sendSlot s p t).2
    f.kind = 0xC ∧ f.seq.toNat = (s.port p).rxSeq % 2048 ∧ (u.port p).retryDue = false ∧ (u.port p).replay = (s.port p).replay := by
  obtain ⟨hk, -, hq, -, -, owed, hx⟩ := sendSlot_spec (slotFlit_retry hu hd t)
  rw [State.port_setPort, if_pos rfl] at hq hx
  have hn (f : Flit) : takesNumber f true = false := Bool.and_false _
  simp only [hn, Bool.false_eq_true, if_false] at hq hx
  exact ⟨hk, by rw [hq, BitVec.toNat_ofNat], by rw [hx], by rw [hx]⟩

section
variable (hr : (s.port p).replay.length < 1024) (hu : (s.port p).urgent = []) (hd : (s.port p).retryDue = false)
  (he : (s.port p).resend = none) (hrun : s.running = false) (hc : (s.port p).control = [])
include hr hu hd he hrun hc

theorem sendSlot_idle (hv : ∀ v, v < 6 → (s.port p).vcs.getD v [] = []) :
    (sendSlot s p t).1.kind = 0 ∧ ((sendSlot s p t).2.port p).replay = (s.port p).replay := by
  obtain ⟨hk, -, -, -, -, owed, hx⟩ := sendSlot_spec (slotFlit_idle hr hu hd he hrun hc (pickVc_empty hv) t)
  have hn : takesNumber (bareFlit 0 []) false = false := rfl
  simp only [hn, Bool.false_eq_true, if_false] at hx
  exact ⟨hk, by rw [hx]⟩

theorem sendSlot_vc {v : Nat} {g : Flit} {o : Option (Nat × Nat)} {rest : List (Flit × Option (Nat × Nat))} (hv : pickVc (s.port p) = some v)
    (hq : (s.port p).vcs.getD v [] = (g, o) :: rest) (h9 : g.kind ≠ 9) :
    let u := (sendSlot s p t).2
    (sendSlot s p t).1.kind = g.kind ∧ (sendSlot s p t).1.payload = g.payload ∧ (u.port p).vcs = (s.port p).vcs.set v rest ∧
      (u.port p).credits = (s.port p).credits.set v ((s.port p).credits.getD v 0 - 1) := by
  obtain ⟨w, held, owed, hw, hwp⟩ := slotFlit_vc hr hu hd he hrun hc hv hq t
  obtain ⟨hk, -, -, hpl, -, owed', hx⟩ := sendSlot_spec hw
  rw [hwp] at hx
  refine ⟨hk, hpl h9, ?_, ?_⟩
  · rw [hx, takeVc, hq, List.drop_one, List.tail_cons]
  · rw [hx, takeVc]

end

/-- Whatever leaves carries the next number expected as its Ack (R383). -/
theorem sendSlot_ack : (sendSlot s p t).1.ack.toNat = (s.port p).rxSeq % 2048 ∧ ((sendSlot s p t).2.port p).sentFlit = some (sendSlot s p t).1 := by
  have hq : slotFlit s p t = ((slotFlit s p t).1, (slotFlit s p t).2.1, (slotFlit s p t).2.2) := rfl
  obtain ⟨-, ha, -, -, -, owed, hx⟩ := sendSlot_spec hq
  exact ⟨by rw [ha, slotFlit_rxSeq], by rw [hx]⟩

end

/-! ### The slot of a port in training -/

/-- What waits on a port in training leaves as it is; a CONFIRM that leaves may take the port into service (R390). -/
theorem execFlitSlot_training {s : State} {t : FTime} {p : Port} {g : Flit} {rest : List Flit} (ht : s.now ≤ t) (hs : s.inService p.val = false)
    (ha : portsAlive s = true) (htr : trains s p.val = true) (hc : (s.port p.val).control = g :: rest) :
    ∃ v : State, exec (.flitSlot t p) s = .next (tryService v p.val) ∧ v.ctl = s.ctl ∧ v.dict = s.dict ∧
      v.port p.val = { s.port p.val with
        control := rest, sentFlit := some g, confirmSent := (s.port p.val).confirmSent || (confirms g && (s.port p.val).chosen.isSome) } := by
  refine ⟨({ s with now := t } : State).modPort p.val fun x =>
    { x with control := rest, sentFlit := some g, confirmSent := x.confirmSent || (confirms g && x.chosen.isSome) }, ?_, rfl, rfl, ?_⟩
  · change execFlitSlot t p s = _
    rw [execFlitSlot, atTime_of_le s ht]
    simp only [withNow_inService, withNow_portsAlive, withNow_trains, withNow_port, hs, ha, htr, hc, Bool.false_eq_true, if_false, and_self, if_true]
  · rw [State.port_modPort, if_pos rfl]
    rfl

theorem execFlitSlot_training_idle {s : State} {t : FTime} {p : Port} (ht : s.now ≤ t) (hs : s.inService p.val = false)
    (ha : portsAlive s = true) (htr : trains s p.val = true) (hc : (s.port p.val).control = []) :
    ∃ u, exec (.flitSlot t p) s = .next u ∧ (u.port p.val).sentFlit = some (bareFlit 0 []) := by
  refine ⟨({ s with now := t } : State).modPort p.val fun x => { x with sentFlit := some (bareFlit 0 []) }, ?_, ?_⟩
  · change execFlitSlot t p s = _
    rw [execFlitSlot, atTime_of_le s ht]
    simp only [withNow_inService, withNow_portsAlive, withNow_trains, withNow_port, hs, ha, htr, hc, Bool.false_eq_true, if_false, and_self, if_true]
  · rw [State.port_modPort, if_pos rfl]

theorem wiringOk_of_dict {s t : State} (h : s.dict = t.dict) (p : Nat) (m : TrainP) : wiringOk s p m = wiringOk t p m := by
  have hb : s.isBridge = t.isBridge := by
    unfold State.isBridge
    rw [State.ent_of_dict h]
  have hd : s.device = t.device := State.ent_of_dict h ..
  unfold wiringOk meshPeer
  rw [hb, hd]

/-! ### Maps received -/

/-- A MAP flit from a mesh port replaces the kept map of the module that sent it (R395); a conflict of roles concerns port 47. -/
theorem execMapReceive_keeps {s : State} {p : Port} {f : Flit} (h : Accepts s p f 0xD) (ha : (s.port p.val).adapter = false) (hp : p.val ≤ 30) :
    ∃ u, exec (.mapReceive p f) s = .next u ∧ u.links.maps = sset [] s.links.maps (meshPeer s p.val) (padTo 72 f.payload) ∧
      (u.port p.val).rxSeq = ((s.port p.val).rxSeq + 1) % 2048 := by
  have hport : (s.setPort p.val (acceptedPort (s.port p.val) f)).port p.val = acceptedPort (s.port p.val) f := by rw [State.port_setPort, if_pos rfl]
  have hseq : (acceptedPort (s.port p.val) f).rxSeq = ((s.port p.val).rxSeq + 1) % 2048 := acceptedPort_rxSeq (by rw [h.2.1]; rfl) _
  have hmesh : ¬ ((acceptedPort (s.port p.val) f).adapter = true ∨ 30 < p.val) := by
    rw [acceptedPort_adapter, ha]
    simp
    omega
  have hother : p.val ≠ 47 := by omega
  change ∃ u, execMapReceive p f s = .next u ∧ _
  rw [execMapReceive, accepted_uncredited (k := kMap) h rfl]
  dsimp only
  rw [hport, if_neg hmesh]
  refine ⟨_, rfl, ?_⟩
  split
  · rw [roleConflict_maps, (roleConflict_other _ _ hother (by omega)).1]
    exact ⟨rfl, (congrArg PortS.rxSeq hport).trans hseq⟩
  · exact ⟨rfl, (congrArg PortS.rxSeq hport).trans hseq⟩

/-- A MAP flit with a reserved encoding is discarded: the kept maps and the expected number stay, and a replay is asked for. -/
theorem execMapReceive_discards {s : State} {p : Port} {f : Flit} (hin : s.inService p.val = true) (hk : f.kind = 0xD) (hb : badHeader f = true) :
    ∃ u, exec (.mapReceive p f) s = .next u ∧ u.links.maps = s.links.maps ∧ (u.port p.val).rxSeq = (s.port p.val).rxSeq ∧
      (u.port p.val).discarding = true := by
  have hkm : f.kind.toNat = kMap := (kind_eq_iff_toNat f 0xD (by decide)).1 hk
  refine ⟨_, accepted_of_badHeader hin hkm hb rfl _, rfl, ?_⟩
  rw [State.port_modPort, if_pos rfl, askReplay]
  by_cases hd : (s.port p.val).discarding = true
  · rw [if_pos hd]
    exact ⟨rfl, hd⟩
  · rw [if_neg hd]
    exact ⟨rfl, rfl⟩

/-! ### The obligation -/

/-- The slot of a port in service is taken in a state that differs from the present one, as far as the slot goes, in its time alone. -/
theorem flitSlot_inService {s : State} {t : FTime} {p : Port} (ht : s.now ≤ t) (hs : s.inService p.val = true)
    (hok : (replayCheck { s with now := t } p.val).2 = false) :
    ∃ r : State, r.port p.val = s.port p.val ∧ r.now = t ∧ r.running = s.running ∧ exec (.flitSlot t p) s = .next (sendSlot r p.val t.toNat).2 := by
  obtain ⟨r, hb, he⟩ := execFlitSlot_inService ht hs hok
  obtain ⟨hlinks, -, hctl, hnow⟩ := besideMemory_inj hb
  refine ⟨r, port_of_links (congrArg Links.ports hlinks) _, hnow, ?_, he⟩
  unfold State.running State.eff
  rw [hctl]

/-- A replayed flit whose stored word cannot be corrected takes the port out of service (Table 18-3). -/
theorem flitSlot_replayLost {s : State} {t : FTime} {p : Port} (ht : s.now ≤ t) (hs : s.inService p.val = true)
    (hbad : (replayCheck { s with now := t } p.val).2 = true) :
    ∃ u e, exec (.flitSlot t p) s = .next u ∧ u.portSt p.val = 3 ∧ (u.port p.val).replay = [] ∧ e ∈ u.ev.raised ∧ e.code = 0x3101 := by
  obtain ⟨hst, hrep, e, he, hcode⟩ := leaveService_spec (replayCheck { s with now := t } p.val).1 3 p.isLt
  refine ⟨_, e, ?_, hst, hrep, he, hcode⟩
  change execFlitSlot t p s = _
  rw [execFlitSlot, atTime_of_le s ht]
  simp only [withNow_inService, hs, hbad, if_true]

/-- The slot of a port in training (R390). -/
theorem flitSlot_training {s : State} {t : FTime} {p : Port} (ht : s.now ≤ t) (hs : s.inService p.val = false) (ha : portsAlive s = true)
    (htr : trains s p.val = true) :
    let x := s.port p.val
    ∃ u f, exec (.flitSlot t p) s = .next u ∧ (u.port p.val).sentFlit = some f ∧
      (∀ g rest, x.control = g :: rest → f = g ∧ (u.port p.val).control = rest ∧
        (confirms g = true → x.chosen ≠ none → (u.port p.val).confirmSent = true ∧
          ∀ a, x.advert = some a → x.confirmed = x.chosen → p.val ∉ s.ctl.portsPast → wiringOk s p.val a = true → u.portSt p.val = 4)) ∧
      (x.control = [] → f.kind = 0) := by
  dsimp only
  cases hc : (s.port p.val).control with
  | nil =>
    obtain ⟨u, he, hsent⟩ := execFlitSlot_training_idle ht hs ha htr hc
    exact ⟨u, _, he, hsent, fun _ _ h => (List.cons_ne_nil _ _ h.symm).elim, fun _ => rfl⟩
  | cons g rest =>
    obtain ⟨v, he, hctl, hdict, hv⟩ := execFlitSlot_training ht hs ha htr hc
    obtain ⟨hsent, hcontrol, hconfirm⟩ := tryService_port v p.isLt
    rw [hv] at hsent hcontrol hconfirm
    refine ⟨_, g, he, hsent, fun g' rest' h => ?_, fun h => (List.cons_ne_nil _ _ h).elim⟩
    obtain ⟨rfl, rfl⟩ := List.cons.inj h
    refine ⟨rfl, hcontrol, fun hg hch => ?_⟩
    obtain ⟨version, hversion⟩ := Option.ne_none_iff_exists'.1 hch
    have hleft : ((s.port p.val).confirmSent || (confirms g && (s.port p.val).chosen.isSome)) = true := by rw [hg, hversion]; simp
    refine ⟨hconfirm.trans hleft, fun a hadv hcf hpast hw => ?_⟩
    have hserve : MayServe v p.val a version := by
      unfold MayServe
      rw [hv, hctl, wiringOk_of_dict hdict]
      exact ⟨hadv, hversion, hleft, hcf.trans hversion, hpast, hw⟩
    exact (tryService_enters hserve p.isLt).1

/-- What MAP_SEND queues, and where (R395). -/
theorem mapSend_queues (s : State) : ∃ u, exec .mapSend s = .next u ∧ u.dict = s.dict ∧ ∀ q, q < 31 →
    (s.inService q = true → ∃ g, (u.port q).control = (s.port q).control ++ [g] ∧ g.kind = 0xD ∧ field g.payload 0 1 = 1 ∧
      field g.payload 1 1 = s.ent 0x3200 3 % 256 ∧
      ∀ k, k < 17 → field g.payload (4 + 4 * k) 1 = 31 + k ∧ field g.payload (5 + 4 * k) 1 = s.portSt (31 + k) % 256 ∧
        field g.payload (6 + 4 * k) 2 = s.ent 0x3301 (32 + k) % 65536) ∧
    (s.inService q = false → u.port q = s.port q) := by
  obtain ⟨u, he, hd, hport⟩ := execMapSend_spec s
  obtain ⟨hversion, hrole⟩ := field_mapPayload_head s
  refine ⟨u, he, hd, fun q hq => ⟨fun hin => ⟨bareFlit kMap (mapPayload s), ?_, rfl, hversion, hrole, fun k hk => ?_⟩, fun hin => ?_⟩⟩
  · rw [hport q, if_pos ⟨hq, hin⟩]
  · obtain ⟨hnum, hst, hpeer⟩ := field_mapRow s k
    refine ⟨?_, ?_, ?_⟩
    · exact (field_mapPayload_row s (o := 0) hk (by decide)).trans (hnum.trans (Nat.mod_eq_of_lt (by omega)))
    · rw [show 5 + 4 * k = 4 + 4 * k + 1 by omega]
      exact (field_mapPayload_row s hk (by decide)).trans hst
    · rw [show 6 + 4 * k = 4 + 4 * k + 2 by omega]
      exact (field_mapPayload_row s hk (by decide)).trans hpeer
  · rw [hport q, if_neg (by rw [hin]; simp)]

/-- Settles O28: the layout of a flit, the flit slot and the maps of a course. -/
theorem flitSlotsAndMaps : Obligations.FlitSlotsAndMaps := by
  unfold Obligations.FlitSlotsAndMaps
  refine ⟨fun f hp hs ho => ⟨length_wireOf f, flitOf_wireOf hp hs ho, goodWindow_wireOf⟩,
    fun s t p ht => ⟨flitSlot_replayLost ht, fun hin hr hok => ?_, flitSlot_training ht⟩,
    fun s p f => ⟨mapSend_queues s, fun h had hp _ => ?_,
      fun k hk hin hkind h => execMapReceive_discards hin hkind (badHeader_of_map hkind hk h)⟩⟩
  · obtain ⟨r, hport, hnow, hrun, he⟩ := flitSlot_inService ht hin hok
    have hack := sendSlot_ack (s := r) (p := p.val) (t := t.toNat)
    rw [← hport] at hr
    rw [he, ← hrun, ← hport]
    subst hnow
    exact ⟨_, _, rfl, hack.2, hack.1, fun g rest hu => sendSlot_urgent hr hu, sendSlot_retry,
      fun hu hd hres hidle hc hv => sendSlot_idle hr hu hd hres hidle hc hv,
      fun v g o rest hu hd hres hidle hc hv hq h9 => sendSlot_vc hr hu hd hres hidle hc hv hq h9⟩
  · obtain ⟨u, he, hmaps, hseq⟩ := execMapReceive_keeps h had hp
    refine ⟨u, he, ?_, fun a hne => ?_, hseq⟩
    · rw [hmaps, sget_sset, if_pos rfl]
    · rw [hmaps, sget_sset, if_neg hne]

end Sys2Proof.Machine
end

section
/-!
Requests of other modules (O29): a HEAD from a source address of no module is refused, and its refusal is answered against the transfer that its key
names. Where such a transfer is open, it changes.
-/
namespace Sys2Proof.Machine
open Sys2Proof

/-- A module in RUN with port 0 in service that holds an open transfer of one byte under the source address 0x2800, which names no module (R14). No HEAD
opens such a transfer (`takeHead`), but the statement is about every state. -/
def strayTransfer : State :=
  (({ State.reset with ctl := { State.reset.ctl with dev := .run, powered := true, filled := true } }).setEnt 0x3300 1 4).setTransfer
    (transferKey 0x2800 3) (some { total := 1, committed := 0, land := none, landed := 0, answered := 0 })

/-- A HEAD of that byte (Table 13-9), from the same source address. -/
def strayHead : Flit :=
  { bareFlit 2 (le 1 1 ++ le 3 0 ++ le 4 1 ++ le 6 0 ++ le 2 0 ++ le 2 3 ++ le 2 0 ++ le 4 0 ++ le 8 0) with
    dst := BitVec.ofNat 16 State.reset.device, src := 0x2800, tag := 7, last := true }

theorem strayHead_arrives : Accepts strayTransfer 0 strayHead 2 ∧ opensTooMany strayTransfer strayHead = false ∧ badSource strayHead = true ∧
    strayHead.dst.toNat = strayTransfer.device := by
  simp only [Accepts]
  decide +kernel

theorem strayTransfer_nothingWaits : NothingWaits strayTransfer := fun _ => rfl

/-- The transfers open after a command. -/
def transfersAfter (o : Out) : Option (SMap (Option Transfer)) :=
  match o with
  | .next u => some u.links.transfers
  | _ => none

/-- The refusal is the answer to the transfer's one byte, and closes it (R399). -/
theorem strayHead_closes : transfersAfter (exec (.headFlitReceive 5 0 strayHead) strayTransfer) = some [] := by decide +kernel

/-- Refutes O29, in its clause on source addresses of no module: a refused HEAD from one changes the open transfers where its own is open. -/
theorem not_requestsServed : ¬ Obligations.RequestsServed := by
  unfold Obligations.RequestsServed
  intro h
  obtain ⟨haccepts, hroom, hbad, hmine⟩ := strayHead_arrives
  obtain ⟨-, hsource, -⟩ := h strayTransfer 5 0 0 strayHead (by decide +kernel) hmine strayTransfer_nothingWaits
  obtain ⟨hhead, -⟩ := hsource hbad
  obtain ⟨u, hu, hkept, -⟩ := hhead haccepts hroom
  have hclosed : some u.links.transfers = some [] := by rw [← strayHead_closes, hu]; rfl
  rw [hkept] at hclosed
  exact absurd hclosed (by decide +kernel)

end Sys2Proof.Machine
end

section
/-!
The start fabric time (O37). A cache counts its lookups in an entry whose subindex names the die (R181). A context base far beyond HBM has lines of a
die that no module has, whose count falls on the key of the context base itself: reading one image then moves the base of those after it.
-/
namespace Sys2Proof.Machine
open Sys2Proof

/-! ### What reading HBM does to the context base `0x5510:02` -/

/-- What the checks of stored data keep: the media streams and the context base. -/
def streamsAndBase (s : State) : Mfe × Nat := (s.mfe, s.ent 0x5510 2)

/-- An operation leaves the media streams alone and counts the context base up by at most n. -/
def BaseCounts (n : Nat) (s t : State) : Prop :=
  t.mfe = s.mfe ∧
    (0 < s.ent 0x5510 2 → s.ent 0x5510 2 + n < 2 ^ 64 → s.ent 0x5510 2 ≤ t.ent 0x5510 2 ∧ t.ent 0x5510 2 ≤ s.ent 0x5510 2 + n)

theorem BaseCounts.trans {m n : Nat} {s t u : State} (h : BaseCounts m s t) (h' : BaseCounts n t u) : BaseCounts (m + n) s u := by
  obtain ⟨hmfe, h⟩ := h
  obtain ⟨hmfe', h'⟩ := h'
  refine ⟨hmfe'.trans hmfe, fun hpos hlt => ?_⟩
  obtain ⟨hlo, hhi⟩ := h hpos (by omega)
  obtain ⟨hlo', hhi'⟩ := h' (by omega) (by omega)
  omega

theorem BaseCounts.mono {m n : Nat} {s t : State} (h : BaseCounts m s t) (hmn : m ≤ n) : BaseCounts n s t := by
  obtain ⟨hmfe, h⟩ := h
  refine ⟨hmfe, fun hpos hlt => ?_⟩
  obtain ⟨hlo, hhi⟩ := h hpos (by omega)
  omega

theorem BaseCounts.of_keeps {s t : State} (n : Nat) (h : streamsAndBase t = streamsAndBase s) : BaseCounts n s t := by
  obtain ⟨hmfe, hbase⟩ := Prod.mk.inj h
  exact ⟨hmfe, fun _ _ => by omega⟩

theorem BaseCounts.then_keeps {n : Nat} {s t u : State} (h : BaseCounts n s t) (h' : streamsAndBase u = streamsAndBase t) : BaseCounts n s u :=
  h.trans (.of_keeps 0 h')

theorem BaseCounts.foldl {α : Type} {n : Nat} {f : State → α → State} (h : ∀ s x, BaseCounts n s (f s x)) (l : List α) (s : State) :
    BaseCounts (l.length * n) s (l.foldl f s) := by
  induction l generalizing s with
  | nil => exact .of_keeps _ rfl
  | cons x l ih =>
    rw [List.length_cons, Nat.succ_mul, Nat.add_comm]
    exact (h s x).trans (ih _)

/-- The counters of the caches: lookups, hits, lines written back (R181). -/
def cacheCounters : List Nat := [0x4020, 0x4021, 0x4022]

theorem cacheCounter_shares {i d : Nat} (hi : i ∈ cacheCounters) (h : ekey 0x5510 2 = ekey i (d + 1)) :
    entryMod i (d + 1) = 2 ^ 64 ∧ entryDefault i (d + 1) = 0 := by
  simp only [cacheCounters, List.mem_cons, List.not_mem_nil, or_false] at hi
  unfold ekey at h
  rcases hi with rfl | rfl | rfl
  · obtain rfl : d = 0x14F001 := by omega
    decide +kernel
  · obtain rfl : d = 0x14EF01 := by omega
    decide +kernel
  · obtain rfl : d = 0x14EE01 := by omega
    decide +kernel

/-- Counting under the key of the context base counts the base up. -/
theorem base_addEnt_shared {s : State} {i d : Nat} (hi : i ∈ cacheCounters) (h : ekey 0x5510 2 = ekey i (d + 1))
    (hpos : 0 < s.ent 0x5510 2) (hlt : s.ent 0x5510 2 + 1 < 2 ^ 64) : (s.addEnt i (d + 1) 1).ent 0x5510 2 = s.ent 0x5510 2 + 1 := by
  obtain ⟨hmod, hdflt⟩ := cacheCounter_shares hi h
  have hbase : entryDefault 0x5510 2 = 0 := by decide +kernel
  have hsame : s.ent i (d + 1) = s.ent 0x5510 2 := by
    unfold State.ent
    rw [h, hdflt, hbase]
  unfold State.addEnt
  rw [State.ent_setEnt, if_pos h, hsame, hmod, hdflt, Nat.mod_eq_of_lt hlt, if_neg (by omega)]

theorem addEnt_cache_baseCounts {i : Nat} (hi : i ∈ cacheCounters) (s : State) (d : Nat) : BaseCounts 1 s (s.addEnt i (d + 1) 1) := by
  refine ⟨rfl, fun hpos hlt => ?_⟩
  by_cases h : ekey 0x5510 2 = ekey i (d + 1)
  · rw [base_addEnt_shared hi h hpos hlt]
    omega
  · rw [State.ent_addEnt_ne s _ _ _ _ _ h]
    omega

section Keeps
variable (s : State)

theorem setEnt_streamsAndBase {i j : Nat} (v : Nat) (hi : i ≠ 0x5510) (hj : j < 256) : streamsAndBase (s.setEnt i j v) = streamsAndBase s :=
  Prod.ext rfl (State.ent_setEnt_ne s i j v _ _ (by rw [ne_eq, ekey_inj (by decide) hj]; omega))

theorem addEnt_streamsAndBase {i j : Nat} (n : Nat) (hi : i ≠ 0x5510) (hj : j < 256) : streamsAndBase (s.addEnt i j n) = streamsAndBase s :=
  setEnt_streamsAndBase s _ hi hj

theorem setCore_streamsAndBase (c : Nat) (x : CoreS) : streamsAndBase (s.setCore c x) = streamsAndBase s := rfl

theorem noteCorrected_streamsAndBase {kind : Nat} (hk : kind < 256) (unit addr : Nat) :
    streamsAndBase (noteCorrected s kind unit addr) = streamsAndBase s := by
  rw [← addEnt_streamsAndBase s 1 (by decide : 0x4100 ≠ 0x5510) hk]
  unfold noteCorrected
  dsimp only
  split <;> split <;> rfl

/-- What an uncorrectable read sets besides its count: the record of the run's first one (R534). -/
def recordBad (s : State) (kind cause unit addr : Nat) : State :=
  if s.running && decide (s.ent 0x4110 1 = 0) then
    ((((s.setEnt 0x4110 1 kind).setEnt 0x4110 2 cause).setEnt 0x4110 3 unit).setEnt 0x4110 4 addr).setEnt 0x4110 5 s.now.toNat
  else s

theorem recordBad_streamsAndBase (kind cause unit addr : Nat) : streamsAndBase (recordBad s kind cause unit addr) = streamsAndBase s := by
  unfold recordBad
  split
  · iterate 5 rw [setEnt_streamsAndBase _ _ (by decide) (by decide)]
  · rfl

/-- The event of an uncorrectable read, at most 64 a second (R534). -/
def reportBad (s : State) (kind cause unit addr : Nat) : State :=
  let recent := s.mem.uncorrected.filter fun t => decide (s.now.toNat < t.toNat + 1000000000)
  if recent.length < 64 then
    { s with mem := { s.mem with uncorrected := s.now :: recent } }.raise 0x4102 [(1, kind), (1, cause), (2, unit), (4, 0), (8, addr)]
  else s

theorem noteBad_eq (kind cause unit addr : Nat) :
    noteBad s kind cause unit addr = reportBad (recordBad (s.addEnt 0x4101 kind 1) kind cause unit addr) kind cause unit addr := rfl

theorem reportBad_streamsAndBase (kind cause unit addr : Nat) : streamsAndBase (reportBad s kind cause unit addr) = streamsAndBase s := by
  unfold reportBad
  dsimp only
  split <;> rfl

theorem noteBad_streamsAndBase {kind : Nat} (hk : kind < 256) (cause unit addr : Nat) :
    streamsAndBase (noteBad s kind cause unit addr) = streamsAndBase s := by
  rw [noteBad_eq, reportBad_streamsAndBase, recordBad_streamsAndBase, addEnt_streamsAndBase s 1 (by decide) hk]

theorem addCandidate_streamsAndBase (kind origin unit key : Nat) : streamsAndBase (addCandidate s kind origin unit key) = streamsAndBase s := by
  unfold addCandidate
  split
  · rfl
  · split
    · exact addEnt_streamsAndBase s _ (by decide) (by decide)
    · exact setEnt_streamsAndBase { s with mem := { s.mem with candidates := s.mem.candidates ++ [(kind, origin, unit, key)] } } _ (by decide) (by decide)

theorem hcheck_streamsAndBase (a n : Nat) : streamsAndBase (hcheck s a n).1 = streamsAndBase s := by
  unfold hcheck
  refine foldl_keeps_fst _ streamsAndBase (fun t u => ?_) s.mem.hbmRaw (s, false)
  dsimp only
  split
  · rfl
  · split
    · rfl
    · split
      · rfl
      · exact noteCorrected_streamsAndBase t.1 (by decide) _ _
      · split
        · exact noteBad_streamsAndBase t.1 (by decide) _ _ _
        · rw [addCandidate_streamsAndBase, noteBad_streamsAndBase t.1 (by decide)]

theorem mergeChecked_streamsAndBase {kind : Nat} (hk : kind < 256) (c first n : Nat) (u : Nat × Option RawCode) :
    streamsAndBase (mergeChecked kind c first n s u) = streamsAndBase s := by
  unfold mergeChecked
  dsimp only
  split
  · rfl
  · split
    · rfl
    · split
      · rfl
      · split
        · rfl
        · exact noteCorrected_streamsAndBase (s.setSramWord _ none) hk _ _

theorem freshSram_streamsAndBase {kind : Nat} (hk : kind < 256) (c : Nat) : streamsAndBase (freshSram s kind c) = streamsAndBase s := by
  unfold freshSram touchSram
  split
  · rfl
  · rw [setEnt_streamsAndBase _ _ (by decide) (by decide)]
    exact foldl_keeps _ streamsAndBase (fun t u => mergeChecked_streamsAndBase t hk c _ _ u) _ s

theorem writeBack_baseCounts (x : CacheLine) : BaseCounts 1 s (writeBack s x) := by
  unfold writeBack
  split
  · have hpoison : streamsAndBase (poisonUnits (s.addEnt 0x4022 (lineDie x.line + 1) 1) x) = streamsAndBase (s.addEnt 0x4022 (lineDie x.line + 1) 1) :=
      foldl_keeps (fun (t : State) w => let u := 4 * x.line + w / 8
        t.setUnit u (some (poisonCode (hread t (localOf t u) 64)))) streamsAndBase (fun _ _ => rfl) _ _
    exact (addEnt_cache_baseCounts (by decide) s _).then_keeps hpoison
  · exact .of_keeps _ rfl

theorem makeRoom_baseCounts (l : Nat) : BaseCounts 1 s (makeRoom s l) := by
  unfold makeRoom
  dsimp only
  split
  · exact .of_keeps _ rfl
  · split
    · next x _ => exact writeBack_baseCounts (s.setCache (s.mem.cache.filter fun y => decide (y.line ≠ x.line))) x
    · exact .of_keeps _ rfl

theorem useLine_baseCounts (x : CacheLine) (a o n : Nat) (w : Bool) : BaseCounts 1 s (useLine s x a o n w).2 := by
  unfold useLine
  extract_lets left
  split
  · split
    · exact writeBack_baseCounts s _
    · exact .of_keeps _ (noteCorrected_streamsAndBase s (by decide) _ _)
  · exact .of_keeps _ rfl

/-- A lookup counts at its die, and a hit counts once more. -/
theorem countLookup_baseCounts (d : Nat) (hit : Bool) : BaseCounts 1 (s.addEnt 0x4020 (d + 1) 1) (countLookup s d hit) := by
  cases hit
  · exact .of_keeps 1 rfl
  · exact addEnt_cache_baseCounts (by decide) (s.addEnt 0x4020 (d + 1) 1) d

/-- What a lookup does after it has counted itself at its die. -/
theorem lookup_baseCounts_from (a n : Nat) (write alloc : Bool) :
    BaseCounts 2 (s.addEnt 0x4020 (lineDie (lineOf s a) + 1) 1) (lookup s a n write alloc) := by
  unfold lookup
  dsimp only
  split
  · exact (countLookup_baseCounts s _ true).trans (useLine_baseCounts _ _ _ _ _ _)
  · split
    · exact (countLookup_baseCounts s _ false).trans (makeRoom_baseCounts _ _)
    · exact (countLookup_baseCounts s _ false).trans (.of_keeps 1 rfl)

theorem lookup_baseCounts (a n : Nat) (write alloc : Bool) : BaseCounts 3 s (lookup s a n write alloc) :=
  (addEnt_cache_baseCounts (by decide) s _).trans (lookup_baseCounts_from s a n write alloc)

end Keeps

/-- A read of n bytes looks up at most n / 256 + 2 lines. -/
theorem readRanges_one_baseCounts (s : State) (a n : Nat) : BaseCounts (3 * (n / 256 + 2)) s (readRanges s [(a, n)]) := by
  have hlookups : BaseCounts (3 * (n / 256 + 2)) s (lookups s a n false true) := by
    unfold lookups accesses
    split
    · exact .of_keeps _ rfl
    · refine (BaseCounts.foldl (fun t k => lookup_baseCounts t _ _ false true) _ s).mono ?_
      rw [List.length_range]
      omega
  exact hlookups.then_keeps (hcheck_streamsAndBase (lookups s a n false true) a n)

/-- The die, as the cache counters number it, whose lookups count under the key of the context base. -/
def strayDie : Nat := 0x14F001

theorem lookup_strayDie {s : State} {a : Nat} (n : Nat) (write alloc : Bool) (hd : lineDie (lineOf s a) = strayDie)
    (hpos : 0 < s.ent 0x5510 2) (hlt : s.ent 0x5510 2 + 3 < 2 ^ 64) :
    s.ent 0x5510 2 < (lookup s a n write alloc).ent 0x5510 2 ∧ (lookup s a n write alloc).ent 0x5510 2 ≤ s.ent 0x5510 2 + 3 := by
  have hcount := base_addEnt_shared (s := s) (i := 0x4020) (d := strayDie) (by decide) (by decide) hpos (by omega)
  obtain ⟨-, hrest⟩ := lookup_baseCounts_from s a n write alloc
  rw [hd, hcount] at hrest
  obtain ⟨hlo, hhi⟩ := hrest (by omega) (by omega)
  omega

/-- A read from an address of that die, which begins a line, moves the context base. -/
theorem readRanges_strayDie {s : State} {a n : Nat} (hn : n ≠ 0) (hd : lineDie (lineOf s a) = strayDie) (hpos : 0 < s.ent 0x5510 2)
    (hlt : s.ent 0x5510 2 + (3 * (n / 256 + 2) + 3) < 2 ^ 64) : s.ent 0x5510 2 < (readRanges s [(a, n)]).ent 0x5510 2 := by
  have hread : (readRanges s [(a, n)]).ent 0x5510 2 = (lookups s a n false true).ent 0x5510 2 :=
    congrArg Prod.snd (hcheck_streamsAndBase (lookups s a n false true) a n)
  have hlines : (a + n - 1) / 256 - a / 256 ≤ n / 256 + 1 := by omega
  rw [hread]
  unfold lookups accesses
  rw [if_neg hn, List.range_succ_eq_map, List.foldl_cons]
  dsimp only
  rw [Nat.add_zero, show a.max (a / 256 * 256) = a from Nat.max_eq_left (Nat.div_mul_le_self _ _)]
  obtain ⟨hlo, hhi⟩ := lookup_strayDie ((a + n).min ((a / 256 + 1) * 256) - a) false true hd hpos (by omega)
  obtain ⟨-, hrest⟩ := BaseCounts.foldl (n := 3) (fun t k => lookup_baseCounts t (a.max ((a / 256 + k) * 256))
    ((a + n).min ((a / 256 + k + 1) * 256) - a.max ((a / 256 + k) * 256)) false true)
    ((List.range ((a + n - 1) / 256 - a / 256)).map Nat.succ) (lookup s a ((a + n).min ((a / 256 + 1) * 256) - a) false true)
  obtain ⟨hlo', -⟩ := hrest (by omega) (by rw [List.length_map, List.length_range]; omega)
  omega

end Sys2Proof.Machine
end

section
/-!
The start fabric time (O37): the cores of a resume, and a context base with which the first image moves the last.
-/
namespace Sys2Proof.Machine
open Sys2Proof

/-! ### The cores of a resume -/

/-- A core that starts at a time. -/
def CoreS.startedAt (x : CoreS) (t : FTime) : CoreS := { x with waitSince := t }

@[simp] theorem CoreS.startedAt_status (x : CoreS) (t : FTime) : (x.startedAt t).status = x.status := rfl

/-- One core of a resume: its image is read, and the core stands as the image says. -/
def resumeCore (count : Nat → Nat) (t : State) (c : Nat) : State :=
  ([2, 3, 4, 6].foldl (fun u k => freshSram u k c) (readRanges t [(imageAt t c, 7340032)])).setCore c
    ((loadImage t c (count c)).startedAt t.now)

/-- The length of the program that the tab gives a core. -/
def programLength (s : State) (c : Nat) : Nat :=
  (((programs s s.run.tab).find? fun p => decide (p.1 = c)).map fun p => p.2.words.length).getD 0

theorem resumeCores_eq (s : State) : resumeCores s = (List.range 192).foldl (resumeCore (programLength s)) s := rfl

theorem resumeCore_streamsAndBase (count : Nat → Nat) (t : State) (c : Nat) :
    streamsAndBase (resumeCore count t c) = streamsAndBase (readRanges t [(imageAt t c, 7340032)]) := by
  unfold resumeCore
  rw [setCore_streamsAndBase, List.foldl_cons, List.foldl_cons, List.foldl_cons, List.foldl_cons, List.foldl_nil,
    freshSram_streamsAndBase _ (by decide), freshSram_streamsAndBase _ (by decide), freshSram_streamsAndBase _ (by decide),
    freshSram_streamsAndBase _ (by decide)]

theorem readImage_baseCounts (s : State) (a : Nat) : BaseCounts 86022 s (readRanges s [(a, 7340032)]) :=
  (readRanges_one_baseCounts s a 7340032).mono (by omega)

theorem resumeCore_baseCounts (count : Nat → Nat) (t : State) (c : Nat) : BaseCounts 86022 t (resumeCore count t c) :=
  (readImage_baseCounts t (imageAt t c)).then_keeps (resumeCore_streamsAndBase count t c)

theorem setCore_hbm (s : State) (c : Nat) (x : CoreS) : (s.setCore c x).mem.hbm = s.mem.hbm := rfl

theorem resumeCore_hbm (count : Nat → Nat) (t : State) (c : Nat) : (resumeCore count t c).mem.hbm = t.mem.hbm := by
  unfold resumeCore
  rw [setCore_hbm, List.foldl_cons, List.foldl_cons, List.foldl_cons, List.foldl_cons, List.foldl_nil, freshSram_hbm, freshSram_hbm,
    freshSram_hbm, freshSram_hbm, readRanges_hbm]

theorem resumeCore_base (count : Nat → Nat) (t : State) (c : Nat) :
    (resumeCore count t c).ent 0x5510 2 = (readRanges t [(imageAt t c, 7340032)]).ent 0x5510 2 :=
  congrArg Prod.snd (resumeCore_streamsAndBase count t c)

/-- A resume whose first image lies at the stray die moves the context base before the last core reads its own image. -/
theorem resume_moves_base (count : Nat → Nat) {t : State} (hd : lineDie (lineOf t (imageAt t 0)) = strayDie) (hpos : 0 < t.ent 0x5510 2)
    (hlt : t.ent 0x5510 2 + 191 * 86022 < 2 ^ 64) :
    t.ent 0x5510 2 < ((List.range 191).foldl (resumeCore count) t).ent 0x5510 2 ∧
      ((List.range 191).foldl (resumeCore count) t).ent 0x5510 2 ≤ t.ent 0x5510 2 + 191 * 86022 := by
  have hfirst : t.ent 0x5510 2 < (resumeCore count t 0).ent 0x5510 2 := by
    rw [resumeCore_base]
    exact readRanges_strayDie (by omega) hd hpos (by omega)
  obtain ⟨-, hone⟩ := resumeCore_baseCounts count t 0
  obtain ⟨-, hle⟩ := hone hpos (by omega)
  obtain ⟨-, hrest⟩ := BaseCounts.foldl (resumeCore_baseCounts count) ((List.range 190).map Nat.succ) (resumeCore count t 0)
  rw [List.length_map, List.length_range] at hrest
  obtain ⟨hlo, hhi⟩ := hrest (by omega) (by omega)
  rw [List.range_succ_eq_map, List.foldl_cons]
  exact ⟨by omega, by omega⟩

theorem field_hread {o n : Nat} (s : State) (a : Nat) (h : o < n) : field (hread s a n) o 1 = (hbyte s (a + o)).toNat := by
  rw [field_eq]
  simp [hread, ofLe, h]

theorem loadImage_status (s : State) (c n : Nat) : (loadImage s c n).status =
    if (hbyte s (imageAt s c + 1)).toNat = 3 then 2 else (hbyte s (imageAt s c + 1)).toNat := by
  rw [← field_hread s (imageAt s c) (by decide : 1 < 4096)]
  unfold loadImage
  dsimp only

theorem resumeCore_status (count : Nat → Nat) (t : State) (c : Nat) :
    ((resumeCore count t c).core c).status = (loadImage t c (count c)).status := by
  unfold resumeCore
  rw [State.core_setCore, if_pos rfl, CoreS.startedAt_status]

/-- The last core of a resume stands as its image says in the state in which it is read. -/
theorem resumeCores_last (s : State) : ((resumeCores s).core 191).status =
    (loadImage ((List.range 191).foldl (resumeCore (programLength s)) s) 191 (programLength s 191)).status := by
  rw [resumeCores_eq, List.range_succ, List.foldl_append, List.foldl_cons, List.foldl_nil, resumeCore_status]

/-! ### The command -/

/-- The cores and the media streams. -/
def coresAndStreams (s : State) : SMap CoreS × Mfe := (s.cores, s.mfe)

theorem enterEff_coresAndStreams (s : State) (d : Dev) : coresAndStreams (s.enterEff d) = coresAndStreams s := by
  rcases s.enterEff_cases d with ⟨-, h⟩ | ⟨-, h⟩ <;> rw [h] <;> rfl

theorem forcePorts_coresAndStreams (s : State) (offset : Nat) : coresAndStreams (forcePorts s offset) = coresAndStreams s := by
  unfold forcePorts
  refine foldl_keeps _ coresAndStreams (fun t p => ?_) _ s
  rfl

theorem showCapo_coresAndStreams (s : State) : coresAndStreams (showCapo s) = coresAndStreams s := rfl

theorem deliverAll_resume_of_no_streams {s : State} (h : s.mfe.streams = []) : deliverAll s true = s := by
  refine List.foldl_fixed' (fun k => ?_) _
  simp [deliverStream, State.stream, h, sget, Stream.reset]

/-- What the ports take and the landings of a resume without streams leave the cores alone. -/
theorem deliverAll_forcePorts_cores {s : State} (h : s.mfe.streams = []) (offset : Nat) :
    (deliverAll (showCapo (forcePorts s offset)) true).cores = s.cores := by
  obtain ⟨hcores, hmfe⟩ := Prod.mk.inj ((showCapo_coresAndStreams _).trans (forcePorts_coresAndStreams s offset))
  exact (congrArg State.cores (deliverAll_resume_of_no_streams ((congrArg Mfe.streams hmfe).trans h))).trans hcores

theorem resumeCores_mfe (s : State) : (resumeCores s).mfe = s.mfe := by
  have hcore (t : State) (c : Nat) : (resumeCore (programLength s) t c).mfe = t.mfe := by
    obtain ⟨hmfe, -⟩ := resumeCore_baseCounts (programLength s) t c
    exact hmfe
  rw [resumeCores_eq]
  exact foldl_keeps _ State.mfe hcore _ s

/-- The cores that a resume starts with. -/
theorem startFabricTime_resume {s : State} (ha : s.eff = .armed) (hc : s.run.checked = true) (hr : s.ctl.resuming = true)
    (hn : s.now ≤ s.run.start) (hs : s.mfe.streams = []) : ∃ v, exec .startFabricTimeReached s = .next v ∧
      v.cores = (resumeCores (clearEnts firstOfRun { s with now := s.run.start })).cores := by
  show ∃ v, execStartFabricTimeReached s = .next v ∧ _
  unfold execStartFabricTimeReached
  rw [if_pos ⟨ha, hc⟩, if_pos hn]
  extract_lets t0 offset resume t1 t2 _ _ _ _ t3 t4
  have hres : resume = true := hr
  have h2 : t2 = resumeCores t1 := if_pos hres
  have h3 : coresAndStreams t4 = coresAndStreams t2 := enterEff_coresAndStreams _ .run
  obtain ⟨hcores, hmfe⟩ := Prod.mk.inj (h3.trans (congrArg coresAndStreams h2))
  have hstreams : t4.mfe.streams = [] := by
    rw [hmfe, resumeCores_mfe]
    exact hs
  refine ⟨_, rfl, ?_⟩
  rw [hres]
  exact (deliverAll_forcePorts_cores hstreams offset).trans hcores

/-! ### A context base beyond HBM -/

/-- A context base beyond HBM, at the stray die. No write sets such a base (`contextBaseOk`), but the statement is about every state. -/
def farBase : Nat := 98795592 * regionSize

/-- The status byte of the image of core 191 from that base, and its place. -/
def farStatus : Nat := farBase + 191 * imageStride + 1
def farPlace : Nat := 4 * stackSize + 98795592 * 4294967296 + 32597 * 4096 + 1

/-- An armed resume with the images at that base; the image of core 191 says status 4, ended. -/
def farResume : State :=
  ({ State.reset with
    ctl := { State.reset.ctl with dev := .armed, resuming := true, powered := true, filled := true }
    run := { State.reset.run with checked := true }
    mem := { State.reset.mem with hbm := [(farPlace, 4)] } }).setEnt 0x5510 2 farBase

theorem farStatus_div {j : Nat} (hj : j ≤ 191 * 86022) : (farStatus + j) / regionSize = 98795592 := by
  unfold farStatus farBase imageStride regionSize
  omega

theorem farStatus_mod {j : Nat} (hj : j ≤ 191 * 86022) : (farStatus + j) % regionSize = 191 * 8388608 + 1 + j := by
  unfold farStatus farBase imageStride regionSize
  omega

theorem phys_far_ne (s : State) {j : Nat} (h : 0 < j) (hj : j ≤ 191 * 86022) : phys s (farStatus + j) ≠ farPlace := by
  unfold phys stackOf farPlace
  dsimp only
  rw [farStatus_div hj, farStatus_mod hj]
  unfold stackSize
  split
  · dsimp only
    omega
  · dsimp only
    omega

theorem farResume_status (n : Nat) : (loadImage farResume 191 n).status = 4 := by
  have hbyte : (hbyte farResume (imageAt farResume 191 + 1)).toNat = 4 := by decide +kernel
  rw [loadImage_status, hbyte]
  rfl

/-- The state that the resume's cores start from. -/
def farStart : State := clearEnts firstOfRun { farResume with now := farResume.run.start }

theorem farStart_base : farStart.ent 0x5510 2 = farBase ∧ lineDie (lineOf farStart (imageAt farStart 0)) = strayDie ∧
    farStart.mem.hbm = [(farPlace, 4)] := by decide +kernel

/-- With the base moved, the byte that core 191 takes for its status lies elsewhere, and is zero. -/
theorem hbyte_far_moved {t : State} (hhbm : t.mem.hbm = [(farPlace, 4)]) (hlo : farBase < t.ent 0x5510 2)
    (hhi : t.ent 0x5510 2 ≤ farBase + 191 * 86022) : hbyte t (imageAt t 191 + 1) = 0 := by
  obtain ⟨j, hj⟩ := Nat.exists_eq_add_of_lt hlo
  have hplace : imageAt t 191 + 1 = farStatus + (j + 1) := by
    unfold imageAt farStatus
    omega
  have hne : farPlace ≠ phys t (farStatus + (j + 1)) := (phys_far_ne t (by omega) (by omega)).symm
  rw [hplace]
  unfold hbyte
  rw [hhbm, sget, if_neg hne, sget]

theorem farStart_last_status : ((resumeCores farStart).core 191).status = 0 := by
  obtain ⟨hbase, hdie, hhbm⟩ := farStart_base
  obtain ⟨hlo, hhi⟩ := resume_moves_base (programLength farStart) hdie (by rw [hbase]; decide) (by rw [hbase]; decide)
  have hmem : ((List.range 191).foldl (resumeCore (programLength farStart)) farStart).mem.hbm = farStart.mem.hbm :=
    foldl_keeps _ (fun t => t.mem.hbm) (resumeCore_hbm _) _ _
  rw [hbase] at hlo hhi
  rw [resumeCores_last, loadImage_status, hbyte_far_moved (hmem.trans hhbm) hlo hhi]
  rfl

/-- Refutes O37, in its clause on a resume: with a context base beyond HBM, reading the first image moves the base of the last one. -/
theorem not_startFabricTime : ¬ Obligations.StartFabricTime := by
  unfold Obligations.StartFabricTime
  intro h
  obtain ⟨u, hu, -, -, -, -, -, -, -, -, hresume, -⟩ := h farResume (by decide +kernel) (by decide +kernel) (fun k _ => rfl)
  obtain ⟨v, hv, hcores⟩ := startFabricTime_resume (s := farResume) (by decide +kernel) (by decide +kernel) (by decide +kernel)
    (by decide +kernel) (by decide +kernel)
  obtain rfl : u = v := by
    rw [hu] at hv
    injection hv
  have himage : u.core 191 = (loadImage farResume 191 (programLength farResume 191)).startedAt u.now :=
    hresume (by decide +kernel) 191 (by decide)
  have hfound : (u.core 191).status = 0 := by
    unfold State.core
    rw [hcores]
    exact farStart_last_status
  rw [himage, CoreS.startedAt_status, farResume_status] at hfound
  exact absurd hfound (by decide)

end Sys2Proof.Machine
end

section
/-!
SUPPORT. The main side as it is reset, powered and started: what each of these operations leaves alone and what it shows (R445, R446, R518).
-/
namespace Sys2Proof.Machine
open Sys2Proof

/-! ### Entries -/

theorem foldl_sclear_outside {α : Type} {k : Nat} (d : α) (l : List (Nat × Nat × Nat)) (m : SMap α)
    (h : ∀ r ∈ l, k < ekey r.1 r.2.1 ∨ ekey r.1 r.2.1 + (r.2.2 + 1 - r.2.1) ≤ k) :
    sget d (l.foldl (fun m r => sclear m (ekey r.1 r.2.1) (r.2.2 + 1 - r.2.1)) m) k = sget d m k := by
  induction l generalizing m with
  | nil => rfl
  | cons r l ih =>
    rw [List.foldl_cons, ih _ fun r hr => h r (List.mem_cons_of_mem _ hr), sget_sclear d m _ _ _ (h r List.mem_cons_self)]

/-- An entry outside the ranges that are cleared reads as before. -/
theorem State.ent_clearEnts_outside {l : List (Nat × Nat × Nat)} {i j : Nat} (s : State)
    (h : ∀ r ∈ l, ekey i j < ekey r.1 r.2.1 ∨ ekey r.1 r.2.1 + (r.2.2 + 1 - r.2.1) ≤ ekey i j) : (clearEnts l s).ent i j = s.ent i j := by
  unfold State.ent clearEnts
  dsimp only
  rw [foldl_sclear_outside none l s.dict h]

section Enter
variable (s : State) (d : Dev)

/-- The state that is left shows in `0x5002:02` (Table 15-17). -/
theorem State.ent_enter_previous : (s.enter d).ent 0x5002 2 = s.ctl.dev.code := by
  refine (State.ent_setEnt_ne (s.setEnt 0x5002 2 s.ctl.dev.code) 0x5002 3 _ _ _ (by decide)).trans ?_
  exact s.ent_setEnt_self _ _ _

theorem State.ent_enter_ne {i j : Nat} (h : i ≠ 0x5002) (hj : j < 256) : (s.enter d).ent i j = s.ent i j := by
  have hne (k : Nat) (hk : k < 256) : ekey i j ≠ ekey 0x5002 k := by
    rw [ne_eq, ekey_inj hj hk]
    omega
  refine (State.ent_setEnt_ne (s.setEnt 0x5002 2 s.ctl.dev.code) 0x5002 3 _ _ _ (hne 3 (by decide))).trans ?_
  exact State.ent_setEnt_ne s _ _ _ _ _ (hne 2 (by decide))

end Enter

/-! ### Operations that only change entries -/

/-- Everything but the numeric entries and the count of free values. -/
def besideEntries (s : State) : State := { s with dict := [], freeCtr := 0 }

section BesideEntries
variable {s t : State} (h : besideEntries t = besideEntries s)
include h

theorem ctl_of_besideEntries : t.ctl = s.ctl :=
  show (besideEntries t).ctl = (besideEntries s).ctl from congrArg State.ctl h
theorem ev_of_besideEntries : t.ev = s.ev :=
  show (besideEntries t).ev = (besideEntries s).ev from congrArg State.ev h
theorem mem_of_besideEntries : t.mem = s.mem :=
  show (besideEntries t).mem = (besideEntries s).mem from congrArg State.mem h

end BesideEntries

section Operations
variable (s : State)

theorem darkPorts_besideEntries : besideEntries (darkPorts s) = besideEntries s := by
  unfold darkPorts
  refine foldl_keeps _ besideEntries (fun t k => ?_) _ s
  refine foldl_keeps _ besideEntries (fun t p => ?_) _ t
  rfl

theorem countCuts_besideEntries (stopped : Nat × Nat × Nat → Bool) : besideEntries (countCuts s stopped) = besideEntries s := by
  unfold countCuts
  refine foldl_keeps _ besideEntries (fun t p => ?_) _ s
  dsimp only
  split <;> rfl

theorem endWaits_besideEntries : besideEntries (endWaits s) = besideEntries s := by
  unfold endWaits
  split
  · unfold waitBallast
    refine foldl_keeps _ besideEntries (fun t c => ?_) _ s
    unfold endBallast
    split <;> rfl
  · rfl

theorem darkPorts_ent_below {i j : Nat} (h : ekey i j < ekey 0x3300 0) : (darkPorts s).ent i j = s.ent i j := by
  unfold darkPorts
  refine foldl_keeps _ (fun t => t.ent i j) (fun t k => ?_) _ s
  refine foldl_keeps _ (fun t => t.ent i j) (fun t p => ?_) _ t
  refine State.ent_setEnt_ne t _ _ _ _ _ ?_
  unfold ekey at h ⊢
  omega

/-! ### The main side is reset -/

theorem disableStreams_ctl : (disableStreams s).ctl = s.ctl := by
  unfold disableStreams
  dsimp only
  rw [State.clearEnts_ctl, ctl_of_besideEntries (countCuts_besideEntries s _)]

theorem disableStreams_ev : (disableStreams s).ev = s.ev := by
  unfold disableStreams
  dsimp only
  rw [State.clearEnts_ev, ev_of_besideEntries (countCuts_besideEntries s _)]

theorem disableStreams_mem : (disableStreams s).mem = s.mem := by
  unfold disableStreams
  dsimp only
  rw [State.clearEnts_mem, mem_of_besideEntries (countCuts_besideEntries s _)]

theorem mainReset_dev : (mainReset s).ctl.dev = s.ctl.dev := by
  unfold mainReset
  dsimp only
  rw [ctl_of_besideEntries (darkPorts_besideEntries _), State.clearEnts_ctl]

theorem mainReset_ev : (mainReset s).ev = s.ev := by
  unfold mainReset
  dsimp only
  rw [ev_of_besideEntries (darkPorts_besideEntries _), State.clearEnts_ev]

theorem mainReset_inits : (mainReset s).mem.inits = s.mem.inits := by
  unfold mainReset
  dsimp only
  rw [mem_of_besideEntries (darkPorts_besideEntries _), State.clearEnts_mem]

/-- In STANDBY the main side is unpowered, and what was raised is kept. -/
theorem toStandby_spec : (toStandby s).ctl.dev = .standby ∧ (toStandby s).ctl.powered = false ∧ (toStandby s).ev = s.ev := by
  refine ⟨rfl, rfl, ?_⟩
  unfold toStandby
  dsimp only
  rw [State.setOct_ev, State.enter_ev, mainReset_ev, disableStreams_ev, ev_of_besideEntries (endWaits_besideEntries s)]

theorem ent_withCtlMem (c : Ctl) (m : Mem) (i j : Nat) : ({ s with ctl := c, mem := m } : State).ent i j = s.ent i j := rfl

theorem noteSlots_ent (i j : Nat) : (noteSlots s).ent i j = s.ent i j := rfl

theorem noteSlots_mem : (noteSlots s).mem = s.mem := rfl

theorem clearRegisters_ent (l : List Nat) (i j : Nat) : (l.foldl (fun t k => t.setOct 0x8210 k []) s).ent i j = s.ent i j := by
  refine foldl_keeps _ (fun t => t.ent i j) (fun t k => ?_) l s
  rfl

theorem clearRegisters_mem (l : List Nat) : (l.foldl (fun t k => t.setOct 0x8210 k []) s).mem = s.mem := by
  refine foldl_keeps _ State.mem (fun t k => ?_) l s
  rfl

theorem toInit_spec : (toInit s).ctl.dev = .init ∧ (toInit s).ctl.powered = true ∧ (toInit s).ent 0x2400 3 = 3 ∧
    (toInit s).ent 0x5002 2 = s.ctl.dev.code ∧ (toInit s).mem.inits = s.mem.inits + 1 := by
  refine ⟨rfl, rfl, ?_, ?_, ?_⟩
  · unfold toInit
    dsimp only
    rw [ent_withCtlMem, State.ent_setEnt_self]
  · unfold toInit
    dsimp only
    rw [ent_withCtlMem, State.ent_setEnt_ne _ _ _ _ _ _ (by decide), clearRegisters_ent, noteSlots_ent,
      State.ent_clearEnts_outside _ (by decide), State.ent_enter_previous, mainReset_dev, disableStreams_ctl]
  · unfold toInit
    dsimp only
    rw [clearRegisters_mem, noteSlots_mem, State.clearEnts_mem, State.enter_mem, mainReset_inits, disableStreams_mem]

/-! ### Entry to FAULT -/

theorem memWrite_ctl (a : Nat) (b : List Byte) : (memWrite s a b).ctl = s.ctl := by
  have hkeeps : besideMemory (memWrite s a b) = besideMemory s := (hwrite_besideMemory _ a b).trans (lookups_besideMemory s a _ _ _)
  obtain ⟨-, -, hctl, -⟩ := besideMemory_inj hkeeps
  exact hctl

theorem spoilOutputs_ctl : (spoilOutputs s).ctl = s.ctl := by
  unfold spoilOutputs
  refine foldl_keeps _ State.ctl (fun t x => ?_) _ s
  exact memWrite_ctl (drawBytes t (field x.desc 56 4)).2 _ _

theorem openPorts_ctl : (openPorts s).ctl = s.ctl := by
  unfold openPorts mapPorts
  refine foldl_keeps _ State.ctl (fun t p => ?_) _ s
  rfl

theorem raise_ent (code : Nat) (vs : List (Nat × Nat)) (i j : Nat) : (s.raise code vs).ent i j = s.ent i j := rfl
theorem setOct_ent (k l : Nat) (b : List Byte) (i j : Nat) : (s.setOct k l b).ent i j = s.ent i j := rfl

/-- FAULT keeps its reason in `0x5002:04` (R446). -/
theorem toFault_spec (reason : Nat) : (toFault s reason).ctl.dev = .fault ∧ (toFault s reason).ent 0x5002 4 = reason := by
  unfold toFault
  dsimp only
  refine ⟨?_, ?_⟩
  · rw [State.raise_ctl, State.setOct_ctl, State.setEnt_ctl, State.setEnt_ctl, openPorts_ctl, disableStreams_ctl, spoilOutputs_ctl]
    rfl
  · rw [raise_ent, setOct_ent, State.ent_setEnt_self]

/-! ### What a write to HBM leaves of addresses, candidates and fuses -/

/-- The address and role to come into force, the repair candidates and the fuse map. -/
def addressAndRepairs (s : State) : (Nat × Nat × Nat) × List (Nat × Nat × Nat × Nat) × List (List Byte) :=
  ((s.ent 0x3200 1, s.ent 0x3200 2, s.ent 0x3200 3), s.mem.candidates, s.mem.fuses)

theorem addressAndRepairs_of_eq {s t : State} (hent : ∀ k, k ∈ [1, 2, 3] → t.ent 0x3200 k = s.ent 0x3200 k)
    (hcand : t.mem.candidates = s.mem.candidates) (hfuse : t.mem.fuses = s.mem.fuses) : addressAndRepairs t = addressAndRepairs s := by
  unfold addressAndRepairs
  rw [hent 1 (by decide), hent 2 (by decide), hent 3 (by decide), hcand, hfuse]

theorem setEnt_addressAndRepairs {i : Nat} (j v : Nat) (hi : 0x3201 ≤ i) : addressAndRepairs (s.setEnt i j v) = addressAndRepairs s := by
  refine addressAndRepairs_of_eq (fun k hk => State.ent_setEnt_ne s i j v _ _ ?_) rfl rfl
  have hk' : k < 256 := by
    simp only [List.mem_cons, List.not_mem_nil, or_false] at hk
    omega
  unfold ekey
  omega

theorem addEnt_addressAndRepairs {i : Nat} (j n : Nat) (hi : 0x3201 ≤ i) : addressAndRepairs (s.addEnt i j n) = addressAndRepairs s :=
  setEnt_addressAndRepairs s j _ hi

theorem noteCorrected_addressAndRepairs (kind unit addr : Nat) : addressAndRepairs (noteCorrected s kind unit addr) = addressAndRepairs s := by
  rw [← addEnt_addressAndRepairs s kind 1 (by decide : 0x3201 ≤ 0x4100)]
  unfold noteCorrected
  dsimp only
  split <;> split <;> rfl

theorem setUnit_addressAndRepairs (u : Nat) (r : Option RawCode) : addressAndRepairs (s.setUnit u r) = addressAndRepairs s := rfl
theorem setCache_addressAndRepairs (l : List CacheLine) : addressAndRepairs (s.setCache l) = addressAndRepairs s := rfl

theorem writeBack_addressAndRepairs (x : CacheLine) : addressAndRepairs (writeBack s x) = addressAndRepairs s := by
  unfold writeBack
  split
  · rw [← addEnt_addressAndRepairs s (lineDie x.line + 1) 1 (by decide : 0x3201 ≤ 0x4022)]
    unfold poisonUnits
    refine foldl_keeps _ addressAndRepairs (fun t w => ?_) _ _
    rfl
  · rfl

theorem makeRoom_addressAndRepairs (l : Nat) : addressAndRepairs (makeRoom s l) = addressAndRepairs s := by
  unfold makeRoom
  dsimp only
  split
  · rfl
  · split
    · rw [writeBack_addressAndRepairs, setCache_addressAndRepairs]
    · rfl

theorem countLookup_addressAndRepairs (d : Nat) (hit : Bool) : addressAndRepairs (countLookup s d hit) = addressAndRepairs s := by
  rw [← addEnt_addressAndRepairs s (d + 1) 1 (by decide : 0x3201 ≤ 0x4020)]
  cases hit
  · rfl
  · exact addEnt_addressAndRepairs (s.addEnt 0x4020 (d + 1) 1) (d + 1) 1 (by decide : 0x3201 ≤ 0x4021)

theorem useLine_addressAndRepairs (x : CacheLine) (a o n : Nat) (w : Bool) : addressAndRepairs (useLine s x a o n w).2 = addressAndRepairs s := by
  unfold useLine
  extract_lets left
  split
  · split
    · exact writeBack_addressAndRepairs s _
    · exact noteCorrected_addressAndRepairs s _ _ _
  · rfl

theorem lookup_addressAndRepairs (a n : Nat) (write alloc : Bool) : addressAndRepairs (lookup s a n write alloc) = addressAndRepairs s := by
  unfold lookup
  dsimp only
  split
  · rw [setCache_addressAndRepairs, useLine_addressAndRepairs, countLookup_addressAndRepairs]
  · split
    · rw [setCache_addressAndRepairs, makeRoom_addressAndRepairs, countLookup_addressAndRepairs]
    · rw [countLookup_addressAndRepairs]

theorem lookups_addressAndRepairs (a n : Nat) (write alloc : Bool) : addressAndRepairs (lookups s a n write alloc) = addressAndRepairs s := by
  unfold lookups accesses
  split
  · rfl
  · exact foldl_keeps _ addressAndRepairs (fun t k => lookup_addressAndRepairs t _ _ write alloc) _ s

theorem mergeUnit_addressAndRepairs (a n : Nat) (u : Nat × Option RawCode) : addressAndRepairs (mergeUnit a n s u) = addressAndRepairs s := by
  unfold mergeUnit
  dsimp only
  split
  · rfl
  · split
    · rfl
    · split
      · rfl
      · split
        · rfl
        · rw [noteCorrected_addressAndRepairs, setUnit_addressAndRepairs]
        · rfl

theorem hput_addressAndRepairs (a : Nat) (b : List Byte) : addressAndRepairs (hput s a b) = addressAndRepairs s := rfl

theorem withRawList_addressAndRepairs (l : List (Nat × Nat)) :
    addressAndRepairs { s with mem := { s.mem with rawList := l } } = addressAndRepairs s := rfl

theorem hwrite_addressAndRepairs (a : Nat) (b : List Byte) : addressAndRepairs (hwrite s a b) = addressAndRepairs s := by
  unfold hwrite
  split
  · rfl
  · dsimp only
    rw [setEnt_addressAndRepairs _ _ _ (by decide), withRawList_addressAndRepairs,
      foldl_keeps _ addressAndRepairs (fun t u => mergeUnit_addressAndRepairs t a b.length u), hput_addressAndRepairs]

theorem zeroArea_addressAndRepairs : addressAndRepairs (zeroArea s) = addressAndRepairs s := by
  unfold zeroArea
  split
  · rfl
  · unfold memWrite
    rw [hwrite_addressAndRepairs, lookups_addressAndRepairs]

/-! ### Entry to START -/

/-- The entries as START finds them: counts and areas cleared, the ports dark where their laser failed, the state START. -/
def startCleared (s : State) : State := ((darkPorts (clearEnts startEntries (zeroArea s))).clearOct 0x5200 4).enter .start

/-- Then address and role come into force, and fabric time is sought again. -/
def startShown (s : State) : State :=
  let t := (s.setEnt 0x3200 4 ((s.ent 0x3200 1 * 32 + s.ent 0x3200 2) % 65536)).setEnt 0x3200 5 (s.ent 0x3200 3)
  (((t.setEnt 0x3000 2 1).setEnt 0x3000 4 0xFF).setEnt 0x2400 3 8).setOct 0x8210 7 []

theorem toStart_dict : (toStart s).dict = (startShown (startCleared s)).dict := by
  unfold toStart startShown startCleared
  dsimp only

theorem toStart_mem : (toStart s).mem = (startCleared s).mem := by
  unfold toStart startCleared
  dsimp only
  rw [State.setOct_mem, State.setEnt_mem, State.setEnt_mem, State.setEnt_mem, State.setEnt_mem, State.setEnt_mem]

theorem darkPorts_addressAndRepairs : addressAndRepairs (darkPorts s) = addressAndRepairs s := by
  have hmem := mem_of_besideEntries (darkPorts_besideEntries s)
  refine addressAndRepairs_of_eq (fun k hk => darkPorts_ent_below s ?_) (congrArg Mem.candidates hmem) (congrArg Mem.fuses hmem)
  simp only [List.mem_cons, List.not_mem_nil, or_false] at hk
  unfold ekey
  omega

theorem clearStartEntries_addressAndRepairs : addressAndRepairs (clearEnts startEntries s) = addressAndRepairs s := by
  have houtside : ∀ k ∈ [1, 2, 3], ∀ r ∈ startEntries,
      ekey 0x3200 k < ekey r.1 r.2.1 ∨ ekey r.1 r.2.1 + (r.2.2 + 1 - r.2.1) ≤ ekey 0x3200 k := by
    decide +kernel
  exact addressAndRepairs_of_eq (fun k hk => State.ent_clearEnts_outside s (houtside k hk)) rfl rfl

theorem enter_addressAndRepairs (d : Dev) : addressAndRepairs (s.enter d) = addressAndRepairs s := by
  refine addressAndRepairs_of_eq (fun k hk => State.ent_enter_ne s d (by decide) ?_) rfl rfl
  simp only [List.mem_cons, List.not_mem_nil, or_false] at hk
  omega

theorem clearOct_addressAndRepairs (i j : Nat) : addressAndRepairs (s.clearOct i j) = addressAndRepairs s := rfl

theorem startCleared_addressAndRepairs : addressAndRepairs (startCleared s) = addressAndRepairs s := by
  unfold startCleared
  rw [enter_addressAndRepairs, clearOct_addressAndRepairs, darkPorts_addressAndRepairs,
    clearStartEntries_addressAndRepairs, zeroArea_addressAndRepairs]

theorem startShown_ent : (startShown s).ent 0x3200 4 = (s.ent 0x3200 1 * 32 + s.ent 0x3200 2) % 65536 ∧
    (startShown s).ent 0x3200 5 = s.ent 0x3200 3 := by
  unfold startShown
  dsimp only
  refine ⟨?_, ?_⟩
  · rw [setOct_ent, State.ent_setEnt_ne _ _ _ _ _ _ (by decide), State.ent_setEnt_ne _ _ _ _ _ _ (by decide),
      State.ent_setEnt_ne _ _ _ _ _ _ (by decide), State.ent_setEnt_ne _ _ _ _ _ _ (by decide), State.ent_setEnt_self]
  · rw [setOct_ent, State.ent_setEnt_ne _ _ _ _ _ _ (by decide), State.ent_setEnt_ne _ _ _ _ _ _ (by decide),
      State.ent_setEnt_ne _ _ _ _ _ _ (by decide), State.ent_setEnt_self]

/-- START keeps candidates and fuses, and address and role come into force (R22). -/
theorem toStart_spec : (toStart s).ctl.dev = .start ∧ (toStart s).mem.candidates = s.mem.candidates ∧ (toStart s).mem.fuses = s.mem.fuses ∧
    (toStart s).device = (s.ent 0x3200 1 * 32 + s.ent 0x3200 2) % 65536 ∧ (toStart s).ent 0x3200 5 = s.ent 0x3200 3 := by
  obtain ⟨hents, hrepairs⟩ := Prod.mk.inj (startCleared_addressAndRepairs s)
  obtain ⟨hcourse, hrest⟩ := Prod.mk.inj hents
  obtain ⟨hposition, hrole⟩ := Prod.mk.inj hrest
  obtain ⟨hcandidates, hfuses⟩ := Prod.mk.inj hrepairs
  obtain ⟨haddress, hactive⟩ := startShown_ent (startCleared s)
  refine ⟨rfl, ?_, ?_, ?_, ?_⟩
  · rw [toStart_mem, hcandidates]
  · rw [toStart_mem, hfuses]
  · rw [State.device, State.ent_of_dict (toStart_dict s), haddress, hcourse, hposition]
  · rw [State.ent_of_dict (toStart_dict s), hactive, hrole]

end Operations

end Sys2Proof.Machine
end

section
/-!
Start-up of the main side (O22): the repairs of the self-test, the choice of the main-side images, and the commands from auto power-up to READY.
-/
namespace Sys2Proof.Machine
open Sys2Proof

/-! ### The repairs of the self-test (R542) -/

section Repairs
variable (s : State)

theorem fuse_address {k : Nat} (hk : k < 256) (f : List Byte) : (fuse s f).ent 0x3200 k = s.ent 0x3200 k := by
  have hne (j : Nat) (hj : j < 256) : ekey 0x3200 k ≠ ekey 0x4300 j := by
    rw [ne_eq, ekey_inj hk hj]
    omega
  unfold fuse
  split
  · rfl
  · dsimp only
    rw [raise_ent, State.ent_setEnt_ne _ _ _ _ _ _ (hne 3 (by decide)), State.ent_addEnt_ne _ _ _ _ _ _ (hne 2 (by decide))]
    rfl

theorem fuse_candidates (f : List Byte) : (fuse s f).mem.candidates = s.mem.candidates := by
  unfold fuse
  split <;> rfl

theorem fuse_length {f : List Byte} (h : spareLeft s f = true) : (fuse s f).mem.fuses.length = s.mem.fuses.length + 1 := by
  have hroom : s.mem.fuses.length < 2048 := by
    unfold spareLeft at h
    simp only [Bool.and_eq_true, decide_eq_true_eq] at h
    exact h.1
  unfold fuse
  rw [if_neg (by omega)]
  dsimp only
  rw [State.raise_mem, State.setEnt_mem, State.addEnt_mem, List.length_append, List.length_singleton]

/-- Repairs leave the address and the candidates alone. -/
theorem repairAll_keeps (l : List (List Byte)) : (∀ k, k < 256 → (repairAll l s).1.ent 0x3200 k = s.ent 0x3200 k) ∧
    (repairAll l s).1.mem.candidates = s.mem.candidates := by
  induction l generalizing s with
  | nil => exact ⟨fun _ _ => rfl, rfl⟩
  | cons f l ih =>
    unfold repairAll
    split
    · obtain ⟨haddress, hcandidates⟩ := ih (fuse s f)
      exact ⟨fun k hk => (haddress k hk).trans (fuse_address s hk f), hcandidates.trans (fuse_candidates s f)⟩
    · exact ih s

/-- Each fault is fused or left. -/
theorem repairAll_length (l : List (List Byte)) :
    (repairAll l s).1.mem.fuses.length + (repairAll l s).2.length = s.mem.fuses.length + l.length := by
  induction l generalizing s with
  | nil => rfl
  | cons f l ih =>
    unfold repairAll
    split
    · rename_i hspare
      rw [ih, fuse_length s hspare, List.length_cons]
      omega
    · dsimp only
      rw [List.length_cons, List.length_cons, ← Nat.add_assoc, ih]
      omega

end Repairs

/-- The candidates that stay: those that failed and that no repaired fault covers. -/
def keptCandidates (l : List (Nat × Nat × Nat × Nat)) (passed : List Bool) (found : List (List Byte)) : List (Nat × Nat × Nat × Nat) :=
  ((l.zip passed).filterMap fun c => if c.2 then none else some c.1).filter fun c => !repairedBy found c

theorem mem_keptCandidates (l : List (Nat × Nat × Nat × Nat)) (passed : List Bool) (found : List (List Byte)) (c : Nat × Nat × Nat × Nat) :
    c ∈ keptCandidates l passed found ↔ ∃ i : Nat, l[i]? = some c ∧ passed[i]? = some false ∧ repairedBy found c = false := by
  have hfailed : (c ∈ (l.zip passed).filterMap fun c => if c.2 then none else some c.1) ↔ (c, false) ∈ l.zip passed := by
    rw [List.mem_filterMap]
    constructor
    · rintro ⟨⟨d, b⟩, hmem, hsome⟩
      cases b
      · obtain rfl : d = c := by simpa using hsome
        exact hmem
      · simp at hsome
    · exact fun hmem => ⟨(c, false), hmem, rfl⟩
  unfold keptCandidates
  rw [List.mem_filter, hfailed, List.mem_iff_getElem?]
  simp only [List.getElem?_zip_eq_some, Bool.not_eq_true']
  constructor
  · rintro ⟨⟨i, hl, hp⟩, hr⟩
    exact ⟨i, hl, hp, hr⟩
  · rintro ⟨i, hl, hp, hr⟩
    exact ⟨⟨i, hl, hp⟩, hr⟩

/-- What the self-test notes after the repairs: the candidates that passed are counted, those that stay are listed, and the stage ends. -/
def selfTested (t : State) (left : List (Nat × Nat × Nat × Nat)) (n : Nat) : State :=
  let u := (t.addEnt 0x4300 4 n).setEnt 0x4300 1 left.length
  { u with mem := { u.mem with candidates := left } }

theorem selfTested_address (t : State) (left : List (Nat × Nat × Nat × Nat)) (n : Nat) {k : Nat} (hk : k < 256) :
    (selfTested t left n).ent 0x3200 k = t.ent 0x3200 k := by
  have hne (j : Nat) (hj : j < 256) : ekey 0x3200 k ≠ ekey 0x4300 j := by
    rw [ne_eq, ekey_inj hk hj]
    omega
  have hdict : (selfTested t left n).dict = ((t.addEnt 0x4300 4 n).setEnt 0x4300 1 left.length).dict := rfl
  rw [State.ent_of_dict hdict, State.ent_setEnt_ne _ _ _ _ _ _ (hne 1 (by decide)), State.ent_addEnt_ne _ _ _ _ _ _ (hne 4 (by decide))]

section SelfTest
variable {s : State} {passed : List Bool} {found : List (List Byte)} {spares : Bool}

/-- The repairs that a self-test makes: none where no spare is left. -/
def testRepairs (s : State) (found : List (List Byte)) (spares : Bool) : State × List (List Byte) := if spares then repairAll found s else (s, found)

/-- A self-test that leaves no fault leads to START. -/
theorem selfTest_starts (hd : s.ctl.dev = .init) (hf : s.ctl.filled = true) (hl : passed.length = s.mem.candidates.length)
    (h : (testRepairs s found spares).2 = []) : ∃ n v, exec (.selfTestDone passed found spares) s =
      .next (toStart ((selfTested (testRepairs s found spares).1 (keptCandidates s.mem.candidates passed found) n).setEnt 0x2400 1 v)) := by
  show ∃ n v, execSelfTestDone passed found spares s = _
  have hfixed : (found.filter fun f => !decide (f ∈ ([] : List (List Byte)))) = found := by simp
  unfold execSelfTestDone
  rw [if_pos ⟨hd, hf, hl⟩]
  dsimp only
  rw [show (if spares then repairAll found s else (s, found)) = testRepairs s found spares from rfl, h, hfixed]
  exact ⟨_, _, rfl⟩

/-- One that leaves a fault enters FAULT. -/
theorem selfTest_fails (hd : s.ctl.dev = .init) (hf : s.ctl.filled = true) (hl : passed.length = s.mem.candidates.length)
    (h : (testRepairs s found spares).2 ≠ []) : ∃ t, exec (.selfTestDone passed found spares) s = .next (toFault t 0x4102) := by
  show ∃ t, execSelfTestDone passed found spares s = _
  unfold execSelfTestDone
  rw [if_pos ⟨hd, hf, hl⟩]
  dsimp only
  rw [show (if spares then repairAll found s else (s, found)) = testRepairs s found spares from rfl]
  obtain ⟨f, l, hcons⟩ := List.exists_cons_of_ne_nil h
  rw [hcons]
  exact ⟨_, rfl⟩

theorem testRepairs_keeps (s : State) (found : List (List Byte)) (spares : Bool) :
    (∀ k, k < 256 → (testRepairs s found spares).1.ent 0x3200 k = s.ent 0x3200 k) ∧
      ((testRepairs s found spares).2 = [] → (testRepairs s found spares).1.mem.fuses.length = s.mem.fuses.length + found.length) := by
  unfold testRepairs
  split
  · refine ⟨(repairAll_keeps s found).1, fun hnil => ?_⟩
    have hlength := repairAll_length s found
    rwa [hnil] at hlength
  · refine ⟨fun _ _ => rfl, fun hnil => ?_⟩
    rw [show found = [] from hnil]
    rfl

theorem selfTest_tested (hd : s.ctl.dev = .init) (hf : s.ctl.filled = true) (hl : passed.length = s.mem.candidates.length)
    (h : (testRepairs s found spares).2 = []) : ∃ u, exec (.selfTestDone passed found spares) s = .next u ∧ u.ctl.dev = .start ∧
      (∀ c, c ∈ u.mem.candidates ↔ ∃ i : Nat, s.mem.candidates[i]? = some c ∧ passed[i]? = some false ∧ repairedBy found c = false) ∧
      u.mem.fuses.length = s.mem.fuses.length + found.length ∧
      u.device = (s.ent 0x3200 1 * 32 + s.ent 0x3200 2) % 65536 ∧ u.ent 0x3200 5 = s.ent 0x3200 3 := by
  obtain ⟨n, v, he⟩ := selfTest_starts hd hf hl h
  obtain ⟨haddress, hfuses⟩ := testRepairs_keeps s found spares
  refine ⟨_, he, ?_⟩
  generalize ht : testRepairs s found spares = r at haddress hfuses h ⊢
  have hent (k : Nat) (hk : k < 256) :
      ((selfTested r.1 (keptCandidates s.mem.candidates passed found) n).setEnt 0x2400 1 v).ent 0x3200 k = s.ent 0x3200 k := by
    rw [State.ent_setEnt_ne _ _ _ _ _ _ (by rw [ne_eq, ekey_inj hk (by decide)]; omega), selfTested_address _ _ _ hk, haddress k hk]
  obtain ⟨hdev, hcandidates, hfuse, hdevice, hrole⟩ :=
    toStart_spec ((selfTested r.1 (keptCandidates s.mem.candidates passed found) n).setEnt 0x2400 1 v)
  rw [hent 1 (by decide), hent 2 (by decide)] at hdevice
  rw [hent 3 (by decide)] at hrole
  refine ⟨hdev, fun c => ?_, ?_, hdevice, hrole⟩
  · rw [hcandidates, ← mem_keptCandidates]
    rfl
  · rw [hfuse, ← hfuses h]
    rfl

theorem selfTest_faulted (hd : s.ctl.dev = .init) (hf : s.ctl.filled = true) (hl : passed.length = s.mem.candidates.length)
    (h : (testRepairs s found spares).2 ≠ []) : ∃ u, exec (.selfTestDone passed found spares) s = .next u ∧ u.ctl.dev = .fault ∧
      u.ent 0x5002 4 = 0x4102 := by
  obtain ⟨t, he⟩ := selfTest_fails hd hf hl h
  exact ⟨_, he, toFault_spec t 0x4102⟩

end SelfTest

/-! ### The choice of the main-side images (R473, R485) -/

/-- The kinds of the main side's images. -/
def mainKinds : List Nat := [2, 3, 4, 5]

theorem mainKinds_bounds {k : Nat} (hk : k ∈ mainKinds) : 2 ≤ k ∧ k ≤ 5 := by
  simp only [mainKinds, List.mem_cons, List.not_mem_nil, or_false] at hk
  omega

/-- A slot with which a start of a kind may run, and whose image is valid. -/
def Runnable (s : State) (k slot : Nat) : Prop := (slot = startSlot s k ∨ slot = 1 - startSlot s k) ∧ imageFailure s (imageBytes s k slot) k = 0

/-- What the choice of other kinds leaves of what decides on a kind. -/
def SameImages (s t : State) : Prop :=
  t.ctl = s.ctl ∧ t.trust = s.trust ∧ ∀ k ∈ mainKinds, t.ent 0x8200 k = s.ent 0x8200 k ∧ t.ent 0x8200 (k + 10) = s.ent 0x8200 (k + 10)

theorem SameImages.trans {s t u : State} (h : SameImages s t) (h' : SameImages t u) : SameImages s u := by
  obtain ⟨hctl, htrust, hents⟩ := h
  obtain ⟨hctl', htrust', hents'⟩ := h'
  exact ⟨hctl'.trans hctl, htrust'.trans htrust, fun k hk => ⟨(hents' k hk).1.trans (hents k hk).1, (hents' k hk).2.trans (hents k hk).2⟩⟩

theorem SameImages.imageFailure {s t : State} (h : SameImages s t) {k : Nat} (hk : k ∈ mainKinds) (slot : Nat) :
    imageFailure t (imageBytes t k slot) k = imageFailure s (imageBytes s k slot) k := by
  obtain ⟨-, htrust, hents⟩ := h
  unfold Machine.imageFailure imageBytes
  rw [htrust, (hents k hk).2]

theorem SameImages.startSlot {s t : State} (h : SameImages s t) {k : Nat} (hk : k ∈ mainKinds) : startSlot t k = startSlot s k := by
  obtain ⟨-, htrust, hents⟩ := h
  unfold Machine.startSlot
  rw [htrust, (hents k hk).1]

theorem SameImages.runnable_iff {s t : State} (h : SameImages s t) {k : Nat} (hk : k ∈ mainKinds) (slot : Nat) :
    Runnable t k slot ↔ Runnable s k slot := by
  unfold Runnable
  rw [h.imageFailure hk, h.startSlot hk]

/-- What choosing the image of a kind may change of the image entries: its active slot and the version shown. -/
def ChoosesOnly (kind : Nat) (s t : State) : Prop :=
  t.ctl = s.ctl ∧ t.trust = s.trust ∧ ∀ j, j < 256 → j ≠ kind + 5 → j ≠ kind + 15 → t.ent 0x8200 j = s.ent 0x8200 j

theorem ChoosesOnly.sameImages {kind : Nat} {s t : State} (h : ChoosesOnly kind s t) (hkind : kind ∈ mainKinds) : SameImages s t := by
  obtain ⟨hctl, htrust, hents⟩ := h
  have hb := mainKinds_bounds hkind
  refine ⟨hctl, htrust, fun k hk => ?_⟩
  have hb' := mainKinds_bounds hk
  exact ⟨hents k (by omega) (by omega) (by omega), hents (k + 10) (by omega) (by omega) (by omega)⟩

/-- The active slot and the version of a kind, set. -/
def showImage (s : State) (kind slot version : Nat) : State := (s.setEnt 0x8200 (kind + 5) slot).setEnt 0x8200 (kind + 15) version

theorem showImage_chooses (s : State) {kind : Nat} (hkind : kind ∈ mainKinds) (slot version : Nat) :
    ChoosesOnly kind s (showImage s kind slot version) ∧ (showImage s kind slot version).ent 0x8200 (kind + 5) = slot := by
  have hb := mainKinds_bounds hkind
  have hne (i j : Nat) (hi : i < 256) (hj : j < 256) (hij : i ≠ j) : ekey 0x8200 i ≠ ekey 0x8200 j := by
    rw [ne_eq, ekey_inj hi hj]
    omega
  unfold showImage
  refine ⟨⟨rfl, rfl, fun j hj h5 h15 => ?_⟩, ?_⟩
  · rw [State.ent_setEnt_ne _ _ _ _ _ _ (hne j _ hj (by omega) h15), State.ent_setEnt_ne _ _ _ _ _ _ (hne j _ hj (by omega) h5)]
  · rw [State.ent_setEnt_ne _ _ _ _ _ _ (hne _ _ (by omega) (by omega) (by omega)), State.ent_setEnt_self]

/-- The slots are tried in order: the first valid image runs, and without one the kind has none. -/
theorem trySlots_spec {kind : Nat} (hkind : kind ∈ mainKinds) (l : List Nat) (s : State) :
    ChoosesOnly kind s (trySlots kind l s).1 ∧
      ((trySlots kind l s).2 = true → ∃ slot ∈ l, imageFailure s (imageBytes s kind slot) kind = 0 ∧
        (trySlots kind l s).1.ent 0x8200 (kind + 5) = slot) ∧
      ((trySlots kind l s).2 = false → ∀ slot ∈ l, imageFailure s (imageBytes s kind slot) kind ≠ 0) := by
  induction l generalizing s with
  | nil => exact ⟨(showImage_chooses s hkind 0xFF 0).1, fun h => absurd h Bool.false_ne_true, fun _ _ h => absurd h List.not_mem_nil⟩
  | cons slot l ih =>
    unfold trySlots
    dsimp only
    split
    · rename_i hvalid
      obtain ⟨honly, hactive⟩ := showImage_chooses s hkind slot (imageVersion (imageBytes s kind slot))
      exact ⟨honly, fun _ => ⟨slot, List.mem_cons_self, hvalid, hactive⟩, fun h => nomatch h⟩
    · rename_i hinvalid
      obtain ⟨honly, hfound, hnone⟩ := ih (sigFail s kind slot (imageFailure s (imageBytes s kind slot) kind))
      refine ⟨honly, fun h => ?_, fun h slot' hmem => ?_⟩
      · obtain ⟨slot', hmem, hvalid, hactive⟩ := hfound h
        exact ⟨slot', List.mem_cons_of_mem _ hmem, hvalid, hactive⟩
      · rcases List.mem_cons.1 hmem with rfl | hmem
        · exact hinvalid
        · exact hnone h slot' hmem

theorem selectImage_spec {kind : Nat} (hkind : kind ∈ mainKinds) (s : State) :
    ChoosesOnly kind s (selectImage s kind).1 ∧ ((selectImage s kind).2 = true ↔ ∃ slot, Runnable s kind slot) ∧
      ((selectImage s kind).2 = true → imageFailure s (imageBytes s kind ((selectImage s kind).1.ent 0x8200 (kind + 5))) kind = 0) := by
  have hslots : selectImage s kind = trySlots kind [startSlot s kind, 1 - startSlot s kind] s := by
    unfold selectImage
    rw [if_neg (by rintro rfl; exact absurd hkind (by decide))]
    rfl
  obtain ⟨honly, hfound, hnone⟩ := trySlots_spec hkind [startSlot s kind, 1 - startSlot s kind] s
  rw [hslots]
  refine ⟨honly, ⟨fun h => ?_, fun ⟨slot, hslot, hvalid⟩ => ?_⟩, fun h => ?_⟩
  · obtain ⟨slot, hmem, hvalid, -⟩ := hfound h
    exact ⟨slot, by simpa using hmem, hvalid⟩
  · by_contra h
    exact hnone (by simpa using h) slot (by simpa using hslot) hvalid
  · obtain ⟨slot, -, hvalid, hactive⟩ := hfound h
    rw [hactive]
    exact hvalid

/-- One kind of the choice: its image is selected, or it joins those without one. -/
def chooseKind (sb : State × List Nat) (k : Nat) : State × List Nat :=
  ((selectImage sb.1 k).1, if (selectImage sb.1 k).2 then sb.2 else sb.2 ++ [k])

/-- The choice over a list of kinds. -/
theorem chooseKinds_spec (s : State) (ks : List Nat) (hks : ∀ k ∈ ks, k ∈ mainKinds) (hnodup : ks.Nodup) (t : State) (bad : List Nat)
    (hst : SameImages s t) :
    SameImages s (ks.foldl chooseKind (t, bad)).1 ∧
      ((ks.foldl chooseKind (t, bad)).2 = [] ↔ bad = [] ∧ ∀ k ∈ ks, ∃ slot, Runnable s k slot) ∧
      (∀ k ∈ mainKinds, k ∉ ks → (ks.foldl chooseKind (t, bad)).1.ent 0x8200 (k + 5) = t.ent 0x8200 (k + 5)) ∧
      ∀ k ∈ ks, (∃ slot, Runnable s k slot) →
        imageFailure s (imageBytes s k ((ks.foldl chooseKind (t, bad)).1.ent 0x8200 (k + 5))) k = 0 := by
  induction ks generalizing t bad with
  | nil => exact ⟨hst, by simp, fun _ _ _ => rfl, fun _ h => nomatch h⟩
  | cons k ks ih =>
    obtain ⟨hnew, hnodup⟩ := List.nodup_cons.1 hnodup
    have hk : k ∈ mainKinds := hks k List.mem_cons_self
    obtain ⟨honly, hvalid, hactive⟩ := selectImage_spec hk t
    have hrun : (∃ slot, Runnable t k slot) ↔ ∃ slot, Runnable s k slot := exists_congr fun slot => hst.runnable_iff hk slot
    obtain ⟨hsame, hbad, hkeep, hrest⟩ := ih (fun j hj => hks j (List.mem_cons_of_mem _ hj)) hnodup (selectImage t k).1
      (if (selectImage t k).2 then bad else bad ++ [k]) (hst.trans (honly.sameImages hk))
    have hchoose : chooseKind (t, bad) k = ((selectImage t k).1, if (selectImage t k).2 then bad else bad ++ [k]) := rfl
    rw [List.foldl_cons, hchoose]
    refine ⟨hsame, ?_, fun j hj hout => ?_, fun j hj hex => ?_⟩
    · rw [hbad, List.forall_mem_cons, ← hrun, ← hvalid]
      by_cases h : (selectImage t k).2 = true <;> simp [h]
    · obtain ⟨hjk, hjks⟩ := not_or.1 (mt List.mem_cons.2 hout)
      obtain ⟨-, -, hents⟩ := honly
      have hb := mainKinds_bounds hk
      have hb' := mainKinds_bounds hj
      rw [hkeep j hj hjks, hents (j + 5) (by omega) (by omega) (by omega)]
    · rcases List.mem_cons.1 hj with rfl | hj
      · rw [hkeep j hk hnew, ← hst.imageFailure hk]
        exact hactive (hvalid.2 (hrun.2 hex))
      · exact hrest j hj hex

/-- MAIN_FIRMWARE_VERIFIED chooses the images of the four kinds. -/
theorem execMainFirmwareVerified_eq {s : State} (hd : s.ctl.dev = .start) (hf : s.ctl.firmwareOk = false) :
    execMainFirmwareVerified s =
      if (mainKinds.foldl chooseKind (s, [])).2 = [] then
        .next { (mainKinds.foldl chooseKind (s, [])).1 with
          ctl := { (mainKinds.foldl chooseKind (s, [])).1.ctl with firmwareOk := true }
          trust := { (mainKinds.foldl chooseKind (s, [])).1.trust with startSlots := [] } }
      else .next { (toStandby (mainKinds.foldl chooseKind (s, [])).1) with
        ctl := { (toStandby (mainKinds.foldl chooseKind (s, [])).1).ctl with missing := (mainKinds.foldl chooseKind (s, [])).2 } } := by
  unfold execMainFirmwareVerified
  rw [if_pos ⟨hd, hf⟩]
  generalize hfold : List.foldl _ (s, ([] : List Nat)) [2, 3, 4, 5] = r
  rw [show mainKinds.foldl chooseKind (s, []) = r from hfold]

theorem mainFirmwareVerified_spec {s : State} (hd : s.ctl.dev = .start) (hf : s.ctl.firmwareOk = false) :
    ∃ u, exec .mainFirmwareVerified s = .next u ∧
      ((∀ k ∈ mainKinds, ∃ slot, Runnable s k slot) → u.ctl.dev = .start ∧ u.ctl.firmwareOk = true ∧
        ∀ k ∈ mainKinds, imageFailure s (imageBytes s k (u.ent 0x8200 (k + 5))) k = 0) ∧
      (¬ (∀ k ∈ mainKinds, ∃ slot, Runnable s k slot) → u.ctl.dev = .standby ∧ u.ctl.powered = false ∧ u.ctl.missing ≠ []) := by
  have hself : SameImages s s := ⟨rfl, rfl, fun _ _ => ⟨rfl, rfl⟩⟩
  obtain ⟨⟨hctl, -, -⟩, hbad, -, hactive⟩ := chooseKinds_spec s mainKinds (fun _ h => h) (by decide) s [] hself
  show ∃ u, execMainFirmwareVerified s = .next u ∧ _
  rw [execMainFirmwareVerified_eq hd hf]
  generalize mainKinds.foldl chooseKind (s, []) = r at hctl hbad hactive ⊢
  by_cases hall : ∀ k ∈ mainKinds, ∃ slot, Runnable s k slot
  · rw [if_pos (hbad.2 ⟨rfl, hall⟩)]
    refine ⟨_, rfl, fun _ => ⟨?_, rfl, fun k hk => hactive k hk (hall k hk)⟩, fun h => absurd hall h⟩
    rw [← hd, ← hctl]
  · have hsome : r.2 ≠ [] := fun h => hall (hbad.1 h).2
    obtain ⟨hdev, hpowered, -⟩ := toStandby_spec r.1
    rw [if_neg hsome]
    exact ⟨_, rfl, fun h => absurd h hall, fun _ => ⟨hdev, hpowered, hsome⟩⟩

/-! ### The stages of the start-up (Table 17-7) -/

section Stages
variable {s : State}

theorem autoPowerUp_inits (hd : s.ctl.dev = .standby) (hg : s.ctl.galenaHeld = false) (hauto : s.ent 0x5003 2 = 1) (ha : assigned s = true)
    (hb : powerBlocked s = false) (hr : s.power.railHold = false) : ∃ u, exec .autoPowerUp s = .next u ∧ u.ctl.dev = .init ∧
      u.ctl.powered = true ∧ u.ent 0x2400 3 = 3 ∧ u.ent 0x5002 2 = 2 ∧ u.mem.inits = s.mem.inits + 1 := by
  have he : exec .autoPowerUp s = .next (toInit s) := if_pos ⟨hd, hg, hauto, ha, hb, hr⟩
  obtain ⟨hdev, hpowered, hstage, hprevious, hinits⟩ := toInit_spec s
  rw [hd] at hprevious
  exact ⟨_, he, hdev, hpowered, hstage, hprevious, hinits⟩

theorem railsReady_passes (hd : s.ctl.dev = .init) (hr : s.ctl.railsOk = false) :
    ∃ u, exec .railsReady s = .next u ∧ u.ctl = { s.ctl with railsOk := true } ∧ u.ent 0x2400 3 = 4 :=
  ⟨_, if_pos ⟨hd, hr⟩, rfl, s.ent_setEnt_self _ _ _⟩

theorem railTimeout_powersDown (hd : s.ctl.dev = .init) (hr : s.ctl.railsOk = false) (rail : W32) :
    ∃ u, exec (.railTimeout rail) s = .next u ∧ u.ctl.dev = .standby ∧ u.ctl.powered = false ∧ u.power.railHold = true ∧
      ∃ e ∈ u.ev.raised, e.code = 0x1102 := by
  obtain ⟨hdev, hpowered, hev⟩ := toStandby_spec (haltEvent s 5 0 rail.toNat)
  refine ⟨_, if_pos ⟨hd, hr⟩, hdev, hpowered, rfl, ?_⟩
  dsimp only
  rw [hev]
  exact ⟨_, List.mem_append_right _ (List.mem_singleton_self _), rfl⟩

theorem hbmTrainingDone_passes (hd : s.ctl.dev = .init) (hr : s.ctl.railsOk = true) (ht : s.ctl.trained = false) :
    ∃ u, exec (.hbmTrainingDone none) s = .next u ∧ u.ctl = { s.ctl with trained := true, fillAt := s.now } ∧ u.mem = s.mem ∧
      u.ent 0x2400 3 = 5 :=
  ⟨_, if_pos ⟨hd, hr, ht⟩, rfl, rfl, s.ent_setEnt_self _ _ _⟩

theorem hbmTrainingDone_fails (hd : s.ctl.dev = .init) (hr : s.ctl.railsOk = true) (ht : s.ctl.trained = false) (k : Fin 12) :
    ∃ u, exec (.hbmTrainingDone (some k)) s = .next u ∧ u.ctl.dev = .fault ∧ u.ent 0x5002 4 = 0x4102 :=
  ⟨_, if_pos ⟨hd, hr, ht⟩, toFault_spec _ 0x4102⟩

/-- The fill leaves every byte zero and every core as at reset, and of the stored errors only those of the management die (R528). -/
theorem memoryFillDone_fills (hd : s.ctl.dev = .init) (ht : s.ctl.trained = true) (hf : s.ctl.filled = false) :
    ∃ u, exec .memoryFillDone s = .next u ∧ u.ctl = { s.ctl with filled := true } ∧ (∀ a, hbyte u a = 0) ∧
      (∀ c, u.core c = CoreS.reset) ∧ u.mem.hbmRaw = [] ∧ ∀ x ∈ u.mem.sramRaw, (sramWhere x.1).1 = 9 := by
  refine ⟨_, if_pos ⟨hd, ht, hf⟩, rfl, fun _ => rfl, fun _ => rfl, rfl, fun x hx => ?_⟩
  obtain ⟨-, hkind⟩ := List.mem_filter.1 hx
  exact of_decide_eq_true hkind

theorem portStartTimeout_eq {p : Port} (hd : s.ctl.dev = .start) (hin : s.inService p.val = false) (hp : p.val ∉ s.ctl.portsPast) :
    exec (.portStartTimeout p) s = .next { s with ctl := { s.ctl with portsPast := p.val :: s.ctl.portsPast } } :=
  if_pos ⟨hd, hin, hp⟩

theorem portsSettled_of (h : ∀ q, q < 48 → s.portSt q = 4 ∨ q ∈ s.ctl.portsPast) : portsSettled s = true := by
  unfold portsSettled
  rw [List.all_eq_true]
  intro q hq
  simpa [State.inService] using h q (List.mem_range.1 hq)

theorem startComplete_ready (hd : s.ctl.dev = .start) (hlock : s.ent 0x3000 2 = 3) (hf : s.ctl.firmwareOk = true)
    (hports : ∀ q, q < 48 → s.portSt q = 4 ∨ q ∈ s.ctl.portsPast) : ∃ u, exec .startComplete s = .next u ∧
      u.ctl = { s.ctl with dev := .ready } ∧ u.ent 0x5002 2 = 4 ∧
      u.ent 0x2400 2 = (s.now.toNat - s.ctl.startAt.toNat) / 1000000 % 2 ^ 32 := by
  refine ⟨_, if_pos ⟨hd, hlock, hf, portsSettled_of hports⟩, rfl, ?_, ?_⟩
  · rw [State.ent_enter_previous, State.setEnt_ctl, hd]
    rfl
  · rw [State.ent_enter_ne _ _ (by decide) (by decide), State.ent_setEnt_self]

end Stages

/-- Settles O22: the start-up of the main side from auto power-up to READY. -/
theorem startUp : Obligations.StartUp := by
  unfold Obligations.StartUp
  refine ⟨fun s rail k => ⟨autoPowerUp_inits, fun hd hr => ⟨railsReady_passes hd hr, railTimeout_powersDown hd hr rail⟩,
      fun hd hr ht => ⟨hbmTrainingDone_passes hd hr ht, hbmTrainingDone_fails hd hr ht k⟩, memoryFillDone_fills⟩,
    fun s passed found p => ⟨fun hd hf hl => ?_, mainFirmwareVerified_spec, portStartTimeout_eq, startComplete_ready⟩⟩
  extract_lets tested fails
  exact ⟨selfTest_tested (spares := true) hd hf hl, selfTest_faulted (spares := true) hd hf hl, selfTest_tested (spares := false) hd hf hl,
    selfTest_faulted (spares := false) hd hf hl⟩

end Sys2Proof.Machine
end

section
/-!
END of a run (O17). A core that END finds at work is halted, and the pages that its descriptors hold are released: what their entries' stored units
show is corrected and reported beside the overrun.
-/
namespace Sys2Proof.Machine
open Sys2Proof

/-- A started descriptor that holds the page whose entry lies at address a (R293). -/
def holding (a : Nat) : Move :=
  { id := 0, desc := [], pad := 0, clmAddr := 0, post := none, transfer := 0, started := true, retired := false, reads := [], payload := [],
    awaiting := 0, writes := [], remote := 0, mapWrites := [], mapWaits := 0, granules := [a] }

/-- A run of END alone, 8 ns after its start, with core 0 still at work and a bit flipped in the stored unit of the page entry. -/
def overrunAtEnd : State :=
  { State.reset with
    ctl := { State.reset.ctl with dev := .run, powered := true, filled := true }
    run := { State.reset.run with start := 100, capos := [(8, 3, 0, 0)] }
    cores := [(0, { CoreS.reset with status := 2, moves := [holding 0] })]
    mem := { State.reset.mem with hbmRaw := [(0, some { data := [1], check := [] })] } }

/-- The codes of the events raised so far after a command. -/
def codesAfter (o : Out) : Option (List W16) :=
  match o with
  | .next u => some (u.ev.raised.map EvRec.code)
  | _ => none

/-- Halting the core releases its page (R293): the entry's unit is read, corrected and reported before the overrun is. -/
theorem overrunAtEnd_codes : codesAfter (exec .runEnd overrunAtEnd) = some [0x4101, 0x5004] := by decide +kernel

/-- Refutes O17, in its clause on END: an error corrected as the overrun core lets its page go is reported too, so that more than one event is raised. -/
theorem not_pauseAndCapoPoints : ¬ Obligations.PauseAndCapoPoints := by
  unfold Obligations.PauseAndCapoPoints
  intro h
  obtain ⟨-, hcapo⟩ := h
  obtain ⟨-, hend⟩ := hcapo overrunAtEnd 0 0 108 rfl (by decide) (by decide)
  obtain ⟨u, hu, -, -, -, -, -, -, -, -, hover, -⟩ := hend (by decide +kernel) rfl
  obtain ⟨e, hraised, -⟩ := hover (by decide +kernel)
  have hcodes : some (u.ev.raised.map EvRec.code) = some [0x4101, 0x5004] := by rw [← overrunAtEnd_codes, hu]; rfl
  rw [hraised] at hcodes
  simp [overrunAtEnd, State.reset] at hcodes

end Sys2Proof.Machine
end

section
/-!
The commit capo (O19). What is exported of the stages' high-water marks (R428) is one subindex a stage, in a table of any length: beyond 255 stages the
keys of the next indices follow.
-/
namespace Sys2Proof.Machine
open Sys2Proof

/-- What is exported of one stage's high-water mark (R428). -/
def exportStage (t : State) (k : Nat) : State :=
  let v := sget 0 t.coll.high k
  let t := t.setEnt 0x5060 (k + 1) v
  if t.ent 0x5061 (k + 1) < v then t.setEnt 0x5061 (k + 1) v else t

theorem exportStages_eq (s : State) : exportStages s =
    let t := (List.range s.coll.stages.length).foldl exportStage s
    { t with coll := { t.coll with high := [] } } := rfl

theorem exportStage_high (t : State) (k : Nat) : (exportStage t k).coll.high = t.coll.high := by
  unfold exportStage
  dsimp only
  split <;> rfl

theorem exportStages_mfe (s : State) : (exportStages s).mfe = s.mfe := by
  have hstage (t : State) (k : Nat) : (exportStage t k).mfe = t.mfe := by
    unfold exportStage
    dsimp only
    split <;> rfl
  exact foldl_keeps exportStage State.mfe hstage _ s

/-- A stage without a mark of its own shows 0. -/
theorem exportStage_unmarked {t : State} {k : Nat} (h : sget 0 t.coll.high k = 0) : exportStage t k = t.setEnt 0x5060 (k + 1) 0 := by
  unfold exportStage
  rw [h]
  exact if_neg (Nat.not_lt_zero _)

/-- Exporting as the last stage, without a mark, one whose entry shares its key with `0x7000:05` clears that one. -/
theorem exportStages_clears {s : State} {n : Nat} (hl : s.coll.stages.length = n + 1) (hh : s.coll.high = [])
    (hk : ekey 0x7000 5 = ekey 0x5060 (n + 1)) (hz : entryDefault 0x5060 (n + 1) = 0) : (exportStages s).ent 0x7000 5 = 0 := by
  have hhigh : ((List.range n).foldl exportStage s).coll.high = [] :=
    (foldl_keeps exportStage (fun t => t.coll.high) exportStage_high _ s).trans hh
  rw [exportStages_eq, hl, List.range_succ, List.foldl_append, List.foldl_cons, List.foldl_nil, exportStage_unmarked (by rw [hhigh]; rfl)]
  change (State.setEnt _ 0x5060 (n + 1) 0).ent 0x7000 5 = 0
  rw [State.ent_setEnt, if_pos hk, hz, if_pos rfl]
  decide +kernel

theorem oweStep_of_no_streams {s : State} (h : s.mfe.streams = []) : oweStep s = s := by
  refine List.foldl_fixed' (fun k => ?_) _
  simp [State.stream, h, sget, Stream.reset]

theorem stagedLate_of_none {s : State} (h : s.coll.staged = []) : stagedLate s = s := by
  unfold stagedLate
  rw [h]

/-! ### What the parts of a commit keep -/

/-- The collective engines, the media streams and the run. -/
def enginesAndRun (s : State) : Coll × Mfe × Run := (s.coll, s.mfe, s.run)

theorem setEnt_enginesAndRun (s : State) (i j v : Nat) : enginesAndRun (s.setEnt i j v) = enginesAndRun s := rfl
theorem addEnt_enginesAndRun (s : State) (i j n : Nat) : enginesAndRun (s.addEnt i j n) = enginesAndRun s := rfl
theorem raise_enginesAndRun (s : State) (code : Nat) (vs : List (Nat × Nat)) : enginesAndRun (s.raise code vs) = enginesAndRun s := rfl
theorem withCores_enginesAndRun (s : State) (l : SMap CoreS) : enginesAndRun { s with cores := l } = enginesAndRun s := rfl

theorem withMem_enginesAndRun (s : State) (m : Mem) : enginesAndRun { s with mem := m } = enginesAndRun s := rfl

theorem exportSlot_enginesAndRun (s : State) (slot : Nat) : enginesAndRun (exportSlot s slot) = enginesAndRun s := by
  unfold exportSlot
  dsimp only
  split
  · rw [raise_enginesAndRun, setEnt_enginesAndRun, setEnt_enginesAndRun, setEnt_enginesAndRun]
    exact foldl_keeps _ enginesAndRun (fun t j => setEnt_enginesAndRun ..) _ s
  · rw [setEnt_enginesAndRun, setEnt_enginesAndRun, setEnt_enginesAndRun]
    exact foldl_keeps _ enginesAndRun (fun t j => setEnt_enginesAndRun ..) _ s

theorem exportNumeric_enginesAndRun (s : State) (c : Nat) (committed : Bool) : enginesAndRun (exportNumeric s c committed) = enginesAndRun s := by
  unfold exportNumeric
  extract_lets slots counted summed located dated
  have hslots : enginesAndRun slots = enginesAndRun s := foldl_keeps exportSlot enginesAndRun exportSlot_enginesAndRun (List.range 64) s
  have hcounted : enginesAndRun counted = enginesAndRun s := (setEnt_enginesAndRun ..).trans hslots
  have hsummed : enginesAndRun summed = enginesAndRun s := by
    unfold summed
    split
    · exact (addEnt_enginesAndRun ..).trans hcounted
    · exact hcounted
  have hlocated : enginesAndRun located = enginesAndRun s := by
    unfold located
    split <;> exact (setEnt_enginesAndRun ..).trans ((setEnt_enginesAndRun ..).trans hsummed)
  have hdated : enginesAndRun dated = enginesAndRun s := (setEnt_enginesAndRun ..).trans ((setEnt_enginesAndRun ..).trans hlocated)
  exact (withCores_enginesAndRun ..).trans hdated

theorem switchPorts_dict (s : State) (slot : Nat) (mask : BitVec 48) (t : Nat) : (switchPorts s slot mask t).dict = s.dict := by
  unfold switchPorts
  dsimp only
  refine (foldl_keeps _ State.dict (fun u i => ?_) _ _).trans (foldl_keeps _ State.dict (fun u p => ?_) _ s)
  · split <;> rfl
  · split <;> rfl

theorem hitRates_enginesAndRun (s : State) : enginesAndRun (hitRates s) = enginesAndRun s := by
  unfold hitRates
  extract_lets rated
  have hrated : enginesAndRun rated = enginesAndRun s := foldl_keeps _ enginesAndRun (fun t d => setEnt_enginesAndRun t ..) _ s
  exact (withMem_enginesAndRun ..).trans hrated

theorem scaleCommitted_enginesAndRun (s : State) : enginesAndRun (scaleCommitted s) = enginesAndRun s := by
  unfold scaleCommitted
  dsimp only
  split
  · exact setEnt_enginesAndRun ..
  · exact (setEnt_enginesAndRun ..).trans (setEnt_enginesAndRun ..)

theorem commitStep_enginesAndRun (s : State) (repaired : Bool) : enginesAndRun (commitStep s repaired) = enginesAndRun s := by
  unfold commitStep
  dsimp only
  rw [scaleCommitted_enginesAndRun, setEnt_enginesAndRun, setEnt_enginesAndRun, setEnt_enginesAndRun, setEnt_enginesAndRun]

theorem pausePoint_dict (s : State) (c : Nat) : (pausePoint s c).dict = s.dict := by
  unfold pausePoint
  split
  · unfold openPorts mapPorts
    refine foldl_keeps _ State.dict (fun t p => ?_) _ _
    rfl
  · rfl

/-! ### The commit -/

/-- The state in which a commit exports the stages' marks. -/
def commitBeforeStages (s : State) (c : Nat) (repaired : Bool) : State := hitRates (exportNumeric (commitStep (reach s c) repaired) c true)

theorem reach_enginesAndRun (s : State) (c : Nat) : enginesAndRun (reach s c) = enginesAndRun s := by
  unfold reach
  split <;> rfl

theorem reach_running (s : State) (c : Nat) : (reach s c).running = s.running := by
  unfold reach
  split <;> rfl

theorem commitBeforeStages_enginesAndRun (s : State) (c : Nat) (repaired : Bool) : enginesAndRun (commitBeforeStages s c repaired) = enginesAndRun s := by
  unfold commitBeforeStages
  rw [hitRates_enginesAndRun, exportNumeric_enginesAndRun, commitStep_enginesAndRun, reach_enginesAndRun]

theorem endStep_dict (s : State) (c step : Nat) : (endStep s c step).dict = s.dict := rfl

theorem passCapo_entry (s : State) {i j : Nat} (h : 0x3101 ≤ i) : (passCapo s).ent i j = s.ent i j := by
  have hne (k : Nat) (hk : k < 256) : ekey i j ≠ ekey 0x3100 k := by
    unfold ekey
    omega
  unfold passCapo showCapo
  dsimp only
  rw [State.ent_setEnt_ne _ _ _ _ _ _ (hne 2 (by decide)), State.ent_setEnt_ne _ _ _ _ _ _ (hne 1 (by decide))]
  rfl

theorem commitBeforeStages_coll (s : State) (c : Nat) (repaired : Bool) : (commitBeforeStages s c repaired).coll = s.coll :=
  (Prod.mk.inj (commitBeforeStages_enginesAndRun s c repaired)).1

/-- A commit, once the stages' marks are exported, leaves every entry above `0x3100` alone, where no stream has batches to release. -/
theorem commitCapo_entry {s : State} {slot c : Nat} {mask : BitVec 48} {w : W32} (hn : nextCapo s = some (2, slot, mask, c))
    (hv : s.run.verdict = some w) (hw : w.getLsbD 0 = false) (hr : s.running = true) (hd : s.run.deferred = none) (hs : s.coll.staged = [])
    (hm : s.mfe.streams = []) {i j : Nat} (hi : 0x3101 ≤ i) :
    ∃ t, exec .commitCapo s = .next t ∧ t.ent i j = (exportStages (commitBeforeStages s c (w.getLsbD 2))).ent i j := by
  have hreach := reach_enginesAndRun s c
  have hstaged : stagedLate (reach s c) = reach s c := stagedLate_of_none ((congrArg (fun e => e.1.staged) hreach).trans hs)
  have hdeferred : (reach s c).run.deferred = none := (congrArg (fun e => e.2.2.deferred) hreach).trans hd
  have howed : oweStep (exportStages (commitBeforeStages s c (w.getLsbD 2))) = exportStages (commitBeforeStages s c (w.getLsbD 2)) := by
    refine oweStep_of_no_streams ?_
    rw [exportStages_mfe]
    exact (congrArg (fun e => e.2.1.streams) (commitBeforeStages_enginesAndRun s c (w.getLsbD 2))).trans hm
  show ∃ t, execCommitCapo s = .next t ∧ _
  unfold execCommitCapo
  simp only [hn, hv, hw, hstaged, reach_running, hr, hdeferred, Bool.not_true, Bool.not_false, Bool.false_eq_true, if_false]
  refine ⟨_, rfl, ?_⟩
  rw [State.ent_of_dict (pausePoint_dict ..), passCapo_entry _ hi, State.ent_of_dict (switchPorts_dict ..), State.ent_of_dict (endStep_dict ..)]
  exact congrArg (fun t => t.ent i j) howed

/-- Step 0 at its commit capo at 20,100, over a table of so many stages that the entry of the last one, counted on from `0x5060:01`, is
`0x7000:05`. No tab has so many, but the statement is about every state. -/
def countlessStages : State :=
  { State.reset with
    ctl := { State.reset.ctl with dev := .run, powered := true, filled := true }
    run := { State.reset.run with start := 100, capos := [(20000, 2, 1, 5)], verdict := some 0 }
    coll := { State.reset.coll with stages := List.replicate (0x1FA004 + 1) (0, 0, 0) } }

/-- Refutes O19, in its clause on the exports: with 2,072,581 stages their marks overwrite the step that the numeric export shows. -/
theorem not_commitCapo : ¬ Obligations.CommitCapo := by
  unfold Obligations.CommitCapo
  intro h
  have hnext : nextCapo countlessStages = some (2, 1, 5, 20100) := rfl
  obtain ⟨u, hu, -, -, -, -, -, -, hcommits, -, -, -, hshown, -⟩ := h countlessStages 1 20100 5 0 hnext rfl rfl rfl (Nat.zero_le _) (by decide)
  obtain ⟨hstep, -⟩ := hcommits rfl
  obtain ⟨t, ht, hentry⟩ := commitCapo_entry (i := 0x7000) (j := 5) hnext rfl rfl rfl rfl rfl rfl (by decide)
  obtain rfl : u = t := Host.Outcome.next.inj (hu.symm.trans ht)
  have hcoll : (commitBeforeStages countlessStages 20100 ((0 : W32).getLsbD 2)).coll = countlessStages.coll :=
    commitBeforeStages_coll ..
  have hclear : u.ent 0x7000 5 = 0 :=
    hentry.trans (exportStages_clears (by rw [hcoll]; exact List.length_replicate) (by rw [hcoll]; rfl) (by decide) (by decide +kernel))
  rw [hclear, hstep] at hshown
  exact absurd hshown (by decide +kernel)

end Sys2Proof.Machine
end

section
/-!
System-wide aborts (O20). A cache counts its lookups in an entry whose subindex names the die (R181): the lookup of an address far beyond HBM counts under
the key of another entry.
-/
namespace Sys2Proof.Machine
open Sys2Proof

/-- The entry of a page far beyond HBM, in a line whose die, as the cache counters number it, has the step counter for its count of lookups. No gather
holds such a page, but the statement is about every state. -/
def farEntry : Nat := 75202560 * regionSize

/-- A run at step 0 with port 0 in service, whose core 0 holds that page. -/
def farHeld : State :=
  ({ State.reset with
    ctl := { State.reset.ctl with dev := .run, powered := true, filled := true }
    cores := [(0, { CoreS.reset with status := 2, moves := [holding farEntry] })] }).setEnt 0x3300 1 4

/-- An abort flit (Table 2-6) of module 1 for step 0, raised at 9. -/
def stepAbort : Flit := bareFlit 0xA (abortPayload 1 0x5404 9 0)

/-- The step counter after a command. -/
def stepAfter (o : Out) : Option Nat :=
  match o with
  | .next u => some (u.ent 0x5010 1)
  | _ => none

/-- Halting the core releases its page (R293), and the access to the entry counts as a lookup (R181): the step counter is no longer 0. -/
theorem farHeld_step : stepAfter (exec (.abortFlitReceive 10 0 stepAbort) farHeld) = some 1 := by decide +kernel

theorem farHeld_hears : Accepts farHeld 0 stepAbort 0xA := by
  simp only [Accepts]
  decide +kernel

/-- Refutes O20, in its clause that an abort leaves the step counter as it was: halting a core that holds a page far beyond HBM counts it up. -/
theorem not_systemAbort : ¬ Obligations.SystemAbort := by
  unfold Obligations.SystemAbort
  intro h
  obtain ⟨hrun, -⟩ := h farHeld 10 0 stepAbort
  obtain ⟨hact, -⟩ := hrun (by decide +kernel) farHeld_hears rfl (by decide +kernel) rfl rfl (fun c n hn => nomatch hn) (by decide +kernel)
  obtain ⟨u, hu, -, -, -, hstep, -⟩ := hact (fun r hr => nomatch hr)
  have hone : some (u.ent 0x5010 1) = some 1 := by rw [← farHeld_step, hu]; rfl
  rw [hstep] at hone
  exact absurd hone (by decide +kernel)

end Sys2Proof.Machine
end

section
/-!
# The edge of PPS_IN, its loss, and PPS_OUT (O25)
-/

namespace Sys2Proof.Machine
open Sys2Proof

/-! ### The edge of PPS_IN (R52 to R54) -/

section
variable {s : State} {t : FTime} {width : Nat}

/-- The edge at t of a pulse of the length R52 asks for, on a root that uses the input. -/
def TakesPulse (s : State) (t : FTime) (width : Nat) : Prop :=
  s.now ≤ t ∧ 50 ≤ width ∧ s.ctl.dev ≠ .off ∧ s.time.isRoot = true ∧ s.time.ppsUse = 1

/-- The edge lies half a second or more after the last accepted one (R54). -/
def Apart (s : State) (t : FTime) : Prop := ∀ l, s.time.ppsLast = some l → l.toNat + 500000000 ≤ t.toNat

/-- The edge in picoseconds, less the cable delay, and its distance from the nearest whole second (R53). -/
def edgeAt (s : State) (t : FTime) : Nat := t.toNat * 1000 - s.time.cable.toNat
def edgeOff (s : State) (t : FTime) : Int := (edgeAt s t : Int) - ((nearestSecond (edgeAt s t) * 1000 : Nat) : Int)

/-- The edge is merged with the last one. -/
def edgeMerges (s : State) (t : FTime) : Bool :=
  match s.time.ppsLast with
  | some l => decide (t.toNat < l.toNat + 500000000)
  | none => false

theorem edgeMerges_eq_false_iff : edgeMerges s t = false ↔ Apart s t := by
  unfold edgeMerges Apart
  cases s.time.ppsLast with
  | none => simp
  | some l => simp

/-- An edge merged: it is counted, and its event waits 60 s after the last. -/
def mergeEdge (s : State) : State :=
  let s := s.addEnt 0x3010 5 1
  let n := s.time.mergedSince + 1
  if eventDue s.time.mergedAt s.now then
    { (s.raise 0x2102 [(4, n), (4, 0), (8, s.now.toNat)]) with time := { s.time with mergedAt := some s.now, mergedSince := 0 } }
  else { s with time := { s.time with mergedSince := n } }

/-- An edge outside the window: it is counted, and its event waits 60 s after the last. -/
def countEdge (s : State) (off : Int) : State :=
  let s := s.addEnt 0x3010 6 1
  let n := s.time.oowSince + 1
  let ns := off / 1000
  let o := if 2147483647 < ns then 2147483647 else if ns < -2147483648 then -2147483648 else ns
  if eventDue s.time.oowAt s.now then
    { (s.raise 0x2103 [(4, unsigned 32 o), (4, n), (8, s.now.toNat)]) with time := { s.time with oowAt := some s.now, oowSince := 0 } }
  else { s with time := { s.time with oowSince := n } }

/-- What an edge does that the root takes. -/
theorem ppsInEdge_taken (h : TakesPulse s t width) : exec (.ppsInEdge t width) s =
    let u : State := { s with now := t }
    let v := BitVec.ofNat 64 ((nearestSecond (edgeAt s t) * 1000 + s.time.cable.toNat) / 1000)
    .next (if edgeMerges s t then mergeEdge u
      else if s.ctl.dev = .start ∧ s.time.ppsLast.isNone then
        { (stepTime u v) with time := { (stepTime u v).time with ppsLast := some v, ppsLostRaised := false } }
      else if s.ctl.dev = .start ∨ (edgeOff s t).natAbs ≤ 1000000 then
        { (servo u (-(edgeOff s t))) with time := { (servo u (-(edgeOff s t))).time with ppsLast := some t, ppsLostRaised := false } }
      else countEdge u (edgeOff s t)) := by
  obtain ⟨hnow, hwidth, hon, hroot, huse⟩ := h
  have hshort : ¬ (width < 50 ∨ s.ctl.dev = .off) := by
    rintro (hw | hd)
    · omega
    · exact hon hd
  have hused : ¬ (s.time.isRoot = false ∨ s.time.ppsUse ≠ 1) := by simp [hroot, huse]
  show execPpsInEdge t width s = _
  unfold execPpsInEdge
  rw [atTime_of_le s hnow]
  dsimp only
  rw [if_neg hshort, if_neg hused]
  change (if edgeMerges s t = true then _ else _) = _
  unfold mergeEdge countEdge
  split
  · dsimp only
    split <;> rfl
  · change (if s.ctl.dev = .start ∧ s.time.ppsLast.isNone = true then _ else if s.ctl.dev = .start ∨ (edgeOff s t).natAbs ≤ 1000000 then _ else _) = _
    split
    · rfl
    · split
      · rfl
      · dsimp only
        split <;> rfl

theorem edgeMerges_of_none (h : s.time.ppsLast = none) : edgeMerges s t = false := by
  unfold edgeMerges
  rw [h]

theorem mergeEdge_spec (s : State) : (mergeEdge s).ent 0x3010 5 = (s.ent 0x3010 5 + 1) % 2 ^ 32 ∧ (mergeEdge s).time.ppsLast = s.time.ppsLast := by
  have hmod : entryMod 0x3010 5 = 2 ^ 32 := by decide +kernel
  rw [← hmod, ← State.ent_addEnt_self s 0x3010 5 1]
  unfold mergeEdge
  dsimp only
  split <;> exact ⟨rfl, rfl⟩

theorem countEdge_spec (s : State) (off : Int) : (countEdge s off).ent 0x3010 6 = (s.ent 0x3010 6 + 1) % 2 ^ 32 ∧
    (countEdge s off).time.ppsLast = s.time.ppsLast ∧ (countEdge s off).ent 0x3000 7 = s.ent 0x3000 7 := by
  have hmod : entryMod 0x3010 6 = 2 ^ 32 := by decide +kernel
  rw [← hmod, ← State.ent_addEnt_self s 0x3010 6 1, ← State.ent_addEnt_ne s 0x3010 6 1 0x3000 7 (by decide)]
  unfold countEdge
  dsimp only
  split <;> exact ⟨rfl, rfl, rfl⟩

/-- In START the first pulse sets the fabric time (R53). -/
theorem ppsInEdge_first (h : TakesPulse s t width) (hd : s.ctl.dev = .start) (hl : s.time.ppsLast = none) :
    ∃ u, exec (.ppsInEdge t width) s = .next u ∧ u.now = BitVec.ofNat 64 ((nearestSecond (edgeAt s t) * 1000 + s.time.cable.toNat) / 1000) ∧
      u.time.ppsLast = some u.now := by
  refine ⟨_, ppsInEdge_taken h, ?_⟩
  simp only [edgeMerges_of_none hl, hd, hl, Option.isNone_none, and_self, Bool.false_eq_true, if_false, if_true]
  exact ⟨rfl, rfl⟩

/-- A pulse within the window, or a later one in START, disciplines the fabric time (R53). -/
theorem ppsInEdge_disciplines (h : TakesPulse s t width) (ha : Apart s t)
    (hin : (s.ctl.dev ≠ .start ∧ (edgeOff s t).natAbs ≤ 1000000) ∨ (s.ctl.dev = .start ∧ s.time.ppsLast ≠ none)) :
    ∃ u, exec (.ppsInEdge t width) s = .next u ∧ u.now = t ∧ u.time.ppsLast = some t ∧ u.time.ppsLostRaised = false ∧ u.ev = s.ev := by
  have hfirst : ¬ (s.ctl.dev = .start ∧ s.time.ppsLast.isNone = true) := by
    rintro ⟨hd, hnone⟩
    rcases hin with ⟨hn, -⟩ | ⟨-, hsome⟩
    · exact hn hd
    · exact hsome (Option.isNone_iff_eq_none.1 hnone)
  have hwindow : s.ctl.dev = .start ∨ (edgeOff s t).natAbs ≤ 1000000 := hin.elim (fun h => .inr h.2) (fun h => .inl h.1)
  refine ⟨_, ppsInEdge_taken h, ?_⟩
  simp only [edgeMerges_eq_false_iff.2 ha, hfirst, hwindow, Bool.false_eq_true, if_false, if_true]
  exact ⟨rfl, trivial, trivial, rfl⟩

/-- A pulse outside the window is counted and changes nothing (R53). -/
theorem ppsInEdge_outside (h : TakesPulse s t width) (ha : Apart s t) (hd : s.ctl.dev ≠ .start) (hoff : 1000000 < (edgeOff s t).natAbs) :
    ∃ u, exec (.ppsInEdge t width) s = .next u ∧ u.ent 0x3010 6 = (s.ent 0x3010 6 + 1) % 2 ^ 32 ∧ u.time.ppsLast = s.time.ppsLast ∧
      u.ent 0x3000 7 = s.ent 0x3000 7 := by
  have hwindow : ¬ (s.ctl.dev = .start ∨ (edgeOff s t).natAbs ≤ 1000000) := by
    rintro (hs | hle)
    · exact hd hs
    · omega
  refine ⟨_, ppsInEdge_taken h, ?_⟩
  have hfirst : ¬ (s.ctl.dev = .start ∧ s.time.ppsLast.isNone = true) := fun h => hd h.1
  simp only [edgeMerges_eq_false_iff.2 ha, hfirst, hwindow, Bool.false_eq_true, if_false]
  exact countEdge_spec { s with now := t } _

/-- Pulses closer than half a second are merged (R54). -/
theorem ppsInEdge_merges (h : TakesPulse s t width) (ha : ¬ Apart s t) :
    ∃ u, exec (.ppsInEdge t width) s = .next u ∧ u.ent 0x3010 5 = (s.ent 0x3010 5 + 1) % 2 ^ 32 ∧ u.time.ppsLast = s.time.ppsLast := by
  have hmerges : edgeMerges s t = true := by
    rw [← Bool.not_eq_false]
    exact mt edgeMerges_eq_false_iff.1 ha
  refine ⟨_, ppsInEdge_taken h, ?_⟩
  simp only [hmerges, if_true]
  exact mergeEdge_spec { s with now := t }

/-- The edge that no root takes is counted (log entry 123). -/
theorem ppsInEdge_unused (hnow : s.now ≤ t) (hwidth : 50 ≤ width) (hon : s.ctl.dev ≠ .off) (h : s.time.isRoot = false ∨ s.time.ppsUse ≠ 1) :
    exec (.ppsInEdge t width) s = .next { s with now := t, time := { s.time with ppsCount := s.time.ppsCount + 1 } } := by
  have hshort : ¬ (width < 50 ∨ s.ctl.dev = .off) := by
    rintro (hw | hd)
    · omega
    · exact hon hd
  show execPpsInEdge t width s = _
  unfold execPpsInEdge
  rw [atTime_of_le s hnow]
  dsimp only
  rw [if_neg hshort, if_pos h]

/-- A pulse missing for 2 s is reported once (R55). -/
theorem ppsLost_reports (hnow : s.now ≤ t) (hroot : s.time.isRoot = true) (huse : s.time.ppsUse = 1) (hraised : s.time.ppsLostRaised = false)
    (hlate : (s.time.ppsLast.getD s.ctl.startAt).toNat + 2000000000 ≤ t.toNat) :
    ∃ u e, exec (.ppsLost t) s = .next u ∧ u.time.ppsLostRaised = true ∧ u.ev.raised = s.ev.raised ++ [e] ∧ e.code = 0x2104 := by
  show ∃ u e, execPpsLost t s = .next u ∧ _
  unfold execPpsLost
  rw [atTime_of_le s hnow]
  dsimp only
  rw [if_pos ⟨hroot, huse, hraised, hlate⟩]
  exact ⟨_, _, rfl, rfl, rfl, rfl⟩
end

/-! ### PPS_OUT (R56) -/

/-- The first whole second that has not passed. -/
def wholeSecond (s : State) : FTime := BitVec.ofNat 64 (ceilDiv s.now.toNat 1000000000 * 1000000000)

/-- The second at which PPS_OUT rises next: one that has had its pulse is passed over. -/
def nextPulse (s : State) : FTime := if s.time.ppsOut = some (wholeSecond s) then wholeSecond s + 1000000000#64 else wholeSecond s

theorem ppsOutPulse_eq {s : State} (hp : s.ctl.powered = true) (hl : s.lock ≠ 1) :
    exec .ppsOutPulse s = .next { s with now := nextPulse s, time := { s.time with ppsOut := some (nextPulse s) } } := by
  show execPpsOutPulse s = _
  unfold execPpsOutPulse
  rw [if_neg (by simp [hp, hl])]
  rfl

theorem wholeSecond_toNat {s : State} (h : s.now.toNat + 2000000000 < 2 ^ 64) :
    (wholeSecond s).toNat % 1000000000 = 0 ∧ s.now.toNat ≤ (wholeSecond s).toNat ∧ (wholeSecond s).toNat < s.now.toNat + 1000000000 := by
  have hlt : (s.now.toNat + 1000000000 - 1) / 1000000000 * 1000000000 < 2 ^ 64 := by omega
  unfold wholeSecond ceilDiv
  rw [BitVec.toNat_ofNat, Nat.mod_eq_of_lt hlt]
  omega

/-- PPS_OUT rises at a whole second that has had no pulse. -/
theorem nextPulse_spec {s : State} (h : s.now.toNat + 2000000000 < 2 ^ 64) :
    (nextPulse s).toNat % 1000000000 = 0 ∧ s.now.toNat ≤ (nextPulse s).toNat ∧ s.time.ppsOut ≠ some (nextPulse s) ∧
      (nextPulse s).toNat + 1000000 < 2 ^ 64 := by
  obtain ⟨hsecond, hle, hlt⟩ := wholeSecond_toNat h
  unfold nextPulse
  split
  · rename_i hhad
    have hnext : (wholeSecond s + 1000000000#64).toNat = (wholeSecond s).toNat + 1000000000 := by
      rw [BitVec.toNat_add, show (1000000000#64).toNat = 1000000000 from rfl, Nat.mod_eq_of_lt (by omega)]
    refine ⟨by omega, by omega, ?_, by omega⟩
    rw [hhad]
    intro heq
    have := congrArg BitVec.toNat (Option.some.inj heq)
    omega
  · rename_i hnew
    exact ⟨hsecond, hle, hnew, by omega⟩

/-- PPS_OUT is high at k, where its pulse begins, and low 1 ms later. -/
theorem ppsHigh_pulse {u : State} {k : FTime} (hp : u.ctl.powered = true) (hl : u.lock ≠ 1) (hk : u.time.ppsOut = some k) (hn : u.now = k)
    (hlt : k.toNat + 1000000 < 2 ^ 64) : u.ppsHigh = true ∧ ({ u with now := k + 1000000 } : State).ppsHigh = false := by
  have hend : (k + 1000000).toNat = k.toNat + 1000000 := by
    rw [BitVec.toNat_add, show (1000000 : FTime).toNat = 1000000 from rfl, Nat.mod_eq_of_lt hlt]
  unfold State.ppsHigh
  simp only [hk, hn, hp, hend]
  simp [hl]

theorem ppsOutPulse_rises {s : State} (hp : s.ctl.powered = true) (hl : s.lock ≠ 1) (h : s.now.toNat + 2000000000 < 2 ^ 64) :
    ∃ u k, exec .ppsOutPulse s = .next u ∧ u.time.ppsOut = some k ∧ u.now = k ∧ k.toNat % 1000000000 = 0 ∧ s.now.toNat ≤ k.toNat ∧
      s.time.ppsOut ≠ some k ∧ u.ppsHigh = true ∧ ({ u with now := k + 1000000 } : State).ppsHigh = false := by
  obtain ⟨hsecond, hle, hnew, hlt⟩ := nextPulse_spec h
  refine ⟨_, nextPulse s, ppsOutPulse_eq hp hl, rfl, rfl, hsecond, hle, hnew, ?_⟩
  exact ppsHigh_pulse hp hl rfl rfl hlt

/-- Settles O25: the edge of PPS_IN by its cases, the loss of the input, and the pulses of PPS_OUT. -/
theorem pulsePerSecond : Obligations.PulsePerSecond := by
  unfold Obligations.PulsePerSecond
  intro s t width at_ off apart takes
  exact ⟨ppsInEdge_first, ppsInEdge_disciplines, ppsInEdge_outside, ppsInEdge_merges, ppsLost_reports, ppsOutPulse_rises, ppsInEdge_unused⟩

end Sys2Proof.Machine
end

section
/-!
What an access to stored data and what an abort leave alone, for the statements about fabric time and about transfers.
-/
namespace Sys2Proof.Machine
open Sys2Proof

/-! ### What accesses and counts leave alone -/

/-- All but what accesses to stored data, their checks and the counts of a run may change. -/
def besideAccounts (s : State) : State :=
  { s with dict := [], freeCtr := 0, mem := Mem.reset, pages := State.reset.pages, ev := State.reset.ev, coll := { s.coll with high := [] } }

/-- From s to t there are accesses to stored data, their checks and counts of a run: every entry below `0x4020` stays, and events are only added. -/
structure Accounts (s t : State) : Prop where
  kept : besideAccounts t = besideAccounts s
  low : ∀ i j, i < 0x4020 → j < 256 → t.ent i j = s.ent i j
  events : s.ev.raised <+: t.ev.raised

namespace Accounts

theorem refl (s : State) : Accounts s s := ⟨rfl, fun _ _ _ _ => rfl, List.prefix_rfl⟩

theorem trans {s t u : State} (h : Accounts s t) (h' : Accounts t u) : Accounts s u :=
  ⟨h'.kept.trans h.kept, fun i j hi hj => (h'.low i j hi hj).trans (h.low i j hi hj), h.events.trans h'.events⟩

theorem foldl {α : Type} {f : State → α → State} (h : ∀ s x, Accounts s (f s x)) (l : List α) (s : State) : Accounts s (l.foldl f s) := by
  induction l generalizing s with
  | nil => exact refl s
  | cons x l ih => exact (h s x).trans (ih _)

theorem foldl_fst {α β : Type} {f : State × β → α → State × β} (h : ∀ s x, Accounts s.1 (f s x).1) (l : List α) (s : State × β) :
    Accounts s.1 (l.foldl f s).1 := by
  induction l generalizing s with
  | nil => exact refl s.1
  | cons x l ih => exact (h s x).trans (ih _)

section
variable {s t : State} (h : Accounts s t)
include h

theorem ctl : t.ctl = s.ctl := show (besideAccounts t).ctl = (besideAccounts s).ctl from congrArg State.ctl h.kept
theorem now : t.now = s.now := show (besideAccounts t).now = (besideAccounts s).now from congrArg State.now h.kept
theorem time : t.time = s.time := show (besideAccounts t).time = (besideAccounts s).time from congrArg State.time h.kept
theorem run : t.run = s.run := show (besideAccounts t).run = (besideAccounts s).run from congrArg State.run h.kept
theorem cores : t.cores = s.cores := show (besideAccounts t).cores = (besideAccounts s).cores from congrArg State.cores h.kept
theorem coll : { t.coll with high := [] } = { s.coll with high := [] } :=
  show (besideAccounts t).coll = (besideAccounts s).coll from congrArg State.coll h.kept

theorem running : t.running = s.running := by
  unfold State.running State.eff
  rw [h.ctl]

end

theorem setEnt (s : State) {i : Nat} (j v : Nat) (hi : 0x4020 ≤ i) : Accounts s (s.setEnt i j v) := by
  refine ⟨rfl, fun i' j' hi' hj' => State.ent_setEnt_ne s i j v i' j' ?_, List.prefix_rfl⟩
  unfold ekey
  omega

theorem addEnt (s : State) {i : Nat} (j n : Nat) (hi : 0x4020 ≤ i) : Accounts s (s.addEnt i j n) := setEnt s j _ hi

theorem raise (s : State) (code : Nat) (vs : List (Nat × Nat)) : Accounts s (s.raise code vs) :=
  ⟨rfl, fun _ _ _ _ => rfl, List.prefix_append ..⟩

theorem withMem (s : State) (m : Mem) : Accounts s { s with mem := m } := ⟨rfl, fun _ _ _ _ => rfl, List.prefix_rfl⟩

theorem withPages (s : State) (p : Pages) : Accounts s { s with pages := p } := ⟨rfl, fun _ _ _ _ => rfl, List.prefix_rfl⟩

theorem withFreeCtr (s : State) (n : Nat) : Accounts s { s with freeCtr := n } := ⟨rfl, fun _ _ _ _ => rfl, List.prefix_rfl⟩

theorem hput (s : State) (a : Nat) (b : List Byte) : Accounts s (hput s a b) := ⟨rfl, fun _ _ _ _ => rfl, List.prefix_rfl⟩

end Accounts

/-! ### Counts and reports of stored errors (R532 to R534) -/

section
variable (s : State)

theorem noteCorrected_accounts (kind unit addr : Nat) : Accounts s (noteCorrected s kind unit addr) := by
  have hcount : Accounts s (s.addEnt 0x4100 kind 1) := .addEnt s kind 1 (by decide)
  unfold noteCorrected
  generalize s.addEnt 0x4100 kind 1 = t at hcount ⊢
  have hnoted (m : Mem) : Accounts s { t with mem := m } := hcount.trans (.withMem t m)
  have hraised (m : Mem) (code : Nat) (vs : List (Nat × Nat)) : Accounts s (({ t with mem := m } : State).raise code vs) :=
    (hnoted m).trans (.raise _ code vs)
  dsimp only
  split <;> split
  · exact hraised _ _ _
  · exact hnoted _
  · exact hraised _ _ _
  · exact hnoted _

theorem recordBad_accounts (kind cause unit addr : Nat) : Accounts s (recordBad s kind cause unit addr) := by
  unfold recordBad
  split
  · exact ((((Accounts.setEnt s 1 _ (by decide)).trans (.setEnt _ 2 _ (by decide))).trans (.setEnt _ 3 _ (by decide))).trans
      (.setEnt _ 4 _ (by decide))).trans (.setEnt _ 5 _ (by decide))
  · exact .refl s

theorem reportBad_accounts (kind cause unit addr : Nat) : Accounts s (reportBad s kind cause unit addr) := by
  unfold reportBad
  dsimp only
  split
  · exact (Accounts.withMem s _).trans (.raise _ _ _)
  · exact .refl s

theorem noteBad_accounts (kind cause unit addr : Nat) : Accounts s (noteBad s kind cause unit addr) := by
  rw [noteBad_eq]
  exact ((Accounts.addEnt s kind 1 (by decide)).trans (recordBad_accounts _ _ _ _ _)).trans (reportBad_accounts _ _ _ _ _)

theorem addCandidate_accounts (kind origin unit key : Nat) : Accounts s (addCandidate s kind origin unit key) := by
  unfold addCandidate
  split
  · exact .refl s
  · split
    · exact .addEnt s _ _ (by decide)
    · exact (Accounts.withMem s _).trans (.setEnt _ _ _ (by decide))

/-! ### Checks of stored codes -/

theorem setUnit_accounts (u : Nat) (r : Option RawCode) : Accounts s (s.setUnit u r) := .withMem s _
theorem setSramWord_accounts (k : Nat) (r : Option RawCode) : Accounts s (s.setSramWord k r) := .withMem s _
theorem setCache_accounts (l : List CacheLine) : Accounts s (s.setCache l) := .withMem s _

theorem hcheck_accounts (a n : Nat) : Accounts s (hcheck s a n).1 := by
  unfold hcheck
  refine Accounts.foldl_fst (fun t u => ?_) s.mem.hbmRaw (s, false)
  dsimp only
  split
  · exact .refl _
  · split
    · exact .refl _
    · split
      · exact .refl _
      · exact (noteCorrected_accounts t.1 1 _ _).trans (setUnit_accounts _ _ _)
      · split
        · exact noteBad_accounts t.1 1 _ _ _
        · exact (noteBad_accounts t.1 1 _ _ _).trans (addCandidate_accounts _ _ _ _ _)

theorem sramReadCheck_accounts (kind c first n : Nat) : Accounts s (sramReadCheck s kind c first n).1 := by
  unfold sramReadCheck
  refine Accounts.foldl_fst (fun t u => ?_) s.mem.sramRaw (s, false)
  dsimp only
  split
  · exact .refl _
  · split
    · exact .refl _
    · split
      · exact .refl _
      · exact (noteCorrected_accounts t.1 kind _ _).trans (.withMem _ _)
      · exact (noteBad_accounts t.1 kind _ _ _).trans (addCandidate_accounts _ _ _ _ _)

theorem mergeUnit_accounts (a n : Nat) (u : Nat × Option RawCode) : Accounts s (mergeUnit a n s u) := by
  unfold mergeUnit
  dsimp only
  split
  · exact .refl s
  · split
    · exact setUnit_accounts ..
    · split
      · exact .refl s
      · split
        · exact setUnit_accounts ..
        · exact (setUnit_accounts s _ _).trans (noteCorrected_accounts _ _ _ _)
        · exact setUnit_accounts ..

theorem hwrite_accounts (a : Nat) (b : List Byte) : Accounts s (hwrite s a b) := by
  unfold hwrite
  split
  · exact .hput s a b
  · exact (((Accounts.hput s a b).trans (.foldl (fun t u => mergeUnit_accounts t a b.length u) _ _)).trans (.withMem _ _)).trans
      (.setEnt _ _ _ (by decide))

theorem mergeChecked_accounts (kind c first n : Nat) (u : Nat × Option RawCode) : Accounts s (mergeChecked kind c first n s u) := by
  unfold mergeChecked
  dsimp only
  split
  · exact .refl s
  · split
    · exact setSramWord_accounts ..
    · split
      · exact .refl s
      · split
        · exact .refl s
        · exact (setSramWord_accounts s _ _).trans (noteCorrected_accounts _ _ _ _)

theorem touchSram_accounts (kind c first n : Nat) : Accounts s (touchSram s kind c first n) := by
  unfold touchSram
  split
  · exact .refl s
  · exact ((Accounts.foldl (fun t u => mergeChecked_accounts t kind c first n u) _ s).trans (.withMem _ _)).trans (.setEnt _ _ _ (by decide))

/-! ### The shared cache -/

theorem poisonUnits_accounts (x : CacheLine) : Accounts s (poisonUnits s x) :=
  .foldl (f := fun (t : State) w => let u := 4 * x.line + w / 8
    t.setUnit u (some (poisonCode (hread t (localOf t u) 64)))) (fun t _ => setUnit_accounts t _ _) _ s

theorem writeBack_accounts (x : CacheLine) : Accounts s (writeBack s x) := by
  unfold writeBack
  split
  · exact (Accounts.addEnt s _ 1 (by decide)).trans (poisonUnits_accounts _ x)
  · exact .refl s

theorem makeRoom_accounts (l : Nat) : Accounts s (makeRoom s l) := by
  unfold makeRoom
  dsimp only
  split
  · exact .refl s
  · split
    · exact (setCache_accounts s _).trans (writeBack_accounts _ _)
    · exact .refl s

theorem countLookup_accounts (d : Nat) (hit : Bool) : Accounts s (countLookup s d hit) := by
  have hcount : Accounts s (s.addEnt 0x4020 (d + 1) 1) := .addEnt s (d + 1) 1 (by decide)
  cases hit with
  | false => exact hcount.trans (.withMem _ _)
  | true => exact (hcount.trans (.addEnt _ (d + 1) 1 (by decide : 0x4020 ≤ 0x4021))).trans (.withMem _ _)

theorem useLine_accounts (x : CacheLine) (a o n : Nat) (w : Bool) : Accounts s (useLine s x a o n w).2 := by
  unfold useLine
  extract_lets left
  split
  · split
    · exact writeBack_accounts ..
    · exact noteCorrected_accounts ..
  · exact .refl s

theorem lookup_accounts (a n : Nat) (write alloc : Bool) : Accounts s (lookup s a n write alloc) := by
  unfold lookup
  dsimp only
  split
  · exact ((countLookup_accounts s _ _).trans (useLine_accounts _ _ _ _ _ _)).trans (setCache_accounts _ _)
  · split
    · exact ((countLookup_accounts s _ _).trans (makeRoom_accounts _ _)).trans (setCache_accounts _ _)
    · exact countLookup_accounts ..

theorem lookups_accounts (a n : Nat) (write alloc : Bool) : Accounts s (lookups s a n write alloc) := by
  unfold lookups accesses
  split
  · exact .refl s
  · exact .foldl (fun t k => lookup_accounts t _ _ write alloc) _ s

theorem memWrite_accounts (a : Nat) (b : List Byte) : Accounts s (memWrite s a b) :=
  (lookups_accounts s a b.length true true).trans (hwrite_accounts _ a b)

/-! ### Pages that are let go, and passes that are cut off (R293, R533) -/

theorem pageWrite_accounts (a n v : Nat) : Accounts s (pageWrite s a n v) :=
  ((lookups_accounts s a n true true).trans (hcheck_accounts _ a n)).trans (hwrite_accounts _ a _)

theorem setRecords_accounts (n g v : Nat) : Accounts s (setRecords s n g v) := .foldl (fun t _ => pageWrite_accounts t _ 4 v) _ s

theorem noteGranules_accounts (free pending : Int) : Accounts s (noteGranules s free pending) :=
  (Accounts.setEnt s 1 _ (by decide)).trans (.setEnt _ 2 _ (by decide))

theorem setPageSlot_accounts (k : Nat) (x : PageSlot) : Accounts s (s.setPageSlot k x) := .withPages s _

theorem closeIfDone_accounts (k : Nat) : Accounts s (closeIfDone s k) := by
  unfold closeIfDone
  dsimp only
  split
  · exact setPageSlot_accounts ..
  · exact .refl s

theorem releasePage_accounts (a : Nat) : Accounts s (releasePage s a) := by
  unfold releasePage
  dsimp only
  split
  · exact ((((pageWrite_accounts s a 8 0).trans (setRecords_accounts _ _ _ 0)).trans (noteGranules_accounts _ _ _)).trans
      (setPageSlot_accounts _ _ _)).trans (closeIfDone_accounts _ _)
  · exact pageWrite_accounts ..

theorem releaseMoves_accounts (x : CoreS) : Accounts s (releaseMoves s x) := .foldl releasePage_accounts _ s

theorem touchPass_accounts (c : Nat) (p : Pass) : Accounts s (touchPass c s p) := by
  unfold touchPass
  exact (Accounts.foldl (fun t (w : Nat × List Byte) => touchSram_accounts t 2 c w.1 w.2.length) _ s).trans
    (.foldl (fun t _ => touchSram_accounts t _ c _ _) _ _)

theorem touchLeft_accounts (c : Nat × CoreS) : Accounts s (touchLeft s c) := .foldl (fun t _ => touchPass_accounts t c.1 _) _ s

/-! ### Counts of a run that ends -/

theorem noteBallast_accounts (c : Nat) : Accounts s (noteBallast s c) := by
  unfold noteBallast drawNat
  exact (Accounts.withFreeCtr s _).trans (.addEnt _ _ _ (by decide))

theorem waitBallast_accounts : Accounts s (waitBallast s) := by
  refine Accounts.foldl (fun t c => ?_) _ s
  unfold endBallast
  split
  · exact noteBallast_accounts t c
  · exact .refl t

theorem hitRates_accounts : Accounts s (hitRates s) := by
  unfold hitRates
  exact (Accounts.foldl (fun t d => Accounts.setEnt t (d + 1) _ (by decide)) _ s).trans (.withMem _ _)

end

/-! ### What an abort spares -/

/-- From s to t nothing changes of the units of fabric time, of the clock and of the entries below `0x4020` but those listed, and events are only added. -/
structure Spares (l : List (Nat × Nat)) (s t : State) : Prop where
  time : t.time = s.time
  now : t.now = s.now
  low : ∀ i j, i < 0x4020 → j < 256 → (i, j) ∉ l → t.ent i j = s.ent i j
  events : s.ev.raised <+: t.ev.raised

namespace Spares

theorem refl (l : List (Nat × Nat)) (s : State) : Spares l s s := ⟨rfl, rfl, fun _ _ _ _ _ => rfl, List.prefix_rfl⟩

theorem trans {l : List (Nat × Nat)} {s t u : State} (h : Spares l s t) (h' : Spares l t u) : Spares l s u :=
  ⟨h'.time.trans h.time, h'.now.trans h.now, fun i j hi hj hl => (h'.low i j hi hj hl).trans (h.low i j hi hj hl), h.events.trans h'.events⟩

theorem mono {l l' : List (Nat × Nat)} {s t : State} (h : Spares l s t) (hl : l ⊆ l') : Spares l' s t :=
  ⟨h.time, h.now, fun i j hi hj hn => h.low i j hi hj fun hm => hn (hl hm), h.events⟩

theorem of_accounts {s t : State} (l : List (Nat × Nat)) (h : Accounts s t) : Spares l s t :=
  ⟨h.time, h.now, fun i j hi hj _ => h.low i j hi hj, h.events⟩

theorem of_eq {s t : State} (l : List (Nat × Nat)) (ht : t.time = s.time) (hn : t.now = s.now) (hd : t.dict = s.dict) (he : t.ev = s.ev) :
    Spares l s t :=
  ⟨ht, hn, fun i j _ _ _ => State.ent_of_dict hd i j, by rw [he]⟩

/-- An entry that is listed, or lies at `0x4020` or above, is set. -/
theorem setEnt {l : List (Nat × Nat)} (s : State) {i j : Nat} (v : Nat) (hj : j < 256) (h : 0x4020 ≤ i ∨ (i, j) ∈ l) :
    Spares l s (s.setEnt i j v) := by
  refine ⟨rfl, rfl, fun i' j' hi' hj' hl => State.ent_setEnt_ne s i j v i' j' fun hk => ?_, List.prefix_rfl⟩
  obtain ⟨rfl, rfl⟩ := (ekey_inj hj' hj).1 hk
  rcases h with h | h
  · omega
  · exact hl h

theorem addEnt {l : List (Nat × Nat)} (s : State) {i j : Nat} (n : Nat) (hj : j < 256) (h : 0x4020 ≤ i ∨ (i, j) ∈ l) :
    Spares l s (s.addEnt i j n) := setEnt s _ hj h

theorem raise (l : List (Nat × Nat)) (s : State) (code : Nat) (vs : List (Nat × Nat)) : Spares l s (s.raise code vs) :=
  of_accounts l (.raise s code vs)

theorem foldl {α : Type} {l : List (Nat × Nat)} {f : State → α → State} (h : ∀ s x, Spares l s (f s x)) (xs : List α) (s : State) :
    Spares l s (xs.foldl f s) := by
  induction xs generalizing s with
  | nil => exact refl l s
  | cons x xs ih => exact (h s x).trans (ih _)

theorem enterEff (l : List (Nat × Nat)) (s : State) (d : Dev) : Spares l s (s.enterEff d) := by
  rcases s.enterEff_cases d with ⟨-, h⟩ | ⟨-, h⟩
  · rw [h]
    exact of_eq l rfl rfl rfl rfl
  · rw [h]
    unfold State.enter
    exact ((setEnt s _ (by decide) (.inl (by decide))).trans (setEnt _ _ (by decide) (.inl (by decide)))).trans (of_eq l rfl rfl rfl rfl)

/-- An event raised before stays raised. -/
theorem mem_raised {l : List (Nat × Nat)} {s t : State} (h : Spares l s t) {e : EvRec} (he : e ∈ s.ev.raised) : e ∈ t.ev.raised :=
  h.events.subset he

end Spares

/-! ### Abandoning a step (R72) -/

theorem modPort_spares (l : List (Nat × Nat)) (s : State) (p : Nat) (f : PortS → PortS) : Spares l s (s.modPort p f) := .of_eq l rfl rfl rfl rfl

theorem openPorts_spares (l : List (Nat × Nat)) (s : State) : Spares l s (openPorts s) := .foldl (fun t p => modPort_spares l t p _) _ s

theorem haltCores_spares (l : List (Nat × Nat)) (s : State) : Spares l s (haltCores s) := by
  have hreleased : Accounts s (s.cores.foldl (fun t c => touchLeft (releaseMoves t c.2) c) s) :=
    .foldl (fun t (c : Nat × CoreS) => (releaseMoves_accounts t c.2).trans (touchLeft_accounts _ c)) _ s
  unfold haltCores
  exact (Spares.of_accounts l hreleased).trans (.of_eq l rfl rfl rfl rfl)

/-- The entries below `0x4020` that abandoning a step sets. -/
def abandonEntries : List (Nat × Nat) := [(0x2200, 5), (0x3100, 2)]

/-- The cores halted, the ports open, the abandonment shown (R72). -/
def stepDropped (s : State) : State :=
  (((openPorts (haltCores (waitBallast (hitRates s)))).setEnt 0x5010 3 3).addEnt 0x7000 7 1).setEnt 0x3100 2 0

/-- The units that an abandoned step held are freed. -/
def unitsFreed (t : State) : State :=
  { t with
    coll := abortColl t.coll
    regions := t.regions.map fun r => (r.1, killQueue r.2)
    run := { clearStep t.run with aborts := t.run.aborts }
    power := { t.power with stretched := false, exceeded := false } }

theorem abandon_eq (s : State) : abandon s = startTaper ((unitsFreed (stepDropped s)).enterEff .aborting) := rfl

theorem unitsFreed_spares (l : List (Nat × Nat)) (t : State) : Spares l t (unitsFreed t) := .of_eq l rfl rfl rfl rfl

theorem startTaper_spares {l : List (Nat × Nat)} (h : (0x2200, 5) ∈ l) (s : State) : Spares l s (startTaper s) := by
  unfold startTaper taperFrom
  exact (Spares.setEnt s 256 (by decide) (.inr h)).trans (.of_eq l rfl rfl rfl rfl)

theorem stepDropped_spares (s : State) : Spares abandonEntries s (stepDropped s) := by
  unfold stepDropped
  exact ((((Spares.of_accounts _ ((hitRates_accounts s).trans (waitBallast_accounts _))).trans (haltCores_spares _ _)).trans
    (openPorts_spares _ _)).trans ((Spares.setEnt _ 3 (by decide) (.inl (by decide))).trans (.addEnt _ 1 (by decide) (.inl (by decide))))).trans
    (.setEnt _ 0 (by decide) (.inr (by decide)))

theorem abandon_spares (s : State) : Spares abandonEntries s (abandon s) := by
  rw [abandon_eq]
  exact (((stepDropped_spares s).trans (unitsFreed_spares _ _)).trans (.enterEff _ _ _)).trans (startTaper_spares (by decide) _)

theorem State.ent_enterEff_ne (s : State) (d : Dev) {i j : Nat} (h : i ≠ 0x5002) (hj : j < 256) : (s.enterEff d).ent i j = s.ent i j := by
  rcases s.enterEff_cases d with ⟨-, he⟩ | ⟨-, he⟩
  · rw [he]
    rfl
  · rw [he, State.ent_enter_ne s d h hj]

theorem startTaper_ent_ne (s : State) {i j : Nat} (h : i ≠ 0x2200) (hj : j < 256) : (startTaper s).ent i j = s.ent i j :=
  State.ent_setEnt_ne s 0x2200 5 256 i j (by rw [ne_eq, ekey_inj hj (by decide)]; omega)

theorem unitsFreed_ent (t : State) (i j : Nat) : (unitsFreed t).ent i j = t.ent i j := rfl

theorem stepDropped_shown (s : State) : (stepDropped s).ent 0x5010 3 = 3 := by
  unfold stepDropped
  rw [State.ent_setEnt_ne _ _ _ _ _ _ (by decide), State.ent_addEnt_ne _ _ _ _ _ _ (by decide), State.ent_setEnt_self]

theorem startTaper_eff (s : State) : (startTaper s).eff = s.eff := rfl

/-- The module is in ABORTING, and the step shows as abandoned. -/
theorem abandon_aborts (s : State) : (abandon s).eff = .aborting ∧ (abandon s).ent 0x5010 3 = 3 := by
  rw [abandon_eq]
  refine ⟨?_, ?_⟩
  · rw [startTaper_eff, State.eff_enterEff _ _ (by decide)]
  · rw [startTaper_ent_ne _ (by decide) (by decide), State.ent_enterEff_ne _ _ (by decide) (by decide), unitsFreed_ent, stepDropped_shown]

/-! ### Acting on an abort (R68, R71) -/

/-- An abort is sent on from the ports alone. -/
theorem floodAbort_eq (s : State) (orig reason raise step : Nat) (except : Option Nat) :
    ∃ l, floodAbort s orig reason raise step except = { s with links := l } := by
  unfold floodAbort
  dsimp only
  generalize List.range 48 = ps
  generalize bareFlit 0xA _ = f
  induction ps generalizing s with
  | nil => exact ⟨s.links, rfl⟩
  | cons p ps ih =>
    rw [List.foldl_cons]
    split
    · obtain ⟨l, h⟩ := ih (s.modPort p fun x => { x with urgent := x.urgent ++ [f] })
      rw [h]
      exact ⟨l, rfl⟩
    · exact ih s

/-- The abort is held: the first of a step shows its time. -/
def holdAbort (s : State) (raise : Nat) : State :=
  let s := if s.run.aborts = [] then s.setEnt 0x3110 4 raise else s
  { s with run := { s.run with aborts := BitVec.ofNat 64 raise :: s.run.aborts } }

/-- An abort raised too late to stop the commit waits for the step that follows, the earliest of them. -/
def deferredAbort (d : Option (W16 × W16 × FTime)) (orig reason raise : Nat) : Option (W16 × W16 × FTime) :=
  match d with
  | none => some (BitVec.ofNat 16 orig, BitVec.ofNat 16 reason, BitVec.ofNat 64 raise)
  | some d => if raise < d.2.2.toNat then some (BitVec.ofNat 16 orig, BitVec.ofNat 16 reason, BitVec.ofNat 64 raise) else some d

/-- What is done about an abort that is held. -/
def decideAbort (s : State) (orig reason raise : Nat) : State :=
  if !s.running then s
  else if abandons s.run raise then abandon s
  else { s with run := { s.run with deferred := deferredAbort s.run.deferred orig reason raise } }

theorem actAbort_eq (s : State) (orig reason raise : Nat) (except : Option Nat) :
    actAbort s orig reason raise except = decideAbort (holdAbort (floodAbort s orig reason raise (s.ent 0x5010 1 % 2 ^ 32) except) raise) orig reason raise := by
  unfold actAbort
  generalize floodAbort s orig reason raise (s.ent 0x5010 1 % 2 ^ 32) except = u
  unfold decideAbort holdAbort
  dsimp only
  generalize (if u.run.aborts = [] then u.setEnt 0x3110 4 raise else u) = v
  split
  · rfl
  · split
    · rfl
    · cases v.run.deferred <;> rfl

/-- The entries below `0x4020` that an abort sets. -/
def abortEntries : List (Nat × Nat) := (0x3110, 4) :: abandonEntries

/-- An abort held changes its units' record of aborts, and the entry of the first. -/
theorem holdAbort_spec (s : State) (raise : Nat) : (holdAbort s raise).ctl = s.ctl ∧ (holdAbort s raise).cores = s.cores ∧
    (holdAbort s raise).coll = s.coll ∧ (holdAbort s raise).mem = s.mem ∧
    (holdAbort s raise).run = { s.run with aborts := BitVec.ofNat 64 raise :: s.run.aborts } := by
  unfold holdAbort
  dsimp only
  split <;> exact ⟨rfl, rfl, rfl, rfl, rfl⟩

theorem withRun_spares (l : List (Nat × Nat)) (s : State) (r : Run) : Spares l s { s with run := r } := .of_eq l rfl rfl rfl rfl

theorem withLinks_spares (l : List (Nat × Nat)) (s : State) (k : Links) : Spares l s { s with links := k } := .of_eq l rfl rfl rfl rfl

theorem holdAbort_spares (s : State) (raise : Nat) : Spares abortEntries s (holdAbort s raise) := by
  unfold holdAbort
  dsimp only
  split
  · exact (Spares.setEnt s raise (by decide) (.inr (by decide))).trans (withRun_spares ..)
  · exact withRun_spares ..

theorem holdAbort_first {s : State} (h : s.run.aborts = []) (raise : Nat) : (holdAbort s raise).ent 0x3110 4 = raise := by
  unfold holdAbort
  rw [if_pos h]
  exact State.ent_setEnt_self s 0x3110 4 raise

theorem decideAbort_spares (s : State) (orig reason raise : Nat) : Spares abandonEntries s (decideAbort s orig reason raise) := by
  unfold decideAbort
  split
  · exact .refl _ s
  · split
    · exact abandon_spares s
    · exact withRun_spares ..

theorem deferredAbort_isSome (d : Option (W16 × W16 × FTime)) (orig reason raise : Nat) : (deferredAbort d orig reason raise).isSome = true := by
  unfold deferredAbort
  cases d with
  | none => rfl
  | some d =>
    dsimp only
    split <;> rfl

theorem running_of_ctl {s t : State} (h : t.ctl = s.ctl) : t.running = s.running := by
  unfold State.running State.eff
  rw [h]

theorem eff_of_ctl {s t : State} (h : t.ctl = s.ctl) : t.eff = s.eff := by
  unfold State.eff
  rw [h]

section
variable (s : State) (orig reason raise : Nat) (except : Option Nat)

theorem actAbort_spares : Spares abortEntries s (actAbort s orig reason raise except) := by
  obtain ⟨l, h⟩ := floodAbort_eq s orig reason raise (s.ent 0x5010 1 % 2 ^ 32) except
  rw [actAbort_eq, h]
  exact ((withLinks_spares _ s l).trans (holdAbort_spares _ raise)).trans
    ((decideAbort_spares _ orig reason raise).mono (List.subset_cons_self _ _))

/-- The first abort of a step shows its time. -/
theorem actAbort_first {s : State} (ha : s.run.aborts = []) : (actAbort s orig reason raise except).ent 0x3110 4 = raise := by
  obtain ⟨l, h⟩ := floodAbort_eq s orig reason raise (s.ent 0x5010 1 % 2 ^ 32) except
  rw [actAbort_eq, h, (decideAbort_spares _ orig reason raise).low 0x3110 4 (by decide) (by decide) (by decide)]
  exact holdAbort_first (s := { s with links := l }) ha raise

/-- What decides about an abort is as it was before the abort was sent on and held. -/
theorem actAbort_cases : ∃ v, v.ctl = s.ctl ∧ v.cores = s.cores ∧ v.coll = s.coll ∧ v.mem = s.mem ∧
    abandons v.run raise = abandons s.run raise ∧ actAbort s orig reason raise except = decideAbort v orig reason raise := by
  obtain ⟨l, h⟩ := floodAbort_eq s orig reason raise (s.ent 0x5010 1 % 2 ^ 32) except
  obtain ⟨hctl, hcores, hcoll, hmem, hrun⟩ := holdAbort_spec { s with links := l } raise
  refine ⟨_, hctl, hcores, hcoll, hmem, ?_, by rw [actAbort_eq, h]⟩
  rw [hrun]
  rfl

/-- Raised early enough, it abandons the step (R71). -/
theorem actAbort_abandons {s : State} {raise : Nat} (hr : s.running = true) (ha : abandons s.run raise = true) :
    (actAbort s orig reason raise except).eff = .aborting ∧ (actAbort s orig reason raise except).ent 0x5010 3 = 3 := by
  obtain ⟨v, hctl, -, -, -, hab, he⟩ := actAbort_cases s orig reason raise except
  rw [he]
  unfold decideAbort
  rw [running_of_ctl hctl, hr, hab, ha]
  exact abandon_aborts v

/-- Raised later, it is deferred, and the run goes on (R71). -/
theorem actAbort_defers {s : State} {raise : Nat} (hr : s.running = true) (ha : abandons s.run raise = false) :
    (actAbort s orig reason raise except).eff = s.eff ∧ (actAbort s orig reason raise except).run.deferred.isSome = true ∧
      (actAbort s orig reason raise except).cores = s.cores ∧ (actAbort s orig reason raise except).coll = s.coll ∧
      (actAbort s orig reason raise except).mem = s.mem := by
  obtain ⟨v, hctl, hcores, hcoll, hmem, hab, he⟩ := actAbort_cases s orig reason raise except
  rw [he]
  unfold decideAbort
  rw [running_of_ctl hctl, hr, hab, ha]
  exact ⟨eff_of_ctl hctl, deferredAbort_isSome .., hcores, hcoll, hmem⟩

/-! Raising an abort for a reason of the module's own (R68). -/

theorem abortRun_spares : Spares abortEntries s (abortRun s reason) := by
  unfold abortRun
  split
  · exact actAbort_spares ..
  · exact .refl _ s

theorem abortRun_of_running {s : State} (hr : s.running = true) : abortRun s reason = actAbort s s.device reason s.now.toNat none := if_pos hr

end

end Sys2Proof.Machine
end

section
/-!
Time flits, the choice of a root, the upstream port and HOLDOVER (O24).
-/
namespace Sys2Proof.Machine
open Sys2Proof

/-! ### Time flits on the wire (Table 2-1) -/

theorem field_timePayload (m : TimeP) :
    field (timePayload m) 0 1 = m.version.toNat ∧ field (timePayload m) 2 2 = m.sender.toNat ∧ field (timePayload m) 8 2 = m.seq.toNat ∧
      field (timePayload m) 12 2 = m.txFrac.toNat ∧ field (timePayload m) 16 8 = m.txTime.toNat := by
  have := m.version.isLt
  have := m.sender.isLt
  have := m.seq.isLt
  have := m.txFrac.isLt
  have := m.txTime.isLt
  unfold timePayload
  simp only [List.append_assoc]
  refine ⟨?_, ?_, ?_, ?_, ?_⟩ <;> rw [field_padTo (by decide)]
  · rw [field_le_append]; omega
  · rw [field_append_of_le (by simp), field_append_of_le (by simp)]
    simp only [length_le]
    rw [field_le_append]; omega
  · iterate 6 rw [field_append_of_le (by simp)]
    simp only [length_le]
    rw [field_le_append]; omega
  · iterate 8 rw [field_append_of_le (by simp)]
    simp only [length_le]
    rw [field_le_append]; omega
  · iterate 10 rw [field_append_of_le (by simp)]
    simp only [length_le]
    rw [field_le_append]; omega

theorem timePort_setTimePort (s : State) (p : Nat) (x : TimePort) (q : Nat) : (s.setTimePort p x).timePort q = if q = p then x else s.timePort q := by
  unfold State.timePort State.setTimePort
  exact sget_sset ..

/-- The time state of a port once it has sent a time flit at t: t1 is kept against the sequence number (R42, R43). -/
def sentPort (x : TimePort) (t : FTime) (frac : W16) : TimePort :=
  { x with seq := x.seq + 1, sentAt := (x.seq, stamp t.toNat (fine frac).toNat) :: x.sentAt.take 15 }

/-- The flit that a port sends at t (R42). -/
def timeFlit (s : State) (t : FTime) (p : Nat) (frac : W16) : Flit := bareFlit 9 (timePayload (timeMessage { s with now := t } p (fine frac)))

theorem timeExchange_eq {s : State} {t : FTime} {p : Port} (frac : W16) (hnow : s.now ≤ t) (hin : s.inService p.val = true) :
    exec (.timeExchange t frac p) s = .next ((({ s with now := t } : State).setTimePort p.val (sentPort (s.timePort p.val) t frac)).modPort p.val
      fun y => { y with urgent := y.urgent ++ [timeFlit s t p.val frac] }) := by
  show execTimeExchange t frac p s = _
  unfold execTimeExchange
  rw [atTime_of_le s hnow]
  dsimp only
  rw [withNow_inService, hin]
  rfl

/-- The fields of the flit: version, sender, sequence number, fraction and time (Table 2-1). -/
theorem timeFlit_fields (s : State) (t : FTime) (p : Nat) (frac : W16) :
    field (timeFlit s t p frac).payload 0 1 = 1 ∧ field (timeFlit s t p frac).payload 2 2 = s.device % 65536 ∧
      field (timeFlit s t p frac).payload 8 2 = (s.timePort p).seq.toNat ∧ field (timeFlit s t p frac).payload 12 2 = (fine frac).toNat ∧
      field (timeFlit s t p frac).payload 16 8 = t.toNat := by
  obtain ⟨hversion, hsender, hseq, hfrac, htx⟩ := field_timePayload (timeMessage { s with now := t } p (fine frac))
  exact ⟨hversion, hsender.trans (BitVec.toNat_ofNat _ _), hseq, hfrac, htx⟩

/-- A port in service sends a time flit (R42, R43). -/
theorem timeExchange_sends {s : State} {t : FTime} {p : Port} (frac : W16) (hnow : s.now ≤ t) (hin : s.inService p.val = true) :
    ∃ u g, exec (.timeExchange t frac p) s = .next u ∧ u.now = t ∧ (u.port p.val).urgent = (s.port p.val).urgent ++ [g] ∧ g.kind = 9 ∧
      field g.payload 0 1 = 1 ∧ field g.payload 2 2 = s.device % 65536 ∧ field g.payload 8 2 = (s.timePort p.val).seq.toNat ∧
      field g.payload 12 2 = (fine frac).toNat ∧ field g.payload 16 8 = t.toNat ∧
      (u.timePort p.val).seq = (s.timePort p.val).seq + 1 ∧
      (u.timePort p.val).sentAt.head? = some ((s.timePort p.val).seq, stamp t.toNat (fine frac).toNat) := by
  obtain ⟨hversion, hsender, hseq, hfrac, htx⟩ := timeFlit_fields s t p.val frac
  have hport : (({ s with now := t } : State).setTimePort p.val (sentPort (s.timePort p.val) t frac)).timePort p.val =
      sentPort (s.timePort p.val) t frac := by rw [timePort_setTimePort, if_pos rfl]
  refine ⟨_, timeFlit s t p.val frac, timeExchange_eq frac hnow hin, rfl, ?_, rfl, hversion, hsender, hseq, hfrac, htx, ?_, ?_⟩
  · rw [State.port_modPort, if_pos rfl]
    rfl
  · exact congrArg TimePort.seq hport
  · exact congrArg (fun x => x.sentAt.head?) hport

/-! ### What the servo and the choice of a root leave of what is heard -/

/-- From s to t what the ports hear and the delays of the links stay. -/
structure HearsSame (s t : State) : Prop where
  ports : t.time.ports = s.time.ports
  delays : ∀ k, k < 256 → t.ent 0x3021 k = s.ent 0x3021 k

namespace HearsSame

theorem refl (s : State) : HearsSame s s := ⟨rfl, fun _ _ => rfl⟩

theorem trans {s t u : State} (h : HearsSame s t) (h' : HearsSame t u) : HearsSame s u :=
  ⟨h'.ports.trans h.ports, fun k hk => (h'.delays k hk).trans (h.delays k hk)⟩

theorem of_spares {l : List (Nat × Nat)} {s t : State} (h : Spares l s t) (hl : ∀ x ∈ l, x.1 ≠ 0x3021) : HearsSame s t :=
  ⟨congrArg TimeS.ports h.time, fun k hk => h.low 0x3021 k (by decide) hk fun hm => hl _ hm rfl⟩

theorem of_eq {s t : State} (hp : t.time.ports = s.time.ports) (hd : t.dict = s.dict) : HearsSame s t :=
  ⟨hp, fun k _ => State.ent_of_dict hd 0x3021 k⟩

theorem setEnt (s : State) {i j : Nat} (v : Nat) (hi : i ≠ 0x3021) (hj : j < 256) : HearsSame s (s.setEnt i j v) := by
  refine ⟨rfl, fun k hk => State.ent_setEnt_ne s i j v 0x3021 k ?_⟩
  rw [ne_eq, ekey_inj hk hj]
  omega

theorem raise (s : State) (code : Nat) (vs : List (Nat × Nat)) : HearsSame s (s.raise code vs) := of_eq rfl rfl

theorem withTime (s : State) (x : TimeS) (h : x.ports = s.time.ports) : HearsSame s { s with time := x } := of_eq h rfl

end HearsSame

/-- The arming ramp has taken a step. -/
def rampBegun (s : State) : Bool :=
  match s.power.ramp with
  | some (_, _, _, i) => decide (i ≠ 0)
  | none => false

/-- The arming ramp stops, and a ramp that has begun is lowered as a taper (log entry 17). -/
def rampStopped (s : State) : State :=
  if rampBegun s then taperFrom s (s.ent 0x2200 5) else { s with power := { s.power with ramp := none } }

/-- The checks of an arming end. -/
def checksEnded (t : State) : State := { t with run := { t.run with checked := false }, trust := { t.trust with hashing := false } }

theorem cancelArming_eq (s : State) : cancelArming s =
    (checksEnded (rampStopped s)).enterEff (if (rampStopped s).ctl.resuming then .pause else .ready) := rfl

theorem checksEnded_spares (l : List (Nat × Nat)) (t : State) : Spares l t (checksEnded t) := .of_eq l rfl rfl rfl rfl

theorem rampStopped_spares (s : State) : Spares abandonEntries s (rampStopped s) := by
  unfold rampStopped
  split
  · unfold taperFrom
    exact (Spares.setEnt s _ (by decide) (.inr (by decide))).trans (.of_eq _ rfl rfl rfl rfl)
  · exact .of_eq _ rfl rfl rfl rfl

theorem cancelArming_spares (s : State) : Spares abandonEntries s (cancelArming s) := by
  rw [cancelArming_eq]
  exact ((rampStopped_spares s).trans (checksEnded_spares _ _)).trans (.enterEff _ _ _)

/-- The entries below `0x4020` that TIME_UNLOCK sets. -/
def unlockEntries : List (Nat × Nat) := (0x3000, 2) :: abortEntries

/-- What TIME_UNLOCK raises. -/
def unlockRaised (s : State) (cause : Nat) (offsetPs : Int) : State :=
  (s.setEnt 0x3000 2 5).raise 0x2101
    [(1, cause), (1, s.lock), (2, s.time.neighbour.toNat), (4, s.ent 0x3000 3 % 2 ^ 32), (8, if cause = 1 then 0 else unsigned 64 offsetPs)]

/-- The effect of TIME_UNLOCK by state: an arming is cancelled, a run aborted (R51). -/
def unlockEffect (s : State) : State :=
  match s.eff with
  | .armed => cancelArming s
  | .run => abortRun s 0x2101
  | _ => s

theorem timeUnlock_eq (s : State) (cause : Nat) (offsetPs : Int) : timeUnlock s cause offsetPs = unlockEffect (unlockRaised s cause offsetPs) := rfl

theorem unlockEffect_spares (s : State) : Spares abortEntries s (unlockEffect s) := by
  unfold unlockEffect
  split
  · exact (cancelArming_spares s).mono (List.subset_cons_self _ _)
  · exact abortRun_spares ..
  · exact .refl _ _

theorem timeUnlock_spares_raised (s : State) (cause : Nat) (offsetPs : Int) :
    Spares abortEntries (unlockRaised s cause offsetPs) (timeUnlock s cause offsetPs) := by
  rw [timeUnlock_eq]
  exact unlockEffect_spares _

theorem unlockRaised_spares (s : State) (cause : Nat) (offsetPs : Int) : Spares unlockEntries s (unlockRaised s cause offsetPs) :=
  (Spares.setEnt s 5 (by decide) (.inr (by decide))).trans (.raise _ _ _ _)

theorem timeUnlock_spares (s : State) (cause : Nat) (offsetPs : Int) : Spares unlockEntries s (timeUnlock s cause offsetPs) :=
  (unlockRaised_spares s cause offsetPs).trans ((timeUnlock_spares_raised s cause offsetPs).mono (List.subset_cons_self _ _))

/-- The module is unlocked, and the event says so (R41). -/
theorem timeUnlock_unlocks (s : State) (cause : Nat) (offsetPs : Int) : (timeUnlock s cause offsetPs).lock = 5 ∧
    ∃ e ∈ (timeUnlock s cause offsetPs).ev.raised, e.code = 0x2101 ∧ e.time = s.now := by
  have h := timeUnlock_spares_raised s cause offsetPs
  refine ⟨?_, ?_⟩
  · exact (h.low 0x3000 2 (by decide) (by decide) (by decide)).trans (State.ent_setEnt_self s 0x3000 2 5)
  · exact ⟨_, h.mem_raised (List.mem_append_right _ (List.mem_singleton_self _)), rfl, rfl⟩

theorem timeUnlock_hears (s : State) (cause : Nat) (offsetPs : Int) : HearsSame s (timeUnlock s cause offsetPs) :=
  .of_spares (timeUnlock_spares s cause offsetPs) (by decide)

/-! ### Following a root (R37) -/

/-- The root, its distance and the port to it as the neighbour at port p advertises them. -/
def followEntries (s : State) (p : Nat) (root : W16) (hops : Byte) : State :=
  ((s.setEnt 0x3000 4 p).setEnt 0x3000 5 root.toNat).setEnt 0x3000 6 (hops.toNat + 1)

/-- The root followed before was another. -/
def rootChanges (s : State) (root : W16) : Bool := (decide (s.lock ≠ 1) || s.time.isRoot) && decide (s.ent 0x3000 5 ≠ root.toNat)

/-- The module follows the root that port p shows. -/
def followed (s : State) (p : Nat) (root : W16) (prio hops : Byte) : State :=
  let t := followEntries s p root hops
  { t with time := { t.time with isRoot := false, rootPrio := prio, neighbour := (t.timePort p).sender, changed := t.time.changed || rootChanges s root } }

theorem follow_of_none {s : State} {p : Nat} (h : (s.timePort p).advert = none) : follow s p = s := by
  unfold follow
  rw [h]

theorem follow_of_some {s : State} {p : Nat} {root : W16} {prio hops flags : Byte} (h : (s.timePort p).advert = some (root, prio, hops, flags)) :
    follow s p = if rootChanges s root then (followed s p root prio hops).raise 0x2105
      [(2, root.toNat), (2, s.ent 0x3000 5), (1, prio.toNat), (1, hops.toNat + 1), (1, p), (1, 0), (8, 0)] else followed s p root prio hops := by
  unfold follow
  rw [h]
  rfl

theorem followed_ent (s : State) (p : Nat) (root : W16) (prio hops : Byte) (i j : Nat) (hj : j < 256) (h : ¬ (i = 0x3000 ∧ 4 ≤ j ∧ j ≤ 6)) :
    (followed s p root prio hops).ent i j = s.ent i j := by
  show (followEntries s p root hops).ent i j = s.ent i j
  have hne (k : Nat) (hk : 4 ≤ k ∧ k ≤ 6) : ekey i j ≠ ekey 0x3000 k := by
    rw [ne_eq, ekey_inj hj (by omega)]
    omega
  unfold followEntries
  rw [State.ent_setEnt_ne _ _ _ _ _ _ (hne 6 (by decide)), State.ent_setEnt_ne _ _ _ _ _ _ (hne 5 (by decide)),
    State.ent_setEnt_ne _ _ _ _ _ _ (hne 4 (by decide))]

theorem followed_upstream (s : State) (p : Nat) (root : W16) (prio hops : Byte) : (followed s p root prio hops).ent 0x3000 4 = p := by
  show (followEntries s p root hops).ent 0x3000 4 = p
  unfold followEntries
  rw [State.ent_setEnt_ne _ _ _ _ _ _ (by decide), State.ent_setEnt_ne _ _ _ _ _ _ (by decide), State.ent_setEnt_self]

/-- Following a root through p shows p as the upstream port and leaves the lock state as it was. -/
theorem follow_upstream {s : State} {p : Nat} (h : (s.timePort p).advert ≠ none) :
    (follow s p).ent 0x3000 4 = p ∧ (follow s p).lock = s.lock := by
  obtain ⟨⟨root, prio, hops, flags⟩, ha⟩ := Option.ne_none_iff_exists'.1 h
  have hup := followed_upstream s p root prio hops
  have hlock := followed_ent s p root prio hops 0x3000 2 (by decide) (by omega)
  rw [follow_of_some ha]
  split <;> exact ⟨hup, hlock⟩

theorem followed_hears (s : State) (p : Nat) (root : W16) (prio hops : Byte) : HearsSame s (followed s p root prio hops) :=
  ⟨rfl, fun k hk => followed_ent s p root prio hops 0x3021 k hk (by omega)⟩

theorem follow_hears (s : State) (p : Nat) : HearsSame s (follow s p) := by
  rcases ha : (s.timePort p).advert with _ | ⟨root, prio, hops, flags⟩
  · rw [follow_of_none ha]
    exact .refl s
  · rw [follow_of_some ha]
    split
    · exact (followed_hears ..).trans (.raise ..)
    · exact followed_hears ..

theorem HearsSame.setTimeEnt (s : State) (j v : Nat) (hj : j < 256) : HearsSame s (s.setEnt 0x3000 j v) := .setEnt s v (by decide) hj

/-! ### The servo (R38 to R41, R46) -/

theorem servo_hears (s : State) (off : Int) : HearsSame s (servo s off) := .setTimeEnt s 7 _ (by decide)

theorem stepTime_hears (s : State) (v : FTime) : HearsSame s (stepTime s v) := .of_eq rfl rfl

theorem drawNat_hears (s : State) (n : Nat) : HearsSame s (drawNat s n).2 := .of_eq rfl rfl

/-- The entries of a module that is LOCKED with a bound. -/
def lockedEntries (s : State) (bound : Nat) : State := (s.setEnt 0x3000 2 3).setEnt 0x3000 3 bound

theorem lockedEntries_hears (s : State) (bound : Nat) : HearsSame s (lockedEntries s bound) :=
  (HearsSame.setTimeEnt s 2 3 (by decide)).trans (.setTimeEnt _ 3 bound (by decide))

theorem becomeLocked_hears (s : State) : HearsSame s (becomeLocked s) := by
  have hentries : HearsSame s (lockedEntries (drawNat s 10001).2 (drawNat s 10001).1) := (drawNat_hears s 10001).trans (lockedEntries_hears ..)
  exact hentries.trans (.of_eq rfl rfl)

/-- A module that joins fabric time is stepped to it and is ACQUIRING (R38, R39). -/
def acquireBegun (s : State) (off : Int) : State := (stepTime s (BitVec.ofInt 64 (s.now.toNat + off / 1000))).setEnt 0x3000 2 2

theorem acquireBegun_hears (s : State) (off : Int) : HearsSame s (acquireBegun s off) :=
  (stepTime_hears s _).trans (.setTimeEnt _ 2 2 (by decide))

/-- The bound in HOLDOVER has grown, and the offset is within it. -/
def boundShown (s : State) (off : Int) : State :=
  let d := drawNat s (20000 * (s.now.toNat - s.time.holdAt.toNat) / 1000000000 + 1)
  if s.lock = 4 then d.2.setEnt 0x3000 3 (max (s.ent 0x3000 3 + d.1) off.natAbs) else s.setEnt 0x3000 3 (max (s.ent 0x3000 3) off.natAbs)

/-- A module that has fabric time again slews to it (R50), unless its bound has grown too large (R49). -/
def slewBegun (s : State) (off : Int) : State :=
  let t := boundShown s off
  let t := { t with time := { t.time with slewing := true, good := 0 } }
  if t.lock = 4 ∧ 32000 < t.ent 0x3000 3 then timeUnlock t 1 0 else t

theorem boundShown_hears (s : State) (off : Int) : HearsSame s (boundShown s off) := by
  unfold boundShown
  dsimp only
  split
  · exact (drawNat_hears s _).trans (.setTimeEnt _ 3 _ (by decide))
  · exact .setTimeEnt s 3 _ (by decide)

theorem slewBegun_hears (s : State) (off : Int) : HearsSame s (slewBegun s off) := by
  unfold slewBegun
  generalize hb : boundShown s off = t
  have ht : HearsSame s { t with time := { t.time with slewing := true, good := 0 } } := hb ▸ (boundShown_hears s off).trans (.of_eq rfl rfl)
  dsimp only
  split
  · exact ht.trans (timeUnlock_hears _ 1 0)
  · exact ht

/-- With 64 offsets within 2 ns in a row the module is locked (R46). -/
def lockedIfGood (s : State) (good : Nat) : State :=
  let t := { s with time := { s.time with good := good } }
  if 64 ≤ good ∧ t.lock ≠ 3 then becomeLocked t else t

theorem lockedIfGood_hears (s : State) (good : Nat) : HearsSame s (lockedIfGood s good) := by
  have ht : HearsSame s { s with time := { s.time with good := good } } := .of_eq rfl rfl
  unfold lockedIfGood
  dsimp only
  split
  · exact ht.trans (becomeLocked_hears _)
  · exact ht

/-- The rate is steered, and the offsets within 2 ns are counted (R40, R46). -/
def steered (s : State) (off : Int) : State := lockedIfGood (servo s off) (if off.natAbs ≤ 2000 then (servo s off).time.good + 1 else 0)

theorem steered_hears (s : State) (off : Int) : HearsSame s (steered s off) := (servo_hears s off).trans (lockedIfGood_hears _ _)

/-- The servo at work: fabric time is regained, then the rate steered. -/
def tracked (s : State) (off : Int) : State :=
  steered (if decide (s.lock = 4 ∨ s.lock = 5) && !s.time.slewing then slewBegun s off else s) off

theorem tracked_hears (s : State) (off : Int) : HearsSame s (tracked s off) := by
  unfold tracked
  split
  · exact (slewBegun_hears s off).trans (steered_hears _ off)
  · exact steered_hears s off

theorem discipline_eq (s : State) (off : Int) (joined : Bool) : discipline s off joined =
    if s.lock = 1 then
      if s.ctl.dev = .start then
        { acquireBegun s off with time := { (acquireBegun s off).time with good := 0 } }
      else s
    else if s.time.stuck then s
    else if joined && decide (s.ctl.dev = .start) then
      { acquireBegun s off with time := { (acquireBegun s off).time with good := 0, slewing := false } }
    else if joined && decide (1000000 < off.natAbs) then
      timeUnlock { s with time := { s.time with stuck := true } } 2 off
    else if decide (s.lock = 4 ∨ s.lock = 5) && decide (1000000 < off.natAbs) then
      timeUnlock { s with time := { s.time with stuck := true, slewing := true } } 3 off
    else tracked s off := rfl

theorem discipline_hears (s : State) (off : Int) (joined : Bool) : HearsSame s (discipline s off joined) := by
  have hacquire (x : TimeS) (hx : x.ports = (acquireBegun s off).time.ports) : HearsSame s { acquireBegun s off with time := x } :=
    (acquireBegun_hears s off).trans (.withTime _ x hx)
  have hunlock (x : TimeS) (hx : x.ports = s.time.ports) (cause : Nat) : HearsSame s (timeUnlock { s with time := x } cause off) :=
    (HearsSame.withTime s x hx).trans (timeUnlock_hears _ cause off)
  rw [discipline_eq]
  split_ifs
  · exact hacquire { (acquireBegun s off).time with good := 0 } rfl
  · exact .refl s
  · exact .refl s
  · exact hacquire { (acquireBegun s off).time with good := 0, slewing := false } rfl
  · exact hunlock { s.time with stuck := true } rfl 2
  · exact hunlock { s.time with stuck := true, slewing := true } rfl 3
  · exact tracked_hears s off

/-- The entries of a module that is its own root: no upstream port, itself as root, no hop. -/
def rootEntries (s : State) (device : Nat) : State := ((s.setEnt 0x3000 4 0xFF).setEnt 0x3000 5 device).setEnt 0x3000 6 0

theorem rootEntries_hears (s : State) (device : Nat) : HearsSame s (rootEntries s device) :=
  ((HearsSame.setTimeEnt s 4 0xFF (by decide)).trans (.setTimeEnt _ 5 device (by decide))).trans (.setTimeEnt _ 6 0 (by decide))

theorem takeOver_hears (s : State) (q : Nat) : HearsSame s (takeOver s q) := by
  unfold takeOver
  split
  · exact ((HearsSame.setTimeEnt s 3 0 (by decide)).trans (rootEntries_hears _ s.device)).trans (.of_eq rfl rfl)
  · exact .refl s

/-! ### A time flit received (R43, R44) -/

/-- Port p shows what the message m, received at t4, says of the neighbour; `delay` is the delay of the link, where the message gives one. -/
structure Heard (p : Nat) (m : TimeP) (t4 : Int) (delay : Option Int) (s : State) : Prop where
  peerSeq : (s.timePort p).peerSeq = some m.seq
  peerRx : (s.timePort p).peerRx = t4
  advert : (s.timePort p).advert = some (m.root, m.rootPrio, m.hops, m.flags)
  delay : ∀ d, delay = some d → s.ent 0x3021 (p + 1) = unsigned 32 (toPs d)

namespace Heard
variable {p : Nat} {m : TimeP} {t4 : Int} {delay : Option Int} {s u : State}

theorem of_hears (h : Heard p m t4 delay s) (hp : p < 48) (hs : HearsSame s u) : Heard p m t4 delay u := by
  have hport : u.timePort p = s.timePort p := by rw [State.timePort, State.timePort, hs.ports]
  refine ⟨?_, ?_, ?_, fun d hd => (hs.delays (p + 1) (by omega)).trans (h.delay d hd)⟩
  · rw [hport, h.peerSeq]
  · rw [hport, h.peerRx]
  · rw [hport, h.advert]

/-- That the neighbour has shown the root that the module follows changes none of it. -/
theorem mine (h : Heard p m t4 delay s) : Heard p m t4 delay (s.setTimePort p { s.timePort p with mine := true }) := by
  have hport : (s.setTimePort p { s.timePort p with mine := true }).timePort p = { s.timePort p with mine := true } := by
    rw [timePort_setTimePort, if_pos rfl]
  refine ⟨?_, ?_, ?_, h.delay⟩
  · rw [hport, ← h.peerSeq]
  · rw [hport, ← h.peerRx]
  · rw [hport, ← h.advert]

/-- The delay measured is kept in the entry of the port. -/
theorem withDelay (h : Heard p m t4 none s) (d : Int) : Heard p m t4 (some d) (s.setEnt 0x3021 (p + 1) (unsigned 32 (toPs d))) :=
  ⟨h.peerSeq, h.peerRx, h.advert, fun d' hd => by rw [State.ent_setEnt_self, Option.some.inj hd]⟩

end Heard

/-- The time state of a port that received the message m at t4. -/
def heardPort (x : TimePort) (m : TimeP) (t4 : Int) : TimePort :=
  { x with peerSeq := some m.seq, peerRx := t4, advert := some (m.root, m.rootPrio, m.hops, m.flags), sender := m.sender }

/-- The message is taken down; a neighbour that shows the root followed is marked. -/
def takeMessage (s : State) (p : Nat) (m : TimeP) (t4 : Int) : State :=
  let u := s.setTimePort p (heardPort (s.timePort p) m t4)
  if u.lock ≠ 1 ∧ u.ent 0x3000 5 = m.root.toNat then u.setTimePort p { u.timePort p with mine := true } else u

theorem takeMessage_heard (s : State) (p : Nat) (m : TimeP) (t4 : Int) : Heard p m t4 none (takeMessage s p m t4) := by
  have hport : (s.setTimePort p (heardPort (s.timePort p) m t4)).timePort p = heardPort (s.timePort p) m t4 := by
    rw [timePort_setTimePort, if_pos rfl]
  have hu : Heard p m t4 none (s.setTimePort p (heardPort (s.timePort p) m t4)) :=
    ⟨congrArg TimePort.peerSeq hport, congrArg TimePort.peerRx hport, congrArg TimePort.advert hport, fun _ hd => nomatch hd⟩
  unfold takeMessage
  dsimp only
  split
  · exact hu.mine
  · exact hu

/-- The time at which the message that m echoes had left, if the port remembers it. -/
def echoSent (x : TimePort) (m : TimeP) : Option Int :=
  if m.flags.getLsbD 0 then (x.sentAt.find? fun e => decide (e.1 = m.echoSeq)).map Prod.snd else none

/-- The delay of the link: half of the round trip less the neighbour's own time (R44). -/
def linkDelay (m : TimeP) (t1 t4 : Int) : Int :=
  ((t4 - t1) - (stamp m.txTime.toNat m.txFrac.toNat - stamp m.echoTime.toNat m.echoFrac.toNat)) / 2

/-- The offset to the neighbour, less the trim of the port (R44). -/
def linkOffset (s : State) (p : Nat) (m : TimeP) (t1 t4 : Int) : Int :=
  toPs (((stamp m.echoTime.toNat m.echoFrac.toNat - t1) - (t4 - stamp m.txTime.toNat m.txFrac.toNat)) / 2) - signed 32 (s.ent 0x3020 (p + 1))

/-- The module follows the root through p, and is disciplined by the offset to it. -/
def disciplined (s : State) (p : Nat) (known : Bool) (offset : Int) : State :=
  let s := follow s p
  let joined := s.time.changed && (!known || decide (1000000 < offset.natAbs))
  let s := { s with time := { s.time with changed := false } }
  discipline (s.setTimePort p { s.timePort p with mine := true }) offset joined

/-- The module is disciplined if the port is its upstream one (R35, R40). -/
def upstreamOnly (s : State) (p : Nat) (known : Bool) (offset : Int) : Out :=
  match bestPort s with
  | none => .next s
  | some q => if q ≠ p ∨ (s.time.isRoot ∧ ownKey s ≤ portRootKey s q) then .next s else
    let s := follow s q
    let joined := s.time.changed && (!known || decide (1000000 < offset.natAbs))
    let s := { s with time := { s.time with changed := false } }
    .next (takeOver (discipline (s.setTimePort p { s.timePort p with mine := true }) offset joined) q)

theorem disciplined_heard {p : Nat} {m : TimeP} {t4 : Int} {delay : Option Int} {s : State} (h : Heard p m t4 delay s) (hp : p < 48) (known : Bool)
    (offset : Int) : Heard p m t4 delay (disciplined s p known offset) := by
  have hfollow : Heard p m t4 delay { follow s p with time := { (follow s p).time with changed := false } } :=
    h.of_hears hp ((follow_hears s p).trans (.of_eq rfl rfl))
  exact hfollow.mine.of_hears hp (discipline_hears ..)

theorem upstreamOnly_heard {p : Nat} {m : TimeP} {t4 : Int} {delay : Option Int} {s : State} (h : Heard p m t4 delay s) (hp : p < 48) (known : Bool)
    (offset : Int) : ∃ u, upstreamOnly s p known offset = .next u ∧ Heard p m t4 delay u := by
  unfold upstreamOnly
  split
  · exact ⟨s, rfl, h⟩
  · split
    · exact ⟨s, rfl, h⟩
    · next hq =>
      obtain rfl := not_ne_iff.1 (not_or.1 hq).1
      exact ⟨_, rfl, (disciplined_heard h hp known offset).of_hears hp (takeOver_hears ..)⟩

/-- A message that a port takes, in state s, at t4. -/
def takeTime (s : State) (p : Nat) (m : TimeP) (t4 : Int) : Out :=
  match echoSent (s.timePort p) m with
  | none => .next (takeMessage s p m t4)
  | some t1 => upstreamOnly ((takeMessage s p m t4).setEnt 0x3021 (p + 1) (unsigned 32 (toPs (linkDelay m t1 t4)))) p (s.timePort p).mine
      (linkOffset (takeMessage s p m t4) p m t1 t4)

theorem takeTime_heard (s : State) {p : Nat} (hp : p < 48) (m : TimeP) (t4 : Int) :
    ∃ u, takeTime s p m t4 = .next u ∧ Heard p m t4 ((echoSent (s.timePort p) m).map fun t1 => linkDelay m t1 t4) u := by
  unfold takeTime
  rcases echoSent (s.timePort p) m with _ | t1
  · exact ⟨_, rfl, takeMessage_heard s p m t4⟩
  · exact upstreamOnly_heard ((takeMessage_heard s p m t4).withDelay _) hp _ _

theorem field_byte_lt (b : List Byte) (o : Nat) : field b o 1 < 256 := by
  rw [field_eq]
  exact (b.getD (o + 0) 0).isLt

theorem timeOf_version (b : List Byte) : (timeOf b).version.toNat = field b 0 1 :=
  (BitVec.toNat_ofNat _ _).trans (Nat.mod_eq_of_lt (field_byte_lt b 0))

theorem timeOf_flags (b : List Byte) : (timeOf b).flags.toNat = field b 1 1 := (BitVec.toNat_ofNat _ _).trans (Nat.mod_eq_of_lt (field_byte_lt b 1))

theorem timeFlit_badHeader {f : Flit} (hk : f.kind = 9) (hvc : f.creditVc.toNat < 6) (hversion : (timeOf f.payload).version = 1)
    (hflags : (timeOf f.payload).flags.toNat < 32) : badHeader f = false := by
  have hk' : f.kind.toNat = 9 := by rw [hk]; rfl
  have hv : field f.payload 0 1 = 1 := (timeOf_version f.payload).symm.trans (congrArg BitVec.toNat hversion)
  rw [timeOf_flags] at hflags
  have hanswer : answerStatus f = none := by
    unfold answerStatus
    rw [hk']
    rfl
  unfold badHeader
  rw [hanswer, hk', hv]
  simp [kTime, kAbort, kMap, credited]
  omega

theorem timeFlitReceive_eq {s : State} {t : FTime} {frac : W16} {p : Port} {f : Flit} (hnow : s.now ≤ t) (h : Accepts s p f kTime)
    (hsender : noDevice (timeOf f.payload).sender = false) (hroot : noDevice (timeOf f.payload).root = false) (had : (s.port p.val).adapter = false) :
    exec (.timeFlitReceive t frac p f) s =
      takeTime (({ s with now := t } : State).setPort p.val (acceptedPort (s.port p.val) f)) p.val (timeOf f.payload)
        (stamp t.toNat (fine frac).toNat) := by
  have hacc : Accepts { s with now := t } p f kTime := h
  have hadapter : ((({ s with now := t } : State).setPort p.val (acceptedPort (s.port p.val) f)).port p.val).adapter = false := by
    rw [State.port_setPort, if_pos rfl, acceptedPort_adapter, had]
  show execTimeFlitReceive t frac p f s = _
  unfold execTimeFlitReceive
  rw [atTime_of_le s hnow, accepted_uncredited hacc (by decide)]
  dsimp only
  rw [hsender, hroot, if_neg (by rw [show ({ s with now := t } : State).port p.val = s.port p.val from rfl, hadapter]; decide)]
  rfl

/-- A time flit is taken down, and the delay of the link with it (R43, R44). -/
theorem timeFlitReceive_heard {s : State} {t : FTime} (frac : W16) {p : Port} {f : Flit} (hnow : s.now ≤ t) (hin : s.inService p.val = true)
    (hk : f.kind = 9) (hvc : f.creditVc.toNat < 6) (hversion : (timeOf f.payload).version = 1) (hflags : (timeOf f.payload).flags.toNat < 32)
    (hsender : noDevice (timeOf f.payload).sender = false) (hroot : noDevice (timeOf f.payload).root = false)
    (had : (s.port p.val).adapter = false) :
    ∃ u, exec (.timeFlitReceive t frac p f) s = .next u ∧
      Heard p.val (timeOf f.payload) (stamp t.toNat (fine frac).toNat)
        ((echoSent (s.timePort p.val) (timeOf f.payload)).map fun t1 => linkDelay (timeOf f.payload) t1 (stamp t.toNat (fine frac).toNat)) u := by
  have hacc : Accepts s p f kTime :=
    ⟨hin, congrArg BitVec.toNat hk, timeFlit_badHeader hk hvc hversion hflags, fun h => absurd h (by decide)⟩
  rw [timeFlitReceive_eq hnow hacc hsender hroot had]
  exact takeTime_heard _ p.isLt _ _

/-! ### The choice of a root (R34 to R39) -/

section
variable {s : State}

theorem rootEntries_spec (s : State) (device : Nat) : (rootEntries s device).ent 0x3000 4 = 0xFF ∧ (rootEntries s device).ent 0x3000 5 = device ∧
    (rootEntries s device).ent 0x3000 6 = 0 ∧ (rootEntries s device).lock = s.lock := by
  unfold State.lock rootEntries
  refine ⟨?_, ?_, ?_, ?_⟩
  · rw [State.ent_setEnt_ne _ _ _ _ _ _ (by decide), State.ent_setEnt_ne _ _ _ _ _ _ (by decide), State.ent_setEnt_self]
  · rw [State.ent_setEnt_ne _ _ _ _ _ _ (by decide), State.ent_setEnt_self]
  · rw [State.ent_setEnt_self]
  · rw [State.ent_setEnt_ne _ _ _ _ _ _ (by decide), State.ent_setEnt_ne _ _ _ _ _ _ (by decide), State.ent_setEnt_ne _ _ _ _ _ _ (by decide)]

theorem lockedEntries_lock (s : State) (bound : Nat) : (lockedEntries s bound).lock = 3 := by
  unfold State.lock lockedEntries
  rw [State.ent_setEnt_ne _ _ _ _ _ _ (by decide), State.ent_setEnt_self]

/-- Every advert held names a worse root, or in HOLDOVER the root that is lost (R34). -/
theorem bestSeen_of (h : ∀ p a, p < 48 → s.inService p = true → (s.timePort p).advert = some a →
    ownKey s < portRootKey s p ∨ (s.lock = 4 ∧ a.1.toNat = s.ent 0x3000 5)) : bestSeen s = true := by
  refine List.all_eq_true.2 fun p hp => ?_
  cases hin : s.inService p with
  | false => rfl
  | true =>
    rcases ha : (s.timePort p).advert with _ | a
    · rfl
    · rcases h p a (List.mem_range.1 hp) hin ha with hkey | ⟨hlock, hroot⟩
      · simp [hkey]
      · simp [hlock, hroot]

/-- The entries of a root that counts from the time of entry `0x3010`:03. -/
def firstEntries (s : State) : State :=
  rootEntries (lockedEntries ((stepTime s (BitVec.ofNat 64 (s.ent 0x3010 3))).setEnt 0x2400 3 9) 0) s.device

/-- The module is root, and has been LOCKED. -/
def asFirstRoot (t : State) : State := { t with time := { t.time with isRoot := true }, ctl := { t.ctl with everLocked := true } }

theorem asFirstRoot_spec (t : State) : (asFirstRoot t).dict = t.dict ∧ (asFirstRoot t).now = t.now ∧ (asFirstRoot t).time.isRoot = true := ⟨rfl, rfl, rfl⟩

theorem becomeRoot_start_eq (hd : s.ctl.dev = .start) (hl : s.lock = 1) (hb : bestPort s = none) (hp : s.time.prio ≠ 0xFF)
    (hseen : bestSeen s = true) (hat : s.time.listenAt.toNat + 100000000 ≤ s.now.toNat) : exec .becomeRoot s = .next (asFirstRoot (firstEntries s)) := by
  show execBecomeRoot s = _
  unfold execBecomeRoot
  rw [if_neg (by rw [hl]; exact fun h => absurd h.1 (by decide)), if_pos ⟨hd, hl, by rw [hb]; rfl, hp, hseen, hat⟩]
  rfl

theorem rootEntries_now (s : State) (device : Nat) : (rootEntries s device).now = s.now := rfl

theorem lockedEntries_now (s : State) (bound : Nat) : (lockedEntries s bound).now = s.now := rfl

theorem firstEntries_now (s : State) : (firstEntries s).now = BitVec.ofNat 64 (s.ent 0x3010 3) := by
  unfold firstEntries
  rw [rootEntries_now, lockedEntries_now]
  rfl

/-- The best module that START has heard of is root 100 ms after the entry, at the time that entry `0x3010`:03 gives (R34, R38, R39). -/
theorem becomeRoot_start (hd : s.ctl.dev = .start) (hl : s.lock = 1) (hb : bestPort s = none) (hp : s.time.prio ≠ 0xFF)
    (hseen : bestSeen s = true) (hat : s.time.listenAt.toNat + 100000000 ≤ s.now.toNat) :
    ∃ u, exec .becomeRoot s = .next u ∧ u.lock = 3 ∧ u.now = BitVec.ofNat 64 (s.ent 0x3010 3) ∧ u.time.isRoot = true ∧
      u.ent 0x3000 5 = s.device ∧ u.ent 0x3000 4 = 0xFF ∧ u.ent 0x3000 6 = 0 := by
  obtain ⟨hup, hroot, hhops, hlock⟩ :=
    rootEntries_spec (lockedEntries ((stepTime s (BitVec.ofNat 64 (s.ent 0x3010 3))).setEnt 0x2400 3 9) 0) s.device
  obtain ⟨hdict, hnow, hself⟩ := asFirstRoot_spec (firstEntries s)
  have hent (i j : Nat) := State.ent_of_dict hdict i j
  exact ⟨_, becomeRoot_start_eq hd hl hb hp hseen hat, (hent 0x3000 2).trans (hlock.trans (lockedEntries_lock _ 0)),
    hnow.trans (firstEntries_now s), hself, (hent 0x3000 5).trans hroot, (hent 0x3000 4).trans hup, (hent 0x3000 6).trans hhops⟩

/-- The entries of a module that keeps counting as root. -/
def heirEntries (s : State) : State := rootEntries (lockedEntries s 0) s.device

/-- The values of the ROOT_CHANGE of a module that has become root. -/
def rootValues (t : State) (old : Nat) : List (Nat × Nat) := [(2, t.device), (2, old), (1, t.time.prio.toNat), (1, 0), (1, 0xFF), (1, 0), (8, 0)]

/-- The module has taken over from the root that is lost, with the ROOT_CHANGE (R37). -/
def asHeir (t : State) (vs : List (Nat × Nat)) : State :=
  ({ t with time := { t.time with isRoot := true, slewing := false, neighbour := 0xFFFF } } : State).raise 0x2105 vs

theorem asHeir_spec (t : State) (vs : List (Nat × Nat)) : (asHeir t vs).dict = t.dict ∧ (asHeir t vs).now = t.now ∧
    (asHeir t vs).time.isRoot = true ∧ ∃ e ∈ (asHeir t vs).ev.raised, e.code = 0x2105 :=
  ⟨rfl, rfl, rfl, _, List.mem_append_right _ (List.mem_singleton_self _), rfl⟩

theorem heirEntries_now (s : State) : (heirEntries s).now = s.now := by
  unfold heirEntries
  rw [rootEntries_now, lockedEntries_now]

theorem becomeRoot_holdover_eq (hl : s.lock = 4) (hr : s.time.isRoot = false) (hb : bestPort s = none) (hp : s.time.prio ≠ 0xFF)
    (hseen : bestSeen s = true) : exec .becomeRoot s = .next (asHeir (heirEntries s) (rootValues (heirEntries s) (s.ent 0x3000 5))) := by
  show execBecomeRoot s = _
  unfold execBecomeRoot
  rw [if_pos ⟨hl, hr, by rw [hb]; rfl, hp, hseen⟩]
  rfl

/-- The best module left takes over from a root that is lost, and keeps counting from its own time (R34, R37). -/
theorem becomeRoot_holdover (hl : s.lock = 4) (hr : s.time.isRoot = false) (hb : bestPort s = none) (hp : s.time.prio ≠ 0xFF)
    (hseen : bestSeen s = true) :
    ∃ u, exec .becomeRoot s = .next u ∧ u.lock = 3 ∧ u.now = s.now ∧ u.time.isRoot = true ∧ u.ent 0x3000 5 = s.device ∧
      u.ent 0x3000 6 = 0 ∧ ∃ e ∈ u.ev.raised, e.code = 0x2105 := by
  obtain ⟨-, hroot, hhops, hlock⟩ := rootEntries_spec (lockedEntries s 0) s.device
  obtain ⟨hdict, hnow, hself, hraised⟩ := asHeir_spec (heirEntries s) (rootValues (heirEntries s) (s.ent 0x3000 5))
  have hent (i j : Nat) := State.ent_of_dict hdict i j
  exact ⟨_, becomeRoot_holdover_eq hl hr hb hp hseen, (hent 0x3000 2).trans (hlock.trans (lockedEntries_lock s 0)),
    hnow.trans (heirEntries_now s), hself, (hent 0x3000 5).trans hroot, (hent 0x3000 6).trans hhops, hraised⟩

/-! ### Upstream and holdover (R36, R49) -/

/-- Of the port found so far and another, the better one (R35). -/
def betterPort (s : State) (b : Option Nat) (p : Nat) : Option Nat :=
  match b with
  | none => some p
  | some q => if upKey s p < upKey s q then some p else some q

theorem bestPort_eq (s : State) : bestPort s = ((List.range 48).filter (delivers s)).foldl (betterPort s) none := rfl

theorem betterPort_mem {b : Option Nat} {p q : Nat} (h : betterPort s b p = some q) : q = p ∨ b = some q := by
  unfold betterPort at h
  split at h
  · exact .inl (Option.some.inj h).symm
  · split at h
    · exact .inl (Option.some.inj h).symm
    · exact .inr h

/-- A port that is taken delivers fabric time. -/
theorem bestPort_delivers {q : Nat} (h : bestPort s = some q) : delivers s q = true := by
  rw [bestPort_eq] at h
  refine List.foldlRecOn (motive := fun b => ∀ q, b = some q → delivers s q = true) _ (betterPort s) (fun _ hq => absurd hq (Option.some_ne_none _).symm)
    (fun b hb p hp r hr => ?_) q h
  rcases betterPort_mem hr with rfl | hr
  · exact (List.mem_filter.1 hp).2
  · exact hb r hr

theorem advert_of_delivers {p : Nat} (h : delivers s p = true) : (s.timePort p).advert ≠ none := by
  intro ha
  unfold delivers at h
  rw [ha, Bool.and_false] at h
  exact Bool.noConfusion h

section
variable (hr : s.time.isRoot = false) (hl : s.lock ≠ 1) (hu : s.ent 0x3000 4 ≠ 0xFF) (hd : delivers s (s.ent 0x3000 4) = false)
include hr hl hu hd

theorem upstreamLost : ¬ (s.time.isRoot ∨ s.lock = 1 ∨ s.ent 0x3000 4 = 0xFF ∨ delivers s (s.ent 0x3000 4)) := by
  rw [hr, hd]
  simp [hl, hu]

/-- The port that delivers best takes the place of one that no longer delivers (R36). -/
theorem upstreamReselect_follows {q : Nat} (hq : bestPort s = some q) :
    ∃ u, exec .upstreamReselect s = .next u ∧ u.ent 0x3000 4 = q ∧ u.lock = s.lock := by
  have hexec : execUpstreamReselect s = .next (follow s q) := by
    unfold execUpstreamReselect
    dsimp only
    rw [if_neg (upstreamLost hr hl hu hd), hq]
  exact ⟨_, hexec, follow_upstream (advert_of_delivers (bestPort_delivers hq))⟩

/-- Without one LOCKED falls to HOLDOVER, and ACQUIRING to FREE (R49). -/
theorem upstreamReselect_lost (hb : bestPort s = none) : ∃ u, exec .upstreamReselect s = .next u ∧ u.ent 0x3000 4 = 0xFF ∧
    u.lock = (if s.lock = 3 then 4 else if s.lock = 2 then 1 else s.lock) ∧ (s.lock = 3 → u.time.holdAt = s.now ∧
      u.time.holdRate = s.ent 0x3000 7) ∧ (s.lock = 4 → u.ent 0x3000 7 = s.time.holdRate) := by
  have hlock : (s.setEnt 0x3000 4 0xFF).lock = s.lock := State.ent_setEnt_ne s _ _ _ _ _ (by decide)
  have hrate : (s.setEnt 0x3000 4 0xFF).ent 0x3000 7 = s.ent 0x3000 7 := State.ent_setEnt_ne s _ _ _ _ _ (by decide)
  have hup : (s.setEnt 0x3000 4 0xFF).ent 0x3000 4 = 0xFF := State.ent_setEnt_self ..
  show ∃ u, execUpstreamReselect s = .next u ∧ _
  unfold execUpstreamReselect
  dsimp only
  rw [if_neg (upstreamLost hr hl hu hd), hb]
  dsimp only
  rw [hlock]
  have hupLock (t : State) (h : t.ent 0x3000 4 = 0xFF) (v : Nat) : (t.setEnt 0x3000 2 v).ent 0x3000 4 = 0xFF :=
    (State.ent_setEnt_ne t _ _ _ _ _ (by decide)).trans h
  by_cases h3 : s.lock = 3
  · rw [if_pos h3, if_pos h3]
    exact ⟨_, rfl, hupLock _ hup 4, State.ent_setEnt_self .., fun _ => ⟨rfl, (State.ent_setEnt_ne _ _ _ _ _ _ (by decide)).trans hrate⟩,
      fun h4 => absurd (h3.symm.trans h4) (by decide)⟩
  · rw [if_neg h3, if_neg h3]
    by_cases h2 : s.lock = 2
    · rw [if_pos h2, if_pos h2]
      exact ⟨_, rfl, hupLock _ hup 1, State.ent_setEnt_self .., fun h => absurd h h3, fun h4 => absurd (h2.symm.trans h4) (by decide)⟩
    · rw [if_neg h2, if_neg h2]
      by_cases h4 : s.lock = 4
      · rw [if_pos h4]
        exact ⟨_, rfl, (State.ent_setEnt_ne _ _ _ _ _ _ (by decide)).trans hup, (State.ent_setEnt_ne _ _ _ _ _ _ (by decide)).trans hlock,
          fun h => absurd h h3, fun _ => State.ent_setEnt_self ..⟩
      · rw [if_neg h4]
        exact ⟨_, rfl, hup, hlock, fun h => absurd h h3, fun h => absurd h h4⟩

end

/-- A bound above 32 ns unlocks the module (R49). -/
theorem holdoverBoundExceeded_unlocks {t : FTime} (hnow : s.now ≤ t) (hl : s.lock = 4) (hs : s.time.slewing = false)
    (hb : 32000 * 1000000000 < s.ent 0x3000 3 * 1000000000 + 20000 * (t.toNat - s.time.holdAt.toNat)) :
    ∃ u, exec (.holdoverBoundExceeded t) s = .next u ∧ u.lock = 5 ∧ u.ent 0x3000 3 = 32001 ∧
      ∃ e ∈ u.ev.raised, e.code = 0x2101 ∧ e.time = t := by
  have hexec : exec (.holdoverBoundExceeded t) s = .next (timeUnlock (({ s with now := t } : State).setEnt 0x3000 3 32001) 1 0) := by
    show execHoldoverBoundExceeded t s = _
    unfold execHoldoverBoundExceeded
    rw [atTime_of_le s hnow]
    exact if_pos ⟨hl, hs, hb⟩
  obtain ⟨hlock, e, he, hcode, htime⟩ := timeUnlock_unlocks (({ s with now := t } : State).setEnt 0x3000 3 32001) 1 0
  refine ⟨_, hexec, hlock, ?_, e, he, hcode, htime⟩
  rw [(timeUnlock_spares _ 1 0).low 0x3000 3 (by decide) (by decide) (by decide), State.ent_setEnt_self]

end

/-- Settles O24: the exchange over what a message says of a port, kept by the servo; the choice of a root and of a port over the entries they set. -/
theorem timeExchangeAndRoot : Obligations.TimeExchangeAndRoot := by
  unfold Obligations.TimeExchangeAndRoot
  refine ⟨fun s t frac p f hnow hin => ?_, fun s t => ⟨?_, ?_, ?_, holdoverBoundExceeded_unlocks⟩⟩
  · refine ⟨timeExchange_sends frac hnow hin, fun hk hvc hversion hflags hsender hroot had => ?_⟩
    obtain ⟨u, hu, hheard⟩ := timeFlitReceive_heard frac hnow hin hk hvc hversion hflags hsender hroot had
    refine ⟨u, hu, hheard.peerSeq, hheard.peerRx, hheard.advert, fun t1 hecho ht1 => hheard.delay _ ?_⟩
    rw [echoSent, if_pos hecho, ht1]
    rfl
  · exact fun hd hl hb hp hseen hat => becomeRoot_start hd hl hb hp (bestSeen_of fun p a hp hin ha => .inl (hseen p a hp hin ha)) hat
  · exact fun hl hr hb hp hseen =>
      becomeRoot_holdover hl hr hb hp (bestSeen_of fun p a hp hin ha => (hseen p a hp hin ha).imp_right fun h => ⟨hl, h⟩)
  · exact fun hr hl hu hd => ⟨fun q hq => upstreamReselect_follows hr hl hu hd hq, fun hb => upstreamReselect_lost hr hl hu hd hb⟩

end Sys2Proof.Machine
end

section
/-!
What accesses to sound HBM read, write and leave as it is (R178, R530), for copies of instances.
-/
namespace Sys2Proof.Machine
open Sys2Proof

/-! ### Reads and writes of sound HBM (R178, R530) -/

/-- HBM is sound by its stored codes and the lines of the cache alone. -/
theorem hbmSound_of_eq {s t : State} (h : HbmSound s) (hraw : t.mem.hbmRaw = s.mem.hbmRaw) (hcache : t.mem.cache = s.mem.cache) : HbmSound t :=
  ⟨hraw.trans h.1, by rw [hcache]; exact h.2⟩

theorem hbmSound_setCache {s : State} (h : HbmSound s) {l : List CacheLine} (hl : ∀ x ∈ l, x.bad = []) : HbmSound (s.setCache l) := ⟨h.1, hl⟩

theorem hbmSound_addEnt {s : State} (h : HbmSound s) (i j n : Nat) : HbmSound (s.addEnt i j n) := hbmSound_of_eq h rfl rfl

theorem hbmSound_withNow {s : State} (h : HbmSound s) (t : FTime) : HbmSound { s with now := t } := hbmSound_of_eq h rfl rfl

theorem writeBack_sound {s : State} (h : HbmSound s) {x : CacheLine} (hx : x.bad = []) : HbmSound (writeBack s x) := by
  unfold writeBack poisonUnits
  rw [hx]
  split
  · exact hbmSound_addEnt h ..
  · exact h

theorem makeRoom_sound {s : State} (h : HbmSound s) (l : Nat) : HbmSound (makeRoom s l) := by
  unfold makeRoom
  dsimp only
  split
  · exact h
  · split
    · next x hx =>
      refine writeBack_sound (hbmSound_setCache h fun y hy => h.2 y (List.mem_filter.1 hy).1) (h.2 x ?_)
      exact (List.mem_filter.1 (List.mem_of_getLast? hx)).1
    · exact h

theorem countLookup_sound {s : State} (h : HbmSound s) (d : Nat) (hit : Bool) : HbmSound (countLookup s d hit) := by
  have hcount := hbmSound_addEnt h 0x4020 (d + 1) 1
  cases hit with
  | false => exact hbmSound_of_eq hcount rfl rfl
  | true => exact hbmSound_of_eq (hbmSound_addEnt hcount 0x4021 (d + 1) 1) rfl rfl

/-- A line without an uncorrectable word serves an access as it is. -/
theorem useLine_sound (s : State) {x : CacheLine} (hx : x.bad = []) (a o n : Nat) (write : Bool) :
    useLine s x a o n write = ({ x with dirty := x.dirty || write, bad := [] }, s) := by
  unfold useLine
  rw [hx]
  cases write <;> rfl

theorem lookup_sound {s : State} (h : HbmSound s) (a n : Nat) (write alloc : Bool) : HbmSound (lookup s a n write alloc) := by
  have hcount (hit : Bool) := countLookup_sound h (lineDie (lineOf s a)) hit
  unfold lookup
  dsimp only
  split
  · next x hx =>
    rw [useLine_sound _ (h.2 x (List.mem_of_find?_eq_some hx))]
    refine hbmSound_setCache (hcount true) (List.forall_mem_cons.2 ⟨rfl, fun y hy => h.2 y (List.mem_filter.1 hy).1⟩)
  · split
    · have hroom := makeRoom_sound (hcount false) (lineOf s a)
      exact hbmSound_setCache hroom (List.forall_mem_cons.2 ⟨rfl, hroom.2⟩)
    · exact hcount false

theorem lookups_sound {s : State} (h : HbmSound s) (a n : Nat) (write alloc : Bool) : HbmSound (lookups s a n write alloc) := by
  unfold lookups accesses
  split
  · exact h
  · exact List.foldlRecOn (motive := HbmSound) _ _ h fun _ ht _ _ => lookup_sound ht ..

/-- A read of sound HBM gives the bytes and finds nothing. -/
theorem memRead_sound {s : State} (h : HbmSound s) (a n : Nat) (alloc : Bool) :
    memRead s a n alloc = (hread s a n, lookups s a n false alloc, false) := by
  unfold memRead
  rw [hcheck_clean _ _ _ (lookups_sound h a n false alloc).1]

/-- Where an address lies depends on the entries of the region modes. -/
theorem phys_of_accounts {s t : State} (h : ∀ j, j < 256 → t.ent 0x4010 j = s.ent 0x4010 j) {a : Nat} (ha : a < hbmSize) : phys t a = phys s a := by
  have hregion : a / regionSize + 1 < 256 := by
    unfold hbmSize at ha
    unfold regionSize
    omega
  simp only [phys, stackOf, h _ hregion]

theorem hbyte_of_accounts {s t : State} (h : ∀ j, j < 256 → t.ent 0x4010 j = s.ent 0x4010 j) (hm : t.mem.hbm = s.mem.hbm) {a : Nat} (ha : a < hbmSize) :
    hbyte t a = hbyte s a := by
  unfold hbyte
  rw [phys_of_accounts h ha, hm]

/-- What a unit of the module writes to HBM is there. -/
theorem hbyte_memWrite (s : State) (a : Nat) (b : List Byte) (ha : a + b.length ≤ hbmSize) {m : Nat} (hm : m < b.length) :
    hbyte (memWrite s a b) (a + m) = b.getD m 0 := by
  have hent (j : Nat) (hj : j < 256) : (memWrite s a b).ent 0x4010 j = (hput (lookups s a b.length true true) a b).ent 0x4010 j :=
    ((memWrite_accounts s a b).low 0x4010 j (by decide) hj).trans
      (((lookups_accounts s a b.length true true).trans (.hput _ a b)).low 0x4010 j (by decide) hj).symm
  rw [hbyte_of_accounts hent (hwrite_hbm ..) (by omega), hbyte_hput _ a b ha _ (by omega), if_pos ⟨by omega, by omega⟩, Nat.add_sub_cancel_left]

end Sys2Proof.Machine
end

section
/-!
Group reduction, staged copies and late transfers (O33).
-/
namespace Sys2Proof.Machine
open Sys2Proof

/-! ### A transfer that is late (R67, R68) -/

theorem eff_of_running {s : State} (h : s.running = true) : s.eff = .run := of_decide_eq_true h

/-- The module's time is the deadline, if that lies ahead. -/
def atDeadline (s : State) (due : Nat) : State := if s.now.toNat ≤ due then { s with now := BitVec.ofNat 64 due } else s

/-- The miss is counted, with its stream and its port. -/
def missCounted (s : State) (p stream : Nat) : State := ((s.addEnt 0x3110 1 1).setEnt 0x3110 2 stream).setEnt 0x3110 3 p

/-- The miss is reported twice. -/
def missRaised (s : State) (d : List (Nat × Nat)) : State := (s.raise 0x3202 d).raise 0x3201 d

/-- The transfer is given up, and is reported once a repetition. -/
def transferGivenUp (s : State) (i : Nat) (x : SendS) (p stream : Nat) : State :=
  let t := (s.setCsend i { x with active := false }).setEnt 0x3110 3 p
  { t with run := { t.run with late := (p, stream) :: t.run.late } }

/-- The state in which the abort for a late transfer is acted on. -/
def lateAt (s : State) (i : Nat) (x : SendS) (p stream due : Nat) (d : List (Nat × Nat)) : State :=
  transferGivenUp (missRaised (missCounted (atDeadline s due) p stream) d) i x p stream

theorem atDeadline_cases (s : State) (due : Nat) : ∃ v, atDeadline s due = { s with now := v } := by
  unfold atDeadline
  split
  · exact ⟨_, rfl⟩
  · exact ⟨s.now, rfl⟩

theorem missCounted_spec (s : State) (p stream : Nat) : (missCounted s p stream).ent 0x3110 1 = (s.ent 0x3110 1 + 1) % 2 ^ 32 ∧
    (missCounted s p stream).ent 0x3110 2 = stream ∧ (missCounted s p stream).ctl = s.ctl ∧ (missCounted s p stream).run = s.run := by
  have hmod : entryMod 0x3110 1 = 2 ^ 32 := by decide +kernel
  unfold missCounted
  refine ⟨?_, ?_, rfl, rfl⟩
  · rw [State.ent_setEnt_ne _ _ _ _ _ _ (by decide), State.ent_setEnt_ne _ _ _ _ _ _ (by decide), State.ent_addEnt_self, hmod]
  · rw [State.ent_setEnt_ne _ _ _ _ _ _ (by decide), State.ent_setEnt_self]

theorem missRaised_spec (s : State) (d : List (Nat × Nat)) : (missRaised s d).dict = s.dict ∧ (missRaised s d).ctl = s.ctl ∧
    (missRaised s d).run = s.run ∧ (∃ a ∈ (missRaised s d).ev.raised, a.code = 0x3202) ∧ ∃ a ∈ (missRaised s d).ev.raised, a.code = 0x3201 := by
  refine ⟨rfl, rfl, rfl, ?_, ?_⟩
  · exact ⟨_, List.mem_append_left _ (List.mem_append_right _ (List.mem_singleton_self _)), rfl⟩
  · exact ⟨_, List.mem_append_right _ (List.mem_singleton_self _), rfl⟩

theorem transferGivenUp_spec (s : State) (i : Nat) (x : SendS) (p stream : Nat) : (transferGivenUp s i x p stream).ent 0x3110 3 = p ∧
    (∀ j, j < 256 → j ≠ 3 → (transferGivenUp s i x p stream).ent 0x3110 j = s.ent 0x3110 j) ∧ (transferGivenUp s i x p stream).ctl = s.ctl ∧
    (transferGivenUp s i x p stream).ev = s.ev ∧ (transferGivenUp s i x p stream).run.aborts = s.run.aborts ∧
    ∀ due, abandons (transferGivenUp s i x p stream).run due = abandons s.run due := by
  refine ⟨State.ent_setEnt_self .., fun j hj h3 => ?_, rfl, rfl, rfl, fun _ => rfl⟩
  exact State.ent_setEnt_ne (s.setCsend i { x with active := false }) _ _ p _ _ (by rw [ne_eq, ekey_inj hj (by decide)]; omega)

/-- The miss is shown and reported, and the decision about its abort is still that of the state before. -/
theorem lateAt_spec (s : State) (i : Nat) (x : SendS) (p stream due : Nat) (d : List (Nat × Nat)) :
    (lateAt s i x p stream due d).ctl = s.ctl ∧ (lateAt s i x p stream due d).run.aborts = s.run.aborts ∧
      abandons (lateAt s i x p stream due d).run due = abandons s.run due ∧
      (lateAt s i x p stream due d).ent 0x3110 1 = (s.ent 0x3110 1 + 1) % 2 ^ 32 ∧ (lateAt s i x p stream due d).ent 0x3110 2 = stream ∧
      (lateAt s i x p stream due d).ent 0x3110 3 = p ∧ (∃ a ∈ (lateAt s i x p stream due d).ev.raised, a.code = 0x3202) ∧
      ∃ a ∈ (lateAt s i x p stream due d).ev.raised, a.code = 0x3201 := by
  unfold lateAt
  obtain ⟨v, hv⟩ := atDeadline_cases s due
  rw [hv]
  obtain ⟨hcount, hstream, hctl, hrun⟩ := missCounted_spec { s with now := v } p stream
  generalize missCounted { s with now := v } p stream = a at hcount hstream hctl hrun
  obtain ⟨hdict', hctl', hrun', hmiss, hlate⟩ := missRaised_spec a d
  generalize missRaised a d = b at hdict' hctl' hrun' hmiss hlate
  obtain ⟨hport, hents, hctl'', hev, haborts, habandons⟩ := transferGivenUp_spec b i x p stream
  generalize transferGivenUp b i x p stream = c at hport hents hctl'' hev haborts habandons
  refine ⟨by rw [hctl'', hctl', hctl], by rw [haborts, hrun', hrun], by rw [habandons, hrun', hrun], ?_, ?_, hport, hev ▸ hmiss, hev ▸ hlate⟩
  · rw [hents 1 (by decide) (by decide), State.ent_of_dict hdict', hcount]
    rfl
  · rw [hents 2 (by decide) (by decide), State.ent_of_dict hdict', hstream]

section
variable {s : State} {p : Port} {stream : BitVec 14} {set : List W32} {capo k : Nat}
  (hset : setInForce s p.val = some (set, capo)) (hfind : findEntry s transmits p.val stream.toNat = some k) (hrun : s.running = true)
  (hfrets : fretsOf set stream.toNat ≠ []) (hcapo : capo ≤ s.now.toNat)
  (hdue : repDue (centry s k) (repetition set.length capo s.now.toNat) = true) (hsource : ceSource (centry s k) ≠ 3)
  (hlate : (p.val, stream.toNat) ∉ s.run.late) (hfirst : (s.csend k).sent = 0 → (s.csend k).rep ≤ repetition set.length capo s.now.toNat)
  (hlast : (s.csend k).sent ≠ 0 → (s.csend k).rep = repetition set.length capo s.now.toNat)
include hset hfind hrun hfrets hcapo hdue hsource hlate hfirst hlast

/-- The fret at whose end the transfer was due: of its first flit, or of its last. -/
def lateFret (s : State) (k : Nat) (set : List W32) (stream : Nat) : Nat :=
  if (s.csend k).sent = 0 then (fretsOf set stream).getD (slackOf set stream) 0
  else (fretsOf set stream).getD ((fretsOf set stream).length - 1) 0

/-- The instant at which it was due (R67). -/
def lateDue (s : State) (k : Nat) (set : List W32) (stream capo : Nat) : Nat :=
  capo + (repetition set.length capo s.now.toNat * set.length + lateFret s k set stream + 1) * 128

theorem lateTransfer_eq : ∃ d, exec (.lateTransfer p stream) s =
    .next (actAbort (lateAt s k (s.csend k) p.val stream.toNat (lateDue s k set stream.toNat capo) d)
      (lateAt s k (s.csend k) p.val stream.toNat (lateDue s k set stream.toNat capo) d).device 0x3201
      (lateDue s k set stream.toNat capo) none) := by
  refine ⟨missDetail stream.toNat p.val (if decide ((s.csend k).sent = 0) then 1 else 2) (repetition set.length capo s.now.toNat)
    (lateDue s k set stream.toNat capo), ?_⟩
  have hguard : ¬ (s.running = false ∨ fretsOf set stream.toNat = [] ∨ s.now.toNat < capo ∨
      repDue (centry s k) (repetition set.length capo s.now.toNat) = false ∨
      (decide (ceOp (centry s k) = opSend ∧ ceSource (centry s k) = 3) && !(s.csend k).active &&
        decide (toRepair s k (ceD (centry s k)) = [])) = true ∨ (p.val, stream.toNat) ∈ s.run.late ∨
      ((s.csend k).sent = 0 ∧ repetition set.length capo s.now.toNat < (s.csend k).rep) ∨
      ((s.csend k).sent ≠ 0 ∧ (s.csend k).rep ≠ repetition set.length capo s.now.toNat)) := by
    have hidle : decide (ceOp (centry s k) = opSend ∧ ceSource (centry s k) = 3) = false := decide_eq_false fun h => hsource h.2
    rintro (h | h | h | h | h | h | ⟨h0, h⟩ | ⟨h0, h⟩)
    · exact Bool.noConfusion (hrun.symm.trans h)
    · exact hfrets h
    · omega
    · exact Bool.noConfusion (hdue.symm.trans h)
    · rw [hidle] at h
      exact Bool.noConfusion h
    · exact hlate h
    · have := hfirst h0
      omega
    · exact h (hlast h0)
  have hdueEq : capo + (repetition set.length capo s.now.toNat * set.length +
      (if decide ((s.csend k).sent = 0) = true then (fretsOf set stream.toNat).getD (slackOf set stream.toNat) 0
        else (fretsOf set stream.toNat).getD ((fretsOf set stream.toNat).length - 1) 0) + 1) * 128 = lateDue s k set stream.toNat capo := by
    simp only [lateDue, lateFret, decide_eq_true_eq]
  show execLateTransfer p stream s = _
  unfold execLateTransfer
  rw [hset, hfind]
  dsimp only
  rw [if_neg hguard, hdueEq]
  rfl

/-- It is counted and reported twice, and raises the abort of the deadline (R67, R68, R71). -/
theorem lateTransfer_aborts : ∃ u, exec (.lateTransfer p stream) s = .next u ∧
    (s.run.aborts = [] → u.ent 0x3110 4 = lateDue s k set stream.toNat capo) ∧
    (abandons s.run (lateDue s k set stream.toNat capo) = true → u.eff = .aborting ∧ u.ent 0x5010 3 = 3) ∧
    (abandons s.run (lateDue s k set stream.toNat capo) = false → u.eff = .run ∧ u.run.deferred.isSome = true) ∧
    u.ent 0x3110 1 = (s.ent 0x3110 1 + 1) % 2 ^ 32 ∧ u.ent 0x3110 2 = stream.toNat ∧
    u.ent 0x3110 3 = p.val ∧ (∃ a ∈ u.ev.raised, a.code = 0x3202) ∧ ∃ a ∈ u.ev.raised, a.code = 0x3201 := by
  obtain ⟨d, hexec⟩ := lateTransfer_eq hset hfind hrun hfrets hcapo hdue hsource hlate hfirst hlast
  obtain ⟨hctl, haborts, habandons, hcount, hstream, hport, hmiss, hraised⟩ :=
    lateAt_spec s k (s.csend k) p.val stream.toNat (lateDue s k set stream.toNat capo) d
  generalize lateAt s k (s.csend k) p.val stream.toNat (lateDue s k set stream.toNat capo) d = w
    at hexec hctl haborts habandons hcount hstream hport hmiss hraised
  generalize lateDue s k set stream.toNat capo = due at hexec habandons ⊢
  have hw : w.running = true := (running_of_ctl hctl).trans hrun
  have hspares := actAbort_spares w w.device 0x3201 due none
  have hkept (j : Nat) (hj : j < 4) : (actAbort w w.device 0x3201 due none).ent 0x3110 j = w.ent 0x3110 j :=
    hspares.low 0x3110 j (by decide) (by omega) (by simp [abortEntries, abandonEntries]; omega)
  have hstays {c : W16} (h : ∃ a ∈ w.ev.raised, a.code = c) : ∃ a ∈ (actAbort w w.device 0x3201 due none).ev.raised, a.code = c :=
    h.imp fun _ ha => ⟨hspares.mem_raised ha.1, ha.2⟩
  refine ⟨_, hexec, fun h => actAbort_first _ _ _ _ (haborts.trans h), fun h => actAbort_abandons _ _ _ hw (habandons.trans h), fun h => ?_,
    (hkept 1 (by decide)).trans hcount, (hkept 2 (by decide)).trans hstream, (hkept 3 (by decide)).trans hport, hstays hmiss, hstays hraised⟩
  obtain ⟨heff, hdeferred, -⟩ := actAbort_defers w.device 0x3201 none hw (habandons.trans h)
  exact ⟨heff.trans (eff_of_running hw), hdeferred⟩

end

/-! ### Read-checks of the slots of a pool (Table 18-3) -/

/-- What decides about the read-checks of the slots: the collectives, and the stored codes of SRAM words. -/
def slotCodes (s : State) : Coll × SMap (Option RawCode) := (s.coll, s.mem.sramRaw)

section
variable (s : State)

theorem noteCorrected_slotCodes (kind unit addr : Nat) : slotCodes (noteCorrected s kind unit addr) = slotCodes s := by
  unfold noteCorrected
  dsimp only
  split <;> split <;> rfl

@[simp] theorem setEnt_slotCodes (i j v : Nat) : slotCodes (s.setEnt i j v) = slotCodes s := rfl

theorem recordBad_slotCodes (kind cause unit addr : Nat) : slotCodes (recordBad s kind cause unit addr) = slotCodes s := by
  unfold recordBad
  split
  · simp only [setEnt_slotCodes]
  · rfl

theorem reportBad_slotCodes (kind cause unit addr : Nat) : slotCodes (reportBad s kind cause unit addr) = slotCodes s := by
  unfold reportBad
  dsimp only
  split <;> rfl

theorem noteBad_slotCodes (kind cause unit addr : Nat) : slotCodes (noteBad s kind cause unit addr) = slotCodes s := by
  rw [noteBad_eq, reportBad_slotCodes, recordBad_slotCodes]
  rfl

theorem addCandidate_slotCodes (kind origin unit key : Nat) : slotCodes (addCandidate s kind origin unit key) = slotCodes s := by
  unfold addCandidate
  dsimp only
  split
  · rfl
  · split <;> rfl

theorem sramReadCheck_slotCodes (kind c first n : Nat) : slotCodes (sramReadCheck s kind c first n).1 = slotCodes s := by
  unfold sramReadCheck
  refine foldl_keeps_fst _ slotCodes (fun t u => ?_) _ (s, false)
  dsimp only
  split
  · rfl
  · split
    · rfl
    · split
      · rfl
      · exact noteCorrected_slotCodes ..
      · exact (addCandidate_slotCodes ..).trans (noteBad_slotCodes ..)

end

/-- A listed word of the bytes checked does not decode. -/
def wordFails (kind c first n : Nat) (u : Nat × Option RawCode) : Bool :=
  if n = 0 ∨ u.1 / 2 ^ 24 ≠ sramKey kind c 0 / 2 ^ 24 ∨ first + n ≤ 8 * (u.1 % 2 ^ 24) ∨ 8 * (u.1 % 2 ^ 24) + 8 ≤ first then false else
  match u.2 with
  | none => false
  | some r =>
    match (sramDecode (BitVec.ofNat 64 (ofLe r.data)) (r.check.getD 0 0)).2 with
    | .bad _ => true
    | _ => false

theorem foldl_flag {α : Type} {f : State × Bool → α → State × Bool} {fails : α → Bool} (h : ∀ a x, (f a x).2 = (a.2 || fails x)) (l : List α)
    (a : State × Bool) : (l.foldl f a).2 = (a.2 || l.any fails) := by
  induction l generalizing a with
  | nil => simp
  | cons x l ih => rw [List.foldl_cons, ih, h, List.any_cons, Bool.or_assoc]

/-- A read-check fails where a listed word of its bytes does not decode. -/
theorem sramReadCheck_flag (s : State) (kind c first n : Nat) : (sramReadCheck s kind c first n).2 = s.mem.sramRaw.any (wordFails kind c first n) := by
  unfold sramReadCheck
  rw [foldl_flag (fails := wordFails kind c first n) (fun a u => ?_), Bool.false_or]
  unfold wordFails
  dsimp only
  split
  · simp
  · cases u.2 with
    | none => simp
    | some r =>
      dsimp only
      generalize (sramDecode (BitVec.ofNat 64 (ofLe r.data)) (r.check.getD 0 0)).2 = found
      cases found with
      | clean => simp
      | corrected => simp
      | bad _ => simp

theorem centry_of_coll {s t : State} (h : t.coll = s.coll) (i : Nat) : centry t i = centry s i := by
  unfold centry
  rw [h]

theorem inputsFrom_of_coll {s t : State} (h : t.coll = s.coll) (n i : Nat) : inputsFrom t n i = inputsFrom s n i := by
  induction n generalizing i with
  | zero => rfl
  | succ n ih => rw [inputsFrom, inputsFrom, centry_of_coll h, ih]

theorem groupInputs_of_coll {s t : State} (h : t.coll = s.coll) (g : Nat) : groupInputs t g = groupInputs s g := by
  unfold groupInputs
  rw [centry_of_coll h, inputsFrom_of_coll h]

theorem poolDie_of_coll {s t : State} (h : t.coll = s.coll) (i : Nat) : poolDie t i = poolDie s i := by
  unfold poolDie groupAbove
  rw [show centry t = centry s from funext (centry_of_coll h)]

theorem slotAt_of_coll {s t : State} (h : t.coll = s.coll) (i j k : Nat) : slotAt t i j k = slotAt s i j k := by
  unfold slotAt groupAbove
  rw [poolDie_of_coll h, show groupInputs t = groupInputs s from funext (groupInputs_of_coll h),
    show centry t = centry s from funext (centry_of_coll h)]

theorem checkSlot_flag_of {s t : State} (h : slotCodes t = slotCodes s) (i j k : Nat) : (checkSlot t i j k).2 = (checkSlot s i j k).2 := by
  obtain ⟨hcoll, hraw⟩ := Prod.ext_iff.1 h
  unfold checkSlot
  rw [sramReadCheck_flag, sramReadCheck_flag, poolDie_of_coll hcoll, slotAt_of_coll hcoll, show t.mem.sramRaw = s.mem.sramRaw from hraw]

theorem checkSlot_slotCodes (s : State) (i j k : Nat) : slotCodes (checkSlot s i j k).1 = slotCodes s := by
  unfold checkSlot
  exact sramReadCheck_slotCodes s 7 (poolDie s i) _ 240

theorem checkSlot_hbm (s : State) (i j k : Nat) : (checkSlot s i j k).1.mem.hbm = s.mem.hbm := by
  unfold checkSlot
  exact sramReadCheck_hbm s 7 (poolDie s i) _ 240

theorem checkSlot_accounts (s : State) (i j k : Nat) : Accounts s (checkSlot s i j k).1 := by
  unfold checkSlot
  exact sramReadCheck_accounts s 7 (poolDie s i) _ 240

/-- The slot of one more input is checked; a LOCAL one holds none. -/
def checkInput (s : State) (j b : Nat) (a : State × Bool) (i : Nat) : State × Bool :=
  if ceLocal (centry s i) then a else ((checkSlot a.1 i j b).1, a.2 || (checkSlot a.1 i j b).2)

/-- The slots of block b of every input are checked. -/
def checkInputs (s : State) (j b : Nat) (ins : List Nat) : State × Bool := ins.foldl (checkInput s j b) (s, false)

section
variable (s : State) (j b : Nat) (ins : List Nat)

theorem checkInputs_accounts : Accounts s (checkInputs s j b ins).1 := by
  refine Accounts.foldl_fst (fun a i => ?_) ins (s, false)
  unfold checkInput
  split
  · exact .refl a.1
  · exact checkSlot_accounts ..

theorem checkInput_slotCodes (a : State × Bool) (i : Nat) : slotCodes (checkInput s j b a i).1 = slotCodes a.1 := by
  unfold checkInput
  split
  · rfl
  · exact checkSlot_slotCodes ..

theorem checkInputs_slotCodes : slotCodes (checkInputs s j b ins).1 = slotCodes s := by
  refine foldl_keeps_fst _ slotCodes (fun t u => ?_) ins (s, false)
  exact checkInput_slotCodes ..

theorem checkInputs_hbm : (checkInputs s j b ins).1.mem.hbm = s.mem.hbm := by
  refine foldl_keeps_fst _ (fun t => t.mem.hbm) (fun t u => ?_) ins (s, false)
  unfold checkInput
  split
  · rfl
  · exact checkSlot_hbm ..

theorem checkInputs_flag : (checkInputs s j b ins).2 = ins.any fun k => !ceLocal (centry s k) && (checkSlot s k j b).2 := by
  have hfold (l : List Nat) (a : State × Bool) (ha : slotCodes a.1 = slotCodes s) :
      (l.foldl (checkInput s j b) a).2 = (a.2 || l.any fun k => !ceLocal (centry s k) && (checkSlot s k j b).2) := by
    induction l generalizing a with
    | nil => simp
    | cons k l ih =>
      rw [List.foldl_cons, ih _ ((checkInput_slotCodes ..).trans ha), List.any_cons, ← Bool.or_assoc]
      congr 1
      unfold checkInput
      cases ceLocal (centry s k) with
      | true => simp
      | false => simp [checkSlot_flag_of ha]
  exact hfold ins (s, false) rfl

end

/-! ### What a group reduces (R422, R423) -/

theorem withNow_groupInputs (s : State) (t : FTime) (i : Nat) : groupInputs { s with now := t } i = groupInputs s i := 
  groupInputs_of_coll (s := s) (t := { s with now := t }) rfl i

theorem inputFlit_of_coll {s t : State} (h : t.coll = s.coll) (g i j k : Nat) : inputFlit t g i j k = inputFlit s g i j k := by
  unfold inputFlit State.cgroup State.crecv
  rw [centry_of_coll h, h]

theorem cgroup_of_coll {s t : State} (h : t.coll = s.coll) (i : Nat) : t.cgroup i = s.cgroup i := by
  unfold State.cgroup
  rw [h]

/-- Bytes of block b of an instance of d data bytes. -/
def reducedLen (d b : Nat) : Nat := if 240 * (b + 1) < d then 240 else d - 240 * b

/-- Block b of instance j as the inputs hold it, in their order. -/
def inputBlocks (s : State) (g : Nat) (ins : List Nat) (j b : Nat) : List (List Byte) := ins.map fun i => (inputFlit s g i j b).getD []

theorem inputBlocks_of_coll {s t : State} (h : t.coll = s.coll) (g : Nat) (ins : List Nat) (j b : Nat) :
    inputBlocks t g ins j b = inputBlocks s g ins j b := by
  unfold inputBlocks
  simp only [inputFlit_of_coll h]

theorem reduceBlock_or (n : Nat) (s : State) (g : Nat) (ins : List Nat) (j b : Nat) : (reduceBlock 2 n (inputBlocks s g ins j b)).1 =
    (List.range (n / 4)).flatMap fun k => le 4 (ins.foldl (fun a i => a ||| field ((inputFlit s g i j b).getD []) (4 * k) 4) 0) := by
  simp only [reduceBlock, if_true, inputBlocks, List.foldl_map]

theorem reduceBlock_sum {op : Nat} (h : op ≠ 2) (n : Nat) (xs : List (List Byte)) :
    (reduceBlock op n xs).1 = (List.range (n / 2)).flatMap fun k => le 2 (sumFp16 xs (2 * k)) := by
  rw [reduceBlock, if_neg h]

/-! ### Slots freed (R421) -/

theorem crecv_setCrecv (s : State) (i : Nat) (x : RecvS) (k : Nat) : (s.setCrecv i x).crecv k = if k = i then x else s.crecv k := by
  unfold State.crecv State.setCrecv
  exact sget_sset ..

theorem cgroup_setCgroup (s : State) (i : Nat) (x : GroupS) (k : Nat) : (s.setCgroup i x).cgroup k = if k = i then x else s.cgroup k := by
  unfold State.cgroup State.setCgroup
  exact sget_sset ..

/-- The slots of instance j that `gone` holds of are freed at one input. -/
def freeSlotsAt (j : Nat) (gone : Nat → Bool) (s : State) (i : Nat) : State :=
  s.setCrecv i { s.crecv i with slots := (s.crecv i).slots.filter fun f => !(decide (f.1 = j) && gone f.2.1) }

theorem freeSlots_eq (s : State) (ins : List Nat) (j : Nat) (gone : Nat → Bool) : freeSlots s ins j gone = ins.foldl (freeSlotsAt j gone) s := rfl

theorem freeSlotsAt_slots (s : State) (i : Nat) (j : Nat) (gone : Nat → Bool) (k : Nat) : ((freeSlotsAt j gone s i).crecv k).slots =
    if k = i then (s.crecv i).slots.filter fun f => !(decide (f.1 = j) && gone f.2.1) else (s.crecv k).slots := by
  unfold freeSlotsAt
  rw [crecv_setCrecv]
  split <;> rfl

/-- Slots are only freed. -/
theorem freeSlots_subset (ins : List Nat) (j : Nat) (gone : Nat → Bool) (s : State) (k : Nat) :
    ((freeSlots s ins j gone).crecv k).slots ⊆ (s.crecv k).slots := by
  rw [freeSlots_eq]
  induction ins generalizing s with
  | nil => exact List.Subset.refl _
  | cons i ins ih =>
    refine List.Subset.trans (ih _) ?_
    rw [freeSlotsAt_slots]
    split
    · next h =>
      subst h
      exact List.filter_subset_self _
    · exact List.Subset.refl _

theorem freeSlots_frees (ins : List Nat) (j : Nat) (gone : Nat → Bool) (s : State) {k : Nat} (hk : k ∈ ins) {q : Nat × Nat × Bool × List Byte}
    (hq : q ∈ ((freeSlots s ins j gone).crecv k).slots) : ¬ (q.1 = j ∧ gone q.2.1 = true) := by
  rw [freeSlots_eq] at hq
  induction ins generalizing s with
  | nil => exact absurd hk List.not_mem_nil
  | cons i ins ih =>
    rcases List.mem_cons.1 hk with rfl | hk
    · have hmem := freeSlots_subset ins j gone (freeSlotsAt j gone s k) k hq
      rw [freeSlotsAt_slots, if_pos rfl] at hmem
      have hkept := (List.mem_filter.1 hmem).2
      rintro ⟨h1, h2⟩
      rw [h1, h2] at hkept
      simp at hkept
    · exact ih _ hk hq

/-- Freeing slots changes the receiving entries alone. -/
theorem freeSlots_keeps (ins : List Nat) (j : Nat) (gone : Nat → Bool) (s : State) : (freeSlots s ins j gone).ctl = s.ctl ∧
    (freeSlots s ins j gone).now = s.now ∧ (freeSlots s ins j gone).run = s.run ∧ (freeSlots s ins j gone).mem = s.mem ∧
    (freeSlots s ins j gone).coll.groups = s.coll.groups := by
  rw [freeSlots_eq]
  induction ins generalizing s with
  | nil => exact ⟨rfl, rfl, rfl, rfl, rfl⟩
  | cons i ins ih => exact ih (freeSlotsAt j gone s i)

/-! ### A block reduced -/

section
variable {s : State} {t : FTime} {i : Nat} {ins : List Nat} {next : Nat}
  (hrun : s.running = true) (hnow : s.now ≤ t) (hop : ceOp (centry s i) = 4) (hins : groupInputs s i = (ins, next)) (hne : ins ≠ [])
  (hpresent : ∀ k ∈ ins, (inputFlit s i k (s.cgroup i).done (s.cgroup i).blocks).isSome = true)

/-- The state of the group once its block is reduced. -/
def blockReduced (y : GroupS) (out : List Byte) (tails : List (List Byte)) (nf : Bool) : GroupS :=
  { y with blocks := y.blocks + 1, out := y.out ++ out, tails := tails, nonfinite := y.nonfinite || nf }

/-- The state of the module once the block is reduced: its slots are free, and a non-finite element is noted. -/
def reducedAt (s : State) (i : Nat) (ins : List Nat) (x : GroupS) (j b : Nat) (nf : Bool) : State :=
  takeNonfinite ((freeSlots s ins j fun k => decide (k = b)).setCgroup i x) nf

theorem takeNonfinite_keeps (s : State) (nf : Bool) : (takeNonfinite s nf).coll = s.coll ∧ (takeNonfinite s nf).mem = s.mem := by
  unfold takeNonfinite
  split <;> exact ⟨rfl, rfl⟩

theorem reducedAt_spec (s : State) (i : Nat) (ins : List Nat) (x : GroupS) (j b : Nat) (nf : Bool) : (reducedAt s i ins x j b nf).cgroup i = x ∧
    (reducedAt s i ins x j b nf).mem = s.mem ∧ ∀ k ∈ ins, ∀ q ∈ ((reducedAt s i ins x j b nf).crecv k).slots, ¬ (q.1 = j ∧ q.2.1 = b) := by
  obtain ⟨hcoll, hmem⟩ := takeNonfinite_keeps ((freeSlots s ins j fun k => decide (k = b)).setCgroup i x) nf
  obtain ⟨-, -, -, hfree, -⟩ := freeSlots_keeps ins j (fun k => decide (k = b)) s
  refine ⟨?_, hmem.trans hfree, fun k hk q hq ⟨h1, h2⟩ => ?_⟩
  · rw [reducedAt, cgroup_of_coll hcoll, cgroup_setCgroup, if_pos rfl]
  · have hq' : q ∈ ((freeSlots s ins j fun k => decide (k = b)).crecv k).slots := by
      rw [reducedAt, State.crecv, hcoll] at hq
      exact hq
    exact freeSlots_frees ins j (fun k => decide (k = b)) s hk hq' ⟨h1, decide_eq_true h2⟩

/-- What the checks of the slots at time t give. -/
def checkedAt (s : State) (t : FTime) (i : Nat) (ins : List Nat) : State × Bool :=
  checkInputs { s with now := t } (s.cgroup i).done (s.cgroup i).blocks ins

/-- What the inputs send beyond the d data bytes of an instance: the trailers, as far as they have come. -/
def blockTails (y : GroupS) (d : Nat) (xs : List (List Byte)) : List (List Byte) :=
  if d ≤ 240 * y.blocks then (y.tails.zip xs).map fun x => x.1 ++ x.2 else xs.map (·.drop (reducedLen d y.blocks))

include hrun hop hne hpresent

theorem groupBlockReduce_present : ¬ (({ s with now := t } : State).running = false ∨ ceOp (centry s i) ≠ opGroup ∨ ins = [] ∨
    (!ins.all fun k => (inputFlit s i k (s.cgroup i).done (s.cgroup i).blocks).isSome) = true) := by
  rw [show ({ s with now := t } : State).running = s.running from rfl, List.all_eq_true.2 hpresent, hrun]
  simp [hop, hne, opGroup]

include hnow hins

theorem groupBlockReduce_bad (hout : grOutput (centry s i) ≠ 0)
    (hbad : (checkedAt s t i ins).2 = true) : exec (.groupBlockReduce t i) s =
      .next (abortRun (checkedAt s t i ins).1 0x4102) := by
  have hins' : groupInputs { s with now := t } i = (ins, next) := (withNow_groupInputs s t i).trans hins
  show execGroupBlockReduce t i s = _
  unfold execGroupBlockReduce
  rw [atTime_of_le s hnow]
  dsimp only
  rw [hins']
  dsimp only
  refine (if_neg (groupBlockReduce_present hrun hop hne hpresent)).trans ?_
  rw [if_neg fun h => hout h.2.1]
  exact if_pos hbad

theorem groupBlockReduce_reduces (hout : grOutput (centry s i) ≠ 0) (hmore : (s.cgroup i).blocks + 1 ≠ flitsOf (ceD (centry s i)))
    (hgood : (checkedAt s t i ins).2 = false) :
    ∃ tails nf, exec (.groupBlockReduce t i) s = .next (reducedAt (checkedAt s t i ins).1 i ins
      (blockReduced (s.cgroup i) (reduceBlock (grOp (centry s i)) (reducedLen (ceD (centry s i)) (s.cgroup i).blocks)
        (inputBlocks (checkedAt s t i ins).1 i ins (s.cgroup i).done (s.cgroup i).blocks)).1
        tails nf) (s.cgroup i).done (s.cgroup i).blocks nf) := by
  have hins' : groupInputs { s with now := t } i = (ins, next) := (withNow_groupInputs s t i).trans hins
  refine ⟨blockTails (s.cgroup i) (ceD (centry s i)) (inputBlocks (checkedAt s t i ins).1 i ins (s.cgroup i).done (s.cgroup i).blocks),
    (reduceBlock (grOp (centry s i)) (reducedLen (ceD (centry s i)) (s.cgroup i).blocks)
        (inputBlocks (checkedAt s t i ins).1 i ins (s.cgroup i).done (s.cgroup i).blocks)).2, ?_⟩
  show execGroupBlockReduce t i s = _
  unfold execGroupBlockReduce
  rw [atTime_of_le s hnow]
  dsimp only
  rw [hins']
  dsimp only
  refine (if_neg (groupBlockReduce_present hrun hop hne hpresent)).trans ?_
  rw [if_neg fun h => hout h.2.1]
  refine (if_neg fun h => Bool.false_ne_true (hgood.symm.trans h)).trans ?_
  refine (if_neg hmore).trans ?_
  exact congrArg Host.Outcome.next (if_neg hout)

end

/-! ### Slots that cannot be corrected, and a closed gate (R418, R423) -/

/-- Every slot of the block that comes next passes its read-check; a LOCAL input has none. -/
def SlotsSound (s : State) (i : Nat) (ins : List Nat) : Prop :=
  ∀ k ∈ ins, ceLocal (centry s k) = false → (checkSlot s k (s.cgroup i).done (s.cgroup i).blocks).2 = false

theorem checkedAt_flag_iff (s : State) (t : FTime) (i : Nat) (ins : List Nat) : (checkedAt s t i ins).2 = false ↔ SlotsSound s i ins := by
  have hcheck (k : Nat) : (checkSlot { s with now := t } k (s.cgroup i).done (s.cgroup i).blocks).2 =
      (checkSlot s k (s.cgroup i).done (s.cgroup i).blocks).2 := checkSlot_flag_of (s := s) (t := { s with now := t }) rfl _ _ _
  have hentry (k : Nat) : centry { s with now := t } k = centry s k := rfl
  unfold checkedAt SlotsSound
  rw [checkInputs_flag, List.any_eq_false]
  simp only [hcheck, hentry, Bool.and_eq_true, Bool.not_eq_true', not_and, Bool.not_eq_true]

theorem checkedAt_accounts (s : State) (t : FTime) (i : Nat) (ins : List Nat) : Accounts { s with now := t } (checkedAt s t i ins).1 :=
  checkInputs_accounts ..

theorem checkedAt_coll (s : State) (t : FTime) (i : Nat) (ins : List Nat) : (checkedAt s t i ins).1.coll = s.coll :=
  congrArg Prod.fst (checkInputs_slotCodes { s with now := t } _ _ ins)

theorem checkedAt_hbm (s : State) (t : FTime) (i : Nat) (ins : List Nat) : (checkedAt s t i ins).1.mem.hbm = s.mem.hbm :=
  checkInputs_hbm { s with now := t } _ _ ins

/-- An abort of the module's own at its time t abandons the step, or is deferred with the collectives and the memory as they are (R71). -/
theorem abortRun_cases {s : State} (hr : s.running = true) (reason : Nat) :
    (abandons s.run s.now.toNat = true → (abortRun s reason).eff = .aborting) ∧
      (abandons s.run s.now.toNat = false → (abortRun s reason).coll = s.coll ∧ (abortRun s reason).mem = s.mem) := by
  rw [abortRun_of_running reason hr]
  refine ⟨fun h => (actAbort_abandons _ _ _ hr h).1, fun h => ?_⟩
  obtain ⟨-, -, -, hcoll, hmem⟩ := actAbort_defers s.device reason none hr h
  exact ⟨hcoll, hmem⟩

/-- The first collective fault of a run is shown (R420). -/
def faultShown (s : State) (code port stream j : Nat) : State :=
  if s.run.collFault then s
  else (((s.setEnt 0x3430 1 code).setEnt 0x3430 2 port).setEnt 0x3430 3 stream).setEnt 0x3430 4 (j % 2 ^ 32)

/-- A collective fault is shown and raised. -/
def faultRaised (s : State) (code port stream j : Nat) : State :=
  let t := faultShown s code port stream j
  ({ t with run := { t.run with collFault := true } } : State).raise code []

theorem collFault_eq (s : State) (code port stream j : Nat) : collFault s code port stream j = abortRun (faultRaised s code port stream j) code := rfl

theorem faultShown_keeps (s : State) (code port stream j : Nat) : (faultShown s code port stream j).ctl = s.ctl ∧
    (faultShown s code port stream j).now = s.now ∧ (faultShown s code port stream j).run = s.run ∧
    (faultShown s code port stream j).coll = s.coll ∧ (faultShown s code port stream j).mem = s.mem := by
  unfold faultShown
  split <;> exact ⟨rfl, rfl, rfl, rfl, rfl⟩

theorem faultRaised_spec (s : State) (code port stream j : Nat) : (faultRaised s code port stream j).ctl = s.ctl ∧
    (faultRaised s code port stream j).now = s.now ∧ (∀ due, abandons (faultRaised s code port stream j).run due = abandons s.run due) ∧
    (faultRaised s code port stream j).coll = s.coll ∧ (faultRaised s code port stream j).mem = s.mem ∧
    ∃ a ∈ (faultRaised s code port stream j).ev.raised, a.code = BitVec.ofNat 16 code ∧ a.time = s.now := by
  obtain ⟨hctl, hnow, hrun, hcoll, hmem⟩ := faultShown_keeps s code port stream j
  unfold faultRaised
  generalize faultShown s code port stream j = t at hctl hnow hrun hcoll hmem
  refine ⟨hctl, hnow, fun due => ?_, hcoll, hmem, _, List.mem_append_right _ (List.mem_singleton_self _), rfl, hnow⟩
  rw [← hrun]
  rfl

theorem dropInstance_spec (s : State) (g j : Nat) (ins : List Nat) : (dropInstance s g j ins).ctl = s.ctl ∧ (dropInstance s g j ins).now = s.now ∧
    (dropInstance s g j ins).run = s.run ∧ (dropInstance s g j ins).mem = s.mem ∧ ((dropInstance s g j ins).cgroup g).done = j + 1 ∧
    ∀ k ∈ ins, ∀ q ∈ ((dropInstance s g j ins).crecv k).slots, q.1 ≠ j := by
  obtain ⟨hctl, hnow, hrun, hmem, -⟩ := freeSlots_keeps ins j (fun _ => true) s
  refine ⟨hctl, hnow, hrun, hmem, ?_, fun k hk q hq h => freeSlots_frees ins j (fun _ => true) s hk hq ⟨h, rfl⟩⟩
  unfold dropInstance
  dsimp only
  rw [cgroup_setCgroup, if_pos rfl]

section
variable {s : State} {t : FTime} {i : Nat} {ins : List Nat} {next : Nat}
  (hrun : s.running = true) (hnow : s.now ≤ t) (hop : ceOp (centry s i) = 4) (hins : groupInputs s i = (ins, next)) (hne : ins ≠ [])
  (hpresent : ∀ k ∈ ins, (inputFlit s i k (s.cgroup i).done (s.cgroup i).blocks).isSome = true)
include hrun hnow hop hins hne hpresent

/-- A slot that cannot be corrected aborts the step (Table 18-3). -/
theorem groupBlockReduce_aborts (hout : grOutput (centry s i) ≠ 0) (hbad : ¬ SlotsSound s i ins) :
    ∃ u, exec (.groupBlockReduce t i) s = .next u ∧ u.cgroup i = (if abandons s.run t.toNat then u.cgroup i else s.cgroup i) ∧
      (abandons s.run t.toNat = true → u.eff = .aborting) := by
  have hflag : (checkedAt s t i ins).2 = true := Bool.eq_true_of_not_eq_false fun h => hbad ((checkedAt_flag_iff s t i ins).1 h)
  have hacc := checkedAt_accounts s t i ins
  obtain ⟨habandoned, hdeferred⟩ := abortRun_cases (s := (checkedAt s t i ins).1) (hacc.running.trans hrun) 0x4102
  rw [hacc.run, hacc.now] at habandoned hdeferred
  refine ⟨_, groupBlockReduce_bad hrun hnow hop hins hne hpresent hout hflag, ?_, habandoned⟩
  split
  · rfl
  · next h => exact cgroup_of_coll ((hdeferred (Bool.eq_false_of_not_eq_true h)).1.trans (checkedAt_coll s t i ins)) i

/-- A block whose slots are sound joins the output of its group (R423). -/
theorem groupBlockReduce_joins (hout : grOutput (centry s i) ≠ 0) (hmore : (s.cgroup i).blocks + 1 ≠ flitsOf (ceD (centry s i)))
    (hgood : SlotsSound s i ins) : ∃ u, exec (.groupBlockReduce t i) s = .next u ∧ (u.cgroup i).blocks = (s.cgroup i).blocks + 1 ∧
      (u.cgroup i).out = (s.cgroup i).out ++ (reduceBlock (grOp (centry s i)) (reducedLen (ceD (centry s i)) (s.cgroup i).blocks)
        (inputBlocks s i ins (s.cgroup i).done (s.cgroup i).blocks)).1 ∧
      (∀ k ∈ ins, ∀ q ∈ (u.crecv k).slots, ¬ (q.1 = (s.cgroup i).done ∧ q.2.1 = (s.cgroup i).blocks)) ∧ u.mem.hbm = s.mem.hbm := by
  obtain ⟨tails, nf, hexec⟩ :=
    groupBlockReduce_reduces hrun hnow hop hins hne hpresent hout hmore ((checkedAt_flag_iff s t i ins).2 hgood)
  rw [inputBlocks_of_coll (checkedAt_coll s t i ins)] at hexec
  obtain ⟨hgroup, hmem, hfree⟩ := reducedAt_spec (checkedAt s t i ins).1 i ins (blockReduced (s.cgroup i)
    (reduceBlock (grOp (centry s i)) (reducedLen (ceD (centry s i)) (s.cgroup i).blocks)
      (inputBlocks s i ins (s.cgroup i).done (s.cgroup i).blocks)).1 tails nf) (s.cgroup i).done (s.cgroup i).blocks nf
  exact ⟨_, hexec, congrArg GroupS.blocks hgroup, congrArg GroupS.out hgroup, hfree, (congrArg Mem.hbm hmem).trans (checkedAt_hbm s t i ins)⟩

theorem groupBlockReduce_closed_eq (hfirst : (s.cgroup i).blocks = 0) (hout : grOutput (centry s i) = 0)
    (hgate : syncGate { s with now := t } (centry s (next + 1)) (s.cgroup i).done = false) : exec (.groupBlockReduce t i) s =
      .next (collFault (dropInstance { s with now := t } i (s.cgroup i).done ins) 0x3403 0xFF 0 (s.cgroup i).done) := by
  have hins' : groupInputs { s with now := t } i = (ins, next) := (withNow_groupInputs s t i).trans hins
  have hgate' : (!syncGate { s with now := t } (centry s (next + 1)) (s.cgroup i).done) = true := by rw [hgate]; rfl
  show execGroupBlockReduce t i s = _
  unfold execGroupBlockReduce
  rw [atTime_of_le s hnow]
  dsimp only
  rw [hins']
  dsimp only
  refine (if_neg (groupBlockReduce_present hrun hop hne hpresent)).trans ?_
  exact if_pos ⟨hfirst, hout, hgate'⟩

/-- An instance that would land in memory behind a closed gate is discarded (R418, R422). -/
theorem groupBlockReduce_late (hfirst : (s.cgroup i).blocks = 0) (hout : grOutput (centry s i) = 0)
    (hgate : syncGate { s with now := t } (centry s (next + 1)) (s.cgroup i).done = false) :
    ∃ u, exec (.groupBlockReduce t i) s = .next u ∧ (∃ a ∈ u.ev.raised, a.code = 0x3403 ∧ a.time = t) ∧
      (abandons s.run t.toNat = false → u.mem = s.mem ∧ (u.cgroup i).done = (s.cgroup i).done + 1 ∧
        ∀ k ∈ ins, ∀ q ∈ (u.crecv k).slots, q.1 ≠ (s.cgroup i).done) := by
  have hexec := groupBlockReduce_closed_eq hrun hnow hop hins hne hpresent hfirst hout hgate
  rw [collFault_eq] at hexec
  obtain ⟨hctl, hnow', hrun', hmem, hdone, hslots⟩ := dropInstance_spec { s with now := t } i (s.cgroup i).done ins
  generalize dropInstance { s with now := t } i (s.cgroup i).done ins = d at hexec hctl hnow' hrun' hmem hdone hslots
  obtain ⟨hctl', hnow'', habandons, hcoll, hmem', a, ha, hcode, htime⟩ := faultRaised_spec d 0x3403 0xFF 0 (s.cgroup i).done
  generalize faultRaised d 0x3403 0xFF 0 (s.cgroup i).done = w at hexec hctl' hnow'' habandons hcoll hmem' ha
  have hw : w.running = true := (running_of_ctl (hctl'.trans hctl)).trans hrun
  have hab : abandons w.run w.now.toNat = abandons s.run t.toNat := by rw [habandons, hrun', hnow'', hnow']
  obtain ⟨-, hdeferred⟩ := abortRun_cases hw 0x3403
  refine ⟨_, hexec, ⟨a, (abortRun_spares w 0x3403).mem_raised ha, hcode, htime.trans hnow'⟩, fun h => ?_⟩
  obtain ⟨hcoll', hmem''⟩ := hdeferred (hab.trans h)
  refine ⟨hmem''.trans (hmem'.trans hmem), ?_, fun k hk q hq => hslots k hk q ?_⟩
  · rw [cgroup_of_coll (hcoll'.trans hcoll), hdone]
  · rwa [State.crecv, hcoll', hcoll] at hq

end

/-! ### A staged copy (R426) -/

theorem centry_of_accounts {s t : State} (h : Accounts s t) (i : Nat) : centry t i = centry s i := by
  have himage := congrArg Coll.image h.coll
  exact congrArg (fun l => l.getD i 0) himage

theorem getD_hread (s : State) (a n : Nat) {m : Nat} (hm : m < n) : (hread s a n).getD m 0 = hbyte s (a + m) := by
  simp [hread, hm]

theorem length_hread (s : State) (a n : Nat) : (hread s a n).length = n := by simp [hread]

/-- The staged instance is no longer staged. -/
def unstaged (s : State) (x : Staged) : State := { s with coll := { s.coll with staged := s.coll.staged.filter fun y => !decide (y = x) } }

theorem unstaged_staged (s : State) (x : Staged) : x ∉ (unstaged s x).coll.staged := by
  intro h
  have := (List.mem_filter.1 h).2
  simp at this

/-- An increment that cannot overflow changes a semaphore, or is counted as misdirected: the memory and the collectives stay. -/
theorem incSem_keeps {s : State} {c k n : Nat} (hfits : s.sem c k + n < 2 ^ 32) (landing : Bool) :
    (incSem s c k n landing).mem = s.mem ∧ (incSem s c k n landing).coll = s.coll ∧
      (∀ j, j < 256 → (incSem s c k n landing).ent 0x4010 j = s.ent 0x4010 j) := by
  unfold incSem
  split
  · exact ⟨rfl, rfl, fun _ _ => rfl⟩
  · split
    · unfold misdirect
      have hent (j : Nat) (hj : j < 256) : (s.addEnt 0x5520 1 n).ent 0x4010 j = s.ent 0x4010 j :=
        State.ent_addEnt_ne s _ _ _ _ _ (by rw [ne_eq, ekey_inj hj (by decide)]; omega)
      dsimp only
      split <;> exact ⟨rfl, rfl, hent⟩
    · exact ⟨rfl, rfl, fun _ _ => rfl⟩

/-- A landing semaphore is increased by a landing. -/
theorem incSem_landing {s : State} (hr : s.running = true) {c k n : Nat} (hfits : s.sem c k + n < 2 ^ 32) (hl : s.isLanding c k = true) :
    (incSem s c k n true).sem c k = s.sem c k + n := by
  unfold incSem
  split
  · next h => rw [h, Nat.add_zero]
  · rw [hr, hl, if_neg (by simp)]
    unfold State.setSem State.sem
    rw [State.core_modCore, if_pos rfl, sget_sset, if_pos rfl, BitVec.toNat_ofNat]
    exact Nat.mod_eq_of_lt hfits

theorem syncSignal_keeps {s : State} {e n : Nat} (hfits : s.sem (bits e 33 24) (bits e 39 34) + n < 2 ^ 32) (landing : Bool) :
    (syncSignal s e n landing).mem = s.mem ∧ (syncSignal s e n landing).coll = s.coll ∧
      (∀ j, j < 256 → (syncSignal s e n landing).ent 0x4010 j = s.ent 0x4010 j) := by
  unfold syncSignal
  split
  · exact incSem_keeps hfits landing
  · exact ⟨rfl, rfl, fun _ _ => rfl⟩

section
variable {s : State} {t : FTime} {i : Nat} {x : Staged}

/-- The instance x copied, at time t. -/
def copiedAt (s : State) (t : FTime) (i : Nat) (x : Staged) : State :=
  unstaged (memWrite (lookups { s with now := t } (bufAddr (centry s (i + 1)) x.ordinal) (ceD (centry s i)) false true)
    (bufAddr (centry s (i + 2)) x.ordinal) (hread { s with now := t } (bufAddr (centry s (i + 1)) x.ordinal) (ceD (centry s i)))) x

theorem placeOf_hbm {a n : Nat} (h : a + n ≤ hbmSize) : placeOf a n = .hbm := if_pos h

theorem localRead_hbm (s : State) {a n : Nat} (h : a + n ≤ hbmSize) : localRead s a n = memRead s a n true := by
  unfold localRead
  rw [placeOf_hbm h]

theorem localWrite_hbm (s : State) {a : Nat} {b : List Byte} (h : a + b.length ≤ hbmSize) : localWrite s a b = memWrite s a b := by
  unfold localWrite
  rw [placeOf_hbm h]

variable (hrun : s.running = true) (hnow : s.now ≤ t) (hx : (s.coll.staged.find? fun x => decide (x.entry = i)) = some x)
  (hgate : syncGate { s with now := t } (centry s (i + 3)) x.ordinal = true)
  (hfrom : bufAddr (centry s (i + 1)) x.ordinal + ceD (centry s i) ≤ hbmSize) (hto : bufAddr (centry s (i + 2)) x.ordinal + ceD (centry s i) ≤ hbmSize)
  (hs : HbmSound s)
include hrun hnow hx hgate hfrom hto hs

theorem stagedCopy_eq : exec (.stagedCopy t i) s = .next (syncSignal (copiedAt s t i x) (centry s (i + 3)) (ceilDiv (ceD (centry s i)) 64) true) := by
  have hguard : ¬ (({ s with now := t } : State).running = false ∨ syncGate { s with now := t } (centry s (i + 3)) x.ordinal = false) := by
    rw [show ({ s with now := t } : State).running = s.running from rfl, hrun, hgate]
    decide
  have hread : localRead { s with now := t } (bufAddr (centry s (i + 1)) x.ordinal) (ceD (centry s i)) =
      (hread { s with now := t } (bufAddr (centry s (i + 1)) x.ordinal) (ceD (centry s i)),
        lookups { s with now := t } (bufAddr (centry s (i + 1)) x.ordinal) (ceD (centry s i)) false true, false) := by
    rw [localRead_hbm _ hfrom, memRead_sound (hbmSound_withNow hs t)]
  show execStagedCopy t i s = _
  unfold execStagedCopy
  rw [atTime_of_le s hnow]
  dsimp only
  rw [hx]
  dsimp only
  refine (if_neg hguard).trans ?_
  rw [show centry ({ s with now := t } : State) = centry s from rfl, hread]
  refine (if_neg Bool.false_ne_true).trans ?_
  dsimp only
  rw [centry_of_accounts (lookups_accounts { s with now := t } _ _ _ _), localWrite_hbm _ (by rw [length_hread]; exact hto)]
  rfl

/-- The instance is copied, and its landing signalled once its gate is open (R426). -/
theorem stagedCopy_copies (hfits : s.sem (bits (centry s (i + 3)) 33 24) (bits (centry s (i + 3)) 39 34) + ceilDiv (ceD (centry s i)) 64 < 2 ^ 32) :
    ∃ u, exec (.stagedCopy t i) s = .next u ∧
      (∀ m, m < ceD (centry s i) → hbyte u (bufAddr (centry s (i + 2)) x.ordinal + m) = hbyte s (bufAddr (centry s (i + 1)) x.ordinal + m)) ∧
      x ∉ u.coll.staged ∧
      (Nat.testBit (centry s (i + 3)) 104 = true → s.isLanding (bits (centry s (i + 3)) 33 24) (bits (centry s (i + 3)) 39 34) = true →
        u.sem (bits (centry s (i + 3)) 33 24) (bits (centry s (i + 3)) 39 34) =
          s.sem (bits (centry s (i + 3)) 33 24) (bits (centry s (i + 3)) 39 34) + ceilDiv (ceD (centry s i)) 64) := by
  have hlength := length_hread { s with now := t } (bufAddr (centry s (i + 1)) x.ordinal) (ceD (centry s i))
  have hacc : Accounts { s with now := t } (memWrite (lookups { s with now := t } (bufAddr (centry s (i + 1)) x.ordinal) (ceD (centry s i)) false true)
      (bufAddr (centry s (i + 2)) x.ordinal) (hread { s with now := t } (bufAddr (centry s (i + 1)) x.ordinal) (ceD (centry s i)))) :=
    (lookups_accounts _ _ _ _ _).trans (memWrite_accounts _ _ _)
  have hcores : (copiedAt s t i x).cores = s.cores := hacc.cores
  have hctl : (copiedAt s t i x).ctl = s.ctl := hacc.ctl
  have hsem (c k : Nat) : (copiedAt s t i x).sem c k = s.sem c k := by
    unfold State.sem State.core
    rw [hcores]
  have hlanding (c k : Nat) : (copiedAt s t i x).isLanding c k = s.isLanding c k := by
    unfold State.isLanding State.core
    rw [hcores]
  have hbytes (m : Nat) (hm : m < ceD (centry s i)) :
      hbyte (copiedAt s t i x) (bufAddr (centry s (i + 2)) x.ordinal + m) = hbyte s (bufAddr (centry s (i + 1)) x.ordinal + m) := by
    refine (hbyte_memWrite _ _ _ (by rw [hlength]; exact hto) (by rw [hlength]; exact hm)).trans ?_
    exact getD_hread { s with now := t } _ _ hm
  have hfits' : (copiedAt s t i x).sem (bits (centry s (i + 3)) 33 24) (bits (centry s (i + 3)) 39 34) + ceilDiv (ceD (centry s i)) 64 < 2 ^ 32 := by
    rw [hsem]
    exact hfits
  obtain ⟨hmem, hcoll, hent⟩ := syncSignal_keeps hfits' true
  refine ⟨_, stagedCopy_eq hrun hnow hx hgate hfrom hto hs, fun m hm => ?_, ?_, fun hpost hland => ?_⟩
  · rw [hbyte_of_accounts hent (congrArg Mem.hbm hmem) (by omega), hbytes m hm]
  · rw [hcoll]
    exact unstaged_staged _ x
  · rw [syncSignal, if_pos hpost, incSem_landing ((running_of_ctl hctl).trans hrun) hfits' ((hlanding _ _).trans hland), hsem]

end

/-- Settles O33: what is read-checked, freed and dropped of a group, what is copied, and what a late transfer shows, each from the lemma of its part. -/
theorem reduceStageLate : Obligations.ReduceStageLate := by
  unfold Obligations.ReduceStageLate
  intro s t i p stream hrun
  refine ⟨fun hnow hop hne hmore hpresent hout => ⟨fun hbad => ?_, fun hgood => ?_⟩, fun hnow hop hne hfirst hpresent hout hgate => ?_,
    fun x hnow hx hgate hfrom hto hs hfits => stagedCopy_copies hrun hnow hx hgate hfrom hto hs hfits,
    fun set capo k hset hfind hfrets hcapo hdue hsource hlate hfirst hlast =>
      lateTransfer_aborts hset hfind hrun hfrets hcapo hdue hsource hlate hfirst hlast⟩
  · exact groupBlockReduce_aborts hrun hnow hop rfl hne hpresent hout hbad
  · obtain ⟨u, hexec, hblocks, houtput, hfree, hhbm⟩ := groupBlockReduce_joins hrun hnow hop rfl hne hpresent hout hmore hgood
    refine ⟨u, _, hexec, hblocks, houtput, fun hor => ?_, fun hsum => reduceBlock_sum hsum _ _, hfree, hhbm⟩
    rw [hor]
    exact reduceBlock_or ..
  · exact groupBlockReduce_late hrun hnow hop rfl hne (hfirst ▸ hpresent) hfirst hout hgate

end Sys2Proof.Machine
end

section
/-!
SUPPORT. What an instruction of a tile sequencer meets on its way to its unit: its issue, the read-checks, the holds of an idle core (R95, R121, R530).
-/
namespace Sys2Proof.Machine
open Sys2Proof

/-! ### Issue and read-checks -/

theorem afterCheck_of_sound {r : State × Bool} (h : r.2 = false) (c : Nat) (f : State → Out) : afterCheck c r f = f r.1 := by
  rw [afterCheck, h, if_neg Bool.false_ne_true]

/-- A core that issues the instruction hands it to its meaning. -/
theorem issue_of_issuing {s : State} {c : Nat} {w : W64} (h : Issuing s c w) (f : State → CoreS → Out) : issue s c w f = f s (s.core c) := by
  have hdrain : s.run.drainSince.isSome = false := by rw [h.noDrain]; rfl
  have hready : ¬ ((!s.running) = true ∨ s.run.drainSince.isSome = true ∨ (s.core c).status ≠ 2 ∨ (s.core c).wait ≠ .none) := by
    simp [h.running, hdrain, h.status, h.free]
  have hcode : (readOnce s 6 c (8 * (s.core c).pc) 8).2 = false := by rw [h.code]
  unfold issue
  dsimp only
  rw [if_neg hready, if_neg (Nat.not_le.2 h.inside), if_neg (not_not.2 h.here), afterCheck_of_sound hcode, h.code]

theorem checkSram_accounts (s : State) (c : Nat) (rs : List (Nat × Nat × Nat)) : Accounts s (checkSram s c rs).1 := by
  unfold checkSram
  exact .foldl_fst (f := fun t r => ((sramReadCheck t.1 r.1 c r.2.1 r.2.2).1, t.2 || (sramReadCheck t.1 r.1 c r.2.1 r.2.2).2))
    (fun t r => sramReadCheck_accounts t.1 r.1 c r.2.1 r.2.2) rs (s, false)

theorem core_of_accounts {s t : State} (h : Accounts s t) (c : Nat) : t.core c = s.core c := by
  unfold State.core
  rw [h.cores]

/-- Where no stored word has an error a read-check finds nothing. -/
theorem checkSram_sound {s : State} (h : s.mem.sramRaw = []) (c : Nat) (rs : List (Nat × Nat × Nat)) : checkSram s c rs = (s, false) := by
  induction rs with
  | nil => rfl
  | cons r rs ih =>
    have hr : sramReadCheck s r.1 c r.2.1 r.2.2 = (s, false) := by unfold sramReadCheck; rw [h, List.foldl_nil]
    unfold checkSram at ih ⊢
    rw [List.foldl_cons]
    dsimp only
    rw [hr]
    exact ih

theorem readOnce_sound {s : State} (h : s.mem.sramRaw = []) (kind c first n : Nat) : readOnce s kind c first n = (s, false) := checkSram_sound h c _

theorem modeCheck_sound {s : State} (h : s.mem.sramRaw = []) (c : Nat) (m : ModeSrc) : modeCheck s c m = (s, false) := by
  cases m with
  | store i => exact readOnce_sound h _ _ _ _
  | reg r => rfl

theorem inSkip_core (s : State) (c : Nat) : (s.core c).inSkip = Skipping s c := rfl

/-! ### A core with nothing outstanding -/

section
variable {x : CoreS} (h : x.passes = [])
include h

theorem unitFull_idle (unit : Nat) : unitFull x unit = false := by
  rw [unitFull, h]
  rfl

theorem held_idle (unit : Nat) (reads dests : List (Nat × Nat × Nat)) : held x unit reads dests = false := by
  rw [held, h]
  rfl

theorem unitView_idle (unit : Nat) : unitView x unit = x := by
  rw [unitView, h]
  rfl

end

/-! ### The core goes on -/

section
variable (x : CoreS) (id : Nat) (p : PostField)

@[simp] theorem CoreS.advance_pc : x.advance.pc = x.pc + 1 := rfl
@[simp] theorem CoreS.advance_regs : x.advance.regs = x.regs := rfl
@[simp] theorem CoreS.advance_clm : x.advance.clm = x.clm := rfl
@[simp] theorem CoreS.advance_acc : x.advance.acc = x.acc := rfl
@[simp] theorem CoreS.advance_wide : x.advance.wide = x.wide := rfl
@[simp] theorem CoreS.advance_passes : x.advance.passes = x.passes := rfl
@[simp] theorem CoreS.advance_posts : x.advance.posts = x.posts := rfl
@[simp] theorem CoreS.advance_fromPass : x.advance.fromPass = x.fromPass := rfl
@[simp] theorem CoreS.advance_lastMode : x.advance.lastMode = x.lastMode := rfl
@[simp] theorem CoreS.advance_prevMode : x.advance.prevMode = x.prevMode := rfl

theorem CoreS.addPost_eq : x.addPost id p = { x with posts := x.posts ++ p.toList.map fun k => (id, k) } := by
  cases p with
  | none => simp [CoreS.addPost]
  | some k => rfl

@[simp] theorem CoreS.addPost_pc : (x.addPost id p).pc = x.pc := by rw [x.addPost_eq]
@[simp] theorem CoreS.addPost_regs : (x.addPost id p).regs = x.regs := by rw [x.addPost_eq]
@[simp] theorem CoreS.addPost_clm : (x.addPost id p).clm = x.clm := by rw [x.addPost_eq]
@[simp] theorem CoreS.addPost_acc : (x.addPost id p).acc = x.acc := by rw [x.addPost_eq]
@[simp] theorem CoreS.addPost_wide : (x.addPost id p).wide = x.wide := by rw [x.addPost_eq]
@[simp] theorem CoreS.addPost_passes : (x.addPost id p).passes = x.passes := by rw [x.addPost_eq]
@[simp] theorem CoreS.addPost_posts : (x.addPost id p).posts = x.posts ++ p.toList.map fun k => (id, k) := by rw [x.addPost_eq]
@[simp] theorem CoreS.addPost_fromPass : (x.addPost id p).fromPass = x.fromPass := by rw [x.addPost_eq]
@[simp] theorem CoreS.addPost_lastMode : (x.addPost id p).lastMode = x.lastMode := by rw [x.addPost_eq]
@[simp] theorem CoreS.addPost_prevMode : (x.addPost id p).prevMode = x.prevMode := by rw [x.addPost_eq]

end

/-- An instruction that does nothing in skip mode only goes on (R127). -/
theorem skipGo_goes (s : State) (c : Nat) (x : CoreS) (p : PostField) :
    ∃ t, skipGo s c x p = .next t ∧ (t.core c).pc = x.pc + 1 ∧ (t.core c).passes = x.passes := by
  refine ⟨_, rfl, ?_, ?_⟩
  · rw [State.core_setCore, if_pos rfl, CoreS.advance_pc, CoreS.addPost_pc]
  · rw [State.core_setCore, if_pos rfl, CoreS.advance_passes, CoreS.addPost_passes]

end Sys2Proof.Machine
end

section
/-!
SUPPORT. The row unit: the pass that an RFUNC queues once nothing halts or holds it (R95, R96, R119), and the way of each group of functions to it.
-/
namespace Sys2Proof.Machine
open Sys2Proof

/-! ### What a pass of the row unit writes -/

/-- What is narrowed of a result is its value; the exact value only decides the class that is counted. -/
theorem rvNarrow_fst (f : EFmt) (r : RV) : (rvNarrow f r).1 = (narrow f .rne r.val).1 := rfl

theorem outputs_clm (j : RowJob) (rows : List (List RV)) : (outputs j rows).1 = if j.f.dstAcc then [] else
    (rows.map fun r => r.map RV.val).zipIdx.flatMap fun r =>
      placeClm j r.2 (r.1.flatMap fun v => le (outSize j.f) (narrow (outFmtOf j.f) .rne v).1) := by
  simp only [outputs, List.zipIdx_map, List.flatMap_map, Prod.map_fst, Prod.map_snd, id_eq, rvNarrow_fst]

theorem outputs_acc (j : RowJob) (rows : List (List RV)) : (outputs j rows).2.1 = if j.f.dstAcc then
    (rows.map fun r => r.map RV.val).zipIdx.flatMap fun r =>
      placeAcc j r.2 (r.1.map fun v => toF32 (decF (outFmtOf j.f) (narrow (outFmtOf j.f) .rne v).1)) else [] := by
  simp only [outputs, List.zipIdx_map, List.flatMap_map, List.map_map, Function.comp_def, Prod.map_fst, Prod.map_snd, id_eq, rvNarrow_fst]

/-! ### The common course -/

theorem rowInput_eq (x : CoreS) (j : RowJob) :
    (if j.len = 0 ∧ !decide (j.op = 0x0D ∨ j.op = 0x0E) then [] else inputRows x j) = rowInput x j := by
  unfold rowInput
  simp only [Bool.not_eq_true', decide_eq_false_iff_not]

/-- An RFUNC that nothing halts or holds queues the pass of its function. -/
theorem rowUnit_queues {s : State} {c : Nat} {j : RowJob} {whole : Bool} {g : RowFn} (h : RowReady s c j whole g.clm g.acc g.extra g.out g.stores) :
    let x := s.core c
    ∃ t, rowUnit s c x j whole g = .next t ∧
      RowQueued s t c j ((g.rows x (rowInput x j)).map fun r => r.map RV.val) (g.writes x (rowInput x j)) := by
  obtain ⟨hroom, hlength, htiles, holdest, hinside, hfree, hsound⟩ := h
  have hlong : ¬ (whole = true ∧ 65536 < j.len) := fun hw => absurd (hlength hw.1) (by omega)
  have htile : ¬ (j.f.accTiled = true ∧ (!j.f.fromPass) = true ∧
      ¬ (1 ≤ j.len ∧ j.len ≤ 512 ∧ 1 ≤ j.rows ∧ j.rows ≤ 128 ∧ j.src + j.tiles * j.rows ≤ 512)) :=
    fun ht => ht.2.2 (htiles ht.1 (by simpa using ht.2.1))
  dsimp only
  unfold rowUnit
  dsimp only
  rw [hroom, if_neg Bool.false_ne_true, if_neg hlong, if_neg htile, holdest, hinside, hfree, afterCheck_of_sound hsound]
  simp only [Bool.not_true, Bool.false_eq_true, if_false, core_of_accounts (checkSram_accounts ..), rowInput_eq]
  refine ⟨_, rfl, ?_⟩
  unfold RowQueued
  dsimp only
  rw [State.core_setCore, if_pos rfl]
  refine ⟨_, by rw [CoreS.advance_passes, CoreS.addPost_passes], ?_⟩
  simp [outputs_clm, outputs_acc]

/-- The same, for the values and the writes beside them as a statement writes them. -/
theorem rowUnit_gives {s : State} {c : Nat} {j : RowJob} {whole : Bool} {g : RowFn} {values : List (List FNum)} {more : List (Nat × List Byte)}
    (h : RowReady s c j whole g.clm g.acc g.extra g.out g.stores)
    (hvalues : (g.rows (s.core c) (rowInput (s.core c) j)).map (fun r => r.map RV.val) = values)
    (hmore : g.writes (s.core c) (rowInput (s.core c) j) = more) :
    ∃ t, rowUnit s c (s.core c) j whole g = .next t ∧ RowQueued s t c j values more := by
  subst hvalues hmore
  exact rowUnit_queues h

/-- An RFUNC of valid fields that issues outside skip mode is taken up by its function. -/
theorem rfunc_runs {s : State} {c : Core} {op : Nat} {f : RFuncF} (hok : rfOk op f = true) (hi : Issuing s c.val (rfuncWord op f))
    (hs : Skipping s c.val = false) (g : State → CoreS → RowJob → Out) :
    rfunc s c op f g = g s (s.core c.val) (rowJob (s.core c.val) op f) := by
  unfold rfunc
  rw [hok, issue_of_issuing hi, inSkip_core, hs]
  rfl

/-! ### Reductions, the attention block, norms -/

/-- ROWMAX and ROWSUM outside POOL mode: with a flag set the convolution block is not read; else it is, and its mode is OFF or CONV. -/
theorem reduceOp_runs {s : State} {c : Nat} {j : RowJob}
    (h : (j.f.srcAcc || j.f.dstAcc || j.f.accTiled || j.f.fromPass) = true ∨
      (held (s.core c) 2 (clmUnits convBlockAt 64) [] = false ∧ cvMode (s.core c).conv ≤ 1 ∧ readOnce s 2 c convBlockAt 64 = (s, false))) (g : RowFn) :
    reduceOp s c (s.core c) j g = rowUnit s c (s.core c) j true g := by
  unfold reduceOp
  by_cases hflag : (j.f.srcAcc || j.f.dstAcc || j.f.accTiled || j.f.fromPass) = true
  · simp [poolable, hflag]
  · obtain ⟨hheld, hmode, hread⟩ := h.resolve_left hflag
    have hpool : poolable j.f = true := by simpa [poolable] using hflag
    have hsound : (readOnce s 2 c convBlockAt 64).2 = false := by rw [hread]
    have hvalid : ¬ 3 ≤ cvMode (s.core c).conv := by omega
    have hnot : cvMode (s.core c).conv ≠ 2 := by omega
    rw [afterCheck_of_sound hsound, hread]
    simp only [hheld, hpool, hvalid, hnot, Bool.not_true, Bool.false_eq_true, and_false, if_false]

/-- With the attention block OFF the plain function is the one that runs. -/
theorem inPhase_off {s : State} {c : Nat} {j : RowJob} {mine : List Nat} (hheld : held (s.core c) 2 (clmUnits attnAt 64) [] = false)
    (hphase : atPhase (s.core c).attn = 0) (hread : readOnce s 2 c attnAt 64 = (s, false)) (f : State → List Byte → Out) :
    inPhase s c (s.core c) j 0 mine f = f s (s.core c).attn := by
  have hsound : (readOnce s 2 c attnAt 64).2 = false := by rw [hread]
  unfold inPhase
  rw [hheld, if_neg Bool.false_ne_true, afterCheck_of_sound hsound, hread]
  dsimp only
  rw [if_pos hphase, if_pos rfl]

end Sys2Proof.Machine
end

section
/-!
Reductions and composed row functions (O8): what each function's rows are, and the pass that it queues.
-/
namespace Sys2Proof.Machine
open Sys2Proof

/-! ### The values of the rows -/

theorem rvOf_val (args : List W32) (zero : Bool) (v : W32) : (rvOf args zero v).val = ofF32 v := by
  unfold rvOf
  split <;> rfl

theorem rvSum_val (r : List W32) : (rvSum r).val = ofF32 (rowSum r) := rvOf_val ..

@[simp] theorem rv32_val (v : W32) : (rv32 v).val = ofF32 v := rfl

/-- A reduction gives one value for each row, that of an empty row being given. -/
theorem reduceFn_values (j : RowJob) (onEmpty : RV) (h : List W32 → RV) (x : CoreS) (rows : List (List W32)) :
    ((reduceFn j onEmpty h).rows x rows).map (fun r => r.map RV.val) = rows.map fun r => [if r = [] then onEmpty.val else (h r).val] := by
  simp only [reduceFn, List.map_map, Function.comp_def, List.map_cons, List.map_nil, apply_ite RV.val]

/-! ### The functions -/

section
variable {s : State} {c : Core} {f : RFuncF}

/-- A reduction outside POOL mode queues the pass of its values. -/
theorem reduceOp_queues {j : RowJob} {onEmpty : RV} {h : List W32 → RV}
    (hpool : (j.f.srcAcc || j.f.dstAcc || j.f.accTiled || j.f.fromPass) = true ∨
      (held (s.core c.val) 2 (clmUnits convBlockAt 64) [] = false ∧ cvMode (s.core c.val).conv ≤ 1 ∧ readOnce s 2 c.val convBlockAt 64 = (s, false)))
    (hready : RowReady s c.val j true [] [] [] 1) :
    ∃ t, reduceOp s c.val (s.core c.val) j (reduceFn j onEmpty h) = .next t ∧
      RowQueued s t c.val j ((rowInput (s.core c.val) j).map fun r => [if r = [] then onEmpty.val else (h r).val]) [] := by
  rw [reduceOp_runs hpool]
  exact rowUnit_gives hready (reduceFn_values ..) rfl

theorem softmax_queues (hok : rfOk 0x0F f = true) (hi : Issuing s c.val (rfuncWord 0x0F f)) (hs : Skipping s c.val = false)
    (hheld : held (s.core c.val) 2 (clmUnits attnAt 64) [] = false) (hphase : atPhase (s.core c.val).attn = 0)
    (hread : readOnce s 2 c.val attnAt 64 = (s, false)) (hready : RowReady s c.val (rowJob (s.core c.val) 0x0F f) true [] [] []
      (rowJob (s.core c.val) 0x0F f).len) :
    ∃ t, exec (.softmax c f) s = .next t ∧ RowQueued s t c.val (rowJob (s.core c.val) 0x0F f)
      ((rowInput (s.core c.val) (rowJob (s.core c.val) 0x0F f)).map fun r => (softmaxRow r).map RV.val) [] := by
  change ∃ t, execSoftmax c f s = .next t ∧ _
  rw [execSoftmax, rfunc_runs hok hi hs, inPhase_off hheld hphase hread]
  exact rowUnit_gives hready (List.map_map ..) rfl

theorem softmaxd_queues (hok : rfOk 0x10 f = true) (hi : Issuing s c.val (rfuncWord 0x10 f)) (hs : Skipping s c.val = false)
    (hheld : held (s.core c.val) 2 (clmUnits attnAt 64) [] = false) (hphase : atPhase (s.core c.val).attn = 0)
    (hread : readOnce s 2 c.val attnAt 64 = (s, false)) :
    let j := rowJob (s.core c.val) 0x10 f
    RowReady s c.val j false (if j.len = 0 ∨ j.rows = 0 then [] else clmRows j.pv.toNat j.rows (4 * j.len)) [] [] j.len →
    ∃ t, exec (.softmaxd c f) s = .next t ∧ RowQueued s t c.val j
      ((rowInput (s.core c.val) j).zipIdx.map fun r => (softmaxdRow r.1 (secondRow (s.core c.val) j r.2)).map RV.val) [] := by
  intro j hready
  have hclm : (if j.len = 0 ∨ j.rows = 0 then [] else clmRows j.pv.toNat j.rows (4 * j.len)) =
      if j.empty = true then [] else clmRows j.pv.toNat j.rows (4 * j.len) := by simp [RowJob.empty]
  rw [hclm] at hready
  change ∃ t, execSoftmaxd c f s = .next t ∧ _
  rw [execSoftmaxd, rfunc_runs hok hi hs, inPhase_off hheld hphase hread]
  exact rowUnit_gives hready (List.map_map ..) rfl

/-- LNORM and RMSNORM with a register for γ and β read their vectors there and queue the rows normalised. -/
theorem normFn_queues {j : RowJob} {words sweeps : Nat} {h : W32 → W32 → List W32 → List W32 → List W32 → List RV} :
    let x := s.core c.val
    let g := (x.regs.getD (j.f.p.val + 1) 0).toNat
    RowReady s c.val j true (if j.len = 0 ∨ j.rows = 0 then [] else [(g, 1, 4 * words * j.len)]) [] [] j.len →
    ∃ t, rowUnit s c.val x j true (normFn x j words sweeps h) = .next t ∧ RowQueued s t c.val j
      ((rowInput x j).map fun r => (h (j.pv.setWidth 32) ((j.pv >>> 32).setWidth 32) (x.words g j.len)
        (if words = 2 then x.words (g + 4 * j.len) j.len else []) r).map RV.val) [] := by
  intro x g hready
  have hclm : (normFn x j words sweeps h).clm = if j.len = 0 ∨ j.rows = 0 then [] else [(g, 1, 4 * words * j.len)] := by
    simp [normFn, RowJob.empty, g]
  rw [← hclm] at hready
  exact rowUnit_gives hready (List.map_map ..) rfl

end

/-- Settles O8: each function is taken up past its checks, and the row unit's pass carries the values of its rows. -/
theorem reductionsAndNorms : Obligations.ReductionsAndNorms := by
  unfold Obligations.ReductionsAndNorms
  intro s c f
  dsimp only
  refine ⟨fun ⟨hok, hi, hs⟩ hpool hready => ?_, fun ⟨hok, hi, hs⟩ hpool hready => ?_,
    fun ⟨hok, hi, hs⟩ ⟨hheld, hphase, hread⟩ hready => softmax_queues hok hi hs hheld hphase hread hready,
    fun ⟨hok, hi, hs⟩ ⟨hheld, hphase, hread⟩ hready => softmaxd_queues hok hi hs hheld hphase hread hready,
    fun ⟨hok, hi, hs⟩ hp hready => ?_, fun ⟨hok, hi, hs⟩ hp hready => ?_⟩
  · change ∃ t, execRowmax c f s = .next t ∧ _
    rw [execRowmax, rfunc_runs hok hi hs]
    exact reduceOp_queues hpool hready
  · change ∃ t, execRowsum c f s = .next t ∧ _
    rw [execRowsum, rfunc_runs hok hi hs]
    simpa only [rvSum_val, rv32_val] using reduceOp_queues (onEmpty := rv32 0) (h := rvSum) hpool hready
  · change ∃ t, execLnorm c f s = .next t ∧ _
    rw [execLnorm, rfunc_runs hok hi hs, if_neg (Nat.ne_of_lt hp)]
    exact normFn_queues (words := 2) hready
  · change ∃ t, execRmsnorm c f s = .next t ∧ _
    rw [execRmsnorm, rfunc_runs hok hi hs, if_neg (Nat.ne_of_lt hp)]
    exact normFn_queues (words := 1) hready

end Sys2Proof.Machine
end

section
/-!
Elementwise functions (O7): ACTD with a loaded table rounds its product to FP32 before it is narrowed to the output format, so that a product just above
the middle of two BF16 values comes out at the lower one.
-/
namespace Sys2Proof.Machine
open Sys2Proof

/-- A loaded table (Table 8-1) with a derivative part, that begins at 1.0 and gives 1 + 32,767 · 2^−23 for every smaller input. -/
def flatTable : List Byte := le 4 0x0100 ++ le 4 0x3F800000 ++ le 4 0 ++ le 4 0x3F807FFF

/-- ACTD with table 3 from core-local memory to BF16. -/
def bf16Actd : RFuncF :=
  { srcAcc := false, dstAcc := false, accTiled := false, fromPass := false, src := 1, dst := 2, len := 3, rows := 4, p := 5, pad := 0, post := none,
    param := 0x13, outFmt := 1 }

/-- A core about to issue it for one element: dy = 1 + 2^−23, and the saved x = 0. -/
def actdCore : CoreS :=
  { CoreS.reset with
    status := 2, program := [rfuncWord 0x0C bf16Actd], regs := [0, 0, 0x1000, 1, 1, 0x800] ++ List.replicate 10 0
    acts := [(3, flatTable)], clm := swrite 0 [] 0 (le 4 0x3F800001) }

/-- A module in RUN with this core. -/
def actdState : State := { State.reset with ctl := { State.reset.ctl with dev := .run }, cores := [(0, actdCore)] }

theorem actdState_issuing : Issuing actdState 0 (rfuncWord 0x0C bf16Actd) where
  running := rfl
  noDrain := rfl
  status := rfl
  free := rfl
  inside := Nat.zero_lt_one
  here := rfl
  code := readOnce_sound rfl ..

theorem actdState_ready :
    RowReady actdState 0 (rowJob actdCore 0x0C bf16Actd) false (clmRows 0x800 1 4) [] [] 1 [(storeActs 3, 32), (storeActs 3 + 4128, 4096)] where
  room := rfl
  length := fun h => absurd h Bool.false_ne_true
  tiles := fun h => absurd h Bool.false_ne_true
  oldest := rfl
  inside := by decide +kernel
  free := held_idle rfl ..
  sound := by rw [checkSram_sound rfl]

/-- What the passes of core 0 will write to core-local memory. -/
def clmAfter (o : Out) : Option (List (Nat × List Byte)) :=
  match o with
  | .next s => some ((s.core 0).passes.flatMap Pass.clm)
  | _ => none

/-- The model's pass writes the BF16 value 1. -/
theorem actdState_writes : clmAfter (exec (.actd 0 bf16Actd) actdState) = some [(0x1000, [0x80, 0x3F])] := by decide +kernel

/-- The element of the statement: dy times the table's derivative, exactly. -/
def actdProduct : FNum := (ofF32 0x3F800001).mul (ofF32 (toF32 (tableVal flatTable 4128 0).val))

/-- Narrowed once, as the statement says, it is the BF16 value 1 + 2^−7. -/
theorem actdProduct_narrowed : (narrow .bf16 .rne actdProduct).1 = 0x3F81 := by decide +kernel

/-- The rows that the statement gives for this instruction. -/
theorem actdState_rows : ((rowInput actdCore (rowJob actdCore 0x0C bf16Actd)).zipIdx.map fun r =>
    (r.1.zip (secondRow actdCore (rowJob actdCore 0x0C bf16Actd) r.2)).map fun v =>
      (ofF32 v.1).mul (ofF32 (toF32 (tableVal (actTable actdCore 0x13) 4128 v.2).val))) = [[actdProduct]] := by decide +kernel

/-- Refutes O7, in its clause on ACTD with a loaded table: a product just above 1 + 2^−8, narrowed once to BF16, is 1 + 2^−7, and the pass writes 1. -/
theorem not_elementwiseFunctions : ¬ Obligations.ElementwiseFunctions := by
  unfold Obligations.ElementwiseFunctions
  intro h
  have hclauses := h actdState 0 bf16Actd
  dsimp only at hclauses
  obtain ⟨-, -, -, -, -, -, -, -, -, -, -, -, -, htable, -⟩ := hclauses
  obtain ⟨t, he, hq⟩ := htable (by decide) (by decide +kernel) (by decide) (by decide +kernel) actdState_issuing rfl actdState_ready
  have hqueued : RowQueued actdState t 0 (rowJob actdCore 0x0C bf16Actd) [[actdProduct]] [] := by
    rw [← actdState_rows]
    exact hq
  obtain ⟨q, hpasses, -, -, -, -, -, -, -, -, -, hclm, -⟩ := hqueued
  have hwrites : q.clm = [(0x1000, [0x80, 0x3F])] := by
    have hmodel := actdState_writes
    rw [he] at hmodel
    change some ((t.core 0).passes.flatMap Pass.clm) = _ at hmodel
    rw [show (t.core 0).passes = [q] from hpasses] at hmodel
    simpa using hmodel
  have hstated : q.clm = [(0x1000, le 2 0x3F81)] := by
    simpa [rowJob, bf16Actd, placeClm, outFmtOf, outSize, actdProduct_narrowed, show (actdCore.reg 2).toNat = 0x1000 from rfl] using hclm
  exact absurd (hwrites.symm.trans hstated) (by decide)

end Sys2Proof.Machine
end

section
/-!
SUPPORT. Passes of the array and of the matrix-vector unit: what a pass leaves as it was when it is queued, what it writes, and its skipped form
(R80, R84 to R88, R95, R127).
-/
namespace Sys2Proof.Machine
open Sys2Proof

/-! ### A pass joins its unit -/

theorem PassQueued.imp {s t : State} {c unit : Nat} {post : PostField} {P Q : Pass → Prop} (h : PassQueued s t c unit post P) (hPQ : ∀ q, P q → Q q) :
    PassQueued s t c unit post Q := by
  obtain ⟨q, hpasses, hid, hunit, hpost, hclm, hpc, hregs, hmem, hacc, hwide, hposts, hP⟩ := h
  exact ⟨q, hpasses, hid, hunit, hpost, hclm, hpc, hregs, hmem, hacc, hwide, hposts, hPQ q hP⟩

/-- What a core's passes and the instruction after them start from: all that a pass may not change as it is queued. -/
def CoreS.besideOperands (x : CoreS) : (List Pass × Nat × Nat × List (Nat × Sem)) × List W64 × SMap Byte × SMap W32 × SMap W32 :=
  ((x.passes, x.nextId, x.pc, x.posts), x.regs, x.clm, x.acc, x.wide)

/-- A pass of core contents that differ in operands alone is queued behind the core's passes. -/
theorem queuePass_queued {s u : State} {c : Nat} {x : CoreS} (hx : x.besideOperands = (s.core c).besideOperands) (unit : Nat)
    (writes : List (Nat × Nat × List W32)) (reads dests : List (Nat × Nat × Nat)) (busy : Nat) (p : PostField) (skipped : Bool) :
    PassQueued s (queuePass u c x unit writes reads dests busy p skipped) c unit p fun q => q.writes = writes := by
  simp only [CoreS.besideOperands, Prod.mk.injEq] at hx
  obtain ⟨⟨hpasses, hid, hpc, hposts⟩, hregs, hclm, hacc, hwide⟩ := hx
  unfold PassQueued queuePass
  dsimp only
  rw [State.core_setCore, if_pos rfl]
  refine ⟨_, by rw [CoreS.advance_passes, CoreS.addPost_passes, hpasses], hid, rfl, rfl, rfl, ?_, ?_, ?_, ?_, ?_, ?_, rfl⟩
  · rw [CoreS.advance_pc, CoreS.addPost_pc, hpc]
  · rw [CoreS.advance_regs, CoreS.addPost_regs, hregs]
  · rw [CoreS.advance_clm, CoreS.addPost_clm, hclm]
  · rw [CoreS.advance_acc, CoreS.addPost_acc, hacc]
  · rw [CoreS.advance_wide, CoreS.addPost_wide, hwide]
  · rw [CoreS.advance_posts, CoreS.addPost_posts, hposts]
    cases p <;> rfl

theorem queuePass_ent (s : State) (c : Nat) (x : CoreS) (unit : Nat) (writes : List (Nat × Nat × List W32)) (reads dests : List (Nat × Nat × Nat))
    (busy : Nat) (p : PostField) (skipped : Bool) (i j : Nat) : (queuePass s c x unit writes reads dests busy p skipped).ent i j = s.ent i j := rfl

theorem queuePass_modes (s : State) (c : Nat) (x : CoreS) (unit : Nat) (writes : List (Nat × Nat × List W32)) (reads dests : List (Nat × Nat × Nat))
    (busy : Nat) (p : PostField) (skipped : Bool) : ((queuePass s c x unit writes reads dests busy p skipped).core c).lastMode = x.lastMode ∧
      ((queuePass s c x unit writes reads dests busy p skipped).core c).prevMode = x.prevMode := by
  unfold queuePass
  rw [State.core_setCore, if_pos rfl]
  simp

/-! ### Destination rows -/

theorem length_destRows (x : CoreS) (w : W64) (rows : List (List W32)) : (destRows x w rows).length = rows.length := by simp [destRows]

/-- An overwriting accumulator destination takes the rows as they are, one behind the other from its base. -/
theorem destRows_overwriting {w : W64} (h : mwDest w = 0) (x : CoreS) (m : Nat) (g : Nat → List W32) :
    destRows x w ((List.range m).map g) = (List.range m).map fun r => (2, (mwBase w + r) * 128, g r) := by
  unfold destRows
  rw [h]
  apply List.ext_getElem (by simp)
  intro r _ _
  simp

/-! ### Skip mode (Table 4-5) -/

section
variable {s : State} {c : Nat} {w : W64} {unit rows : Nat} {keep : Bool}

/-- The core after an array pass in skip mode, or the core as it is. -/
def CoreS.noteSkipped (x : CoreS) (w : W64) (unit : Nat) : CoreS := if unit = 0 then { x with prevMode := some w } else x

theorem CoreS.noteSkipped_besideOperands (x : CoreS) (w : W64) (unit : Nat) : (x.noteSkipped w unit).besideOperands = x.besideOperands := by
  unfold CoreS.noteSkipped
  split <;> rfl

/-- A skipped pass with an overwriting accumulator destination queues +0 for its rows. -/
theorem skipPass_queues (hd : mwDest w = 0) (hf : mwFieldsOk w unit = true) (hr : mwRowsOk w rows = true)
    (hk : keptOk (s.core c).prevMode keep w = true) (hm : rows ≠ 0) (hidle : (s.core c).passes = []) (p : PostField) :
    ∃ t, skipPass s c (s.core c) w unit rows keep p = .next t ∧ PassQueued s t c unit p fun q =>
      q.writes = (List.range rows).map fun r => (2, (mwBase w + r) * 128, List.replicate (mwN w) 0) := by
  unfold skipPass
  rw [if_pos ⟨hd, hf, hr, hk, hm⟩, unitFull_idle hidle, held_idle hidle, if_neg (by simp)]
  exact ⟨_, rfl, queuePass_queued ((s.core c).noteSkipped_besideOperands w unit) ..⟩

/-- Any other skipped pass only goes on. -/
theorem skipPass_goes (h : mwDest w ≠ 0 ∨ rows = 0 ∨ keptOk (s.core c).prevMode keep w = false) (p : PostField) :
    ∃ t, skipPass s c (s.core c) w unit rows keep p = .next t ∧ (t.core c).pc = (s.core c).pc + 1 ∧ (t.core c).passes = (s.core c).passes := by
  have hnot : ¬ (mwDest w = 0 ∧ mwFieldsOk w unit = true ∧ mwRowsOk w rows = true ∧ keptOk (s.core c).prevMode keep w = true ∧ rows ≠ 0) := by
    rintro ⟨hd, -, -, hk, hm⟩
    rcases h with h | h | h
    · exact h hd
    · exact hm h
    · rw [h] at hk
      exact Bool.false_ne_true hk
  have hsame := (s.core c).noteSkipped_besideOperands w unit
  simp only [CoreS.besideOperands, Prod.mk.injEq] at hsame
  obtain ⟨⟨hpasses, -, hpc, -⟩, -⟩ := hsame
  obtain ⟨t, he, htpc, htpasses⟩ := skipGo_goes s c ((s.core c).noteSkipped w unit) p
  unfold skipPass
  rw [if_neg hnot]
  exact ⟨t, he, htpc.trans (congrArg (· + 1) hpc), htpasses.trans hpasses⟩

end

end Sys2Proof.Machine
end

section
/-!
SUPPORT. The array (O12, O13): the pass that an APASS or a CONV pass queues once its mode word, operands and ranges are right, and its words in BF16
(R76 to R90, R298 to R305).
-/
namespace Sys2Proof.Machine
open Sys2Proof

/-! ### Sums in BF16 -/

/-- The balanced tree over the 128 lanes, those at and beyond k giving +0 (R80, R88). -/
def laneTree (k : Nat) (p : Nat → W32) : W32 := (treeUp 7 ((List.range 128).map fun i => if i < k then p i else 0)).headD 0

theorem columnRoot_bf16 (k : Nat) (p half : Nat → W32) (mx : Nat → Byte × Byte) : columnRoot 1 k p half mx = laneTree k p := by
  simp [columnRoot, laneTree, laneSum, density]

theorem laneTree_congr {k : Nat} {p q : Nat → W32} (h : ∀ i, i < k → p i = q i) : laneTree k p = laneTree k q := by
  unfold laneTree
  congr 2
  refine List.map_congr_left fun i _ => ?_
  split
  · exact h i ‹_›
  · rfl

/-! ### The stationary operand -/

/-- The core once the pass's stationary operand is active: a kept one stays, another is loaded from core-local memory (R84 to R87). -/
def operandCore (x : CoreS) (f : APassF) (w : W64) : CoreS :=
  let wa := (x.reg f.w).toNat
  let loaded := (List.range (ceilDiv (mwK w) (density (mwFormat w)))).flatMap fun l => x.clmBytes (wa + 256 * l) 256
  if f.keep then x else { x with
    shadow := swrite 0 x.shadow 0 loaded
    active := swrite 0 x.active 0 loaded
    activeScales := if decide (mwFormat w = 5 ∨ mwFormat w = 6) then
      (List.range (ceilDiv (mwK w) (density (mwFormat w)))).flatMap fun l => x.clmBytes (0x3C0000 + (wa + 256 * l) / 16) (mxBytes (mwFormat w)) else [] }

/-- Lane row k of the operand of a pass. -/
def operandRow (x : CoreS) (f : APassF) (k : Nat) : List Byte :=
  if f.keep then sread 0 x.active (256 * k) 256 else x.clmBytes ((x.reg f.w).toNat + 256 * k) 256

theorem length_clmBytes (x : CoreS) (a n : Nat) : (x.clmBytes a n).length = n := by simp [CoreS.clmBytes, sread]

/-- A lane row that was loaded is latched as it lay in memory. -/
theorem latch_loaded (m : SMap Byte) (g : Nat → List Byte) (hg : ∀ l, (g l).length = 256) {h k : Nat} (hk : k < h) :
    latch (swrite 0 m 0 ((List.range h).flatMap g)) k = g k := by
  have hdrop : ((List.range h).flatMap g).drop (256 * k) = g k ++ ((List.range h).drop (k + 1)).flatMap g := by
    rw [drop_flatMap_of_length g hg, List.drop_eq_getElem_cons (by simpa using hk), List.getElem_range, List.flatMap_cons]
  have hlen : ((List.range h).flatMap g).length = h * 256 := by simp [List.length_flatMap, hg]
  apply List.ext_getElem (by simp [latch, sread, hg])
  intro i hi hi'
  have hi256 : i < 256 := hg k ▸ hi'
  simp only [latch, sread, List.getElem_map, List.getElem_range]
  rw [sget_swrite, if_pos ⟨Nat.zero_le _, by omega⟩, Nat.sub_zero]
  have hget : ((List.range h).flatMap g).getD (256 * k + i) 0 = (g k ++ ((List.range h).drop (k + 1)).flatMap g).getD i 0 := by
    rw [← hdrop, List.getD_eq_getElem?_getD, List.getD_eq_getElem?_getD, List.getElem?_drop]
  rw [Nat.mul_comm k 256, hget, List.getD_eq_getElem?_getD, List.getElem?_append_left hi', List.getElem?_eq_getElem hi', Option.getD_some]

/-- In BF16 the stationary element (k, n) is element n of lane row k. -/
theorem statVal_bf16 (x : CoreS) (f : APassF) {w : W64} (hf : mwFormat w = 1) {k : Nat} (hk : k < mwK w) (n : Nat) :
    statVal (operandCore x f w) w k n = decF .bf16 (field (operandRow x f k) (2 * n) 2) := by
  have hlanes : ceilDiv (mwK w) (density (mwFormat w)) = mwK w := by simp [hf, density, ceilDiv]
  have hrow : latch (operandCore x f w).active k = operandRow x f k := by
    unfold operandCore operandRow
    dsimp only
    split
    · rw [latch, Nat.mul_comm]
    · rw [hlanes]
      exact latch_loaded _ _ (fun l => length_clmBytes ..) hk
  simp [statVal, elemVal, hf, density, Nat.mod_one, hrow]

/-! ### The streamed operand -/

/-- The address of streamed row r: from the gather list, or rows of 256 bytes one behind the other (R90). -/
abbrev rowAddress (x : CoreS) (f : APassF) (gather : Bool) (r : Nat) : Nat :=
  if gather then (x.word ((x.reg f.x).toNat + 4 * r)).toNat else (x.reg f.x).toNat + 256 * r

/-! ### The pass -/

/-- Where operands may lie: MX operands lie below the scale bytes (R225). -/
def operandLimit (w : W64) : Nat := if decide (mwFormat w = 5 ∨ mwFormat w = 6) then 0x3C0000 else clmSize

theorem operandLimit_eq (w : W64) : operandLimit w = if mwFormat w = 5 ∨ mwFormat w = 6 then 0x3C0000 else 0x400000 :=
  if_congr decide_eq_true_iff rfl rfl

/-- The operands, ranges and destination of a pass of m rows under mode word w are right (R87, R90, R93, R118, R121, R301). -/
structure ArrayReady (x : CoreS) (f : APassF) (w : W64) (m : Nat) (gather conv : Bool) : Prop where
  fields : mwFieldsOk w 0 = true
  rows : mwRowsOk w m = true
  kept : keptOk x.lastMode f.keep w = true
  window : conv = true → convFail x.conv m (if mwFormat w ≤ 2 then 2 else 1) false
    (decide (1 ≤ mwFormat w ∧ mwFormat w ≤ 4) && decide (mwDest w ≠ 3)) (mwK w) = none
  list : gather = true → conv = false → m = 0 ∨ (x.reg f.x).toNat + 4 * m ≤ clmSize
  gathered : gather = true → conv = false → ∀ r, r < m → rowAddress x f true r % 256 = 0 ∧ rowAddress x f true r + 256 ≤ operandLimit w
  direct : gather = false → conv = false →
    m = 0 ∨ ((x.reg f.x).toNat + 256 * m ≤ operandLimit w ∧ (mwFormat w = 5 ∨ mwFormat w = 6 → (x.reg f.x).toNat % 256 = 0))
  stationary : f.keep = false → (x.reg f.w).toNat + 256 * ceilDiv (mwK w) (density (mwFormat w)) ≤ operandLimit w ∧
    (mwFormat w = 5 ∨ mwFormat w = 6 → (x.reg f.w).toNat % 256 = 0)
  scales : scaleBytesRead w m = 0 ∨ (x.reg f.c).toNat + scaleBytesRead w m ≤ clmSize

/-- What a pass of m rows under mode word w streams, once its stationary operand is active. -/
def streamOf (x : CoreS) (f : APassF) (w : W64) (m : Nat) (gather conv : Bool) : Streamed :=
  if conv then convStream (operandCore x f w) x.conv w m else
    { val := fun r k => elemVal (mwFormat w) (mwStreamKind w) ((operandCore x f w).clmBytes (rowAddress x f gather r) 256) k
      idle := fun _ => false
      row := rowAddress x f gather }

/-- The state after the correction of the pass is formed, and the correction. -/
def fixOf (s : State) (x : CoreS) (f : APassF) (w : W64) (m : Nat) (gather conv : Bool) : State × (Nat → Option W32) :=
  if conv then convFix s (operandCore x f w) x.conv w (x.reg f.c).toNat m (streamOf x f w m gather conv) else (s, fun _ => none)

/-- The rows of results of a pass. -/
def resultRows (s : State) (x : CoreS) (f : APassF) (w : W64) (m : Nat) (gather conv : Bool) : List (List W32) :=
  (List.range m).map fun r =>
    passRow (operandCore x f w) w (x.reg f.c).toNat (streamOf x f w m gather conv) r (fixOf s x f w m gather conv).2

theorem operandCore_keeps (x : CoreS) (f : APassF) (w : W64) : (operandCore x f w).besideOperands = x.besideOperands := by
  unfold operandCore
  dsimp only
  split <;> rfl

theorem operandCore_passes (x : CoreS) (f : APassF) (w : W64) : (operandCore x f w).passes = x.passes :=
  congrArg (fun p => p.1.1) (operandCore_keeps x f w)

theorem operandCore_clm (x : CoreS) (f : APassF) (w : W64) : (operandCore x f w).clm = x.clm :=
  congrArg (fun p => p.2.2.1) (operandCore_keeps x f w)

theorem operandCore_pads (x : CoreS) (f : APassF) (w : W64) : (operandCore x f w).pads = x.pads := by
  unfold operandCore
  dsimp only
  split <;> rfl

theorem convFix_dict (s : State) (x : CoreS) (b : List Byte) (w : W64) (a m : Nat) (st : Streamed) : (convFix s x b w a m st).1.dict = s.dict := by
  unfold convFix
  dsimp only
  split
  · rfl
  · split <;> rfl

theorem loadGap_rows (s : State) (c : Nat) (keep : Bool) (h behind : Nat) (change : Bool) :
    (loadGap s c keep h behind change).ent 0x5A00 (c + 1) = s.ent 0x5A00 (c + 1) := by
  have hne : ekey 0x5A00 (c + 1) ≠ ekey 0x5A01 (c + 1) := by unfold ekey; omega
  unfold loadGap
  split
  · rfl
  · split
    · exact State.ent_addEnt_ne s _ _ _ _ _ hne
    · dsimp only
      exact State.ent_addEnt_ne (drawNat s (behind + 1)).2 _ _ _ _ _ hne

/-- The count of rows wraps at 2^64 (Table 15-18). -/
theorem entryMod_arrayRows : ∀ c : Core, entryMod 0x5A00 (c.val + 1) = 2 ^ 64 := by decide +kernel

theorem fixOf_dict (s : State) (x : CoreS) (f : APassF) (w : W64) (m : Nat) (gather conv : Bool) : (fixOf s x f w m gather conv).1.dict = s.dict := by
  unfold fixOf
  split
  · exact convFix_dict ..
  · rfl

theorem not_bnot {b : Bool} (h : b = true) : ¬ (!b) = true := by
  rw [h]
  exact Bool.false_ne_true

namespace ArrayReady

variable {x : CoreS} {f : APassF} {w : W64} {m : Nat} {gather conv : Bool} (h : ArrayReady x f w m gather conv)
include h

theorem mode : ¬ ((!mwFieldsOk w 0) = true ∨ (!mwRowsOk w m) = true ∨ (!keptOk x.lastMode f.keep w) = true) := by
  simp [h.fields, h.rows, h.kept]

theorem noFail : (if conv = true then convFail x.conv m (if mwFormat w ≤ 2 then 2 else 1) false
    (decide (1 ≤ mwFormat w ∧ mwFormat w ≤ 4) && decide (mwDest w ≠ 3)) (mwK w) else none) = none := by
  split
  · exact h.window ‹_›
  · rfl

theorem listed : (!gather || conv || decide (m = 0) || decide ((x.reg f.x).toNat + 4 * m ≤ clmSize)) = true := by
  cases conv with
  | true => simp
  | false =>
    cases gather with
    | false => rfl
    | true => simpa using h.list rfl rfl

theorem streamedIn : (conv || (if gather = true then (List.range m).all fun r => decide (rowAddress x f gather r % 256 = 0) &&
      decide (rowAddress x f gather r + 256 ≤ operandLimit w)
    else decide (m = 0) || (decide ((x.reg f.x).toNat + 256 * m ≤ operandLimit w) &&
      (!decide (mwFormat w = 5 ∨ mwFormat w = 6) || decide ((x.reg f.x).toNat % 256 = 0))))) = true := by
  cases conv with
  | true => rfl
  | false =>
    cases gather with
    | true => simpa using h.gathered rfl rfl
    | false => simpa [imp_iff_not_or] using h.direct rfl rfl

theorem stationaryIn : (f.keep || (decide ((x.reg f.w).toNat + 256 * ceilDiv (mwK w) (density (mwFormat w)) ≤ operandLimit w) &&
    (!decide (mwFormat w = 5 ∨ mwFormat w = 6) || decide ((x.reg f.w).toNat % 256 = 0)))) = true := by
  cases hk : f.keep with
  | true => rfl
  | false => simpa [imp_iff_not_or] using h.stationary hk

theorem scalesIn : ¬ (scaleBytesRead w m ≠ 0 ∧ clmSize < (x.reg f.c).toNat + scaleBytesRead w m) := by
  have := h.scales
  omega

end ArrayReady

end Sys2Proof.Machine
end

section
/-!
SUPPORT. An array pass that nothing halts or holds is queued with the rows of its results (R93 to R95, R118).
-/
namespace Sys2Proof.Machine
open Sys2Proof

/-- What an array pass of m rows leaves before it joins the queue: a state u that has counted the rows, and a core z that differs from the issuing
one in operands alone and has the mode word w as its last. -/
structure PassFormed (s u : State) (c : Nat) (x z : CoreS) (w : W64) (m : Nat) : Prop where
  counted : u.ent 0x5A00 (c + 1) = (s.ent 0x5A00 (c + 1) + m) % 2 ^ 64
  keeps : z.besideOperands = x.besideOperands
  last : z.lastMode = some w
  prev : z.prevMode = some w

theorem ent_counted {s u : State} (c : Core) (hd : u.dict = s.dict) (m : Nat) (keep : Bool) (h behind : Nat) (change : Bool) :
    (loadGap (u.addEnt 0x5A00 (c.val + 1) m) c.val keep h behind change).ent 0x5A00 (c.val + 1) = (s.ent 0x5A00 (c.val + 1) + m) % 2 ^ 64 := by
  rw [loadGap_rows, State.ent_addEnt_self, entryMod_arrayRows, State.ent_of_dict hd]

/-- An array pass with room in its unit and right operands forms its pass and queues it, with the results as its writes. -/
theorem arrayPass_forms {s : State} {c : Core} {f : APassF} {gather conv : Bool} {x : CoreS} (hx : s.core c.val = x) {w : W64} {m : Nat}
    (hw : modeWord x f.mode = w) (hm : (x.reg f.m).toNat = m) (hidle : x.passes = []) (hsound : s.mem.sramRaw = [])
    (hr : ArrayReady x f w m gather conv) :
    ∃ u z reads, PassFormed s u c.val x z w m ∧ arrayPass s c.val x f gather conv = .next (queuePass u c.val z 0
      (if mwDest w = 2 then [] else destRows (operandCore x f w) w (resultRows s x f w m gather conv)) reads (destRange w m) m f.post false) := by
  unfold arrayPass
  rw [hw, hm]
  extract_lets w' m' xa wa ca fmt h isMx b size listOk rowAt limit rowsOk statOk rowRanges statRange mxRanges ranges reads
  have hranges : ¬ ((!rowsOk) = true ∨ (!statOk) = true ∨ (scaleBytesRead w m ≠ 0 ∧ clmSize < ca + scaleBytesRead w m)) :=
    not_or.2 ⟨not_bnot hr.streamedIn, not_or.2 ⟨not_bnot hr.stationaryIn, hr.scalesIn⟩⟩
  rw [unitFull_idle hidle, if_neg Bool.false_ne_true, if_neg hr.mode, hr.noFail, show listOk = true from hr.listed, if_neg (by simp),
    held_idle hidle, if_neg (by simp)]
  rw [if_neg hranges, held_idle hidle, if_neg Bool.false_ne_true, checkSram_sound hsound, afterCheck_of_sound rfl, hx]
  extract_lets y loaded z st v change idle behind
  have hv : v = operandCore x f w := unitView_idle ((operandCore_passes x f w).trans hidle) 0
  have hfix : (if conv = true then convFix s z b w' ca m' st else (s, fun _ => none)) = fixOf s x f w m gather conv := rfl
  have hz : z.besideOperands = x.besideOperands := operandCore_keeps x f w
  have hdict := fixOf_dict s x f w m gather conv
  rcases hp : fixOf s x f w m gather conv with ⟨u, fix⟩
  have hrows : (List.range m).map (fun r => passRow z w ca st r fix) = resultRows s x f w m gather conv :=
    congrArg (fun p : State × (Nat → Option W32) => (List.range m).map fun r => passRow z w ca st r p.2) hp.symm
  rw [hp] at hfix hdict
  rw [hfix, hv, ← hrows]
  clear_value z st change idle behind
  refine ⟨_, _, _, ?_, rfl⟩
  exact ⟨ent_counted c hdict .., hz, rfl, rfl⟩

/-- The same, seen from the core that goes on. -/
theorem arrayPass_queues {s : State} {c : Core} {f : APassF} {gather conv : Bool} (hfree : PassFree s c.val)
    (hr : ArrayReady (s.core c.val) f (modeWord (s.core c.val) f.mode) ((s.core c.val).reg f.m).toNat gather conv) :
    let x := s.core c.val
    let w := modeWord x f.mode
    let m := (x.reg f.m).toNat
    ∃ t, arrayPass s c.val x f gather conv = .next t ∧ t.ent 0x5A00 (c.val + 1) = (s.ent 0x5A00 (c.val + 1) + m) % 2 ^ 64 ∧
      (t.core c.val).lastMode = some w ∧ (t.core c.val).prevMode = some w ∧
      PassQueued s t c.val 0 f.post fun q => q.writes = if mwDest w = 2 then [] else
        destRows (operandCore x f w) w (resultRows s x f w m gather conv) := by
  intro x w m
  obtain ⟨u, z, reads, hz, he⟩ := arrayPass_forms rfl rfl rfl hfree.1 hfree.2 hr
  exact ⟨_, he, (queuePass_ent ..).trans hz.counted, (queuePass_modes ..).1.trans hz.last, (queuePass_modes ..).2.trans hz.prev,
    queuePass_queued hz.keeps ..⟩

end Sys2Proof.Machine
end

section
/-!
SUPPORT. The words of an array pass in BF16: its results as balanced trees of the products (R79, R80), and those of a CONV pass with the correction
of R305.
-/
namespace Sys2Proof.Machine
open Sys2Proof

/-- Element k of row r that the window former delivers, where it reads one (R299, R302). -/
def convTap (b : List Byte) (r k : Nat) : Option (Nat × Nat × Nat) := tapAt b (field b 48 4 + r) (field b 56 2 + k % field b 58 2)

/-- The pad value of a convolution block in BF16 (R303). -/
def convPad (x : CoreS) : FNum := decF .bf16 ((x.pads.getD (cvPad x.conv) 0).toNat % 65536)

/-- The BF16 number in lane k of row r of the window former. -/
def convSeen (x : CoreS) (r k : Nat) : FNum :=
  match convTap x.conv r k with
  | none => convPad x
  | some p => decF .bf16 (ofLe (x.clmBytes (planeAt x.conv (field x.conv 52 2 + k / field x.conv 58 2) 2 p) 2))

/-- Lane k lies in padding in each of the m rows (R304). -/
def convIdle (b : List Byte) (m k : Nat) : Bool := (List.range m).all fun r => (convTap b r k).isNone

/-- The sum of the products of row r and column n, wholly padded lanes giving +0. -/
def convRoot (x : CoreS) (f : APassF) (w : W64) (m r n : Nat) : W32 := laneTree (mwK w) fun k =>
  if convIdle x.conv m k then 0 else toF32 ((convSeen x r k).mul (decF .bf16 (field (operandRow x f k) (2 * n) 2)))

/-- The pad value times the sum of the weights in wholly padded lanes (R305). -/
def convMissed (x : CoreS) (f : APassF) (w : W64) (m n : Nat) : W32 := toF32 ((convPad x).mul (ofF32 (laneTree (mwK w) fun k =>
  if convIdle x.conv m k then toF32 (decF .bf16 (field (operandRow x f k) (2 * n) 2)) else 0)))

/-- The result in row r and column n: the sum, with the correction where a lane is wholly padded and the pad value is not 0 (R305). -/
def convResult (x : CoreS) (f : APassF) (w : W64) (m r n : Nat) : W32 :=
  if (convPad x).isZero ∨ ∀ k, k < mwK w → convIdle x.conv m k = false then convRoot x f w m r n
  else fadd (convRoot x f w m r n) (convMissed x f w m n)

/-- The result in row r and column n of a pass that streams from memory. -/
def directResult (x : CoreS) (f : APassF) (w : W64) (gather : Bool) (r n : Nat) : W32 := laneTree (mwK w) fun k =>
  toF32 ((decF .bf16 (field (x.clmBytes (rowAddress x f gather r) 256) (2 * k) 2)).mul (decF .bf16 (field (operandRow x f k) (2 * n) 2)))

/-! ### BF16 elements -/

theorem elemVal_bf16 (kind : Nat) (b : List Byte) (k : Nat) : elemVal 1 kind b k = decF .bf16 (field b (2 * k) 2) := rfl

theorem field_pad (v : Nat) : field (le 4 v) 0 2 = v % 65536 := field_le_append 2 v (le 2 (v / 256 / 256))

theorem field_whole {b : List Byte} {n : Nat} (h : b.length = n) : field b 0 n = ofLe b := by
  rw [field, slice, List.drop_zero, List.take_of_length_le h.le, padTo_of_length h]

theorem operandCore_clmBytes (x : CoreS) (f : APassF) (w : W64) (a n : Nat) : (operandCore x f w).clmBytes a n = x.clmBytes a n := by
  unfold CoreS.clmBytes
  rw [operandCore_clm]

section
variable (x : CoreS) (f : APassF) {w : W64} (m : Nat) (hf : mwFormat w = 1)
include hf

theorem convCode_bf16 : elemVal (mwFormat w) (mwStreamKind w) (le 4 ((operandCore x f w).pads.getD (cvPad x.conv) 0).toNat) 0 = convPad x := by
  rw [hf, elemVal_bf16, Nat.mul_zero, field_pad, operandCore_pads]
  rfl

theorem convStream_val (r k : Nat) : (convStream (operandCore x f w) x.conv w m).val r k = convSeen x r k := by
  unfold convStream convSeen convTap
  dsimp only
  cases tapAt x.conv (field x.conv 48 4 + r) (field x.conv 56 2 + k % field x.conv 58 2) with
  | none => exact convCode_bf16 x f hf
  | some p =>
    dsimp only
    rw [hf, elemVal_bf16, Nat.mul_zero, operandCore_clmBytes, if_pos (by decide), field_whole (length_clmBytes ..)]

theorem streamOf_direct_val (gather : Bool) (r k : Nat) :
    (streamOf x f w m gather false).val r k = decF .bf16 (field (x.clmBytes (rowAddress x f gather r) 256) (2 * k) 2) := by
  rw [streamOf, if_neg Bool.false_ne_true]
  dsimp only
  rw [hf, elemVal_bf16, operandCore_clmBytes]

end

/-! ### Rows of results -/

/-- In BF16 each result is the tree of its products, and the correction of its column is added to it. -/
theorem passRow_bf16 (x : CoreS) (f : APassF) {w : W64} (hf : mwFormat w = 1) (ca : Nat) (st : Streamed) (r : Nat) (fix : Nat → Option W32) :
    passRow (operandCore x f w) w ca st r fix = (List.range (mwN w)).map fun n =>
      let root := laneTree (mwK w) fun k =>
        if st.idle k then 0 else toF32 ((st.val r k).mul (decF .bf16 (field (operandRow x f k) (2 * n) 2)))
      (fix n).elim root (fadd root) := by
  unfold passRow
  refine List.map_congr_left fun n _ => ?_
  have hroot (half : Nat → W32) (mx : Nat → Byte × Byte) :
      columnRoot (mwFormat w) (mwK w) (fun i => if st.idle i then 0 else product (mwFormat w) (st.val r i) (statVal (operandCore x f w) w i n)) half mx =
        laneTree (mwK w) fun k => if st.idle k then 0 else toF32 ((st.val r k).mul (decF .bf16 (field (operandRow x f k) (2 * n) 2))) := by
    rw [hf, columnRoot_bf16]
    refine laneTree_congr fun i hi => ?_
    rw [statVal_bf16 x f hf hi]
    rfl
  dsimp only
  rw [hroot]
  cases fix n <;> rfl

/-- The rows of a pass that streams from memory. -/
theorem resultRows_direct (s : State) (x : CoreS) (f : APassF) {w : W64} (hf : mwFormat w = 1) (m : Nat) (gather : Bool) :
    resultRows s x f w m gather false = (List.range m).map fun r => (List.range (mwN w)).map (directResult x f w gather r) := by
  unfold resultRows
  refine List.map_congr_left fun r _ => ?_
  rw [passRow_bf16 x f hf]
  refine List.map_congr_left fun n _ => laneTree_congr fun k _ => ?_
  rw [streamOf_direct_val x f m hf]
  rfl

/-- The correction of a CONV pass in BF16: none where no lane is wholly padded or the pad value is 0. -/
theorem fixOf_conv (s : State) (x : CoreS) (f : APassF) {w : W64} (hf : mwFormat w = 1) {m : Nat} (hm : m ≠ 0) (gather : Bool) (n : Nat) :
    (fixOf s x f w m gather true).2 n =
      if (convPad x).isZero ∨ ∀ k, k < mwK w → convIdle x.conv m k = false then none else some (convMissed x f w m n) := by
  have hnone : ((convPad x).isZero = true ∨ (!(List.range (mwK w)).any (convIdle x.conv m)) = true ∨ m = 0) ↔
      ((convPad x).isZero = true ∨ ∀ k, k < mwK w → convIdle x.conv m k = false) := by simp [hm]
  have hsquare : ¬ (mwFormat w = 3 ∨ mwFormat w = 4) := by omega
  unfold fixOf
  rw [if_pos rfl]
  unfold convFix
  dsimp only
  rw [convCode_bf16 x f hf, show (streamOf x f w m gather true).idle = convIdle x.conv m from rfl]
  by_cases hn : (convPad x).isZero = true ∨ ∀ k, k < mwK w → convIdle x.conv m k = false
  · rw [if_pos (hnone.2 hn), if_pos hn]
  · rw [if_neg (mt hnone.1 hn), if_neg hn]
    have hsum : columnRoot (mwFormat w) (mwK w) (fun k => if convIdle x.conv m k then toF32 (statVal (operandCore x f w) w k n) else 0)
        (fun j => scaleEntry (operandCore x f w) (x.reg f.c).toNat j) (fun _ => (127, 127)) =
        laneTree (mwK w) fun k => if convIdle x.conv m k then toF32 (decF .bf16 (field (operandRow x f k) (2 * n) 2)) else 0 := by
      rw [hf, columnRoot_bf16]
      exact laneTree_congr fun k hk => by rw [statVal_bf16 x f hf hk]
    simp only [hsquare, decide_false, Bool.not_false, if_true]
    rw [hsum]
    rfl

theorem resultRows_conv (s : State) (x : CoreS) (f : APassF) {w : W64} (hf : mwFormat w = 1) (m : Nat) (gather : Bool) :
    resultRows s x f w m gather true = (List.range m).map fun r => (List.range (mwN w)).map (convResult x f w m r) := by
  unfold resultRows
  refine List.map_congr_left fun r hr => ?_
  have hm : m ≠ 0 := by
    have := List.mem_range.1 hr
    omega
  have hroot (n : Nat) : (laneTree (mwK w) fun k => if (streamOf x f w m gather true).idle k then 0 else
      toF32 (((streamOf x f w m gather true).val r k).mul (decF .bf16 (field (operandRow x f k) (2 * n) 2)))) = convRoot x f w m r n :=
    laneTree_congr fun k _ => by
      rw [streamOf, if_pos rfl, convStream_val x f m hf]
      rfl
  rw [passRow_bf16 x f hf]
  refine List.map_congr_left fun n _ => ?_
  dsimp only
  rw [hroot, fixOf_conv s x f hf hm, convResult]
  split <;> rfl

end Sys2Proof.Machine
end

section
/-!
APASS and CONV_PASS (O12, O13; R76 to R90, R127, R298 to R305).
-/
namespace Sys2Proof.Machine
open Sys2Proof

/-! ### The way to the array -/

section
variable {s : State} {c : Core} {f : APassF}

/-- Outside skip mode an APASS without GATHER comes to the array. -/
theorem apass_runs (hi : Issuing s c.val (apassWord f false)) (hs : Skipping s c.val = false) (hfree : PassFree s c.val) :
    exec (.apass c f false) s = arrayPass s c.val (s.core c.val) f false false := by
  change execApass c f false s = _
  rw [execApass, issue_of_issuing hi, modeCheck_sound hfree.2, afterCheck_of_sound rfl, inSkip_core, hs, if_neg Bool.false_ne_true,
    Bool.not_false, if_pos rfl]

/-- With GATHER it does while the block's mode byte is OFF or POOL (R301). -/
theorem apass_gathers (hi : Issuing s c.val (apassWord f true)) (hs : Skipping s c.val = false) (hfree : PassFree s c.val)
    (hmode : cvMode (s.core c.val).conv ≠ 1 ∧ cvMode (s.core c.val).conv < 3) :
    exec (.apass c f true) s = arrayPass s c.val (s.core c.val) f true false := by
  change execApass c f true s = _
  rw [execApass, issue_of_issuing hi, modeCheck_sound hfree.2, afterCheck_of_sound rfl, inSkip_core, hs, if_neg Bool.false_ne_true,
    if_neg (by simp), held_idle hfree.1, if_neg Bool.false_ne_true, readOnce_sound hfree.2, afterCheck_of_sound rfl, if_neg (Nat.not_le.2 hmode.2),
    if_neg hmode.1]

/-- In CONV mode it is the CONV pass. -/
theorem convPass_runs (hi : Issuing s c.val (apassWord f true)) (hs : Skipping s c.val = false) (hfree : PassFree s c.val)
    (hmode : cvMode (s.core c.val).conv = 1) : exec (.convPass c f) s = arrayPass s c.val (s.core c.val) f true true := by
  change execConvPass c f s = _
  rw [execConvPass, issue_of_issuing hi, modeCheck_sound hfree.2, afterCheck_of_sound rfl, inSkip_core, hs, if_neg Bool.false_ne_true,
    held_idle hfree.1, if_neg Bool.false_ne_true, readOnce_sound hfree.2, afterCheck_of_sound rfl, if_neg (not_not.2 hmode)]

/-- In skip mode APASS and CONV_PASS are the same skipped pass. -/
theorem arrayPass_skips {gather : Bool} {i : Instr} (h : i = .apass c f gather ∨ (gather = true ∧ i = .convPass c f))
    (hi : Issuing s c.val (apassWord f gather)) (hs : Skipping s c.val = true) (hread : modeCheck s c.val f.mode = (s, false)) :
    exec i s = skipPass s c.val (s.core c.val) (modeWord (s.core c.val) f.mode) 0 ((s.core c.val).reg f.m).toNat f.keep f.post := by
  rcases h with rfl | ⟨rfl, rfl⟩
  · change execApass c f gather s = _
    rw [execApass, issue_of_issuing hi, hread, afterCheck_of_sound rfl, inSkip_core, hs, if_pos rfl]
  · change execConvPass c f s = _
    rw [execConvPass, issue_of_issuing hi, hread, afterCheck_of_sound rfl, inSkip_core, hs, if_pos rfl]

end

/-! ### The words of the pass that is queued -/

theorem length_resultRows (s : State) (x : CoreS) (f : APassF) (w : W64) (m : Nat) (gather conv : Bool) :
    (resultRows s x f w m gather conv).length = m := by simp [resultRows]

/-- The writes of an array pass: none into the row unit, a row each otherwise, and an overwriting destination takes the results as they are. -/
theorem passWrites {q : Pass} {s : State} {x z : CoreS} {f : APassF} {w : W64} {m : Nat} {gather conv : Bool} {v : Nat → Nat → W32}
    (hq : q.writes = if mwDest w = 2 then [] else destRows z w (resultRows s x f w m gather conv))
    (hv : mwFormat w = 1 → resultRows s x f w m gather conv = (List.range m).map fun r => (List.range (mwN w)).map (v r)) :
    q.writes.length = (if mwDest w = 2 then 0 else m) ∧
      (mwFormat w = 1 → mwDest w = 0 → q.writes = (List.range m).map fun r => (2, (mwBase w + r) * 128, (List.range (mwN w)).map (v r))) := by
  refine ⟨?_, fun hf hd => ?_⟩
  · rw [hq]
    split
    · rfl
    · rw [length_destRows, length_resultRows]
  · rw [hq, if_neg (by omega), hv hf, destRows_overwriting hd]

theorem keptOk_true {last : Option W64} {keep : Bool} {w : W64} (h : keep = true → ∃ l, last = some l ∧ mwKept l = mwKept w) :
    keptOk last keep w = true := by
  cases keep with
  | false => rfl
  | true =>
    obtain ⟨l, rfl, hl⟩ := h rfl
    simpa [keptOk] using hl

/-! ### The obligations -/

/-- Settles O12: nothing holds up an idle core's pass (`arrayPass_queues`), and in BF16 each result is the tree of its products
(`resultRows_direct`). -/
theorem arrayPassQueues : Obligations.ArrayPass := by
  unfold Obligations.ArrayPass
  intro s c f x w m xa wa fmt mx limit lanes a b hkeep hi hs hfree hfields hrows hdirect hstat hstat256 hscales
  have hready : ArrayReady x f w m false false :=
    { fields := hfields
      rows := hrows
      kept := keptOk_true fun hk => absurd (hkeep.symm.trans hk) Bool.false_ne_true
      window := fun h => absurd h Bool.false_ne_true
      list := fun h => absurd h Bool.false_ne_true
      gathered := fun h => absurd h Bool.false_ne_true
      direct := fun _ _ => by rw [operandLimit_eq]; exact hdirect
      stationary := fun _ => by rw [operandLimit_eq]; exact ⟨hstat, hstat256⟩
      scales := hscales }
  obtain ⟨t, he, hent, hlast, hprev, hqueued⟩ := arrayPass_queues hfree hready
  refine ⟨t, (apass_runs hi hs hfree).trans he, hent, hlast, hprev, hqueued.imp fun q hq => ⟨fun hd => hq.trans (if_pos hd), ?_⟩⟩
  have hoperand (k : Nat) : operandRow x f k = x.clmBytes (wa + 256 * k) 256 := by rw [operandRow, hkeep, if_neg Bool.false_ne_true]
  refine (passWrites hq fun hf => (resultRows_direct s x f hf m false).trans ?_).2
  unfold directResult
  simp only [hoperand]
  rfl

/-- Settles O13: each form passes the array's checks (`arrayPass_queues`) with its own rows of operands (`resultRows_direct`, `resultRows_conv`);
skipped it is `skipPass`. -/
theorem arrayPassForms : Obligations.ArrayPassForms := by
  unfold Obligations.ArrayPassForms
  intro s c f x w m xa wa fmt mx limit size statOk scalesOk row rowsOk stat tree writes b tap pad seen idle root missed skips
  have hkept (h : statOk) : keptOk x.lastMode f.keep w = true := keptOk_true fun hk => (if_pos hk).mp h
  have hstat (h : statOk) (hk : f.keep = false) : wa + 256 * ceilDiv (mwK w) (density fmt) ≤ operandLimit w ∧ (mx → wa % 256 = 0) := by
    rw [operandLimit_eq]
    exact (if_neg (by simp [hk])).mp h
  refine ⟨fun hfields hrows => ⟨fun g hi hs hfree hin hop hsc => ?_, fun hi hs hfree hmode hwin hop hsc => ?_, fun g i hskip hd hm hk hidle => ?_⟩,
    fun g i hskip hgo => ?_⟩
  · have hgather (hg : g = true) : (m = 0 ∨ xa + 4 * m ≤ clmSize) ∧
        ∀ r, r < m → rowAddress x f true r % 256 = 0 ∧ rowAddress x f true r + 256 ≤ operandLimit w := by
      subst hg
      obtain ⟨-, -, hlist, hrowsIn⟩ := hin
      rw [operandLimit_eq]
      exact ⟨hlist, hrowsIn⟩
    have hready : ArrayReady x f w m g false :=
      { fields := hfields
        rows := hrows
        kept := hkept hop
        window := fun h => absurd h Bool.false_ne_true
        list := fun hg _ => (hgather hg).1
        gathered := fun hg _ => (hgather hg).2
        direct := fun hg _ => by subst hg; rw [operandLimit_eq]; exact hin
        stationary := hstat hop
        scales := hsc }
    obtain ⟨t, he, -, -, -, hqueued⟩ := arrayPass_queues hfree hready
    have hruns : exec (.apass c f g) s = arrayPass s c.val x f g false := by
      cases g with
      | false => exact apass_runs hi hs hfree
      | true => exact apass_gathers hi hs hfree ⟨hin.1, hin.2.1⟩
    exact ⟨t, hruns.trans he, hqueued.imp fun q hq =>
      passWrites (v := directResult x f w g) hq fun hf => resultRows_direct s x f hf m g⟩
  · have hready : ArrayReady x f w m true true :=
      { fields := hfields
        rows := hrows
        kept := hkept hop
        window := fun _ => hwin
        list := fun _ h => absurd h (by simp)
        gathered := fun _ h => absurd h (by simp)
        direct := fun _ h => absurd h (by simp)
        stationary := hstat hop
        scales := hsc }
    obtain ⟨t, he, -, -, -, hqueued⟩ := arrayPass_queues hfree hready
    have hseen : seen = convSeen x := by
      funext r k
      have htap : tap r k = convTap b r k := rfl
      simp only [seen]
      rw [htap, convSeen]
      cases convTap b r k <;> rfl
    have hroot : root = convRoot x f w m := by
      change (fun r n => laneTree (mwK w) fun k => if convIdle b m k then 0 else toF32 ((seen r k).mul (stat k n))) = _
      rw [hseen]
      rfl
    refine ⟨t, (convPass_runs hi hs hfree hmode).trans he, hqueued.imp fun q hq => ?_⟩
    rw [hroot]
    exact passWrites (v := convResult x f w m) hq fun hf => resultRows_conv s x f hf m true
  · obtain ⟨hform, hi, hs, hread⟩ := hskip
    rw [arrayPass_skips hform hi hs hread]
    exact skipPass_queues hd hfields hrows hk hm hidle f.post
  · obtain ⟨hform, hi, hs, hread⟩ := hskip
    rw [arrayPass_skips hform hi hs hread]
    exact skipPass_goes hgo f.post

end Sys2Proof.Machine
end

section
/-!
MPASS and PASS_RETIRE (O14; R96, R98, R127, R128).
-/
namespace Sys2Proof.Machine
open Sys2Proof

/-! ### The matrix-vector unit -/

/-- Weight (i, n) of an MPASS: from core-local memory, or what a mover's stream delivers (log entry 25). -/
def mpassWeight (s : State) (x : CoreS) (f : MPassF) (n i : Nat) : FNum :=
  let fmt := mwFormat (modeWord x f.mode)
  if f.wstream then elemVal fmt 0 (le 2 (Config.freeWord (s.freeCtr + 128 * i + n)).toNat) 0
  else elemVal fmt 0 (x.clmBytes ((x.reg f.w).toNat + 256 * i + 2 * n) 2) 0

/-- The results of an MPASS. -/
def mpassRows (s : State) (x : CoreS) (f : MPassF) : List (List W32) :=
  let w := modeWord x f.mode
  let k := (x.reg f.m).toNat
  (List.range (mwVectors w)).map fun j => (List.range (mwN w)).map fun n =>
    mvuSum (mwFormat w) (x.clmBytes ((x.reg f.x).toNat + j * roundUp (2 * k) 256) (2 * k)) (mpassWeight s x f n) k

theorem length_mpassRows (s : State) (x : CoreS) (f : MPassF) : (mpassRows s x f).length = mwVectors (modeWord x f.mode) := by simp [mpassRows]

/-- Weights from core-local memory: each result is their sum in order. -/
theorem mpassRows_memory (s : State) (x : CoreS) {f : MPassF} (h : f.wstream = false) :
    let w := modeWord x f.mode
    let k := (x.reg f.m).toNat
    mpassRows s x f = (List.range (mwVectors w)).map fun j => (List.range (mwN w)).map fun n => (List.range k).foldl (fun y i =>
      toF32 (((elemVal (mwFormat w) 0 (x.clmBytes ((x.reg f.x).toNat + j * roundUp (2 * k) 256) (2 * k)) i).mul
        (elemVal (mwFormat w) 0 (x.clmBytes ((x.reg f.w).toNat + 256 * i + 2 * n) 2) 0)).add (ofF32 y))) 0 := by
  have hweight (n i : Nat) : mpassWeight s x f n i =
      elemVal (mwFormat (modeWord x f.mode)) 0 (x.clmBytes ((x.reg f.w).toNat + 256 * i + 2 * n) 2) 0 := by
    rw [mpassWeight, h, if_neg Bool.false_ne_true]
  dsimp only
  simp only [mpassRows, mvuSum, hweight]

/-- The mode word, length and operands of an MPASS are right (R93, R98). -/
structure MpassReady (x : CoreS) (f : MPassF) : Prop where
  fields : mwFieldsOk (modeWord x f.mode) 1 = true
  rows : mwRowsOk (modeWord x f.mode) (mwVectors (modeWord x f.mode)) = true
  length : (x.reg f.m).toNat ≤ 65536
  inside : (x.reg f.m).toNat = 0 ∨
    ((x.reg f.x).toNat + (mwVectors (modeWord x f.mode) - 1) * roundUp (2 * (x.reg f.m).toNat) 256 + 2 * (x.reg f.m).toNat ≤ clmSize ∧
      (f.wstream = true ∨ (x.reg f.w).toNat + 256 * ((x.reg f.m).toNat - 1) + 2 * mwN (modeWord x f.mode) ≤ clmSize))

theorem MpassReady.bounds {x : CoreS} {f : MPassF} (h : MpassReady x f) :
    ¬ (clmSize < (if (x.reg f.m).toNat = 0 then 0 else
        (x.reg f.x).toNat + (mwVectors (modeWord x f.mode) - 1) * roundUp (2 * (x.reg f.m).toNat) 256 + 2 * (x.reg f.m).toNat) ∨
      ((!f.wstream) = true ∧ (x.reg f.m).toNat ≠ 0 ∧
        clmSize < (x.reg f.w).toNat + 256 * ((x.reg f.m).toNat - 1) + 2 * mwN (modeWord x f.mode))) := by
  rcases h.inside with h0 | ⟨hvec, hwt⟩
  · simp [h0]
  · rintro (hlast | ⟨hw, -, hover⟩)
    · split at hlast <;> omega
    · rcases hwt with hs | hin
      · simp [hs] at hw
      · omega

section
variable {s : State} {c : Core} {f : MPassF}

/-- An MPASS that nothing halts or holds queues its results. -/
theorem mpass_queues (hi : Issuing s c.val (mpassWord f)) (hs : Skipping s c.val = false) (hfree : PassFree s c.val)
    (hr : MpassReady (s.core c.val) f) :
    ∃ t, exec (.mpass c f) s = .next t ∧ PassQueued s t c.val 1 f.post fun q => q.writes =
      if mwDest (modeWord (s.core c.val) f.mode) = 2 then []
      else destRows (s.core c.val) (modeWord (s.core c.val) f.mode) (mpassRows s (s.core c.val) f) := by
  obtain ⟨hidle, hsound⟩ := hfree
  change ∃ t, execMpass c f s = .next t ∧ _
  rw [execMpass, issue_of_issuing hi]
  extract_lets w v k xa wa stride last ranges ranges' vectors weights reads fmt
  have hmode : ¬ ((!mwFieldsOk w 1) = true ∨ (!mwRowsOk w v) = true) := not_or.2 ⟨not_bnot hr.fields, not_bnot hr.rows⟩
  rw [modeCheck_sound hsound, afterCheck_of_sound rfl, inSkip_core, hs, if_neg Bool.false_ne_true, unitFull_idle hidle,
    if_neg Bool.false_ne_true, if_neg hmode, if_neg (Nat.not_lt.2 hr.length)]
  rw [if_neg (show ¬ (clmSize < last ∨ _) from hr.bounds), held_idle hidle, if_neg Bool.false_ne_true, checkSram_sound hsound,
    afterCheck_of_sound rfl]
  extract_lets y free wt u rows view z u'
  have hz : z.besideOperands = (s.core c.val).besideOperands := rfl
  have hrows : rows = mpassRows s (s.core c.val) f := rfl
  have hview : view = s.core c.val := unitView_idle hidle 1
  rw [hrows, hview]
  clear_value z u'
  refine ⟨_, rfl, ?_⟩
  exact queuePass_queued hz ..

/-- In skip mode MPASS is a skipped pass. -/
theorem mpass_skips (hi : Issuing s c.val (mpassWord f)) (hs : Skipping s c.val = true) (hread : modeCheck s c.val f.mode = (s, false)) :
    exec (.mpass c f) s = skipPass s c.val (s.core c.val) (modeWord (s.core c.val) f.mode) 1 (mwVectors (modeWord (s.core c.val) f.mode)) false f.post := by
  change execMpass c f s = _
  rw [execMpass, issue_of_issuing hi]
  dsimp only
  rw [hread, afterCheck_of_sound rfl, inSkip_core, hs, if_pos rfl]

end

/-! ### Retirement -/

/-- One write of a pass to the wide buffer or the accumulator file. -/
def CoreS.storeWrite (x : CoreS) (e : Nat × Nat × List W32) : CoreS :=
  if e.1 = 1 then { x with wide := swrite 0 x.wide e.2.1 e.2.2 } else { x with acc := swrite 0 x.acc e.2.1 e.2.2 }

theorem applyPass_eq (x : CoreS) (p : Pass) : applyPass x p = p.writes.foldl CoreS.storeWrite (p.clm.foldl (fun x e => x.setClm e.1 e.2) x) := by
  unfold applyPass
  dsimp only
  congr 1
  funext x e
  unfold CoreS.storeWrite
  split
  · rw [if_pos ‹_›]
  · rw [if_neg ‹_›]

theorem touchSram_core (s : State) (kind u first n c : Nat) : (touchSram s kind u first n).core c = s.core c :=
  core_of_accounts (touchSram_accounts s kind u first n) c

/-- The writes of a pass reach the core as `applyPass` says. -/
theorem writePass_core (s : State) (c : Nat) (p : Pass) : (writePass s c p).core c = applyPass (s.core c) p := by
  rw [applyPass_eq, writePass]
  have hclm (t : State) (e : Nat × List Byte) : (t.core c).setClm e.1 e.2 = (t.writeClm c e.1 e.2).core c := by
    rw [State.writeClm, touchSram_core, State.core_modCore, if_pos rfl]
  have hstore (t : State) (e : Nat × Nat × List W32) :
      (t.core c).storeWrite e = (if e.1 = 1 then t.writeWide c e.2.1 e.2.2 else t.writeAcc c e.2.1 e.2.2).core c := by
    unfold CoreS.storeWrite
    split
    · rw [State.writeWide, touchSram_core, State.core_modCore, if_pos rfl]
    · rw [State.writeAcc, touchSram_core, State.core_modCore, if_pos rfl]
  rw [List.foldl_hom (fun t : State => t.core c) (g₁ := fun t e => t.writeClm c e.1 e.2) hclm, ← List.foldl_hom (fun t : State => t.core c) hstore]

/-- What a retiring pass does not write. -/
def CoreS.control (x : CoreS) : List Pass × Nat × List W64 := (x.passes, x.pc, x.regs)

theorem storeWrites_keeps (l : List (Nat × Nat × List W32)) (x : CoreS) :
    (l.foldl CoreS.storeWrite x).control = x.control ∧ (l.foldl CoreS.storeWrite x).clm = x.clm := by
  induction l generalizing x with
  | nil => exact ⟨rfl, rfl⟩
  | cons e l ih =>
    have hone : (x.storeWrite e).control = x.control ∧ (x.storeWrite e).clm = x.clm := by
      unfold CoreS.storeWrite
      split <;> exact ⟨rfl, rfl⟩
    exact ⟨(ih _).1.trans hone.1, (ih _).2.trans hone.2⟩

theorem setClms_keeps (l : List (Nat × List Byte)) (x : CoreS) : (l.foldl (fun x e => x.setClm e.1 e.2) x).control = x.control ∧
    (l.foldl (fun x e => x.setClm e.1 e.2) x).acc = x.acc := by
  induction l generalizing x with
  | nil => exact ⟨rfl, rfl⟩
  | cons e l ih => exact ih _

/-- An accumulator word that no write reaches is as before. -/
theorem storeWrites_acc_frame {n : Nat} {l : List (Nat × Nat × List W32)} (h : ∀ e ∈ l, e.1 = 1 ∨ n < e.2.1 ∨ e.2.1 + e.2.2.length ≤ n)
    (x : CoreS) : sget 0 (l.foldl CoreS.storeWrite x).acc n = sget 0 x.acc n := by
  induction l generalizing x with
  | nil => rfl
  | cons e l ih =>
    obtain ⟨he, hl⟩ := List.forall_mem_cons.1 h
    rw [List.foldl_cons, ih hl, CoreS.storeWrite]
    split
    · rfl
    · rcases he with h1 | hlt | hle
      · exact absurd h1 ‹_›
      · exact sget_swrite_of_lt 0 _ _ _ _ hlt
      · exact sget_swrite_of_le 0 _ _ _ _ hle

theorem setClms_clm_frame {n : Nat} {l : List (Nat × List Byte)} (h : ∀ e ∈ l, n < e.1 ∨ e.1 + e.2.length ≤ n) (x : CoreS) :
    sget 0 (l.foldl (fun x e => x.setClm e.1 e.2) x).clm n = sget 0 x.clm n := by
  induction l generalizing x with
  | nil => rfl
  | cons e l ih =>
    obtain ⟨he, hl⟩ := List.forall_mem_cons.1 h
    rw [List.foldl_cons, ih hl, CoreS.setClm]
    rcases he with hlt | hle
    · exact sget_swrite_of_lt 0 _ _ _ _ hlt
    · exact sget_swrite_of_le 0 _ _ _ _ hle

section
variable (x : CoreS) (p : Pass)

theorem applyPass_control : (applyPass x p).control = x.control := by
  rw [applyPass_eq, (storeWrites_keeps ..).1, (setClms_keeps ..).1]

theorem applyPass_acc_frame {n : Nat} (h : ∀ e ∈ p.writes, e.1 = 1 ∨ n < e.2.1 ∨ e.2.1 + e.2.2.length ≤ n) :
    sget 0 (applyPass x p).acc n = sget 0 x.acc n := by
  rw [applyPass_eq, storeWrites_acc_frame h, (setClms_keeps ..).2]

theorem applyPass_clm_frame {n : Nat} (h : ∀ e ∈ p.clm, n < e.1 ∨ e.1 + e.2.length ≤ n) : sget 0 (applyPass x p).clm n = sget 0 x.clm n := by
  rw [applyPass_eq, (storeWrites_keeps ..).2, setClms_clm_frame h]

/-- A pass of one accumulator row has written its words. -/
theorem applyPass_acc_row {r n : Nat} {l : List W32} (h : p.writes = [(2, r, l)]) (hn : n < l.length) :
    sget 0 (applyPass x p).acc (r + n) = l.getD n 0 := by
  rw [applyPass_eq, h, List.foldl_cons, List.foldl_nil, CoreS.storeWrite, if_neg (show ¬ 2 = 1 by decide), sget_swrite,
    if_pos ⟨Nat.le_add_right r n, Nat.add_lt_add_left hn r⟩, Nat.add_sub_cancel_left]

end

/-- What the numeric counters do not touch of a core. -/
def CoreS.uncounted (x : CoreS) : (List Pass × Nat × List W64) × SMap W32 × SMap Byte := (x.control, x.acc, x.clm)

theorem CoreS.uncounted_slots (x : CoreS) (m : SMap Nat) : { x with slots := m }.uncounted = x.uncounted := rfl

theorem noteCount_uncounted (s : State) (c : Nat) (n : SlotCount) : ((noteCount s c n).core c).uncounted = (s.core c).uncounted := by
  unfold noteCount
  split
  · rfl
  · extract_lets t
    have ht : (t.core c).uncounted = (s.core c).uncounted := by
      unfold t
      rw [State.core_modCore, if_pos rfl]
      exact CoreS.uncounted_slots ..
    split <;> exact ht

/-- The oldest pass of its unit retires: its writes are made, and it leaves the queue. -/
theorem passRetire_runs {s : State} {c : Core} {id : Nat} {p : Pass} (hrun : s.running = true)
    (hfind : ((s.core c.val).passes.find? fun q => decide (q.id = id)) = some p)
    (holdest : ∀ q ∈ (s.core c.val).passes.takeWhile (fun q => !decide (q.id = id)), q.unit ≠ p.unit)
    (hposts : postsBefore (s.core c.val) p = false) :
    ∃ t, exec (.passRetire c id) s = .next t ∧ (t.core c.val).uncounted =
      { applyPass (s.core c.val) p with passes := (applyPass (s.core c.val) p).passes.filter fun q => !decide (q.id = id) }.uncounted := by
  have hready : ¬ ((!s.running) = true ∨
      ((s.core c.val).passes.takeWhile fun q => !decide (q.id = id)).any (fun q => decide (q.unit = p.unit)) = true ∨
      postsBefore (s.core c.val) p = true) := by
    simpa [hrun, hposts] using holdest
  change ∃ t, execPassRetire c id s = .next t ∧ _
  unfold execPassRetire
  dsimp only
  rw [hfind]
  dsimp only
  rw [if_neg hready]
  refine ⟨_, rfl, ?_⟩
  rw [foldl_keeps (fun t n => noteCount t c.val n) (fun t => (t.core c.val).uncounted) (fun t n => noteCount_uncounted t c.val n)]
  have hcounted (t : State) : ((if p.unit = 2 then t.addEnt 0x5A03 (c.val + 1) p.busy else t).core c.val) = t.core c.val := by
    split <;> rfl
  rw [hcounted, State.core_modCore, if_pos rfl, writePass_core]

/-! ### The obligation -/

/-- Settles O14: an MPASS queues its sums (`mpass_queues`) or is a skipped pass (`mpass_skips`), and a retiring pass leaves the core that `applyPass`
gives (`passRetire_runs`). -/
theorem matrixVectorPass : Obligations.MatrixVectorPass := by
  unfold Obligations.MatrixVectorPass
  intro s c f x w k xa wa stride v a b
  refine ⟨fun hi hs hfree hfields hrows hk hin => ?_, fun hi hs hread => ?_, fun id p hrun hfind holdest hposts => ?_, fun id p hfind hposts => ?_⟩
  · obtain ⟨t, he, hqueued⟩ := mpass_queues hi hs hfree ⟨hfields, hrows, hk, hin⟩
    refine ⟨t, he, hqueued.imp fun q hq => ⟨fun hd => hq.trans (if_pos hd), fun hd => ?_, fun hd hw => ?_⟩⟩
    · rw [hq, if_neg hd, length_destRows]
      exact length_mpassRows ..
    · have hdest : mwDest w ≠ 2 := by omega
      rw [hq, if_neg hdest, mpassRows_memory s x hw]
      exact destRows_overwriting hd ..
  · rw [mpass_skips hi hs hread]
    exact ⟨fun hd hfields hrows hv hidle => skipPass_queues hd hfields hrows rfl hv hidle f.post, fun hd => skipPass_goes (.inl hd) f.post⟩
  · obtain ⟨t, he, ht⟩ := passRetire_runs hrun hfind holdest hposts
    have hcontrol := applyPass_control x p
    simp only [CoreS.uncounted, CoreS.control, Prod.mk.injEq] at ht hcontrol
    obtain ⟨⟨hpasses, hpc, hregs⟩, hacc, hclm⟩ := ht
    obtain ⟨hpasses', hpc', hregs'⟩ := hcontrol
    refine ⟨t, he, hpasses.trans (by rw [hpasses']), hpc.trans hpc', hregs.trans hregs', fun n hn => ?_, fun n hn => ?_, fun r l hl n hn => ?_⟩
    · rw [hacc, applyPass_acc_frame x p hn]
    · rw [hclm, applyPass_clm_frame x p hn]
    · rw [hacc, applyPass_acc_row x p hl hn]
  · change execPassRetire c id s = .next s
    unfold execPassRetire
    dsimp only
    rw [hfind]
    dsimp only
    rw [if_pos (.inr (.inr hposts))]

end Sys2Proof.Machine
end

section
/-!
Commands that complete (O57). What `Fine` says of most commands gives a next state at once; here are the rules for the others, and one lemma each.
-/
namespace Sys2Proof.Machine
open Sys2Proof

/-! ### Outcomes that are a next state -/

/-- The outcome is a next state. -/
def Completes (o : Out) : Prop := ∃ t, o = .next t

namespace Completes

theorem next (t : State) : Completes (.next t) := ⟨t, rfl⟩

theorem of_fine {s : State} {o : Out} (h : Fine s o) : Completes o := h.imp fun _ ht => ht.1

theorem ite {p : Prop} [Decidable p] {a b : Out} (ha : Completes a) (hb : Completes b) : Completes (if p then a else b) := by
  split
  · exact ha
  · exact hb

theorem atTime {f : State → Out} (h : ∀ u, Completes (f u)) (s : State) (t : FTime) : Completes (atTime s t f) := ite (h _) (next s)

theorem afterCheck {f : State → Out} (h : ∀ u, Completes (f u)) (c : Nat) (r : State × Bool) : Completes (afterCheck c r f) := ite (next _) (h _)

theorem issue {s : State} {c : Nat} {f : State → CoreS → Out} (h : ∀ u, Completes (f u (s.core c))) (w : W64) : Completes (issue s c w f) :=
  ite (next _) (ite (next _) (ite (next _) (afterCheck h _ _)))

/-- An input voltage within the ratings of Table 19-6 stops nothing. -/
theorem rated {mv : Int} {f : Out} (hmv : -60000 ≤ mv ∧ mv ≤ 64000) (h : Completes f) : Completes (rated mv f) := by
  unfold Machine.rated
  rw [if_neg (by omega)]
  exact h

theorem answerRequest (s : State) (slot op : Nat) (req : W32) (ver : Option Byte) (f : State → Session → Nat × List Byte × State) :
    Completes (answerRequest s slot op req ver f) := by
  unfold Machine.answerRequest
  split <;> exact next _

end Completes

/-! ### Commands of the sequencer -/

section
variable (s : State) (c : Core)

theorem arrayPass_completes (c : Nat) (x : CoreS) (f : APassF) (gather conv : Bool) : Completes (arrayPass s c x f gather conv) := by
  unfold arrayPass
  refine .ite (.next _) (.ite (.next _) ?_)
  dsimp only
  split
  · exact .next _
  · exact .ite (.next _) (.ite (.next _) (.ite (.next _) (.ite (.next _) (.afterCheck (fun _ => .next _) _ _))))

theorem execApass_completes (f : APassF) (gather : Bool) : Completes (execApass c f gather s) := by
  refine .issue (fun t => .afterCheck (fun u => ?_) _ _) _
  refine .ite (.of_fine (skipPass_fine ..)) (.ite (arrayPass_completes ..) (.ite (.next _) (.afterCheck (fun v => ?_) _ _)))
  exact .ite (.next _) (.ite (.next _) (arrayPass_completes ..))

theorem execConvPass_completes (f : APassF) : Completes (execConvPass c f s) := by
  refine .issue (fun t => .afterCheck (fun u => ?_) _ _) _
  exact .ite (.of_fine (skipPass_fine ..)) (.ite (.next _) (.afterCheck (fun v => .ite (.next _) (arrayPass_completes ..)) _ _))

theorem execCast_completes {f : RFuncF} (h : castFieldsOk f = true) : Completes (execCast c f s) := by
  unfold execCast
  rw [h, Bool.not_true, if_neg Bool.false_ne_true]
  refine .issue (fun t => ?_) _
  dsimp only
  refine .ite (.of_fine (skipGo_fine ..)) (.ite (.next _) (.ite (.next _) (.ite (.next _) (.ite (.next _) (.ite (.next _) ?_)))))
  refine .afterCheck (fun u => .ite (.next _) ?_) _ _
  split <;> exact .next _

theorem execMove_completes (a : Reg) (p : PostField) : Completes (execMove c a p s) := by
  refine .issue (fun t => .ite (.of_fine (skipGo_fine ..)) (.ite (.next _) (.ite (.next _) ?_))) _
  split
  · exact .next _
  · refine .ite (.next _) ?_
    split
    · exact .next _
    · exact .ite (.next _) (.ite (.of_fine (skipGo_fine ..)) (.next _))

theorem execPost_completes (remote : Bool) (sem : Sem) (a : Reg) (imm : W32) : Completes (execPost c remote sem a imm s) := by
  refine .issue (fun t => .ite (.ite (.next _) (.ite (.next _) (.ite (.next _) ?_))) (.ite (.next _) (.next _))) _
  split
  · exact .next _
  · dsimp only
    split <;> exact .next _

theorem execShape_completes (d a : Reg) (slot : Fin 64) (imm : W32) : Completes (execShape c d a slot imm s) := by
  refine .issue (fun t => ?_) _
  split
  · exact .next _
  · refine .ite (.next _) ?_
    dsimp only
    split
    · exact .next _
    · exact .ite (.next _) (.of_fine (startWait_fine ..))
    · refine .ite (.next _) ?_
      split
      · exact .next _
      · split
        · exact .of_fine (startWait_fine ..)
        · exact .next _

end

/-! ### Writes and reads of the dictionary, and what Galena does -/

section
variable (s : State)

/-- A command that is a write ends in a next state, accepted or refused (R443). -/
theorem writeCommand_completes (o : Origin) (t : FTime) (index sub : Nat) (b : List Byte) : Completes (writeCommand o t index sub b s) := by
  refine .atTime (fun u => ?_) s t
  cases o with
  | fdp slot req ver =>
    refine .ite (.next _) ?_
    split <;> exact .next _
  | prog c =>
    refine .ite (.next _) ?_
    dsimp only
    split <;> exact .next _

theorem execFdpRead_completes (slot : Fin 8) (req : W32) (ver op : Byte) (body : List Byte) : Completes (execFdpRead slot req ver op body s) := by
  refine .ite (.answerRequest ..) (.ite (.next _) ?_)
  split
  · exact .next _
  · exact .ite (.next _) (.next _)

theorem execAuditEntryDurable_completes (written : Bool) : Completes (execAuditEntryDurable written s) := by
  refine .ite (.next _) ?_
  split <;> exact .next _

theorem execCheckpointSignatureDone_completes : Completes (execCheckpointSignatureDone s) := by
  unfold execCheckpointSignatureDone
  split
  · exact .ite (.next _) (.next _)
  · exact .next _

/-! ### Commands of the run, of power and of start-up -/

theorem execArmingChecksDone_completes (t : FTime) : Completes (execArmingChecksDone t s) := by
  refine .atTime (fun u => .ite (.next _) (.ite (.next _) ?_)) s t
  split <;> exact .next _

theorem execAbortingComplete_completes : Completes (execAbortingComplete s) := .ite (.next _) (.next _)

theorem execShardWalkDone_completes (t : FTime) : Completes (execShardWalkDone t s) := by
  refine .atTime (fun u => ?_) s t
  split
  · exact .next _
  · exact .ite (.next _) (.ite (.next _) (.next _))

theorem execRegionCommandDone_completes (t : FTime) (die : Fin 4) : Completes (execRegionCommandDone t die s) :=
  .atTime (fun _ => .ite (.next _) (.next _)) s t

theorem execMainFirmwareVerified_completes : Completes (execMainFirmwareVerified s) := by
  unfold execMainFirmwareVerified
  refine .ite ?_ (.next _)
  split
  exact .ite (.next _) (.next _)

theorem execStandbyPowerLoss_completes : Completes (execStandbyPowerLoss s) := .ite (.next _) (.next _)

theorem execPowerApplied_completes {mv : Int} (h : -60000 ≤ mv ∧ mv ≤ 64000) : Completes (execPowerApplied mv s) :=
  .rated h (.ite (.next _) (.next _))

theorem execSupplyHalt_completes (t : FTime) {mv : Nat} (h : -60000 ≤ (mv : Int) ∧ (mv : Int) ≤ 64000) : Completes (execSupplyHalt t mv s) :=
  .rated h (.atTime (fun _ => .ite (.next _) (.ite (.next _) (.next _))) s t)

theorem execGovernorTick_completes (t : FTime) {mv : Nat} (watts avg1ms avg10ms : Nat) (h : -60000 ≤ (mv : Int) ∧ (mv : Int) ≤ 64000) :
    Completes (execGovernorTick t mv watts avg1ms avg10ms s) :=
  .rated h (.atTime (fun _ => .ite (.next _) (.ite (.next _) (.next _))) s t)

end

/-! ### All commands -/

/-- The input voltages, in mV, that a command reports. -/
def reportedVolts : Instr → List Int
  | .powerApplied mv => [mv]
  | .supplyHalt _ mv => [(mv : Int)]
  | .governorTick _ mv _ _ _ => [(mv : Int)]
  | _ => []

theorem exec_completes {i : Instr} (s : State) (hwf : i.wf = true) (hvolts : ∀ mv ∈ reportedVolts i, -60000 ≤ mv ∧ mv ≤ 64000) :
    Completes (exec i s) := by
  cases i with
  | dictionaryWrite | powerUp | powerDown | restart | enterTest | enterRecovery | leave | arm | pause | resume | abort | armingWrite
  | semForce | regionModeWrite | exportShard | verify | clearHold | pageAreaSet | openSlot | map | free | close | decode | nms | crop
  | streamEnable | streamDisable | batchRelease | encode | reportRequest | enroll | challenge | release | install | raiseFloor
  | galenaRestart | writeRaw | readRaw =>
    exact writeCommand_completes ..
  | powerApplied mv => exact execPowerApplied_completes s (hvolts mv (List.mem_singleton.2 rfl))
  | standbyPowerLoss => exact execStandbyPowerLoss_completes s
  | supplyLow => exact .of_fine (execSupplyLow_fine ..)
  | supplyHalt t mv => exact execSupplyHalt_completes s t (hvolts mv (List.mem_singleton.2 rfl))
  | holdupExpiry => exact .of_fine (execHoldupExpiry_fine ..)
  | supplyRecovered => exact .of_fine (execSupplyRecovered_fine ..)
  | autoPowerUp => exact .of_fine (execAutoPowerUp_fine ..)
  | railsReady => exact .of_fine (execRailsReady_fine ..)
  | railTimeout => exact .of_fine (execRailTimeout_fine ..)
  | hbmTrainingDone => exact .of_fine (execHbmTrainingDone_fine ..)
  | memoryFillDone => exact .of_fine (execMemoryFillDone_fine ..)
  | selfTestDone => exact .of_fine (execSelfTestDone_fine ..)
  | mainFirmwareVerified => exact execMainFirmwareVerified_completes s
  | portStartTimeout => exact .of_fine (execPortStartTimeout_fine ..)
  | startComplete => exact .of_fine (execStartComplete_fine ..)
  | fdpHandshake => exact .of_fine (execFdpHandshake_fine ..)
  | fdpClose => exact .of_fine (execFdpClose_fine ..)
  | fdpSessionTimeout => exact .of_fine (execFdpSessionTimeout_fine ..)
  | hello => exact .of_fine (execHello_fine ..)
  | fdpRead => exact execFdpRead_completes ..
  | events => exact .of_fine (execEvents_fine ..)
  | auditEntries => exact .of_fine (execAuditEntries_fine ..)
  | auditCheckpointRead => exact .of_fine (execAuditCheckpointRead_fine ..)
  | auditEntryDurable => exact execAuditEntryDurable_completes ..
  | eventRecord => exact .of_fine (execEventRecord_fine ..)
  | armingChecksDone => exact execArmingChecksDone_completes ..
  | tabMeasured => exact .of_fine (execTabMeasured_fine ..)
  | armingDeadline => exact .of_fine (execArmingDeadline_fine ..)
  | rampStep => exact .of_fine (execRampStep_fine ..)
  | startFabricTimeReached => exact .of_fine (execStartFabricTimeReached_fine ..)
  | capoSwitch => exact .of_fine (execCapoSwitch_fine ..)
  | digestWalk => exact .of_fine (execDigestWalk_fine ..)
  | verdict => exact .of_fine (execVerdict_fine ..)
  | commitCapo => exact .of_fine (execCommitCapo_fine ..)
  | runEnd => exact .of_fine (execRunEnd_fine ..)
  | lateTransfer => exact .of_fine (execLateTransfer_fine ..)
  | abortFlitReceive => exact .of_fine (execAbortFlitReceive_fine ..)
  | abortingComplete => exact execAbortingComplete_completes ..
  | timeExchange => exact .of_fine (execTimeExchange_fine ..)
  | timeFlitReceive => exact .of_fine (execTimeFlitReceive_fine ..)
  | becomeRoot => exact .of_fine (execBecomeRoot_fine ..)
  | upstreamReselect => exact .of_fine (execUpstreamReselect_fine ..)
  | holdoverBoundExceeded => exact .of_fine (execHoldoverBoundExceeded_fine ..)
  | ppsInEdge => exact .of_fine (execPpsInEdge_fine ..)
  | ppsLost => exact .of_fine (execPpsLost_fine ..)
  | ppsOutPulse => exact .of_fine (execPpsOutPulse_fine ..)
  | flitLockAcquired => exact .of_fine (execFlitLockAcquired_fine ..)
  | linkDown => exact .of_fine (execLinkDown_fine ..)
  | laserFault => exact .of_fine (execLaserFault_fine ..)
  | trainReceive => exact .of_fine (execTrainReceive_fine ..)
  | heldPortRetrain => exact .of_fine (execHeldPortRetrain_fine ..)
  | corruptFlit => exact .of_fine (execCorruptFlit_fine ..)
  | retryRepeat => exact .of_fine (execRetryRepeat_fine ..)
  | retryReceive => exact .of_fine (execRetryReceive_fine ..)
  | mapSend => exact .of_fine (execMapSend_fine ..)
  | mapReceive => exact .of_fine (execMapReceive_fine ..)
  | headFlitReceive => exact .of_fine (execHeadFlitReceive_fine ..)
  | dataFlitReceive => exact .of_fine (execDataFlitReceive_fine ..)
  | landingCommit => exact .of_fine (execLandingCommit_fine ..)
  | readFlitReceive => exact .of_fine (execReadFlitReceive_fine ..)
  | respReceive => exact .of_fine (execRespReceive_fine ..)
  | ackReceive => exact .of_fine (execAckReceive_fine ..)
  | postFlitReceive => exact .of_fine (execPostFlitReceive_fine ..)
  | hostmsgReceive => exact .of_fine (execHostmsgReceive_fine ..)
  | schedFlitReceive => exact .of_fine (execSchedFlitReceive_fine ..)
  | completionTimeout => exact .of_fine (execCompletionTimeout_fine ..)
  | sendInstanceStart => exact .of_fine (execSendInstanceStart_fine ..)
  | sendReadDone => exact .of_fine (execSendReadDone_fine ..)
  | localInputStart => exact .of_fine (execLocalInputStart_fine ..)
  | groupBlockReduce => exact .of_fine (execGroupBlockReduce_fine ..)
  | stagedCopy => exact .of_fine (execStagedCopy_fine ..)
  | nop => exact .of_fine (execNop_fine ..)
  | halt => exact .of_fine (execHalt_fine ..)
  | programEnd => exact .of_fine (execProgramEnd_fine ..)
  | br => exact .of_fine (execBr_fine ..)
  | brc => exact .of_fine (execBrc_fine ..)
  | loop => exact .of_fine (execLoop_fine ..)
  | endl => exact .of_fine (execEndl_fine ..)
  | rdl => exact .of_fine (execRdl_fine ..)
  | movi => exact .of_fine (execMovi_fine ..)
  | movhi => exact .of_fine (execMovhi_fine ..)
  | alu => exact .of_fine (execAlu_fine ..)
  | cdiv => exact .of_fine (execCdiv_fine _ _ _ _ _ (by simpa [Instr.wf] using hwf))
  | ld => exact .of_fine (execLd_fine ..)
  | st => exact .of_fine (execSt_fine ..)
  | shape => exact execShape_completes ..
  | shapeValueArrival => exact .of_fine (execShapeValueArrival_fine ..)
  | setpad => exact .of_fine (execSetpad_fine ..)
  | wcbind => exact .of_fine (execWcbind_fine ..)
  | wcbindServe => exact .of_fine (execWcbindServe_fine ..)
  | wcinit => exact .of_fine (execWcinit_fine ..)
  | wcinitApply => exact .of_fine (execWcinitApply_fine ..)
  | take => exact .of_fine (execTake_fine _ _ _ _ _ (by simpa [Instr.wf] using hwf))
  | takeServe => exact .of_fine (execTakeServe_fine ..)
  | apass => exact execApass_completes ..
  | convPass => exact execConvPass_completes ..
  | mpass => exact .of_fine (execMpass_fine ..)
  | passRetire => exact .of_fine (execPassRetire_fine ..)
  | postFieldApply => exact .of_fine (execPostFieldApply_fine ..)
  | add => exact .of_fine (execAdd_fine _ _ _ hwf)
  | mul => exact .of_fine (execMul_fine _ _ _ hwf)
  | scale => exact .of_fine (execScale_fine _ _ _ hwf)
  | min => exact .of_fine (execMin_fine _ _ _ hwf)
  | max => exact .of_fine (execMax_fine _ _ _ hwf)
  | exp => exact .of_fine (execExp_fine _ _ _ hwf)
  | log => exact .of_fine (execLog_fine _ _ _ hwf)
  | recip => exact .of_fine (execRecip_fine _ _ _ hwf)
  | rsqrt => exact .of_fine (execRsqrt_fine _ _ _ hwf)
  | div => exact .of_fine (execDiv_fine _ _ _ hwf)
  | act => exact .of_fine (execAct_fine _ _ _ hwf)
  | actd => exact .of_fine (execActd_fine _ _ _ hwf)
  | rowmax => exact .of_fine (execRowmax_fine _ _ _ hwf)
  | rowsum => exact .of_fine (execRowsum_fine _ _ _ hwf)
  | poolRowmax => exact .of_fine (execPoolRowmax_fine _ _ _ hwf)
  | poolRowsum => exact .of_fine (execPoolRowsum_fine _ _ _ hwf)
  | softmax => exact .of_fine (execSoftmax_fine _ _ _ hwf)
  | softmaxd => exact .of_fine (execSoftmaxd_fine _ _ _ hwf)
  | stats => exact .of_fine (execStats_fine _ _ _ hwf)
  | output => exact .of_fine (execOutput_fine _ _ _ hwf)
  | delta => exact .of_fine (execDelta_fine _ _ _ hwf)
  | grad => exact .of_fine (execGrad_fine _ _ _ hwf)
  | lnorm => exact .of_fine (execLnorm_fine _ _ _ hwf)
  | rmsnorm => exact .of_fine (execRmsnorm_fine _ _ _ hwf)
  | cast => exact execCast_completes _ _ hwf
  | move => exact execMove_completes ..
  | moveStart => exact .of_fine (execMoveStart_fine ..)
  | moveRetire => exact .of_fine (execMoveRetire_fine ..)
  | wait => exact .of_fine (execWait_fine ..)
  | waitRelease => exact .of_fine (execWaitRelease_fine ..)
  | waitft => exact .of_fine (execWaitft_fine ..)
  | waitftRelease => exact .of_fine (execWaitftRelease_fine ..)
  | waitLong => exact .of_fine (execWaitLong_fine ..)
  | post => exact execPost_completes ..
  | drainComplete => exact .of_fine (execDrainComplete_fine ..)
  | contextSaved => exact .of_fine (execContextSaved_fine ..)
  | drainTimeout => exact .of_fine (execDrainTimeout_fine ..)
  | shardWalkDone => exact execShardWalkDone_completes ..
  | regionCommandDone => exact execRegionCommandDone_completes ..
  | listHeaderRead => exact .of_fine (execListHeaderRead_fine ..)
  | sampleDispatch => exact .of_fine (execSampleDispatch_fine ..)
  | sampleFinish => exact .of_fine (execSampleFinish_fine ..)
  | sampleEmit => exact .of_fine (execSampleEmit_fine ..)
  | sampleTimeout => exact .of_fine (execSampleTimeout_fine ..)
  | decodePipeFree => exact .of_fine (execDecodePipeFree_fine ..)
  | transcodeFrameDecoded => exact .of_fine (execTranscodeFrameDecoded_fine ..)
  | encodeFrameDone => exact .of_fine (execEncodeFrameDone_fine ..)
  | reportReady => exact .of_fine (execReportReady_fine ..)
  | installDone => exact .of_fine (execInstallDone_fine ..)
  | governorTick t mv watts avg1ms avg10ms => exact execGovernorTick_completes s t watts avg1ms avg10ms (hvolts mv (List.mem_singleton.2 rfl))
  | powerCapRelease => exact .of_fine (execPowerCapRelease_fine ..)
  | taperStep => exact .of_fine (execTaperStep_fine ..)
  | clockReturnStep => exact .of_fine (execClockReturnStep_fine ..)
  | throttleInAssert => exact .of_fine (execThrottleInAssert_fine ..)
  | throttleInRelease => exact .of_fine (execThrottleInRelease_fine ..)
  | haltInAssert => exact .of_fine (execHaltInAssert_fine ..)
  | haltInRelease => exact .of_fine (execHaltInRelease_fine ..)
  | inputReminder => exact .of_fine (execInputReminder_fine ..)
  | thermalThrottle => exact .of_fine (execThermalThrottle_fine ..)
  | thermalRelease => exact .of_fine (execThermalRelease_fine ..)
  | thermalHalt => exact .of_fine (execThermalHalt_fine ..)
  | scrubRead => exact .of_fine (execScrubRead_fine ..)
  | scrubOverdue => exact .of_fine (execScrubOverdue_fine ..)
  | sramRewrite => exact .of_fine (execSramRewrite_fine ..)
  | pcsLock => exact .of_fine (execPcsLock_fine ..)
  | trainAdvertise => exact .of_fine (execTrainAdvertise_fine ..)
  | flitSlot => exact .of_fine (execFlitSlot_fine ..)
  | idleReceive => exact .of_fine (execIdleReceive_fine ..)
  | checkpointSignatureDone => exact execCheckpointSignatureDone_completes ..

/-- Beyond the ratings of Table 19-6 the model stops (R557). -/
theorem exec_outsideRatings {i : Instr} (s : State) {mv : Int} (hmv : mv ∈ reportedVolts i) (hout : 64000 < mv ∨ mv < -60000) :
    exec i s = .fault .outsideRatings := by
  cases i with
  | powerApplied v =>
    obtain rfl := List.mem_singleton.1 hmv
    exact if_pos hout
  | supplyHalt t v =>
    obtain rfl := List.mem_singleton.1 hmv
    exact if_pos hout
  | governorTick t v watts avg1ms avg10ms =>
    obtain rfl := List.mem_singleton.1 hmv
    exact if_pos hout
  | _ => nomatch hmv

theorem rfunc_refused {op : Nat} {f : RFuncF} (h : rfOk op f = false) (s : State) (c : Core) (g : State → CoreS → RowJob → Out) :
    rfunc s c op f g = .refused .illFormed := by
  unfold rfunc
  rw [h]
  rfl

/-- What R120 keeps out of every program is refused. -/
theorem exec_illFormed {i : Instr} (s : State) (h : i.wf = false) : exec i s = .refused .illFormed := by
  cases i with
  | cdiv c d a imm => exact if_pos (by simpa [Instr.wf, imp_iff_not_or] using h)
  | take c d a imm => exact if_pos (by simpa [Instr.wf, imp_iff_not_or] using h)
  | cast c f =>
    have hfields : castFieldsOk f = false := h
    exact if_pos (by rw [hfields]; rfl)
  | add | mul | scale | min | max | exp | log | recip | rsqrt | div | act | actd | rowmax | rowsum | poolRowmax | poolRowsum | softmax | softmaxd
  | stats | output | delta | grad | lnorm | rmsnorm =>
    unfold exec
    exact rfunc_refused h ..
  | _ => nomatch h

/-- Settles O57: a well-formed command completes (`exec_completes`), one beyond the ratings stops (`exec_outsideRatings`), and an ill-formed one
is refused (`exec_illFormed`). -/
theorem commandsComplete : Obligations.CommandsComplete := by
  unfold Obligations.CommandsComplete
  intro i s volts
  have hreported : volts = reportedVolts i := rfl
  rw [hreported]
  exact ⟨exec_completes s, fun mv hmv hout => exec_outsideRatings s hmv hout, exec_illFormed s⟩

end Sys2Proof.Machine
end

section
/-!
SUPPORT. The sequencer's shared operations (R114, R121): setting a register, waiting, branching, and the end of a wait.
-/
namespace Sys2Proof.Machine
open Sys2Proof

/-! ### Registers and the next instruction -/

theorem CoreS.wreg_eq (x : CoreS) (d : Reg) (v : W64) : x.wreg d v = { x with regs := regsAfter x d v } := by
  unfold CoreS.wreg regsAfter
  split
  · rfl
  · rfl

theorem setAndGo_eq (s : State) (c : Nat) (x : CoreS) (d : Reg) (v : W64) :
    setAndGo s c x d v = .next (s.setCore c { x with regs := regsAfter x d v, pc := x.pc + 1 }) := by
  rw [setAndGo, CoreS.wreg_eq]
  rfl

/-- An instruction that only sets a register, issued. -/
theorem issue_setAndGo {s : State} {c : Nat} {w : W64} (h : Issuing s c w) (d : Reg) (v : CoreS → W64) :
    issue s c w (fun s x => setAndGo s c x d (v x)) =
      .next (s.setCore c { s.core c with regs := regsAfter (s.core c) d (v (s.core c)), pc := (s.core c).pc + 1 }) := by
  rw [issue_of_issuing h]
  exact setAndGo_eq ..

/-- A branch to an instruction of the program (R116). -/
theorem branch_to {x : CoreS} {imm : W32} {n : Nat} (h : (n : Int) = (x.pc : Int) + imm.toInt) (s : State) (c : Nat) :
    branch s c x imm = .next (s.setCore c { x with pc := n }) := by
  unfold branch
  dsimp only
  rw [← h, if_neg (by omega), Int.toNat_natCast]

/-- A branch before the first instruction. -/
theorem branch_before {x : CoreS} {imm : W32} (h : (x.pc : Int) + imm.toInt < 0) (s : State) (c : Nat) :
    branch s c x imm = .next (instrInvalid s c) := if_pos h

/-! ### The end of a wait -/

section
variable (s : State) (c : Nat)

theorem noteBallast_ent {i j : Nat} (h : ekey i j ≠ ekey 0x5504 (c + 1)) : (noteBallast s c).ent i j = s.ent i j := by
  unfold noteBallast
  dsimp only
  rw [State.ent_addEnt_ne _ _ _ _ _ _ h]
  rfl

theorem endWait_core (f : CoreS → CoreS) (k : Nat) : (endWait s c f).core k =
    if k = c then (f { s.core c with status := 2, wait := .none }).advance else s.core k := State.core_modCore ..

theorem endWait_core_self (f : CoreS → CoreS) : (endWait s c f).core c = (f { s.core c with status := 2, wait := .none }).advance := by
  rw [endWait_core, if_pos rfl]

theorem endWait_ent (f : CoreS → CoreS) {i j : Nat} (h : ekey i j ≠ ekey 0x5504 (c + 1)) : (endWait s c f).ent i j = s.ent i j :=
  noteBallast_ent s c h

end

end Sys2Proof.Machine
end

section
/-!
SUPPORT. What a fault of a core and an abort leave of the cores (R72, R121, R563): their places in their programs, their registers, their semaphores.
-/
namespace Sys2Proof.Machine
open Sys2Proof

/-! ### Cores that keep their place -/

/-- From x to y a core keeps its place in its program, its registers and its semaphores, and if it has halted by fault it stays so. -/
structure CoreHolds (x y : CoreS) : Prop where
  pc : y.pc = x.pc
  regs : y.regs = x.regs
  sems : y.sems = x.sems
  faulted : x.status = 5 → y.status = 5

/-- From s to t every core holds. -/
def CoresHold (s t : State) : Prop := ∀ k, CoreHolds (s.core k) (t.core k)

theorem CoreHolds.refl (x : CoreS) : CoreHolds x x := ⟨rfl, rfl, rfl, id⟩

theorem CoreHolds.trans {x y z : CoreS} (h : CoreHolds x y) (h' : CoreHolds y z) : CoreHolds x z :=
  ⟨h'.pc.trans h.pc, h'.regs.trans h.regs, h'.sems.trans h.sems, fun hx => h'.faulted (h.faulted hx)⟩

theorem CoreHolds.of_eq {x y : CoreS} (h : y = x) : CoreHolds x y := h ▸ .refl x

namespace CoresHold

theorem of_cores {s t : State} (h : t.cores = s.cores) : CoresHold s t := fun k => .of_eq (by unfold State.core; rw [h])

theorem refl (s : State) : CoresHold s s := of_cores rfl

theorem trans {s t u : State} (h : CoresHold s t) (h' : CoresHold t u) : CoresHold s u := fun k => (h k).trans (h' k)

theorem foldl {α : Type} {f : State → α → State} (h : ∀ s x, CoresHold s (f s x)) (l : List α) (s : State) : CoresHold s (l.foldl f s) := by
  induction l generalizing s with
  | nil => exact refl s
  | cons x l ih => exact (h s x).trans (ih _)

theorem modCore (s : State) (c : Nat) {f : CoreS → CoreS} (h : ∀ x, CoreHolds x (f x)) : CoresHold s (s.modCore c f) := fun k => by
  rw [State.core_modCore]
  split
  · next hk => rw [hk]; exact h _
  · exact .refl _

theorem raise (s : State) (code : Nat) (vs : List (Nat × Nat)) : CoresHold s (s.raise code vs) := of_cores rfl

theorem sem {s t : State} (h : CoresHold s t) (k j : Nat) : t.sem k j = s.sem k j := by
  unfold State.sem
  rw [(h k).sems]

end CoresHold

/-! ### Halting the cores by an abort -/

theorem CoreHolds.storeWrite (x : CoreS) (e : Nat × Nat × List W32) : CoreHolds x (x.storeWrite e) := by
  unfold CoreS.storeWrite
  split <;> exact ⟨rfl, rfl, rfl, id⟩

theorem foldl_coreHolds {α : Type} {f : CoreS → α → CoreS} (h : ∀ x a, CoreHolds x (f x a)) (l : List α) (x : CoreS) : CoreHolds x (l.foldl f x) := by
  induction l generalizing x with
  | nil => exact .refl x
  | cons a l ih => exact (h x a).trans (ih _)

theorem applyPass_holds (x : CoreS) (p : Pass) : CoreHolds x (applyPass x p) := by
  rw [applyPass_eq]
  have hclm : CoreHolds x (p.clm.foldl (fun x e => x.setClm e.1 e.2) x) :=
    foldl_coreHolds (f := fun x e => x.setClm e.1 e.2) (fun _ _ => ⟨rfl, rfl, rfl, id⟩) p.clm x
  exact hclm.trans (foldl_coreHolds CoreHolds.storeWrite p.writes _)

theorem haltCore_holds (n : Nat) (x : CoreS) : CoreHolds x (haltCore n x) := by
  unfold haltCore
  dsimp only
  have hpasses := foldl_coreHolds (f := fun y p => applyPass y (leftWrites (n + p.2) p.1)) (fun y p => applyPass_holds y _) x.passes.zipIdx x
  exact ⟨hpasses.pc, hpasses.regs, hpasses.sems, fun h => by dsimp only; rw [hpasses.faulted h]; rfl⟩

/-- A map with each value replaced reads as the replaced value, or as the default where it read as that before. -/
theorem sget_map {α : Type} (d : α) (g : Nat → α → α) (m : SMap α) (k : Nat) :
    sget d (m.map fun e => (e.1, g e.1 e.2)) k = g k (sget d m k) ∨ sget d (m.map fun e => (e.1, g e.1 e.2)) k = d ∧ sget d m k = d := by
  induction m with
  | nil => exact .inr ⟨rfl, rfl⟩
  | cons e m ih =>
    obtain ⟨i, v⟩ := e
    by_cases h : i = k
    · subst h
      simp [sget]
    · simpa [sget, h] using ih

theorem haltCores_hold (s : State) : CoresHold s (haltCores s) := by
  unfold haltCores
  generalize hu : s.cores.foldl (fun t c => touchLeft (releaseMoves t c.2) c) s = u
  have hcores : u.cores = s.cores := by
    rw [← hu]
    exact (Accounts.foldl (fun t (c : Nat × CoreS) => (releaseMoves_accounts t c.2).trans (touchLeft_accounts _ c)) s.cores s).cores
  refine (CoresHold.of_cores hcores).trans fun k => ?_
  rcases sget_map CoreS.reset (fun k y => haltCore (u.freeCtr + k * 64) y) u.cores k with h | ⟨h, h'⟩
  · exact (haltCore_holds (u.freeCtr + k * 64) (u.core k)).trans (.of_eq h)
  · exact .of_eq (h.trans h'.symm)

theorem openPorts_cores (s : State) : (openPorts s).cores = s.cores := by
  unfold openPorts mapPorts
  exact foldl_keeps (fun s p => s.modPort p _) State.cores (fun _ _ => rfl) (List.range 48) s

theorem abandon_holds (s : State) : CoresHold s (abandon s) := by
  have hidle : CoresHold s (waitBallast (hitRates s)) := .of_cores ((hitRates_accounts s).trans (waitBallast_accounts _)).cores
  have hdropped : CoresHold s (stepDropped s) := by
    refine (hidle.trans (haltCores_hold _)).trans (.of_cores ?_)
    unfold stepDropped
    rw [State.setEnt_cores, State.addEnt_cores, State.setEnt_cores, openPorts_cores]
  rw [abandon_eq]
  generalize stepDropped s = u at hdropped ⊢
  exact hdropped.trans (.of_cores (congrArg Prod.fst (enterEff_coresAndStreams (unitsFreed u) .aborting)))

/-- An abort that the module raises leaves each core its place, registers and semaphores. -/
theorem abortRun_holds (s : State) (reason : Nat) : CoresHold s (abortRun s reason) := by
  unfold abortRun
  split
  · obtain ⟨v, -, hcores, -, -, -, he⟩ := actAbort_cases s s.device reason s.now.toNat none
    rw [he]
    refine (CoresHold.of_cores hcores).trans ?_
    unfold decideAbort
    split
    · exact .refl v
    · split
      · exact abandon_holds v
      · exact .of_cores rfl
  · exact .refl s

/-! ### The fault of one core -/

/-- The image of a core that has halted by fault, written once (R166). -/
def saveOnce (t : State) (c point offset : Nat) : State := (saveImage t c point offset).modCore c fun x => { x with saved := true }

theorem saveOnce_holds (t : State) (c point offset : Nat) : CoresHold t (saveOnce t c point offset) :=
  (CoresHold.of_cores (memWrite_accounts t _ _).cores).trans (.modCore _ c fun _ => ⟨rfl, rfl, rfl, id⟩)

theorem modCore_spares (l : List (Nat × Nat)) (s : State) (c : Nat) (f : CoreS → CoreS) : Spares l s (s.modCore c f) := .of_eq l rfl rfl rfl rfl

theorem saveOnce_spares (l : List (Nat × Nat)) (t : State) (c point offset : Nat) : Spares l t (saveOnce t c point offset) :=
  (Spares.of_accounts l (memWrite_accounts t _ _)).trans (modCore_spares l _ c _)

theorem saveFaulted_holds (s : State) : CoresHold s (saveFaulted s) := by
  unfold saveFaulted
  split
  · exact .refl s
  · refine .foldl (fun t c => ?_) _ s
    split
    · exact saveOnce_holds t c _ _
    · exact .refl t

theorem saveFaulted_spares (l : List (Nat × Nat)) (s : State) : Spares l s (saveFaulted s) := by
  unfold saveFaulted
  split
  · exact .refl l s
  · refine .foldl (fun t c => ?_) _ s
    split
    · exact saveOnce_spares l t c _ _
    · exact .refl l t

theorem endBallast_accounts (s : State) (c : Nat) : Accounts s (endBallast s c) := by
  unfold endBallast
  split
  · exact noteBallast_accounts s c
  · exact .refl s

/-- A core that halts by fault stays at its instruction, with its registers; the fault's event tells the fabric time and the device (R121). -/
theorem coreFault_halts (s : State) (c code : Nat) (vs : List (Nat × Nat)) :
    ((coreFault s c code vs).core c).status = 5 ∧ ((coreFault s c code vs).core c).pc = (s.core c).pc ∧
      ((coreFault s c code vs).core c).regs = (s.core c).regs ∧
      ∃ e ∈ (coreFault s c code vs).ev.raised, e.code = BitVec.ofNat 16 code ∧ e.time = s.now ∧ e.device = BitVec.ofNat 16 s.device := by
  have hidle := endBallast_accounts s c
  have hstop : (stopFaulted s c).core c = { s.core c with status := 5, wait := .none } := by
    rw [stopFaulted, State.core_modCore, if_pos rfl, core_of_accounts hidle]
  have hholds : CoresHold (stopFaulted s c) (coreFault s c code vs) :=
    ((CoresHold.of_cores rfl).trans (saveFaulted_holds ((stopFaulted s c).raise code vs))).trans (abortRun_holds _ code)
  have hspares : Spares abortEntries ((stopFaulted s c).raise code vs) (coreFault s c code vs) :=
    (saveFaulted_spares abortEntries _).trans (abortRun_spares _ code)
  obtain ⟨hpc, hregs, -, hstatus⟩ := hholds c
  rw [hstop] at hpc hregs hstatus
  refine ⟨hstatus rfl, hpc, hregs, _, hspares.mem_raised (List.mem_append_right _ (List.mem_singleton.2 rfl)), rfl, hidle.now, ?_⟩
  exact congrArg (BitVec.ofNat 16) (hidle.low 0x3200 4 (by decide) (by decide))

end Sys2Proof.Machine
end

section
/-!
Scalar instructions (O1): the results of Table 4-2.
-/
namespace Sys2Proof.Machine
open Sys2Proof

/-! ### Results -/

/-- What Table 4-2 says of the result v of an ALU operation on a and b. -/
def AluResult (op : AluOp) (a b v : W64) : Prop :=
  match op with
  | .add => v.toNat = (a.toNat + b.toNat) % 2 ^ 64
  | .sub => v.toNat = (a.toNat + 2 ^ 64 - b.toNat) % 2 ^ 64
  | .mul => v.toNat = a.toNat * b.toNat % 2 ^ 64
  | .and => ∀ i, v.getLsbD i = (a.getLsbD i && b.getLsbD i)
  | .or => ∀ i, v.getLsbD i = (a.getLsbD i || b.getLsbD i)
  | .xor => ∀ i, v.getLsbD i = (a.getLsbD i ^^ b.getLsbD i)
  | .shl => v.toNat = a.toNat * 2 ^ (b.toNat % 64) % 2 ^ 64
  | .shr => v.toNat = a.toNat / 2 ^ (b.toNat % 64)
  | .sar => v.toInt = a.toInt / 2 ^ (b.toNat % 64)
  | .minu => v.toNat = Nat.min a.toNat b.toNat
  | .maxu => v.toNat = Nat.max a.toNat b.toNat
  | .mins => v.toInt = min a.toInt b.toInt
  | .maxs => v.toInt = max a.toInt b.toInt

theorem aluApply_result (op : AluOp) (a b : W64) : AluResult op a b (aluApply op a b) := by
  cases op with
  | add => exact BitVec.toNat_add a b
  | sub =>
    have := b.isLt
    change (a - b).toNat = _
    rw [BitVec.toNat_sub]
    congr 1
    omega
  | mul => exact BitVec.toNat_mul a b
  | and => exact fun i => BitVec.getLsbD_and
  | or => exact fun i => BitVec.getLsbD_or
  | xor => exact fun i => BitVec.getLsbD_xor
  | shl =>
    change (a <<< (b.toNat % 64)).toNat = _
    rw [BitVec.toNat_shiftLeft, Nat.shiftLeft_eq]
  | shr =>
    change (a >>> (b.toNat % 64)).toNat = _
    rw [BitVec.toNat_ushiftRight, Nat.shiftRight_eq_div_pow]
  | sar =>
    change (a.sshiftRight (b.toNat % 64)).toInt = _
    rw [BitVec.toInt_sshiftRight, Int.shiftRight_eq_div_pow]
    norm_cast
  | minu =>
    change (if a.toNat ≤ b.toNat then a else b).toNat = min a.toNat b.toNat
    rw [apply_ite BitVec.toNat, min_def]
  | maxu =>
    change (if a.toNat ≤ b.toNat then b else a).toNat = max a.toNat b.toNat
    rw [apply_ite BitVec.toNat, max_def]
  | mins =>
    change (if a.toInt ≤ b.toInt then a else b).toInt = min a.toInt b.toInt
    rw [apply_ite BitVec.toInt, min_def]
  | maxs =>
    change (if a.toInt ≤ b.toInt then b else a).toInt = max a.toInt b.toInt
    rw [apply_ite BitVec.toInt, max_def]

/-- CDIV rounds up: the quotient times the divisor reaches the dividend, and falls short of one divisor more. -/
theorem ceilDiv_bounds (a : Nat) {n : Nat} (hn : 0 < n) : a ≤ ceilDiv a n * n ∧ ceilDiv a n * n < a + n := by
  have hdiv := Nat.div_add_mod (a + n - 1) n
  have hmod := Nat.mod_lt (a + n - 1) hn
  rw [Nat.mul_comm] at hdiv
  unfold ceilDiv
  omega

theorem ceilDiv_le (a : Nat) {n : Nat} (hn : 0 < n) : ceilDiv a n ≤ a := by
  unfold ceilDiv
  rw [Nat.div_le_iff_le_mul_add_pred hn]
  have := Nat.le_mul_of_pos_left a hn
  omega

/-- As CDIV gives it, the quotient fits its register. -/
theorem cdiv_bounds (a : W64) {imm : W32} (hpos : imm ≠ 0) :
    a.toNat ≤ (BitVec.ofNat 64 (ceilDiv a.toNat imm.toNat)).toNat * imm.toNat ∧
      (BitVec.ofNat 64 (ceilDiv a.toNat imm.toNat)).toNat * imm.toNat < a.toNat + imm.toNat := by
  have hn : 0 < imm.toNat := Nat.pos_of_ne_zero fun h0 => hpos (BitVec.eq_of_toNat_eq h0)
  rw [BitVec.toNat_ofNat, Nat.mod_eq_of_lt ((ceilDiv_le a.toNat hn).trans_lt a.isLt)]
  exact ceilDiv_bounds a.toNat hn

/-- MOVHI replaces the upper half. -/
theorem toNat_append_half (imm : W32) (a : W64) : (imm ++ a.setWidth 32 : BitVec 64).toNat = imm.toNat * 2 ^ 32 + a.toNat % 2 ^ 32 := by
  have hlow : (a.setWidth 32).toNat < 2 ^ 32 := (a.setWidth 32).isLt
  change (imm ++ a.setWidth 32).toNat = _
  rw [BitVec.toNat_append, ← Nat.shiftLeft_add_eq_or_of_lt hlow, Nat.shiftLeft_eq, BitVec.toNat_setWidth]

/-! ### Each instruction, issued -/

section
variable {s : State} {c : Core}

theorem nop_runs (h : Issuing s c.val (iw 0x01 0 0)) :
    exec (.nop c) s = .next (s.setCore c.val { s.core c.val with pc := (s.core c.val).pc + 1 }) := by
  change execNop c s = _
  exact issue_of_issuing h fun s x => .next (s.setCore c.val x.advance)

theorem setpad_runs {pad : Fin 4} {imm : W32} (h : Issuing s c.val (iw 0x21 pad.val (fi imm))) : exec (.setpad c pad imm) s =
    .next (s.setCore c.val { s.core c.val with pads := (s.core c.val).pads.set pad.val imm, pc := (s.core c.val).pc + 1 }) := by
  change execSetpad c pad imm s = _
  exact issue_of_issuing h fun s x => .next (s.setCore c.val ({ x with pads := x.pads.set pad.val imm }.advance))

/-- A core with register d set to v, at its next instruction. -/
def CoreS.result (x : CoreS) (d : Reg) (v : W64) : CoreS := { x with regs := regsAfter x d v, pc := x.pc + 1 }

variable {d a : Reg} {imm : W32}

theorem rdl_runs {k : Fin 4} (h : Issuing s c.val (iw 0x07 k.val (fd d))) : exec (.rdl c k d) s =
    .next (s.setCore c.val ((s.core c.val).result d (BitVec.ofNat 64 ((s.core c.val).counters.getD k.val 0).toNat))) := by
  change execRdl c k d s = _
  exact issue_setAndGo h d fun x => BitVec.ofNat 64 (x.counters.getD k.val 0).toNat

theorem movi_runs (h : Issuing s c.val (iw 0x10 0 (fd d + fi imm))) :
    exec (.movi c d imm) s = .next (s.setCore c.val ((s.core c.val).result d (imm.signExtend 64))) := by
  change execMovi c d imm s = _
  exact issue_setAndGo h d fun _ => imm.signExtend 64

theorem movhi_runs (h : Issuing s c.val (iw 0x11 0 (fd d + fi imm))) :
    exec (.movhi c d imm) s = .next (s.setCore c.val ((s.core c.val).result d (imm ++ ((s.core c.val).reg d).setWidth 32))) := by
  change execMovhi c d imm s = _
  exact issue_setAndGo h d fun x => imm ++ (x.reg d).setWidth 32

theorem cdiv_runs (hpos : imm ≠ 0) (hmax : imm.toNat ≤ 2 ^ 31) (h : Issuing s c.val (iw 0x13 0 (fd d + fa a + fi imm))) : exec (.cdiv c d a imm) s =
    .next (s.setCore c.val ((s.core c.val).result d (BitVec.ofNat 64 (ceilDiv ((s.core c.val).reg a).toNat imm.toNat)))) := by
  change execCdiv c d a imm s = _
  unfold execCdiv
  rw [if_neg (not_or.2 ⟨hpos, Nat.not_lt.2 hmax⟩)]
  exact issue_setAndGo h d fun x => BitVec.ofNat 64 (ceilDiv (x.reg a).toNat imm.toNat)

theorem alu_reg_runs {op : AluOp} {b : Reg} (h : Issuing s c.val (iw 0x12 (aluCode op + 0) (fd d + fa a + fb b))) : exec (.alu c op d a (.reg b)) s =
    .next (s.setCore c.val ((s.core c.val).result d (aluApply op ((s.core c.val).reg a) ((s.core c.val).reg b)))) := by
  change execAlu c op d a (.reg b) s = _
  exact issue_setAndGo h d fun x => aluApply op (x.reg a) (x.reg b)

theorem alu_imm_runs {op : AluOp} (h : Issuing s c.val (iw 0x12 (aluCode op + 16) (fd d + fa a + fi imm))) : exec (.alu c op d a (.imm imm)) s =
    .next (s.setCore c.val ((s.core c.val).result d (aluApply op ((s.core c.val).reg a) (imm.signExtend 64)))) := by
  change execAlu c op d a (.imm imm) s = _
  exact issue_setAndGo h d fun x => aluApply op (x.reg a) (imm.signExtend 64)

end

/-! ### The obligation -/

/-- Settles O1: each instruction, issued, sets its register or pad, and the values are those of Table 4-2 (`aluApply_result`, `cdiv_bounds`). -/
theorem scalarResults : Obligations.ScalarResults := by
  unfold Obligations.ScalarResults
  intro s c d a imm k op x goes sets
  refine ⟨nop_runs, fun h => ⟨_, ?_, rdl_runs h⟩, fun h => ⟨_, ?_, movi_runs h⟩, fun h => ⟨_, ?_, movhi_runs h⟩,
    fun hpos hmax h => ⟨_, ?_, cdiv_runs hpos hmax h⟩, setpad_runs, ?_⟩
  · have := (x.counters.getD k.val 0).isLt
    exact (BitVec.toNat_ofNat _ _).trans (Nat.mod_eq_of_lt (by omega))
  · exact BitVec.toInt_signExtend_of_le (by decide)
  · exact toNat_append_half imm (x.reg d)
  · exact cdiv_bounds (x.reg a) hpos
  · intro rhs right left n h
    cases rhs with
    | reg b => exact ⟨_, aluApply_result op left right, alu_reg_runs h⟩
    | imm v => exact ⟨_, aluApply_result op left right, alu_imm_runs h⟩

end Sys2Proof.Machine
end

section
/-!
Control flow (O2): the end of a program, branches, loops (R116, R122, R123).
-/
namespace Sys2Proof.Machine
open Sys2Proof

/-! ### The end of a program, and branches -/

/-- The condition of a BRC, as Table 4-2 says it. -/
def BranchTaken (k : Cond) (u v : W64) : Prop :=
  match k with
  | .eq => u = v
  | .ne => u ≠ v
  | .lt => u.toInt < v.toInt
  | .ge => v.toInt ≤ u.toInt
  | .ltu => u.toNat < v.toNat
  | .geu => v.toNat ≤ u.toNat

theorem condHolds_iff (k : Cond) (u v : W64) : condHolds k u v = true ↔ BranchTaken k u v := by
  cases k <;> exact decide_eq_true_iff

theorem settled_of {x : CoreS} (hpasses : x.passes = []) (hmoves : ∀ m ∈ x.moves, m.retired = true) (hposts : x.posts = []) : x.settled = true := by
  simp [CoreS.settled, hpasses, hposts]
  exact hmoves

section
variable {s : State} {c : Core}

theorem halt_waits (h : Issuing s c.val (iw 0x02 0 0)) :
    exec (.halt c) s = .next (s.setCore c.val { s.core c.val with wait := .halt, waitSince := s.now }) := by
  change execHalt c s = _
  exact issue_of_issuing h fun s x => .next (s.setCore c.val { x with wait := .halt, waitSince := s.now })

theorem programEnd_ends (hr : s.running = true) (hw : (s.core c.val).wait = .halt) (hs : (s.core c.val).settled = true) :
    exec (.programEnd c) s = .next (s.setCore c.val { s.core c.val with status := 4, wait := .none }) := if_pos ⟨hr, hw, hs⟩

variable {a b : Reg} {imm : W32} {k : Cond} {n : Nat}

theorem br_goes (hn : (n : Int) = ((s.core c.val).pc : Int) + imm.toInt) (h : Issuing s c.val (iw 0x03 0 (fi imm))) :
    exec (.br c imm) s = .next (s.setCore c.val { s.core c.val with pc := n }) := by
  change execBr c imm s = _
  exact (issue_of_issuing h fun s x => branch s c.val x imm).trans (branch_to hn s c.val)

/-- A BRC that is issued branches where its condition holds, and else goes on. -/
theorem brc_runs (h : Issuing s c.val (iw 0x04 (condCode k) (fa a + fb b + fi imm))) : exec (.brc c k a b imm) s =
    if condHolds k ((s.core c.val).reg a) ((s.core c.val).reg b) then branch s c.val (s.core c.val) imm
    else .next (s.setCore c.val (s.core c.val).advance) := by
  change execBrc c k a b imm s = _
  exact issue_of_issuing h fun s x =>
    if condHolds k (x.reg a) (x.reg b) then branch s c.val x imm else .next (s.setCore c.val x.advance)

theorem brc_goes (hn : (n : Int) = ((s.core c.val).pc : Int) + imm.toInt) (h : Issuing s c.val (iw 0x04 (condCode k) (fa a + fb b + fi imm)))
    (ht : BranchTaken k ((s.core c.val).reg a) ((s.core c.val).reg b)) :
    exec (.brc c k a b imm) s = .next (s.setCore c.val { s.core c.val with pc := n }) := by
  rw [brc_runs h, if_pos ((condHolds_iff k _ _).2 ht)]
  exact branch_to hn s c.val

theorem brc_passes (h : Issuing s c.val (iw 0x04 (condCode k) (fa a + fb b + fi imm)))
    (ht : ¬ BranchTaken k ((s.core c.val).reg a) ((s.core c.val).reg b)) :
    exec (.brc c k a b imm) s = .next (s.setCore c.val { s.core c.val with pc := (s.core c.val).pc + 1 }) := by
  rw [brc_runs h, if_neg (mt (condHolds_iff k _ _).1 ht)]
  rfl

end

/-! ### Loops -/

/-- The flags of a LOOP word. -/
def loopFlags (counter : Option (Fin 4)) (live : Option Reg) : Nat :=
  (match counter with | some k => k.val + 4 | none => 0) + (if live.isSome then 8 else 0)

/-- The register field of a LOOP word. -/
def loopReg (live : Option Reg) : Nat := match live with | some a => fa a | none => 0

/-- The live count of a LOOP: the planned count in skip mode or without LIVE. -/
def CoreS.liveCount (x : CoreS) (live : Option Reg) (planned : W32) : Nat :=
  if x.inSkip then planned.toNat else match live with | some a => (x.reg a).toNat | none => planned.toNat

/-- The counters, with that of a level, if it has one, at v. -/
def CoreS.countersAt (x : CoreS) (counter : Option (Fin 4)) (v : W32) : List W32 :=
  match counter with
  | some k => x.counters.set k.val v
  | none => x.counters

/-- The level that a LOOP opens. -/
def CoreS.openedLevel (x : CoreS) (counter : Option (Fin 4)) (live : Option Reg) (planned : W32) : LoopL :=
  { body := x.pc + 1, planned := planned, live := BitVec.ofNat 32 (x.liveCount live planned), index := 0, counter := counter,
    skipping := x.inSkip || decide (x.liveCount live planned = 0) }

section
variable {s : State} {c : Core} {counter : Option (Fin 4)} {live : Option Reg} {planned : W32}

/-- A LOOP whose live count is within the planned one opens a level, or passes over its body where that is 0. -/
theorem loop_runs (h : Issuing s c.val (iw 0x05 (loopFlags counter live) (loopReg live + fi planned)))
    (hn : (s.core c.val).liveCount live planned ≤ planned.toNat) : exec (.loop c counter live planned) s =
    if planned = 0 then .next (s.setCore c.val { s.core c.val with
      pc := afterEndl (s.core c.val).program (s.core c.val).program.length ((s.core c.val).pc + 1) 1 })
    else .next (s.setCore c.val { s.core c.val with
      loops := (s.core c.val).openedLevel counter live planned :: (s.core c.val).loops, pc := (s.core c.val).pc + 1
      counters := (s.core c.val).countersAt counter 0 }) := by
  change execLoop c counter live planned s = _
  unfold execLoop
  refine Eq.trans (issue_of_issuing h _) ?_
  exact if_neg (Nat.not_lt.2 hn)

/-- The innermost level l, over the outer ones r, counted up: its body runs again, skipping where an outer level does or from the live count on. -/
def CoreS.loopAgain (x : CoreS) (l : LoopL) (r : List LoopL) : CoreS :=
  { x with
    loops := { l with index := l.index + 1, skipping := (r.any fun l => l.skipping) || decide (l.live.toNat ≤ l.index.toNat + 1) } :: r
    counters := x.countersAt l.counter (l.index + 1)
    pc := l.body }

/-- The innermost level l closed, with its counter at the planned count. -/
def CoreS.loopDone (x : CoreS) (l : LoopL) (r : List LoopL) : CoreS :=
  { x with loops := r, pc := x.pc + 1, counters := x.countersAt l.counter l.planned }

theorem endl_runs {l : LoopL} {r : List LoopL} (h : Issuing s c.val (iw 0x06 0 0)) (hl : (s.core c.val).loops = l :: r)
    (hi : l.index.toNat < l.planned.toNat) : exec (.endl c) s =
    if l.index.toNat + 1 < l.planned.toNat then .next (s.setCore c.val ((s.core c.val).loopAgain l r))
    else .next (s.setCore c.val ((s.core c.val).loopDone l r)) := by
  have hplanned := l.planned.isLt
  have hindex : (l.index + 1).toNat = l.index.toNat + 1 := by
    rw [BitVec.toNat_add]
    exact Nat.mod_eq_of_lt (by change l.index.toNat + 1 < _; omega)
  change execEndl c s = _
  unfold execEndl
  rw [issue_of_issuing h, hl]
  dsimp only
  rw [hindex]
  rfl

end

/-! ### The obligation -/

/-- Settles O2, instruction by instruction; a LOOP opens `CoreS.openedLevel`, an ENDL leaves `CoreS.loopAgain` or `CoreS.loopDone`. -/
theorem controlFlow : Obligations.ControlFlow := by
  unfold Obligations.ControlFlow
  refine ⟨fun s c a b imm k => ?_, fun s c counter live planned => ?_⟩
  · intro x goTo u v taken
    have htaken : BranchTaken k u v ↔ taken := by cases k <;> exact Iff.rfl
    exact ⟨halt_waits, fun hr hw hpasses hmoves hposts => programEnd_ends hr hw (settled_of hpasses hmoves hposts),
      fun n hn => ⟨br_goes hn, fun h ht => brc_goes hn h (htaken.2 ht)⟩, fun h ht => brc_passes h (mt htaken.1 ht)⟩
  · intro x w outer n
    refine ⟨fun h hp hn => ?_, fun h hp hn => ?_, fun l r h hl hi => endl_runs h hl hi⟩
    · exact (loop_runs h (hn.trans_le (Nat.zero_le _))).trans (if_pos hp)
    · have hplanned := planned.isLt
      exact ⟨x.openedLevel counter live planned, rfl, rfl, (BitVec.toNat_ofNat _ _).trans (Nat.mod_eq_of_lt (hn.trans_lt hplanned)), rfl, rfl, rfl,
        (loop_runs h hn).trans (if_neg hp)⟩

end Sys2Proof.Machine
end

section
/-!
Loads, stores and invalid operands (O3): Table 4-2, R121.
-/
namespace Sys2Proof.Machine
open Sys2Proof

/-! ### Little-endian values and their bytes -/

theorem ofLe_lt (b : List Byte) : ofLe b < 256 ^ b.length := by
  induction b with
  | nil => exact Nat.one_pos
  | cons x r ih =>
    have hx : x.toNat < 256 := x.isLt
    rw [ofLe, List.length_cons, Nat.pow_succ]
    omega

theorem ofLe_map {α : Type} (f : α → Byte) (l : List α) : ofLe (l.map f) = l.foldr (fun i m => (f i).toNat + 256 * m) 0 := by
  induction l with
  | nil => rfl
  | cons x l ih => rw [List.map_cons, ofLe, ih, List.foldr_cons]

theorem getD_le {n i : Nat} (h : i < n) (v : Nat) : (le n v).getD i 0 = BitVec.ofNat 8 (v / 256 ^ i) := by
  induction i generalizing n v with
  | zero =>
    obtain ⟨n, rfl⟩ := Nat.exists_eq_add_of_lt h
    simp [le]
  | succ i ih =>
    obtain ⟨n, rfl⟩ := Nat.exists_eq_succ_of_ne_zero (Nat.ne_zero_of_lt h)
    rw [le, List.getD_cons_succ, ih (Nat.lt_of_succ_lt_succ h), Nat.div_div_eq_div_mul, Nat.pow_succ']

/-- The value of the bytes of a place of core-local memory. -/
theorem ofLe_clmBytes (x : CoreS) (v n : Nat) :
    ofLe (x.clmBytes v n) = (List.range n).foldr (fun i m => (sget 0 x.clm (v + i)).toNat + 256 * m) 0 := ofLe_map ..

theorem toNat_clmBytes (x : CoreS) (v : Nat) (size : MemSize) :
    (BitVec.ofNat 64 (ofLe (x.clmBytes v (sizeBytes size)))).toNat = ofLe (x.clmBytes v (sizeBytes size)) := by
  have hlen : (x.clmBytes v (sizeBytes size)).length = sizeBytes size := by simp [CoreS.clmBytes, sread]
  have hsize : 256 ^ sizeBytes size ≤ 2 ^ 64 := by cases size <;> decide
  rw [BitVec.toNat_ofNat]
  exact Nat.mod_eq_of_lt ((hlen ▸ ofLe_lt _).trans_le hsize)

/-! ### The address a + imm -/

section
variable {x : CoreS} {a : Reg} {imm : W32}

theorem sumAddr_of_eq {v : Nat} (h : (v : Int) = ((x.reg a).toNat : Int) + imm.toInt) (hv : v < 2 ^ 64) : sumAddr x a imm = some v := by
  unfold sumAddr
  dsimp only
  rw [← h, if_pos (by omega), Int.toNat_natCast]

theorem sumAddr_cases (x : CoreS) (a : Reg) (imm : W32) :
    (∃ v : Nat, sumAddr x a imm = some v ∧ (v : Int) = ((x.reg a).toNat : Int) + imm.toInt) ∨
      sumAddr x a imm = none ∧ (((x.reg a).toNat : Int) + imm.toInt < 0 ∨ 2 ^ 64 ≤ ((x.reg a).toNat : Int) + imm.toInt) := by
  unfold sumAddr
  dsimp only
  split
  · next h => exact .inl ⟨_, rfl, Int.toNat_of_nonneg h.1⟩
  · exact .inr ⟨rfl, by omega⟩

/-- An access of n bytes at the address is outside core-local memory or misaligned. -/
def AccessOutside (x : CoreS) (a : Reg) (imm : W32) (n : Nat) : Prop :=
  ((x.reg a).toNat : Int) + imm.toInt < 0 ∨ 0x400000 < ((x.reg a).toNat : Int) + imm.toInt + n ∨ (((x.reg a).toNat : Int) + imm.toInt) % n ≠ 0

/-- An access outside core-local memory does not go on. -/
theorem match_sumAddr_of_outside {n : Nat} {α : Type} {y : α} {f : Nat → α} (h : AccessOutside x a imm n) :
    (match sumAddr x a imm with
      | none => y
      | some v => if v % n ≠ 0 ∨ clmSize < v + n then y else f v) = y := by
  rcases sumAddr_cases x a imm with ⟨v, hv, he⟩ | ⟨hv, -⟩
  · have hbad : v % n ≠ 0 ∨ clmSize < v + n := by
      unfold AccessOutside at h
      rw [← he] at h
      unfold clmSize
      omega
    rw [hv]
    exact if_pos hbad
  · rw [hv]

end

/-! ### Stores into core-local memory -/

theorem writeClm_core (s : State) (c a : Nat) (b : List Byte) (k : Nat) :
    (s.writeClm c a b).core k = if k = c then (s.core c).setClm a b else s.core k := by
  rw [State.writeClm, touchSram_core, State.core_modCore]

theorem writeClm_hbm (s : State) (c a : Nat) (b : List Byte) : (s.writeClm c a b).mem.hbm = s.mem.hbm := touchSram_hbm ..

/-! ### Each instruction, issued -/

section
variable {s : State} {c : Core} {size : MemSize} {d a b : Reg} {imm : W32} {v : Nat}

theorem ld_runs (h : Issuing s c.val (iw 0x14 (sizeCode size) (fd d + fa a + fi imm)))
    (hv : (v : Int) = (((s.core c.val).reg a).toNat : Int) + imm.toInt) (halign : v % sizeBytes size = 0) (hfit : v + sizeBytes size ≤ clmSize)
    (hfree : held (s.core c.val) 9 (clmUnits v (sizeBytes size)) [] = false) (hsound : (sramReadCheck s 2 c.val v (sizeBytes size)).2 = false) :
    exec (.ld c size d a imm) s = setAndGo (sramReadCheck s 2 c.val v (sizeBytes size)).1 c.val (s.core c.val) d
      (BitVec.ofNat 64 (ofLe ((s.core c.val).clmBytes v (sizeBytes size)))) := by
  have hsum := sumAddr_of_eq hv (by unfold clmSize at hfit; omega)
  change execLd c size d a imm s = _
  unfold execLd
  rw [issue_of_issuing h, hsum]
  dsimp only
  rw [if_neg (by omega), hfree, if_neg Bool.false_ne_true, afterCheck_of_sound hsound, core_of_accounts (sramReadCheck_accounts ..)]

theorem st_runs (h : Issuing s c.val (iw 0x15 (sizeCode size) (fa a + fb b + fi imm)))
    (hv : (v : Int) = (((s.core c.val).reg a).toNat : Int) + imm.toInt) (halign : v % sizeBytes size = 0) (hfit : v + sizeBytes size ≤ clmSize)
    (hfree : held (s.core c.val) 9 [] (clmUnits v (sizeBytes size)) = false) :
    exec (.st c size a b imm) s =
      .next ((s.writeClm c.val v (le (sizeBytes size) ((s.core c.val).reg b).toNat)).modCore c.val CoreS.advance) := by
  have hsum := sumAddr_of_eq hv (by unfold clmSize at hfit; omega)
  change execSt c size a b imm s = _
  unfold execSt
  rw [issue_of_issuing h, hsum]
  dsimp only
  rw [if_neg (by omega), hfree, if_neg Bool.false_ne_true]

theorem ld_outside (h : Issuing s c.val (iw 0x14 (sizeCode size) (fd d + fa a + fi imm)))
    (ho : AccessOutside (s.core c.val) a imm (sizeBytes size)) : exec (.ld c size d a imm) s = .next (instrInvalid s c.val) := by
  change execLd c size d a imm s = _
  unfold execLd
  rw [issue_of_issuing h]
  exact match_sumAddr_of_outside ho

theorem st_outside (h : Issuing s c.val (iw 0x15 (sizeCode size) (fa a + fb b + fi imm)))
    (ho : AccessOutside (s.core c.val) a imm (sizeBytes size)) : exec (.st c size a b imm) s = .next (instrInvalid s c.val) := by
  change execSt c size a b imm s = _
  unfold execSt
  rw [issue_of_issuing h]
  exact match_sumAddr_of_outside ho

theorem br_invalid (h : Issuing s c.val (iw 0x03 0 (fi imm))) (ht : ((s.core c.val).pc : Int) + imm.toInt < 0) :
    exec (.br c imm) s = .next (instrInvalid s c.val) := by
  change execBr c imm s = _
  exact (issue_of_issuing h fun s x => branch s c.val x imm).trans (branch_before ht s c.val)

theorem endl_invalid (h : Issuing s c.val (iw 0x06 0 0)) (hl : (s.core c.val).loops = []) : exec (.endl c) s = .next (instrInvalid s c.val) := by
  change execEndl c s = _
  unfold execEndl
  rw [issue_of_issuing h, hl]

theorem wcinit_invalid {counter : Byte} (h : Issuing s c.val (iw 0x23 0 (fa a + counter.toNat * 2 ^ 32)))
    (hlimit : 0xFFFFFFFD < ((s.core c.val).reg a).toNat) : exec (.wcinit c a counter) s = .next (instrInvalid s c.val) := by
  change execWcinit c a counter s = _
  unfold execWcinit
  rw [issue_of_issuing h]
  exact if_pos hlimit

theorem wait_invalid {sem : Sem} (h : Issuing s c.val (iw 0x50 0 (sem.val * 2 ^ 42 + a.val * 2 ^ 38 + fi imm)))
    (ht : 0xFFFFFFFF < ((s.core c.val).reg a).toNat + imm.toNat) : exec (.wait c sem a imm) s = .next (instrInvalid s c.val) := by
  change execWait c sem a imm s = _
  unfold execWait
  rw [issue_of_issuing h]
  exact if_pos ht

end

/-- An invalid operand halts the core at its instruction and raises INSTR_INVALID (R121). -/
theorem halts_of_invalid {s : State} {c : Nat} {i : Instr} (h : exec i s = .next (instrInvalid s c)) :
    ∃ t, exec i s = .next t ∧ (t.core c).status = 5 ∧ (t.core c).pc = (s.core c).pc ∧
      ∃ e ∈ t.ev.raised, e.code = 0x5103 ∧ e.time = s.now ∧ e.device = BitVec.ofNat 16 s.device := by
  obtain ⟨hstatus, hpc, -, hevent⟩ := coreFault_halts s c 0x5103 []
  exact ⟨_, h, hstatus, hpc, hevent⟩

/-! ### The obligation -/

/-- Settles O3: an access that is allowed reads or stores the bytes of its place, and an invalid operand ends in `coreFault_halts`. -/
theorem loadStoreAndInvalidOperands : Obligations.LoadStoreAndInvalidOperands := by
  unfold Obligations.LoadStoreAndInvalidOperands
  refine ⟨fun s c size d a b imm v => ?_, fun s c size d a b imm counter sem => ?_⟩
  · intro x n hv halign hfit
    refine ⟨fun h hfree hsound => ?_, fun h hfree => ?_⟩
    · refine ⟨_, BitVec.ofNat 64 (ofLe (x.clmBytes v n)), (ld_runs h hv halign hfit hfree hsound).trans (setAndGo_eq ..), ?_, ?_, fun k hk => ?_, ?_⟩
      · exact (toNat_clmBytes x v size).trans (ofLe_clmBytes x v n)
      · rw [State.core_setCore, if_pos rfl]
      · rw [State.core_setCore, if_neg hk, core_of_accounts (sramReadCheck_accounts ..)]
      · exact sramReadCheck_hbm ..
    · have hlen : (le n (x.reg b).toNat).length = n := length_le ..
      have hcore : ∀ k, ((s.writeClm c.val v (le n (x.reg b).toNat)).modCore c.val CoreS.advance).core k =
          if k = c.val then (x.setClm v (le n (x.reg b).toNat)).advance else s.core k := fun k => by
        rw [State.core_modCore, writeClm_core, writeClm_core, if_pos rfl]
        split <;> rfl
      refine ⟨_, st_runs h hv halign hfit hfree, fun i hi => ?_, fun j hj => ?_, ?_, fun k hk => ?_, ?_⟩
      · rw [hcore, if_pos rfl]
        change sget 0 (swrite 0 x.clm v _) (v + i) = _
        rw [sget_swrite, if_pos (by omega), Nat.add_sub_cancel_left, getD_le hi]
      · rw [hcore, if_pos rfl]
        change sget 0 (swrite 0 x.clm v _) j = _
        rw [sget_swrite, if_neg (by omega)]
      · rw [hcore, if_pos rfl]
        rfl
      · rw [hcore, if_neg hk]
      · exact writeClm_hbm ..
  · intro x v outside halts
    exact ⟨fun h ho => halts_of_invalid (ld_outside h ho), fun h ho => halts_of_invalid (st_outside h ho),
      fun h ht => halts_of_invalid (br_invalid h ht), fun h hl => halts_of_invalid (endl_invalid h hl),
      fun h hlimit => halts_of_invalid (wcinit_invalid h hlimit), fun h ht => halts_of_invalid (wait_invalid h ht)⟩

end Sys2Proof.Machine
end

section
/-!
Work counters (O4): their handles, and their service at the home die (R132 to R135).
-/
namespace Sys2Proof.Machine
open Sys2Proof

/-! ### An answer of the home die -/

/-- The state t in which core c goes on from x with register d at v. -/
structure Served (x : CoreS) (t : State) (c : Nat) (d : Reg) (v : W64) : Prop where
  status : (t.core c).status = 2
  wait : (t.core c).wait = .none
  pc : (t.core c).pc = x.pc + 1
  regs : (t.core c).regs = regsAfter x d v

/-- An answer ends the core's wait in a state that has left its place and its registers. -/
theorem served_endWait {x : CoreS} {u : State} {c : Nat} (hpc : (u.core c).pc = x.pc) (hregs : (u.core c).regs = x.regs) (d : Reg) (v : W64) :
    Served x (endWait u c fun y => y.wreg d v) c d v := by
  have hcore := endWait_core_self u c fun y => y.wreg d v
  rw [CoreS.wreg_eq] at hcore
  refine ⟨congrArg CoreS.status hcore, congrArg CoreS.wait hcore, (congrArg CoreS.pc hcore).trans (congrArg (· + 1) hpc), (congrArg CoreS.regs hcore).trans ?_⟩
  change regsAfter (u.core c) d v = _
  unfold regsAfter
  rw [hregs]

theorem wc_setWc (s : State) (k : Nat) (w : WorkC) (j : Nat) : (s.setWc k w).wc j = if j = k then w else s.wc j := sget_sset ..

/-! ### The state in which a stale handle is counted -/

/-- A stale handle (k, epoch) counted, its event raised once for each core. -/
def staleCounted (s : State) (c k epoch : Nat) : State :=
  let t := s.addEnt 0x5130 1 1
  if decide ((k, epoch) ∈ (t.core c).stale) then t else (t.modCore c fun x => { x with stale := (k, epoch) :: x.stale }).raise 0x5102 []

section
variable (s : State) (c k epoch : Nat)

theorem staleCounted_holds : CoresHold s (staleCounted s c k epoch) := by
  have hcounted : CoresHold s (s.addEnt 0x5130 1 1) := .of_cores rfl
  unfold staleCounted
  dsimp only
  split
  · exact hcounted
  · refine (hcounted.trans (CoresHold.modCore _ c ?_)).trans (.raise _ _ _)
    exact fun _ => ⟨rfl, rfl, rfl, id⟩

theorem staleCounted_work : (staleCounted s c k epoch).work = s.work := by
  unfold staleCounted
  dsimp only
  split
  · rfl
  · rfl

theorem entryMod_stale : entryMod 0x5130 1 = 2 ^ 32 := by decide +kernel

theorem staleCounted_count : (staleCounted s c k epoch).ent 0x5130 1 = (s.ent 0x5130 1 + 1) % 2 ^ 32 := by
  have hcount : (s.addEnt 0x5130 1 1).ent 0x5130 1 = (s.ent 0x5130 1 + 1) % 2 ^ 32 := by rw [State.ent_addEnt_self, entryMod_stale]
  unfold staleCounted
  dsimp only
  split
  · exact hcount
  · exact hcount

end

/-! ### Each instruction, issued, and its service -/

section
variable {s : State} {c : Core} {d a e : Reg} {imm : W32} {counter : Byte} {k : Nat}

/-- The core waits for w from now. -/
def CoreS.waitsFor (x : CoreS) (w : WaitFor) (now : FTime) : CoreS := { x with status := 3, wait := w, waitSince := now, waitRaised := false }

theorem wcbind_waits (h : Issuing s c.val (iw 0x22 0 (fd d + counter.toNat * 2 ^ 32))) :
    exec (.wcbind c d counter) s = .next (s.setCore c.val ((s.core c.val).waitsFor (.wcbind d counter.toNat) s.now)) := by
  change execWcbind c d counter s = _
  exact issue_of_issuing h fun s x => startWait s c.val x (.wcbind d counter.toNat)

theorem wcinit_waits (h : Issuing s c.val (iw 0x23 0 (fa a + counter.toNat * 2 ^ 32))) (hlimit : ((s.core c.val).reg a).toNat ≤ 0xFFFFFFFD) :
    exec (.wcinit c a counter) s = .next (s.setCore c.val ((s.core c.val).waitsFor (.wcinit counter.toNat (BitVec.ofNat 32 ((s.core c.val).reg a).toNat)) s.now)) := by
  change execWcinit c a counter s = _
  unfold execWcinit
  rw [issue_of_issuing h, if_neg (Nat.not_lt.2 hlimit)]
  rfl

/-- A TAKE that is issued, with a chunk size in range. -/
theorem take_runs (hpos : imm ≠ 0) (hmax : imm.toNat ≤ 65536) (h : Issuing s c.val (iw 0x24 0 (fd d + fa a + fi imm))) : exec (.take c d a imm) s =
    if (s.core c.val).inSkip then setAndGo s c.val (s.core c.val) d exhausted
    else if bits ((s.core c.val).reg a).toNat 15 8 ≠ 0 ∨ bits ((s.core c.val).reg a).toNat 63 32 ≠ 0 then .next (instrInvalid s c.val)
    else startWait s c.val (s.core c.val) (.take d (((s.core c.val).reg a).toNat % 256) imm.toNat (BitVec.ofNat 16 (bits ((s.core c.val).reg a).toNat 31 16))) := by
  change execTake c d a imm s = _
  unfold execTake
  rw [if_neg (not_or.2 ⟨hpos, Nat.not_lt.2 hmax⟩), issue_of_issuing h]

/-- The epoch of a handle is in its bits 31 to 16. -/
theorem ofNat_epoch {h : Nat} (hh : h < 2 ^ 32) : BitVec.ofNat 16 (bits h 31 16) = BitVec.ofNat 16 (h / 65536) := by
  have hlt : h / 65536 < 2 ^ (31 + 1 - 16) := by omega
  exact congrArg (BitVec.ofNat 16) (Nat.mod_eq_of_lt hlt)

theorem bits_reserved {h : Nat} (hlow : h / 256 % 256 = 0) (hh : h < 2 ^ 32) : ¬ (bits h 15 8 ≠ 0 ∨ bits h 63 32 ≠ 0) := by
  unfold bits
  omega

theorem take_waits (hpos : imm ≠ 0) (hmax : imm.toNat ≤ 65536) (h : Issuing s c.val (iw 0x24 0 (fd d + fa a + fi imm)))
    (hskip : (s.core c.val).inSkip = false) (hlow : ((s.core c.val).reg a).toNat / 256 % 256 = 0) (hhigh : ((s.core c.val).reg a).toNat < 2 ^ 32) :
    exec (.take c d a imm) s = .next (s.setCore c.val ((s.core c.val).waitsFor
      (.take d (((s.core c.val).reg a).toNat % 256) imm.toNat (BitVec.ofNat 16 (((s.core c.val).reg a).toNat / 65536))) s.now)) := by
  rw [take_runs hpos hmax h, hskip, if_neg Bool.false_ne_true, if_neg (bits_reserved hlow hhigh), ofNat_epoch hhigh]
  rfl

theorem wcbindServe_serves (hr : s.running = true) (hw : (s.core c.val).wait = .wcbind e k) :
    exec (.wcbindServe c) s = .next (endWait s c.val fun x => x.wreg e (BitVec.ofNat 64 (k + (s.wc k).epoch * 65536))) := by
  change execWcbindServe c s = _
  unfold execWcbindServe
  rw [hw]
  exact if_pos hr

theorem wcinitApply_applies {limit : W32} (hr : s.running = true) (hw : (s.core c.val).wait = .wcinit k limit) :
    exec (.wcinitApply c) s = .next (endWait (s.setWc k { value := 0, limit := limit.toNat, epoch := ((s.wc k).epoch + 1) % 65536 }) c.val fun x => x.wreg 0 0) := by
  change execWcinitApply c s = _
  unfold execWcinitApply
  rw [hw]
  exact if_pos hr

section
variable {n : Nat} {epoch : W16} (hr : s.running = true) (hw : (s.core c.val).wait = .take e k n epoch)
include hr hw

/-- The home die's answer to a TAKE: a stale handle, an exhausted counter, or a chunk. -/
theorem takeServe_serves : exec (.takeServe c) s =
    if (s.wc k).epoch ≠ epoch.toNat then .next (endWait (staleCounted s c.val k epoch.toNat) c.val fun x => x.wreg e staleHandle)
    else if (s.wc k).limit ≤ (s.wc k).value then .next (endWait (s.addEnt 0x5130 2 1) c.val fun x => x.wreg e exhausted)
    else .next (endWait (s.setWc k { s.wc k with value := Nat.min ((s.wc k).value + n) (s.wc k).limit }) c.val fun x =>
      x.wreg e (BitVec.ofNat 64 (s.wc k).value)) := by
  have hmin : (if (s.wc k).value + n < (s.wc k).limit then (s.wc k).value + n else (s.wc k).limit) = Nat.min ((s.wc k).value + n) (s.wc k).limit := by
    change _ = min _ _
    split
    · omega
    · omega
  have hgo : (!s.running) = false := by rw [hr]; rfl
  change execTakeServe c s = _
  unfold execTakeServe
  rw [hw]
  dsimp only
  rw [hmin, hgo, if_neg Bool.false_ne_true]
  rfl

theorem takeServe_stale (he : (s.wc k).epoch ≠ epoch.toNat) :
    exec (.takeServe c) s = .next (endWait (staleCounted s c.val k epoch.toNat) c.val fun x => x.wreg e staleHandle) :=
  (takeServe_serves hr hw).trans (if_pos he)

theorem takeServe_exhausted (he : (s.wc k).epoch = epoch.toNat) (hl : (s.wc k).limit ≤ (s.wc k).value) :
    exec (.takeServe c) s = .next (endWait (s.addEnt 0x5130 2 1) c.val fun x => x.wreg e exhausted) := by
  rw [takeServe_serves hr hw, if_neg (not_not.2 he), if_pos hl]

theorem takeServe_chunk (he : (s.wc k).epoch = epoch.toNat) (hl : (s.wc k).value < (s.wc k).limit) : exec (.takeServe c) s =
    .next (endWait (s.setWc k { s.wc k with value := Nat.min ((s.wc k).value + n) (s.wc k).limit }) c.val fun x =>
      x.wreg e (BitVec.ofNat 64 (s.wc k).value)) := by
  rw [takeServe_serves hr hw, if_neg (not_not.2 he), if_neg (Nat.not_le.2 hl)]

end

end

theorem entryMod_exhausted : entryMod 0x5130 2 = 2 ^ 64 := by decide +kernel

/-- The rows of ballast at the end of a wait leave the counts of the work counters. -/
theorem endWait_workCount (s : State) (c : Core) (f : CoreS → CoreS) {j : Nat} (hj : j < 256) : (endWait s c.val f).ent 0x5130 j = s.ent 0x5130 j := by
  have hc := c.isLt
  refine endWait_ent s c.val f ?_
  unfold ekey
  omega

/-! ### The obligation -/

/-- Settles O4: each answer of the home die ends the wait (`served_endWait`) in a state that differs in the counter's account alone. -/
theorem workCounters : Obligations.WorkCounters := by
  unfold Obligations.WorkCounters
  intro s c d a imm counter x h waits serves skips
  have serve : ∀ {i : Instr} {P : State → W64 → Prop} {e : Reg} {u : State} (v : W64), exec i s = .next (endWait u c.val fun y => y.wreg e v) →
      CoreHolds (s.core c.val) (u.core c.val) → P (endWait u c.val fun y => y.wreg e v) v → serves i P e := by
    intro i P e u v hexec hholds hP
    obtain ⟨hstatus, hwait, hpc, hregs⟩ := served_endWait hholds.pc hholds.regs e v
    exact ⟨_, v, hexec, hP, hstatus, hwait, hpc, hregs⟩
  refine ⟨wcbind_waits, wcinit_waits, fun hpos hmax hi => ⟨fun hskip => ?_, take_waits hpos hmax hi⟩, fun e k hr hw => ?_,
    fun k limit hr hw => ?_, fun e k n epoch hr hw => ?_⟩
  · exact (take_runs hpos hmax hi).trans ((if_pos hskip).trans (setAndGo_eq ..))
  · exact serve _ (wcbindServe_serves hr hw) (.refl _) ⟨BitVec.toNat_ofNat .., rfl⟩
  · refine serve 0 (wcinitApply_applies hr hw) (.of_eq rfl) ⟨?_, fun j hj => ?_⟩
    · exact (wc_setWc s k _ k).trans (if_pos rfl)
    · exact (wc_setWc s k _ j).trans (if_neg hj)
  · intro w
    refine ⟨fun he => ?_, fun he hl => ?_, fun he hl => ?_⟩
    · exact serve _ (takeServe_stale hr hw he) (staleCounted_holds s c.val k epoch.toNat c.val)
        ⟨rfl, staleCounted_work .., (endWait_workCount _ c _ (by decide)).trans (staleCounted_count ..)⟩
    · refine serve _ (takeServe_exhausted hr hw he hl) (.of_eq rfl) ⟨rfl, rfl, (endWait_workCount _ c _ (by decide)).trans ?_⟩
      rw [State.ent_addEnt_self, entryMod_exhausted]
    · exact serve _ (takeServe_chunk hr hw he hl) (.of_eq rfl) ⟨rfl, (wc_setWc s k _ k).trans (if_pos rfl), fun j hj => (wc_setWc s k _ j).trans (if_neg hj)⟩

end Sys2Proof.Machine
end

section
/-!
Waits and posts (O5): R117, R151 to R159.
-/
namespace Sys2Proof.Machine
open Sys2Proof

/-! ### Waits -/

/-- Core c of s goes on to its next instruction, as it is; the other cores are as they were. -/
def Released (s u : State) (c : Nat) : Prop :=
  u.core c = { s.core c with status := 2, wait := .none, pc := (s.core c).pc + 1 } ∧ ∀ k, k ≠ c → u.core k = s.core k

theorem released_endWait (s : State) (c : Nat) : Released s (endWait s c id) c :=
  ⟨endWait_core_self s c id, fun k hk => (endWait_core s c id k).trans (if_neg hk)⟩

section
variable {s : State} {c : Core} {sem : Sem} {a : Reg} {imm : W32} {t : FTime}

theorem wait_waits (h : Issuing s c.val (iw 0x50 0 (sem.val * 2 ^ 42 + a.val * 2 ^ 38 + fi imm)))
    (ht : ((s.core c.val).reg a).toNat + imm.toNat < 2 ^ 32) : exec (.wait c sem a imm) s =
    .next (s.setCore c.val ((s.core c.val).waitsFor (.sem sem (BitVec.ofNat 64 (((s.core c.val).reg a).toNat + imm.toNat))) s.now)) := by
  change execWait c sem a imm s = _
  unfold execWait
  rw [issue_of_issuing h]
  exact if_neg (Nat.not_le.2 ht)

theorem waitft_waits (h : Issuing s c.val (iw 0x52 0 (a.val * 2 ^ 38 + fi imm)))
    (ht : ((s.core c.val).reg a).toNat + imm.toNat < 2 ^ 64) : exec (.waitft c a imm) s =
    .next (s.setCore c.val ((s.core c.val).waitsFor (.time (BitVec.ofNat 64 (((s.core c.val).reg a).toNat + imm.toNat))) s.now)) := by
  change execWaitft c a imm s = _
  unfold execWaitft
  rw [issue_of_issuing h]
  exact if_neg (Nat.not_le.2 ht)

theorem waitRelease_runs {g : W64} (hr : s.running = true) (hw : (s.core c.val).wait = .sem sem g) : exec (.waitRelease c) s =
    if g.toNat ≤ s.sem c.val sem.val then .next (endWait s c.val id) else .next s := by
  change execWaitRelease c s = _
  unfold execWaitRelease
  rw [hw]
  dsimp only
  simp only [hr, true_and]

theorem waitftRelease_runs {g : FTime} (hr : s.running = true) (hw : (s.core c.val).wait = .time g) (hnow : s.now ≤ t) : exec (.waitftRelease t c) s =
    if g ≤ t then .next (endWait { s with now := t } c.val id) else .next { s with now := t } := by
  have hw' : (State.core { s with now := t } c.val).wait = .time g := hw
  have hr' : State.running { s with now := t } = true := hr
  change execWaitftRelease t c s = _
  unfold execWaitftRelease
  rw [atTime_of_le s hnow, hw']
  dsimp only
  simp only [hr', true_and]

/-- The detail of WAIT_LONG. -/
def waitLongDetail (s : State) (c : Nat) : List (Nat × Nat) := [(2, c), (1, (waitView s c).1), (4, (waitView s c).2.1), (8, (waitView s c).2.2)]

theorem waitLong_raises (hr : s.running = true) (hnow : s.now ≤ t) (hstatus : (s.core c.val).status = 3) (honce : (s.core c.val).waitRaised = false)
    (hlimit : s.ent 0x5510 3 ≠ 0) (hlong : (s.core c.val).waitSince.toNat + s.ent 0x5510 3 * 1000000 < t.toNat) : exec (.waitLong t c) s =
    .next (((State.addEnt { s with now := t } 0x5520 2 1).raise 0x5504 (waitLongDetail { s with now := t } c.val)).modCore c.val
      fun x => { x with waitRaised := true }) := by
  change execWaitLong t c s = _
  unfold execWaitLong
  rw [atTime_of_le s hnow]
  refine if_neg ?_
  change ¬ (s.running = false ∨ (s.core c.val).status ≠ 3 ∨ (s.core c.val).waitRaised = true ∨ s.ent 0x5510 3 = 0 ∨ t.toNat ≤ _)
  simp only [hr, hstatus, honce, hlimit, not_or, ne_eq, not_true_eq_false, not_false_eq_true, Bool.true_eq_false, Bool.false_eq_true, true_and]
  exact Nat.not_le.2 hlong

end

/-! ### What a post does to its semaphore -/

/-- From s to u a post by n has come to semaphore j of core k (R151, R153, R154). -/
structure PostRaises (s u : State) (k j n : Nat) : Prop where
  raised : s.isLanding k j = false → s.sem k j + n < 2 ^ 32 → u.sem k j = s.sem k j + n
  overflow : s.isLanding k j = false → 2 ^ 32 ≤ s.sem k j + n → u.sem k j = 2 ^ 32 - 1 ∧ ∃ e ∈ u.ev.raised, e.code = 0x5503
  landing : s.isLanding k j = true → u.sem k j = s.sem k j ∧ u.ent 0x5520 1 = (s.ent 0x5520 1 + n) % 2 ^ 32
  others : ∀ i m, i ≠ k ∨ m ≠ j → u.sem i m = s.sem i m

/-- A post hears from the state the semaphores, the landing masks and its count. -/
theorem PostRaises.of_eq {s t u : State} {k j n : Nat} (h : PostRaises t u k j n) (hsem : t.sem = s.sem) (hlanding : t.isLanding = s.isLanding)
    (hent : t.ent 0x5520 1 = s.ent 0x5520 1) : PostRaises s u k j n := by
  obtain ⟨hraised, hoverflow, hland, hothers⟩ := h
  rw [hsem] at hraised hoverflow hland hothers
  rw [hlanding] at hraised hoverflow hland
  rw [hent] at hland
  exact ⟨hraised, hoverflow, hland, hothers⟩

section
variable (s : State) (c k : Nat)

theorem sem_setSem (v i m : Nat) : (s.setSem c k v).sem i m = if i = c ∧ m = k then v % 2 ^ 32 else s.sem i m := by
  unfold State.setSem State.sem
  rw [State.core_modCore]
  by_cases hi : i = c
  · subst hi
    rw [if_pos rfl]
    by_cases hm : m = k
    · rw [if_pos ⟨rfl, hm⟩, hm, sget_sset, if_pos rfl, BitVec.toNat_ofNat]
    · rw [if_neg (fun h => hm h.2), sget_sset, if_neg hm]
  · rw [if_neg hi, if_neg (fun h => hi h.1)]

theorem setSem_pc (v i : Nat) : ((s.setSem c k v).core i).pc = (s.core i).pc := by
  unfold State.setSem
  rw [State.core_modCore]
  split
  · next hi => rw [hi]
  · rfl

theorem entryMod_misdirected : entryMod 0x5520 1 = 2 ^ 32 := by decide +kernel

theorem misdirect_holds (n : Nat) : CoresHold s (misdirect s c k n) := by
  have hcounted : CoresHold s (s.addEnt 0x5520 1 n) := .of_cores rfl
  unfold misdirect
  dsimp only
  split
  · exact hcounted
  · refine (hcounted.trans (CoresHold.modCore _ c ?_)).trans (.raise _ _ _)
    exact fun _ => ⟨rfl, rfl, rfl, id⟩

theorem misdirect_count (n : Nat) : (misdirect s c k n).ent 0x5520 1 = (s.ent 0x5520 1 + n) % 2 ^ 32 := by
  have hcount : (s.addEnt 0x5520 1 n).ent 0x5520 1 = (s.ent 0x5520 1 + n) % 2 ^ 32 := by rw [State.ent_addEnt_self, entryMod_misdirected]
  unfold misdirect
  dsimp only
  split
  · exact hcount
  · exact hcount

/-- A semaphore that would pass 2^32 − 1: it stops there, and the run is given up. -/
def overflowed : State := abortRun ((s.setSem c k 0xFFFFFFFF).raise 0x5503 []) 0x5503

theorem overflowed_holds : CoresHold (s.setSem c k 0xFFFFFFFF) (overflowed s c k) := (CoresHold.raise _ _ _).trans (abortRun_holds _ _)

theorem overflowed_raises : ∃ e ∈ (overflowed s c k).ev.raised, e.code = 0x5503 :=
  ⟨_, (abortRun_spares ((s.setSem c k 0xFFFFFFFF).raise 0x5503 []) 0x5503).mem_raised (List.mem_append_right _ (List.mem_singleton.2 rfl)), rfl⟩

end

section
variable {s : State} {c k n : Nat}

/-- A post in a run: counted as misdirected on a landing semaphore, else added, or stopped at 2^32 − 1. -/
theorem incSem_post (hr : s.running = true) (hn : n ≠ 0) : incSem s c k n false =
    if s.isLanding c k = true then misdirect s c k n
    else if s.sem c k + n < 2 ^ 32 then s.setSem c k (s.sem c k + n) else overflowed s c k := by
  unfold incSem overflowed
  rw [if_neg hn, hr]
  simp

theorem incSem_raises (hr : s.running = true) (hn : n ≠ 0) : PostRaises s (incSem s c k n false) c k n := by
  rw [incSem_post hr hn]
  by_cases hl : s.isLanding c k = true
  · rw [if_pos hl]
    exact ⟨fun h => absurd (hl.symm.trans h) Bool.noConfusion, fun h => absurd (hl.symm.trans h) Bool.noConfusion,
      fun _ => ⟨(misdirect_holds s c k n).sem c k, misdirect_count s c k n⟩, fun i m _ => (misdirect_holds s c k n).sem i m⟩
  · have hother (v i m : Nat) (h : i ≠ c ∨ m ≠ k) : (s.setSem c k v).sem i m = s.sem i m :=
      (sem_setSem s c k v i m).trans (if_neg fun hc => h.elim (· hc.1) (· hc.2))
    have hself (v : Nat) (hv : v < 2 ^ 32) : (s.setSem c k v).sem c k = v :=
      ((sem_setSem s c k v c k).trans (if_pos ⟨rfl, rfl⟩)).trans (Nat.mod_eq_of_lt hv)
    rw [if_neg hl]
    by_cases hfits : s.sem c k + n < 2 ^ 32
    · rw [if_pos hfits]
      exact ⟨fun _ _ => hself _ hfits, fun _ h => absurd hfits (Nat.not_lt.2 h), fun h => absurd h hl, hother _⟩
    · rw [if_neg hfits]
      exact ⟨fun _ h => absurd h hfits, fun _ _ => ⟨((overflowed_holds s c k).sem c k).trans (hself 0xFFFFFFFF (by decide)), overflowed_raises s c k⟩,
        fun h => absurd h hl, fun i m h => ((overflowed_holds s c k).sem i m).trans (hother _ i m h)⟩

theorem incSem_pc (hr : s.running = true) (i : Nat) : ((incSem s c k n false).core i).pc = (s.core i).pc := by
  by_cases hn : n = 0
  · rw [hn]
    rfl
  · rw [incSem_post hr hn]
    split
    · exact (misdirect_holds s c k n i).pc
    · split
      · exact setSem_pc s c k _ i
      · exact (overflowed_holds s c k i).pc.trans (setSem_pc s c k _ i)

end

/-- A core changed beside its semaphores and its landing mask: a post then does as in the state before. -/
theorem postRaises_setCore {s u : State} {c k j n : Nat} {x : CoreS} (hsems : x.sems = (s.core c).sems) (hlanding : x.landing = (s.core c).landing)
    (h : PostRaises (s.setCore c x) u k j n) : PostRaises s u k j n := by
  refine h.of_eq ?_ ?_ rfl
  · funext i m
    unfold State.sem
    rw [State.core_setCore]
    split
    · next hi => rw [hi, hsems]
    · rfl
  · funext i m
    unfold State.isLanding
    rw [State.core_setCore]
    split
    · next hi => rw [hi, hlanding]
    · rfl

/-! ### POST -/

/-- A POST that leaves the module on port p: one flit, and a request that waits for its answer. -/
def postFlit (s : State) (dev core tag : Nat) (sem : Sem) : Flit :=
  openFlit s kPost 0 (BitVec.ofNat 16 dev) (BitVec.ofNat 12 tag) 0 true (le 2 core ++ le 1 sem.val)

theorem emit_single {s : State} {dst p : Nat} (h : routePort s s.device dst = some p) (f : Flit) : emit s dst [f] = (sendOpen s p f, true) := by
  unfold emit
  rw [h]
  rfl

theorem port_sendOpen (s : State) (p : Nat) (f : Flit) : (sendOpen s p f).port p =
    { s.port p with vcs := (s.port p).vcs.set f.vc.toNat ((s.port p).vcs.getD f.vc.toNat [] ++ [(f, none)]) } :=
  (State.port_modPort ..).trans (if_pos rfl)

/-- The parts of a post's target (Table 5-2). -/
theorem bits_target (t : Nat) : bits t 15 0 = t % 65536 ∧ bits t 25 16 = t / 65536 % 1024 := by
  unfold bits
  exact ⟨congrArg (· % 65536) (Nat.div_one t), rfl⟩

section
variable {s : State} {c : Core} {sem : Sem} {a : Reg} {imm : W32}

theorem post_local_runs (h : Issuing s c.val (iw 0x51 0 (sem.val * 2 ^ 42 + a.val * 2 ^ 38 + fi imm))) (hsettled : (s.core c.val).settled = true) :
    exec (.post c false sem a imm) s = .next (incSem (s.setCore c.val (s.core c.val).advance) c.val sem.val imm.toNat false) := by
  change execPost c false sem a imm s = _
  unfold execPost
  refine Eq.trans (issue_of_issuing h _) ?_
  dsimp only
  rw [hsettled]
  rfl

/-- The core and the device of a remote POST are ones that there are. -/
theorem target_valid {t : Nat} (ht : t < 2 ^ 26) (hcore : t / 65536 % 1024 ≤ 191) (hdev : t % 65536 / 32 ≤ 319) :
    ¬ (bits t 63 26 ≠ 0 ∨ 191 < t / 65536 % 1024 ∨ 319 < courseOf (t % 65536)) := by
  have hhigh : bits t 63 26 = 0 := by
    unfold bits
    rw [Nat.div_eq_of_lt ht, Nat.zero_mod]
  unfold courseOf
  rw [hhigh]
  omega

section
variable (h : Issuing s c.val (iw 0x51 1 (sem.val * 2 ^ 42 + a.val * 2 ^ 38 + fi imm))) (hsettled : (s.core c.val).settled = true)
  (ht : ((s.core c.val).reg a).toNat < 2 ^ 26) (hcore : ((s.core c.val).reg a).toNat / 65536 % 1024 ≤ 191)
  (hdev : ((s.core c.val).reg a).toNat % 65536 / 32 ≤ 319)
include h hsettled ht hcore hdev

theorem post_own_runs (hown : ((s.core c.val).reg a).toNat % 65536 = s.device) : exec (.post c true sem a imm) s =
    .next (incSem (s.setCore c.val (s.core c.val).advance) (((s.core c.val).reg a).toNat / 65536 % 1024) sem.val 1 false) := by
  obtain ⟨hd, hc⟩ := bits_target ((s.core c.val).reg a).toNat
  change execPost c true sem a imm s = _
  unfold execPost
  refine Eq.trans (issue_of_issuing h _) ?_
  dsimp only
  rw [hd, hc, if_pos (rfl : true = true), if_neg (target_valid ht hcore hdev), hsettled, Bool.not_true, if_neg Bool.false_ne_true, if_pos hown]

theorem post_far_runs {tag p : Nat} (hfar : ((s.core c.val).reg a).toNat % 65536 ≠ s.device) (htag : freeTag s = some tag)
    (hroute : routePort s s.device (((s.core c.val).reg a).toNat % 65536) = some p) : exec (.post c true sem a imm) s =
    .next (addRequest (sendOpen (s.setCore c.val (s.core c.val).advance) p
      (postFlit (s.setCore c.val (s.core c.val).advance) (((s.core c.val).reg a).toNat % 65536) (((s.core c.val).reg a).toNat / 65536 % 1024) tag sem))
      tag .post (((s.core c.val).reg a).toNat % 65536) c 0 0 0 0) := by
  obtain ⟨hd, hc⟩ := bits_target ((s.core c.val).reg a).toNat
  have hroute' : routePort (s.setCore c.val (s.core c.val).advance) (s.setCore c.val (s.core c.val).advance).device
      (((s.core c.val).reg a).toNat % 65536) = some p := hroute
  change execPost c true sem a imm s = _
  unfold execPost postFlit
  refine Eq.trans (issue_of_issuing h _) ?_
  dsimp only
  rw [hd, hc, if_pos (rfl : true = true), if_neg (target_valid ht hcore hdev), hsettled, Bool.not_true, if_neg Bool.false_ne_true, if_neg hfar, htag]
  dsimp only
  rw [emit_single hroute']

end

/-- A core whose POST field of the instruction has taken effect. -/
def CoreS.postDone (x : CoreS) (id : Nat) : CoreS := { x with posts := x.posts.filter fun q => !decide (q.1 = id) }

theorem postField_runs {id : Nat} {k : Sem} (hfind : ((s.core c.val).posts.find? fun p => decide (p.1 = id)) = some (id, k))
    (hearlier : ∀ q ∈ (s.core c.val).posts.takeWhile (fun q => !decide (q.1 = id)), q.2 ≠ k) (hpasses : ∀ q ∈ (s.core c.val).passes, q.id ≠ id)
    (hmoves : ∀ m ∈ (s.core c.val).moves, m.id = id → m.retired = true) : exec (.postFieldApply c id) s =
    .next (incSem (s.setCore c.val ((s.core c.val).postDone id)) c.val k.val 1 false) := by
  change execPostFieldApply c id s = _
  unfold execPostFieldApply
  dsimp only
  rw [hfind]
  refine if_neg ?_
  simp only [List.any_eq_true, decide_eq_true_eq, Bool.and_eq_true, Bool.not_eq_true', not_or, not_exists, not_and]
  exact ⟨hearlier, hpasses, fun m hm hid => by rw [hmoves m hm hid]; exact Bool.noConfusion⟩

end

/-! ### The obligation -/

theorem entryMod_waitLong : entryMod 0x5520 2 = 2 ^ 32 := by decide +kernel

/-- Settles O5: a wait ends by `released_endWait`, a post comes to its semaphore by `incSem_raises`. -/
theorem waitingAndPosting : Obligations.WaitingAndPosting := by
  unfold Obligations.WaitingAndPosting
  refine ⟨fun s c sem a imm t => ?_, fun s c sem a imm => ?_⟩
  · intro x target waits released
    refine ⟨wait_waits, waitft_waits, fun g hr hw => ⟨fun hg => ?_, fun hg => ?_⟩, fun g hr hw hnow => ⟨fun hg => ?_, fun hg => ?_⟩,
      fun hr hnow hstatus honce hlimit hlong => ?_⟩
    · exact ⟨_, (waitRelease_runs hr hw).trans (if_pos hg), released_endWait s c.val⟩
    · exact (waitRelease_runs hr hw).trans (if_neg (Nat.not_le.2 hg))
    · exact ⟨_, (waitftRelease_runs hr hw hnow).trans (if_pos hg), rfl, released_endWait { s with now := t } c.val⟩
    · exact (waitftRelease_runs hr hw hnow).trans (if_neg (BitVec.not_le.2 hg))
    · refine ⟨_, waitLong_raises hr hnow hstatus honce hlimit hlong, ?_, ?_, _, rfl, rfl, rfl⟩
      · exact (State.core_modCore ..).trans (if_pos rfl)
      · exact (State.ent_addEnt_self ..).trans (by rw [entryMod_waitLong]; rfl)
  · intro x word settled t dev core raised
    have posted : ∀ {o : Out} (y : CoreS) {k j n : Nat}, s.running = true → n ≠ 0 → y.sems = x.sems → y.landing = x.landing →
        o = .next (incSem (s.setCore c.val y) k j n false) → raised o k j n := by
      intro o y k j n hr hn hsems hlanding ho
      obtain ⟨h1, h2, h3, h4⟩ := postRaises_setCore hsems hlanding (incSem_raises (s := s.setCore c.val y) (c := k) (k := j) hr hn)
      exact ⟨_, ho, h1, h2, h3, h4⟩
    have pcAfter (u : State) (hu : (u.core c.val).pc = ((s.setCore c.val x.advance).core c.val).pc) : (u.core c.val).pc = x.pc + 1 := by
      rw [hu, State.core_setCore, if_pos rfl]
      rfl
    refine ⟨fun h hs hn => ?_, fun h hs => ?_, fun h hs ht hcore hdev hown => ?_, fun tag p h hs ht hcore hdev hfar htag hroute => ?_,
      fun id k hr hfind hearlier hpasses hmoves => ?_⟩
    · have hpos : imm.toNat ≠ 0 := fun h0 => hn (BitVec.eq_of_toNat_eq h0)
      exact posted x.advance h.running hpos rfl rfl (post_local_runs h (settled_of hs.1 hs.2.1 hs.2.2))
    · exact ⟨_, post_local_runs h (settled_of hs.1 hs.2.1 hs.2.2), pcAfter _ (incSem_pc (s := s.setCore c.val x.advance) h.running c.val)⟩
    · exact posted x.advance h.running Nat.one_ne_zero rfl rfl (post_own_runs h (settled_of hs.1 hs.2.1 hs.2.2) ht hcore hdev hown)
    · refine ⟨_, postFlit (s.setCore c.val x.advance) dev core tag sem, post_far_runs h (settled_of hs.1 hs.2.1 hs.2.2) ht hcore hdev hfar htag hroute,
        pcAfter _ rfl, ?_, rfl, ?_, ?_, ?_, _, sget_sset .. |>.trans (if_pos rfl), ?_, rfl⟩
      · exact congrArg PortS.vcs (port_sendOpen (s.setCore c.val x.advance) p (postFlit (s.setCore c.val x.advance) dev core tag sem))
      · exact (BitVec.toNat_ofNat ..).trans (Nat.mod_mod _ _)
      · exact (field_le_append 2 core _).trans (Nat.mod_eq_of_lt (by change core < 65536; omega))
      · have hsem := sem.isLt
        refine (field_append_of_le (by simp) (le 1 sem.val) 1).trans ?_
        rw [length_le, Nat.sub_self, ← List.append_nil (le 1 sem.val), field_le_append]
        exact Nat.mod_eq_of_lt (by omega)
      · exact (BitVec.toNat_ofNat ..).trans (Nat.mod_mod _ _)
    · exact posted (x.postDone id) hr Nat.one_ne_zero rfl rfl (postField_runs hfind hearlier hpasses hmoves)

end Sys2Proof.Machine
end

section
/-!
SUPPORT. What reads of memory leave of the dictionary (R124, R181, R534): every entry from the planned maxima of the shape slots on (`0x5110`).
-/
namespace Sys2Proof.Machine
open Sys2Proof

/-- From s to t every entry from 0x5110 on reads as before, whatever subindex is asked. -/
def EntriesHold (s t : State) : Prop := ∀ i j, ekey 0x5110 0 ≤ ekey i j → t.ent i j = s.ent i j

namespace EntriesHold

theorem refl (s : State) : EntriesHold s s := fun _ _ _ => rfl

theorem trans {s t u : State} (h : EntriesHold s t) (h' : EntriesHold t u) : EntriesHold s u := fun i j hk => (h' i j hk).trans (h i j hk)

theorem of_dict {s t : State} (h : t.dict = s.dict) : EntriesHold s t := fun i j _ => by unfold State.ent; rw [h]

theorem setEnt (s : State) {i j : Nat} (v : Nat) (h : ekey i j < ekey 0x5110 0) : EntriesHold s (s.setEnt i j v) :=
  fun i' j' hk => State.ent_setEnt_ne s i j v i' j' (h.trans_le hk).ne'

theorem addEnt (s : State) {i j : Nat} (n : Nat) (h : ekey i j < ekey 0x5110 0) : EntriesHold s (s.addEnt i j n) := setEnt s _ h

theorem raise (s : State) (code : Nat) (vs : List (Nat × Nat)) : EntriesHold s (s.raise code vs) := of_dict rfl

theorem withMem (s : State) (m : Mem) : EntriesHold s { s with mem := m } := of_dict rfl

theorem foldl_mem {α : Type} {f : State → α → State} {l : List α} (h : ∀ s, ∀ x ∈ l, EntriesHold s (f s x)) (s : State) : EntriesHold s (l.foldl f s) := by
  induction l generalizing s with
  | nil => exact refl s
  | cons x l ih => exact (h s x List.mem_cons_self).trans (ih (fun s y hy => h s y (List.mem_cons_of_mem x hy)) _)

theorem foldl_fst {α β : Type} {f : State × β → α → State × β} (h : ∀ s x, EntriesHold s.1 (f s x).1) (l : List α) (s : State × β) :
    EntriesHold s.1 (l.foldl f s).1 := by
  induction l generalizing s with
  | nil => exact refl s.1
  | cons x l ih => exact (h s x).trans (ih _)

end EntriesHold

/-! ### Counts and reports of stored errors -/

section
variable (s : State) {kind : Nat} (hkind : kind < 256)
include hkind

theorem noteCorrected_entries (unit addr : Nat) : EntriesHold s (noteCorrected s kind unit addr) := by
  have hcount : EntriesHold s (s.addEnt 0x4100 kind 1) := .addEnt s 1 (by unfold ekey; omega)
  unfold noteCorrected
  generalize s.addEnt 0x4100 kind 1 = t at hcount ⊢
  have hnoted (m : Mem) : EntriesHold s { t with mem := m } := hcount.trans (.withMem t m)
  have hraised (m : Mem) (code : Nat) (vs : List (Nat × Nat)) : EntriesHold s (({ t with mem := m } : State).raise code vs) :=
    (hnoted m).trans (.raise _ code vs)
  dsimp only
  split <;> split
  · exact hraised _ _ _
  · exact hnoted _
  · exact hraised _ _ _
  · exact hnoted _

omit hkind in
theorem recordBad_entries (cause unit addr : Nat) : EntriesHold s (recordBad s kind cause unit addr) := by
  have hset (t : State) (v : Nat) {j : Nat} (hj : j < 256) : EntriesHold t (t.setEnt 0x4110 j v) := .setEnt t v (by unfold ekey; omega)
  unfold recordBad
  split
  · exact ((((hset s _ (by decide)).trans (hset _ _ (by decide))).trans (hset _ _ (by decide))).trans (hset _ _ (by decide))).trans (hset _ _ (by decide))
  · exact .refl s

omit hkind in
theorem reportBad_entries (cause unit addr : Nat) : EntriesHold s (reportBad s kind cause unit addr) := by
  unfold reportBad
  dsimp only
  split
  · exact (EntriesHold.withMem s _).trans (.raise _ _ _)
  · exact .refl s

theorem noteBad_entries (cause unit addr : Nat) : EntriesHold s (noteBad s kind cause unit addr) := by
  rw [noteBad_eq]
  have hcount : EntriesHold s (s.addEnt 0x4101 kind 1) := .addEnt s 1 (by unfold ekey; omega)
  exact (hcount.trans (recordBad_entries _ _ _ _)).trans (reportBad_entries _ _ _ _)

omit hkind in
theorem addCandidate_entries (origin unit key : Nat) : EntriesHold s (addCandidate s kind origin unit key) := by
  unfold addCandidate
  split
  · exact .refl s
  · split
    · exact .addEnt s 1 (by decide)
    · exact (EntriesHold.withMem s _).trans (.setEnt _ _ (by decide))

theorem sramReadCheck_entries (c first n : Nat) : EntriesHold s (sramReadCheck s kind c first n).1 := by
  unfold sramReadCheck
  refine EntriesHold.foldl_fst (fun t u => ?_) s.mem.sramRaw (s, false)
  dsimp only
  split
  · exact .refl _
  · split
    · exact .refl _
    · split
      · exact .refl _
      · exact (noteCorrected_entries t.1 hkind _ _).trans (.withMem _ _)
      · exact (noteBad_entries t.1 hkind _ _ _).trans (addCandidate_entries _ _ _ _)

end

theorem hcheck_entries (s : State) (a n : Nat) : EntriesHold s (hcheck s a n).1 := by
  unfold hcheck
  refine EntriesHold.foldl_fst (fun t u => ?_) s.mem.hbmRaw (s, false)
  dsimp only
  split
  · exact .refl _
  · split
    · exact .refl _
    · split
      · exact .refl _
      · exact (noteCorrected_entries t.1 (by decide) _ _).trans (.withMem _ _)
      · split
        · exact noteBad_entries t.1 (by decide) _ _ _
        · exact (noteBad_entries t.1 (by decide) _ _ _).trans (addCandidate_entries _ _ _ _)

/-! ### The shared cache: an address of HBM has its line on one of four dies -/

theorem phys_lt (s : State) {a : Nat} (ha : a < hbmSize) : phys s a < 12 * stackSize := by
  obtain ⟨k, w, hk, hw, he, -⟩ := stackOf_eq s a
  unfold hbmSize at ha
  unfold phys
  rw [he]
  unfold regionSize stackSize
  dsimp only
  omega

theorem lineDie_lineOf (s : State) {a : Nat} (ha : a < hbmSize) : lineDie (lineOf s a) < 4 := by
  have hphys := phys_lt s ha
  unfold stackSize at hphys
  unfold lineDie lineOf stackSize
  omega

section
variable (s : State)

theorem dieCount_entries {i d : Nat} (hi : i < 0x5110) (hd : d < 4) (n : Nat) : EntriesHold s (s.addEnt i (d + 1) n) := .addEnt s n (by unfold ekey; omega)

theorem poisonUnits_entries (x : CacheLine) : EntriesHold s (poisonUnits s x) :=
  .foldl_mem (f := fun (t : State) w => let u := 4 * x.line + w / 8
    t.setUnit u (some (poisonCode (hread t (localOf t u) 64)))) (fun t _ _ => .withMem t _) s

theorem writeBack_entries {x : CacheLine} (hx : lineDie x.line < 4) : EntriesHold s (writeBack s x) := by
  unfold writeBack
  split
  · exact (dieCount_entries s (by decide) hx 1).trans (poisonUnits_entries _ x)
  · exact .refl s

/-- The line that gives its room lies on the die of the line that takes it. -/
theorem makeRoom_entries {l : Nat} (hl : lineDie l < 4) : EntriesHold s (makeRoom s l) := by
  unfold makeRoom
  dsimp only
  split
  · exact .refl s
  · split
    · next x hx =>
      obtain ⟨hdie, -⟩ := of_decide_eq_true (List.mem_filter.1 (List.mem_of_getLast? hx)).2
      exact (EntriesHold.withMem s _).trans (writeBack_entries _ (hdie.trans_lt hl))
    · exact .refl s

theorem countLookup_entries {d : Nat} (hd : d < 4) (hit : Bool) : EntriesHold s (countLookup s d hit) := by
  have hcount := dieCount_entries s (i := 0x4020) (by decide) hd 1
  cases hit with
  | false => exact hcount.trans (.withMem _ _)
  | true => exact (hcount.trans (dieCount_entries _ (i := 0x4021) (by decide) hd 1)).trans (.withMem _ _)

theorem useLine_entries {x : CacheLine} (hx : lineDie x.line < 4) (a o n : Nat) (w : Bool) : EntriesHold s (useLine s x a o n w).2 := by
  unfold useLine
  extract_lets left
  split
  · split
    · exact writeBack_entries s (x := { x with bad := left }) hx
    · exact noteCorrected_entries s (by decide) _ _
  · exact .refl s

theorem lookup_entries {a : Nat} (ha : a < hbmSize) (n : Nat) (write alloc : Bool) : EntriesHold s (lookup s a n write alloc) := by
  have hdie := lineDie_lineOf s ha
  unfold lookup
  dsimp only
  split
  · next x hx =>
    have hfound := List.find?_some hx
    have hline : x.line = lineOf s a := of_decide_eq_true hfound
    exact ((countLookup_entries s hdie true).trans (useLine_entries _ (hline ▸ hdie) _ _ _ _)).trans (.withMem _ _)
  · split
    · exact ((countLookup_entries s hdie false).trans (makeRoom_entries _ hdie)).trans (.withMem _ _)
    · exact countLookup_entries s hdie false

theorem lookups_entries {a n : Nat} (ha : a + n ≤ hbmSize) (write alloc : Bool) : EntriesHold s (lookups s a n write alloc) := by
  unfold lookups accesses
  split
  · exact .refl s
  · next hn =>
    refine .foldl_mem (fun t k hk => lookup_entries t ?_ _ write alloc) s
    have hk := List.mem_range.1 hk
    refine max_lt (by omega) ?_
    omega

theorem memRead_entries {a n : Nat} (ha : a + n ≤ hbmSize) (alloc : Bool) : EntriesHold s (memRead s a n alloc).2.1 :=
  (lookups_entries s ha false alloc).trans (hcheck_entries _ a n)

theorem memRead_accounts (a n : Nat) (alloc : Bool) : Accounts s (memRead s a n alloc).2.1 :=
  (lookups_accounts s a n false alloc).trans (hcheck_accounts _ a n)

/-! ### A read of the module's own memory or dictionary -/

theorem hbm_inside {a n : Nat} (h : placeOf a n = .hbm) : a + n ≤ hbmSize := by
  by_contra hout
  unfold placeOf at h
  rw [if_neg hout] at h
  split at h
  · exact Place.noConfusion h
  · split at h
    · dsimp only at h
      split at h
      · exact Place.noConfusion h
      · split at h <;> exact Place.noConfusion h
    · split at h <;> exact Place.noConfusion h

theorem localRead_keeps (a n : Nat) : Accounts s (localRead s a n).2.1 ∧ EntriesHold s (localRead s a n).2.1 := by
  unfold localRead
  split
  · next h => exact ⟨memRead_accounts s a n true, memRead_entries s (hbm_inside h) true⟩
  · exact ⟨sramReadCheck_accounts s 2 _ _ n, sramReadCheck_entries s (by decide) _ _ n⟩
  · exact ⟨sramReadCheck_accounts s 3 _ _ n, sramReadCheck_entries s (by decide) _ _ n⟩
  · exact ⟨.refl s, .refl s⟩

theorem ownRead_keeps (a n : Nat) (alloc : Bool) : Accounts s (ownRead s a n alloc).2.1 ∧ EntriesHold s (ownRead s a n alloc).2.1 := by
  unfold ownRead
  split
  · next h => exact ⟨memRead_accounts s a n alloc, memRead_entries s (hbm_inside h) alloc⟩
  · split
    · exact ⟨.refl s, .refl s⟩
    · exact ⟨.refl s, .refl s⟩
  · exact localRead_keeps s a n

end

end Sys2Proof.Machine
end

section
/-!
SHAPE (O6): the wait for the value, and its arrival (R124, R126, R174).
-/
namespace Sys2Proof.Machine
open Sys2Proof

/-! ### SHAPE, issued -/

/-- The bytes of a dictionary entry that a SHAPE reads, or 4. -/
def shapeBytes (g : Nat) : Nat := match shapeEntry g with | some n => if n < 4 then n else 4 | none => 4

/-- The READ of a SHAPE. -/
def shapeFlit (s : State) (dev l tag : Nat) : Flit :=
  openFlit s kRead 0 (BitVec.ofNat 16 dev) (BitVec.ofNat 12 tag) 0 true (le 8 l ++ le 4 4 ++ le 4 0)

section
variable {s : State} {c : Core} {d a : Reg} {slot : Fin 64} {imm : W32} {g l : Nat}
  (h : Issuing s c.val (iw 0x20 0 (fd d + fa a + slot.val * 2 ^ 32 + fi imm)))
  (hg : (g : Int) = (((s.core c.val).reg a).toNat : Int) + imm.toInt) (hmax : g < 2 ^ 64) (halign : g % 4 = 0)
include h hg hmax halign

theorem shape_own_waits (hside : resolve s (gDev g) (gLocal g) (shapeBytes g) false = .own l)
    (hfree : held (s.core c.val) 9 (execShape.mvShapeUnits c.val l) [] = false) :
    exec (.shape c d a slot imm) s = .next (s.setCore c.val ((s.core c.val).waitsFor (.shape slot.val g d none) s.now)) := by
  change execShape c d a slot imm s = _
  unfold execShape
  rw [issue_of_issuing h, sumAddr_of_eq hg hmax]
  dsimp only
  rw [if_neg (not_not.2 halign)]
  generalize hreached : resolve s (gDev g) (gLocal g) _ false = reached
  rw [hreached.symm.trans hside]
  dsimp only
  rw [hfree, if_neg Bool.false_ne_true]
  rfl

theorem shape_far_waits {dev tag p : Nat} (hside : resolve s (gDev g) (gLocal g) (shapeBytes g) false = .far dev l) (hdev : dev < 0xFFFF)
    (htag : freeTag s = some tag) (hroute : routePort s s.device dev = some p) : exec (.shape c d a slot imm) s =
    .next ((addRequest (sendOpen s p (shapeFlit s dev l tag)) tag .read dev c 0 g 4 0).setCore c.val
      ((s.core c.val).waitsFor (.shape slot.val g d none) s.now)) := by
  change execShape c d a slot imm s = _
  unfold execShape
  rw [issue_of_issuing h, sumAddr_of_eq hg hmax]
  dsimp only
  rw [if_neg (not_not.2 halign)]
  generalize hreached : resolve s (gDev g) (gLocal g) _ false = reached
  rw [hreached.symm.trans hside]
  dsimp only
  rw [if_neg hdev.ne, htag]
  dsimp only
  rw [emit_single hroute]
  rfl

end

/-! ### The value against the slot's maximum -/

section
variable {s : State} {c slot : Nat} {d : Reg} {v : W32}

theorem acceptShape_sets (hv : v.toNat ≤ s.ent 0x5110 (slot + 1)) :
    ((acceptShape s c slot d v).core c).regs = regsAfter (s.core c) d (v.setWidth 64) ∧
      sget 0 ((acceptShape s c slot d v).core c).shapes slot = v ∧
      ((acceptShape s c slot d v).core c).status = 2 ∧ ((acceptShape s c slot d v).core c).pc = (s.core c).pc + 1 := by
  have hcore := endWait_core_self s c fun x => { x.wreg d (v.setWidth 64) with shapes := sset 0 x.shapes slot v }
  simp only [CoreS.wreg_eq] at hcore
  unfold acceptShape
  dsimp only
  rw [if_neg (Nat.not_lt.2 hv)]
  simp only [CoreS.wreg_eq]
  rw [hcore]
  exact ⟨rfl, (sget_sset ..).trans (if_pos rfl), rfl, rfl⟩

/-- The entries of the first value of a run that is above its maximum (Table 17-2). -/
def shapeNoted (s : State) (c slot value maximum : Nat) : State :=
  if s.ent 0x5100 1 = 0xFFFF then (((s.setEnt 0x5100 1 c).setEnt 0x5100 2 slot).setEnt 0x5100 3 (value % 2 ^ 32)).setEnt 0x5100 4 maximum else s

theorem shapeNoted_core (s : State) (c slot value maximum k : Nat) : (shapeNoted s c slot value maximum).core k = s.core k := by
  unfold shapeNoted
  split
  · rfl
  · rfl

theorem acceptShape_over (hv : s.ent 0x5110 (slot + 1) < v.toNat) :
    ((acceptShape s c slot d v).core c).status = 5 ∧ ((acceptShape s c slot d v).core c).regs = (s.core c).regs ∧
      ∃ e ∈ (acceptShape s c slot d v).ev.raised, e.code = 0x5101 := by
  have haccept : acceptShape s c slot d v = coreFault (shapeNoted s c slot v.toNat (s.ent 0x5110 (slot + 1))) c 0x5101 [] := if_pos hv
  obtain ⟨hstatus, -, hregs, e, he, hcode, -⟩ := coreFault_halts (shapeNoted s c slot v.toNat (s.ent 0x5110 (slot + 1))) c 0x5101 []
  rw [shapeNoted_core] at hregs
  rw [haccept]
  exact ⟨hstatus, hregs, e, he, hcode⟩

end

/-! ### The arrival of the value -/

section
variable {s : State} {c : Core} {d : Reg} {k g : Nat} (hr : s.running = true)
include hr

theorem shapeArrival_got {v : W32} (hw : (s.core c.val).wait = .shape k g d (some v)) :
    exec (.shapeValueArrival c) s = .next (acceptShape s c.val k d v) := by
  have hgo : (!s.running) = false := by rw [hr]; rfl
  change execShapeValueArrival c s = _
  unfold execShapeValueArrival
  rw [hw]
  dsimp only
  rw [hgo, if_neg Bool.false_ne_true]

theorem shapeArrival_own {l : Nat} {b : List Byte} {q : State} (hw : (s.core c.val).wait = .shape k g d none)
    (hside : resolve s (gDev g) (gLocal g) ((shapeEntry g).getD 4) false = .own l) (hread : ownRead s l ((shapeEntry g).getD 4) true = (b, q, false))
    (hheld : s.audit.held = []) : exec (.shapeValueArrival c) s = .next (acceptShape q c.val k d (BitVec.ofNat 32 (ofLe b))) := by
  have hgo : (!s.running) = false := by rw [hr]; rfl
  change execShapeValueArrival c s = _
  unfold execShapeValueArrival
  rw [hw]
  dsimp only
  rw [hgo, if_neg Bool.false_ne_true, if_neg (fun h => h.1 hheld), hside]
  dsimp only
  rw [hread]

end

/-! ### The obligation -/

/-- Settles O6: the value that arrives is accepted by `acceptShape_sets` or halts the core by `acceptShape_over`; a read of it here leaves the
slot's maximum (`ownRead_keeps`). -/
theorem shapeValues : Obligations.ShapeValues := by
  unfold Obligations.ShapeValues
  intro s c d a slot imm g x w n side
  refine ⟨fun l h hg hmax halign hside hfree => shape_own_waits h hg hmax halign hside hfree,
    fun dev l tag p h hg hmax halign hside hdev htag hroute => ?_, fun k v g' hr hw => ⟨fun hv => ?_, fun hv => ?_⟩,
    fun k l b q hr hw hside hread hheld hv => ?_⟩
  · refine ⟨_, _, shape_far_waits h hg hmax halign hside hdev htag hroute, ?_, ?_, (sget_sset ..).trans (if_pos rfl), rfl, rfl⟩
    · rw [State.core_setCore, if_pos rfl]
      rfl
    · rw [State.core_setCore, if_pos rfl]
      rfl
  · exact ⟨_, shapeArrival_got hr hw, acceptShape_sets hv⟩
  · exact ⟨_, shapeArrival_got hr hw, acceptShape_over hv⟩
  · obtain ⟨haccounts, hentries⟩ := ownRead_keeps s l ((shapeEntry g).getD 4) true
    rw [hread] at haccounts hentries
    have hmaximum : q.ent 0x5110 (k + 1) = s.ent 0x5110 (k + 1) := hentries 0x5110 (k + 1) (Nat.le_add_right _ _)
    obtain ⟨hregs, -, -, hpc⟩ := acceptShape_sets (c := c.val) (d := d) (hv.trans_eq hmaximum.symm)
    rw [core_of_accounts haccounts] at hregs hpc
    have hvalue : (BitVec.ofNat 32 (ofLe b)).setWidth 64 = BitVec.ofNat 64 (ofLe b % 2 ^ 32) := by
      apply BitVec.eq_of_toNat_eq
      rw [BitVec.toNat_setWidth, BitVec.toNat_ofNat, BitVec.toNat_ofNat]
    exact ⟨_, shapeArrival_own hr hw hside hread hheld, hvalue ▸ hregs, hpc⟩

end Sys2Proof.Machine
end

section
/-!
SUPPORT. A session whose write Galena takes up, for the states that refute statements about writes.
-/
namespace Sys2Proof.Machine
open Sys2Proof

/-- A session of class M that chose version 1 and has sent no request. -/
def managing : Session :=
  { sid := 3, fingerprint := [], port := 0, channel := 0, chosen := some 1, dead := false, mask := 0, last := none, kept := [], lastRx := 0,
    presented := ([], []), records := 0, sent := [] }

/-- A state with that session in slot 0. -/
def State.managed (s : State) : State := s.setSession 0 (some managing)

/-- Galena, awake and with a sound memory, takes up the session's first write where nothing waits for the log. -/
theorem managed_writes {s : State} {t : FTime} (hnow : s.now ≤ t) (hup : reachable s 0 = true) (hnone : s.fdp.sessions = [])
    (hlog : s.audit.failed = false) (hwaiting : s.audit.waiting = []) (hheld : s.audit.held = []) (htaken : s.audit.taken = none)
    (hsound : s.mem.sramRaw = []) (req : W32) : SessionWrite s.managed 0 req 1 t where
  time := hnow
  reachable := hup
  order := by
    change (match s.audit.taken with | some (t', r) => decide (t' = t ∧ slotRank 0 < r) | none => false) = false
    rw [htaken]
  memory := sramReadCheck_clean _ 9 0 0 _ hsound
  session := by
    refine ⟨managing, ?_, rfl, rfl, rfl, rfl⟩
    change sget none (sset none s.fdp.sessions 0 (some managing)) 0 = _
    rw [hnone]
    rfl
  log := ⟨hlog, by change s.audit.waiting.length < 64; rw [hwaiting]; decide, hheld⟩

end Sys2Proof.Machine
end

section
/-!
The program commands (O35). An ABORT of a run halts the cores, and a core that holds a page of a gather lets it go: as with an abort from another module
(`not_systemAbort`), the access to a page far beyond HBM counts under the key of the step counter.
-/
namespace Sys2Proof.Machine
open Sys2Proof

theorem farHeld_writes : SessionWrite farHeld.managed 0 1 1 5 := managed_writes (by decide) rfl rfl rfl rfl rfl rfl rfl 1

/-- The ABORT of the run counts the step counter up from 0. -/
theorem farHeld_abort_step : stepAfter (exec (.abort (.fdp 0 1 1) 5) farHeld.managed) = some 1 := by decide +kernel

/-- Refutes O35, in its clause that an ABORT that abandons the step leaves the step counter as it was: `farHeld_abort_step`. -/
theorem not_programCommands : ¬ Obligations.ProgramCommands := by
  unfold Obligations.ProgramCommands
  intro h
  obtain ⟨-, hcommands⟩ := h
  obtain ⟨-, -, -, -, -, -, -, -, habort, -⟩ := hcommands farHeld.managed 0 1 1 5 farHeld_writes
  obtain ⟨u, hu, -, -, habandons, -⟩ := habort (by decide +kernel)
  obtain ⟨-, -, hstep⟩ := habandons rfl (by decide +kernel)
  have hone : some (u.ent 0x5010 1) = some 1 := by rw [← farHeld_abort_step, hu]; rfl
  rw [hstep] at hone
  exact absurd hone (by decide +kernel)

end Sys2Proof.Machine
end

section
/-!
Writes to the dictionary (O39). The descriptor that an encode command names is read as the command arrives, before the checks (R360): a write of
`0x6410:01` that is refused has had its descriptor read.
-/
namespace Sys2Proof.Machine
open Sys2Proof

/-- READY, with nothing in HBM or in a cache. -/
def idleReady : State := { State.reset with ctl := { State.reset.ctl with dev := .ready, powered := true, filled := true } }

theorem idleReady_writes : SessionWrite idleReady.managed 0 1 1 5 := managed_writes (by decide) rfl rfl rfl rfl rfl rfl rfl 1

/-- The lookups that the cache of die 0 has counted after a command (R181). -/
def lookupsAfter (o : Out) : Option Nat :=
  match o with
  | .next u => some (u.ent 0x4020 1)
  | _ => none

/-- An encode command without a byte names the descriptor at 0, and the read of it is a lookup. -/
theorem emptyEncode_looks_up : lookupsAfter (exec (.dictionaryWrite (.fdp 0 1 1) 5 0x6410 1 []) idleReady.managed) = some 1 := by decide +kernel

/-- Refutes O39, in its clause that a write of the wrong length leaves every entry as it was: `emptyEncode_looks_up`. -/
theorem not_dictionaryWrites : ¬ Obligations.DictionaryWrites := by
  unfold Obligations.DictionaryWrites
  intro h
  obtain ⟨hchecks, -⟩ := h
  obtain ⟨hlength, -⟩ := hchecks idleReady.managed 0 1 1 5 0x6410 1 [] idleReady_writes (by decide)
  obtain ⟨u, hu, -, hkept⟩ := hlength (by decide)
  obtain ⟨-, hdict, -⟩ := hkept
  have hone : some (u.ent 0x4020 1) = some 1 := by rw [← emptyEncode_looks_up, hu]; rfl
  rw [State.ent_of_dict hdict] at hone
  exact absurd hone (by decide +kernel)

end Sys2Proof.Machine
end

section
/-!
SUPPORT. Commits to sound HBM (R178, R180, R188): which bytes a write stores, and what it leaves of the others and of the movers' counts.
-/
namespace Sys2Proof.Machine
open Sys2Proof

/-! ### The physical store (R176) -/

theorem hstore_frame (s : State) (n a : Nat) (b : List Byte) (m : SMap Byte) {k : Nat} (hk : ∀ i, i < b.length → phys s (a + i) ≠ k) :
    sget 0 (hstore s n a b m) k = sget 0 m k := by
  induction n generalizing a b m with
  | zero => rfl
  | succ n ih =>
    unfold hstore
    split
    · rfl
    · dsimp only
      rw [ih, sget_swrite, if_neg]
      · rintro ⟨hlo, hhi⟩
        rw [List.length_take] at hhi
        have hadd := phys_add s a (k - phys s a) (by omega)
        exact hk (k - phys s a) (by omega) (by omega)
      · intro i hi
        rw [List.length_drop] at hi
        rw [Nat.add_assoc]
        exact hk _ (by omega)

/-! ### The counts of bytes committed, `0x4030` -/

/-- From s to t the counts of bytes that the movers have committed stay. -/
def SameMoverCounts (s t : State) : Prop := ∀ j, j < 256 → t.ent 0x4030 j = s.ent 0x4030 j

namespace SameMoverCounts

theorem refl (s : State) : SameMoverCounts s s := fun _ _ => rfl

theorem trans {s t u : State} (h : SameMoverCounts s t) (h' : SameMoverCounts t u) : SameMoverCounts s u := fun j hj => (h' j hj).trans (h j hj)

theorem of_dict {s t : State} (h : t.dict = s.dict) : SameMoverCounts s t := fun j _ => State.ent_of_dict h 0x4030 j

theorem setEnt (s : State) {i j : Nat} (v : Nat) (hi : i ≠ 0x4030) (hj : j < 256) : SameMoverCounts s (s.setEnt i j v) := fun j' hj' =>
  State.ent_setEnt_ne s i j v 0x4030 j' (by rw [ne_eq, ekey_inj hj' hj]; exact fun h => hi h.1.symm)

/-- A count of a cache, for one of the four dies. -/
theorem dieCount (s : State) {i d : Nat} (n : Nat) (hi : i ≠ 0x4030) (hd : d < 4) : SameMoverCounts s (s.addEnt i (d + 1) n) := setEnt s _ hi (by omega)

end SameMoverCounts

section
variable {s : State}

theorem poisonUnits_dict (s : State) (x : CacheLine) : (poisonUnits s x).dict = s.dict := by
  unfold poisonUnits
  exact foldl_keeps (g := State.dict) (h := fun t _ => State.setUnit_dict t ..) ..

theorem writeBack_moverCounts {x : CacheLine} (hx : lineDie x.line < 4) : SameMoverCounts s (writeBack s x) := by
  unfold writeBack
  split
  · exact (SameMoverCounts.dieCount s 1 (by decide) hx).trans (.of_dict (poisonUnits_dict ..))
  · exact .refl s

theorem makeRoom_moverCounts {l : Nat} (hl : lineDie l < 4) : SameMoverCounts s (makeRoom s l) := by
  unfold makeRoom
  dsimp only
  split
  · exact .refl s
  · split
    · next x hx =>
      obtain ⟨hdie, -⟩ := of_decide_eq_true (List.mem_filter.1 (List.mem_of_getLast? hx)).2
      exact (SameMoverCounts.of_dict (t := s.setCache _) rfl).trans (writeBack_moverCounts (hdie.trans_lt hl))
    · exact .refl s

theorem countLookup_moverCounts {d : Nat} (hd : d < 4) (hit : Bool) : SameMoverCounts s (countLookup s d hit) := by
  have hcount := SameMoverCounts.dieCount s (i := 0x4020) 1 (by decide) hd
  cases hit with
  | false => exact hcount.trans (.of_dict rfl)
  | true => exact (hcount.trans (.dieCount _ (i := 0x4021) 1 (by decide) hd)).trans (.of_dict rfl)

theorem lookup_moverCounts (h : HbmSound s) {a : Nat} (ha : a < hbmSize) (n : Nat) (write alloc : Bool) : SameMoverCounts s (lookup s a n write alloc) := by
  have hdie := lineDie_lineOf s ha
  unfold lookup
  dsimp only
  split
  · next x hx =>
    rw [useLine_sound _ (h.2 x (List.mem_of_find?_eq_some hx))]
    exact (countLookup_moverCounts hdie true).trans (.of_dict rfl)
  · have hcount := countLookup_moverCounts (s := s) hdie false
    split
    · exact (hcount.trans (makeRoom_moverCounts hdie)).trans (.of_dict rfl)
    · exact hcount

theorem hwrite_moverCounts (h : s.mem.hbmRaw = []) (a : Nat) (b : List Byte) : SameMoverCounts s (hwrite s a b) := by
  unfold hwrite
  split
  · exact .of_dict rfl
  · rw [h]
    exact SameMoverCounts.trans (.of_dict rfl) (.setEnt _ _ (by decide) (by decide))

/-! ### Accesses of any grain -/

/-- From s to t sound HBM has been accessed: it is sound still, and holds what it held. -/
structure Accessed (s t : State) : Prop where
  sound : HbmSound t
  accounts : Accounts s t
  counts : SameMoverCounts s t
  hbm : t.mem.hbm = s.mem.hbm

theorem lookup_accessed (h : HbmSound s) {a : Nat} (ha : a < hbmSize) (n : Nat) (write alloc : Bool) : Accessed s (lookup s a n write alloc) :=
  ⟨lookup_sound h .., lookup_accounts .., lookup_moverCounts h ha n write alloc, lookup_hbm ..⟩

theorem Accessed.trans {s t u : State} (h : Accessed s t) (h' : Accessed t u) : Accessed s u :=
  ⟨h'.sound, h.accounts.trans h'.accounts, h.counts.trans h'.counts, h'.hbm.trans h.hbm⟩

theorem accesses_accessed (h : HbmSound s) (g : Nat) {a n : Nat} (ha : a + n ≤ hbmSize) (write alloc : Bool) :
    Accessed s (accesses g s a n write alloc) := by
  unfold accesses
  split
  · exact ⟨h, .refl s, .refl s, rfl⟩
  · next hn =>
    refine List.foldlRecOn (motive := Accessed s) _ _ ⟨h, .refl s, .refl s, rfl⟩ fun t ht k hk => ht.trans (lookup_accessed ht.sound ?_ ..)
    have hpiece : (a / g + k) * g ≤ a + n - 1 := by
      have hdiv : a / g ≤ (a + n - 1) / g := Nat.div_le_div_right (by omega)
      have hk := List.mem_range.1 hk
      exact (Nat.mul_le_mul_right g (by omega)).trans (Nat.div_mul_le_self _ g)
    exact max_lt (by omega) (by omega)

/-! ### Bytes stored -/

/-- In u the bytes b lie at a, where s has its addresses, and every other byte of HBM is that of s. -/
def Stored (s u : State) (a : Nat) (b : List Byte) : Prop :=
  (∀ i, i < b.length → hbyte u (a + i) = b.getD i 0) ∧ ∀ k, (∀ i, i < b.length → phys s (a + i) ≠ k) → sget 0 u.mem.hbm k = sget 0 s.mem.hbm k

/-- Bytes stay stored while the HBM and the region modes stay. -/
theorem Stored.later {s v u : State} {a : Nat} {b : List Byte} (h : Stored s v a b) (ha : a + b.length ≤ hbmSize) (hm : u.mem = v.mem)
    (hmodes : ∀ j, j < 256 → u.ent 0x4010 j = v.ent 0x4010 j) : Stored s u a b := by
  obtain ⟨hbytes, hothers⟩ := h
  refine ⟨fun i hi => ?_, fun k hk => ?_⟩
  · rw [hbyte_of_accounts hmodes (congrArg Mem.hbm hm) (by omega), hbytes i hi]
  · rw [hm, hothers k hk]

/-- From s to t the bytes b have been committed to HBM at a, and nothing else but accounts has changed. -/
structure Committed (s t : State) (a : Nat) (b : List Byte) : Prop where
  stored : Stored s t a b
  accounts : Accounts s t
  counts : SameMoverCounts s t

theorem hwrite_commits {v : State} (h : Accessed s v) {a : Nat} {b : List Byte} (ha : a + b.length ≤ hbmSize) : Committed s (hwrite v a b) a b := by
  have hwritten : Accounts v (hwrite v a b) := hwrite_accounts v a b
  have hput : Accounts v (hput v a b) := .hput v a b
  have hmodes {u w : State} (h : Accounts u w) (j : Nat) (hj : j < 256) : w.ent 0x4010 j = u.ent 0x4010 j := h.low 0x4010 j (by decide) hj
  refine ⟨⟨fun i hi => ?_, fun k hk => ?_⟩, h.accounts.trans hwritten, h.counts.trans (hwrite_moverCounts h.sound.1 a b)⟩
  · rw [hbyte_of_accounts (fun j hj => (hmodes hwritten j hj).trans (hmodes hput j hj).symm) (hwrite_hbm ..) (by omega), hbyte_hput v a b ha _ (by omega),
      if_pos ⟨by omega, by omega⟩, Nat.add_sub_cancel_left]
  · rw [hwrite_hbm, ← h.hbm]
    refine hstore_frame v _ a b _ fun i hi => ?_
    rw [phys_of_accounts (hmodes h.accounts) (by omega)]
    exact hk i hi

theorem localWrite_commits (h : HbmSound s) {a : Nat} {b : List Byte} (ha : a + b.length ≤ hbmSize) : Committed s (localWrite s a b) a b := by
  rw [localWrite_hbm s ha]
  exact hwrite_commits (accesses_accessed h 256 ha true true) ha

theorem length_addBytes (old b : List Byte) : (addBytes old b).length = b.length / 4 * 4 := by
  simp [addBytes, List.length_flatMap]

/-- The sums of an ADD32 are committed in place of the bytes (R188). -/
theorem addUnits_commits (h : HbmSound s) {a : Nat} {b : List Byte} (ha : a + b.length ≤ hbmSize) :
    (addUnits s a b).2 = false ∧ Committed s (addUnits s a b).1 a (addBytes (hread s a b.length) b) := by
  have haccessed := accesses_accessed h 64 ha true true
  have hsums := length_addBytes (hread s a b.length) b
  unfold addUnits
  rw [hcheck_clean _ _ _ haccessed.sound.1]
  exact ⟨rfl, hwrite_commits haccessed (by omega)⟩

end

end Sys2Proof.Machine
end

section
/-!
SUPPORT. What a commit counts and signals (R147, R151): the tally of a transfer, routes and answers beside it.
-/
namespace Sys2Proof.Machine
open Sys2Proof

/-! ### Semaphores and the cores' other parts -/

/-- From s to t every semaphore stays, and so does how it takes an increment (R145, R151). -/
structure SameSignals (s t : State) : Prop where
  sem : ∀ c k, t.sem c k = s.sem c k
  landing : ∀ c k, t.isLanding c k = s.isLanding c k
  running : t.running = s.running

namespace SameSignals

theorem trans {s t u : State} (h : SameSignals s t) (h' : SameSignals t u) : SameSignals s u :=
  ⟨fun c k => (h'.sem c k).trans (h.sem c k), fun c k => (h'.landing c k).trans (h.landing c k), h'.running.trans h.running⟩

theorem of_cores {s t : State} (hcores : t.cores = s.cores) (hctl : t.ctl = s.ctl) : SameSignals s t := by
  have hcore (c : Nat) : t.core c = s.core c := by
    unfold State.core
    rw [hcores]
  exact ⟨fun c k => by unfold State.sem; rw [hcore], fun c k => by unfold State.isLanding; rw [hcore], running_of_ctl hctl⟩

theorem of_accounts {s t : State} (h : Accounts s t) : SameSignals s t := of_cores h.cores h.ctl

/-- A change of a core that spares its semaphores and their kinds. -/
theorem modCore (s : State) (c : Nat) {f : CoreS → CoreS} (hsems : (f (s.core c)).sems = (s.core c).sems)
    (hlanding : (f (s.core c)).landing = (s.core c).landing) : SameSignals s (s.modCore c f) := by
  refine ⟨fun d k => ?_, fun d k => ?_, rfl⟩
  · unfold State.sem
    rw [State.core_modCore]
    split
    · next h => rw [hsems, h]
    · rfl
  · unfold State.isLanding
    rw [State.core_modCore]
    split
    · next h => rw [hlanding, h]
    · rfl

end SameSignals

/-! ### What an increment and a tally leave -/

/-- From s to t only the transfers, the cores and the counts of misdirected increments may change, and events come up. -/
structure BesideTally (s t : State) : Prop where
  mem : t.mem = s.mem
  ents : ∀ i j, i < 0x5520 → j < 256 → t.ent i j = s.ent i j
  links : { t.links with transfers := [] } = { s.links with transfers := [] }

namespace BesideTally

theorem of_eq {s t : State} (hm : t.mem = s.mem) (hd : t.dict = s.dict) (hl : { t.links with transfers := [] } = { s.links with transfers := [] }) :
    BesideTally s t := ⟨hm, fun i j _ _ => State.ent_of_dict hd i j, hl⟩

theorem refl (s : State) : BesideTally s s := of_eq rfl rfl rfl

theorem trans {s t u : State} (h : BesideTally s t) (h' : BesideTally t u) : BesideTally s u :=
  ⟨h'.mem.trans h.mem, fun i j hi hj => (h'.ents i j hi hj).trans (h.ents i j hi hj), h'.links.trans h.links⟩

section
variable {s t : State} (h : BesideTally s t)
include h

theorem ports : t.links.ports = s.links.ports := (congrArg Links.ports h.links :)
theorem maps : t.links.maps = s.links.maps := (congrArg Links.maps h.links :)
theorem segments : t.links.segments = s.links.segments := (congrArg Links.segments h.links :)

end

theorem setTransfer (s : State) (key : Nat) (x : Option Transfer) : BesideTally s (s.setTransfer key x) := of_eq rfl rfl rfl

theorem misdirect (s : State) (c k n : Nat) : BesideTally s (misdirect s c k n) := by
  have hcount : BesideTally s (s.addEnt 0x5520 1 n) :=
    ⟨rfl, fun i j hi hj => State.ent_addEnt_ne s _ _ _ _ _ (by rw [ne_eq, ekey_inj hj (by decide)]; omega), rfl⟩
  unfold Machine.misdirect
  dsimp only
  split
  · exact hcount
  · exact hcount.trans (.of_eq rfl rfl rfl)

theorem incSem {s : State} {c k n : Nat} (hfits : s.sem c k + n < 2 ^ 32) (landing : Bool) : BesideTally s (incSem s c k n landing) := by
  unfold Machine.incSem
  split
  · exact .refl s
  · split
    · exact misdirect s c k n
    · exact .of_eq rfl rfl rfl

end BesideTally

/-- By how much the landing semaphore of transfer y rises with n bytes more (R147). -/
def rise (y : Transfer) (n : Nat) : Nat := landUnits y.total (y.committed + n) - y.landed

/-- The landing semaphore of transfer x has room for n bytes more. -/
def Calm (s : State) (x : Option Transfer) (n : Nat) : Prop :=
  ∀ y core sem, x = some y → y.land = some (core, sem) → s.sem core sem + rise y n < 2 ^ 32

/-- In u the landing semaphore of transfer x has risen from s by the units of n bytes more. -/
def Signalled (s u : State) (x : Option Transfer) (n : Nat) : Prop :=
  ∀ y core sem, x = some y → y.land = some (core, sem) → s.running = true → s.isLanding core sem = true → u.sem core sem = s.sem core sem + rise y n

theorem Calm.of_same {s t : State} {x : Option Transfer} {n : Nat} (h : Calm s x n) (hs : SameSignals s t) : Calm t x n :=
  fun y core sem hy hland => by rw [hs.sem]; exact h y core sem hy hland

theorem Signalled.of_same {s t u v : State} {x : Option Transfer} {n : Nat} (h : Signalled t u x n) (hs : SameSignals s t) (hu : SameSignals u v) :
    Signalled s v x n := fun y core sem hy hland hr hl => by
  rw [hu.sem, h y core sem hy hland (hs.running.trans hr) ((hs.landing ..).trans hl), hs.sem]

/-- A tally counts the bytes on the transfer and increments its landing semaphore, where it has one. -/
theorem tallyLanding_spec {s : State} {key n : Nat} (h : Calm s (s.transfer key) n) :
    BesideTally s (tallyLanding s key n) ∧ Signalled s (tallyLanding s key n) (s.transfer key) n := by
  unfold tallyLanding
  cases hx : s.transfer key with
  | none => exact ⟨.refl s, fun y core sem hy => nomatch hy⟩
  | some y =>
    dsimp only
    have hset := BesideTally.setTransfer s key (some { y with committed := y.committed + n, landed := landUnits y.total (y.committed + n) })
    have hsame : SameSignals s (s.setTransfer key (some { y with committed := y.committed + n, landed := landUnits y.total (y.committed + n) })) :=
      .of_cores rfl rfl
    generalize s.setTransfer key _ = v at hset hsame ⊢
    cases hland : y.land with
    | none =>
      refine ⟨hset, fun z core sem hz hzland => ?_⟩
      obtain rfl := Option.some.inj hz
      rw [hland] at hzland
      exact nomatch hzland
    | some p =>
      obtain ⟨c, k⟩ := p
      have hfits : v.sem c k + rise y n < 2 ^ 32 := (hsame.sem c k).symm ▸ h y c k hx hland
      refine ⟨hset.trans (.incSem hfits true), fun z core sem hz hzland hr hl => ?_⟩
      obtain rfl := Option.some.inj hz
      rw [hland] at hzland
      obtain ⟨rfl, rfl⟩ := Prod.mk.inj (Option.some.inj hzland)
      exact (incSem_landing (hsame.running.trans hr) hfits ((hsame.landing c k).trans hl)).trans (congrArg (· + rise y n) (hsame.sem c k))

/-! ### Flits that wait, routes and answers -/

/-- With no flit that waits, freed places let none through. -/
theorem drainAll_idle {s : State} (h : NothingWaits s) : drainAll s = s := by
  have hport (p : Nat) : drainWaiting 1024 p s = s := by
    unfold drainWaiting
    rw [h p]
    rfl
  unfold drainAll
  refine List.foldlRecOn (motive := (· = s)) _ _ rfl fun t ht p _ => ?_
  rw [ht, hport]

theorem nothingWaits_of_ports {s t : State} (hp : t.links.ports = s.links.ports) (h : NothingWaits s) : NothingWaits t := fun q => by
  rw [port_of_links hp]
  exact h q

/-- A route depends on the ports, the maps and the entries of the links alone (R396). -/
theorem routePort_of_links {s t : State} (hent : ∀ i j, i < 0x4020 → j < 256 → t.ent i j = s.ent i j) (hports : t.links.ports = s.links.ports)
    (hmaps : t.links.maps = s.links.maps) (src dst : Nat) : routePort t src dst = routePort s src dst := by
  have hdevice : t.device = s.device := hent 0x3200 4 (by decide) (by decide)
  have hbridge : t.isBridge = s.isBridge := by
    unfold State.isBridge
    rw [hent 0x3200 5 (by decide) (by decide)]
  have hin {p : Nat} (hp : p < 48) : t.inService p = s.inService p := by
    unfold State.inService State.portSt
    rw [hent 0x3300 (p + 1) (by decide) (by omega)]
  have hport := port_of_links hports
  have hmesh (pos : Nat) : meshHop t pos = meshHop s pos := by
    unfold meshHop meshPort
    rw [hdevice]
    dsimp only
    rw [hin ((Nat.mod_lt _ (by decide)).trans (by decide))]
  have hpeer {p : Nat} (hp : p < 48) : t.ent 0x3301 (p + 1) = s.ent 0x3301 (p + 1) := hent 0x3301 (p + 1) (by decide) (by omega)
  have hglobal (course : Nat) : globalPorts t course = globalPorts s course := by
    unfold globalPorts
    refine List.filter_congr fun p hp => ?_
    rw [hin (List.mem_range.1 hp), hport, hpeer (List.mem_range.1 hp)]
  have hgates (course : Nat) : gateways t course = gateways s course := by
    unfold gateways
    rw [hmaps]
  have hposition : bridgePosition t = bridgePosition s := by
    unfold bridgePosition
    rw [hbridge, hmaps, hdevice]
  have hfind (l : List Nat) (hl : ∀ p ∈ l, p < 48) :
      (l.find? fun p => decide (t.ent 0x3301 (p + 1) = dst)) = l.find? fun p => decide (s.ent 0x3301 (p + 1) = dst) := by
    refine List.find?_congr fun p hp => ?_
    rw [hpeer (hl p hp)]
  unfold routePort
  rw [hbridge, hposition, funext hmesh, hin (by decide), hport, hdevice]
  dsimp only
  rw [hglobal, hgates, hfind (globalPorts s (courseOf dst)) fun p hp => List.mem_range.1 (List.mem_filter.1 hp).1]

end Sys2Proof.Machine
end

section
/-!
LANDING_COMMIT (O16; R147, R148, R180, R188, R195, R400).
-/
namespace Sys2Proof.Machine
open Sys2Proof

theorem links_of_accounts {s t : State} (h : Accounts s t) : t.links = s.links := (congrArg State.links h.kept :)

theorem transfer_of_links {s t : State} (h : t.links = s.links) (key : Nat) : t.transfer key = s.transfer key := by
  unfold State.transfer
  rw [h]

/-! ### The own descriptor -/

theorem unitCut_le (a n : Nat) (last : Bool) : unitCut a n last ≤ n := by
  unfold unitCut
  split
  · exact le_rfl
  · have := Nat.div_mul_le_self (a + n) 64
    omega

/-- The bytes b of descriptor m written at a: added there for ADD32, else stored (R188). -/
def writeNext (s : State) (m : Move) (a : Nat) (b : List Byte) : State × Bool := if mvOp m.desc = 4 then addUnits s a b else (localWrite s a b, false)

theorem writeNext_commits {s : State} (h : HbmSound s) (m : Move) {a : Nat} {b : List Byte} (ha : a + b.length ≤ hbmSize) :
    (writeNext s m a b).2 = false ∧ Committed s (writeNext s m a b).1 a (if mvOp m.desc = 4 then addBytes (hread s a b.length) b else b) := by
  unfold writeNext
  split
  · exact addUnits_commits h ha
  · exact ⟨rfl, localWrite_commits h ha⟩

/-- The run w of descriptor m of core c without its first n bytes, which the mover has counted. -/
def runTaken (s : State) (c : Nat) (m : Move) (w : Nat × List Byte) (rest : List (Nat × List Byte)) (n : Nat) : State :=
  (s.modMove c m.id fun m => { m with writes := if n = w.2.length then rest else (w.1 + n, w.2.drop n) :: rest }).addEnt 0x4030 (c + 1) n

/-- A transfer whose bytes are all committed is no longer open. -/
def closeCommitted (s : State) (key : Nat) : State :=
  if (match s.transfer key with | some x => decide (x.total ≤ x.committed) | none => false) then s.setTransfer key none else s

theorem entryMod_moverBytes {c : Nat} (h : c < 192) : entryMod 0x4030 (c + 1) = 2 ^ 64 := by
  have hall : ∀ c : Core, entryMod 0x4030 (c.val + 1) = 2 ^ 64 := by decide +kernel
  exact hall ⟨c, h⟩

section
variable (s : State) (c : Nat)

theorem runTaken_signals (m : Move) (w : Nat × List Byte) (rest : List (Nat × List Byte)) (n : Nat) : SameSignals s (runTaken s c m w rest n) := by
  unfold runTaken
  exact (SameSignals.modCore s c rfl rfl).trans (.of_cores (State.addEnt_cores ..) (State.addEnt_ctl ..))

theorem runTaken_ent (m : Move) (w : Nat × List Byte) (rest : List (Nat × List Byte)) (n : Nat) {i j : Nat} (hi : i ≠ 0x4030) (hj : j < 256) (hc : c < 192) :
    (runTaken s c m w rest n).ent i j = s.ent i j :=
  State.ent_addEnt_ne _ _ _ _ _ _ (by rw [ne_eq, ekey_inj hj (by omega)]; exact fun h => hi h.1)

theorem runTaken_counts (m : Move) (w : Nat × List Byte) (rest : List (Nat × List Byte)) (n : Nat) (hc : c < 192) :
    (runTaken s c m w rest n).ent 0x4030 (c + 1) = (s.ent 0x4030 (c + 1) + n) % 2 ^ 64 := by
  rw [← entryMod_moverBytes hc]
  exact State.ent_addEnt_self ..

theorem closeCommitted_beside (key : Nat) : BesideTally s (closeCommitted s key) ∧ SameSignals s (closeCommitted s key) := by
  have hcases : closeCommitted s key = s.setTransfer key none ∨ closeCommitted s key = s := ite_eq_or_eq ..
  rcases hcases with h | h <;> rw [h]
  · exact ⟨.setTransfer .., .of_cores rfl rfl⟩
  · exact ⟨.refl s, .of_cores rfl rfl⟩

theorem sweepMoves_beside : BesideTally s (sweepMoves s c) ∧ SameSignals s (sweepMoves s c) := ⟨.of_eq rfl rfl rfl, .modCore s c rfl rfl⟩

end

/-- What is left of a commit of n bytes of core c once they are stored and counted, in u: the tally of the transfer, and room in the mover. -/
def tallied (u : State) (c key n : Nat) : State := sweepMoves (closeCommitted (tallyLanding u key n) key) c

theorem tallied_spec {u : State} {key n : Nat} (h : Calm u (u.transfer key) n) (c : Nat) :
    BesideTally u (tallied u c key n) ∧ Signalled u (tallied u c key n) (u.transfer key) n := by
  obtain ⟨htally, hsignals⟩ := tallyLanding_spec h
  obtain ⟨hclosed, hclosedSem⟩ := closeCommitted_beside (tallyLanding u key n) key
  obtain ⟨hswept, hsweptSem⟩ := sweepMoves_beside (closeCommitted (tallyLanding u key n) key) c
  exact ⟨(htally.trans hclosed).trans hswept, hsignals.of_same (.of_cores rfl rfl) (hclosedSem.trans hsweptSem)⟩

section
variable {s : State} {c : Nat} {m : Move} {w : Nat × List Byte} {rest : List (Nat × List Byte)} {bytes : Nat}

/-- How many bytes of the next run a commit takes. -/
def ownCut (w : Nat × List Byte) (bytes : Nat) : Nat := unitCut (gLocal w.1) (Nat.min bytes w.2.length) (decide (w.2.length ≤ bytes))

theorem length_take_ownCut : (w.2.take (ownCut w bytes)).length = ownCut w bytes := by
  have hmin : Nat.min bytes w.2.length ≤ w.2.length := Nat.min_le_right ..
  exact List.length_take_of_le ((unitCut_le ..).trans hmin)

theorem ownCut_inside (hin : gLocal w.1 + w.2.length ≤ hbmSize) : gLocal w.1 + (w.2.take (ownCut w bytes)).length ≤ hbmSize := by
  have hlen : (w.2.take (ownCut w bytes)).length ≤ w.2.length := List.length_take_le' ..
  omega

theorem commitOwn_cons (hw : m.writes = w :: rest) : commitOwn s c m bytes =
    let n := ownCut w bytes
    let r := writeNext s m (gLocal w.1) (w.2.take n)
    if n = 0 then s
    else if r.2 then failMove r.1 c m 0x4102 w.1
    else drainAll (tallied (runTaken r.1 c m w rest n) c (transferKey r.1.device m.transfer.toNat) n) := by
  unfold commitOwn
  rw [hw]
  rfl

/-- A commit of n bytes of an own descriptor: stored, counted, signalled. -/
theorem commitOwn_spec (hs : HbmSound s) (hwaits : NothingWaits s) (hw : m.writes = w :: rest) (hn : ownCut w bytes ≠ 0)
    (hin : gLocal w.1 + w.2.length ≤ hbmSize) (hc : c < 192) :
    let n := ownCut w bytes
    let x := s.transfer (transferKey s.device m.transfer.toNat)
    let b := w.2.take n
    Calm s x n →
      Stored s (commitOwn s c m bytes) (gLocal w.1) (if mvOp m.desc = 4 then addBytes (hread s (gLocal w.1) n) b else b) ∧
      (commitOwn s c m bytes).ent 0x4030 (c + 1) = (s.ent 0x4030 (c + 1) + n) % 2 ^ 64 ∧ Signalled s (commitOwn s c m bytes) x n := by
  intro n x b hcalm
  have hlength : b.length = n := length_take_ownCut
  have hinside : gLocal w.1 + b.length ≤ hbmSize := ownCut_inside hin
  obtain ⟨hgood, hcommitted⟩ := writeNext_commits hs m hinside
  rw [hlength] at hcommitted
  have hcommit : commitOwn s c m bytes =
      drainAll (tallied (runTaken (writeNext s m (gLocal w.1) b).1 c m w rest n) c (transferKey (writeNext s m (gLocal w.1) b).1.device m.transfer.toNat) n) := by
    rw [commitOwn_cons hw]
    dsimp only
    rw [if_neg hn, hgood, if_neg Bool.false_ne_true]
  generalize (writeNext s m (gLocal w.1) b).1 = v at hcommitted hcommit
  obtain ⟨hstored, haccounts, hcounts⟩ := hcommitted
  have hdevice : v.device = s.device := haccounts.low 0x3200 4 (by decide) (by decide)
  have hlinks : v.links = s.links := links_of_accounts haccounts
  have hsame : SameSignals s (runTaken v c m w rest n) := (SameSignals.of_accounts haccounts).trans (runTaken_signals ..)
  have htransfer : (runTaken v c m w rest n).transfer (transferKey s.device m.transfer.toNat) = x :=
    transfer_of_links (s := s) (t := runTaken v c m w rest n) hlinks _
  obtain ⟨htally, hsignalled⟩ := tallied_spec (htransfer ▸ hcalm.of_same hsame) c
  have hports : (tallied (runTaken v c m w rest n) c (transferKey s.device m.transfer.toNat) n).links.ports = s.links.ports :=
    htally.ports.trans (congrArg Links.ports hlinks)
  rw [hcommit, hdevice, drainAll_idle (nothingWaits_of_ports hports hwaits)]
  refine ⟨hstored.later ?_ htally.mem fun j hj => ?_, ?_, ?_⟩
  · split
    · have := length_addBytes (hread s (gLocal w.1) n) b
      omega
    · exact hinside
  · rw [htally.ents 0x4010 j (by decide) hj, runTaken_ent v c m w rest n (by decide) hj hc]
  · rw [htally.ents 0x4030 (c + 1) (by decide) (by omega), runTaken_counts v c m w rest n hc, hcounts (c + 1) (by omega)]
  · rw [htransfer] at hsignalled
    exact hsignalled.of_same hsame (.of_cores rfl rfl)

end

/-! ### A segment of another module -/

section
variable {s : State} {dst : W16} {tag : BitVec 12} {transfer bytes : Nat}

/-- The ACK of a segment that is committed whole (Table 13-10). -/
def wholeAck (s : State) (dst : W16) (tag : BitVec 12) (transfer bytes : Nat) : Flit :=
  openFlit s kAck 3 dst tag 0 true (le 1 0 ++ le 1 0 ++ le 2 transfer ++ le 4 bytes)

theorem sendAck_ok : sendAck s dst tag 0 transfer bytes = (emit s dst.toNat [wholeAck s dst tag transfer bytes]).1 := by
  have hcount : noteRefused s dst 0 = s := if_neg fun h => h.2.1 rfl
  unfold sendAck
  rw [hcount]
  rfl

theorem sendAck_keeps : (sendAck s dst tag 0 transfer bytes).mem = s.mem ∧
    (∀ j, j < 256 → (sendAck s dst tag 0 transfer bytes).ent 0x4010 j = s.ent 0x4010 j) ∧ SameSignals s (sendAck s dst tag 0 transfer bytes) ∧
    (NothingWaits s → NothingWaits (sendAck s dst tag 0 transfer bytes)) := by
  rw [sendAck_ok]
  cases hroute : routePort s s.device dst.toNat with
  | some p =>
    rw [emit_single hroute]
    refine ⟨rfl, fun _ _ => rfl, .of_cores rfl rfl, fun h q => ?_⟩
    unfold sendOpen queueOpen
    rw [State.port_modPort]
    split
    · exact h p
    · exact h q
  | none =>
    unfold emit
    rw [hroute]
    exact ⟨rfl, fun j hj => State.ent_addEnt_ne _ _ _ _ _ _ (by rw [ne_eq, ekey_inj hj (by decide)]; omega), .of_cores rfl rfl, fun h => h⟩

/-- On its route the answer joins the responses of the port. -/
theorem sendAck_queued {q : Nat} (hroute : routePort s s.device dst.toNat = some q) (hvcs : (s.port q).vcs.length = 6) :
    ∃ a, vcQueue (sendAck s dst tag 0 transfer bytes) q 3 = vcQueue s q 3 ++ [a] ∧ a.kind = 6 ∧ a.tag = tag ∧ field a.payload 0 1 = 0 := by
  refine ⟨wholeAck s dst tag transfer bytes, ?_, rfl, rfl, ?_⟩
  · rw [sendAck_ok, emit_single hroute]
    unfold vcQueue
    rw [port_sendOpen]
    have hset (l : List (Flit × Option (Nat × Nat))) : ((s.port q).vcs.set 3 l).getD 3 [] = l := by
      rw [List.getD_eq_getElem?_getD, List.getElem?_set_self (by omega)]
      rfl
    exact (congrArg (List.map Prod.fst) (hset _)).trans (List.map_append ..)
  · change field (le 1 0 ++ le 1 0 ++ le 2 transfer ++ le 4 bytes) 0 1 = 0
    rw [List.append_assoc, List.append_assoc, field_le_append, Nat.zero_mod]

end

section
variable {s : State} {src transfer : W16} {bytes : Nat} {g : Segment}

/-- The open segment of this transfer that has bytes to commit. -/
def nextSegment (s : State) (src transfer : W16) : Option Segment :=
  s.links.segments.find? fun g => decide (g.src = src) && decide (g.transfer = transfer) && decide (g.pendingBytes ≠ [])

/-- How many bytes of a segment a commit takes. -/
def segmentCut (g : Segment) (bytes : Nat) : Nat :=
  unitCut (g.base + g.done) (Nat.min bytes g.pendingBytes.length) (decide (g.done + Nat.min bytes g.pendingBytes.length = g.bytes))

/-- The segment with n bytes more committed. -/
def segmentAfter (g : Segment) (n : Nat) : Segment := { g with done := g.done + n, pendingBytes := g.pendingBytes.drop n }

/-- The state with n bytes more of segment g taken: a segment that is committed whole is closed. -/
def segmentTaken (s : State) (g : Segment) (n : Nat) : State :=
  let others := s.links.segments.filter fun h => !decide (h = g)
  { s with links := { s.links with segments := if decide (g.done + n = g.bytes) then others else others ++ [segmentAfter g n] } }

theorem commitFar_some (hg : nextSegment s src transfer = some g) : commitFar s src transfer bytes =
    let n := segmentCut g bytes
    let key := transferKey src.toNat transfer.toNat
    let u := tallyLanding (segmentTaken (localWrite s (g.base + g.done) (g.pendingBytes.take n)) g n) key n
    if n = 0 then s
    else if decide (g.done + n = g.bytes) then drainAll (answered (sendAck u g.src g.tag 0 transfer.toNat g.bytes) key g.bytes) else u := by
  unfold nextSegment at hg
  unfold commitFar
  rw [hg]
  rfl

theorem answered_beside (s : State) (key n : Nat) : BesideTally s (answered s key n) ∧ SameSignals s (answered s key n) := by
  unfold answered
  split
  · exact ⟨.refl s, .of_cores rfl rfl⟩
  · split
    · exact ⟨.setTransfer .., .of_cores rfl rfl⟩
    · exact ⟨.setTransfer .., .of_cores rfl rfl⟩

/-- What holds once the bytes b of segment g are committed in v, and then tallied. -/
structure SegmentTallied (s u : State) (g : Segment) (b : List Byte) (x : Option Transfer) (n : Nat) : Prop where
  stored : Stored s u (g.base + g.done) b
  signalled : Signalled s u x n
  ports : u.links.ports = s.links.ports
  segments : u.links.segments = (segmentTaken s g n).links.segments
  device : u.device = s.device
  routes : ∀ src dst, routePort u src dst = routePort s src dst

theorem segmentTallied {v : State} {b : List Byte} {key n : Nat} (h : Committed s v (g.base + g.done) b) (ha : g.base + g.done + b.length ≤ hbmSize)
    (hcalm : Calm s (s.transfer key) n) : SegmentTallied s (tallyLanding (segmentTaken v g n) key n) g b (s.transfer key) n := by
  obtain ⟨hstored, haccounts, -⟩ := h
  have hlinks := links_of_accounts haccounts
  have hsame : SameSignals s (segmentTaken v g n) := (SameSignals.of_accounts haccounts).trans (.of_cores rfl rfl)
  have htransfer : (segmentTaken v g n).transfer key = s.transfer key := transfer_of_links (s := s) (t := v) hlinks key
  obtain ⟨htally, hsignalled⟩ := tallyLanding_spec (htransfer ▸ hcalm.of_same hsame)
  have hlow (i j : Nat) (hi : i < 0x4020) (hj : j < 256) : (tallyLanding (segmentTaken v g n) key n).ent i j = s.ent i j :=
    (htally.ents i j (by omega) hj).trans (haccounts.low i j hi hj)
  have hports : (tallyLanding (segmentTaken v g n) key n).links.ports = s.links.ports := htally.ports.trans (congrArg Links.ports hlinks :)
  refine ⟨hstored.later ha htally.mem fun j hj => htally.ents 0x4010 j (by decide) hj, ?_, hports, ?_, hlow 0x3200 4 (by decide) (by decide),
    routePort_of_links hlow hports (htally.maps.trans (congrArg Links.maps hlinks :))⟩
  · rw [htransfer] at hsignalled
    exact hsignalled.of_same hsame (.of_cores rfl rfl)
  · rw [htally.segments]
    unfold segmentTaken
    rw [hlinks]

/-- A commit of n bytes of a segment: stored and signalled; a segment that is left is kept with what it lacks, a whole one is answered. -/
theorem commitFar_spec (hs : HbmSound s) (hwaits : NothingWaits s) (hg : nextSegment s src transfer = some g) (hn : segmentCut g bytes ≠ 0)
    (hin : g.base + g.bytes ≤ hbmSize) (hlen : g.done + g.pendingBytes.length ≤ g.bytes) :
    let n := segmentCut g bytes
    let x := s.transfer (transferKey src.toNat transfer.toNat)
    let u := commitFar s src transfer bytes
    Calm s x n → Stored s u (g.base + g.done) (g.pendingBytes.take n) ∧ (g.done + n < g.bytes → segmentAfter g n ∈ u.links.segments) ∧
      (g.done + n = g.bytes → ∀ q, routePort s s.device src.toNat = some q → (s.port q).vcs.length = 6 → ∃ a,
        vcQueue u q 3 = vcQueue s q 3 ++ [a] ∧ a.kind = 6 ∧ a.tag = g.tag ∧ field a.payload 0 1 = 0) ∧
      Signalled s u x n := by
  intro n x u hcalm
  have hsource : g.src = src := by
    have hfound := List.find?_some hg
    simp only [Bool.and_eq_true, decide_eq_true_eq] at hfound
    exact hfound.1.1
  have hinside : g.base + g.done + (g.pendingBytes.take n).length ≤ hbmSize := by
    have hlength : (g.pendingBytes.take n).length ≤ g.pendingBytes.length := List.length_take_le' ..
    omega
  obtain ⟨hstored, hsignalled, hports, hsegments, hdevice, hroutes⟩ := segmentTallied (localWrite_commits hs hinside) hinside hcalm
  have hcommit := commitFar_some (bytes := bytes) hg
  dsimp only at hcommit
  rw [if_neg hn] at hcommit
  change u = _ at hcommit
  generalize tallyLanding (segmentTaken _ g _) _ _ = v at hcommit hstored hsignalled hports hsegments hdevice hroutes
  by_cases hwhole : g.done + n = g.bytes
  · obtain ⟨hmem, hmodes, hsame, hidle⟩ := sendAck_keeps (s := v) (dst := g.src) (tag := g.tag) (transfer := transfer.toNat) (bytes := g.bytes)
    obtain ⟨hanswered, hansweredSem⟩ := answered_beside (sendAck v g.src g.tag 0 transfer.toNat g.bytes) (transferKey src.toNat transfer.toNat) g.bytes
    rw [if_pos (decide_eq_true hwhole),
      drainAll_idle (nothingWaits_of_ports hanswered.ports (hidle (nothingWaits_of_ports hports hwaits)))] at hcommit
    rw [hcommit]
    refine ⟨hstored.later hinside (hanswered.mem.trans hmem) fun j hj => (hanswered.ents 0x4010 j (by decide) hj).trans (hmodes j hj),
      fun hless => absurd hwhole hless.ne, fun _ q hroute hvcs => ?_, hsignalled.of_same (.of_cores rfl rfl) (hsame.trans hansweredSem)⟩
    have hroute' : routePort v v.device g.src.toNat = some q := by rw [hroutes, hdevice, hsource, hroute]
    have hport (q : Nat) := port_of_links hports q
    obtain ⟨a, hqueue, ha⟩ := sendAck_queued (tag := g.tag) (transfer := transfer.toNat) (bytes := g.bytes) hroute' (by rw [hport, hvcs])
    refine ⟨a, ?_, ha⟩
    unfold vcQueue at hqueue ⊢
    rw [port_of_links hanswered.ports, hqueue, hport]
  · rw [if_neg (by simpa using hwhole)] at hcommit
    rw [hcommit]
    refine ⟨hstored, fun _ => ?_, fun h => absurd h hwhole, hsignalled⟩
    rw [hsegments]
    unfold segmentTaken
    dsimp only
    rw [if_neg (by simpa using hwhole)]
    exact List.mem_append_right _ (List.mem_singleton_self _)

end

/-! ### The command -/

section
variable {s : State} {t : FTime} {transfer : W16} {bytes : Nat} (hnow : s.now ≤ t)
include hnow

theorem landingCommit_own {c : Nat} {m : Move} (hm : ownMove s transfer = some (c, m)) (hfar : isFar s (gDev (mvDst m.desc)) (gLocal (mvDst m.desc)) = false) :
    exec (.landingCommit t (BitVec.ofNat 16 s.device) transfer bytes) s = .next (commitOwn { s with now := t } c m bytes) := by
  have hdevice : (BitVec.ofNat 16 s.device).toNat = ({ s with now := t } : State).device := by
    have hdst : mvDst m.desc < 2 ^ 64 := by
      unfold mvDst
      rw [field_eq]
      exact (ofLe_lt _).trans_eq (by rw [List.length_map, List.length_range]; rfl)
    have hown : gDev (mvDst m.desc) = s.device := by
      unfold isFar at hfar
      simpa using (Bool.or_eq_false_iff.1 hfar).1
    unfold gDev at hown
    change s.device % 2 ^ 16 = s.device
    omega
  change execLandingCommit t _ transfer bytes s = _
  unfold execLandingCommit
  rw [atTime_of_le s hnow, if_pos hdevice, show ownMove { s with now := t } transfer = some (c, m) from hm]
  exact if_neg (by rw [show isFar { s with now := t } = isFar s from rfl, hfar]; exact Bool.false_ne_true)

theorem landingCommit_far {src : W16} (hsrc : src.toNat ≠ s.device) :
    exec (.landingCommit t src transfer bytes) s = .next (commitFar { s with now := t } src transfer bytes) := by
  change execLandingCommit t src transfer bytes s = _
  unfold execLandingCommit
  rw [atTime_of_le s hnow]
  exact if_neg hsrc

end

/-- Settles O16: `commitOwn_spec` for a descriptor with its destination here, `commitFar_spec` for a segment of another module. -/
theorem landingCommits : Obligations.LandingCommits := by
  unfold Obligations.LandingCommits
  intro s t transfer bytes stored rise' calm signals hnow hs hwaits
  have hs' : HbmSound { s with now := t } := hbmSound_withNow hs t
  refine ⟨fun c m w rest hn hm hfar hw _ hin htransfer hc hcalm => ?_, fun src g hsrc hg hn hin hlen hcalm => ?_⟩
  · subst htransfer
    obtain ⟨hstored, hcounts, hsignalled⟩ := commitOwn_spec (bytes := bytes) hs' hwaits hw hn hin hc hcalm
    exact ⟨_, landingCommit_own hnow hm hfar, hstored, hcounts, hsignalled⟩
  · exact ⟨_, landingCommit_far hnow hsrc, commitFar_spec hs' hwaits hg hn hin hlen hcalm⟩

end Sys2Proof.Machine
end

section
/-!
The address map of HBM and its inverse (O49), on `stackOf_eq` and `phys_inj`.
-/
namespace Sys2Proof.Machine
open Sys2Proof

/-- An address of HBM lies in one of the 12 stacks, within the shares of the 24 regions. -/
theorem stackOf_inside (s : State) {a : Nat} (ha : a < hbmSize) : (stackOf s a).1 < 12 ∧ (stackOf s a).2 < stackSize := by
  obtain ⟨k, w, hk, hw, he, -⟩ := stackOf_eq s a
  have hregion : a / regionSize < 24 := by unfold regionSize; unfold hbmSize at ha; omega
  rw [he]
  refine ⟨hk, ?_⟩
  unfold stackSize
  omega

/-- The physical number of a byte is its place counted on over the stacks before its own. -/
theorem phys_div_mod (s : State) {a : Nat} (ha : a < hbmSize) :
    phys s a / stackSize = (stackOf s a).1 ∧ phys s a % stackSize = (stackOf s a).2 := by
  obtain ⟨-, hinside⟩ := stackOf_inside s ha
  unfold phys
  refine ⟨?_, Nat.mul_add_mod_of_lt hinside⟩
  rw [Nat.mul_comm, Nat.mul_add_div (by decide), Nat.div_eq_of_lt hinside, Nat.add_zero]

/-- Both spreadings keep a 64-byte unit whole: the physical number of its first byte is that of the unit times 64. -/
theorem unitOf_mul (s : State) {a : Nat} (h : a % 64 = 0) : unitOf s a * 64 = phys s a := by
  obtain ⟨k, w, -, -, he, hspread⟩ := stackOf_eq s a
  have hlow : w % 64 = 0 := by
    unfold regionSize at hspread
    rcases hspread with ⟨-, -, rfl⟩ | ⟨-, -, rfl⟩ <;> omega
  refine Nat.div_mul_cancel (Nat.dvd_of_mod_eq_zero ?_)
  unfold phys stackSize
  rw [he]
  dsimp only
  omega

/-- The local address of a unit is found back (R176). -/
theorem localOf_unitOf (s : State) {a : Nat} (ha : a < hbmSize) (h : a % 64 = 0) : localOf s (unitOf s a) = a := by
  obtain ⟨hstack, hshare⟩ := phys_div_mod s ha
  obtain ⟨k, w, hk, hw, he, hspread⟩ := stackOf_eq s a
  rw [he] at hstack hshare
  have hregion : (a / regionSize * 4294967296 + w) / 4294967296 = a / regionSize := by omega
  have hoffset : (a / regionSize * 4294967296 + w) % 4294967296 = w := by omega
  unfold localOf
  dsimp only
  rw [unitOf_mul s h, hstack, hshare, hregion, hoffset]
  unfold regionSize at hspread ⊢
  rcases hspread with ⟨hmode, hk', rfl⟩ | ⟨hmode, hk', rfl⟩
  · rw [if_pos hmode]
    omega
  · rw [if_neg hmode]
    omega

/-- Settles O49: each mode's spreading by the definition of `stackOf`, and the map's inverse by `phys_inj` and `localOf_unitOf`. -/
theorem hbmAddressMap : Obligations.HbmAddressMap := by
  unfold Obligations.HbmAddressMap
  intro s a ha
  obtain ⟨hstack, hshare⟩ := stackOf_inside s ha
  refine ⟨fun hmode => ?_, fun hmode => ?_, rfl, hstack, hshare, fun b hb => phys_inj s ha hb, localOf_unitOf s ha⟩
  · have he : stackOf s a = _ := if_neg hmode
    rw [he]
    exact ⟨rfl, Nat.add_assoc ..⟩
  · have he : stackOf s a = _ := if_pos hmode
    rw [he]
    exact ⟨rfl, Nat.add_assoc ..⟩

end Sys2Proof.Machine
end

section
/-!
Mover descriptors (O15). A descriptor that retires lets its pages go (R293), and the access to a page far beyond HBM counts, as in `not_systemAbort`, under
the key of another entry: here the count of the descriptors that have completed.
-/
namespace Sys2Proof.Machine
open Sys2Proof

/-- The entry of a page far beyond HBM, in a line whose die, as the cache counters number it, has core 0's count of completed descriptors, `0x4031:01`, for
its count of lookups. No gather holds such a page, but the statement is about every state. -/
def strayEntry : Nat := 313344 * regionSize

/-- A module whose core 0 has a started descriptor, complete at the source, that holds that page. -/
def strayHeld : State := { State.reset with cores := [(0, { CoreS.reset with moves := [holding strayEntry] })] }

/-- Core 0's count of completed descriptors after a command. -/
def completedAfter (o : Out) : Option Nat :=
  match o with
  | .next u => some (u.ent 0x4031 1)
  | _ => none

/-- The descriptor is counted, and with it the lookup of the entry that lets its page go. -/
theorem strayHeld_counts_two : completedAfter (exec (.moveRetire 0 0) strayHeld) = some 2 := by decide +kernel

/-- Refutes O15, in its clause that a descriptor that retires is counted once: `strayHeld_counts_two`. -/
theorem not_moverDescriptors : ¬ Obligations.MoverDescriptors := by
  unfold Obligations.MoverDescriptors
  intro h
  obtain ⟨-, -, -, -, -, -, hretire⟩ := h strayHeld 0 0 none 0
  obtain ⟨u, hu, hcount, -⟩ := hretire 0 (holding strayEntry) rfl rfl rfl rfl rfl
  have hzero : strayHeld.ent 0x4031 1 = 0 := by decide +kernel
  have htwo : some (u.ent 0x4031 1) = some 2 := by rw [← strayHeld_counts_two, hu]; rfl
  have honce : u.ent 0x4031 1 = (strayHeld.ent 0x4031 1 + 1) % 2 ^ 64 := hcount
  rw [honce, hzero] at htwo
  exact absurd htwo (by decide)

end Sys2Proof.Machine
end

section
/-!
SUPPORT. CAST: what its control word allows, what it reads and writes lies in its stores, and its rows are its elements (R119, R138, R214, R221, R225 to R228).
-/
namespace Sys2Proof.Machine
open Sys2Proof

/-! ### The control word -/

section
variable {w : W64} {inp rm len : Nat}

/-- Between floating formats there are no scales (Table 7-6). -/
theorem ccOk_float (h : ccOk w inp rm len = true) (hinp : isFloat inp = true) (hdest : isFloat (ccDest w) = true) : ccScaling w = 0 := by
  simp only [ccOk, hinp, hdest, if_true, Bool.and_eq_true, decide_eq_true_eq] at h
  obtain ⟨-, hzero, -⟩ := h
  exact hzero

/-- An MX destination has its own scales, and no other (Table 7-6). -/
theorem ccOk_mx (h : ccOk w inp rm len = true) (hdest : ccDest w = 8 ∨ ccDest w = 9) : ccScaling w = 0 := by
  have hfloat : isFloat (ccDest w) = false := decide_eq_false (by omega)
  have hfp8 : ¬ (ccDest w = 4 ∨ ccDest w = 5) := by omega
  have hint : ccDest w ≠ 6 := by omega
  unfold ccOk at h
  dsimp only at h
  rw [hfloat, if_neg Bool.false_ne_true, if_neg hfp8, if_neg hint] at h
  cases hinp : isFloat inp with
  | false => simp [hinp] at h
  | true =>
    simp only [hinp, Bool.not_true, Bool.false_eq_true, if_false, Bool.and_eq_true, decide_eq_true_eq] at h
    obtain ⟨-, ⟨hzero, -⟩, -⟩ := h
    exact hzero

/-- Only a CURRENT scaling takes a pass for its maxima alone (Table 7-4). -/
theorem ccOk_amax (h : ccOk w inp rm len = true) (hzero : ccScaling w = 0) : ccAmax w = false := by
  simp only [ccOk, hzero, Bool.and_eq_true, Bool.or_eq_true, decide_eq_true_eq] at h
  obtain ⟨⟨⟨⟨-, hamax⟩, -⟩, -⟩, -⟩ := h
  simpa using hamax

end

/-! ### Ranges -/

/-- The input rows of a CAST in core-local memory, or in the accumulator file. -/
def castSource (j : RowJob) : List (Nat × Nat × Nat) × List (Nat × Nat) :=
  if j.empty ∨ j.f.fromPass then ([], [])
  else if j.f.srcAcc || j.f.accTiled then ([], [(j.src, j.rows * j.tiles)])
  else (clmRows j.src j.rows (codeBytes (j.f.param.toNat % 16) j.len), [])

/-- The range of core-local memory that the output rows of a CAST span. -/
def castOut (j : RowJob) : List (Nat × Nat) := if j.empty ∨ ccAmax j.pv then [] else [(j.dst, castSpan j)]

/-- The first block of a CAST, and the one behind its last. -/
def castFirst (a : CastArgs) : Nat := a.r0 / 128 * a.g + a.k0 / 128
def castLast (a : CastArgs) (j : RowJob) : Nat := (a.r0 + j.rows - 1) / 128 * a.g + a.k0 / 128 + ceilDiv j.len 128

/-- The scales of a CAST. -/
def castGrid (a : CastArgs) (j : RowJob) : List (Nat × Nat) :=
  if j.empty ∨ ccScaling j.pv = 0 ∨ ccAmax j.pv then [] else [(a.grid + 4 * castFirst a, 4 * (castLast a j - castFirst a))]

/-- The block records of a CAST. -/
def castRecords (a : CastArgs) (j : RowJob) : List (Nat × Nat) :=
  if j.empty ∨ ccScaling j.pv < 2 then [] else [(a.records + 16 * castFirst a, 16 * (castLast a j - castFirst a))]

/-- The noise record of a CAST. -/
def castNoise (j : RowJob) : List (Nat × Nat) := if j.f.param.toNat / 16 = 4 ∧ !j.empty then [(noiseAt (ccSlot j.pv), 32)] else []

/-- What a CAST reads is its source, its noise record, its scales and its block records. -/
theorem castReads_eq (x : CoreS) (j : RowJob) :
    castReads x j = ((castSource j).1.map clmSpan ++ castNoise j ++ castGrid (castArgs x j.f.p.val) j ++ castRecords (castArgs x j.f.p.val) j,
      (castSource j).2) := by
  have hrows : (if decide (j.len = 0 ∨ j.rows = 0) = true ∨ j.f.fromPass = true ∨ j.f.srcAcc = true ∨ j.f.accTiled = true then []
      else (clmRows j.src j.rows (codeBytes (j.f.param.toNat % 16) j.len)).map clmSpan) = (castSource j).1.map clmSpan := by
    unfold castSource RowJob.empty
    split_ifs <;> simp_all
  have hacc : (if (!decide (j.len = 0 ∨ j.rows = 0)) = true ∧ (!j.f.fromPass) = true ∧ (j.f.srcAcc = true ∨ j.f.accTiled = true)
      then [(j.src, j.rows * j.tiles)] else []) = (castSource j).2 := by
    unfold castSource RowJob.empty
    split_ifs <;> simp_all
  unfold castReads
  dsimp only
  rw [hrows, hacc]
  rfl

section
variable {s : State} {c : Nat} {j : RowJob} (h : CastReady s c j)
include h

/-- Tiles in the accumulator file keep the limits of R139. -/
theorem CastReady.tiled : ¬ (j.f.accTiled = true ∧ (!j.f.fromPass) = true ∧
    ¬ (1 ≤ j.len ∧ j.len ≤ 512 ∧ 1 ≤ j.rows ∧ j.rows ≤ 128 ∧ j.src + j.tiles * j.rows ≤ 512)) :=
  fun ⟨htiled, hfrom, hbad⟩ => hbad (h.tiles htiled (Bool.not_eq_true' _ ▸ hfrom))

/-- The control word and its operands are valid (R227). -/
theorem CastReady.valid : ¬ (12 < j.f.p.val ∨ (!ccOk j.pv (j.f.param.toNat % 16) (j.f.param.toNat / 16) j.len) = true ∨
    ccScaling j.pv ≠ 0 ∧ (!castArgsOk (s.core c) j.f.p.val) = true ∨ (!fromPassOk (s.core c) j) = true) := by
  simpa [h.base, h.word, h.oldest] using h.args

/-- A CAST with noise has a record to draw it from, of indexes enough (R257). -/
theorem CastReady.drawn : ¬ (j.f.param.toNat / 16 = 4 ∧ (!j.empty) = true ∧
    (field ((s.core c).clmBytes (noiseAt (ccSlot j.pv)) 32) 24 2 = 0 ∨
      2 ^ 48 ≤ noiseIndex ((s.core c).clmBytes (noiseAt (ccSlot j.pv)) 32) (j.rows - 1) (j.len - 1))) := by
  rintro ⟨hmode, -, hbad⟩
  obtain ⟨hrecord, hindex⟩ := h.noise.resolve_left (not_not.2 hmode)
  exact hbad.elim hrecord (Nat.not_le.2 hindex)

theorem CastReady.out_inside : ∀ r ∈ castOut j, r.1 + r.2 ≤ clmSize := by
  unfold castOut
  split
  · simp
  · next hout =>
    obtain ⟨hempty, hamax⟩ := not_or.1 hout
    have hsizes : ¬ (j.len = 0 ∨ j.rows = 0) := by simpa [RowJob.empty] using hempty
    obtain ⟨hlen, hrows⟩ := not_or.1 hsizes
    have hend := (((h.inside.2.2.resolve_left hlen).resolve_left hrows).resolve_left hamax).1
    simp only [List.mem_singleton, forall_eq, clmSize]
    split at hend <;> omega

/-- All that a CAST reads and writes lies in its stores (R121). -/
theorem CastReady.rangesIn : rangesIn ((castSource j).1.map clmSpan ++ castOut j ++ castGrid (castArgs (s.core c) j.f.p.val) j ++
    castRecords (castArgs (s.core c) j.f.p.val) j) (castSource j).2 = true := by
  obtain ⟨hclm, hacc, -⟩ := h.inside
  rw [castReads_eq] at hclm hacc
  simp only [List.forall_mem_append] at hclm
  obtain ⟨⟨⟨hrows, -⟩, hgrid⟩, hrecords⟩ := hclm
  simp only [Machine.rangesIn, Bool.and_eq_true, List.all_eq_true, decide_eq_true_eq, List.forall_mem_append]
  exact ⟨⟨⟨⟨hrows, h.out_inside⟩, hgrid⟩, hrecords⟩, hacc⟩

/-- MX rows begin at whole units and end before the shadow of their scales (R225). -/
theorem CastReady.mxRows : (!decide (ccDest j.pv = 8 ∨ ccDest j.pv = 9) || j.empty ||
    decide (j.dst % 256 = 0) && decide (j.dst + castSpan j ≤ 0x3C0000)) = true := by
  by_cases hmx : ccDest j.pv = 8 ∨ ccDest j.pv = 9
  · have hspan := h.inside.2.2
    rw [ccOk_amax h.word (ccOk_mx h.word hmx), if_pos hmx] at hspan
    simp only [hmx, RowJob.empty, decide_true, Bool.not_true, Bool.false_or, Bool.or_eq_true, Bool.and_eq_true, decide_eq_true_eq]
    rcases hspan with hlen | hrows | hamax | ⟨hend, hstart⟩
    · exact .inl (.inl hlen)
    · exact .inl (.inr hrows)
    · exact absurd hamax Bool.false_ne_true
    · exact .inr ⟨hstart hmx, hend⟩
  · simp [hmx]

/-- The blocks of a CAST open (R214, R221); without scales there are none. -/
theorem CastReady.opens : ∃ l, openBlocks (s.core c) j.pv (castArgs (s.core c) j.f.p.val)
      (if ccScaling j.pv = 0 then [] else castBlocks (castArgs (s.core c) j.f.p.val) j.rows j.len) = .ok l ∧ (ccScaling j.pv = 0 → l = []) := by
  by_cases hzero : ccScaling j.pv = 0
  · rw [if_pos hzero]
    exact ⟨[], rfl, fun _ => rfl⟩
  · rw [if_neg hzero]
    obtain ⟨l, hl⟩ := h.scales.resolve_left hzero
    exact ⟨l, hl, fun hz => absurd hz hzero⟩

end

/-! ### The elements -/

/-- The elements that a CAST reads, row by row. -/
def castRows (x : CoreS) (j : RowJob) : List (List FNum) :=
  if j.empty then []
  else if j.f.fromPass || j.f.srcAcc || j.f.accTiled then (inputRows x j).map fun r => r.map ofF32
  else (List.range j.rows).map fun r =>
    let b := x.clmBytes (j.src + r * roundUp (codeBytes (j.f.param.toNat % 16) j.len) 256) (codeBytes (j.f.param.toNat % 16) j.len)
    (List.range j.len).map fun k => castElem (j.f.param.toNat % 16) (ccZero j.pv) b k

/-- Element k of row r. -/
def castAt (x : CoreS) (j : RowJob) (r k : Nat) : FNum :=
  if j.f.fromPass || j.f.srcAcc || j.f.accTiled then ofF32 (((inputRows x j).getD r []).getD k 0)
  else castElem (j.f.param.toNat % 16) (ccZero j.pv)
    (x.clmBytes (j.src + r * roundUp (codeBytes (j.f.param.toNat % 16) j.len) 256) (codeBytes (j.f.param.toNat % 16) j.len)) k

/-- A list is its elements in order. -/
theorem eq_map_range_getD {α : Type} (l : List α) (z : α) : l = (List.range l.length).map fun k => l.getD k z :=
  List.ext_getElem (by simp) fun k hk _ => by simp [hk]

theorem zipIdx_map_range {α : Type} (f : Nat → α) (n : Nat) : ((List.range n).map f).zipIdx = (List.range n).map fun k => (f k, k) :=
  List.ext_getElem (by simp) fun k _ _ => by simp

theorem length_accWords (x : CoreS) (j : RowJob) (base r : Nat) : (accWords x j base r).length = j.len := by
  have htiles := (ceilDiv_bounds j.len (n := 128) (by decide)).1
  simp [accWords, sread, List.length_flatMap, RowJob.tiles, htiles]

theorem length_words (x : CoreS) (a n : Nat) : (x.words a n).length = n := by simp [CoreS.words]

/-- Every input row has L elements, where those of the oldest pass suffice. -/
theorem length_inputRows {x : CoreS} {j : RowJob}
    (hpass : j.f.fromPass = true → ∃ p, x.fromPass.head? = some p ∧ p.2.2.length = j.rows * j.len) :
    ∀ r ∈ inputRows x j, r.length = j.len := by
  unfold inputRows
  simp only [List.mem_map, List.mem_range, forall_exists_index, and_imp, forall_apply_eq_imp_iff₂]
  intro r hr
  split
  · next hfrom =>
    obtain ⟨p, hp, hlength⟩ := hpass hfrom
    obtain ⟨l, hl⟩ := List.head?_eq_some_iff.1 hp
    have hroom : (r + 1) * j.len ≤ j.rows * j.len := Nat.mul_le_mul_right _ hr
    rw [Nat.succ_mul] at hroom
    rw [hl]
    simp only [List.length_take, List.length_drop, hlength]
    omega
  · split
    · exact length_accWords ..
    · exact length_words ..

theorem castRows_eq {x : CoreS} {j : RowJob} (hlen : j.len ≠ 0) (hrows : j.rows ≠ 0)
    (hpass : j.f.fromPass = true → ∃ p, x.fromPass.head? = some p ∧ p.2.2.length = j.rows * j.len) :
    castRows x j = (List.range j.rows).map fun r => (List.range j.len).map (castAt x j r) := by
  have hempty : j.empty = false := decide_eq_false (by omega)
  unfold castRows castAt
  rw [hempty, if_neg Bool.false_ne_true]
  split
  · have hcount : (inputRows x j).length = j.rows := by simp [inputRows]
    conv_lhs => rw [eq_map_range_getD (inputRows x j) [], hcount, List.map_map]
    refine List.map_congr_left fun r hr => ?_
    have hr' : r < (inputRows x j).length := hcount ▸ List.mem_range.1 hr
    have hrow : ((inputRows x j).getD r []).length = j.len := by
      rw [List.getD_eq_getElem _ _ hr']
      exact length_inputRows hpass _ (List.getElem_mem hr')
    rw [Function.comp_apply]
    conv_lhs => rw [eq_map_range_getD ((inputRows x j).getD r []) 0, hrow, List.map_map]
    rfl
  · rfl

theorem castRows_empty {x : CoreS} {j : RowJob} (h : j.len = 0 ∨ j.rows = 0) : castRows x j = [] := if_pos (decide_eq_true h)

theorem not_mx_of_isFloat {d : Nat} (h : isFloat d = true) : ¬ (d = 8 ∨ d = 9) := by
  have hd : 1 ≤ d ∧ d ≤ 3 := of_decide_eq_true h
  omega

theorem map_zipIdx_fst {α β : Type} (g : α → β) (l : List α) : (l.zipIdx.map fun v => g v.1) = l.map g :=
  List.ext_getElem (by simp) fun k _ _ => by simp

/-- An element between floating formats is narrowed once: no scale and no noise word enters (R226). -/
theorem castOne_float {w : W64} {inp rm : Nat} (hinp : isFloat inp = true) (hdest : isFloat (ccDest w) = true) (hmode : rm ≤ 3) :
    castOne w inp rm = fun _ _ x => narrow (codeFmt (ccDest w) 0) (rmodeOf rm 0) x := by
  funext e n x
  have hint : ccDest w ≠ 6 := fun h => absurd (h ▸ hdest) (by decide)
  have hround : rmodeOf rm n = rmodeOf rm 0 := by
    interval_cases rm <;> rfl
  simp only [castOne, hint, hinp, hdest, hround, if_true, if_false]

end Sys2Proof.Machine
end

section
/-!
CAST (O11): the pass that it queues once nothing halts or holds it carries the codes of its elements, each narrowed once (R226 to R230).
-/
namespace Sys2Proof.Machine
open Sys2Proof

theorem noteOverflow_core (s : State) (c slot b k : Nat) : (noteOverflow s c slot b).core k = s.core k := by
  unfold noteOverflow
  dsimp only
  split <;> rfl

/-- The codes and classes of the rows between floating formats. -/
def floatCodes (x : CoreS) (j : RowJob) : List (List (Nat × NClass)) :=
  (castRows x j).map fun r => r.map (narrow (codeFmt (ccDest j.pv) 0) (rmodeOf (j.f.param.toNat / 16) 0))

/-- A CAST that nothing halts or holds queues its pass; between floating formats the pass carries the codes of its rows. -/
theorem cast_queues {s : State} {c : Core} {f : RFuncF} (hok : castFieldsOk f = true) (hi : Issuing s c.val (rfuncWord 0x13 f))
    (hs : Skipping s c.val = false) :
    let x := s.core c.val
    let j := rowJob x 0x13 f
    let inp := f.param.toNat % 16
    let d := ccDest j.pv
    CastReady s c.val j →
    ∃ t q, exec (.cast c f) s = .next t ∧ (t.core c.val).passes = x.passes ++ [q] ∧ q.id = x.nextId ∧ q.unit = 2 ∧ q.post = f.post ∧
      (t.core c.val).pc = x.pc + 1 ∧ (t.core c.val).clm = x.clm ∧ (t.core c.val).acc = x.acc ∧ (t.core c.val).regs = x.regs ∧
      (isFloat inp = true → isFloat d = true → f.param.toNat / 16 ≤ 3 →
        q.clm = ((floatCodes x j).zipIdx.flatMap fun r => castPlace j r.2 (packCodes d (r.1.map Prod.fst))) ∧
        q.counts = if narrows inp d ∧ ccSlot j.pv ≠ 0 then [tally (ccSlot j.pv) d ((floatCodes x j).flatten.map Prod.snd)] else []) := by
  intro x j inp d hr
  obtain ⟨blocks, hopen, hblocks⟩ := hr.opens
  change ∃ t q, execCast c f s = .next t ∧ _
  rw [execCast, hok, issue_of_issuing hi]
  extract_lets j' rm w d' sc p a amaxOnly inB outB isMx span wc b0 bn grid recs shadow noiseR mxOk blockOf per
  rw [inSkip_core, hs, Bool.not_true, if_neg Bool.false_ne_true, if_neg Bool.false_ne_true, unitFull_idle hr.idle, if_neg Bool.false_ne_true,
    if_neg (by exact hr.tiled), if_neg (by exact hr.valid)]
  split
  next sourceRows sourceAcc hsource =>
  extract_lets rc
  have hin := hr.rangesIn
  rw [show castSource j = (sourceRows, sourceAcc) from hsource] at hin
  have hranges : rangesIn (rc ++ wc ++ grid ++ recs) sourceAcc = true := hin
  have hrows : mxOk = true := hr.mxRows
  rw [hranges, hrows, if_neg (by decide), held_idle hr.idle, if_neg Bool.false_ne_true, checkSram_sound hr.sound, afterCheck_of_sound rfl]
  extract_lets x' nb seed rows mx shadows
  have hopen' : openBlocks x' w a (if sc = 0 then [] else castBlocks a j'.rows j'.len) = .ok blocks := hopen
  rw [if_neg (by exact hr.drawn), hopen']
  dsimp -zeta only
  extract_lets expOf codes enc out grids elemsOf closed recW u y counts q z
  have hcore : y = x := foldl_keeps _ (fun t => t.core c.val) (fun t k => by split <;> simp [noteOverflow_core]) closed s
  refine ⟨_, q, rfl, ?_⟩
  rw [State.core_setCore, if_pos rfl]
  simp only [CoreS.advance_passes, CoreS.advance_pc, CoreS.advance_clm, CoreS.advance_acc, CoreS.advance_regs, CoreS.addPost_passes, CoreS.addPost_pc,
    CoreS.addPost_clm, CoreS.addPost_acc, CoreS.addPost_regs]
  refine ⟨congrArg (fun y => y.passes ++ [q]) hcore, congrArg CoreS.nextId hcore, rfl, rfl, congrArg (fun y => y.pc + 1) hcore,
    congrArg (a₁ := y) CoreS.clm hcore, congrArg (a₁ := y) CoreS.acc hcore, congrArg (a₁ := y) CoreS.regs hcore, fun hinp hdest hmode => ?_⟩
  have hzero : sc = 0 := ccOk_float hr.word hinp hdest
  have hamax : amaxOnly = false := ccOk_amax hr.word hzero
  have hmx : isMx = false := decide_eq_false (not_mx_of_isFloat hdest)
  have hone : castOne w inp rm = fun _ _ v => narrow (codeFmt d 0) (rmodeOf rm 0) v := castOne_float hinp hdest hmode
  have hcodes : enc = floatCodes x j := by
    unfold enc codes floatCodes
    rw [hmx, hamax, if_neg Bool.false_ne_true, if_neg (by decide)]
    simp only [hone, map_zipIdx_fst]
    rfl
  -- Without scales there are no blocks, and without MX no shadow: the rows are all that the pass writes.
  have hclm : q.clm = out := by simp [q, shadows, mx, grids, recW, closed, hmx, hamax, hzero, hblocks hzero]
  have hcounts : q.counts = if narrows inp d ∧ ccSlot j.pv ≠ 0 then [tally (ccSlot j.pv) d (enc.flatten.map Prod.snd)] else [] := rfl
  rw [hclm, hcounts, ← hcodes]
  exact ⟨rfl, rfl⟩

/-- Between floating formats the codes of a CAST that has elements are those of its elements. -/
theorem floatCodes_eq {x : CoreS} {j : RowJob} (hlen : j.len ≠ 0) (hrows : j.rows ≠ 0)
    (hpass : j.f.fromPass = true → ∃ p, x.fromPass.head? = some p ∧ p.2.2.length = j.rows * j.len) :
    floatCodes x j = (List.range j.rows).map fun r => (List.range j.len).map fun k =>
      narrow (codeFmt (ccDest j.pv) 0) (rmodeOf (j.f.param.toNat / 16) 0) (castAt x j r k) := by
  simp only [floatCodes, castRows_eq hlen hrows hpass, List.map_map, Function.comp_def]

/-- In skip mode a CAST only goes on (Table 4-5). -/
theorem cast_skips {s : State} {c : Core} {f : RFuncF} (hok : castFieldsOk f = true) (hi : Issuing s c.val (rfuncWord 0x13 f))
    (hs : Skipping s c.val = true) :
    ∃ t, exec (.cast c f) s = .next t ∧ (t.core c.val).pc = (s.core c.val).pc + 1 ∧ (t.core c.val).passes = (s.core c.val).passes := by
  change ∃ t, execCast c f s = .next t ∧ _
  rw [execCast, hok, issue_of_issuing hi]
  dsimp only
  rw [inSkip_core, hs, Bool.not_true, if_neg Bool.false_ne_true, if_pos rfl]
  exact skipGo_goes ..

/-- Settles O11: `cast_skips` in skip mode, else `cast_queues`, its codes being those of the elements by `floatCodes_eq`. -/
theorem castQueues : Obligations.CastQueues := by
  unfold Obligations.CastQueues
  intro s c f x j inp mode d elem code hok hi
  refine ⟨cast_skips hok hi, fun hs hr => ?_⟩
  obtain ⟨t, q, he, hpasses, hid, hunit, hpost, hpc, hmem, hacc, hregs, hvalues⟩ := cast_queues hok hi hs hr
  refine ⟨t, q, he, hpasses, hid, hunit, hpost, hpc, hmem, hacc, hregs, fun hinp hdest hmode => ?_⟩
  obtain ⟨hclm, hcounts⟩ := hvalues hinp hdest hmode
  refine ⟨fun hempty => ?_, fun hlen hrows hpass => ?_⟩
  · rw [hclm, floatCodes, castRows_empty hempty]
    rfl
  · have hcodes : floatCodes x j = (List.range j.rows).map fun r => (List.range j.len).map (code r) := floatCodes_eq hlen hrows hpass
    rw [hclm, hcounts, hcodes, zipIdx_map_range, List.flatMap_map, List.flatten_eq_flatMap, List.flatMap_map, List.map_flatMap]
    simp only [List.map_map, Function.comp_def, id_eq]
    exact ⟨rfl, rfl⟩

end Sys2Proof.Machine
end

section
/-!
The digest walk (O18). The walk reads each shard's header, and the lookup of a header far beyond HBM counts, as in `not_systemAbort`, under the key of
the step counter.
-/
namespace Sys2Proof.Machine
open Sys2Proof

/-- An entry of the shard table (Table 8-4): REPLICATED, both copies at 0, the header at an address. -/
def replicatedShard (header : Nat) : List Byte := le 8 0 ++ le 8 0 ++ le 8 header ++ le 2 2

/-- A step whose commit capo is at 20,100 and whose digest walk is due 16,384 ns before, over two replicated shards: the stored unit of the first one's
header, at 0, is poisoned, and the second one's header lies where `farEntry` does. No arming check passes such an address (`shardEntryOk`), but the
statement is about every state. -/
def farWalk : State :=
  ({ State.reset with
    ctl := { State.reset.ctl with dev := .run, powered := true, filled := true }
    run := { State.reset.run with start := 100, capos := [(20000, 2, 1, 5)], shards := [replicatedShard 0, replicatedShard farEntry] }
    mem := { State.reset.mem with hbmRaw := [(0, some (poisonCode (List.replicate 64 0)))] } }).setEnt 0x5400 4 16384

/-- The walk is due, over shards without a block, and meets the poisoned unit (Table 18-3). -/
theorem farWalk_meets_poison : comingCommit farWalk = some 20100 ∧ farWalk.ent 0x5400 4 ≠ 0 ∧ replicated farWalk ≠ [] ∧
    (∀ x ∈ replicated farWalk, blockCount (shardHead farWalk x.2) ≤ 65536) ∧
    (walkReads (reach farWalk (20100 - farWalk.ent 0x5400 4))).2 = true := by decide +kernel

/-- The read of the far header counts as a lookup (R181): the step counter is no longer 0. -/
theorem farWalk_step : stepAfter (exec .digestWalk farWalk) = some 1 := by decide +kernel

/-- Refutes O18, in its clause that a walk which meets an uncorrectable unit leaves the step counter as it was: `farWalk_step`. -/
theorem not_walkAndVerdict : ¬ Obligations.WalkAndVerdict := by
  unfold Obligations.WalkAndVerdict
  intro h
  obtain ⟨hcommit, hlead, hshards, hblocks, hpoison⟩ := farWalk_meets_poison
  obtain ⟨hwalk, -⟩ := h farWalk 20100 hcommit
  obtain ⟨-, hbad, -⟩ := hwalk rfl hlead hshards hblocks
  obtain ⟨u, hu, hstep, -⟩ := hbad hpoison
  have hone : some (u.ent 0x5010 1) = some 1 := by rw [← farWalk_step, hu]; rfl
  rw [hstep] at hone
  exact absurd hone (by decide +kernel)

end Sys2Proof.Machine
end

section
/-!
Walks over shards (O38). EXPORT writes version and digest into the shard's header once it has shown the digest in `0x5410:04`: the lookups of these
writes, to a header far beyond HBM, count under the key of that entry, as those of `not_systemAbort` do under the step counter's.
-/
namespace Sys2Proof.Machine
open Sys2Proof

/-- A header far beyond HBM, in a line whose die, as the cache counters number it, has the reported digest `0x5410:04` for its count of lookups. -/
def farHeader : Nat := 94077144 * regionSize

/-- READY, with an EXPORT in progress of a shard whose header lies there; it has no element, and its digest is 0. No arming check passes such an address
(`shardEntryOk`), but the statement is about every state. -/
def farExport : State :=
  { State.reset with
    ctl := { State.reset.ctl with dev := .ready, powered := true, filled := true }
    run := { State.reset.run with shards := [replicatedShard farHeader], walk := some (1, 0) } }

/-- The digest that a shard walk reports. -/
def digestAfter (o : Out) : Option Nat :=
  match o with
  | .next u => some (u.ent 0x5410 4)
  | _ => none

/-- The shard's digest, which the end of its walk is to report. -/
def walkDigest (s : State) (i : Nat) : Nat :=
  digestRange s (shardHead s (shardAt s i)) (liveCopy s (shardAt s i)) 0 (hdCount (shardHead s (shardAt s i)))

theorem farExport_digest : walkDigest farExport 0 = 0 := by decide +kernel

/-- The two writes into the header count as lookups (R181), on the reported digest. -/
theorem farExport_reports : digestAfter (exec (.shardWalkDone 5) farExport) = some 2 := by decide +kernel

/-- Refutes O38, in its clause that a walk done reports the shard's digest: `farExport_reports` beside `farExport_digest`. -/
theorem not_shardWalks : ¬ Obligations.ShardWalks := by
  unfold Obligations.ShardWalks
  intro h
  obtain ⟨-, hdone⟩ := h farExport 0 0 0 5
  obtain ⟨u, hu, -, hdigest, -⟩ := hdone 1 0 (by decide) rfl
  have htwo : some (u.ent 0x5410 4) = some 2 := by rw [← farExport_reports, hu]; rfl
  have hzero : u.ent 0x5410 4 = 0 := hdigest.trans farExport_digest
  rw [hzero] at htwo
  exact absurd htwo (by decide)

end Sys2Proof.Machine
end

section
/-!
The attention phases (O9; R276 to R281): with a valid block the function of its phase is the one that runs, and the row unit queues its pass.
-/
namespace Sys2Proof.Machine
open Sys2Proof

/-- With a block valid for the instruction (R276) the function of the block's phase runs: it carries no reserved encoding and a phase of the op, the
instruction has the ACCTILED flag of that phase, and its rows lie in the table. -/
theorem inPhase_valid {s : State} {c : Nat} {j : RowJob} {phase : Nat} {mine : List Nat} (hheld : held (s.core c) 2 (clmUnits attnAt 64) [] = false)
    (hread : readOnce s 2 c attnAt 64 = (s, false)) (hvalid : attnOk (s.core c).attn = true) (hphase : atPhase (s.core c).attn = phase)
    (hmine : phase ∈ mine) (htiled : j.f.accTiled = decide (phase ≠ 3)) (hrows : atBase (s.core c).attn + j.rows ≤ 128)
    (g : State → List Byte → Out) : inPhase s c (s.core c) j phase mine g = g s (s.core c).attn := by
  have hsound : (readOnce s 2 c attnAt 64).2 = false := by rw [hread]
  have hnotOff : phase ≠ 0 := by
    simp only [attnOk, Bool.and_eq_true, decide_eq_true_eq] at hvalid
    omega
  have hfits : ¬ 128 < atBase (s.core c).attn + j.rows := Nat.not_lt.2 hrows
  unfold inPhase
  rw [hheld, if_neg Bool.false_ne_true, afterCheck_of_sound hsound, hread]
  simp [hvalid, hphase, hnotOff, hmine, htiled, hfits]

section
variable {s : State} {c : Core} {op : Nat} {f : RFuncF}

/-- What the statement asks of an instruction of a phase takes it past its issue and past the block. -/
theorem rfunc_inPhase {phase : Nat} {mine : List Nat} (hmine : phase ∈ mine) (g : CoreS → RowJob → State → List Byte → Out)
    (h : rfOk op f = true ∧ Issuing s c.val (rfuncWord op f) ∧ Skipping s c.val = false ∧ held (s.core c.val) 2 (clmUnits attnAt 64) [] = false ∧
      readOnce s 2 c.val attnAt 64 = (s, false) ∧ attnOk (s.core c.val).attn = true ∧ atPhase (s.core c.val).attn = phase ∧
      f.accTiled = decide (phase ≠ 3) ∧ atBase (s.core c.val).attn + ((s.core c.val).reg f.rows).toNat ≤ 128) :
    rfunc s c op f (fun s x j => inPhase s c.val x j phase mine (g x j)) = g (s.core c.val) (rowJob (s.core c.val) op f) s (s.core c.val).attn := by
  obtain ⟨hok, hissuing, hskipping, hheld, hread, hvalid, hphase, htiled, hrows⟩ := h
  rw [rfunc_runs hok hissuing hskipping, inPhase_valid hheld hread hvalid hphase hmine htiled hrows]

end

section
variable (j : RowJob) (b : List Byte)

/-- The range of the table that the instruction's rows have, as the statement writes it. -/
theorem entryRange_eq : entryRange j b = if j.len = 0 ∨ j.rows = 0 then [] else [(attnTable + 32 * atBase b, 32 * j.rows)] := by
  simp [entryRange, RowJob.empty]

/-- The second rows that a function of two rows reads, as the statement writes them. -/
theorem zipFn_clm (h : W32 → W32 → RV) :
    (zipFn j h).clm = if j.len = 0 ∨ j.rows = 0 then [] else clmRows j.pv.toNat j.rows (4 * j.len) := by
  simp [zipFn, RowJob.empty]

end

/-- Settles O9: past its checks each phase hands the row unit its reads, its results and its table entries. -/
theorem attentionPhases : Obligations.AttentionPhases := by
  unfold Obligations.AttentionPhases
  intro s c f
  dsimp only
  simp only [← entryRange_eq, ← zipFn_clm _ fun a _ => rv32 a]
  refine ⟨fun hruns hready => ?stats, fun hruns hready => ?output, fun hruns hdim hready => ?delta, fun hruns hplaced hready => ?grad⟩
  case stats =>
    change ∃ t, execStats c f s = .next t ∧ _
    rw [execStats, rfunc_inPhase (by decide) _ hruns]
    exact rowUnit_gives hready rfl rfl
  case output =>
    change ∃ t, execOutput c f s = .next t ∧ _
    rw [execOutput, rfunc_inPhase (by decide) _ hruns]
    exact rowUnit_gives hready (List.map_map ..) rfl
  case delta =>
    change ∃ t, execDelta c f s = .next t ∧ _
    rw [execDelta, rfunc_inPhase (by decide) _ hruns, if_neg (not_not.2 hdim)]
    exact rowUnit_gives hready rfl rfl
  case grad =>
    change ∃ t, execGrad c f s = .next t ∧ _
    rw [execGrad, rfunc_inPhase (by decide) _ hruns]
    dsimp only
    rw [if_neg]
    · exact rowUnit_gives hready (List.map_map ..) rfl
    · rintro ⟨hsome, hbad⟩
      obtain ⟨hapart, hinside⟩ := hplaced.resolve_left hsome
      obtain ⟨hstored, hmeet⟩ | hbeyond := hbad
      · obtain hpass | hbeside := hapart
        · simp [hpass] at hstored
        · omega
      · omega

end Sys2Proof.Machine
end

section
/-!
Page commands (O40). A refused MAP or FREE reads the page-table entries that it was checked against (R287, R289), and where the page area lies far beyond HBM
the lookup of such an entry counts, as in `not_systemAbort`, under the key of another entry: here the count of refused commands itself.
-/
namespace Sys2Proof.Machine
open Sys2Proof

/-- A page area far beyond HBM, in a line whose die, as the cache counters number it, has the count of refused page commands, `0x5200:03`, for its count of
lookups. No write to `0x5210` sets such a base (`areaOk`), but the statement about refused commands is about every state. -/
def farArea : Nat := 84344976 * regionSize

/-- READY, with slot 0 open, its page table in that area, and no granule in the pool. -/
def farPaged : State := (idleReady.setEnt 0x5210 1 farArea).setPageSlot 0 { st := 1, e := 4, mapped := 0, pending := 0 }

/-- A MAP of page 0 of slot 0 to granule 0 (Table 9-8). -/
def mapFirst : List Byte := [2, 0, 0, 0, 0, 0, 0, 0, 1, 0, 0, 0, 0, 0, 0, 0]

theorem farPaged_writes : SessionWrite farPaged.managed 0 1 1 5 := managed_writes (by decide) rfl rfl rfl rfl rfl rfl rfl 1

/-- Granule 0 is none of the pool's: the MAP breaks Table 9-9. -/
theorem farPaged_refuses : pageRefusal farPaged.managed (mapFirst.set 0 2) = some (0x5203, 0) := by decide +kernel

/-- The count of refused page commands after a command. -/
def refusedAfter (o : Out) : Option Nat :=
  match o with
  | .next u => some (u.ent 0x5200 3)
  | _ => none

/-- The MAP is counted once as refused, and once more with the lookup of the entry that it was checked against. -/
theorem farPaged_counts_two : refusedAfter (exec (.map (.fdp 0 1 1) 5 mapFirst) farPaged.managed) = some 2 := by decide +kernel

/-- Refutes O40, in its clause that a refused command counts once: `farPaged_counts_two`. -/
theorem not_pageCommands : ¬ Obligations.PageCommands := by
  unfold Obligations.PageCommands
  intro h
  obtain ⟨hsession, -⟩ := h farPaged.managed 0 1 1 5 mapFirst rfl rfl
  obtain ⟨-, -, -, -, -, hrefused⟩ := hsession farPaged_writes
  obtain ⟨u, hu, -, honce, -⟩ := hrefused 2 (by decide) 0x5203 0 farPaged_refuses
  have hu' : exec (.map (.fdp 0 1 1) 5 mapFirst) farPaged.managed = .next u := hu
  have htwo : some (u.ent 0x5200 3) = some 2 := by rw [← farPaged_counts_two, hu']; rfl
  have hzero : farPaged.managed.ent 0x5200 3 = 0 := by decide +kernel
  rw [honce, hzero] at htwo
  exact absurd htwo (by decide)

end Sys2Proof.Machine
end

section
/-!
Pooling (O10; R301, R306): with a convolution block that keeps its limits a reduction in POOL mode passes its checks, and the row unit queues the
pass of one value a window.
-/
namespace Sys2Proof.Machine
open Sys2Proof

/-- The format of a pooling instruction's planes, and the bytes of an element (R306). -/
abbrev poolFmt (j : RowJob) : Nat := j.f.param.toNat % 16
abbrev poolSize (j : RowJob) : Nat := if poolFmt j = 3 then 4 else 2

/-- Tap k of the window of row r, as the window former finds it from the block's first output position and first tap (R299). -/
abbrev poolTap (b : List Byte) (r k : Nat) : Option (Nat × Nat × Nat) := tapAt b (field b 48 4 + r) (field b 56 2 + k)

/-- The elements of the planes that the windows of all rows read. -/
abbrev poolReads (b : List Byte) (j : RowJob) : List (Nat × Nat) :=
  (List.range j.rows).flatMap fun r => (List.range j.len).filterMap fun k =>
    (poolTap b r k).map fun p => (planeAt b (field b 52 2) (poolSize j) p, poolSize j)

/-- Where the values of the rows go. -/
abbrev poolOut (j : RowJob) : List (Nat × Nat) := if j.rows = 0 then [] else [(j.dst, j.rows * outSize j.f)]

/-- The value of a tap: the element of its plane, or the pad pattern. -/
def poolElem (x : CoreS) (j : RowJob) (tap : Option (Nat × Nat × Nat)) : W32 :=
  match tap with
  | none => poolVal (poolFmt j) (x.pads.getD (cvPad x.conv) 0).toNat
  | some p => poolVal (poolFmt j) (ofLe (x.clmBytes (planeAt x.conv (field x.conv 52 2) (poolSize j) p) (poolSize j)))

/-- The taps of row r's window, and their values. -/
def poolTaps (x : CoreS) (j : RowJob) (r : Nat) : List (Option (Nat × Nat × Nat)) := (List.range j.len).map (poolTap x.conv r)
def poolWindow (x : CoreS) (j : RowJob) (r : Nat) : List W32 := (poolTaps x j r).map (poolElem x j)

/-- What function g of the count mode, the values and the valid taps gives for each row's window. -/
def poolRows (x : CoreS) (j : RowJob) (g : Bool → List W32 → List Bool → RV) : List (List RV) :=
  (List.range j.rows).map fun r => [g (Nat.testBit (field x.conv 2 1) 0) (poolWindow x j r) ((poolTaps x j r).map Option.isSome)]

/-- A pooling instruction has nothing that halts or holds it: no flag is set, its block is in POOL mode and keeps its limits, its ranges lie in their
stores, nothing earlier holds it, and no word it reads is uncorrectable. -/
def PoolReady (s : State) (c : Nat) (j : RowJob) : Prop :=
  (j.f.srcAcc || j.f.dstAcc || j.f.accTiled || j.f.fromPass) = false ∧ held (s.core c) 2 (clmUnits convBlockAt 64) [] = false ∧
  readOnce s 2 c convBlockAt 64 = (s, false) ∧ cvMode (s.core c).conv = 2 ∧
  convFail (s.core c).conv j.rows (poolSize j) true (decide (1 ≤ poolFmt j ∧ poolFmt j ≤ 3)) j.len = none ∧ rangesIn (poolOut j) [] = true ∧
  unitFull (s.core c) 2 = false ∧ held (s.core c) 2 (rangeUnits (poolReads (s.core c).conv j) []) (rangeUnits (poolOut j) []) = false ∧
  (checkRanges s c (poolReads (s.core c).conv j)).2 = false

theorem checkRanges_accounts (s : State) (c : Nat) (l : List (Nat × Nat)) : Accounts s (checkRanges s c l).1 := checkSram_accounts ..

/-- A pooling instruction that nothing halts or holds queues the pass of its windows' values. -/
theorem poolOp_queues {s : State} {c : Nat} {j : RowJob} {g : Bool → List W32 → List Bool → RV} {values : List (List FNum)} (h : PoolReady s c j)
    (hvalues : (poolRows (s.core c) j g).map (fun r => r.map RV.val) = values) :
    ∃ t, poolOp s c (s.core c) j g = .next t ∧ RowQueued s t c j values [] := by
  subst hvalues
  obtain ⟨hflat, hblockFree, hblockSound, hmode, hlimits, hinside, hroom, hfree, hsound⟩ := h
  have hissues : ¬ ((!poolable j.f) = true ∨ unitFull (s.core c) 2 = true) := by simp [poolable, hflat, hroom]
  have hblock : (readOnce s 2 c convBlockAt 64).2 = false := by rw [hblockSound]
  have hnoPass : j.f.fromPass = false := by simp only [Bool.or_eq_false_iff] at hflat; exact hflat.2
  unfold poolOp
  dsimp only
  rw [if_neg hissues, hblockFree, if_neg Bool.false_ne_true, afterCheck_of_sound hblock, hblockSound]
  dsimp only
  rw [if_neg (not_not.2 hmode), hlimits]
  dsimp only
  rw [hinside, hfree, afterCheck_of_sound hsound, core_of_accounts (checkRanges_accounts ..)]
  refine ⟨_, rfl, ?_⟩
  unfold RowQueued
  dsimp only
  rw [State.core_setCore, if_pos rfl]
  refine ⟨_, by rw [CoreS.advance_passes, CoreS.addPost_passes], rfl, rfl, rfl, ?pc, ?regs, ?clm, ?acc, ?wide, ?fromPass, ?bytes, ?words⟩
  case bytes => exact (outputs_clm j (poolRows (s.core c) j g)).trans (List.append_nil _).symm
  case words => exact outputs_acc j (poolRows (s.core c) j g)
  all_goals simp [hnoPass]

/-- The valid taps of a window, counted. -/
theorem poolTaps_valid (x : CoreS) (j : RowJob) (r : Nat) :
    (((poolTaps x j r).map Option.isSome).filter id).length = ((List.range j.len).filter fun k => (poolTap x.conv r k).isSome).length := by
  simp only [poolTaps, List.map_map, List.filter_map, List.length_map, Function.comp_def, id_eq]

theorem length_poolWindow (x : CoreS) (j : RowJob) (r : Nat) : (poolWindow x j r).length = j.len := by
  simp only [poolWindow, poolTaps, List.length_map, List.length_range]

/-- The values of the rows, where the values of the taps and the function are given as a statement writes them. -/
theorem poolRows_values {x : CoreS} {j : RowJob} {g : Bool → List W32 → List Bool → RV} {val : Nat → Nat → W32} (h : Nat → List W32 → FNum)
    (hval : ∀ r k, val r k = poolElem x j (poolTap x.conv r k))
    (hg : ∀ r, (g (Nat.testBit (field x.conv 2 1) 0) (poolWindow x j r) ((poolTaps x j r).map Option.isSome)).val = h r (poolWindow x j r)) :
    (poolRows x j g).map (fun r => r.map RV.val) = (List.range j.rows).map fun r => [h r ((List.range j.len).map (val r))] := by
  have hwindow : ∀ r, (List.range j.len).map (val r) = poolWindow x j r := fun r => by
    rw [funext (hval r), poolWindow, poolTaps, List.map_map, Function.comp_def]
  simp only [poolRows, List.map_map, Function.comp_def, List.map_cons, List.map_nil, hg, hwindow]

/-- The average of a window: 0 where the count of taps is 0, else the sum times the reciprocal of the count. -/
theorem poolSum_val (x : CoreS) (j : RowJob) (r : Nat) (valid : Bool) :
    let v := poolWindow x j r
    let inside := (poolTaps x j r).map Option.isSome
    let d := if valid then (inside.filter id).length else v.length
    let n := if valid then ((List.range j.len).filter fun k => (poolTap x.conv r k).isSome).length else j.len
    (if d = 0 then rv32 0 else rvOf v (exactSum v).isZero (fmul (rowSum v) (frecip (fOfInt d)))).val =
      if n = 0 then ofF32 0 else ofF32 (fmul (rowSum v) (frecip (fOfInt n))) := by
  dsimp only
  rw [poolTaps_valid, length_poolWindow, apply_ite RV.val, rvOf_val, rv32_val]

/-- Settles O10: the instruction passes its issue (`rfunc_runs`) and its checks (`poolOp_queues`), and its values are those of its windows. -/
theorem pooling : Obligations.Pooling := by
  unfold Obligations.Pooling
  intro s c f x b fmt size taps ready tap val window count
  have hval : ∀ op r k, val r k = poolElem x (rowJob x op f) (poolTap b r k) := fun op r k => by
    dsimp only [val, tap, poolTap]
    cases tapAt b (field b 48 4 + r) (field b 56 2 + k) <;> rfl
  refine ⟨fun ⟨hok, hissuing, hskipping, hready⟩ => ?max, fun ⟨hok, hissuing, hskipping, hready⟩ => ?sum⟩
  case max =>
    change ∃ t, execPoolRowmax c f s = .next t ∧ _
    rw [execPoolRowmax, rfunc_runs hok hissuing hskipping]
    exact poolOp_queues hready (poolRows_values (fun _ v => ofF32 (rowMax v)) (hval _) fun _ => rv32_val _)
  case sum =>
    change ∃ t, execPoolRowsum c f s = .next t ∧ _
    rw [execPoolRowsum, rfunc_runs hok hissuing hskipping]
    let n := count (rowJob x 0x0E f)
    exact poolOp_queues hready (poolRows_values (fun r v => if n r = 0 then ofF32 0 else ofF32 (fmul (rowSum v) (frecip (fOfInt (n r))))) (hval _)
      fun r => poolSum_val x (rowJob x 0x0E f) r _)

end Sys2Proof.Machine
end

section
/-!
SUPPORT. The order of FP32 values that are not NaN (R313): their exact values with the two infinities, a linear order.
-/
namespace Sys2Proof.Machine
open Sys2Proof

/-- The exact value of a number that is not NaN, among the rationals with −∞ and +∞. -/
def FNum.value : FNum → WithBot (WithTop ℚ)
  | .nan => ⊥
  | .inf neg => if neg then ⊥ else (⊤ : WithTop ℚ)
  | .fin neg m e => (((if neg then -(m : ℚ) else m) * 2 ^ e : ℚ) : WithTop ℚ)

/-- `scaledInt` is the value in units of 2^k. -/
theorem scaledInt_value (neg : Bool) (m : Nat) {e k : Int} (h : k ≤ e) :
    (scaledInt neg m e k : ℚ) * 2 ^ k = (if neg then -(m : ℚ) else m) * 2 ^ e := by
  have hpow : (2 : ℚ) ^ (e - k).toNat * 2 ^ k = 2 ^ e := by
    rw [← zpow_natCast, Int.toNat_of_nonneg (by omega), ← zpow_add₀ two_ne_zero, Int.sub_add_cancel]
  cases neg
  · simp [scaledInt, mul_assoc, hpow]
  · simp [scaledInt, mul_assoc, hpow]

theorem cmp_fin_neg_iff (a b : Bool) (m n : Nat) (e k : Int) :
    (FNum.fin a m e).cmp (.fin b n k) = -1 ↔ (FNum.fin a m e).value < (FNum.fin b n k).value := by
  obtain ⟨j, hj⟩ : ∃ j, j = if e ≤ k then e else k := ⟨_, rfl⟩
  have he : j ≤ e := by split at hj <;> omega
  have hk : j ≤ k := by split at hj <;> omega
  have hpos : (0 : ℚ) < 2 ^ j := zpow_pos two_pos j
  have hvalue : (FNum.fin a m e).value < (FNum.fin b n k).value ↔ scaledInt a m e j < scaledInt b n k j := by
    simp only [FNum.value, WithBot.coe_lt_coe, WithTop.coe_lt_coe]
    rw [← scaledInt_value a m he, ← scaledInt_value b n hk, mul_lt_mul_iff_left₀ hpos, Int.cast_lt]
  rw [hvalue, FNum.cmp, ← hj]
  split
  · constructor <;> omega
  · split <;> constructor <;> omega

/-- An infinity compares as the end of the order that it is. -/
theorem cmp_neg_iff {x y : FNum} (hx : x.isNan = false) (hy : y.isNan = false) : x.cmp y = -1 ↔ x.value < y.value := by
  match x, y with
  | .fin .., .fin .. => exact cmp_fin_neg_iff ..
  | .inf a, .inf b => cases a <;> cases b <;> simp [FNum.cmp, FNum.value]
  | .inf a, .fin .. => cases a <;> simp [FNum.cmp, FNum.value, WithBot.bot_lt_coe]
  | .fin .., .inf true => simp [FNum.cmp, FNum.value]
  | .fin .., .inf false => exact iff_of_true rfl (WithBot.coe_lt_coe.2 (WithTop.coe_lt_top _))
  | .nan, _ => exact absurd hx (by decide)
  | _, .nan => exact absurd hy (by decide)

theorem lt_iff_value (x y : FNum) : x.lt y = true ↔ x.isNan = false ∧ y.isNan = false ∧ x.value < y.value := by
  simp only [FNum.lt, Bool.and_eq_true, Bool.not_eq_true', decide_eq_true_eq, and_assoc]
  exact and_congr_right fun hx => and_congr_right fun hy => cmp_neg_iff hx hy

theorem flt_irrefl (a : W32) : flt a a = false := by
  rw [flt, ← Bool.not_eq_true, lt_iff_value]
  exact fun h => lt_irrefl _ h.2.2

/-- Below a value that is below another, and not above one that is below it: both are below the other. -/
theorem flt_of_not_flt_of_flt {a b c : W32} (ha : (ofF32 a).isNan = false) (hba : flt b a = false) (hbc : flt b c = true) : flt a c = true := by
  rw [flt, lt_iff_value] at hbc ⊢
  obtain ⟨hb, hc, hlt⟩ := hbc
  rw [flt, ← Bool.not_eq_true, lt_iff_value] at hba
  exact ⟨ha, hc, (not_lt.1 fun h => hba ⟨hb, ha, h⟩).trans_lt hlt⟩

theorem flt_asymm {a b : W32} (h : flt a b = true) : flt b a = false := by
  rw [flt, lt_iff_value] at h
  rw [flt, ← Bool.not_eq_true, lt_iff_value]
  exact fun hba => lt_asymm h.2.2 hba.2.2

theorem isNan_of_fle {a b : W32} (h : fle a b = true) : (ofF32 b).isNan = false := by
  simp only [fle, FNum.le, Bool.and_eq_true, Bool.not_eq_true'] at h
  exact h.1.2

end Sys2Proof.Machine
end

section
/-!
NMS (O45; R313): the candidates in order of score, and the boxes that are kept.
-/
namespace Sys2Proof.Machine
open Sys2Proof

/-- A box with its index and its score. -/
abbrev Scored := Nat × W32 × (W32 × W32 × W32 × W32)

/-! ### The order of the candidates -/

/-- a stands before b: its score is above, or, the scores being equal, its index is below. -/
def Ranked (a b : Scored) : Prop := flt b.2.1 a.2.1 = true ∨ (¬ flt a.2.1 b.2.1 = true ∧ a.1 < b.1)

theorem Ranked.not_above {a b : Scored} (h : Ranked a b) : flt a.2.1 b.2.1 = false :=
  h.elim flt_asymm fun h => Bool.eq_false_iff.2 h.1

theorem not_ranked_self (a : Scored) : ¬ Ranked a a := fun h =>
  h.elim (fun h => Bool.false_ne_true ((flt_irrefl _).symm.trans h)) fun h => Nat.lt_irrefl _ h.2

@[simp] theorem mem_insertScore {x y : Scored} {l : List Scored} : y ∈ insertScore x l ↔ y = x ∨ y ∈ l := by
  induction l with
  | nil => simp [insertScore]
  | cons z r ih =>
    rw [insertScore]
    split
    · simp
    · simp only [List.mem_cons, ih]
      tauto

/-- An entry with a later index than all before it goes to its place in their order. -/
theorem pairwise_insertScore {x : Scored} {l : List Scored} (hl : l.Pairwise Ranked) (hscore : ∀ y ∈ l, (ofF32 y.2.1).isNan = false)
    (hindex : ∀ y ∈ l, y.1 < x.1) : (insertScore x l).Pairwise Ranked := by
  induction l with
  | nil => exact List.pairwise_singleton ..
  | cons y r ih =>
    obtain ⟨hyr, hr⟩ := List.pairwise_cons.1 hl
    obtain ⟨-, hscores⟩ := List.forall_mem_cons.1 hscore
    obtain ⟨hy, hindices⟩ := List.forall_mem_cons.1 hindex
    rw [insertScore]
    split
    case isTrue habove =>
      refine List.pairwise_cons.2 ⟨List.forall_mem_cons.2 ⟨.inl habove, fun z hz => .inl ?_⟩, hl⟩
      exact flt_of_not_flt_of_flt (hscores z hz) (hyr z hz).not_above habove
    case isFalse hnot =>
      refine List.pairwise_cons.2 ⟨fun z hz => ?_, ih hr hscores hindices⟩
      obtain rfl | hz := mem_insertScore.1 hz
      · exact .inr ⟨hnot, hy⟩
      · exact hyr z hz

/-- Record i with its score, as NMS reads them. -/
def scoredAt (s : State) (d : List Byte) (i : Nat) : Scored := (i, peekF s (field d 16 8 + 4 * i), boxAt s (field d 8 8) i)

/-- The candidates among the first n records, in order. -/
def nmsOrderOf (s : State) (d : List Byte) (n : Nat) : List Scored :=
  (List.range n).foldl (fun l i =>
    if nmsCandidate d (scoredAt s d i).2.1 (scoredAt s d i).2.2 then insertScore (scoredAt s d i) l else l) []

theorem nmsOrder_eq (s : State) (d : List Byte) : nmsOrder s d = nmsOrderOf s d (rgCount d) := rfl

theorem nmsOrderOf_succ (s : State) (d : List Byte) (n : Nat) : nmsOrderOf s d (n + 1) =
    if nmsCandidate d (scoredAt s d n).2.1 (scoredAt s d n).2.2 then insertScore (scoredAt s d n) (nmsOrderOf s d n) else nmsOrderOf s d n := by
  rw [nmsOrderOf, List.range_succ, List.foldl_append]
  rfl

theorem mem_nmsOrderOf {s : State} {d : List Byte} {n : Nat} {x : Scored} :
    x ∈ nmsOrderOf s d n ↔ (x.1 < n ∧ nmsCandidate d (scoredAt s d x.1).2.1 (scoredAt s d x.1).2.2 = true) ∧ x = scoredAt s d x.1 := by
  induction n with
  | zero => simp [nmsOrderOf]
  | succ n ih =>
    have hlast : x.1 < n + 1 → x.1 < n ∨ x.1 = n := Nat.lt_succ_iff_lt_or_eq.1
    rw [nmsOrderOf_succ]
    split
    case isTrue hcandidate =>
      rw [mem_insertScore, ih]
      refine ⟨?_, fun ⟨⟨hle, hx⟩, hentry⟩ => ?_⟩
      · rintro (rfl | ⟨⟨hlt, hx⟩, hentry⟩)
        · exact ⟨⟨Nat.lt_succ_self n, hcandidate⟩, rfl⟩
        · exact ⟨⟨Nat.lt_succ_of_lt hlt, hx⟩, hentry⟩
      · exact (hlast hle).elim (fun hlt => .inr ⟨⟨hlt, hx⟩, hentry⟩) fun heq => .inl (heq ▸ hentry)
    case isFalse hnot =>
      rw [ih]
      exact ⟨fun ⟨⟨hlt, hx⟩, hentry⟩ => ⟨⟨Nat.lt_succ_of_lt hlt, hx⟩, hentry⟩,
        fun ⟨⟨hle, hx⟩, hentry⟩ => ⟨⟨(hlast hle).resolve_right fun heq => hnot (heq ▸ hx), hx⟩, hentry⟩⟩

/-- A candidate has a score at or above the threshold and finite, ordered coordinates. -/
theorem nmsCandidate_iff (d : List Byte) (score : W32) (b : W32 × W32 × W32 × W32) : nmsCandidate d score b = true ↔
    (ofF32 score).isNan = false ∧ FNum.le (ofF32 (fieldF d 36)) (ofF32 score) = true ∧
      (ofF32 b.1).isFinite = true ∧ (ofF32 b.2.1).isFinite = true ∧ (ofF32 b.2.2.1).isFinite = true ∧ (ofF32 b.2.2.2).isFinite = true ∧
      FNum.le (ofF32 b.1) (ofF32 b.2.2.1) = true ∧ FNum.le (ofF32 b.2.1) (ofF32 b.2.2.2) = true := by
  simp only [nmsCandidate, Bool.and_eq_true, and_assoc]
  exact ⟨fun h => ⟨isNan_of_fle h.1, h⟩, And.right⟩

theorem nmsOrderOf_pairwise (s : State) (d : List Byte) (n : Nat) : (nmsOrderOf s d n).Pairwise Ranked := by
  induction n with
  | zero => exact .nil
  | succ n ih =>
    rw [nmsOrderOf_succ]
    split
    · refine pairwise_insertScore ih (fun y hy => ?_) fun y hy => (mem_nmsOrderOf.1 hy).1.1
      obtain ⟨⟨-, hcandidate⟩, hentry⟩ := mem_nmsOrderOf.1 hy
      rw [hentry]
      exact ((nmsCandidate_iff ..).1 hcandidate).1
    · exact ih

/-- No candidate is listed twice. -/
theorem nmsOrder_nodup (s : State) (d : List Byte) : (nmsOrder s d).Nodup :=
  (nmsOrderOf_pairwise s d (rgCount d)).imp fun {a b} (h : Ranked a b) (heq : a = b) => not_ranked_self b (heq ▸ h)

/-! ### What is kept -/

section
variable (d : List Byte)

/-- The IoU of a candidate and a kept box exceeds θ. -/
abbrev Clash (a b : Scored) : Prop := flt (fieldF d 32) (iou a.2.2 b.2.2) = true

/-- The last candidate is kept exactly if fewer than TOPK are and it clashes with none of them. -/
theorem nmsKept_concat (l : List Scored) (x : Scored) : nmsKept d (l ++ [x]) =
    if (nmsKept d l).length < rgTopk d ∧ ∀ y ∈ nmsKept d l, ¬ Clash d x y then nmsKept d l ++ [x] else nmsKept d l := by
  have hiff : (rgTopk d ≤ (nmsKept d l).length ∨ ((nmsKept d l).any fun k => flt (fieldF d 32) (iou x.2.2 k.2.2)) = true) ↔
      ¬ ((nmsKept d l).length < rgTopk d ∧ ∀ y ∈ nmsKept d l, ¬ Clash d x y) := by
    simp only [List.any_eq_true, not_and_or, not_lt, not_forall, not_not, Clash, exists_prop]
  rw [nmsKept, List.foldl_append, List.foldl_cons, List.foldl_nil, ← nmsKept]
  simp only [hiff, ite_not]

/-- A property of the boxes that are kept is shown candidate by candidate. -/
theorem nmsKept_induction {P : List Scored → List Scored → Prop} (hnil : P [] [])
    (hkeep : ∀ l x, P l (nmsKept d l) → (nmsKept d l).length < rgTopk d → (∀ y ∈ nmsKept d l, ¬ Clash d x y) → P (l ++ [x]) (nmsKept d l ++ [x]))
    (hdrop : ∀ l x, P l (nmsKept d l) → P (l ++ [x]) (nmsKept d l)) (l : List Scored) : P l (nmsKept d l) := by
  induction l using List.reverseRecOn with
  | nil => exact hnil
  | append_singleton l x ih =>
    rw [nmsKept_concat]
    split
    case isTrue h => exact hkeep l x ih h.1 h.2
    case isFalse => exact hdrop l x ih

theorem nmsKept_sublist (l : List Scored) : (nmsKept d l).Sublist l :=
  nmsKept_induction d (P := fun l kept => kept.Sublist l) .slnil (fun _ _ ih _ _ => ih.append (.refl _))
    (fun _ _ ih => ih.trans (List.sublist_append_left ..)) l

theorem length_nmsKept_le (l : List Scored) : (nmsKept d l).length ≤ rgTopk d :=
  nmsKept_induction d (P := fun _ kept => kept.length ≤ rgTopk d) (Nat.zero_le _) (fun _ _ _ hroom _ => by simpa using hroom) (fun _ _ ih => ih) l

theorem nmsKept_pairwise (l : List Scored) : (nmsKept d l).Pairwise fun a b => ¬ Clash d b a :=
  nmsKept_induction d (P := fun _ kept => kept.Pairwise fun a b => ¬ Clash d b a) .nil
    (fun l x ih _ hnone => List.pairwise_append.2 ⟨ih, List.pairwise_singleton .., fun y hy z hz => by
      rw [List.mem_singleton.1 hz]; exact hnone y hy⟩) (fun _ _ ih => ih) l

/-- The candidates before a point of the order that are kept are those kept when it ends there. -/
theorem nmsKept_filter {before after : List Scored} (h : (before ++ after).Nodup) :
    ((nmsKept d (before ++ after)).filter fun y => decide (y ∈ before)) = nmsKept d before := by
  induction after using List.reverseRecOn with
  | nil => 
    rw [List.append_nil, List.filter_eq_self]
    exact fun y hy => decide_eq_true ((nmsKept_sublist d before).subset hy)
  | append_singleton after x ih =>
    rw [← List.append_assoc] at h ⊢
    obtain ⟨hfirst, -, hdisjoint⟩ := List.nodup_append.1 h
    have hx : x ∉ before := fun hx => hdisjoint x (List.mem_append_left _ hx) x (List.mem_singleton_self x) rfl
    rw [nmsKept_concat]
    split
    · rw [List.filter_append, ih hfirst, List.filter_singleton]
      simp [hx]
    · exact ih hfirst

theorem mem_nmsKept_iff {before after : List Scored} {x : Scored} (h : (before ++ x :: after).Nodup) :
    let kept := nmsKept d (before ++ x :: after)
    x ∈ kept ↔ (kept.filter fun y => decide (y ∈ before)).length < rgTopk d ∧ ∀ y ∈ kept, y ∈ before → ¬ Clash d x y := by
  intro kept
  have hbefore : (kept.filter fun y => decide (y ∈ before)) = nmsKept d before := nmsKept_filter d h
  have hmem : ∀ y, y ∈ kept ∧ y ∈ before ↔ y ∈ nmsKept d before := fun y => by rw [← hbefore, List.mem_filter, decide_eq_true_eq]
  have hx : x ∉ nmsKept d before := fun hx => 
    (List.nodup_append.1 h).2.2 x ((nmsKept_sublist d before).subset hx) x (List.mem_cons_self ..) rfl
  have hupto : x ∈ kept ↔ x ∈ nmsKept d (before ++ [x]) := by
    have hsplit : before ++ x :: after = before ++ [x] ++ after := by simp
    rw [hsplit] at h
    rw [← nmsKept_filter d h, List.mem_filter, ← hsplit]
    simp [kept]
  have hnone : (∀ y ∈ kept, y ∈ before → ¬ Clash d x y) ↔ ∀ y ∈ nmsKept d before, ¬ Clash d x y := by
    simp only [← hmem, and_imp]
  rw [hupto, hbefore, hnone, nmsKept_concat]
  split
  case isTrue hkeep => exact iff_of_true (by simp) hkeep
  case isFalse hnot => exact iff_of_false hx hnot

end

/-- Settles O45: the order by `mem_nmsOrderOf` and `nmsOrderOf_pairwise`, what is kept by `nmsKept_concat` and its consequences. -/
theorem nmsKeeps : Obligations.NmsKeeps := by
  unfold Obligations.NmsKeeps
  intro s d order kept score box candidate above area clash
  refine ⟨fun x => ?_, nmsOrderOf_pairwise s d _, nmsKept_sublist d _, length_nmsKept_le d _, nmsKept_pairwise d _, fun before x after hsplit => ?_,
    fun a b => ⟨_, _, rfl, rfl, ?_⟩⟩
  · change x ∈ nmsOrderOf s d (rgCount d) ↔ _
    rw [mem_nmsOrderOf, nmsCandidate_iff]
    rfl
  · have hnodup : (before ++ x :: after).Nodup := hsplit ▸ nmsOrder_nodup s d
    dsimp only [kept]
    rw [hsplit]
    exact mem_nmsKept_iff d hnodup
  · simp only [iou, Bool.and_eq_true]
    rfl

end Sys2Proof.Machine
end

section
/-!
Region commands (O44). The landing of a command that is done may be the increment that overflows its semaphore (R151): the run is aborted, and a core that
holds a page far beyond HBM lets it go, whose lookup counts, as in `not_systemAbort`, under the key of another entry: here the count of commands done.
-/
namespace Sys2Proof.Machine
open Sys2Proof

/-- The entry of a page far beyond HBM, in a line whose die, as the cache counters number it, has the count of commands that unit 0 has done, `0x5310:02`,
for its count of lookups. No gather holds such a page, but the statement is about every state. -/
def farDone : Nat := 89358408 * regionSize

/-- A descriptor of an NMS of no boxes, with TOPK 1, that writes its output at 0 and lands on semaphore 0 of core 0 (Tables 10-4, 10-5, R310). -/
def landingNms : List Byte := le 1 1 ++ le 39 0 ++ le 4 1 ++ le 16 0 ++ le 4 (2 ^ 16)

theorem landingNms_valid : rgFieldsOk 2 landingNms = true := by decide +kernel

/-- A run whose core 0 holds that page, with its landing semaphore 0 at its last value, while unit 0 has that command. -/
def fullLanding : State :=
  { State.reset with
    ctl := { State.reset.ctl with dev := .run, powered := true, filled := true }
    cores := [(0, { CoreS.reset with status := 2, landing := 1, sems := [(0, 0xFFFFFFFF)], moves := [holding farDone] })]
    regions := [(0, [{ core := none, op := 2, desc := landingNms, live := true }])] }

/-- The count of commands that unit 0 has done, after a command. -/
def doneAfter (o : Out) : Option Nat :=
  match o with
  | .next u => some (u.ent 0x5310 2)
  | _ => none

/-- The command is counted once as done, and once more with the lookup that its abort brings. -/
theorem fullLanding_counts_two : doneAfter (exec (.regionCommandDone 5 0) fullLanding) = some 2 := by decide +kernel

/-- Refutes O44, in its clause that a command done is counted once: `fullLanding_counts_two`. -/
theorem not_regionCommands : ¬ Obligations.RegionCommands := by
  unfold Obligations.RegionCommands
  intro h
  obtain ⟨-, hdone, -⟩ := h fullLanding 5 0
  obtain ⟨u, hu, honce, -⟩ := hdone _ [] (by decide) rfl rfl ⟨rfl, fun x hx => nomatch hx⟩ rfl rfl
  have htwo : some (u.ent 0x5310 2) = some 2 := by rw [← fullLanding_counts_two, hu]; rfl
  have hzero : fullLanding.ent 0x5310 2 = 0 := by decide +kernel
  have hone : u.ent 0x5310 2 = (fullLanding.ent 0x5310 2 + 1) % 2 ^ 64 := honce
  rw [hone, hzero] at htwo
  exact absurd htwo (by decide)

end Sys2Proof.Machine
end

section
/-!
The audit log (O56, O59, O60). What making an entry, an entry that becomes durable and a loss of the waiting ones leave of a chained log; then one lemma
for each command that touches the log, and one for all commands: the queue behind a command stays and a chained log stays chained.
-/
namespace Sys2Proof.Machine
open Sys2Proof

/-! ### A chained log (Table 15-13, R459) -/

/-- Only the numbers, the chain, the ring and the waiting entries matter to the chain. -/
theorem AuditChained.congr {a b : Audit} (h : AuditChained a) (hmade : b.made = a.made) (hchain : b.chain = a.chain) (hring : b.ring = a.ring)
    (hwaiting : b.waiting = a.waiting) : AuditChained b := by
  have hd : durable b = durable a := by rw [durable, durable, hmade, hwaiting]
  have he : logEntry b = logEntry a := by
    funext q
    rw [logEntry, logEntry, hd, hring, hwaiting]
  have hc : chainBefore b = chainBefore a := by
    funext q
    rw [chainBefore, chainBefore, he]
  rw [AuditChained, hd, he, hc, hmade, hchain, hwaiting]
  exact h

theorem length_auditHead (s : State) (w : WriteReq) (old : List Byte) (seq : Nat) (refused : Bool) : (auditHead s w old seq refused).length = 48 := by
  simp [auditHead]

/-- The sequence number of an entry, whatever follows its head (Table 15-13). -/
theorem field_auditHead_seq (s : State) (w : WriteReq) (old : List Byte) (seq : Nat) (refused : Bool) (b : List Byte) :
    field (auditHead s w old seq refused ++ b) 16 4 = seq % 2 ^ 32 := by
  rw [field_append_of_lt (by rw [length_auditHead]; decide)]
  simp only [auditHead, List.append_assoc]
  rw [field_append_of_le (by simp), field_append_of_le (by simp), field_append_of_le (by simp)]
  simpa using field_le_append 4 seq _

/-- The last 16 bytes of an entry are what stands behind its head, and its first 48 are the head. -/
theorem slice_entry_chain {head chain : List Byte} (hh : head.length = 48) (hc : chain.length = 16) : slice (head ++ chain) 48 16 = chain := by
  rw [slice, ← hh, List.drop_left, List.take_of_length_le hc.le]

/-- The log after an entry that joins the waiting ones. -/
def Audit.withEntry (a : Audit) (head chain : List Byte) (answer : Answer) : Audit :=
  { a with made := a.made + 1, chain := chain, waiting := a.waiting ++ [(head ++ chain, answer)] }

theorem durable_withEntry (a : Audit) (head chain : List Byte) (answer : Answer) : durable (a.withEntry head chain answer) = durable a := by
  simp [durable, Audit.withEntry]

/-- The earlier entries are as before. -/
theorem logEntry_withEntry_of_lt {a : Audit} {q : Nat} (hw : a.waiting.length ≤ a.made) (h : q < a.made) (head chain : List Byte) (answer : Answer) :
    logEntry (a.withEntry head chain answer) q = logEntry a q := by
  rw [logEntry, logEntry, durable_withEntry]
  by_cases hq : q < durable a
  · rw [if_pos hq, if_pos hq]
    rfl
  · have hlen : q - durable a < (a.waiting.map Prod.fst).length := by
      rw [List.length_map]
      unfold durable at hq ⊢
      omega
    rw [if_neg hq, if_neg hq, Audit.withEntry, List.map_append, List.getD_append _ _ _ _ hlen]

/-- The new entry is the newest. -/
theorem logEntry_withEntry_self {a : Audit} (hw : a.waiting.length ≤ a.made) (head chain : List Byte) (answer : Answer) :
    logEntry (a.withEntry head chain answer) a.made = head ++ chain := by
  have hlen : a.made - durable a = (a.waiting.map Prod.fst).length := by
    rw [List.length_map, durable]
    omega
  rw [logEntry, durable_withEntry, if_neg (by rw [durable]; omega), Audit.withEntry, List.map_append, hlen, List.getD_append_right _ _ _ _ le_rfl,
    Nat.sub_self]
  rfl

theorem chainBefore_withEntry {a : Audit} {q : Nat} (hw : a.waiting.length ≤ a.made) (h : q ≤ a.made) (head chain : List Byte) (answer : Answer) :
    chainBefore (a.withEntry head chain answer) q = chainBefore a q := by
  unfold chainBefore
  split
  · rfl
  · rw [logEntry_withEntry_of_lt hw (by omega)]

/-- An entry of 48 bytes with its number, and the hash of the chain and of them behind, keeps the log chained. -/
theorem AuditChained.withEntry {a : Audit} (h : AuditChained a) {head : List Byte} (hlen : head.length = 48)
    (hseq : ∀ b, field (head ++ b) 16 4 = a.made % 2 ^ 32) (answer : Answer) :
    AuditChained (a.withEntry head (padTo 16 (Config.sha384 (a.chain ++ head))) answer) := by
  obtain ⟨hw, hchain, hkept⟩ := h
  generalize hc : padTo 16 (Config.sha384 (a.chain ++ head)) = chain
  have hclen : chain.length = 16 := by rw [← hc, length_padTo]
  have hnew := logEntry_withEntry_self hw head chain answer
  refine ⟨by simpa [Audit.withEntry] using hw, ?_, fun q hq hring => ?_⟩
  · change chain = if a.made + 1 = 0 then _ else slice (logEntry _ a.made) 48 16
    rw [if_neg (Nat.succ_ne_zero _), hnew, slice_entry_chain hlen hclen]
  · rw [durable_withEntry] at hring ⊢
    rcases Nat.lt_succ_iff_lt_or_eq.1 hq with hq | rfl
    · rw [logEntry_withEntry_of_lt hw hq, chainBefore_withEntry hw hq.le]
      exact hkept q hq hring
    · rw [hnew, chainBefore_withEntry hw le_rfl, ← hchain]
      refine ⟨by rw [List.length_append, hlen, hclen], hseq chain, fun _ => ?_⟩
      rw [slice_entry_chain hlen hclen, ← hlen, List.take_left, hc]

/-- The entries that are not durable are lost, and the log goes on from the last durable one. -/
theorem AuditChained.dropWaiting {a : Audit} (h : AuditChained a) : AuditChained a.dropWaiting := by
  obtain ⟨-, -, hkept⟩ := h
  have hd : durable a.dropWaiting = durable a := Nat.sub_zero _
  have hentry : ∀ {q}, q < durable a → logEntry a.dropWaiting q = logEntry a q := fun {q} hq => by
    rw [logEntry, logEntry, hd, if_pos hq, if_pos hq]
    rfl
  have hbefore : ∀ {q}, q ≤ durable a → chainBefore a.dropWaiting q = chainBefore a q := fun {q} hq => by
    unfold chainBefore
    split
    · rfl
    · rw [hentry (by omega)]
  refine ⟨Nat.zero_le _, ?_, fun q hq hring => ?_⟩
  · change (if durable a = 0 then _ else slice (sget [] a.ring ((durable a - 1) % 1048576)) 48 16) = chainBefore a.dropWaiting (durable a)
    rw [hbefore le_rfl, chainBefore, logEntry]
    split
    · rfl
    · rw [if_pos (by omega)]
  · have hq : q < durable a := hq
    rw [hd] at hring ⊢
    rw [hentry hq, hbefore hq.le]
    exact hkept q (hq.trans_le (Nat.sub_le _ _)) hring

/-- The log after its oldest waiting entry has become durable (R458). -/
def Audit.afterDurable (a : Audit) (entry : List Byte) (rest : List (List Byte × Answer)) : Audit :=
  { a with ring := sset [] a.ring (durable a % auditRing) entry, waiting := rest }

section
variable {a : Audit} {entry : List Byte} {answer : Answer} {rest : List (List Byte × Answer)}

theorem durable_afterDurable (hw : a.waiting.length ≤ a.made) (hfront : a.waiting = (entry, answer) :: rest) :
    durable (a.afterDurable entry rest) = durable a + 1 := by
  rw [hfront, List.length_cons] at hw
  simp only [durable, Audit.afterDurable, hfront, List.length_cons]
  omega

/-- Every entry that the ring still keeps, and every waiting one, is as before. -/
theorem logEntry_afterDurable (hw : a.waiting.length ≤ a.made) (hfront : a.waiting = (entry, answer) :: rest) {q : Nat}
    (hkept : durable a < q + 1048576) : logEntry (a.afterDurable entry rest) q = logEntry a q := by
  rw [logEntry, logEntry, durable_afterDurable hw hfront]
  rcases lt_trichotomy q (durable a) with h | rfl | h
  · have hother : q % 1048576 ≠ durable a % 1048576 := by omega
    rw [if_pos (by omega), if_pos h, Audit.afterDurable, sget_sset, auditRing, if_neg hother]
  · rw [if_pos (by omega), if_neg (lt_irrefl _), Audit.afterDurable, sget_sset, auditRing, if_pos rfl, hfront, Nat.sub_self]
    rfl
  · obtain ⟨k, rfl⟩ : ∃ k, q = durable a + 1 + k := ⟨q - (durable a + 1), by omega⟩
    rw [if_neg (by omega), if_neg (by omega), Audit.afterDurable, hfront, List.map_cons, Nat.add_sub_cancel_left, Nat.add_right_comm,
      show durable a + k + 1 - durable a = k + 1 by omega, List.getD_cons_succ]

theorem AuditChained.afterDurable (h : AuditChained a) (hfront : a.waiting = (entry, answer) :: rest) : AuditChained (a.afterDurable entry rest) := by
  obtain ⟨hw, hchain, hkept⟩ := h
  have hd := durable_afterDurable hw hfront
  have hone : durable a + 1 ≤ a.made := by
    rw [durable, hfront, List.length_cons]
    rw [hfront, List.length_cons] at hw
    omega
  have hbefore : ∀ {q}, q = 0 ∨ durable a + 1 < q + 1048576 → chainBefore (a.afterDurable entry rest) q = chainBefore a q := fun {q} hq => by
    unfold chainBefore
    split
    · rfl
    · rw [logEntry_afterDurable hw hfront (by omega)]
  refine ⟨?_, hchain.trans (hbefore (.inr ?_)).symm, fun q hq hring => ?_⟩
  · change rest.length ≤ a.made
    rw [hfront, List.length_cons] at hw
    omega
  · omega
  · rw [hd] at hring ⊢
    obtain ⟨hlen, hseq, hhash⟩ := hkept q hq (by omega)
    rw [logEntry_afterDurable hw hfront (by omega)]
    refine ⟨hlen, hseq, fun hq => ?_⟩
    rw [hbefore hq]
    exact hhash (by omega)

end

theorem AuditChained.logWrite {s : State} (h : AuditChained s.audit) (w : WriteReq) (old : List Byte) (status : Nat) :
    AuditChained (logWrite s w old status).audit :=
  h.withEntry (length_auditHead ..) (fun _ => field_auditHead_seq ..) _

/-- Settles O60: the entry of a write is its head (`field_auditHead_seq`, `length_auditHead`) with the chain behind. -/
theorem auditChainBegins : Obligations.AuditChainBegins := by
  unfold Obligations.AuditChainBegins
  refine ⟨⟨le_rfl, rfl, fun q hq => (Nat.not_lt_zero q hq).elim⟩, fun s w old status => ?_⟩
  have hlen := length_auditHead s w old s.audit.made (decide (status ≠ stOk))
  have hclen := length_padTo 16 (Config.sha384 (s.audit.chain ++ auditHead s w old s.audit.made (decide (status ≠ stOk))))
  refine ⟨rfl, _, _, rfl, by rw [List.length_append, hlen, hclen], slice_entry_chain hlen hclen, ?_, ?_, ?_, field_auditHead_seq .., ?_⟩
  · rw [slice, List.drop_zero, ← hlen, List.take_left]
    rfl
  · simp only [auditHead, List.append_assoc]
    rw [field_le_append]
    exact Nat.mod_eq_of_lt s.now.isLt
  · simp only [auditHead, List.append_assoc]
    rw [field_append_of_le (by simp), field_append_of_le (by simp)]
    simpa using field_le_append 2 w.index _
  · simp only [auditHead, List.append_assoc]
    rw [field_append_of_le (by simp), field_append_of_le (by simp), field_append_of_le (by simp), field_append_of_le (by simp)]
    simpa using field_le_append 1 w.sub _

/-! ### What each command leaves of the queue and of the log -/

/-- From s to t the queue of commands is as it was, and a log that was chained still is. -/
structure LogKept (s t : State) : Prop where
  pending : t.pending = s.pending
  chained : AuditChained s.audit → AuditChained t.audit

namespace LogKept

theorem refl (s : State) : LogKept s s := ⟨rfl, id⟩

theorem trans {s t u : State} (h : LogKept s t) (h' : LogKept t u) : LogKept s u := ⟨h'.pending.trans h.pending, h'.chained ∘ h.chained⟩

theorem of_quiet {s t : State} (h : Quiet s t) : LogKept s t := ⟨h.1, fun hc => h.2.symm ▸ hc⟩

/-- What else the log holds (failure, waiting accesses, checkpoints) is free. -/
theorem of_log {s t : State} (hpending : t.pending = s.pending) (hmade : t.audit.made = s.audit.made) (hchain : t.audit.chain = s.audit.chain)
    (hring : t.audit.ring = s.audit.ring) (hwaiting : t.audit.waiting = s.audit.waiting) : LogKept s t :=
  ⟨hpending, fun h => h.congr hmade hchain hring hwaiting⟩

end LogKept

/-- Whatever next state the outcome is keeps queue and chain. -/
structure Keeps (s : State) (o : Out) : Prop where
  kept : ∀ t, o = .next t → LogKept s t

namespace Keeps

theorem next {s t : State} (h : LogKept s t) : Keeps s (.next t) := ⟨fun _ hu => by
  cases hu
  exact h⟩

theorem same (s : State) : Keeps s (.next s) := next (.refl s)

theorem of_fine {s : State} {o : Out} (h : Fine s o) : Keeps s o := by
  obtain ⟨t, rfl, hq⟩ := h
  exact next (.of_quiet hq)

theorem ite {s : State} {p : Prop} [Decidable p] {a b : Out} (ha : Keeps s a) (hb : Keeps s b) : Keeps s (if p then a else b) := by
  split
  · exact ha
  · exact hb

theorem atTime {f : State → Out} (h : ∀ u, Keeps u (f u)) (s : State) (t : FTime) : Keeps s (atTime s t f) :=
  ite ⟨fun u hu => ⟨((h { s with now := t }).kept u hu).pending, ((h { s with now := t }).kept u hu).chained⟩⟩ (same s)

theorem rated {s : State} {mv : Int} {f : Out} (h : Keeps s f) : Keeps s (rated mv f) := ite ⟨fun _ hu => nomatch hu⟩ h

end Keeps

/-! ### Accesses that Galena takes up -/

theorem logWrite_kept (s : State) (w : WriteReq) (old : List Byte) (status : Nat) : LogKept s (logWrite s w old status) :=
  ⟨rfl, fun h => h.logWrite w old status⟩

theorem applyWrite_kept (s : State) (w : WriteReq) : LogKept s (applyWrite s w) := by
  unfold applyWrite
  dsimp only
  refine .trans ?_ ((LogKept.of_quiet (writeEntry_quiet ..)).trans (logWrite_kept ..))
  split
  · exact .of_quiet (commitMapWrite_quiet ..)
  · exact .refl s

theorem takeAccess_kept (s : State) (a : Access) : LogKept s (takeAccess s a) := by
  cases a with
  | write w =>
    unfold takeAccess
    dsimp only
    split
    · exact .of_quiet (refuseAudit_quiet ..)
    · exact applyWrite_kept ..
  | read slot sid req index sub => exact .of_quiet (answerRead_quiet ..)

theorem noteTaken_kept (s : State) (h : Held) : LogKept s (noteTaken s h) := by
  unfold noteTaken
  split
  · exact .of_log rfl rfl rfl rfl rfl
  · exact .refl s

theorem takeAll_kept (l : List Held) (s : State) : LogKept s (takeAll l s) := by
  induction l generalizing s with
  | nil => exact .refl s
  | cons h r ih =>
    unfold takeAll
    split
    · exact .of_log rfl rfl rfl rfl rfl
    · exact ((noteTaken_kept s h).trans (takeAccess_kept ..)).trans (ih _)

theorem runHeld_kept (s : State) : LogKept s (runHeld s) := by
  unfold runHeld
  refine .trans ?_ (takeAll_kept ..)
  exact .of_log rfl rfl rfl rfl rfl

theorem arriveAccess_kept (s : State) (rank : Nat) (a : Access) : LogKept s (arriveAccess s rank a) := by
  unfold arriveAccess
  refine .trans ?_ (runHeld_kept _)
  exact .of_log rfl rfl rfl rfl rfl

theorem writeCommand_keeps (o : Origin) (t : FTime) (index sub : Nat) (b : List Byte) (s : State) : Keeps s (writeCommand o t index sub b s) := by
  refine .atTime (fun u => ?_) s t
  cases o with
  | fdp slot req ver =>
    refine .ite (.same u) ?_
    have hrequest := LogKept.of_quiet (request_quiet u slot.val opWrite req (some ver))
    split <;> rename_i heq <;> rw [heq] at hrequest
    · exact .next hrequest
    · exact .next (hrequest.trans ((LogKept.of_quiet (copyRead_quiet ..)).trans (arriveAccess_kept ..)))
  | prog c =>
    refine .ite (.same u) ?_
    dsimp only
    split
    · exact .same u
    · exact .next ((LogKept.of_quiet (State.modMove_quiet ..)).trans ((LogKept.of_quiet (copyRead_quiet ..)).trans (arriveAccess_kept ..)))

theorem execFdpRead_keeps (slot : Fin 8) (req : W32) (ver op : Byte) (body : List Byte) (s : State) : Keeps s (execFdpRead slot req ver op body s) := by
  refine .ite (.of_fine (answerRequest_fine fun _ _ => ⟨rfl, rfl⟩)) (.ite (.same s) ?_)
  have hrequest := LogKept.of_quiet (request_quiet s slot.val opRead req (some ver))
  split <;> rename_i heq <;> rw [heq] at hrequest
  · exact .next hrequest
  · exact .ite (.next (hrequest.trans (.of_quiet (answerRead_quiet ..)))) (.next (hrequest.trans (.of_log rfl rfl rfl rfl rfl)))

/-! ### The log in flash -/

theorem entryDurable_kept {s : State} {entry : List Byte} {a : Answer} {rest : List (List Byte × Answer)}
    (hfront : s.audit.waiting = (entry, a) :: rest) : LogKept s (entryDurable s entry a rest) := by
  unfold entryDurable
  dsimp only
  have hring : LogKept s { s with audit := s.audit.afterDurable entry rest } := ⟨rfl, fun h => h.afterDurable hfront⟩
  have hanswer := hring.trans (.of_quiet (giveAnswer_quiet _ a (durable s.audit)))
  refine .trans ?_ (runHeld_kept _)
  split
  · refine .trans ?_ (.of_quiet (wakeFlint_quiet _))
    exact hanswer.trans (.of_log rfl rfl rfl rfl rfl)
  · exact hanswer

theorem logFails_kept (s : State) : LogKept s (logFails s) := by
  unfold logFails
  have hdrop : LogKept s { s with audit := { s.audit.dropWaiting with failed := true, held := s.audit.held } } :=
    ⟨rfl, fun h => h.dropWaiting.congr rfl rfl rfl rfl⟩
  refine ((hdrop.trans (.of_quiet (State.raise_quiet _ 0x8304 []))).trans ?_).trans (runHeld_kept _)
  exact .of_quiet (foldl_quiet failAnswer failAnswer_quiet _ _)

theorem execAuditEntryDurable_keeps (written : Bool) (s : State) : Keeps s (execAuditEntryDurable written s) := by
  refine .ite (.same s) ?_
  split
  · exact .same s
  · next hfront =>
    refine .next ?_
    split
    · exact entryDurable_kept hfront
    · exact logFails_kept s

theorem execCheckpointSignatureDone_keeps (s : State) : Keeps s (execCheckpointSignatureDone s) := by
  unfold execCheckpointSignatureDone
  split
  · next n head r _ =>
    refine .ite (.next ?_) (.same s)
    refine .trans ?_ ((LogKept.of_quiet (State.raise_quiet ..)).trans (.of_quiet (nextSigning_quiet _)))
    exact (LogKept.of_quiet (signPair_quiet s head)).trans (.of_log rfl rfl rfl rfl rfl)
  · exact .same s

/-! ### Region commands, the end of an abort, power and start-up -/

theorem execRegionCommandDone_keeps (t : FTime) (die : Fin 4) (s : State) : Keeps s (execRegionCommandDone t die s) :=
  .atTime (fun u => .ite (.same u) (.next ((LogKept.of_quiet (finishRegion_quiet ..)).trans (runHeld_kept _)))) s t

theorem execAbortingComplete_keeps (s : State) : Keeps s (execAbortingComplete s) :=
  .ite (.next ((LogKept.of_quiet (abortingComplete_quiet s)).trans (runHeld_kept _))) (.same s)

theorem execArmingChecksDone_keeps (t : FTime) (s : State) : Keeps s (execArmingChecksDone t s) := by
  refine .atTime (fun u => .ite (.same u) ?_) s t
  have hread := LogKept.of_quiet (readRanges_quiet u (tabRanges u u.run.tab))
  refine .ite (.next (hread.trans (.of_quiet (refuseArming_quiet ..)))) ?_
  split
  · exact .next (hread.trans (.of_quiet (refuseArming_quiet ..)))
  · exact .next (hread.trans (.of_quiet (loadTab_quiet ..)))

theorem execShardWalkDone_keeps (t : FTime) (s : State) : Keeps s (execShardWalkDone t s) := by
  refine .atTime (fun u => ?_) s t
  split
  · exact .same u
  · dsimp only
    refine .ite (.next (.of_quiet ?_)) (.ite (.next (.of_quiet ?_)) (.next (.of_quiet ?_))) <;>
      simp only [Quiet, State.setEnt_quiet, State.raise_quiet, memWrite_quiet, readRanges_quiet, and_self]

theorem execMainFirmwareVerified_keeps (s : State) : Keeps s (execMainFirmwareVerified s) := by
  unfold execMainFirmwareVerified
  generalize [2, 3, 4, 5] = kinds
  split
  · dsimp only
    generalize hr : List.foldl _ _ _ = r
    have hselect : LogKept s r.1 := by
      rw [← hr]
      refine .of_quiet ?_
      exact foldl_quiet_fst (fun sb k => ((selectImage sb.1 k).1, if (selectImage sb.1 k).2 = true then sb.2 else sb.2 ++ [k]))
        (fun sb k => selectImage_quiet sb.1 k) kinds (s, ([] : List Nat))
    split
    · exact .next (hselect.trans (.of_quiet ⟨rfl, rfl⟩))
    · have hstandby := LogKept.of_quiet (toStandby_quiet r.1)
      generalize toStandby r.1 = u at hstandby ⊢
      exact .next (hselect.trans (hstandby.trans (.of_quiet ⟨rfl, rfl⟩)))
  · exact .same s

theorem execStandbyPowerLoss_keeps (s : State) : Keeps s (execStandbyPowerLoss s) := by
  refine .ite (.same s) (.next ⟨?_, fun h => ?_⟩)
  · simp only [State.setEnt_quiet, mainReset_quiet, disableStreams_quiet, endWaits_quiet]
  · simp only [State.setEnt_quiet, mainReset_quiet, disableStreams_quiet, endWaits_quiet]
    exact h.dropWaiting

theorem execPowerApplied_keeps (mv : Int) (s : State) : Keeps s (execPowerApplied mv s) := by
  unfold execPowerApplied
  refine .rated ?_
  split
  · dsimp only
    refine .next ⟨?_, fun h => ?_⟩
    · simp only [ite_pending, State.setOct_quiet, State.setEnt_quiet, selectImage_quiet, freshSram_quiet, mainReset_quiet, sampleSupply_quiet, ite_self]
    · simp only [ite_audit, State.setOct_quiet, State.setEnt_quiet, selectImage_quiet, freshSram_quiet, mainReset_quiet, sampleSupply_quiet, ite_self]
      exact h.dropWaiting.congr rfl rfl rfl rfl
  · exact .same s

theorem execSupplyHalt_keeps (t : FTime) (mv : Nat) (s : State) : Keeps s (execSupplyHalt t mv s) := by
  refine .rated (.atTime (fun u => .ite (.same u) (.ite (.next (.of_quiet ?_)) (.next (.of_quiet ?_)))) s t) <;>
    simp only [Quiet, abortRun_quiet, haltEvent_quiet, State.addEnt_quiet, noteSupply_quiet, and_self]

theorem execGovernorTick_keeps (t : FTime) (mv watts avg1ms avg10ms : Nat) (s : State) : Keeps s (execGovernorTick t mv watts avg1ms avg10ms s) := by
  refine .rated (.atTime (fun u => .ite (.same u) (.ite (.next (.of_quiet (toFault_quiet ..))) (.next (.of_quiet ?_)))) s t)
  simp only [Quiet, ite_pending, ite_audit, shedIfDue_quiet, throttleEnter_quiet, noteRise_quiet, holdFall_quiet, noteDraw_quiet, tickBallast_quiet,
    ite_self, and_self]

/-! ### The sequencer's commands that may be refused for a full unit or a missing route -/

section
variable (s : State) (c : Core)

theorem arrayPass_fine (c : Nat) (x : CoreS) (f : APassF) (gather conv : Bool) : Fine s (arrayPass s c x f gather conv) := by
  unfold arrayPass
  dsimp only
  refine .ite (fun _ => .same s) fun _ => .ite (fun _ => .next_iff.2 (coreFault_quiet ..)) fun _ => ?_
  split
  · exact .next_iff.2 (filterLimit_quiet ..)
  · refine .ite (fun _ => .next_iff.2 (instrInvalid_quiet ..)) fun _ => .ite (fun _ => .same s) fun _ =>
      .ite (fun _ => .next_iff.2 (instrInvalid_quiet ..)) fun _ => .ite (fun _ => .same s) fun _ =>
        afterCheck_fine (checkSram_quiet ..) fun u => .next_iff.2 ?_
    simp only [queuePass_quiet, loadGap_quiet, State.addEnt_quiet]
    split
    · exact convFix_quiet ..
    · exact ⟨rfl, rfl⟩

theorem execApass_fine (f : APassF) (gather : Bool) : Fine s (execApass c f gather s) := by
  refine issue_fine fun t => afterCheck_fine (modeCheck_quiet ..) fun u => ?_
  refine .ite (fun _ => skipPass_fine ..) fun _ => .ite (fun _ => arrayPass_fine ..) fun _ => .ite (fun _ => .same u) fun _ =>
    afterCheck_fine (readOnce_quiet ..) fun v => ?_
  exact .ite (fun _ => .next_iff.2 (filterLimit_quiet ..)) fun _ => .ite (fun _ => .same v) fun _ => arrayPass_fine ..

theorem execConvPass_fine (f : APassF) : Fine s (execConvPass c f s) := by
  refine issue_fine fun t => afterCheck_fine (modeCheck_quiet ..) fun u => ?_
  refine .ite (fun _ => skipPass_fine ..) fun _ => .ite (fun _ => .same u) fun _ => afterCheck_fine (readOnce_quiet ..) fun v => ?_
  exact .ite (fun _ => .same v) fun _ => arrayPass_fine ..

theorem execCast_fine {f : RFuncF} (h : castFieldsOk f = true) : Fine s (execCast c f s) := by
  unfold execCast
  rw [h, Bool.not_true, if_neg Bool.false_ne_true]
  refine issue_fine fun t => ?_
  dsimp only
  refine .ite (fun _ => skipGo_fine ..) fun _ => .ite (fun _ => .same t) fun _ => .ite (fun _ => .next_iff.2 (coreFault_quiet ..)) fun _ =>
    .ite (fun _ => .next_iff.2 (instrInvalid_quiet ..)) fun _ => .ite (fun _ => .next_iff.2 (instrInvalid_quiet ..)) fun _ =>
      .ite (fun _ => .same t) fun _ => afterCheck_fine (checkSram_quiet ..) fun u => .ite (fun _ => .next_iff.2 (instrInvalid_quiet ..)) fun _ => ?_
  split
  · exact .next_iff.2 (scaleInvalid_quiet ..)
  · refine .next_iff.2 (Quiet.trans ?_ (State.setCore_quiet ..))
    exact foldl_quiet _ (fun v k => by
      split
      · exact noteOverflow_quiet ..
      · exact ⟨rfl, rfl⟩) _ u

theorem execMove_fine (a : Reg) (p : PostField) : Fine s (execMove c a p s) := by
  refine issue_fine fun t => .ite (fun _ => skipGo_fine ..) fun _ => .ite (fun _ => .next_iff.2 (instrInvalid_quiet ..)) fun _ =>
    .ite (fun _ => .same t) fun _ => ?_
  have hcheck := checkRanges_quiet t c.val [(((s.core c.val).reg a).toNat, 64)]
  split <;> rename_i heq <;> rw [heq] at hcheck
  · exact .next_iff.2 (Quiet.trans hcheck (moverFault_quiet ..))
  · refine Fine.of ?_ hcheck.1 hcheck.2
    refine .ite (fun _ => .next_iff.2 (moverFault_quiet ..)) fun _ => ?_
    split
    · exact .next_iff.2 (moverFault_quiet ..)
    · refine .ite (fun _ => .same _) fun _ => .ite (fun _ => (skipGo_fine ..).of (State.addEnt_quiet ..).1 (State.addEnt_quiet ..).2) fun _ => ?_
      exact .next_iff.2 (State.setCore_quiet ..)

theorem execPost_fine (remote : Bool) (sem : Sem) (a : Reg) (imm : W32) : Fine s (execPost c remote sem a imm s) := by
  have hpost (t : State) (x : CoreS) (k m n : Nat) : Quiet t (incSem (t.setCore c.val x) k m n false) :=
    Quiet.trans (State.setCore_quiet ..) (incSem_quiet ..)
  refine issue_fine fun t => .ite (fun _ => ?_) fun _ => .ite (fun _ => .same t) fun _ => .next_iff.2 (hpost ..)
  refine .ite (fun _ => .next_iff.2 (instrInvalid_quiet ..)) fun _ => .ite (fun _ => .same t) fun _ => .ite (fun _ => .next_iff.2 (hpost ..)) fun _ => ?_
  split
  · exact .same t
  · next tag _ =>
    dsimp only
    generalize openFlit (t.setCore c.val (s.core c.val).advance) kPost 0 _ _ 0 true _ = f
    have hemit := Quiet.trans (State.setCore_quiet t c.val (s.core c.val).advance) (emit_quiet _ (bits ((s.core c.val).reg a).toNat 15 0) [f])
    split <;> rename_i heq <;> rw [heq] at hemit
    · exact .next_iff.2 (Quiet.trans hemit (addRequest_quiet ..))
    · exact .next_iff.2 (Quiet.trans hemit (noRoute_quiet ..))

theorem execShape_fine (d a : Reg) (slot : Fin 64) (imm : W32) : Fine s (execShape c d a slot imm s) := by
  refine issue_fine fun t => ?_
  split
  · exact .next_iff.2 (instrInvalid_quiet ..)
  · refine .ite (fun _ => .next_iff.2 (instrInvalid_quiet ..)) fun _ => ?_
    dsimp only
    split
    · exact .next_iff.2 (moverFault_quiet ..)
    · exact .ite (fun _ => .same t) fun _ => startWait_fine ..
    · next dev l _ =>
      refine .ite (fun _ => .next_iff.2 (moverFault_quiet ..)) fun _ => ?_
      split
      · exact .same t
      · next tag _ =>
        generalize openFlit t kRead 0 _ _ 0 true _ = f
        have hemit := emit_quiet t dev [f]
        split <;> rename_i heq <;> rw [heq] at hemit
        · exact (startWait_fine ..).of ((addRequest_quiet ..).1.trans hemit.1) ((addRequest_quiet ..).2.trans hemit.2)
        · exact .next_iff.2 (Quiet.trans hemit (noRoute_quiet ..))

end

/-! ### All commands -/

/-- Every command keeps the queue behind it and a chained log; an ill-formed one ends in no state. -/
theorem exec_keeps (i : Instr) (s : State) : Keeps s (exec i s) := by
  by_cases hwf : i.wf = true
  case neg =>
    rw [exec_illFormed s (Bool.eq_false_iff.2 hwf)]
    exact ⟨fun _ h => nomatch h⟩
  cases i with
  | dictionaryWrite | powerUp | powerDown | restart | enterTest | enterRecovery | leave | arm | pause | resume | abort | armingWrite
  | semForce | regionModeWrite | exportShard | verify | clearHold | pageAreaSet | openSlot | map | free | close | decode | nms | crop
  | streamEnable | streamDisable | batchRelease | encode | reportRequest | enroll | challenge | release | install | raiseFloor
  | galenaRestart | writeRaw | readRaw =>
    exact writeCommand_keeps ..
  | powerApplied => exact execPowerApplied_keeps ..
  | standbyPowerLoss => exact execStandbyPowerLoss_keeps ..
  | supplyLow => exact .of_fine (execSupplyLow_fine ..)
  | supplyHalt => exact execSupplyHalt_keeps ..
  | holdupExpiry => exact .of_fine (execHoldupExpiry_fine ..)
  | supplyRecovered => exact .of_fine (execSupplyRecovered_fine ..)
  | autoPowerUp => exact .of_fine (execAutoPowerUp_fine ..)
  | railsReady => exact .of_fine (execRailsReady_fine ..)
  | railTimeout => exact .of_fine (execRailTimeout_fine ..)
  | hbmTrainingDone => exact .of_fine (execHbmTrainingDone_fine ..)
  | memoryFillDone => exact .of_fine (execMemoryFillDone_fine ..)
  | selfTestDone => exact .of_fine (execSelfTestDone_fine ..)
  | mainFirmwareVerified => exact execMainFirmwareVerified_keeps ..
  | portStartTimeout => exact .of_fine (execPortStartTimeout_fine ..)
  | startComplete => exact .of_fine (execStartComplete_fine ..)
  | fdpHandshake => exact .of_fine (execFdpHandshake_fine ..)
  | fdpClose => exact .of_fine (execFdpClose_fine ..)
  | fdpSessionTimeout => exact .of_fine (execFdpSessionTimeout_fine ..)
  | hello => exact .of_fine (execHello_fine ..)
  | fdpRead => exact execFdpRead_keeps ..
  | events => exact .of_fine (execEvents_fine ..)
  | auditEntries => exact .of_fine (execAuditEntries_fine ..)
  | auditCheckpointRead => exact .of_fine (execAuditCheckpointRead_fine ..)
  | auditEntryDurable => exact execAuditEntryDurable_keeps ..
  | eventRecord => exact .of_fine (execEventRecord_fine ..)
  | armingChecksDone => exact execArmingChecksDone_keeps ..
  | tabMeasured => exact .of_fine (execTabMeasured_fine ..)
  | armingDeadline => exact .of_fine (execArmingDeadline_fine ..)
  | rampStep => exact .of_fine (execRampStep_fine ..)
  | startFabricTimeReached => exact .of_fine (execStartFabricTimeReached_fine ..)
  | capoSwitch => exact .of_fine (execCapoSwitch_fine ..)
  | digestWalk => exact .of_fine (execDigestWalk_fine ..)
  | verdict => exact .of_fine (execVerdict_fine ..)
  | commitCapo => exact .of_fine (execCommitCapo_fine ..)
  | runEnd => exact .of_fine (execRunEnd_fine ..)
  | lateTransfer => exact .of_fine (execLateTransfer_fine ..)
  | abortFlitReceive => exact .of_fine (execAbortFlitReceive_fine ..)
  | abortingComplete => exact execAbortingComplete_keeps ..
  | timeExchange => exact .of_fine (execTimeExchange_fine ..)
  | timeFlitReceive => exact .of_fine (execTimeFlitReceive_fine ..)
  | becomeRoot => exact .of_fine (execBecomeRoot_fine ..)
  | upstreamReselect => exact .of_fine (execUpstreamReselect_fine ..)
  | holdoverBoundExceeded => exact .of_fine (execHoldoverBoundExceeded_fine ..)
  | ppsInEdge => exact .of_fine (execPpsInEdge_fine ..)
  | ppsLost => exact .of_fine (execPpsLost_fine ..)
  | ppsOutPulse => exact .of_fine (execPpsOutPulse_fine ..)
  | flitLockAcquired => exact .of_fine (execFlitLockAcquired_fine ..)
  | linkDown => exact .of_fine (execLinkDown_fine ..)
  | laserFault => exact .of_fine (execLaserFault_fine ..)
  | trainReceive => exact .of_fine (execTrainReceive_fine ..)
  | heldPortRetrain => exact .of_fine (execHeldPortRetrain_fine ..)
  | corruptFlit => exact .of_fine (execCorruptFlit_fine ..)
  | retryRepeat => exact .of_fine (execRetryRepeat_fine ..)
  | retryReceive => exact .of_fine (execRetryReceive_fine ..)
  | mapSend => exact .of_fine (execMapSend_fine ..)
  | mapReceive => exact .of_fine (execMapReceive_fine ..)
  | headFlitReceive => exact .of_fine (execHeadFlitReceive_fine ..)
  | dataFlitReceive => exact .of_fine (execDataFlitReceive_fine ..)
  | landingCommit => exact .of_fine (execLandingCommit_fine ..)
  | readFlitReceive => exact .of_fine (execReadFlitReceive_fine ..)
  | respReceive => exact .of_fine (execRespReceive_fine ..)
  | ackReceive => exact .of_fine (execAckReceive_fine ..)
  | postFlitReceive => exact .of_fine (execPostFlitReceive_fine ..)
  | hostmsgReceive => exact .of_fine (execHostmsgReceive_fine ..)
  | schedFlitReceive => exact .of_fine (execSchedFlitReceive_fine ..)
  | completionTimeout => exact .of_fine (execCompletionTimeout_fine ..)
  | sendInstanceStart => exact .of_fine (execSendInstanceStart_fine ..)
  | sendReadDone => exact .of_fine (execSendReadDone_fine ..)
  | localInputStart => exact .of_fine (execLocalInputStart_fine ..)
  | groupBlockReduce => exact .of_fine (execGroupBlockReduce_fine ..)
  | stagedCopy => exact .of_fine (execStagedCopy_fine ..)
  | nop => exact .of_fine (execNop_fine ..)
  | halt => exact .of_fine (execHalt_fine ..)
  | programEnd => exact .of_fine (execProgramEnd_fine ..)
  | br => exact .of_fine (execBr_fine ..)
  | brc => exact .of_fine (execBrc_fine ..)
  | loop => exact .of_fine (execLoop_fine ..)
  | endl => exact .of_fine (execEndl_fine ..)
  | rdl => exact .of_fine (execRdl_fine ..)
  | movi => exact .of_fine (execMovi_fine ..)
  | movhi => exact .of_fine (execMovhi_fine ..)
  | alu => exact .of_fine (execAlu_fine ..)
  | cdiv => exact .of_fine (execCdiv_fine _ _ _ _ _ (by simpa [Instr.wf] using hwf))
  | ld => exact .of_fine (execLd_fine ..)
  | st => exact .of_fine (execSt_fine ..)
  | shape => exact .of_fine (execShape_fine ..)
  | shapeValueArrival => exact .of_fine (execShapeValueArrival_fine ..)
  | setpad => exact .of_fine (execSetpad_fine ..)
  | wcbind => exact .of_fine (execWcbind_fine ..)
  | wcbindServe => exact .of_fine (execWcbindServe_fine ..)
  | wcinit => exact .of_fine (execWcinit_fine ..)
  | wcinitApply => exact .of_fine (execWcinitApply_fine ..)
  | take => exact .of_fine (execTake_fine _ _ _ _ _ (by simpa [Instr.wf] using hwf))
  | takeServe => exact .of_fine (execTakeServe_fine ..)
  | apass => exact .of_fine (execApass_fine ..)
  | convPass => exact .of_fine (execConvPass_fine ..)
  | mpass => exact .of_fine (execMpass_fine ..)
  | passRetire => exact .of_fine (execPassRetire_fine ..)
  | postFieldApply => exact .of_fine (execPostFieldApply_fine ..)
  | add => exact .of_fine (execAdd_fine _ _ _ hwf)
  | mul => exact .of_fine (execMul_fine _ _ _ hwf)
  | scale => exact .of_fine (execScale_fine _ _ _ hwf)
  | min => exact .of_fine (execMin_fine _ _ _ hwf)
  | max => exact .of_fine (execMax_fine _ _ _ hwf)
  | exp => exact .of_fine (execExp_fine _ _ _ hwf)
  | log => exact .of_fine (execLog_fine _ _ _ hwf)
  | recip => exact .of_fine (execRecip_fine _ _ _ hwf)
  | rsqrt => exact .of_fine (execRsqrt_fine _ _ _ hwf)
  | div => exact .of_fine (execDiv_fine _ _ _ hwf)
  | act => exact .of_fine (execAct_fine _ _ _ hwf)
  | actd => exact .of_fine (execActd_fine _ _ _ hwf)
  | rowmax => exact .of_fine (execRowmax_fine _ _ _ hwf)
  | rowsum => exact .of_fine (execRowsum_fine _ _ _ hwf)
  | poolRowmax => exact .of_fine (execPoolRowmax_fine _ _ _ hwf)
  | poolRowsum => exact .of_fine (execPoolRowsum_fine _ _ _ hwf)
  | softmax => exact .of_fine (execSoftmax_fine _ _ _ hwf)
  | softmaxd => exact .of_fine (execSoftmaxd_fine _ _ _ hwf)
  | stats => exact .of_fine (execStats_fine _ _ _ hwf)
  | output => exact .of_fine (execOutput_fine _ _ _ hwf)
  | delta => exact .of_fine (execDelta_fine _ _ _ hwf)
  | grad => exact .of_fine (execGrad_fine _ _ _ hwf)
  | lnorm => exact .of_fine (execLnorm_fine _ _ _ hwf)
  | rmsnorm => exact .of_fine (execRmsnorm_fine _ _ _ hwf)
  | cast => exact .of_fine (execCast_fine _ _ hwf)
  | move => exact .of_fine (execMove_fine ..)
  | moveStart => exact .of_fine (execMoveStart_fine ..)
  | moveRetire => exact .of_fine (execMoveRetire_fine ..)
  | wait => exact .of_fine (execWait_fine ..)
  | waitRelease => exact .of_fine (execWaitRelease_fine ..)
  | waitft => exact .of_fine (execWaitft_fine ..)
  | waitftRelease => exact .of_fine (execWaitftRelease_fine ..)
  | waitLong => exact .of_fine (execWaitLong_fine ..)
  | post => exact .of_fine (execPost_fine ..)
  | drainComplete => exact .of_fine (execDrainComplete_fine ..)
  | contextSaved => exact .of_fine (execContextSaved_fine ..)
  | drainTimeout => exact .of_fine (execDrainTimeout_fine ..)
  | shardWalkDone => exact execShardWalkDone_keeps ..
  | regionCommandDone => exact execRegionCommandDone_keeps ..
  | listHeaderRead => exact .of_fine (execListHeaderRead_fine ..)
  | sampleDispatch => exact .of_fine (execSampleDispatch_fine ..)
  | sampleFinish => exact .of_fine (execSampleFinish_fine ..)
  | sampleEmit => exact .of_fine (execSampleEmit_fine ..)
  | sampleTimeout => exact .of_fine (execSampleTimeout_fine ..)
  | decodePipeFree => exact .of_fine (execDecodePipeFree_fine ..)
  | transcodeFrameDecoded => exact .of_fine (execTranscodeFrameDecoded_fine ..)
  | encodeFrameDone => exact .of_fine (execEncodeFrameDone_fine ..)
  | reportReady => exact .of_fine (execReportReady_fine ..)
  | installDone => exact .of_fine (execInstallDone_fine ..)
  | governorTick => exact execGovernorTick_keeps ..
  | powerCapRelease => exact .of_fine (execPowerCapRelease_fine ..)
  | taperStep => exact .of_fine (execTaperStep_fine ..)
  | clockReturnStep => exact .of_fine (execClockReturnStep_fine ..)
  | throttleInAssert => exact .of_fine (execThrottleInAssert_fine ..)
  | throttleInRelease => exact .of_fine (execThrottleInRelease_fine ..)
  | haltInAssert => exact .of_fine (execHaltInAssert_fine ..)
  | haltInRelease => exact .of_fine (execHaltInRelease_fine ..)
  | inputReminder => exact .of_fine (execInputReminder_fine ..)
  | thermalThrottle => exact .of_fine (execThermalThrottle_fine ..)
  | thermalRelease => exact .of_fine (execThermalRelease_fine ..)
  | thermalHalt => exact .of_fine (execThermalHalt_fine ..)
  | scrubRead => exact .of_fine (execScrubRead_fine ..)
  | scrubOverdue => exact .of_fine (execScrubOverdue_fine ..)
  | sramRewrite => exact .of_fine (execSramRewrite_fine ..)
  | pcsLock => exact .of_fine (execPcsLock_fine ..)
  | trainAdvertise => exact .of_fine (execTrainAdvertise_fine ..)
  | flitSlot => exact .of_fine (execFlitSlot_fine ..)
  | idleReceive => exact .of_fine (execIdleReceive_fine ..)
  | checkpointSignatureDone => exact execCheckpointSignatureDone_keeps ..

/-- Settles O56, command by command (`exec_keeps`). -/
theorem queueKept : Obligations.QueueKept := by
  unfold Obligations.QueueKept
  exact fun i s t h => ((exec_keeps i s).kept t h).pending

theorem step_cons {s : State} {c : Instr} {l : List Instr} (h : s.pending = c :: l) : step s = exec c { s with pending := l } := by
  unfold step
  rw [h]

theorem step_nil {s : State} (h : s.pending = []) : step s = .next s := by
  unfold step
  rw [h]

/-- Settles O55: a step by the front of the queue. -/
theorem stepRunsFront : Obligations.StepRunsFront := by
  unfold Obligations.StepRunsFront
  exact fun s c l => ⟨step_cons, step_nil⟩

/-- Settles O59: a step is the command at the front (`exec_keeps`), which starts from the same log, or nothing. -/
theorem auditChainKept : Obligations.AuditChainKept := by
  unfold Obligations.AuditChainKept
  intro s t h hstep
  cases hp : s.pending with
  | nil =>
    rw [step_nil hp] at hstep
    cases hstep
    exact h
  | cons c l =>
    rw [step_cons hp] at hstep
    exact ((exec_keeps c _).kept t hstep).chained h

/-- Settles O58: the reset state, and its entries by their defaults. -/
theorem asShipped : Obligations.AsShipped := by
  unfold Obligations.AsShipped
  exact ⟨rfl, rfl, rfl, rfl, rfl, rfl, rfl, rfl, rfl, rfl, fun _ _ => rfl, rfl, rfl, rfl, rfl, rfl, rfl, rfl, rfl, rfl, rfl, fun _ => rfl, rfl, rfl,
    fun _ => rfl, rfl⟩

end Sys2Proof.Machine
end

section
/-!
Streams (O41). An enable that is refused has read the stream's program, which counts a lookup of the cache (R181). The statement leaves the counters of
`0x4020` aside by their index, but names every other pair of an index and a number, beyond the 8 bits of a sub-index too (R433): the 257th of `0x401F`
is the place of `0x4020:01`.
-/
namespace Sys2Proof.Machine
open Sys2Proof

/-- What stands at number 257 of index `0x401F` after a command. -/
def beyondAfter (o : Out) : Option Nat :=
  match o with
  | .next u => some (u.ent 0x401F 257)
  | _ => none

/-- Stream 0, whose configuration is all zero, is refused; its program is 8 lines of 256 bytes, each of them looked up. -/
theorem emptyStream_looks_up : beyondAfter (exec (.streamEnable (.fdp 0 1 1) 5 0) idleReady.managed) = some 8 := by decide +kernel

/-- Refutes O41, in its clause that a refused enable leaves the entries beside the cache's counters as they were: `emptyStream_looks_up`. -/
theorem not_streamCommands : ¬ Obligations.StreamCommands := by
  unfold Obligations.StreamCommands
  intro h
  obtain ⟨-, hinvalid, -⟩ := h idleReady.managed 0 1 1 5 0 0 idleReady_writes
  obtain ⟨u, hu, -, -, hsound⟩ := hinvalid (.inl rfl) (by decide +kernel) (by decide +kernel)
  obtain ⟨hkept, -⟩ := hsound ⟨rfl, fun x hx => nomatch hx⟩
  have hread : some (u.ent 0x401F 257) = some 8 := by rw [← emptyStream_looks_up, hu]; rfl
  rw [hkept 0x401F 257 (.inl (by decide))] at hread
  exact absurd hread (by decide +kernel)

end Sys2Proof.Machine
end

section
/-!
Sessions, reads and the log (O52, O53, O54). A response in band without a route to the host is discarded and counted (R397, R407). The statements leave
the counters of `0x3320` aside by their index, but name every other pair of an index and a number, beyond the 8 bits of a sub-index too (R433): the
257th of `0x331F` is the place of `0x3320:01`.
-/
namespace Sys2Proof.Machine
open Sys2Proof

/-- READY with no port in service, and a session in band: in slot 4. -/
def State.inBand (x : Session) : State := idleReady.setSession 4 (some x)

theorem inBand_reachable (x : Session) : reachable (State.inBand x) 4 = true := rfl

theorem inBand_session (x : Session) : (State.inBand x).session 4 = some x := rfl

theorem inBand_memory (x : Session) : mgmtRead (State.inBand x) = (State.inBand x, false) := sramReadCheck_clean _ 9 0 0 _ rfl

/-- What stands at number 257 of index `0x331F` after a command. -/
def discardsAfter (o : Out) : Option Nat :=
  match o with
  | .next u => some (u.ent 0x331F 257)
  | _ => none

theorem discardsAfter_next {o : Out} {u : State} {n : Nat} (h : discardsAfter o = some n) (hu : o = .next u) : u.ent 0x331F 257 = n := by
  rw [hu] at h
  exact Option.some.inj h

/-! ### Sessions -/

/-- A session whose last request was the first. -/
def asked : Session := { managing with last := some 1 }

/-- A repeat of that request is older than the window: its answer finds no route. -/
theorem asked_discards : discardsAfter (exec (.fdpRead 4 1 1 2 [0, 0, 0, 0]) (.inBand asked)) = some 1 := by decide +kernel

/-- Refutes O52, in its clause that an answer WINDOW leaves the entries beside the discard counters as they were: `asked_discards`. -/
theorem not_sessions : ¬ Obligations.Sessions := by
  unfold Obligations.Sessions
  intro h
  obtain ⟨-, -, -, -, -, -, hopen⟩ := h (.inBand asked) 4 1 1 0 0 0 0 0 0 0 [] 0 [0, 0, 0, 0] (inBand_reachable asked)
  obtain ⟨-, -, -, hwindow⟩ := hopen asked (inBand_session asked) (inBand_memory asked)
  obtain ⟨u, y, m, hu, -, -, -, -, -, -, -, -, hkept⟩ := hwindow rfl rfl rfl
  have hone := discardsAfter_next asked_discards hu
  rw [hkept 0x331F 257 (by decide)] at hone
  exact absurd hone (by decide +kernel)

/-! ### Reads -/

/-- The answer to a read of an entry that does not exist finds no route. -/
theorem strayRead_discards : discardsAfter (exec (.fdpRead 4 1 1 2 [0, 0, 0, 0]) (.inBand managing)) = some 1 := by decide +kernel

/-- Refutes O53, in its clause that an answer NO_ENTRY leaves the entries beside the discard counters as they were: `strayRead_discards`. -/
theorem not_dictionaryReads : ¬ Obligations.DictionaryReads := by
  unfold Obligations.DictionaryReads
  intro h
  obtain ⟨hnone, -⟩ := h (.inBand managing) 4 1 1 [0, 0, 0, 0] 0 0 0 0 managing (inBand_reachable managing) (inBand_session managing) rfl rfl rfl rfl
    (inBand_memory managing)
  obtain ⟨u, y, hu, -, -, -, hkept, -⟩ := hnone rfl rfl (by decide +kernel)
  have hone := discardsAfter_next strayRead_discards hu
  rw [hkept 0x331F 257 (by decide)] at hone
  exact absurd hone (by decide +kernel)

/-! ### The log -/

/-- One entry waits to be durable, and the answer to that session with it. -/
def answerDue : State :=
  let s := State.inBand managing
  { s with audit := { s.audit with made := 1, waiting := [([], .fdp 4 3 1 0)] } }

theorem answerDue_discards : discardsAfter (exec (.auditEntryDurable true) answerDue) = some 1 := by decide +kernel

/-- Refutes O54, in its clause that a durable entry leaves the entries beside the discard counters as they were: `answerDue_discards`. -/
theorem not_eventsAndLog : ¬ Obligations.EventsAndLog := by
  unfold Obligations.EventsAndLog
  intro h
  obtain ⟨-, hdurable, -⟩ := h answerDue (by decide) rfl
  obtain ⟨⟨u, hu, -, -, -, hkept, -⟩, -⟩ := hdurable [] (.fdp 4 3 1 0) [] rfl (by decide) rfl
  have hone := discardsAfter_next answerDue_discards hu
  rw [hkept 0x331F 257 (by decide)] at hone
  exact absurd hone (by decide +kernel)

end Sys2Proof.Machine
end

section
/-!
Samples (O42). The emission that fills a batch lands it, and the landing may be the increment that overflows its semaphore (R151): the run is aborted, and a
core that holds a page far beyond HBM lets it go, whose lookup counts, as in `not_systemAbort`, under the key of another entry: here the count of samples
emitted.
-/
namespace Sys2Proof.Machine
open Sys2Proof

/-- The entry of a page far beyond HBM, in a line whose die, as the cache counters number it, has stream 0's count of emitted samples, `0x6200:03`, for its
count of lookups. No gather holds such a page, but the statement is about every state. -/
def farEmitted : Nat := 159842448 * regionSize

/-- A rejected sample, with nothing for its slot. -/
def rejectedSample : Sample :=
  { number := 0, index := 0, reserve := false, attempts := 1, desc := [], replace := false, st := 1, at_ := 0, took := 0, instance_ := none, pipe := none,
    reason := 1, timedOut := false, valid := false, result := [], extents := (0, 0), rows := 0 }

/-- A batch just begun. -/
def newBatch : Batch :=
  { number := 0, full := false, delivered := false, emitted := 0, valid := 0, rejected := 0, rows := 0, mask := 0, replaced := false, timedOut := false }

/-- A run whose core 0 holds that page, with its landing semaphore 0 at its last value, and whose stream 0 is to emit that sample
as the last of its batch. The stream's batches have one slot and 64 bytes, lie at an address of no memory and land there (Table 11-12). -/
def fullRing : State :=
  (((({ State.reset with
    ctl := { State.reset.ctl with dev := .run, powered := true, filled := true }
    cores := [(0, { CoreS.reset with status := 2, landing := 1, sems := [(0, 0xFFFFFFFF)], moves := [holding farEmitted] })]
    mfe := { Mfe.reset with streams := [(0, { Stream.reset with on := true, window := [rejectedSample], batches := [newBatch] })] } }).setEnt 0x6100 7 (2 ^ 46)).setEnt 0x6100 0xA 1).setEnt 0x6100 0xB 64).setEnt
    0x6100 0xD 0xFFFFFFFFFFFF0000

/-- Stream 0's count of samples emitted, after a command. -/
def emittedAfter (o : Out) : Option Nat :=
  match o with
  | .next u => some (u.ent 0x6200 3)
  | _ => none

/-- The sample is counted, and with it the lookup that the abort of its landing brings. -/
theorem fullRing_counts_two : emittedAfter (exec (.sampleEmit 5 0) fullRing) = some 2 := by decide +kernel

/-- Refutes O42, in its clause that an emitted sample is counted once: `fullRing_counts_two`. -/
theorem not_mediaSamples : ¬ Obligations.MediaSamples := by
  unfold Obligations.MediaSamples
  intro h
  obtain ⟨-, -, -, hemit⟩ := h fullRing 5 0 (by decide) rfl ⟨rfl, fun x hx => nomatch hx⟩ rfl
  obtain ⟨u, hu, -, honce, -⟩ := hemit rejectedSample [] rfl rfl
  have htwo : some (u.ent 0x6200 3) = some 2 := by rw [← fullRing_counts_two, hu]; rfl
  have hzero : fullRing.ent 0x6200 3 = 0 := by decide +kernel
  have hone : u.ent 0x6200 3 = (fullRing.ent 0x6200 3 + 1) % 2 ^ 64 := honce
  rw [hone, hzero] at htwo
  exact absurd htwo (by decide)

end Sys2Proof.Machine
end

section
/-!
Encoding (O43). A frame past the capacity ends its command, whose landing may be the increment that overflows its semaphore (R151): the run is aborted, and
a core that holds a page far beyond HBM lets it go, whose lookup counts, as in `not_systemAbort`, under the key of another entry: here the count of frames
that the pipe has encoded.
-/
namespace Sys2Proof.Machine
open Sys2Proof

/-- The entry of a page far beyond HBM, in a line whose die, as the cache counters number it, has the count of frames that encode pipe 0 has encoded,
`0x6430:05`, for its count of lookups. No gather holds such a page, but the statement is about every state. -/
def farEncoded : Nat := 170164512 * regionSize

/-- A descriptor without capacity, whose clip record lies at an address of no memory, and which lands on semaphore 0 of core 0 (Table 12-4). -/
def landingClip : List Byte := le 48 0 ++ le 8 (2 ^ 46) ++ le 4 0 ++ le 4 (2 ^ 16)

/-- The context of that command, with a frame in a pipe. -/
def landingCtx : EncCtx :=
  { desc := landingClip, frames := 0, decoded := 0, size := none, waiting := none, coding := some ([], [], []), codingSize := none, ended := 0, qpI := 0,
    qpP := 0, largest := 0, start := 0, readyAt := 0, history := [] }

/-- A run whose core 0 holds that page, with its landing semaphore 0 at its last value, and whose pipe 0 encodes a frame of that context. -/
def fullClip : State :=
  { State.reset with
    ctl := { State.reset.ctl with dev := .run, powered := true, filled := true }
    cores := [(0, { CoreS.reset with status := 2, landing := 1, sems := [(0, 0xFFFFFFFF)], moves := [holding farEncoded] })]
    video := { Video.reset with ctxs := [(0, some landingCtx)], encode := [some 0, none] } }

/-- Whatever the frame's bytes are, one past the capacity ends the command with status 2 (R370). -/
theorem frameDone_past {c : Nat} {x : EncCtx} (h : evCapacity x.desc < 256) (s : State) (f : List Nat × List Nat × List Nat) :
    frameDone s c x f = endEncode s c x 2 := by
  unfold frameDone
  dsimp only
  rw [if_pos (by omega)]

/-- The state in which the pipe is free and its frame counted, and the command ends. -/
def clipEnds : State :=
  endEncode ({ fullClip with now := 5, video := { fullClip.video with encode := [none, none] } }.addEnt 0x6430 5 1) 0 landingCtx 2

theorem fullClip_ends : exec (.encodeFrameDone 5 0) fullClip = .next (takeBoth clipEnds 0) := by
  change (.next (takeBoth (frameDone _ 0 landingCtx ([], [], [])) 0) : Out) = _
  rw [frameDone_past (by decide +kernel)]
  rfl

/-- The count of frames that encode pipe 0 has encoded, after a command. -/
def encodedAfter (o : Out) : Option Nat :=
  match o with
  | .next u => some (u.ent 0x6430 5)
  | _ => none

theorem clipEnds_counts_two : encodedAfter (.next (takeBoth clipEnds 0)) = some 2 := by decide +kernel

/-- The frame is counted, and with it the lookup that the abort of the landing brings. -/
theorem fullClip_counts_two : encodedAfter (exec (.encodeFrameDone 5 0) fullClip) = some 2 := by rw [fullClip_ends, clipEnds_counts_two]

/-- Refutes O43, in its clause that an encoded frame is counted once: `fullClip_counts_two`. -/
theorem not_videoEncoding : ¬ Obligations.VideoEncoding := by
  unfold Obligations.VideoEncoding
  intro h
  obtain ⟨-, -, -, hencoded⟩ := h fullClip 5 ⟨rfl, fun x hx => nomatch hx⟩ rfl
  obtain ⟨u, hu, -, honce, -⟩ := hencoded 0 0 landingCtx ([], [], []) (by decide) rfl rfl rfl
  have htwo : some (u.ent 0x6430 5) = some 2 := by rw [← fullClip_counts_two, hu]; rfl
  have hzero : fullClip.ent 0x6430 5 = 0 := by decide +kernel
  have hone : u.ent 0x6430 5 = (fullClip.ent 0x6430 5 + 1) % 2 ^ 64 := honce
  rw [hone, hzero] at htwo
  exact absurd htwo (by decide)

end Sys2Proof.Machine
end

section
/-!
SUPPORT. What a session's write comes to (R434, R437, R457): the entry's own effect on the state in which Galena takes it up, one audit entry more, and
its answer behind that.
-/
namespace Sys2Proof.Machine
open Sys2Proof

/-- The state in which Galena takes up a session's write: later, with the request noted and its record taken from the host messages. -/
def State.takenUp (s : State) (t : FTime) (f : Fdp) (g : List (W16 × List Byte)) (k : Option (FTime × Nat)) : State :=
  { s with now := t, fdp := f, links := { s.links with galenaIn := g }, audit := { s.audit with taken := k } }

/-- The session with a request noted. -/
def Session.noting (x : Session) (t : FTime) (req : W32) : Session :=
  { x with lastRx := t, last := some req, kept := ((req, none) :: x.kept).take 64 }

/-- The request of a session's write is executed, and leaves the module else as it was. -/
theorem sessionWrite_requests {s : State} {slot : Fin 8} {req : W32} {ver : Byte} {t : FTime} (h : SessionWrite s slot req ver t) :
    ∃ x y f g, s.session slot = some x ∧ y.sid = x.sid ∧
      request { s with now := t } slot.val opWrite req (some ver) =
        ({ s with now := t, fdp := f, links := { s.links with galenaIn := g } }, some y) := by
  obtain ⟨x, hx, hver, hdead, hnew, hfresh⟩ := h.session
  have hx' : State.session { s with now := t } slot.val = some x := hx
  have hup : reachable { s with now := t } slot.val = true := h.reachable
  obtain ⟨g, hg⟩ : ∃ g, takeRecord { s with now := t } slot.val x.channel = { s with now := t, links := { s.links with galenaIn := g } } := by
    unfold takeRecord
    split
    · exact ⟨s.links.galenaIn, rfl⟩
    · exact ⟨_, rfl⟩
  refine ⟨x, x.noting t req, { s.fdp with sessions := sset none s.fdp.sessions slot.val (some (x.noting t req)) }, g, hx, rfl, ?_⟩
  unfold request Session.noting
  rw [hx']
  dsimp only
  rw [hup, h.memory, hg]
  dsimp only
  rw [hfresh]
  dsimp only
  rw [hnew, hdead, hver]
  simp only [Bool.not_true, Bool.false_eq_true, if_false, ne_eq, not_true, decide_false, Bool.or_false]
  rfl

/-- A write of a session that names no descriptor is applied at once. -/
theorem sessionWrite_applies {s : State} {slot : Fin 8} {req : W32} {ver : Byte} {t : FTime} (h : SessionWrite s slot req ver t) {index sub : Nat}
    {b : List Byte} (hplain : ¬ (isRegionWrite index sub = true ∨ (index = 0x6410 ∧ sub = 1))) :
    ∃ x f g k w, s.session slot = some x ∧ w.o = .fdp slot req ver ∧ w.sid = x.sid ∧
      writeCommand (.fdp slot req ver) t index sub b s = .next (logWrite (writeEntry (s.takenUp t f g k) (.fdp slot req ver) index sub b []).2 w
        (oldValue (s.takenUp t f g k) index sub) (writeEntry (s.takenUp t f g k) (.fdp slot req ver) index sub b []).1) := by
  obtain ⟨x, y, f, g, hx, hsid, hreq⟩ := sessionWrite_requests h
  obtain ⟨hfailed, hroom, hheld⟩ := h.log
  have hcopy : ∀ s, copyOf s index sub b = none := fun s => if_neg hplain
  have hread : ∀ s, copyRead s index sub b = s := fun s => by
    unfold copyRead
    rw [hcopy]
    rfl
  have hregion : isRegionWrite index sub = false := Bool.eq_false_iff.2 fun hr => hplain (.inl hr)
  refine ⟨x, f, g, some (t, slotRank slot.val),
    { o := .fdp slot req ver, index := index, sub := sub, value := b, moveId := 0, sid := y.sid, source := if slot.val < 4 then 0 else y.port.val,
      print := y.fingerprint, copy := none }, hx, rfl, hsid, ?_⟩
  unfold writeCommand atTime
  rw [if_pos h.time]
  dsimp only
  rw [if_neg (by rw [h.order]; decide), hreq]
  dsimp only
  rw [hread]
  unfold arriveAccess
  dsimp only
  rw [hheld]
  unfold runHeld
  dsimp only [insertHeld, takeAll]
  have hwaits : accessWaits { s with now := t, fdp := f, links := { s.links with galenaIn := g }, audit := { s.audit with held := [] } } (.write
      { o := .fdp slot req ver, index := index, sub := sub, value := b, moveId := 0, sid := y.sid, source := if slot.val < 4 then 0 else y.port.val,
        print := y.fingerprint, copy := copyOf { s with now := t, fdp := f, links := { s.links with galenaIn := g } } index sub b }) = false := by
    unfold accessWaits writeWaits
    dsimp only
    rw [hfailed, hregion, decide_eq_false (by omega)]
    rfl
  rw [if_neg (by rw [hwaits]; decide)]
  unfold takeAccess noteTaken
  dsimp only
  rw [if_neg (by rw [hfailed]; decide), hcopy]
  unfold applyWrite
  dsimp only
  have hsame : s.takenUp t f g (some (t, slotRank slot.val)) = { s with
      now := t
      fdp := f
      links := { s.links with galenaIn := g }
      audit := { s.audit with held := [], taken := some (t, slotRank slot.val) } } := by
    unfold State.takenUp
    rw [← hheld]
  rw [hsame]
  rfl

/-- A session's write that names no descriptor ends with the status that its entry gives it, logged, in the state that its entry leaves. -/
theorem sessionWrite_gives {s : State} {slot : Fin 8} {req : W32} {ver : Byte} {t : FTime} (h : SessionWrite s slot req ver t) {i : Instr}
    {index sub : Nat} {b : List Byte} (hi : exec i s = writeCommand (.fdp slot req ver) t index sub b s)
    (hplain : ¬ (isRegionWrite index sub = true ∨ (index = 0x6410 ∧ sub = 1))) {status : Nat} {P : State → Prop}
    (hentry : ∀ f g k, ∃ r, writeEntry (s.takenUp t f g k) (.fdp slot req ver) index sub b [] = (status, r) ∧ ∀ a, P { r with audit := a }) :
    Gives s i slot req status P := by
  obtain ⟨x, f, g, k, w, hx, ho, hsid, hrun⟩ := sessionWrite_applies h (b := b) hplain
  obtain ⟨r, hr, hP⟩ := hentry f g k
  have haudit : r.audit = { s.audit with taken := k } := by
    have hkept := (writeEntry_quiet (s.takenUp t f g k) (.fdp slot req ver) index sub b []).2
    rwa [hr] at hkept
  rw [hr] at hrun
  refine ⟨_, hi.trans hrun, ?_, hP _⟩
  unfold Logged logWrite
  dsimp only
  rw [haudit, ho, hsid]
  exact ⟨rfl, _, x, hx, rfl, field_auditHead_seq ..⟩

/-- What a write's checks let through is up to the entry. -/
theorem writeEntry_applies {s : State} {o : Origin} {index sub : Nat} {b : List Byte} {e : EntryDef} (he : entryOf index sub = some e)
    (hlength : lengthOk e b.length = true) (hro : e.acc ≠ .ro) (hconst : e.acc ≠ .const) (hrws : e.acc ≠ .rws)
    (hwriter : Nat.testBit e.writers (classBit o) = true) (hvalue : valueOk e b = true) :
    writeEntry s o index sub b [] = applyEntry s o index sub b [] := by
  have hcheck : checkWrite s o e b = none := by
    unfold checkWrite
    rw [hlength, hwriter, hvalue]
    simp [hro, hconst, hrws]
  unfold writeEntry
  rw [he]
  dsimp only
  rw [hcheck]

/-- A write of a session whose class the entry does not name is refused. -/
theorem writeEntry_originator {s : State} {o : Origin} {index sub : Nat} {b : List Byte} {e : EntryDef} (he : entryOf index sub = some e)
    (hlength : lengthOk e b.length = true) (hro : e.acc ≠ .ro) (hconst : e.acc ≠ .const)
    (hwriter : Nat.testBit e.writers (classBit o) = false) : writeEntry s o index sub b [] = (stOriginator, s) := by
  have hcheck : checkWrite s o e b = some stOriginator := by
    unfold checkWrite
    rw [hlength, hwriter]
    simp [hro, hconst]
  unfold writeEntry
  rw [he]
  dsimp only
  rw [hcheck]

/-- Sessions of class M and H may write an entry that names both. -/
theorem classBit_fdp_of_both (slot : Fin 8) (req : W32) (ver : Byte) : Nat.testBit 3 (classBit (.fdp slot req ver)) = true := by
  unfold classBit
  dsimp only
  split <;> rfl

/-- A state that a refused write leaves, once it is logged. -/
theorem untouched_takenUp (s : State) (t : FTime) (f : Fdp) (g : List (W16 × List Byte)) (k : Option (FTime × Nat)) (a : Audit) :
    Untouched s { s.takenUp t f g k with audit := a } :=
  ⟨rfl, rfl, rfl, rfl, rfl, rfl, rfl, rfl, rfl, rfl, rfl, rfl, rfl, rfl, rfl, rfl⟩

/-- A write that its entry refuses is logged, and leaves the rest alone. -/
theorem sessionWrite_refuses {s : State} {slot : Fin 8} {req : W32} {ver : Byte} {t : FTime} (h : SessionWrite s slot req ver t) {i : Instr}
    {index sub : Nat} {b : List Byte} (hi : exec i s = writeCommand (.fdp slot req ver) t index sub b s)
    (hplain : ¬ (isRegionWrite index sub = true ∨ (index = 0x6410 ∧ sub = 1))) {status : Nat}
    (hentry : ∀ f g k, writeEntry (s.takenUp t f g k) (.fdp slot req ver) index sub b [] = (status, s.takenUp t f g k)) :
    Gives s i slot req status (Untouched s) :=
  sessionWrite_gives h hi hplain fun f g k => ⟨_, hentry f g k, untouched_takenUp s t f g k⟩

end Sys2Proof.Machine
end

section
/-!
Attestation (O50): the body of a report by its fields, and Flint's signatures.
-/
namespace Sys2Proof.Machine
open Sys2Proof

/-- The bytes of a report's body before its nonce (Table 16-2). -/
def reportLead (s : State) : List Byte :=
  le 1 1 ++ le 1 0 ++ le 2 s.device ++ le 1 (s.ent 0x1008 1) ++ le 1 s.ctl.dev.code ++ padTo 2 (s.oct 0x1000 4) ++ padTo 16 (s.oct 0x1000 3)

theorem length_reportLead (s : State) : (reportLead s).length = 24 := by simp [reportLead]

/-- A report's body: what stands before the nonce, the nonce, the fabric time, and the rest. -/
theorem reportBody_eq (s : State) (nonce : List Byte) :
    ∃ rest, reportBody s nonce = padTo 512 (reportLead s ++ (padTo 32 nonce ++ (le 8 s.now.toNat ++ rest))) := by
  unfold reportBody reportLead
  simp only [List.append_assoc]
  exact ⟨_, rfl⟩

/-- The middle of three byte strings, where it lies within the length that they are brought to. -/
theorem slice_padTo_middle {m : Nat} {a b : List Byte} (h : a.length + b.length ≤ m) (c : List Byte) :
    slice (padTo m (a ++ (b ++ c))) a.length b.length = b := by
  unfold slice padTo
  rw [List.take_append, List.take_of_length_le (l := a) (by omega), List.append_assoc, List.drop_left, List.take_append (l₁ := b),
    List.take_of_length_le (l := b) (by omega), List.append_assoc, List.take_left]

theorem field_reportLead (s : State) : field (reportLead s) 0 1 = 1 ∧ field (reportLead s) 2 2 = s.device % 65536 := by
  unfold reportLead
  simp only [List.append_assoc]
  refine ⟨field_le_append 1 1 _, ?_⟩
  rw [field_append_of_le (by simp), field_append_of_le (by simp)]
  simpa using field_le_append 2 s.device _

theorem reportBody_fields (s : State) {nonce : List Byte} (h : nonce.length = 32) :
    (reportBody s nonce).length = 512 ∧ field (reportBody s nonce) 0 1 = 1 ∧ field (reportBody s nonce) 2 2 = s.device % 65536 ∧
      slice (reportBody s nonce) 24 32 = nonce ∧ field (reportBody s nonce) 56 8 = s.now.toNat := by
  obtain ⟨rest, hbody⟩ := reportBody_eq s nonce
  have hlead := length_reportLead s
  obtain ⟨hversion, hdevice⟩ := field_reportLead s
  rw [padTo_of_length h] at hbody
  rw [hbody]
  refine ⟨length_padTo .., ?_, ?_, ?_, ?_⟩
  · rw [field_padTo (by decide), field_append_of_lt (by omega), hversion]
  · rw [field_padTo (by decide), field_append_of_lt (by omega), hdevice]
  · rw [← hlead, ← h]
    exact slice_padTo_middle (by omega) _
  · rw [field_padTo (by decide), field_append_of_le (by omega), field_append_of_le (by omega), hlead, h]
    rw [field_le_append]
    exact Nat.mod_eq_of_lt s.now.isLt

/-- A report request that no report is pending before fills the body, and Flint, when idle, signs it. -/
theorem requestReport_fills {s : State} {nonce : List Byte} (h : s.trust.reportBody = none) :
    ∃ r, requestReport s nonce = (stOk, r) ∧ r.ent 0x8120 2 = 1 ∧ r.trust.reportBody = some (reportBody (s.setEnt 0x8120 2 1) nonce) ∧
      (s.trust.signing = 0 → s.audit.unsigned = [] → r.trust.signing = 2) := by
  unfold requestReport
  rw [h]
  refine ⟨_, rfl, ?_, ?_, fun hidle hnone => ?_⟩
  · unfold wakeFlint nextSigning
    split <;> exact s.ent_setEnt_self 0x8120 2 1
  · unfold wakeFlint nextSigning
    split <;> rfl
  · unfold wakeFlint nextSigning
    refine (congrArg (fun s : State => s.trust.signing) (if_pos hidle)).trans ?_
    change (if s.audit.unsigned ≠ [] then 1 else 2) = 2
    rw [hnone]
    rfl

theorem requestReport_pending {s : State} (nonce : List Byte) (h : s.trust.reportBody.isSome = true) : requestReport s nonce = (stState, s) :=
  if_pos h

/-- A signature pair has the length of its two signatures (R470). -/
theorem length_signPair (s : State) (b : List Byte) : (signPair s b).1.length = 16608 := by
  unfold signPair
  simp

/-- Settles O50: a request by `requestReport_fills` and `reportBody_fields`, the signatures by `length_signPair`. -/
theorem attestation : Obligations.Attestation := by
  unfold Obligations.Attestation
  refine fun s => ⟨?_, fun b hb hsigning => ?_, fun n head r hun hsigning => ?_⟩
  · intro slot req ver t nonce hw hn i
    have happly : ∀ f g k, writeEntry (s.takenUp t f g k) (.fdp slot req ver) 0x8120 1 nonce [] = requestReport (s.takenUp t f g k) nonce := fun f g k =>
      writeEntry_applies (e := (entryOf 0x8120 1).get (by decide)) (by decide) (by rw [hn]; decide) (by decide) (by decide) (by decide)
        (classBit_fdp_of_both slot req ver) rfl
    constructor
    · intro hnone
      refine sessionWrite_gives (index := 0x8120) (sub := 1) (b := nonce) hw rfl (by decide) fun f g k => ?_
      obtain ⟨r, hr, hent, hbody, hsigns⟩ := requestReport_fills (s := s.takenUp t f g k) (nonce := nonce) hnone
      obtain ⟨hlength, hversion, hdevice, hnonce, htime⟩ := reportBody_fields ((s.takenUp t f g k).setEnt 0x8120 2 1) hn
      have hsame : ((s.takenUp t f g k).setEnt 0x8120 2 1).device = s.device := State.ent_setEnt_ne _ _ _ _ _ _ (by decide)
      rw [hsame] at hdevice
      exact ⟨r, (happly f g k).trans hr, fun a => ⟨hent, _, hbody, hlength, hversion, hdevice, hnonce, htime, hsigns⟩⟩
    · exact fun hpending => sessionWrite_refuses (index := 0x8120) (sub := 1) (b := nonce) hw rfl (by decide) fun f g k =>
        (happly f g k).trans (requestReport_pending nonce hpending)
  · have hrun : exec .reportReady s = .next (nextSigning { ((signPair s b).2.setEnt 0x8120 2 2) with
        trust := { (signPair s b).2.trust with reportBody := none, report := b ++ (signPair s b).1 } }) := by
      change execReportReady s = _
      unfold execReportReady
      rw [hb]
      dsimp only
      rw [if_pos hsigning]
    exact ⟨_, _, hrun, rfl, length_signPair s b, rfl, State.ent_setEnt_self _ 0x8120 2 2⟩
  · have hrun : exec .checkpointSignatureDone s = .next (nextSigning (State.raise { (signPair s head).2 with
        audit := { (signPair s head).2.audit with
          unsigned := r
          checkpoints := ((n, head ++ (signPair s head).1) :: s.audit.checkpoints).take 257 } } 0x8303 [])) := by
      change execCheckpointSignatureDone s = _
      unfold execCheckpointSignatureDone
      rw [hun]
      dsimp only
      rw [if_pos hsigning]
      rfl
    exact ⟨_, _, hrun, length_signPair s head, rfl, rfl, _, rfl, rfl⟩

end Sys2Proof.Machine
end

section
/-!
Owner and firmware (O51): what each command does once the checks of its entry let it through.
-/
namespace Sys2Proof.Machine
open Sys2Proof

/-! ### The owner (R480, R481) -/

theorem standbyOrReady_iff (s : State) : standbyOrReady s = true ↔ s.ctl.dev = .standby ∨ s.ctl.dev = .ready := decide_eq_true_iff

theorem standbyOrReady_eq_false {s : State} (h : ¬ (s.ctl.dev = .standby ∨ s.ctl.dev = .ready)) : standbyOrReady s = false := decide_eq_false h

theorem enrollOwner_takes {s : State} (hquiet : s.ctl.dev = .standby ∨ s.ctl.dev = .ready) (hfree : s.ent 0x8130 7 ≠ 1) :
    ∃ r, enrollOwner s = (stOk, r) ∧ r.ent 0x8130 7 = 1 ∧ r.trust.owner = s.oct 0x8130 1 ++ s.oct 0x8130 2 := by
  unfold enrollOwner owned
  rw [(standbyOrReady_iff s).2 hquiet, decide_eq_false hfree]
  exact ⟨_, rfl, s.ent_setEnt_self 0x8130 7 1, rfl⟩

theorem enrollOwner_refuses {s : State} (h : ¬ (s.ctl.dev = .standby ∨ s.ctl.dev = .ready) ∨ s.ent 0x8130 7 = 1) : enrollOwner s = (stState, s) := by
  refine if_pos ?_
  rw [Bool.or_eq_true, Bool.not_eq_true']
  exact h.imp standbyOrReady_eq_false fun h => decide_eq_true h

theorem newChallenge_draws (s : State) :
    ∃ r, newChallenge s = (stOk, r) ∧ r.trust.challengeLive = true ∧ r.oct 0x8130 4 = padTo 32 (Config.random32 s.trust.draws) ∧
      r.trust.draws = s.trust.draws + 1 := by
  refine ⟨_, rfl, rfl, ?_, rfl⟩
  have hset : State.oct (s.setOct 0x8130 4 (padTo 32 (Config.random32 s.trust.draws))) 0x8130 4 =
      padTo 32 (padTo 32 (Config.random32 s.trust.draws)) := by
    unfold State.oct State.setOct
    dsimp only
    rw [sget_sset, if_pos rfl]
    rfl
  exact hset.trans (padTo_of_length (length_padTo ..))

theorem releaseOwner_refuses {s : State} (h : ¬ (s.ctl.dev = .standby ∨ s.ctl.dev = .ready) ∨ s.ent 0x8130 7 ≠ 1) : releaseOwner s = (stState, s) := by
  refine if_pos ?_
  rw [Bool.or_eq_true, Bool.not_eq_true', Bool.not_eq_true']
  exact h.imp standbyOrReady_eq_false fun h => decide_eq_false h

/-- Both signatures of the token hold over serial number and challenge, which has not served a RELEASE. -/
structure OwnerSigned (s : State) : Prop where
  live : s.trust.challengeLive = true
  rsa : Config.rsaVerifies (s.trust.owner.take 384) (padTo 48 (Config.sha384 (s.oct 0x1000 3 ++ s.oct 0x8130 4)))
    ((sread 0 s.trust.token 0 16608).take 384) = true
  slh : Config.slhVerifies (s.trust.owner.drop 384) (padTo 48 (Config.sha384 (s.oct 0x1000 3 ++ s.oct 0x8130 4)))
    ((sread 0 s.trust.token 0 16608).drop 384) = true

/-- A RELEASE spends the challenge; with both signatures it ends the ownership, and without them it raises SIG_FAIL. -/
theorem releaseOwner_spends {s : State} (hquiet : s.ctl.dev = .standby ∨ s.ctl.dev = .ready) (howned : s.ent 0x8130 7 = 1) :
    ∃ st r, releaseOwner s = (st, r) ∧ r.trust.challengeLive = false ∧
      (OwnerSigned s → st = stOk ∧ r.ent 0x8130 7 = 0 ∧ r.trust.owner = []) ∧
      (¬ OwnerSigned s → st = stRange ∧ r.dict = s.dict ∧ r.trust.owner = s.trust.owner ∧ ∃ e, r.ev.raised = s.ev.raised ++ [e] ∧ e.code = 0x8201) := by
  unfold releaseOwner owned
  rw [(standbyOrReady_iff s).2 hquiet, decide_eq_true howned]
  dsimp only
  rw [if_neg (by decide)]
  split
  case isTrue hboth =>
    refine ⟨_, _, rfl, rfl, fun _ => ⟨rfl, State.ent_setEnt_self _ 0x8130 7 0, rfl⟩, fun hnot => absurd ?_ hnot⟩
    simp only [Bool.and_eq_true] at hboth
    obtain ⟨⟨hlive, hrsa⟩, -, hslh⟩ := hboth
    exact ⟨hlive, hrsa, hslh⟩
  case isFalse hnot =>
    refine ⟨_, _, rfl, rfl, fun ⟨hlive, hrsa, hslh⟩ => absurd ?_ hnot, fun _ => ⟨rfl, rfl, rfl, _, rfl, rfl⟩⟩
    simp only [Bool.and_eq_true]
    exact ⟨⟨hlive, hrsa⟩, hlive, hslh⟩

/-! ### Installs (R484, R485) -/

/-- The length is that of an image, and one in HBM lies there. -/
structure InstallFits (s : State) : Prop where
  least : 16800 ≤ s.ent 0x8140 5
  most : s.ent 0x8140 5 ≤ 16793952
  inside : s.ent 0x8140 3 = 0 ∨ s.ent 0x8140 3 + s.ent 0x8140 5 ≤ hbmSize

theorem installFits_iff (s : State) :
    InstallFits s ↔ ¬ (s.ent 0x8140 5 < 16800 ∨ 16793952 < s.ent 0x8140 5 ∨ (s.ent 0x8140 3 ≠ 0 ∧ inHbm (s.ent 0x8140 3) (s.ent 0x8140 5) = false)) := by
  unfold inHbm
  rw [decide_eq_false_iff_not]
  constructor
  · rintro ⟨hleast, hmost, hinside⟩
    omega
  · intro h
    exact ⟨by omega, by omega, by omega⟩

/-- The image that an INSTALL takes: from the chunks, or from HBM. -/
def installImage (s : State) : List Byte :=
  if s.ent 0x8140 3 = 0 then sread 0 s.trust.chunks 0 (s.ent 0x8140 5) else hread s (s.ent 0x8140 3) (s.ent 0x8140 5)

theorem startInstall_takes {s : State} (hstate : installs s = true) (hfree : s.trust.install = none) (hfits : InstallFits s) :
    ∃ r, startInstall s = (stOk, r) ∧ r.ent 0x8140 6 = 1 ∧ r.trust.install = some (field (installImage s) 5 1, installImage s) := by
  unfold startInstall installImage
  dsimp only
  rw [hstate, hfree, if_neg (by decide), if_neg ((installFits_iff s).1 hfits)]
  refine ⟨_, rfl, State.ent_setEnt_self _ 0x8140 6 1, ?_⟩
  by_cases hchunks : s.ent 0x8140 3 = 0
  · simp only [if_pos hchunks]
  · simp only [if_neg hchunks]
    rfl

theorem startInstall_refuses {s : State} (h : installs s = false ∨ s.trust.install ≠ none) : startInstall s = (stState, s) := by
  refine if_pos ?_
  rw [Bool.or_eq_true, Bool.not_eq_true']
  exact h.imp id Option.isSome_iff_ne_none.2

theorem startInstall_unfit {s : State} (hstate : installs s = true) (hfree : s.trust.install = none) (hunfit : ¬ InstallFits s) :
    startInstall s = (stRange, s) := by
  unfold startInstall
  dsimp only
  rw [hstate, hfree, if_neg (by decide), if_pos (Classical.not_not.1 fun h => hunfit ((installFits_iff s).2 h))]

theorem imageSource_names {s : State} {v : Nat} (h : v = 0 ∨ hbmInstalls s = true) : imageSource s v = (stOk, s.setEnt 0x8140 3 v) := if_pos h

theorem imageSource_refuses {s : State} {v : Nat} (hv : v ≠ 0) (h : hbmInstalls s = false) : imageSource s v = (stState, s) :=
  if_neg (by rw [h]; simp [hv])

/-- The slot of a kind that is not active, and of a kind that is being started the one that the start does not try first. -/
theorem spareSlot_spec (s : State) (k : Nat) :
    spareSlot s k < 2 ∧ (sget none s.trust.startSlots k = none → spareSlot s k ≠ s.ent 0x8200 (k + 5) ∧
      (s.ent 0x8200 (k + 5) ≠ 0 → s.ent 0x8200 (k + 5) ≠ 1 → spareSlot s k = 1 - s.ent 0x8200 k)) ∧
      ∀ m, sget none s.trust.startSlots k = some m → spareSlot s k = 1 - m := by
  unfold spareSlot
  cases sget none s.trust.startSlots k with
  | none =>
    dsimp only
    refine ⟨by split_ifs <;> omega, fun _ => ⟨by split_ifs <;> omega, fun h0 h1 => ?_⟩, fun m hm => nomatch hm⟩
    rw [if_neg h0, if_neg h1]
  | some m =>
    refine ⟨by change 1 - m < 2; omega, fun h => absurd h (by simp), fun n hn => ?_⟩
    cases hn
    rfl

/-- An image is valid for a kind (R472): of one of the five, and without a failure. -/
def ImageValid (s : State) (k : Nat) (b : List Byte) : Prop := 1 ≤ k ∧ k ≤ 5 ∧ imageFailure s b k = 0

/-- The failure bits that an INSTALL reports. -/
def installFailure (s : State) (k : Nat) (b : List Byte) : Nat :=
  if 1 ≤ k ∧ k ≤ 5 then imageFailure s b k else imageFailure s b k % 4 + 4

theorem installFailure_eq_zero_iff (s : State) (k : Nat) (b : List Byte) : installFailure s k b = 0 ↔ ImageValid s k b := by
  unfold installFailure ImageValid
  split_ifs with hk
  · exact ⟨fun h => ⟨hk.1, hk.2, h⟩, fun ⟨_, _, h⟩ => h⟩
  · exact ⟨fun h => h.elim, fun ⟨h1, h5, _⟩ => absurd ⟨h1, h5⟩ hk⟩

theorem execInstallDone_eq {s : State} {k : Nat} {b : List Byte} (h : s.trust.install = some (k, b)) :
    execInstallDone s =
      let t : State := { s with trust := { s.trust with install := none } }
      if installFailure s k b = 0 then
        .next { ((t.setEnt 0x8200 k (spareSlot s k)).setEnt 0x8140 6 2) with
          trust := { t.trust with images := sset [] s.trust.images (k * 4 + spareSlot s k) b }
          ctl := { s.ctl with missing := s.ctl.missing.filter fun j => decide (j ≠ k) } }
      else .next (sigFail (t.setEnt 0x8140 6 3) 8 0xFF (installFailure s k b)) := by
  unfold execInstallDone
  rw [h]
  rfl

/-- An image checked is in its slot if it is valid, and reported if it is not. -/
theorem installDone_checks {s : State} {k : Nat} {b : List Byte} (h : s.trust.install = some (k, b)) :
    ∃ u, execInstallDone s = .next u ∧ u.trust.install = none ∧
      (ImageValid s k b → u.ent 0x8140 6 = 2 ∧ u.ent 0x8200 k = spareSlot s k ∧ sget [] u.trust.images (k * 4 + spareSlot s k) = b ∧
        k ∉ u.ctl.missing ∧ ∀ j, j ≠ k * 4 + spareSlot s k → sget [] u.trust.images j = sget [] s.trust.images j) ∧
      (¬ ImageValid s k b → u.ent 0x8140 6 = 3 ∧ u.trust.images = s.trust.images ∧ ∃ e, u.ev.raised = s.ev.raised ++ [e] ∧ e.code = 0x8201) := by
  rw [execInstallDone_eq h]
  dsimp only
  by_cases hvalid : ImageValid s k b
  · have hother : ekey 0x8200 k ≠ ekey 0x8140 6 := by unfold ekey; omega
    rw [if_pos ((installFailure_eq_zero_iff s k b).2 hvalid)]
    refine ⟨_, rfl, rfl, fun _ => ⟨State.ent_setEnt_self _ 0x8140 6 2, ?_, ?_, ?_, fun j hj => ?_⟩, fun hnot => absurd hvalid hnot⟩
    · exact (State.ent_setEnt_ne (State.setEnt _ 0x8200 k (spareSlot s k)) 0x8140 6 2 _ _ hother).trans (State.ent_setEnt_self _ 0x8200 k _)
    · exact (sget_sset ..).trans (if_pos rfl)
    · simp
    · exact (sget_sset ..).trans (if_neg hj)
  · rw [if_neg fun hzero => hvalid ((installFailure_eq_zero_iff s k b).1 hzero)]
    exact ⟨_, rfl, rfl, fun h => absurd h hvalid, fun _ => ⟨State.ent_setEnt_self _ 0x8140 6 3, rfl, _, rfl, rfl⟩⟩

/-! ### Floors and restarts (R486, R487) -/

/-- The security version of the image of the kind selected that is active. -/
def activeSecurity (s : State) : Nat := imageSecurity (imageBytes s (s.ent 0x8140 7) (s.ent 0x8200 (s.ent 0x8140 7 + 5)))

theorem raiseFloor_raises {s : State} {o : Origin} (hm : isM o = true) (hquiet : s.ctl.dev = .standby ∨ s.ctl.dev = .ready)
    (hactive : s.ent 0x8200 (s.ent 0x8140 7 + 5) ≠ 0xFF) :
    ∃ r, raiseFloor s o = (stOk, r) ∧ s.ent 0x8200 (s.ent 0x8140 7 + 10) ≤ r.ent 0x8200 (s.ent 0x8140 7 + 10) ∧
      activeSecurity s ≤ r.ent 0x8200 (s.ent 0x8140 7 + 10) ∧ r.trust = s.trust := by
  unfold raiseFloor
  dsimp only
  rw [hm, (standbyOrReady_iff s).2 hquiet, decide_eq_false hactive]
  refine ⟨_, rfl, ?_, ?_, rfl⟩
  · rw [State.ent_setEnt_self]
    exact Nat.le_max_left ..
  · rw [State.ent_setEnt_self]
    exact Nat.le_max_right ..

theorem raiseFloor_refuses {s : State} {o : Origin} (hm : isM o = true)
    (h : ¬ (s.ctl.dev = .standby ∨ s.ctl.dev = .ready) ∨ s.ent 0x8200 (s.ent 0x8140 7 + 5) = 0xFF) : raiseFloor s o = (stState, s) := by
  unfold raiseFloor
  dsimp only
  rw [hm, if_neg (by decide), if_pos]
  rw [Bool.or_eq_true, Bool.not_eq_true']
  exact h.imp standbyOrReady_eq_false fun h => decide_eq_true h

/-- Trying slots leaves sessions and device state alone. -/
theorem trySlots_sessions (kind : Nat) (l : List Nat) (s : State) :
    (trySlots kind l s).1.fdp.sessions = s.fdp.sessions ∧ (trySlots kind l s).1.ctl.dev = s.ctl.dev := by
  induction l generalizing s with
  | nil => exact ⟨rfl, rfl⟩
  | cons slot l ih =>
    unfold trySlots
    dsimp only
    split
    · exact ⟨rfl, rfl⟩
    · exact ih _

theorem galenaStarts_closes (s : State) : (galenaStarts s).fdp.sessions = [] ∧ (galenaStarts s).ctl.dev = s.ctl.dev := by
  unfold galenaStarts selectImage
  obtain ⟨hsessions, hdev⟩ := trySlots_sessions 1
    ([startSlot { s with fdp := { s.fdp with sessions := [] } } 1, 1 - startSlot { s with fdp := { s.fdp with sessions := [] } } 1] ++ [2])
    { s with fdp := { s.fdp with sessions := [] } }
  dsimp only
  rw [if_pos rfl]
  split
  · exact ⟨hsessions, hdev⟩
  · exact ⟨hsessions, hdev⟩

theorem restartGalena_closes {s : State} (h : s.ctl.dev = .standby) :
    ∃ r, restartGalena s = (stOk, r) ∧ r.fdp.sessions = [] ∧ r.ctl.dev = .standby := by
  obtain ⟨hsessions, hdev⟩ := galenaStarts_closes s
  exact ⟨_, if_neg (not_not.2 h), hsessions, hdev.trans h⟩

/-! ### The commands -/

section
variable {s : State} {slot : Fin 8} {req : W32} {ver : Byte}

theorem classBit_fdp_of_managing (hslot : slot.val < 4) : classBit (.fdp slot req ver) = 1 := if_pos hslot
theorem classBit_fdp_of_host (hslot : 4 ≤ slot.val) : classBit (.fdp slot req ver) = 0 := if_neg (by omega)

/-- A write of `0x8130:03` by a session of class M is an owner command. -/
theorem writeEntry_owner (hslot : slot.val < 4) {v : Byte} (h1 : 1 ≤ v.toNat) (h3 : v.toNat ≤ 3) :
    writeEntry s (.fdp slot req ver) 0x8130 3 [v] [] = ownerCommand s v.toNat := by
  refine (writeEntry_applies (e := (entryOf 0x8130 3).get (by decide)) (by decide) rfl (by decide) (by decide) (by decide) ?_ ?_).trans rfl
  · rw [classBit_fdp_of_managing hslot]
    decide
  · exact decide_eq_true ⟨h1, h3⟩

theorem writeEntry_owner_host (hslot : 4 ≤ slot.val) (v : Byte) : writeEntry s (.fdp slot req ver) 0x8130 3 [v] [] = (stOriginator, s) := by
  refine writeEntry_originator (e := (entryOf 0x8130 3).get (by decide)) (by decide) rfl (by decide) (by decide) ?_
  rw [classBit_fdp_of_host hslot]
  decide

/-- A write of `0x8140:04` by a session is a firmware command. -/
theorem writeEntry_firmware {v : Byte} (h1 : 1 ≤ v.toNat) (h3 : v.toNat ≤ 3) :
    writeEntry s (.fdp slot req ver) 0x8140 4 [v] [] = firmwareCommand s (.fdp slot req ver) v.toNat := by
  refine (writeEntry_applies (e := (entryOf 0x8140 4).get (by decide)) (by decide) rfl (by decide) (by decide) (by decide)
    (classBit_fdp_of_both ..) ?_).trans rfl
  exact decide_eq_true ⟨h1, h3⟩

theorem applyEntry_imageSource (o : Origin) (b : List Byte) : applyEntry s o 0x8140 3 b [] = imageSource s (ofLe b) := rfl

/-- A write of `0x8140:03` by a session names where an image lies. -/
theorem writeEntry_imageSource (v : FTime) : writeEntry s (.fdp slot req ver) 0x8140 3 (le 8 v.toNat) [] = imageSource s v.toNat := by
  have hv : ofLe (le 8 v.toNat) = v.toNat := (ofLe_le 8 v.toNat).trans (Nat.mod_eq_of_lt v.isLt)
  refine (writeEntry_applies (e := (entryOf 0x8140 3).get (by decide)) (by decide) (by rw [length_le]; rfl) (by decide) (by decide) (by decide)
    (classBit_fdp_of_both ..) ?_).trans ?_
  · change decide (0 ≤ ofLe (le 8 v.toNat) ∧ ofLe (le 8 v.toNat) ≤ 0xFFFFFFFFFFFFFFFF) = true
    rw [hv]
    exact decide_eq_true (by omega)
  · rw [applyEntry_imageSource, hv]

end

/-- Settles O51, command by command. -/
theorem ownerAndFirmware : Obligations.OwnerAndFirmware := by
  unfold Obligations.OwnerAndFirmware
  intro s slot req ver t o quiet refused token digest signed a n kind fits
  refine ⟨fun hw hslot => ?host, fun hw hslot => ?owner, fun hw => ?firmware, ?done⟩
  case host =>
    refine ⟨?_, ?_, ?_⟩ <;>
      exact sessionWrite_refuses hw rfl (by decide) fun f g k => writeEntry_owner_host hslot _
  case owner =>
    have hm : isM (.fdp slot req ver) = true := decide_eq_true hslot
    refine ⟨fun hq hfree => ?_, fun h => ?_, ?_, fun h => ?_, fun hq howned => ?_, fun hq hactive => ?_, fun h => ?_⟩
    · refine sessionWrite_gives hw (index := 0x8130) (sub := 3) (b := [1]) rfl (by decide) fun f g k => ?_
      obtain ⟨r, hr, hent, howner⟩ := enrollOwner_takes (s := s.takenUp t f g k) hq hfree
      exact ⟨r, (writeEntry_owner hslot (by decide) (by decide)).trans hr, fun a => ⟨hent, howner⟩⟩
    · exact sessionWrite_refuses hw (index := 0x8130) (sub := 3) (b := [1]) rfl (by decide) fun f g k =>
        (writeEntry_owner hslot (by decide) (by decide)).trans (enrollOwner_refuses (s := s.takenUp t f g k) h)
    · refine sessionWrite_gives hw (index := 0x8130) (sub := 3) (b := [2]) rfl (by decide) fun f g k => ?_
      obtain ⟨r, hr, hlive, hoct, hdraws⟩ := newChallenge_draws (s.takenUp t f g k)
      exact ⟨r, (writeEntry_owner hslot (by decide) (by decide)).trans hr, fun a => ⟨hlive, hoct, hdraws⟩⟩
    · exact sessionWrite_refuses hw (index := 0x8130) (sub := 3) (b := [3]) rfl (by decide) fun f g k =>
        (writeEntry_owner hslot (by decide) (by decide)).trans (releaseOwner_refuses (s := s.takenUp t f g k) h)
    · have hsigned : ∀ f g k, OwnerSigned (s.takenUp t f g k) ↔ signed := fun f g k =>
        ⟨fun ⟨hlive, hrsa, hslh⟩ => ⟨hlive, hrsa, hslh⟩, fun ⟨hlive, hrsa, hslh⟩ => ⟨hlive, hrsa, hslh⟩⟩
      refine ⟨if signed then stOk else stRange, sessionWrite_gives hw (index := 0x8130) (sub := 3) (b := [3]) rfl (by decide) fun f g k => ?_⟩
      obtain ⟨st, r, hr, hlive, hyes, hno⟩ := releaseOwner_spends (s := s.takenUp t f g k) hq howned
      have hrun := (writeEntry_owner (req := req) (ver := ver) hslot (v := 3) (by decide) (by decide)).trans hr
      by_cases hs : signed
      · obtain ⟨rfl, hent, howner⟩ := hyes ((hsigned f g k).2 hs)
        rw [if_pos hs]
        exact ⟨r, hrun, fun a => ⟨hlive, fun _ => ⟨rfl, hent, howner⟩, fun hnot => absurd hs hnot⟩⟩
      · obtain ⟨rfl, hdict, howner, hev⟩ := hno fun h => hs ((hsigned f g k).1 h)
        rw [if_neg hs]
        exact ⟨r, hrun, fun a => ⟨hlive, fun h => absurd h hs, fun _ => ⟨rfl, (State.ent_of_dict hdict 0x8130 7).trans howned, howner, hev⟩⟩⟩
    · refine sessionWrite_gives hw (index := 0x8140) (sub := 4) (b := [2]) rfl (by decide) fun f g k => ?_
      obtain ⟨r, hr, hfloor, hsecurity, htrust⟩ := raiseFloor_raises (s := s.takenUp t f g k) hm hq hactive
      exact ⟨r, (writeEntry_firmware (by decide) (by decide)).trans hr, fun a => ⟨hfloor, hsecurity, htrust⟩⟩
    · exact sessionWrite_refuses hw (index := 0x8140) (sub := 4) (b := [2]) rfl (by decide) fun f g k =>
        (writeEntry_firmware (by decide) (by decide)).trans (raiseFloor_refuses (s := s.takenUp t f g k) hm h)
  case firmware =>
    have hfits : ∀ f g k, InstallFits (s.takenUp t f g k) ↔ fits := fun f g k =>
      ⟨fun ⟨hleast, hmost, hinside⟩ => ⟨hleast, hmost, hinside⟩, fun ⟨hleast, hmost, hinside⟩ => ⟨hleast, hmost, hinside⟩⟩
    refine ⟨fun hstate hfree hf => ?_, fun h => ?_, fun hstate hfree hf => ?_, fun v => ⟨fun h => ?_, fun hv h => ?_⟩, fun h => ?_, fun h => ?_⟩
    · refine sessionWrite_gives hw (index := 0x8140) (sub := 4) (b := [1]) rfl (by decide) fun f g k => ?_
      obtain ⟨r, hr, hent, hinstall⟩ := startInstall_takes (s := s.takenUp t f g k) hstate hfree ((hfits f g k).2 hf)
      exact ⟨r, (writeEntry_firmware (by decide) (by decide)).trans hr, fun a => ⟨hent, hinstall⟩⟩
    · exact sessionWrite_refuses hw (index := 0x8140) (sub := 4) (b := [1]) rfl (by decide) fun f g k =>
        (writeEntry_firmware (by decide) (by decide)).trans (startInstall_refuses (s := s.takenUp t f g k) h)
    · exact sessionWrite_refuses hw (index := 0x8140) (sub := 4) (b := [1]) rfl (by decide) fun f g k =>
        (writeEntry_firmware (by decide) (by decide)).trans (startInstall_unfit (s := s.takenUp t f g k) hstate hfree fun h => hf ((hfits f g k).1 h))
    · refine sessionWrite_gives hw (index := 0x8140) (sub := 3) (b := le 8 v.toNat) rfl (by decide) fun f g k => ?_
      have h' : v.toNat = 0 ∨ hbmInstalls (s.takenUp t f g k) = true := h.imp (fun h => by rw [h]; rfl) id
      exact ⟨_, (writeEntry_imageSource v).trans (imageSource_names h'), fun a => State.ent_setEnt_self (s.takenUp t f g k) 0x8140 3 v.toNat⟩
    · exact sessionWrite_refuses hw (index := 0x8140) (sub := 3) (b := le 8 v.toNat) rfl (by decide) fun f g k =>
        (writeEntry_imageSource v).trans (imageSource_refuses (s := s.takenUp t f g k) (fun h0 => hv (BitVec.eq_of_toNat_eq h0)) h)
    · refine sessionWrite_gives hw (index := 0x8140) (sub := 4) (b := [3]) rfl (by decide) fun f g k => ?_
      obtain ⟨r, hr, hsessions, hdev⟩ := restartGalena_closes (s := s.takenUp t f g k) h
      exact ⟨r, (writeEntry_firmware (by decide) (by decide)).trans hr, fun a => ⟨hsessions, hdev⟩⟩
    · exact sessionWrite_refuses hw (index := 0x8140) (sub := 4) (b := [3]) rfl (by decide) fun f g k =>
        (writeEntry_firmware (by decide) (by decide)).trans (if_pos h)
  case done =>
    intro k b hinstall active valid
    obtain ⟨hsmall, hspare, hstarting⟩ := spareSlot_spec s k
    obtain ⟨u, hu, hnone, hyes, hno⟩ := installDone_checks hinstall
    exact ⟨u, spareSlot s k, hu, hnone, hsmall, hspare, hstarting, hyes, hno⟩

end Sys2Proof.Machine
end

section
/-!
SUPPORT. What the open flits that have waited leave of the module's control once they are handled, outside a run (R399): its state is no matter of theirs.
-/
namespace Sys2Proof.Machine
open Sys2Proof

theorem Accounts.power {s t : State} (h : Accounts s t) : t.power = s.power :=
  show (besideAccounts t).power = (besideAccounts s).power from congrArg State.power h.kept

section
variable (s : State)

theorem localRead_ctl (a n : Nat) : (localRead s a n).2.1.ctl = s.ctl := (localRead_keeps s a n).1.ctl

theorem touchSram_ctl (kind c first n : Nat) : (touchSram s kind c first n).ctl = s.ctl := (touchSram_accounts s kind c first n).ctl

theorem localWrite_ctl (a : Nat) (b : List Byte) : (localWrite s a b).ctl = s.ctl := by
  unfold localWrite
  split
  · exact memWrite_ctl s a b
  · exact (touchSram_ctl _ _ _ _ _).trans rfl
  · split
    · rfl
    · exact (touchSram_ctl _ _ _ _ _).trans rfl
  · rfl

theorem ite_ctl (c : Prop) [Decidable c] (s t : State) : (if c then s else t).ctl = if c then s.ctl else t.ctl := by split <;> rfl

/-- A write to the module's memories changes nothing of its power. -/
theorem localWrite_power (a : Nat) (b : List Byte) : (localWrite s a b).power = s.power := by
  unfold localWrite
  split
  · exact (memWrite_accounts s a b).power
  · exact (touchSram_accounts _ _ _ _ _).power.trans rfl
  · split
    · rfl
    · exact (touchSram_accounts _ _ _ _ _).power.trans rfl
  · rfl

theorem emit_ctl (dst : Nat) (fs : List Flit) : (emit s dst fs).1.ctl = s.ctl := by
  unfold emit
  split
  · next p _ => exact foldl_keeps (fun s f => sendOpen s p f) State.ctl (fun _ _ => rfl) fs s
  · rfl

theorem noteRefused_ctl (dst : W16) (status : Nat) : (noteRefused s dst status).ctl = s.ctl := by
  unfold noteRefused
  split <;> rfl

theorem sendAck_ctl (dst : W16) (tag : BitVec 12) (status transfer bytes : Nat) : (sendAck s dst tag status transfer bytes).ctl = s.ctl :=
  (emit_ctl _ _ _).trans (noteRefused_ctl ..)

theorem sendResp_ctl (dst : W16) (tag : BitVec 12) (status : Nat) (data : List Byte) : (sendResp s dst tag status data).ctl = s.ctl :=
  (emit_ctl _ _ _).trans (noteRefused_ctl ..)

theorem refuseFlit_ctl (f : Flit) (status : Nat) : (refuseFlit s f status).ctl = s.ctl := by
  unfold refuseFlit
  split
  · exact sendResp_ctl ..
  · exact sendAck_ctl ..

theorem queueOpen_ctl (p : Nat) (f : Flit) (place : Option (Nat × Nat)) : (queueOpen s p f place).ctl = s.ctl := rfl

theorem holdPlace_ctl (p vc : Nat) : (holdPlace s p vc).ctl = s.ctl := rfl

theorem relay_ctl (p : Nat) (f : Flit) : (relay s p f).ctl = s.ctl := by
  unfold relay
  dsimp only
  split
  · simp only [queueOpen_ctl, holdPlace_ctl, ite_ctl, noteRefused_ctl, State.addEnt_ctl, ite_self]
  · simp only [ite_ctl, refuseFlit_ctl, State.addEnt_ctl, ite_self]

theorem lendRefused_ctl (src a : Nat) : (lendRefused s src a).ctl = s.ctl := by
  unfold lendRefused
  dsimp only
  split <;> rfl

theorem accessStatus_ctl (src : W16) (a n : Nat) (write : Bool) : (accessStatus s src a n write).1.ctl = s.ctl := by
  unfold accessStatus
  split
  · split
    · split <;> rfl
    · split <;> rfl
    · split <;> rfl
    · rfl
  · split
    · split
      · exact lendRefused_ctl ..
      · split
        · exact lendRefused_ctl ..
        · split
          · rfl
          · exact lendRefused_ctl ..
    · split
      · rfl
      · exact lendRefused_ctl ..
    · split
      · rfl
      · exact lendRefused_ctl ..
    · rfl

theorem answered_ctl (k n : Nat) : (answered s k n).ctl = s.ctl := by
  unfold answered
  split
  · rfl
  · split <;> rfl

theorem takeHead_ctl (p : Nat) (f : Flit) : (takeHead s p f).ctl = s.ctl := by
  unfold takeHead
  dsimp only
  simp only [ite_ctl, answered_ctl, sendAck_ctl, State.setTransfer_ctl, apply_ite (fun r : State × Nat => r.1.ctl), accessStatus_ctl, ite_self]

theorem takeData_ctl (p : Nat) (f : Flit) : (takeData s p f).ctl = s.ctl := by
  unfold takeData
  split
  · rfl
  · extract_lets others put n t
    split
    · split <;> rfl
    · split
      · exact (answered_ctl ..).trans (sendAck_ctl ..)
      · rfl

theorem takeRead_ctl (f : Flit) : (takeRead s f).ctl = s.ctl := by
  unfold takeRead
  dsimp only
  split
  · exact sendResp_ctl ..
  · have hstatus := accessStatus_ctl s f.src (field f.payload 0 6) (field f.payload 8 4) false
    generalize accessStatus s f.src (field f.payload 0 6) (field f.payload 8 4) false = r at hstatus ⊢
    split
    · exact (sendResp_ctl ..).trans hstatus
    · have hread := localRead_ctl r.1 (field f.payload 0 6) (field f.payload 8 4)
      split
      · exact (sendResp_ctl ..).trans (hread.trans hstatus)
      · exact (sendResp_ctl ..).trans (hread.trans hstatus)

/-- An increment outside a run, too large even, changes nothing of the module's state (R151). -/
theorem incSem_ctl {s : State} (h : s.running = false) (c k n : Nat) (landing : Bool) : (incSem s c k n landing).ctl = s.ctl := by
  unfold incSem
  split
  · rfl
  · split
    · unfold misdirect
      dsimp only
      split <;> rfl
    · split
      · rfl
      · have hidle : ((s.setSem c k 0xFFFFFFFF).raise 0x5503 []).running = false := h
        unfold abortRun
        rw [if_neg (by rw [hidle]; decide)]
        rfl

theorem takePost_ctl {s : State} (h : s.running = false) (f : Flit) : (takePost s f).ctl = s.ctl := by
  unfold takePost
  dsimp only
  split
  · exact sendAck_ctl ..
  · split
    · exact sendAck_ctl ..
    · exact (sendAck_ctl ..).trans (incSem_ctl h ..)

theorem takeHostmsg_ctl (p : Nat) (f : Flit) : (takeHostmsg s p f).ctl = s.ctl := by
  unfold takeHostmsg
  dsimp only
  split
  · rfl
  · simp only [ite_ctl, sendAck_ctl, ite_self]

theorem handleRequest_ctl {s : State} (h : s.running = false) (p : Nat) (f : Flit) : (handleRequest s p f).ctl = s.ctl := by
  unfold handleRequest
  split
  · exact relay_ctl ..
  · split
    · exact takeHead_ctl ..
    · split
      · exact takeData_ctl ..
      · split
        · exact takeRead_ctl ..
        · split
          · exact takePost_ctl h f
          · exact takeHostmsg_ctl ..

theorem drainWaiting_ctl (n p : Nat) {s : State} (h : s.running = false) : (drainWaiting n p s).ctl = s.ctl := by
  induction n generalizing s with
  | zero => rfl
  | succ n ih =>
    unfold drainWaiting
    split
    · rfl
    · next f r _ =>
      have hhandled := handleRequest_ctl (s := freePlace (s.modPort p fun x => { x with waiting := r }) p f.vc.toNat) h p f
      exact (ih ((running_of_ctl hhandled).trans h)).trans hhandled

theorem drainAll_ctl {s : State} (h : s.running = false) : (drainAll s).ctl = s.ctl := by
  unfold drainAll
  refine List.foldlRecOn (motive := fun t => t.ctl = s.ctl) _ _ rfl fun (t : State) ht p _ => ?_
  exact (drainWaiting_ctl 1024 p ((running_of_ctl ht).trans h)).trans ht

end

end Sys2Proof.Machine
end

section
/-!
The main-side commands (O34).
-/
namespace Sys2Proof.Machine
open Sys2Proof

/-! ### The tab that TEST leaves (log entry 104) -/

section
variable {s : State}

theorem enterEff_of_test (h : s.ctl.dev = .test) (d : Dev) : s.enterEff d = { s with ctl := { s.ctl with phase := d } } := if_pos h

theorem eff_of_test (h : s.ctl.dev = .test) : s.eff = s.ctl.phase := if_pos h

/-- Region units that are stopped change nothing of the module's control and power. -/
theorem stopRegions_keeps (s : State) : (stopRegions s).ctl = s.ctl ∧ (stopRegions s).power = s.power := by
  have hstep (t : State) (die : Nat) :
      ((match t.region die with
        | x :: r => if x.live then t else (spoilOutput t x).setRegion die r
        | [] => t) : State).ctl = t.ctl ∧
      ((match t.region die with
        | x :: r => if x.live then t else (spoilOutput t x).setRegion die r
        | [] => t) : State).power = t.power := by
    split
    · split
      · exact ⟨rfl, rfl⟩
      · next x r _ _ =>
        refine ⟨localWrite_ctl (drawBytes t (rgBytes x.op x.desc)).2 _ _, ?_⟩
        exact localWrite_power (drawBytes t (rgBytes x.op x.desc)).2 _ _
    · exact ⟨rfl, rfl⟩
  unfold stopRegions
  exact ⟨foldl_keeps _ State.ctl (fun t die => (hstep t die).1) _ s, foldl_keeps _ State.power (fun t die => (hstep t die).2) _ s⟩

theorem stepDropped_keeps (s : State) : (stepDropped s).ctl = s.ctl ∧ (stepDropped s).power = s.power := by
  have hballast : Accounts s (waitBallast (hitRates s)) := (hitRates_accounts s).trans (waitBallast_accounts _)
  have hhalt (t : State) : (haltCores t).ctl = t.ctl ∧ (haltCores t).power = t.power := by
    have hreleased : Accounts t (t.cores.foldl (fun t c => touchLeft (releaseMoves t c.2) c) t) :=
      .foldl (fun t (c : Nat × CoreS) => (releaseMoves_accounts t c.2).trans (touchLeft_accounts _ c)) _ t
    have hpower := hreleased.power
    have hctl := hreleased.ctl
    clear hreleased
    unfold haltCores
    generalize t.cores.foldl (fun t c => touchLeft (releaseMoves t c.2) c) t = u at hctl hpower ⊢
    exact ⟨hctl, hpower⟩
  have hopen (t : State) : (openPorts t).power = t.power := by
    unfold openPorts mapPorts
    refine foldl_keeps _ State.power (fun u p => ?_) _ t
    rfl
  unfold stepDropped
  refine ⟨?_, ?_⟩
  · rw [State.setEnt_ctl, State.addEnt_ctl, State.setEnt_ctl, openPorts_ctl, (hhalt _).1, hballast.ctl]
  · rw [State.setEnt_power, State.addEnt_power, State.setEnt_power, hopen, (hhalt _).2, hballast.power]

/-- A step that TEST abandons: the phase ABORTING, and no power-down that was not asked for (R72, R447). -/
theorem abandon_of_test (h : s.ctl.dev = .test) :
    (abandon s).ctl = { s.ctl with phase := .aborting } ∧ (abandon s).power.sheds = s.power.sheds ∧
      (abandon s).power.downAfterAbort = s.power.downAfterAbort := by
  obtain ⟨hctl, hpower⟩ := stepDropped_keeps s
  rw [abandon_eq]
  generalize stepDropped s = t at hctl hpower ⊢
  rw [enterEff_of_test (show (unitsFreed t).ctl.dev = .test from (congrArg Ctl.dev hctl).trans h), ← hctl, ← hpower]
  exact ⟨rfl, rfl, rfl⟩

theorem shedIfDue_of_not (h : s.power.sheds = false) : shedIfDue s = s := if_neg (by rw [h]; simp)

/-- The end of an abort in TEST: the phase READY, and no power-down that was not asked for (R72). -/
theorem abortingComplete_of_test (h : s.ctl.dev = .test) (hphase : s.ctl.phase = .aborting) (hsheds : s.power.sheds = false)
    (hdown : s.power.downAfterAbort = false) : (abortingComplete s).ctl = { s.ctl with phase := .ready } := by
  obtain ⟨hctl, hpower⟩ := stopRegions_keeps ({ s with ctl := { s.ctl with phase := .ready } }.setOct 0x8210 7 [])
  unfold abortingComplete
  rw [if_pos ((eff_of_test h).trans hphase), enterEff_of_test h]
  generalize stopRegions ({ s with ctl := { s.ctl with phase := .ready } }.setOct 0x8210 7 []) = t at hctl hpower ⊢
  have hctl' : t.ctl = { s.ctl with phase := .ready } := hctl
  have hpower' : t.power = s.power := hpower
  dsimp only
  rw [shedIfDue_of_not (by rw [hpower', hsheds, hdown]; rfl)]
  refine (drainAll_ctl ?_).trans hctl'
  unfold State.running State.eff
  dsimp only
  rw [hctl']
  dsimp only
  rw [h]
  rfl

/-- A command that leaves TEST finds the phase READY, whatever tab was armed, ran or was paused there. -/
theorem dropTab_of_test (h : s.ctl.dev = .test) (hsheds : s.power.sheds = false) (hdown : s.power.downAfterAbort = false)
    (hphase : s.ctl.phase ∈ [Dev.ready, .armed, .run, .pause, .aborting]) : (dropTab s).ctl = { s.ctl with phase := .ready } := by
  have hleave (t : State) (ht : t.ctl.dev = .test) : (leavePause t).ctl = { t.ctl with phase := .ready } := by
    unfold leavePause
    rw [enterEff_of_test ht]
    rfl
  unfold dropTab
  rw [eff_of_test h]
  simp only [List.mem_cons, List.not_mem_nil, or_false] at hphase
  rcases hphase with hp | hp | hp | hp | hp <;> rw [hp] <;> dsimp only
  · rw [← hp]
  · have hcancel : (cancelArming s).ctl = { s.ctl with phase := if (rampStopped s).ctl.resuming then .pause else .ready } := by
      have hstopped : (rampStopped s).ctl = s.ctl := by
        unfold rampStopped
        split <;> rfl
      rw [cancelArming_eq, enterEff_of_test (show (checksEnded (rampStopped s)).ctl.dev = .test from (congrArg Ctl.dev hstopped).trans h), ← hstopped]
      rfl
    rw [hleave _ ((congrArg Ctl.dev hcancel).trans h), hcancel]
  · obtain ⟨hctl, hkept, hlater⟩ := abandon_of_test h
    rw [abortingComplete_of_test ((congrArg Ctl.dev hctl).trans h) (congrArg Ctl.phase hctl) (hkept.trans hsheds) (hlater.trans hdown), hctl]
  · exact hleave s h
  · exact abortingComplete_of_test h hp hsheds hdown

/-- The states of TEST from which its commands proceed. -/
structure Testing (s : State) : Prop where
  dev : s.ctl.dev = .test
  powered : s.ctl.powered = true
  sheds : s.power.sheds = false
  down : s.power.downAfterAbort = false
  phase : s.ctl.phase ∈ [Dev.ready, .armed, .run, .pause, .aborting]

theorem leaveTest_of_testing (h : Testing s) (f : State → State) :
    ∃ t, leaveTest s f = f t ∧ t.ctl.dev = .test ∧ t.ctl.phase = .ready := by
  have hctl := dropTab_of_test h.dev h.sheds h.down h.phase
  refine ⟨dropTab s, ?_, (congrArg Ctl.dev hctl).trans h.dev, congrArg Ctl.phase hctl⟩
  unfold leaveTest
  exact if_pos ((congrArg Ctl.powered hctl).trans h.powered)

/-! ### The commands (Table 15-8) -/

/-- In u the module is in state e, and shows the state of s as the one before (Table 15-17). -/
structure Moved (s u : State) (e : Dev) : Prop where
  dev : u.ctl.dev = e
  previous : u.ent 0x5002 2 = s.ctl.dev.code

theorem toInit_moves (s : State) : Moved s (toInit s) .init ∧ (toInit s).ctl.powered = true := by
  obtain ⟨hdev, hpowered, -, hprevious, -⟩ := toInit_spec s
  exact ⟨⟨hdev, hprevious⟩, hpowered⟩

/-- INIT begins with the memory as it is at reset (R518). -/
theorem toInit_hbm (s : State) : (toInit s).mem.hbm = [] := by
  unfold toInit
  dsimp only
  rw [clearRegisters_mem, noteSlots_mem, State.clearEnts_mem, State.enter_mem]
  rfl

theorem startCleared_previous (s : State) : (startCleared s).ent 0x5002 2 = s.ctl.dev.code := by
  unfold startCleared
  rw [State.ent_enter_previous]
  have hzero : (zeroArea s).ctl = s.ctl := by
    unfold zeroArea
    split
    · rfl
    · exact memWrite_ctl ..
  change (darkPorts (clearEnts startEntries (zeroArea s))).ctl.dev.code = _
  rw [ctl_of_besideEntries (darkPorts_besideEntries _), State.clearEnts_ctl, hzero]

theorem startShown_keeps (s : State) : (startShown s).ent 0x5002 2 = s.ent 0x5002 2 ∧ (startShown s).ent 0x3000 2 = 1 := by
  unfold startShown
  dsimp only
  refine ⟨?_, ?_⟩
  · rw [setOct_ent, State.ent_setEnt_ne _ _ _ _ _ _ (by decide), State.ent_setEnt_ne _ _ _ _ _ _ (by decide),
      State.ent_setEnt_ne _ _ _ _ _ _ (by decide), State.ent_setEnt_ne _ _ _ _ _ _ (by decide), State.ent_setEnt_ne _ _ _ _ _ _ (by decide)]
  · rw [setOct_ent, State.ent_setEnt_ne _ _ _ _ _ _ (by decide), State.ent_setEnt_ne _ _ _ _ _ _ (by decide), State.ent_setEnt_self]

/-- START seeks fabric time anew (R446). -/
theorem toStart_moves (s : State) : Moved s (toStart s) .start ∧ (toStart s).ent 0x3000 2 = 1 := by
  obtain ⟨hdev, -⟩ := toStart_spec s
  obtain ⟨hprevious, hlock⟩ := startShown_keeps (startCleared s)
  refine ⟨⟨hdev, ?_⟩, ?_⟩
  · rw [State.ent_of_dict (toStart_dict s), hprevious, startCleared_previous]
  · rw [State.ent_of_dict (toStart_dict s), hlock]

theorem enter_moves (s : State) (d : Dev) : Moved s (s.enter d) d := ⟨rfl, s.ent_enter_previous d⟩

/-- The taper begins, and the rails are shed at its end (R498). -/
theorem powerDown_tapers (s : State) :
    (powerDown s).ctl = s.ctl ∧ (powerDown s).power.sheds = true ∧ (powerDown s).power.taperLeft = 256 ∧ (powerDown s).ent 0x2200 5 = 256 :=
  ⟨rfl, rfl, rfl, s.ent_setEnt_self 0x2200 5 256⟩

theorem powerUpCommand_moves (h : s.ctl.dev = .standby) (ha : assigned s = true) (hb : powerBlocked s = false) :
    ∃ r, powerUpCommand s = (stOk, r) ∧ Moved s r .init ∧ r.ctl.powered = true := by
  obtain ⟨⟨hdev, hprevious⟩, hpowered⟩ := toInit_moves { s with power := { s.power with railHold := false } }
  exact ⟨_, if_pos ⟨h, ha, hb⟩, ⟨hdev, hprevious⟩, hpowered⟩

theorem powerDownCommand_tapers (h : s.ctl.dev = .ready ∨ s.ctl.dev = .pause ∨ s.ctl.dev = .recovery ∨ s.ctl.dev = .fault ∨ Testing s) :
    ∃ r, powerDownCommand s = (stOk, r) ∧ r.ctl.dev = s.ctl.dev ∧ r.power.sheds = true ∧ r.power.taperLeft = 256 ∧ r.ent 0x2200 5 = 256 ∧
      (s.ctl.dev = .test → r.ctl.phase = .ready) := by
  unfold powerDownCommand
  obtain ⟨hctl, hsheds, htaper, hduty⟩ := powerDown_tapers s
  rcases h with h | h | h | h | h
  case inr.inr.inr.inr =>
    obtain ⟨t, ht, hdev, hphase⟩ := leaveTest_of_testing h powerDown
    obtain ⟨hctl, hsheds, htaper, hduty⟩ := powerDown_tapers t
    rw [h.dev, ht]
    exact ⟨_, rfl, (congrArg Ctl.dev hctl).trans hdev, hsheds, htaper, hduty, fun _ => (congrArg Ctl.phase hctl).trans hphase⟩
  all_goals
    rw [h]
    exact ⟨_, rfl, (congrArg Ctl.dev hctl).trans h, hsheds, htaper, hduty, fun hnot => Dev.noConfusion hnot⟩

theorem restartCommand_inits (h : s.ctl.dev = .fault) : ∃ r, restartCommand s = (stOk, r) ∧ Moved s r .init ∧ r.mem.hbm = [] :=
  ⟨_, if_pos h, (toInit_moves s).1, toInit_hbm s⟩

theorem restartCommand_starts (h : s.ctl.dev = .ready ∨ s.ctl.dev = .recovery ∨ Testing s) :
    ∃ r, restartCommand s = (stOk, r) ∧ Moved s r .start ∧ r.ent 0x3000 2 = 1 := by
  unfold restartCommand
  have hplain (h : s.ctl.dev = .ready ∨ s.ctl.dev = .recovery) :
      ∃ r, (if s.ctl.dev = .fault then (stOk, toInit s)
        else if s.ctl.dev = .test then (stOk, leaveTest s fun t => toStart (noteSlots t))
        else if s.ctl.dev = .ready ∨ s.ctl.dev = .recovery then (stOk, toStart (noteSlots s))
        else (stState, s)) = (stOk, r) ∧ Moved s r .start ∧ r.ent 0x3000 2 = 1 := by
    obtain ⟨⟨hdev, hprevious⟩, hlock⟩ := toStart_moves (noteSlots s)
    refine ⟨_, ?_, ⟨hdev, hprevious⟩, hlock⟩
    rw [if_neg (by rcases h with h | h <;> rw [h] <;> decide), if_neg (by rcases h with h | h <;> rw [h] <;> decide), if_pos h]
  rcases h with h | h | h
  · exact hplain (.inl h)
  · exact hplain (.inr h)
  · obtain ⟨t, ht, htest, -⟩ := leaveTest_of_testing h fun t => toStart (noteSlots t)
    obtain ⟨⟨hdev, hprevious⟩, hlock⟩ := toStart_moves (noteSlots t)
    have hsame : (noteSlots t).ctl.dev = s.ctl.dev := (htest.trans h.dev.symm :)
    rw [if_neg (by rw [h.dev]; decide), if_pos h.dev, ht]
    exact ⟨_, rfl, ⟨hdev, hprevious.trans (congrArg Dev.code hsame)⟩, hlock⟩

theorem enterTestCommand_moves (h : s.ctl.dev = .ready) : ∃ r, enterTestCommand s = (stOk, r) ∧ Moved s r .test ∧ r.ctl.phase = .ready :=
  ⟨_, if_pos h, ⟨rfl, s.ent_enter_previous .test⟩, rfl⟩

theorem enterRecoveryCommand_moves (h : s.ctl.dev = .ready ∨ s.ctl.dev = .fault) : ∃ r, enterRecoveryCommand s = (stOk, r) ∧ Moved s r .recovery :=
  ⟨_, if_pos h, enter_moves s .recovery⟩

theorem leaveCommand_moves (h : s.ctl.dev = .recovery ∨ Testing s) : ∃ r, leaveCommand s = (stOk, r) ∧ Moved s r .ready := by
  unfold leaveCommand
  rcases h with h | h
  · rw [if_neg (by rw [h]; decide), if_pos h]
    exact ⟨_, rfl, enter_moves s .ready⟩
  · obtain ⟨t, ht, htest, -⟩ := leaveTest_of_testing h fun t => t.enter .ready
    rw [if_pos h.dev, ht]
    exact ⟨_, rfl, rfl, (t.ent_enter_previous .ready).trans (congrArg Dev.code (htest.trans h.dev.symm))⟩

theorem powerUpCommand_refuses (h : s.ctl.dev ≠ .standby ∨ assigned s = false ∨ powerBlocked s = true) : powerUpCommand s = (stState, s) := by
  refine if_neg fun ⟨hdev, ha, hb⟩ => ?_
  rcases h with h | h | h
  · exact h hdev
  · exact Bool.false_ne_true (h.symm.trans ha)
  · exact Bool.false_ne_true (hb.symm.trans h)

theorem powerDownCommand_refuses
    (h : ¬ (s.ctl.dev = .ready ∨ s.ctl.dev = .pause ∨ s.ctl.dev = .test ∨ s.ctl.dev = .recovery ∨ s.ctl.dev = .fault)) :
    powerDownCommand s = (stState, s) := by
  unfold powerDownCommand
  cases hd : s.ctl.dev <;> simp [hd] at h ⊢

theorem restartCommand_refuses (h : ¬ (s.ctl.dev = .fault ∨ s.ctl.dev = .ready ∨ s.ctl.dev = .recovery ∨ s.ctl.dev = .test)) :
    restartCommand s = (stState, s) := by
  simp only [not_or] at h
  obtain ⟨hfault, hready, hrecovery, htest⟩ := h
  unfold restartCommand
  rw [if_neg hfault, if_neg htest, if_neg (not_or.2 ⟨hready, hrecovery⟩)]

theorem leaveCommand_refuses (h : ¬ (s.ctl.dev = .recovery ∨ s.ctl.dev = .test)) : leaveCommand s = (stState, s) := by
  obtain ⟨hrecovery, htest⟩ := not_or.1 h
  unfold leaveCommand
  rw [if_neg htest, if_neg hrecovery]

end

/-- A write of `0x5003:01` by a session is a main-side command. -/
theorem writeEntry_main (s : State) (slot : Fin 8) (req : W32) (ver : Byte) {v : Byte} (h1 : 1 ≤ v.toNat) (h6 : v.toNat ≤ 6) :
    writeEntry s (.fdp slot req ver) 0x5003 1 [v] [] = mainCommand s v.toNat := by
  refine (writeEntry_applies (e := (entryOf 0x5003 1).get (by decide)) (by decide) rfl (by decide) (by decide) (by decide)
    (classBit_fdp_of_both ..) ?_).trans rfl
  exact decide_eq_true ⟨h1, h6⟩

/-- Settles O34: each command by its states. -/
theorem mainSideCommands : Obligations.MainSideCommands := by
  unfold Obligations.MainSideCommands
  intro s slot req ver t hw o d accepts refuses moved test
  have haccept {i : Instr} {v : Byte} {P : State → Prop} (h1 : 1 ≤ v.toNat) (h6 : v.toNat ≤ 6)
      (hi : exec i s = writeCommand (.fdp slot req ver) t 0x5003 1 [v] s)
      (hP : ∀ f g k, ∃ r, mainCommand (s.takenUp t f g k) v.toNat = (stOk, r) ∧ ∀ a, P { r with audit := a }) : Gives s i slot req stOk P := by
    refine sessionWrite_gives hw hi (by decide) fun f g k => ?_
    obtain ⟨r, hr, hp⟩ := hP f g k
    exact ⟨r, (writeEntry_main _ slot req ver h1 h6).trans hr, hp⟩
  have hrefuse {i : Instr} {v : Byte} (h1 : 1 ≤ v.toNat) (h6 : v.toNat ≤ 6)
      (hi : exec i s = writeCommand (.fdp slot req ver) t 0x5003 1 [v] s)
      (hs : ∀ f g k, mainCommand (s.takenUp t f g k) v.toNat = (stState, s.takenUp t f g k)) : Gives s i slot req stState (Untouched s) :=
    sessionWrite_refuses hw hi (by decide) fun f g k => (writeEntry_main _ slot req ver h1 h6).trans (hs f g k)
  have htesting (f : Fdp) (g : List (W16 × List Byte)) (k : Option (FTime × Nat)) (h : test) : Testing (s.takenUp t f g k) := by
    obtain ⟨hdev, hpowered, hsheds, hdown, hphase⟩ := h
    exact ⟨hdev, hpowered, hsheds, hdown, hphase⟩
  refine ⟨fun hd ha hb => haccept (v := 1) (by decide) (by decide) rfl fun f g k => ?_,
    fun h => haccept (v := 2) (by decide) (by decide) rfl fun f g k => ?_,
    fun h => haccept (v := 3) (by decide) (by decide) rfl fun f g k => ?_,
    fun h => haccept (v := 3) (by decide) (by decide) rfl fun f g k => ?_,
    fun h => haccept (v := 4) (by decide) (by decide) rfl fun f g k => ?_,
    fun h => haccept (v := 5) (by decide) (by decide) rfl fun f g k => ?_,
    fun h => haccept (v := 6) (by decide) (by decide) rfl fun f g k => ?_,
    fun h => hrefuse (v := 1) (by decide) (by decide) rfl fun f g k => powerUpCommand_refuses (s := s.takenUp t f g k) h,
    fun h => hrefuse (v := 2) (by decide) (by decide) rfl fun f g k => powerDownCommand_refuses (s := s.takenUp t f g k) h,
    fun h => hrefuse (v := 3) (by decide) (by decide) rfl fun f g k => restartCommand_refuses (s := s.takenUp t f g k) h,
    fun h => hrefuse (v := 4) (by decide) (by decide) rfl fun f g k => if_neg h,
    fun h => hrefuse (v := 5) (by decide) (by decide) rfl fun f g k => if_neg h,
    fun h => hrefuse (v := 6) (by decide) (by decide) rfl fun f g k => leaveCommand_refuses (s := s.takenUp t f g k) h⟩
  · obtain ⟨r, hr, ⟨hdev, hprevious⟩, hpowered⟩ := powerUpCommand_moves (s := s.takenUp t f g k) hd ha hb
    exact ⟨r, hr, fun a => ⟨⟨hdev, hprevious⟩, hpowered⟩⟩
  · obtain ⟨r, hr, hrest⟩ := powerDownCommand_tapers (s := s.takenUp t f g k)
      (h.imp_right fun h => h.imp_right fun h => h.imp_right fun h => h.imp_right (htesting f g k))
    exact ⟨r, hr, fun a => hrest⟩
  · obtain ⟨r, hr, ⟨hdev, hprevious⟩, hhbm⟩ := restartCommand_inits (s := s.takenUp t f g k) h
    exact ⟨r, hr, fun a => ⟨⟨hdev, hprevious⟩, hhbm⟩⟩
  · obtain ⟨r, hr, ⟨hdev, hprevious⟩, hlock⟩ := restartCommand_starts (s := s.takenUp t f g k)
      (h.imp_right fun h => h.imp_right (htesting f g k))
    exact ⟨r, hr, fun a => ⟨⟨hdev, hprevious⟩, hlock⟩⟩
  · obtain ⟨r, hr, ⟨hdev, hprevious⟩, hphase⟩ := enterTestCommand_moves (s := s.takenUp t f g k) h
    exact ⟨r, hr, fun a => ⟨⟨hdev, hprevious⟩, hphase⟩⟩
  · obtain ⟨r, hr, hdev, hprevious⟩ := enterRecoveryCommand_moves (s := s.takenUp t f g k) h
    exact ⟨r, hr, fun a => ⟨hdev, hprevious⟩⟩
  · obtain ⟨r, hr, hdev, hprevious⟩ := leaveCommand_moves (s := s.takenUp t f g k) (h.imp_right (htesting f g k))
    exact ⟨r, hr, fun a => ⟨hdev, hprevious⟩⟩

end Sys2Proof.Machine
end

section
/-!
Arming (O36): the arming write by its floors, and the checks, whose reading of the tab leaves what they read as it was.
-/
namespace Sys2Proof.Machine
open Sys2Proof

/-! ### The arming write (R451, R483, R496) -/

section
variable {s : State} {start : FTime}

/-- The write names a resume: RESUME is selected in PAUSE. -/
def Resumes (s : State) : Prop := s.eff = .pause ∧ s.ent 0x5000 3 = 3

/-- Nothing withholds the arming, and its selection is unused. -/
structure ArmAllowed (s : State) : Prop where
  filled : s.ctl.filled = true
  locked : s.ent 0x3000 2 = 3
  hold : s.ent 0x7200 5 = 0
  haltPin : s.ent 0x2100 1 = 0
  supply : s.power.supplyHalt = none
  sheds : s.power.sheds = false
  unspent : s.ctl.armSpent = false
  selected : Resumes s ∨ (s.eff = .ready ∧ s.ent 0x5000 3 = 1)

/-- The tab lies on a page in HBM. -/
def TabPlaced (s : State) : Prop := s.ent 0x5000 1 % 4096 = 0 ∧ s.ent 0x5000 1 + 512 ≤ hbmSize

/-- The conditions that the model tests, as one value. -/
def armSelected (s : State) : Bool :=
  armable s && (!s.ctl.armSpent && (decide (s.eff = .pause ∧ s.ent 0x5000 3 = 3) || decide (s.eff = .ready ∧ s.ent 0x5000 3 = 1)))

theorem armSelected_iff : armSelected s = true ↔ ArmAllowed s := by
  unfold armSelected armable
  simp only [Bool.and_eq_true, Bool.or_eq_true, Bool.not_eq_true', decide_eq_true_eq, Option.isNone_iff_eq_none]
  constructor
  · rintro ⟨⟨⟨⟨⟨⟨hfilled, hlocked⟩, hhold⟩, hpin⟩, hsupply⟩, hsheds⟩, hunspent, hselected⟩
    exact ⟨hfilled, hlocked, hhold, hpin, hsupply, hsheds, hunspent, hselected⟩
  · rintro ⟨hfilled, hlocked, hhold, hpin, hsupply, hsheds, hunspent, hselected⟩
    exact ⟨⟨⟨⟨⟨⟨hfilled, hlocked⟩, hhold⟩, hpin⟩, hsupply⟩, hsheds⟩, hunspent, hselected⟩

theorem armingWrite_state (h : ¬ ArmAllowed s) : armingWrite s start = (stState, s) := by
  have hnot : armSelected s = false := Bool.eq_false_iff.2 fun ht => h (armSelected_iff.1 ht)
  exact if_pos (by change (!armSelected s) = true; rw [hnot]; rfl)

theorem armingWrite_range (h : ArmAllowed s) (hplaced : ¬ TabPlaced s) : armingWrite s start = (stRange, s) := by
  have hbad : s.ent 0x5000 1 % 4096 ≠ 0 ∨ hbmSize < s.ent 0x5000 1 + 512 := by
    unfold TabPlaced at hplaced
    omega
  refine (if_neg ?_).trans (if_pos hbad)
  change ¬ (!armSelected s) = true
  rw [armSelected_iff.2 h]
  decide

/-- The time that hashing the tab takes, with an owner or for a resume. -/
def HashTime (s : State) (n : Nat) : Prop :=
  (s.ent 0x8130 7 = 1 ∨ Resumes s → n = ceilDiv (field (hread s (s.ent 0x5000 1) 512) 16 8) 8 + 10000000) ∧
    (¬ (s.ent 0x8130 7 = 1 ∨ Resumes s) → n = 0)

/-- The start lies far enough ahead. -/
def FarEnough (s : State) (start : FTime) (n : Nat) : Prop :=
  s.now.toNat + s.ent 0x5000 5 + n ≤ start.toNat ∧ s.now.toNat + rampWindow s + 125000 + n ≤ start.toNat

/-- The floors that the start falls short of, by the first of them. -/
def armFloors (s : State) : List (Nat × Nat) :=
  startFloors s (thBytes (tabHead s (s.ent 0x5000 1))) (decide (s.eff = .pause ∧ s.ent 0x5000 3 = 3))

/-- The start is beyond every floor exactly where it lies far enough ahead. -/
theorem armFloors_passed_iff {n : Nat} (hn : HashTime s n) :
    ((armFloors s).find? fun f => decide (start.toNat < s.now.toNat + f.1)) = none ↔ FarEnough s start n := by
  obtain ⟨hhash, hnone⟩ := hn
  unfold armFloors startFloors owned FarEnough
  by_cases hsigned : s.ent 0x8130 7 = 1 ∨ Resumes s
  · have hcond : (decide (s.ent 0x8130 7 = 1) || decide (s.eff = .pause ∧ s.ent 0x5000 3 = 3)) = true := by
      rw [Bool.or_eq_true, decide_eq_true_eq, decide_eq_true_eq]
      exact hsigned
    have hbytes : n = ceilDiv (thBytes (tabHead s (s.ent 0x5000 1))) 8 + 10000000 := hhash hsigned
    dsimp only
    rw [hcond, if_pos rfl, if_pos rfl, ← hbytes]
    simp only [List.cons_append, List.nil_append, List.find?_eq_none, List.mem_cons, List.not_mem_nil, or_false, decide_eq_true_eq, forall_eq_or_imp,
      forall_eq]
    omega
  · have hcond : (decide (s.ent 0x8130 7 = 1) || decide (s.eff = .pause ∧ s.ent 0x5000 3 = 3)) = false := by
      rw [Bool.or_eq_false_iff, decide_eq_false_iff_not, decide_eq_false_iff_not]
      exact not_or.1 hsigned
    have hzero := hnone hsigned
    dsimp only
    rw [hcond, if_neg (by decide), if_neg (by decide), hzero]
    simp only [List.append_nil, List.find?_eq_none, List.mem_cons, List.not_mem_nil, or_false, decide_eq_true_eq, forall_eq_or_imp, forall_eq]
    omega

/-- What an arming write comes to once nothing withholds it and the tab is placed. -/
theorem armingWrite_eq (h : ArmAllowed s) (hplaced : TabPlaced s) : armingWrite s start =
    match (armFloors s).find? fun f => decide (start.toNat < s.now.toNat + f.1) with
    | some f => (stRange, tooSoon s start (s.now.toNat + f.1 - start.toNat) f.2)
    | none =>
      let resume := decide (s.eff = .pause ∧ s.ent 0x5000 3 = 3)
      let run := if resume then s.run else { Run.reset with lastCommit := s.run.lastCommit, prevAborts := s.run.prevAborts }
      let t := (s.setEnt 0x5000 2 start.toNat).enterEff .armed
      (stOk, { t with
        ctl := { t.ctl with resuming := resume, armSpent := true }
        run := { run with tab := s.ent 0x5000 1, start := start, checked := false, walk := t.run.walk, shards := t.run.shards }
        trust := { t.trust with hashing := true, owedTab := if t.trust.hashing then some t.run.tab else t.trust.owedTab } }) := by
  obtain ⟨hpage, hinside⟩ := hplaced
  have hgood : ¬ (s.ent 0x5000 1 % 4096 ≠ 0 ∨ hbmSize < s.ent 0x5000 1 + 512) := by omega
  refine (if_neg ?_).trans (if_neg hgood)
  change ¬ (!armSelected s) = true
  rw [armSelected_iff.2 h]
  decide

/-- Entering a state keeps all but the state and, outside TEST, the two entries that show it. -/
theorem enterEff_keeps (s : State) (d : Dev) : (s.enterEff d).run = s.run ∧ (s.enterEff d).trust = s.trust ∧ (s.enterEff d).cores = s.cores ∧
    (s.enterEff d).mem = s.mem ∧ (s.enterEff d).ev = s.ev := by
  rcases s.enterEff_cases d with ⟨-, h⟩ | ⟨-, h⟩ <;> rw [h] <;> exact ⟨rfl, rfl, rfl, rfl, rfl⟩

theorem eff_withCtl (s : State) (r : Bool) (a : Bool) (x : Run) (y : Trust) :
    State.eff { s with ctl := { s.ctl with resuming := r, armSpent := a }, run := x, trust := y } = s.eff := rfl

/-- What an arming leaves, of a state s from which it is allowed. -/
structure Armed (s u : State) (start : FTime) : Prop where
  eff : u.eff = .armed
  tab : u.run.tab = s.ent 0x5000 1
  begins : u.run.start = start
  checked : u.run.checked = false
  shown : u.ent 0x5000 2 = start.toNat
  hashing : u.trust.hashing = true
  owed : s.trust.hashing = true → u.trust.owedTab = some s.run.tab
  resuming : u.ctl.resuming = true ↔ Resumes s
  spent : u.ctl.armSpent = true
  cores : u.cores = s.cores
  mem : u.mem = s.mem

theorem armingWrite_arms (h : ArmAllowed s) (hplaced : TabPlaced s) {n : Nat} (hn : HashTime s n) (hfar : FarEnough s start n) :
    ∃ r, armingWrite s start = (stOk, r) ∧ Armed s r start := by
  rw [armingWrite_eq h hplaced, (armFloors_passed_iff hn).2 hfar]
  obtain ⟨hrun, htrust, hcores, hmem, -⟩ := enterEff_keeps (s.setEnt 0x5000 2 start.toNat) .armed
  have heff := State.eff_enterEff (s.setEnt 0x5000 2 start.toNat) .armed (by decide)
  have hshown : ((s.setEnt 0x5000 2 start.toNat).enterEff .armed).ent 0x5000 2 = start.toNat :=
    (State.ent_enterEff_ne _ _ (by decide) (by decide)).trans (s.ent_setEnt_self 0x5000 2 start.toNat)
  generalize (s.setEnt 0x5000 2 start.toNat).enterEff .armed = t at hrun htrust hcores hmem heff hshown ⊢
  refine ⟨_, rfl, ⟨heff, rfl, rfl, rfl, hshown, rfl, fun hhash => ?_, decide_eq_true_iff, rfl, hcores, hmem⟩⟩
  have hrun' : t.run = s.run := hrun
  have htrust' : t.trust = s.trust := htrust
  dsimp only
  rw [htrust', if_pos hhash, hrun']

theorem armingWrite_tooSoon (h : ArmAllowed s) (hplaced : TabPlaced s) {n : Nat} (hn : HashTime s n) (hfar : ¬ FarEnough s start n) :
    ∃ d, armingWrite s start = (stRange, s.raise 0x1202 d) := by
  rw [armingWrite_eq h hplaced]
  cases hfind : (armFloors s).find? fun f => decide (start.toNat < s.now.toNat + f.1) with
  | none => exact absurd ((armFloors_passed_iff hn).1 hfind) hfar
  | some f => exact ⟨_, rfl⟩

end

theorem applyEntry_arming (s : State) (o : Origin) (b : List Byte) : applyEntry s o 0x5000 2 b [] = armingWrite s (BitVec.ofNat 64 (ofLe b)) := rfl

/-- A write of `0x5000:02` by a session is an arming write. -/
theorem writeEntry_arming (s : State) (slot : Fin 8) (req : W32) (ver : Byte) (start : FTime) :
    writeEntry s (.fdp slot req ver) 0x5000 2 (le 8 start.toNat) [] = armingWrite s start := by
  have hstart : ofLe (le 8 start.toNat) = start.toNat := (ofLe_le 8 start.toNat).trans (Nat.mod_eq_of_lt start.isLt)
  refine (writeEntry_applies (e := (entryOf 0x5000 2).get (by decide)) (by decide) (by rw [length_le]; rfl) (by decide) (by decide) (by decide)
    (classBit_fdp_of_both ..) ?_).trans ?_
  · change decide (0 ≤ ofLe (le 8 start.toNat) ∧ ofLe (le 8 start.toNat) ≤ 0xFFFFFFFFFFFFFFFF) = true
    rw [hstart]
    exact decide_eq_true (by omega)
  · rw [applyEntry_arming, hstart, BitVec.ofNat_toNat, BitVec.setWidth_eq]

end Sys2Proof.Machine
end

section
/-!
The arming checks (O36): the tab as it is read, the load, the refusals and the measurement.
-/
namespace Sys2Proof.Machine
open Sys2Proof

/-! ### A tab in HBM reads the same after its reading is accounted -/

/-- From s to t the bytes of HBM and where they lie are the same. -/
structure SameHbm (s t : State) : Prop where
  hbm : t.mem.hbm = s.mem.hbm
  modes : ∀ j, j < 256 → t.ent 0x4010 j = s.ent 0x4010 j

theorem SameHbm.hread {s t : State} (h : SameHbm s t) {a n : Nat} (ha : a + n ≤ hbmSize) : hread t a n = hread s a n := by
  unfold Machine.hread
  refine List.map_congr_left fun i hi => ?_
  have hi' := List.mem_range.1 hi
  exact hbyte_of_accounts h.modes h.hbm (by omega)

theorem readRanges_accounts (s : State) (l : List (Nat × Nat)) : Accounts s (readRanges s l) :=
  .foldl (fun t (r : Nat × Nat) => memRead_accounts t r.1 r.2 true) l s

theorem readRanges_sameHbm (s : State) (l : List (Nat × Nat)) : SameHbm s (readRanges s l) :=
  ⟨readRanges_hbm s l, fun j hj => (readRanges_accounts s l).low 0x4010 j (by decide) hj⟩

theorem writeBack_ev (s : State) (x : CacheLine) : (writeBack s x).ev = s.ev := by
  unfold writeBack
  split
  · unfold poisonUnits
    refine (foldl_keeps _ State.ev (fun t w => ?_) _ _).trans rfl
    rfl
  · rfl

theorem makeRoom_ev (s : State) (l : Nat) : (makeRoom s l).ev = s.ev := by
  unfold makeRoom
  dsimp only
  split
  · rfl
  · split
    · rw [writeBack_ev, State.setCache_ev]
    · rfl

theorem countLookup_ev (s : State) (d : Nat) (hit : Bool) : (countLookup s d hit).ev = s.ev := by cases hit <;> rfl

theorem lookup_ev {s : State} (h : HbmSound s) (a n : Nat) (write alloc : Bool) : (lookup s a n write alloc).ev = s.ev := by
  unfold lookup
  dsimp only
  split
  · next x hx =>
    rw [useLine_sound _ (h.2 x (List.mem_of_find?_eq_some hx)), State.setCache_ev, countLookup_ev]
  · split
    · rw [State.setCache_ev, makeRoom_ev, countLookup_ev]
    · exact countLookup_ev ..

theorem lookups_ev {s : State} (h : HbmSound s) (a n : Nat) (write alloc : Bool) : (lookups s a n write alloc).ev = s.ev := by
  unfold lookups accesses
  split
  · rfl
  · refine (List.foldlRecOn (motive := fun t => HbmSound t ∧ t.ev = s.ev) _ _ ⟨h, rfl⟩ fun t ht k _ => ?_).2
    exact ⟨lookup_sound ht.1 .., (lookup_ev ht.1 ..).trans ht.2⟩

/-- Reading sound HBM raises nothing. -/
theorem readRanges_sound {s : State} (h : HbmSound s) (l : List (Nat × Nat)) : (readRanges s l).ev = s.ev := by
  unfold readRanges
  refine (List.foldlRecOn (motive := fun t => HbmSound t ∧ t.ev = s.ev) l _ ⟨h, rfl⟩ fun t ht r _ => ?_).2
  rw [memRead_sound ht.1]
  exact ⟨lookups_sound ht.1 .., (lookups_ev ht.1 ..).trans ht.2⟩

/-- Header, section table and sections of a tab lie in HBM. -/
structure TabInHbm (s : State) (base : Nat) : Prop where
  head : base + 512 ≤ hbmSize
  table : base + (thTable (tabHead s base) + 32 * thCount (tabHead s base)) ≤ hbmSize
  secs : ∀ x ∈ sections s base, base + x.off + x.len ≤ hbmSize

theorem badUnless_eq_none {code : Nat} {ok : Bool} (h : badUnless code ok = none) : ok = true := by
  unfold badUnless at h
  split at h
  · assumption
  · exact nomatch h

theorem firstBad_eq_none {l : List (Option Bad)} (h : firstBad l = none) {x : Option Bad} (hx : x ∈ l) : x = none := by
  unfold firstBad at h
  rw [List.head?_eq_none_iff, List.filterMap_eq_nil_iff] at h
  exact h x hx

theorem tabInHbm_of_structure {s : State} {base : Nat} (h : checkStructure s base = none) : TabInHbm s base := by
  have hall := badUnless_eq_none h
  simp only [Bool.and_eq_true, decide_eq_true_eq, List.all_eq_true] at hall
  obtain ⟨⟨⟨⟨⟨⟨⟨⟨⟨⟨⟨⟨⟨⟨⟨-, hbytes, -⟩, hinside⟩, -⟩, -⟩, htable⟩, -⟩, -⟩, hsecs⟩, -⟩, -⟩, -⟩, -⟩, -⟩, -⟩, -⟩ := hall
  have hinside' : base + thBytes (tabHead s base) ≤ hbmSize := of_decide_eq_true hinside
  refine ⟨by omega, by omega, fun x hx => ?_⟩
  obtain ⟨-, hlen⟩ := hsecs x hx
  omega

theorem mem_sections_of_secsOf {s : State} {base kind : Nat} {x : Section} (h : x ∈ secsOf s base kind) : x ∈ sections s base :=
  (List.mem_filter.1 h).1

section
variable {s t : State} {base : Nat} (h : SameHbm s t)
include h

theorem SameHbm.tabHead (hb : base + 512 ≤ hbmSize) : tabHead t base = tabHead s base := h.hread hb

variable (hb : TabInHbm s base)
include hb

theorem SameHbm.sections : sections t base = sections s base := by
  unfold Machine.sections
  rw [h.tabHead hb.head]
  dsimp only
  refine List.map_congr_left fun i hi => ?_
  have hi' := List.mem_range.1 hi
  have htable := hb.table
  rw [h.hread (by omega)]

theorem SameHbm.secsOf (kind : Nat) : secsOf t base kind = secsOf s base kind := by
  unfold Machine.secsOf
  rw [h.sections hb]

theorem SameHbm.secBytes {x : Section} (hx : x ∈ Machine.sections s base) : secBytes t base x = secBytes s base x := h.hread (hb.secs x hx)

theorem SameHbm.oneSec (kind : Nat) : oneSec t base kind = oneSec s base kind := by
  unfold Machine.oneSec
  rw [h.secsOf hb]
  cases hfirst : (Machine.secsOf s base kind).head? with
  | none => rfl
  | some x =>
    have hx : x ∈ Machine.sections s base := mem_sections_of_secsOf (List.mem_of_mem_head? hfirst)
    change Machine.secBytes t base x = Machine.secBytes s base x
    exact h.secBytes hb hx

theorem SameHbm.programs : programs t base = programs s base := by
  unfold Machine.programs
  rw [h.secsOf hb]
  dsimp only
  refine List.filterMap_congr fun c _ => ?_
  cases hfind : (Machine.secsOf s base 1).find? fun x => decide (x.target = c) with
  | none => rfl
  | some x =>
    have hx : x ∈ Machine.sections s base := mem_sections_of_secsOf (List.mem_of_find?_eq_some hfind)
    change (programOf (Machine.secBytes t base x)).map _ = (programOf (Machine.secBytes s base x)).map _
    rw [h.secBytes hb hx]

theorem SameHbm.schedSets : schedSets t base = schedSets s base := by
  unfold Machine.schedSets
  rw [h.secsOf hb]
  dsimp only
  refine List.filterMap_congr fun k _ => ?_
  cases hfind : (Machine.secsOf s base 2).find? fun x => decide (x.target % 64 * 4 + x.target / 64 = k) with
  | none => rfl
  | some x =>
    have hx : x ∈ Machine.sections s base := mem_sections_of_secsOf (List.mem_of_find?_eq_some hfind)
    simp only [Option.map_some]
    rw [h.secBytes hb hx]

theorem SameHbm.capoTable : capoTable t base = capoTable s base := by
  unfold Machine.capoTable
  rw [h.oneSec hb]

omit hb in
/-- The shard table, where the tab names none or one in HBM. -/
theorem SameHbm.shardTabEntries {a : Nat} (ha : a = 0 ∨ a + (32 + 32 * field (shardTabHead s a) 2 2) ≤ hbmSize) :
    shardTabEntries t a = shardTabEntries s a := by
  have hhead : shardTabHead t a = shardTabHead s a := by
    unfold shardTabHead
    split
    · rfl
    · exact h.hread (by omega)
  unfold Machine.shardTabEntries
  rw [hhead]
  refine List.map_congr_left fun i hi => ?_
  have hi' := List.mem_range.1 hi
  rcases ha with rfl | ha
  · exact absurd hi' (Nat.not_lt_zero i)
  · exact h.hread (by omega)

end

theorem shards_inside {s : State} {a : Nat} (h : checkShards s a = none) : a = 0 ∨ a + (32 + 32 * field (shardTabHead s a) 2 2) ≤ hbmSize := by
  unfold checkShards at h
  split at h
  · exact .inl ‹_›
  · have hall := badUnless_eq_none h
    simp only [Bool.and_eq_true, decide_eq_true_eq] at hall
    obtain ⟨⟨⟨⟨-, hinside⟩, -⟩, -⟩, -⟩ := hall
    exact .inr (of_decide_eq_true hinside)

/-- What checks that pass show of the tab. -/
theorem armingChecks_passed {s : State} {base : Nat} (h : armingChecks s base = none) :
    TabInHbm s base ∧ checkShards s (thShards (tabHead s base)) = none := by
  unfold armingChecks at h
  split at h
  · exact nomatch h
  · split at h
    · exact nomatch h
    · next hstructure => exact ⟨tabInHbm_of_structure hstructure, firstBad_eq_none h (by simp)⟩

/-! ### The load -/

theorem foldl_setEnt_beside {α : Type} (i : α → Nat) (j v : α → Nat) (l : List α) (s : State) :
    besideEntries (l.foldl (fun t x => t.setEnt (i x) (j x) (v x)) s) = besideEntries s :=
  foldl_keeps (fun t x => t.setEnt (i x) (j x) (v x)) besideEntries (fun _ _ => rfl) l s

theorem besideEntries_setEnt (s : State) (i j v : Nat) : besideEntries (s.setEnt i j v) = besideEntries s := rfl

/-- Entries of an index below those that are set keep their values. -/
theorem foldl_setEnt_below {α : Type} {i' j' : Nat} (i : α → Nat) (j v : α → Nat) (h : ∀ x, ekey i' j' < ekey (i x) (j x)) (l : List α) (s : State) :
    (l.foldl (fun t x => t.setEnt (i x) (j x) (v x)) s).ent i' j' = s.ent i' j' :=
  foldl_keeps (fun t x => t.setEnt (i x) (j x) (v x)) (fun t => t.ent i' j') (fun t x => State.ent_setEnt_ne t _ _ _ _ _ (Nat.ne_of_lt (h x))) l s

/-- Showing the tab in force changes entries alone, not the duty, and clears the reason of a refusal. -/
theorem showTab_shows (s : State) (base origin : Nat) : besideEntries (showTab s base origin) = besideEntries s ∧
    (showTab s base origin).ent 0x2200 5 = s.ent 0x2200 5 ∧ (showTab s base origin).ent 0x5000 4 = 0 := by
  have hcleared : besideEntries (clearEnts [(0x5110, 1, 0x40), (0x5062, 1, 8)] s) = besideEntries s := rfl
  have hduty : (clearEnts [(0x5110, 1, 0x40), (0x5062, 1, 8)] s).ent 0x2200 5 = s.ent 0x2200 5 := State.ent_clearEnts_outside s (by decide)
  unfold showTab
  dsimp only
  generalize clearEnts [(0x5110, 1, 0x40), (0x5062, 1, 8)] s = a at hcleared hduty ⊢
  generalize (if secsOf s base 4 = [] then [] else stageTable s (field (oneSec s base 4) 16 8)).zipIdx = stages
  have hmaxima := foldl_setEnt_beside (fun _ => 0x5110) (fun k => k + 1) (fun k => thMaximum (tabHead s base) k) (List.range (thSlots (tabHead s base))) a
  have hmaximaDuty := foldl_setEnt_below (i' := 0x2200) (j' := 5) (fun _ => 0x5110) (fun k => k + 1) (fun k => thMaximum (tabHead s base) k)
    (fun k => by unfold ekey; omega) (List.range (thSlots (tabHead s base))) a
  generalize (List.range (thSlots (tabHead s base))).foldl (fun t k => t.setEnt 0x5110 (k + 1) (thMaximum (tabHead s base) k)) a = b
    at hmaxima hmaximaDuty ⊢
  have hstages := foldl_setEnt_beside (fun _ => 0x5062) (fun x => x.2 + 1) (fun x => x.1.2.2) stages b
  have hstagesDuty := foldl_setEnt_below (i' := 0x2200) (j' := 5) (fun _ => 0x5062) (fun x => x.2 + 1) (fun x => x.1.2.2)
    (fun x => by unfold ekey; omega) stages b
  generalize stages.foldl (fun t x => t.setEnt 0x5062 (x.2 + 1) x.1.2.2) b = c at hstages hstagesDuty ⊢
  refine ⟨?_, ?_, State.ent_setEnt_self _ 0x5000 4 0⟩
  · rw [besideEntries_setEnt, besideEntries_setEnt, besideEntries_setEnt, besideEntries_setEnt, besideEntries_setEnt, besideEntries_setEnt,
      besideEntries_setEnt, besideEntries_setEnt, besideEntries_setEnt, besideEntries_setEnt, besideEntries_setEnt, hstages, hmaxima, hcleared]
  · rw [State.ent_setEnt_ne _ _ _ _ _ _ (by decide), State.ent_setEnt_ne _ _ _ _ _ _ (by decide), State.ent_setEnt_ne _ _ _ _ _ _ (by decide),
      State.ent_setEnt_ne _ _ _ _ _ _ (by decide), State.ent_setEnt_ne _ _ _ _ _ _ (by decide), State.ent_setEnt_ne _ _ _ _ _ _ (by decide),
      State.ent_setEnt_ne _ _ _ _ _ _ (by decide), State.ent_setEnt_ne _ _ _ _ _ _ (by decide), State.ent_setEnt_ne _ _ _ _ _ _ (by decide),
      State.ent_setEnt_ne _ _ _ _ _ _ (by decide), State.ent_setEnt_ne _ _ _ _ _ _ (by decide), hstagesDuty, hmaximaDuty, hduty]

/-- The program of a core in a list by cores. -/
def programFor (l : List (Nat × ProgramImg)) (c : Nat) : Option ProgramImg := (l.find? fun p => decide (p.1 = c)).map Prod.snd

/-- One core loaded. -/
def loadOne (l : List (Nat × ProgramImg)) (t : State) (c : Nat) : State := (freshSram t 6 c).modCore c fun x => loadCore x (programFor l c)

theorem loadOne_core (l : List (Nat × ProgramImg)) (t : State) (c d : Nat) :
    (loadOne l t c).core d = if d = c then loadCore (t.core c) (programFor l c) else t.core d := by
  have hcores : (freshSram t 6 c).cores = t.cores := (touchSram_accounts t 6 c 0 _).cores
  have hcore (e : Nat) : (freshSram t 6 c).core e = t.core e := by
    unfold State.core
    rw [hcores]
  unfold loadOne
  rw [State.core_modCore, hcore, hcore]

/-- After the first n cores, those are loaded and the others as before. -/
theorem loadFirst_core (l : List (Nat × ProgramImg)) (s : State) (n d : Nat) :
    ((List.range n).foldl (loadOne l) s).core d = if d < n then loadCore (s.core d) (programFor l d) else s.core d := by
  induction n with
  | zero => rfl
  | succ n ih =>
    rw [List.range_succ, List.foldl_append, List.foldl_cons, List.foldl_nil, loadOne_core]
    by_cases hd : d = n
    · subst hd
      rw [if_pos rfl, if_pos (Nat.lt_succ_self d), ih, if_neg (Nat.lt_irrefl d)]
    · rw [if_neg hd, ih]
      split <;> split <;> first | rfl | omega

theorem loadCores_core (s : State) (l : List (Nat × ProgramImg)) {c : Nat} (hc : c < 192) :
    (loadCores s l).core c = loadCore (s.core c) (programFor l c) :=
  (loadFirst_core l s 192 c).trans (if_pos hc)

/-- What loading a core leaves of the rest. -/
def besideCores (s : State) : Ctl × Run × Power × SMap Byte × SMap (Option (List Byte)) := (s.ctl, s.run, s.power, s.mem.hbm, s.octs)

theorem loadOne_keeps (l : List (Nat × ProgramImg)) (t : State) (c : Nat) :
    besideCores (loadOne l t c) = besideCores t ∧ (loadOne l t c).ent 0x2200 5 = t.ent 0x2200 5 := by
  have haccounts := touchSram_accounts t 6 c 0 (8 * 2 ^ 24)
  have hocts : (touchSram t 6 c 0 (8 * 2 ^ 24)).octs = t.octs :=
    show (besideAccounts (touchSram t 6 c 0 (8 * 2 ^ 24))).octs = (besideAccounts t).octs from congrArg State.octs haccounts.kept
  refine ⟨?_, haccounts.low 0x2200 5 (by decide) (by decide)⟩
  change ((freshSram t 6 c).ctl, (freshSram t 6 c).run, (freshSram t 6 c).power, (freshSram t 6 c).mem.hbm, (freshSram t 6 c).octs) = _
  rw [freshSram_hbm]
  unfold freshSram
  rw [haccounts.ctl, haccounts.run, haccounts.power, hocts]
  rfl

theorem loadCores_keeps (s : State) (l : List (Nat × ProgramImg)) :
    besideCores (loadCores s l) = besideCores s ∧ (loadCores s l).ent 0x2200 5 = s.ent 0x2200 5 :=
  ⟨foldl_keeps (loadOne l) besideCores (fun t c => (loadOne_keeps l t c).1) _ s,
    foldl_keeps (loadOne l) (fun t => t.ent 0x2200 5) (fun t c => (loadOne_keeps l t c).2) _ s⟩

/-- The cores of a start are loaded; those of a resume take their state from their images later. -/
def coresLoaded (s : State) (base : Nat) : State := if s.ctl.resuming then s else loadCores s (programs s base)

theorem coresLoaded_keeps (s : State) (base : Nat) :
    besideCores (coresLoaded s base) = besideCores s ∧ (coresLoaded s base).ent 0x2200 5 = s.ent 0x2200 5 := by
  unfold coresLoaded
  split
  · exact ⟨rfl, rfl⟩
  · exact loadCores_keeps s _

theorem coresLoaded_core {s : State} (h : s.ctl.resuming = false) (base : Nat) {c : Nat} (hc : c < 192) :
    (coresLoaded s base).core c = loadCore (s.core c) (programFor (programs s base) c) := by
  unfold coresLoaded
  rw [if_neg (by rw [h]; decide)]
  exact loadCores_core s _ hc

/-- A measurement that is made already is shown (R450). -/
def measuredShown (s : State) : State :=
  match s.run.measurement with
  | some m => s.setOct 0x5000 7 m
  | none => s

theorem measuredShown_keeps (s : State) : (measuredShown s).ctl = s.ctl ∧ (measuredShown s).run = s.run ∧ (measuredShown s).mem = s.mem ∧
    (measuredShown s).dict = s.dict ∧ (measuredShown s).cores = s.cores := by
  unfold measuredShown
  split <;> exact ⟨rfl, rfl, rfl, rfl, rfl⟩

theorem oct_setOct_self (s : State) {i j : Nat} {b : List Byte} {e : EntryDef} (he : entryOf i j = some e) (hb : b.length = e.ty.size) :
    (s.setOct i j b).oct i j = b := by
  unfold State.oct State.setOct
  dsimp only
  rw [he, sget_sset, if_pos rfl]
  exact padTo_of_length hb

theorem measuredShown_oct {s : State} {m : List Byte} (h : s.run.measurement = some m) (hm : m.length = 48) : (measuredShown s).oct 0x5000 7 = m := by
  unfold measuredShown
  rw [h]
  exact oct_setOct_self s (e := (entryOf 0x5000 7).get (by decide)) (by decide) (by rw [hm]; decide)

/-- The tab loaded and shown. -/
def tabShown (s : State) (base : Nat) : State :=
  showTab (measuredShown (coresLoaded s base)) base ((measuredShown (coresLoaded s base)).run.start.toNat - pauseOffset (measuredShown (coresLoaded s base)))

section
variable (s : State) (base : Nat)

/-- The run, the collectives and the ramp that the load of a tab puts into a state u that shows it. -/
def tabTaken (u : State) : State :=
  { u with
    coll := { (if s.ctl.resuming then s.coll else Coll.reset) with
      image := if secsOf s base 4 = [] then [] else collImage (oneSec s base 4)
      stages := if secsOf s base 4 = [] then [] else stageTable s (field (oneSec s base 4) 16 8) }
    run := { u.run with
      sets := (schedSets s base).map fun x => (x.1, x.2.2), capos := capoTable s base, shards := shardTabEntries s (thShards (tabHead s base))
      shapeSlots := thSlots (tabHead s base), checked := true }
    power := { u.power with ramp := some (u.run.start, rampWindow s, u.ent 0x2200 5, 0) } }

theorem loadTab_eq : loadTab s base = tabTaken s base (tabShown s base) := by
  unfold loadTab tabShown measuredShown coresLoaded tabTaken
  dsimp only <;>
    (generalize (if s.ctl.resuming = true then s else loadCores s (programs s base)) = a
     cases a.run.measurement <;> dsimp only)

end

/-- What the load of a tab leaves, of a state s that reads it. -/
structure TabLoaded (s u : State) (base : Nat) : Prop where
  ctl : u.ctl = s.ctl
  checked : u.run.checked = true
  capos : u.run.capos = capoTable s base
  sets : u.run.sets = (schedSets s base).map fun x => (x.1, x.2.2)
  shards : u.run.shards = shardTabEntries s (thShards (tabHead s base))
  ramp : u.power.ramp = some (s.run.start, rampWindow s, s.ent 0x2200 5, 0)
  reason : u.ent 0x5000 4 = 0
  hbm : u.mem.hbm = s.mem.hbm
  measured : ∀ m, s.run.measurement = some m → m.length = 48 → u.oct 0x5000 7 = m
  cores : s.ctl.resuming = false → ∀ c, c < 192 → u.core c = loadCore (s.core c) (programFor (programs s base) c)

/-- What the tab loaded and shown has of the state before. -/
theorem tabShown_keeps (s : State) (base : Nat) : (tabShown s base).ctl = s.ctl ∧ (tabShown s base).run = s.run ∧
    (tabShown s base).mem.hbm = s.mem.hbm ∧ (tabShown s base).ent 0x2200 5 = s.ent 0x2200 5 ∧ (tabShown s base).ent 0x5000 4 = 0 ∧
    (tabShown s base).cores = (coresLoaded s base).cores ∧ (tabShown s base).octs = (measuredShown (coresLoaded s base)).octs := by
  unfold tabShown
  obtain ⟨hcores, hduty⟩ := coresLoaded_keeps s base
  obtain ⟨hctl, hrest⟩ := Prod.mk.inj hcores
  obtain ⟨hrun, hrest⟩ := Prod.mk.inj hrest
  obtain ⟨-, hrest⟩ := Prod.mk.inj hrest
  obtain ⟨hhbm, -⟩ := Prod.mk.inj hrest
  generalize coresLoaded s base = a at hctl hrun hhbm hduty ⊢
  obtain ⟨hmctl, hmrun, hmmem, hmdict, hmcores⟩ := measuredShown_keeps a
  generalize measuredShown a = b at hmctl hmrun hmmem hmdict hmcores ⊢
  obtain ⟨hbeside, hkept, hreason⟩ := showTab_shows b base (b.run.start.toNat - pauseOffset b)
  generalize showTab b base (b.run.start.toNat - pauseOffset b) = d at hbeside hkept hreason ⊢
  have hdmem := (mem_of_besideEntries hbeside).trans hmmem
  have hdrun : d.run = b.run := show (besideEntries d).run = (besideEntries b).run from congrArg State.run hbeside
  have hdcores : d.cores = b.cores := show (besideEntries d).cores = (besideEntries b).cores from congrArg State.cores hbeside
  have hdocts : d.octs = b.octs := show (besideEntries d).octs = (besideEntries b).octs from congrArg State.octs hbeside
  exact ⟨((ctl_of_besideEntries hbeside).trans hmctl).trans hctl, (hdrun.trans hmrun).trans hrun, (congrArg Mem.hbm hdmem).trans hhbm,
    hkept.trans ((State.ent_of_dict hmdict 0x2200 5).trans hduty), hreason, hdcores.trans hmcores, hdocts⟩

theorem oct_of_octs {s t : State} (h : t.octs = s.octs) (i j : Nat) : t.oct i j = s.oct i j := by
  unfold State.oct
  rw [h]

theorem core_of_cores {s t : State} (h : t.cores = s.cores) (c : Nat) : t.core c = s.core c := by
  unfold State.core
  rw [h]

theorem loadTab_loads (s : State) (base : Nat) : TabLoaded s (loadTab s base) base := by
  obtain ⟨hctl, hrun, hhbm, hduty, hreason, hcores, hocts⟩ := tabShown_keeps s base
  obtain ⟨hkept, -⟩ := coresLoaded_keeps s base
  have hloaded : (coresLoaded s base).run = s.run := (Prod.mk.inj (Prod.mk.inj hkept).2).1
  rw [loadTab_eq]
  generalize tabShown s base = u at hctl hrun hhbm hduty hreason hcores hocts ⊢
  refine ⟨hctl, rfl, by dsimp only [tabTaken], by dsimp only [tabTaken], by dsimp only [tabTaken], ?_, hreason, hhbm, fun m hm hlen => ?_,
    fun hr c hc => ?_⟩
  · change some (u.run.start, rampWindow s, u.ent 0x2200 5, 0) = _
    rw [hrun, hduty]
  · exact (oct_of_octs hocts 0x5000 7).trans (measuredShown_oct ((congrArg Run.measurement hloaded).trans hm) hlen)
  · exact (core_of_cores hcores c).trans (coresLoaded_core hr base hc)

/-! ### A refused arming (R452) -/

/-- A cancelled arming leaves cores and memory, and raises nothing. -/
theorem cancelArming_leaves (s : State) : (cancelArming s).eff = (if s.ctl.resuming then Dev.pause else Dev.ready) ∧ (cancelArming s).run.checked = false ∧
    (cancelArming s).cores = s.cores ∧ (cancelArming s).mem = s.mem ∧ (cancelArming s).ev = s.ev ∧ (cancelArming s).now = s.now := by
  have hstopped : (rampStopped s).ctl = s.ctl ∧ (rampStopped s).cores = s.cores ∧ (rampStopped s).mem = s.mem ∧ (rampStopped s).ev = s.ev ∧
      (rampStopped s).now = s.now := by
    unfold rampStopped
    split <;> exact ⟨rfl, rfl, rfl, rfl, rfl⟩
  obtain ⟨hctl, hcores, hmem, hev, hnow⟩ := hstopped
  rw [cancelArming_eq, hctl]
  have hd : (if s.ctl.resuming then Dev.pause else Dev.ready) ≠ .test := by split <;> decide
  generalize rampStopped s = t at hcores hmem hev hnow ⊢
  obtain ⟨hrun', -, hcores', hmem', hev'⟩ := enterEff_keeps (checksEnded t) (if s.ctl.resuming then .pause else .ready)
  have hnow' : ((checksEnded t).enterEff (if s.ctl.resuming then .pause else .ready)).now = t.now := by
    rcases (checksEnded t).enterEff_cases (if s.ctl.resuming then .pause else .ready) with ⟨-, h⟩ | ⟨-, h⟩ <;> rw [h] <;> rfl
  exact ⟨State.eff_enterEff _ _ hd, congrArg Run.checked hrun', hcores'.trans hcores, hmem'.trans hmem, hev'.trans hev, hnow'.trans hnow⟩

/-- What a refused arming leaves, of a state s. -/
structure ArmingRefused (s u : State) (code : Nat) : Prop where
  eff : u.eff = if s.ctl.resuming then Dev.pause else Dev.ready
  checked : u.run.checked = false
  cores : u.cores = s.cores
  mem : u.mem = s.mem
  reason : u.ent 0x5000 4 = code
  raised : ∃ e, u.ev.raised = s.ev.raised ++ [e] ∧ e.code = BitVec.ofNat 16 code

theorem refuseArming_refuses (s : State) (b : Bad) : ArmingRefused s (refuseArming s b) b.1 := by
  obtain ⟨heff, hchecked, hcores, hmem, hev, -⟩ := cancelArming_leaves s
  unfold refuseArming
  generalize cancelArming s = t at heff hchecked hcores hmem hev ⊢
  exact ⟨heff, hchecked, hcores, hmem, State.ent_setEnt_self _ 0x5000 4 b.1, _, congrArg (fun x : Events => x.raised ++ [_]) hev, rfl⟩

/-! ### The checks read no clock -/

section
variable (s : State) (t : FTime) (base : Nat)

theorem secsOf_withNow (kind : Nat) : secsOf { s with now := t } base kind = secsOf s base kind := rfl
theorem oneSec_withNow (kind : Nat) : oneSec { s with now := t } base kind = oneSec s base kind := rfl

theorem tabHead_withNow : tabHead { s with now := t } base = tabHead s base := rfl

theorem hread_withNow (n : Nat) : hread { s with now := t } base n = hread s base n := rfl

theorem shardTabEntries_withNow : shardTabEntries { s with now := t } base = shardTabEntries s base := rfl

theorem schedSets_withNow : schedSets { s with now := t } base = schedSets s base := rfl

theorem programs_withNow : programs { s with now := t } base = programs s base := rfl

theorem stagesOk_withNow : stagesOk { s with now := t } base = stagesOk s base := rfl

theorem recordCount_withNow (l) : recordCount { s with now := t } l = recordCount s l := rfl

theorem checkVersion_withNow : checkVersion { s with now := t } base = checkVersion s base := rfl

theorem checkStructure_withNow : checkStructure { s with now := t } base = checkStructure s base := rfl

theorem checkPrograms_withNow : checkPrograms { s with now := t } base = checkPrograms s base := rfl

theorem checkSchedules_withNow : checkSchedules { s with now := t } base = checkSchedules s base := rfl

theorem checkShards_withNow : checkShards { s with now := t } base = checkShards s base := rfl

theorem checkLayout_withNow : checkLayout { s with now := t } base = checkLayout s base := rfl

theorem checkImages_withNow : checkImages { s with now := t } = checkImages s := rfl

theorem measuredBytes_withNow : measuredBytes { s with now := t } base = measuredBytes s base := by
  unfold measuredBytes
  rw [tabHead_withNow, hread_withNow, secsOf_withNow]

theorem measure_withNow : measure { s with now := t } base = measure s base := by
  unfold measure
  rw [measuredBytes_withNow]

theorem ownerFailure_withNow : ownerFailure { s with now := t } base = ownerFailure s base := by
  unfold ownerFailure
  rw [measure_withNow, oneSec_withNow, secsOf_withNow]
  rfl

theorem checkOwner_withNow : checkOwner { s with now := t } base = checkOwner s base := by
  unfold checkOwner
  rw [ownerFailure_withNow]
  rfl

theorem checkPaused_withNow : checkPaused { s with now := t } base = checkPaused s base := by
  unfold checkPaused
  rw [measure_withNow]

theorem checkColl_withNow : checkColl { s with now := t } base = checkColl s base := by
  unfold checkColl
  simp only [secsOf_withNow s t, oneSec_withNow s t, tabHead_withNow s t, shardTabEntries_withNow s t, schedSets_withNow s t, programs_withNow s t,
    recordCount_withNow s t, stagesOk_withNow s t]
  congr!

theorem armingChecks_withNow : armingChecks { s with now := t } base = armingChecks s base := by
  unfold armingChecks
  rw [checkVersion_withNow s t, checkStructure_withNow s t, checkOwner_withNow s t, checkPaused_withNow s t, checkColl_withNow s t,
    checkPrograms_withNow s t, checkSchedules_withNow s t, tabHead_withNow s t, checkShards_withNow s t, checkLayout_withNow s t, checkImages_withNow s t]

end

/-! ### The checks done -/

section
variable {s : State} {t : FTime}

theorem hashLacks_withNow : hashLacks { s with now := t } = hashLacks s := rfl
theorem hashWaits_withNow : hashWaits { s with now := t } = hashWaits s := rfl
theorem tabRanges_withNow : tabRanges { s with now := t } = tabRanges s := rfl


/-- The state that has read the tab at t, for the checks. -/
def tabRead (s : State) (t : FTime) : State := readRanges { s with now := t } (tabRanges { s with now := t } s.run.tab)

/-- What the arming checks leave of a state v that has read the tab. -/
def checksOutcome (s v : State) : State :=
  if hashLacks s then refuseArming v (0x5505, [])
  else match armingChecks s s.run.tab with
    | some b => refuseArming v b
    | none => loadTab v s.run.tab

/-- What the arming checks come to in time, once they need not wait for the measurement. -/
theorem armingChecksDone_eq (hnow : s.now ≤ t) (harmed : s.eff = .armed) (hchecked : s.run.checked = false)
    (hin : t.toNat + rampWindow s ≤ s.run.start.toNat) (hwaits : hashWaits s = false) :
    exec (.armingChecksDone t) s = .next (checksOutcome s (tabRead s t)) := by
  change execArmingChecksDone t s = _
  unfold execArmingChecksDone atTime
  rw [if_pos hnow]
  have hpasses : ¬ (State.eff { s with now := t } ≠ .armed ∨ s.run.checked = true ∨ s.run.start.toNat < t.toNat + rampWindow { s with now := t } ∨
      hashWaits { s with now := t } = true) := by
    rintro (h | h | h | h)
    · exact h harmed
    · exact Bool.false_ne_true (hchecked.symm.trans h)
    · exact absurd h (Nat.not_lt.2 hin)
    · exact Bool.false_ne_true (hwaits.symm.trans h)
  dsimp only
  rw [if_neg hpasses, hashLacks_withNow, armingChecks_withNow s t, ← tabRead]
  generalize tabRead s t = v
  unfold checksOutcome
  cases hashLacks s with
  | true => rfl
  | false => cases armingChecks s s.run.tab <;> rfl

end

end Sys2Proof.Machine
end

section
/-!
Arming (O36): the measurement, the deadline, and the obligation.
-/
namespace Sys2Proof.Machine
open Sys2Proof

/-! ### The measurement (R450, R476, R477) -/

theorem length_measure (s : State) (base : Nat) : (measure s base).length = 48 := length_padTo ..

theorem hashTab_accounts (s : State) (base : Nat) : Accounts s (hashTab s base) := readRanges_accounts s _

theorem trust_of_accounts {s t : State} (h : Accounts s t) : t.trust = s.trust :=
  show (besideAccounts t).trust = (besideAccounts s).trust from congrArg State.trust h.kept

theorem octs_of_accounts {s t : State} (h : Accounts s t) : t.octs = s.octs :=
  show (besideAccounts t).octs = (besideAccounts s).octs from congrArg State.octs h.kept

theorem oct_setOct_ne (s : State) {i j i' j' : Nat} {b : List Byte} (h : ekey i' j' ≠ ekey i j) : (s.setOct i j b).oct i' j' = s.oct i' j' := by
  unfold State.oct State.setOct
  dsimp only
  rw [sget_sset, if_neg h]

theorem oct_setOct_tabHash (s : State) {b : List Byte} (hb : b.length = 48) : (s.setOct 0x5000 7 b).oct 0x5000 7 = b :=
  oct_setOct_self s (e := (entryOf 0x5000 7).get (by decide)) (by decide) (by rw [hb]; decide)

theorem oct_setOct_register6 (s : State) {b : List Byte} (hb : b.length = 48) : (s.setOct 0x8210 7 b).oct 0x8210 7 = b :=
  oct_setOct_self s (e := (entryOf 0x8210 7).get (by decide)) (by decide) (by rw [hb]; decide)

/-- A measurement shown where p holds, as one setting or none. -/
def shownIf (p : Bool) (s : State) (i j : Nat) (m : List Byte) : State := if p then s.setOct i j m else s

theorem shownIf_keeps (p : Bool) (s : State) (i j : Nat) (m : List Byte) : (shownIf p s i j m).ctl = s.ctl ∧ (shownIf p s i j m).run = s.run ∧
    (shownIf p s i j m).trust = s.trust ∧ (shownIf p s i j m).cores = s.cores := by
  unfold shownIf
  split <;> exact ⟨rfl, rfl, rfl, rfl⟩

theorem shownIf_tabHash (p : Bool) (s : State) {m : List Byte} (hm : m.length = 48) :
    (shownIf p s 0x5000 7 m).oct 0x5000 7 = if p then m else s.oct 0x5000 7 := by
  unfold shownIf
  split
  · exact oct_setOct_tabHash s hm
  · rfl

theorem shownIf_register6 (p : Bool) (s : State) {m : List Byte} (hm : m.length = 48) :
    (shownIf p s 0x8210 7 m).oct 0x8210 7 = if p then m else s.oct 0x8210 7 := by
  unfold shownIf
  split
  · exact oct_setOct_register6 s hm
  · rfl

theorem shownIf_ne (p : Bool) (s : State) {i j i' j' : Nat} {m : List Byte} (h : ekey i' j' ≠ ekey i j) :
    (shownIf p s i j m).oct i' j' = s.oct i' j' := by
  unfold shownIf
  split
  · exact oct_setOct_ne s h
  · rfl

/-- The tab belongs to a run that is paused. -/
def tabPaused (s : State) : Bool := decide (s.eff = .pause) || (decide (s.eff = .armed) && s.ctl.resuming)

theorem tabPaused_of {s : State} (h : s.eff = .pause ∨ (s.eff = .armed ∧ s.ctl.resuming = true)) : tabPaused s = true := by
  unfold tabPaused
  rcases h with h | ⟨h, hr⟩
  · rw [h]
    rfl
  · rw [h, hr]
    rfl

/-- The hash that was owed, noted in the state w that shows it, from the state v that has read the tab. -/
def State.owedNoted (w v : State) (paused : Bool) (m : List Byte) : State :=
  { w with trust := { v.trust with owedTab := none, pausedHash := if paused then some m else v.trust.pausedHash } }

theorem owedMeasured_eq (s : State) (base : Nat) : owedMeasured s base =
    (shownIf (tabPaused s) ((hashTab s base).setOct 0x5000 7 (measure s base)) 0x8210 7 (measure s base)).owedNoted (hashTab s base) (tabPaused s)
      (measure s base) := by
  unfold owedMeasured
  generalize measure s base = m
  generalize hashTab s base = v
  rfl

/-- A hash owed to a run that is paused or over (R450, R476). -/
theorem owedMeasured_records (s : State) (b : Nat) : (owedMeasured s b).trust.owedTab = none ∧ (owedMeasured s b).oct 0x5000 7 = measure s b ∧
    (s.eff = .pause ∨ (s.eff = .armed ∧ s.ctl.resuming = true) →
      (owedMeasured s b).trust.pausedHash = some (measure s b) ∧ (owedMeasured s b).oct 0x8210 7 = measure s b) ∧
    (owedMeasured s b).run = s.run ∧ (owedMeasured s b).ctl = s.ctl ∧ (owedMeasured s b).cores = s.cores := by
  have haccounts := hashTab_accounts s b
  have hlen := length_measure s b
  rw [owedMeasured_eq]
  generalize hashTab s b = v at haccounts ⊢
  generalize measure s b = m at hlen ⊢
  obtain ⟨hctl, hrun, -, hcores⟩ := shownIf_keeps (tabPaused s) (v.setOct 0x5000 7 m) 0x8210 7 m
  have hshown : (shownIf (tabPaused s) (v.setOct 0x5000 7 m) 0x8210 7 m).oct 0x5000 7 = m :=
    (shownIf_ne _ _ (by decide)).trans (oct_setOct_tabHash v hlen)
  have hregister := shownIf_register6 (tabPaused s) (v.setOct 0x5000 7 m) hlen
  generalize shownIf (tabPaused s) (v.setOct 0x5000 7 m) 0x8210 7 m = w at hctl hrun hcores hshown hregister ⊢
  refine ⟨rfl, hshown, fun hpaused => ?_, hrun.trans haccounts.run, hctl.trans haccounts.ctl, hcores.trans haccounts.cores⟩
  rw [tabPaused_of hpaused] at hregister ⊢
  exact ⟨rfl, hregister⟩

/-- A measurement recorded for the run. -/
def State.recorded (v : State) (m : List Byte) : State :=
  { v with run := { v.run with measurement := some m }, trust := { v.trust with hashing := false } }

theorem eff_shownIf (p : Bool) (s : State) (i j : Nat) (m : List Byte) : (shownIf p s i j m).running = s.running := by
  unfold shownIf
  split <;> rfl

theorem runMeasured_eq (s : State) :
    runMeasured s = shownIf (hashTab s s.run.tab).running
      (shownIf (hashTab s s.run.tab).run.checked ((hashTab s s.run.tab).recorded (measure s s.run.tab)) 0x5000 7 (measure s s.run.tab)) 0x8210 7
      (measure s s.run.tab) := by
  unfold runMeasured
  generalize measure s s.run.tab = m
  generalize hashTab s s.run.tab = v
  change shownIf (shownIf v.run.checked (v.recorded m) 0x5000 7 m).running (shownIf v.run.checked (v.recorded m) 0x5000 7 m) 0x8210 7 m = _
  rw [eff_shownIf]
  rfl

/-- The measurement of the tab that is armed or running (R450, R476). -/
theorem runMeasured_records (s : State) : (runMeasured s).run.measurement = some (measure s s.run.tab) ∧ (runMeasured s).trust.hashing = false ∧
    (runMeasured s).ctl = s.ctl ∧ (runMeasured s).cores = s.cores ∧
    (runMeasured s).oct 0x5000 7 = (if s.run.checked then measure s s.run.tab else s.oct 0x5000 7) ∧
    (runMeasured s).oct 0x8210 7 = (if s.running then measure s s.run.tab else s.oct 0x8210 7) := by
  have haccounts := hashTab_accounts s s.run.tab
  have hlen := length_measure s s.run.tab
  have hrunning : (hashTab s s.run.tab).running = s.running := by
    unfold State.running State.eff
    rw [haccounts.ctl]
  have hchecked : (hashTab s s.run.tab).run.checked = s.run.checked := congrArg Run.checked haccounts.run
  rw [runMeasured_eq, hrunning, hchecked]
  generalize hashTab s s.run.tab = v at haccounts ⊢
  generalize measure s s.run.tab = m at hlen ⊢
  obtain ⟨hctl, hrun, htrust, hcores⟩ := shownIf_keeps s.run.checked (v.recorded m) 0x5000 7 m
  have htab := shownIf_tabHash s.run.checked (v.recorded m) hlen
  have htab6 : (shownIf s.run.checked (v.recorded m) 0x5000 7 m).oct 0x8210 7 = (v.recorded m).oct 0x8210 7 := shownIf_ne _ _ (by decide)
  generalize shownIf s.run.checked (v.recorded m) 0x5000 7 m = w at hctl hrun htrust hcores htab htab6 ⊢
  obtain ⟨hctl', hrun', htrust', hcores'⟩ := shownIf_keeps s.running w 0x8210 7 m
  refine ⟨congrArg Run.measurement (hrun'.trans hrun), congrArg Trust.hashing (htrust'.trans htrust), (hctl'.trans hctl).trans haccounts.ctl,
    (hcores'.trans hcores).trans haccounts.cores, ?_, ?_⟩
  · rw [shownIf_ne _ _ (by decide), htab]
    exact congrArg (fun o => if s.run.checked = true then m else o) (oct_of_octs (octs_of_accounts haccounts) 0x5000 7)
  · rw [shownIf_register6 _ _ hlen, htab6]
    exact congrArg (fun o => if s.running = true then m else o) (oct_of_octs (octs_of_accounts haccounts) 0x8210 7)

/-! ### The deadline (R497) -/

/-- The state at the instant of the deadline, with one free word drawn. -/
def deadlineReached (s : State) : State :=
  { s with
    now := if s.now.toNat ≤ s.run.start.toNat - rampWindow s then BitVec.ofNat 64 (s.run.start.toNat - rampWindow s) else s.now
    freeCtr := s.freeCtr + 1 }

theorem deadlineReached_late (s : State) : s.run.start.toNat - rampWindow s ≤ (deadlineReached s).now.toNat := by
  unfold deadlineReached
  dsimp only
  have hlt := s.run.start.isLt
  split
  · rw [BitVec.toNat_ofNat, Nat.mod_eq_of_lt (by omega)]
  · omega

theorem armingDeadline_eq {s : State} (harmed : s.eff = .armed) (hchecked : s.run.checked = false) :
    ∃ short, exec .armingDeadline s =
      .next ((tooSoon (cancelArming (deadlineReached s)) s.run.start short 4).setEnt 0x5000 4 0x1202) := by
  refine ⟨(Config.freeWord s.freeCtr).toNat % 2 ^ 32, ?_⟩
  change execArmingDeadline s = _
  unfold execArmingDeadline
  rw [if_pos ⟨harmed, hchecked⟩]
  unfold deadlineReached drawNat
  dsimp only
  split <;> rfl

/-- The cause of START_TOO_SOON is the byte behind start and shortfall (Table 15-15). -/
theorem field_tooSoon_cause (start short : Nat) : field (detail [(8, start), (4, short), (1, 4)]) 12 1 = 4 := by
  unfold detail
  rw [field_padTo (by decide)]
  simp only [detailAux, List.nil_append, List.length_nil, List.length_append, length_le, List.length_replicate]
  rw [field_append_of_le (by simp)]
  simp
  rfl

theorem armingDeadline_cancels {s : State} (harmed : s.eff = .armed) (hchecked : s.run.checked = false) :
    ∃ u, exec .armingDeadline s = .next u ∧ u.eff = (if s.ctl.resuming then .pause else .ready) ∧
      s.run.start.toNat - rampWindow s ≤ u.now.toNat ∧ u.ent 0x5000 4 = 0x1202 ∧ u.cores = s.cores ∧
      ∃ e, u.ev.raised = s.ev.raised ++ [e] ∧ e.code = 0x1202 ∧ field e.detail 12 1 = 4 := by
  obtain ⟨short, hexec⟩ := armingDeadline_eq harmed hchecked
  obtain ⟨heff, -, hcores, -, hev, hnow⟩ := cancelArming_leaves (deadlineReached s)
  have hlate := deadlineReached_late s
  rw [hexec]
  generalize cancelArming (deadlineReached s) = v at heff hcores hev hnow ⊢
  refine ⟨_, rfl, heff, hlate.trans (Nat.le_of_eq (congrArg BitVec.toNat hnow).symm), State.ent_setEnt_self _ 0x5000 4 0x1202, hcores, _,
    congrArg (fun x : Events => x.raised ++ [_]) hev, rfl, field_tooSoon_cause ..⟩

/-! ### The checks by their outcome (R452) -/

section
variable {s : State} {t : FTime}

theorem tabRead_accounts (s : State) (t : FTime) : Accounts { s with now := t } (tabRead s t) := readRanges_accounts ..

theorem tabRead_sameHbm (s : State) (t : FTime) : SameHbm s (tabRead s t) := by
  unfold tabRead
  generalize tabRanges { s with now := t } s.run.tab = l
  obtain ⟨hhbm, hmodes⟩ := readRanges_sameHbm { s with now := t } l
  exact ⟨hhbm, hmodes⟩

theorem tabRead_sound (h : HbmSound s) (t : FTime) : (tabRead s t).ev = s.ev := readRanges_sound (s := { s with now := t }) h _

/-- What refused checks leave, as their statements say it. -/
theorem checksRefused {v : State} (b : Bad) (haccounts : Accounts { s with now := t } v) (hhbm : SameHbm s v) :
    (refuseArming v b).eff = (if s.ctl.resuming then .pause else .ready) ∧ (refuseArming v b).run.checked = false ∧ (refuseArming v b).cores = s.cores ∧
      (refuseArming v b).mem.hbm = s.mem.hbm ∧ (refuseArming v b).ent 0x5000 4 = b.1 ∧
      ∃ e, (refuseArming v b).ev.raised = v.ev.raised ++ [e] ∧ e.code = BitVec.ofNat 16 b.1 := by
  have hrefused := refuseArming_refuses v b
  have hctl : v.ctl = s.ctl := haccounts.ctl
  have heff := hrefused.eff
  rw [hctl] at heff
  exact ⟨heff, hrefused.checked, hrefused.cores.trans haccounts.cores, (congrArg Mem.hbm hrefused.mem).trans hhbm.hbm, hrefused.reason, hrefused.raised⟩

theorem mem_of_appended {α : Type} {l l' : List α} {e : α} (h : l = l' ++ [e]) : e ∈ l := by
  rw [h]
  exact List.mem_append_right _ (List.mem_singleton_self e)

theorem checks_lack (hnow : s.now ≤ t) (harmed : s.eff = .armed) (hchecked : s.run.checked = false)
    (hin : t.toNat + rampWindow s ≤ s.run.start.toNat) (hlacks : hashLacks s = true) :
    ∃ u, exec (.armingChecksDone t) s = .next u ∧ u.eff = (if s.ctl.resuming then .pause else .ready) ∧ u.run.checked = false ∧ u.cores = s.cores ∧
      u.mem.hbm = s.mem.hbm ∧ u.ent 0x5000 4 = 0x5505 ∧ ∃ e ∈ u.ev.raised, e.code = 0x5505 := by
  have hwaits : hashWaits s = false := by
    unfold hashWaits
    rw [hlacks]
    exact Bool.and_false _
  have hrun := armingChecksDone_eq hnow harmed hchecked hin hwaits
  obtain ⟨heff, hchecked', hcores, hhbm, hreason, e, he, hcode⟩ := checksRefused (0x5505, []) (tabRead_accounts s t) (tabRead_sameHbm s t)
  unfold checksOutcome at hrun
  rw [if_pos hlacks] at hrun
  exact ⟨_, hrun, heff, hchecked', hcores, hhbm, hreason, e, mem_of_appended he, hcode⟩

theorem checks_refuse {b : Bad} (hnow : s.now ≤ t) (harmed : s.eff = .armed) (hchecked : s.run.checked = false)
    (hin : t.toNat + rampWindow s ≤ s.run.start.toNat) (hwaits : hashWaits s = false) (hlacks : hashLacks s = false)
    (hchecks : armingChecks s s.run.tab = some b) :
    ∃ u, exec (.armingChecksDone t) s = .next u ∧ u.eff = (if s.ctl.resuming then .pause else .ready) ∧ u.run.checked = false ∧ u.cores = s.cores ∧
      u.mem.hbm = s.mem.hbm ∧ u.ent 0x5000 4 = b.1 ∧ (∃ e ∈ u.ev.raised, e.code = BitVec.ofNat 16 b.1) ∧
      (HbmSound s → ∃ e, u.ev.raised = s.ev.raised ++ [e] ∧ e.code = BitVec.ofNat 16 b.1) := by
  have hrun := armingChecksDone_eq hnow harmed hchecked hin hwaits
  obtain ⟨heff, hchecked', hcores, hhbm, hreason, e, he, hcode⟩ := checksRefused b (tabRead_accounts s t) (tabRead_sameHbm s t)
  have houtcome : checksOutcome s (tabRead s t) = refuseArming (tabRead s t) b := by
    unfold checksOutcome
    rw [hlacks, if_neg (by decide)]
    rw [hchecks]
  rw [houtcome] at hrun
  refine ⟨_, hrun, heff, hchecked', hcores, hhbm, hreason, ⟨e, mem_of_appended he, hcode⟩, fun hsound => ⟨e, ?_, hcode⟩⟩
  rw [he, tabRead_sound hsound]

/-- What checks that pass leave, of a state s. -/
structure ChecksPassed (s u : State) : Prop where
  eff : u.eff = .armed
  checked : u.run.checked = true
  capos : u.run.capos = capoTable s s.run.tab
  sets : u.run.sets = (schedSets s s.run.tab).map fun x => (x.1, x.2.2)
  shards : u.run.shards = shardTabEntries s (thShards (tabHead s s.run.tab))
  ramp : u.power.ramp = some (s.run.start, rampWindow s, s.ent 0x2200 5, 0)
  reason : u.ent 0x5000 4 = 0
  hbm : u.mem.hbm = s.mem.hbm
  measured : ∀ m, s.run.measurement = some m → m.length = 48 → u.oct 0x5000 7 = m
  cores : s.ctl.resuming = false → ∀ c, c < 192 → ∃ x, u.core c = loadCore x (programFor (programs s s.run.tab) c)

theorem ChecksPassed.core_some {u : State} (h : ChecksPassed s u) (hstart : s.ctl.resuming = false) {c : Nat} (hc : c < 192) {p : Nat × ProgramImg}
    (hp : (programs s s.run.tab).find? (fun p => decide (p.1 = c)) = some p) :
    (u.core c).program = p.2.words ∧ (u.core c).modes = p.2.modes ∧ (u.core c).landing = BitVec.ofNat 48 p.2.landing := by
  obtain ⟨x, hx⟩ := h.cores hstart c hc
  rw [hx]
  unfold programFor
  rw [hp]
  exact ⟨rfl, rfl, rfl⟩

theorem ChecksPassed.core_none {u : State} (h : ChecksPassed s u) (hstart : s.ctl.resuming = false) {c : Nat} (hc : c < 192)
    (hp : (programs s s.run.tab).find? (fun p => decide (p.1 = c)) = none) : (u.core c).program = [] := by
  obtain ⟨x, hx⟩ := h.cores hstart c hc
  rw [hx]
  unfold programFor
  rw [hp]
  rfl

theorem loadTab_passes {v : State} (haccounts : Accounts { s with now := t } v) (hsame : SameHbm s v) (harmed : s.eff = .armed)
    (hchecks : armingChecks s s.run.tab = none) : ChecksPassed s (loadTab v s.run.tab) := by
  obtain ⟨hinside, hshards⟩ := armingChecks_passed hchecks
  have hloads := loadTab_loads v s.run.tab
  generalize loadTab v s.run.tab = u at hloads ⊢
  have hctl : v.ctl = s.ctl := haccounts.ctl
  have hruns : v.run = s.run := haccounts.run
  have hwindow : rampWindow v = rampWindow s := congrArg (ceilDiv 3000000) (haccounts.low 0x2200 1 (by decide) (by decide))
  have hduty : v.ent 0x2200 5 = s.ent 0x2200 5 := haccounts.low 0x2200 5 (by decide) (by decide)
  refine ⟨(eff_of_ctl (hloads.ctl.trans hctl)).trans harmed, hloads.checked, hloads.capos.trans (hsame.capoTable hinside), ?_, ?_, ?_, hloads.reason,
    hloads.hbm.trans hsame.hbm, fun m hm => hloads.measured m ((congrArg Run.measurement hruns).trans hm), fun hstart c hc => ⟨v.core c, ?_⟩⟩
  · rw [hloads.sets, hsame.schedSets hinside]
  · rw [hloads.shards, hsame.tabHead hinside.head]
    exact hsame.shardTabEntries (shards_inside hshards)
  · rw [hloads.ramp, hruns, hwindow, hduty]
  · rw [hloads.cores ((congrArg Ctl.resuming hctl).trans hstart) c hc, hsame.programs hinside]

theorem checks_pass (hnow : s.now ≤ t) (harmed : s.eff = .armed) (hchecked : s.run.checked = false)
    (hin : t.toNat + rampWindow s ≤ s.run.start.toNat) (hwaits : hashWaits s = false) (hlacks : hashLacks s = false)
    (hchecks : armingChecks s s.run.tab = none) : ∃ u, exec (.armingChecksDone t) s = .next u ∧ ChecksPassed s u := by
  refine ⟨_, ?_, loadTab_passes (tabRead_accounts s t) (tabRead_sameHbm s t) harmed hchecks⟩
  rw [armingChecksDone_eq hnow harmed hchecked hin hwaits]
  unfold checksOutcome
  rw [hlacks, if_neg (by decide), hchecks]

end

/-! ### The obligation -/

/-- Settles O36: an arming write by what withholds it and by its floors, the arming checks by the tab that they read, the measurement and the
deadline. -/
theorem arming : Obligations.Arming := by
  unfold Obligations.Arming
  refine ⟨fun s slot req ver t start h => ?_, fun s t => ?_⟩
  · have hgive {status : Nat} {P : State → Prop} (hentry : ∀ f g k, ∃ r, armingWrite (s.takenUp t f g k) start = (status, r) ∧
        ∀ a, P { r with audit := a }) : Gives s (.armingWrite (.fdp slot req ver) t start) slot req status P :=
      sessionWrite_gives h (i := .armingWrite (.fdp slot req ver) t start) rfl (by decide) fun f g k => by
        rw [writeEntry_arming]
        exact hentry f g k
    have hallowed (f g k) : ArmAllowed (s.takenUp t f g k) ↔ (s.ctl.filled = true ∧ s.ent 0x3000 2 = 3 ∧ s.ent 0x7200 5 = 0 ∧ s.ent 0x2100 1 = 0 ∧
        s.power.supplyHalt = none ∧ s.power.sheds = false ∧ s.ctl.armSpent = false ∧ (Resumes s ∨ (s.eff = .ready ∧ s.ent 0x5000 3 = 1))) :=
      ⟨fun ⟨h1, h2, h3, h4, h5, h6, h7, h8⟩ => ⟨h1, h2, h3, h4, h5, h6, h7, h8⟩, fun ⟨h1, h2, h3, h4, h5, h6, h7, h8⟩ => ⟨h1, h2, h3, h4, h5, h6, h7, h8⟩⟩
    refine ⟨fun hnot => ?_, fun hall hplaced => ?_, fun n hall hplaced hn hfar => ?_, fun n hall hplaced hn hfar => ?_⟩
    · exact hgive fun f g k => ⟨_, armingWrite_state fun hyes => hnot ((hallowed f g k).1 hyes), untouched_takenUp s t f g k⟩
    · exact hgive fun f g k => ⟨_, armingWrite_range ((hallowed f g k).2 hall) hplaced, untouched_takenUp s t f g k⟩
    · refine hgive fun f g k => ?_
      obtain ⟨r, hr, harmed⟩ := armingWrite_arms ((hallowed f g k).2 hall) hplaced (n := n) hn hfar
      exact ⟨r, hr, fun a => ⟨harmed.eff, harmed.tab, harmed.begins, harmed.checked, harmed.shown, harmed.hashing, harmed.owed, harmed.resuming,
        harmed.spent, harmed.cores, harmed.mem⟩⟩
    · refine hgive fun f g k => ?_
      obtain ⟨d, hd⟩ := armingWrite_tooSoon ((hallowed f g k).2 hall) hplaced (n := n) hn hfar
      exact ⟨_, hd, fun a => ⟨rfl, rfl, rfl, _, rfl, rfl⟩⟩
  · refine ⟨fun hnow harmed hchecked hin hlacks => ?_, fun hnow harmed hchecked hin hwaits hlacks => ?_, fun b hb => ?_,
      fun howed hhashing hdue => ?_, fun harmed hchecked _ => armingDeadline_cancels harmed hchecked⟩
    · exact checks_lack hnow harmed hchecked hin hlacks
    · cases hchecks : armingChecks s s.run.tab with
      | none =>
        obtain ⟨u, hu, hpassed⟩ := checks_pass hnow harmed hchecked hin hwaits hlacks hchecks
        dsimp only
        refine ⟨u, hu, hpassed.eff, hpassed.checked, hpassed.capos, hpassed.sets, hpassed.shards, hpassed.ramp, hpassed.reason, hpassed.hbm,
          hpassed.measured, fun hstart c hc => ?_⟩
        split
        · next p hp => exact hpassed.core_some hstart hc hp
        · next hp => exact hpassed.core_none hstart hc hp
      | some b => exact checks_refuse hnow harmed hchecked hin hwaits hlacks hchecks
    · refine ⟨owedMeasured s b, ?_, owedMeasured_records s b⟩
      change execTabMeasured s = _
      unfold execTabMeasured
      rw [hb]
    · refine ⟨runMeasured s, ?_, runMeasured_records s⟩
      change execTabMeasured s = _
      unfold execTabMeasured
      rw [howed]
      exact if_pos ⟨hhashing, hdue⟩

end Sys2Proof.Machine
end

section
/-!
Sources of the collectives (O32): trailers, the start of an instance, the signal of a read, and a local input.
-/
namespace Sys2Proof.Machine
open Sys2Proof

/-! ### Trailers (Table 14-5) -/

section
variable (nonfinite versioned : Bool) (version shard inst : Nat)

theorem length_trailerOf : (trailerOf nonfinite versioned version shard inst).length = 16 := by
  simp [trailerOf, length_le]

theorem field_trailerOf_valid : field (trailerOf nonfinite versioned version shard inst) 0 1 = 1 := by
  unfold trailerOf
  rw [field_append_of_lt (by simp [length_le]), field_append_of_lt (by simp [length_le]), field_append_of_lt (by simp [length_le]),
    field_append_of_lt (by simp [length_le]), field_append_of_lt (by simp [length_le])]
  rfl

theorem field_trailerOf_instance : field (trailerOf nonfinite versioned version shard inst) 12 4 = inst % 2 ^ 32 := by
  unfold trailerOf
  rw [field_append_of_le (by simp [length_le])]
  simp only [List.length_append, length_le]
  exact (field_whole (length_le ..)).trans (ofLe_le ..)

theorem trVersion_trailerOf : trVersion (trailerOf nonfinite versioned version shard inst) = version % 2 ^ 32 := by
  unfold trVersion trailerOf
  rw [field_append_of_lt (by simp [length_le]), field_append_of_lt (by simp [length_le]), field_append_of_le (by simp [length_le])]
  simp only [List.length_append, length_le]
  exact (field_whole (length_le ..)).trans (ofLe_le ..)

theorem trVersioned_trailerOf : trVersioned (trailerOf nonfinite versioned version shard inst) = versioned := by
  unfold trVersioned trailerOf
  rw [field_append_of_lt (by simp [length_le]), field_append_of_lt (by simp [length_le]), field_append_of_lt (by simp [length_le]),
    field_append_of_lt (by simp [length_le]), field_append_of_le (by simp [length_le])]
  cases nonfinite <;> cases versioned <;> rfl

end

/-- A trailer that is valid and names its instance. -/
structure TrailerFor (tr : List Byte) (j : Nat) : Prop where
  length : tr.length = 16
  valid : field tr 0 1 = 1
  names : field tr 12 4 = j % 2 ^ 32

theorem trailerFor_trailerOf (nonfinite versioned : Bool) (version shard j : Nat) :
    TrailerFor (trailerOf nonfinite versioned version shard (j % 2 ^ 32)) j :=
  ⟨length_trailerOf .., field_trailerOf_valid .., (field_trailerOf_instance ..).trans (Nat.mod_mod_of_dvd j (dvd_refl _))⟩

theorem trailerFor_sourceTrailer (s : State) (source shardIndex j : Nat) : TrailerFor (sourceTrailer s source shardIndex j) j := by
  unfold sourceTrailer
  dsimp only
  split <;> exact trailerFor_trailerOf ..

/-- The trailer of a source without a buffer: versioned where it has a version source, with the step counter where that is STEP. -/
theorem bareTrailer_spec (s : State) (source j : Nat) : (bareTrailer s source j).1.length = 16 ∧
    trVersioned (bareTrailer s source j).1 = decide (source ≠ 0) ∧
    (source = 2 → trVersion (bareTrailer s source j).1 = s.ent 0x5010 1 % 2 ^ 32) := by
  unfold bareTrailer
  by_cases hsource : source = 0
  · rw [if_pos hsource, hsource]
    exact ⟨length_trailerOf .., trVersioned_trailerOf .., fun h => absurd h (by decide)⟩
  · rw [if_neg hsource]
    refine ⟨length_trailerOf .., ?_, fun h => ?_⟩
    · rw [trVersioned_trailerOf, decide_eq_true hsource]
    · rw [trVersion_trailerOf, if_pos h]
      exact Nat.mod_mod_of_dvd _ (dvd_refl _)

theorem bareTrailer_coll (s : State) (source j : Nat) : (bareTrailer s source j).2.coll = s.coll := by
  unfold bareTrailer
  split <;> rfl

/-! ### The start of an instance (R417) -/

theorem csend_setCsend (s : State) (i : Nat) (x : SendS) (k : Nat) : (s.setCsend i x).csend k = if k = i then x else s.csend k := by
  unfold State.csend State.setCsend
  exact sget_sset ..

theorem csend_of_accounts {s t : State} (h : Accounts s t) (i : Nat) : t.csend i = s.csend i := by
  have hsends := congrArg Coll.sends h.coll
  exact congrArg (fun m => sget SendS.reset m i) hsends

theorem startSend_free {s : State} {i : Nat} (h : (s.csend i).active = false) (b : List Byte) (reading : Bool) :
    (startSend s i b reading).csend i =
      { s.csend i with count := (s.csend i).count + 1, active := true, ordinal := (s.csend i).count, sent := 0, reading := reading, bytes := b } := by
  unfold startSend
  dsimp only
  rw [csend_setCsend, if_pos rfl, if_neg (by rw [h]; decide)]

theorem startSend_busy {s : State} {i : Nat} (h : (s.csend i).active = true) (b : List Byte) (reading : Bool) : (startSend s i b reading).csend i =
    { s.csend i with count := (s.csend i).count + 1, reading := reading, ahead := (s.csend i).ahead ++ [((s.csend i).count, b)] } := by
  unfold startSend
  dsimp only
  rw [csend_setCsend, if_pos rfl, if_pos h]

theorem startSend_mem (s : State) (i : Nat) (b : List Byte) (reading : Bool) : (startSend s i b reading).mem = s.mem := rfl

/-- A sound buffer read locally. -/
theorem localRead_sound {s : State} (h : HbmSound s) {a n : Nat} (ha : a + n ≤ hbmSize) :
    localRead s a n = (hread s a n, lookups s a n false true, false) := by
  rw [localRead_hbm s ha, memRead_sound h]

theorem lookups_hbm (s : State) (h : HbmSound s) (a n : Nat) : (lookups s a n false true).mem.hbm = s.mem.hbm := by
  have hread := memRead_hbm s a n true
  rwa [memRead_sound h] at hread

section
variable {s : State} {t : FTime} {i : Nat}

/-- Nothing holds the next instance of a SEND back. -/
structure SendDue (s : State) (t : FTime) (i : Nat) : Prop where
  time : s.now ≤ t
  running : s.running = true
  drains : s.run.drainSince = none
  op : ceOp (centry s i) = 1
  free : (s.csend i).active = false ∨ ceSource (centry s i) = 0
  read : (s.csend i).reading = false
  gate : syncGate { s with now := t } (centry s (syncOf s i)) (s.csend i).count = true

/-- A SEND whose instance is due is started by its source. -/
theorem sendInstanceStart_eq (h : SendDue s t i) : exec (.sendInstanceStart t i) s = match ceSource (centry s i) with
    | 0 => sendBuffer { s with now := t } i
    | 1 => sendDigest { s with now := t } i
    | 2 => sendVote { s with now := t } i
    | 3 => sendRepair { s with now := t } i
    | _ => sendGroup { s with now := t } i := by
  change execSendInstanceStart t i s = _
  unfold execSendInstanceStart
  rw [atTime_of_le s h.time]
  refine if_neg ?_
  rintro (hn | hn | hn | ⟨hn, hn'⟩ | hn | hn)
  · exact Bool.false_ne_true (hn.symm.trans h.running)
  · exact absurd hn (by rw [show ({ s with now := t } : State).run.drainSince = none from h.drains]; decide)
  · exact hn h.op
  · rcases h.free with hfree | hfree
    · exact Bool.false_ne_true (hfree.symm.trans hn)
    · exact hn' hfree
  · exact Bool.false_ne_true (h.read.symm.trans hn)
  · exact Bool.false_ne_true (hn.symm.trans h.gate)

theorem sendBuffer_of_read {v u : State} {b : List Byte}
    (hread : localRead v (bufAddr (centry v (i + 1)) (v.csend i).count) (ceD (centry v i)) = (b, u, false)) : sendBuffer v i =
      .next (startSend u i (b ++ sourceTrailer u (ceVersionSource (centry v i)) (bufShard (centry v (i + 1))) (v.csend i).count) true) := by
  unfold sendBuffer
  dsimp only
  rw [hread]
  rfl

/-- An instance of a buffer in sound memory takes the buffer's bytes and a trailer. -/
theorem sendBuffer_starts (h : SendDue s t i) (hsource : ceSource (centry s i) = 0)
    (hin : bufAddr (centry s (i + 1)) (s.csend i).count + ceD (centry s i) ≤ hbmSize) (hs : HbmSound s) : ∃ u tr,
    exec (.sendInstanceStart t i) s = .next (startSend u i (hread s (bufAddr (centry s (i + 1)) (s.csend i).count) (ceD (centry s i)) ++ tr) true) ∧
      TrailerFor tr (s.csend i).count ∧ u.csend i = s.csend i ∧ u.mem.hbm = s.mem.hbm := by
  have hsound := hbmSound_withNow hs t
  have haccounts := lookups_accounts (s := { s with now := t }) (bufAddr (centry s (i + 1)) (s.csend i).count) (ceD (centry s i)) false true
  have hhbm := lookups_hbm { s with now := t } hsound (bufAddr (centry s (i + 1)) (s.csend i).count) (ceD (centry s i))
  have hexec := sendBuffer_of_read (localRead_sound hsound hin)
  have hstart := sendInstanceStart_eq h
  rw [hsource] at hstart
  exact ⟨_, _, hstart.trans hexec, trailerFor_sourceTrailer .., csend_of_accounts haccounts i, hhbm⟩

theorem sendVote_starts (h : SendDue s t i) (hsource : ceSource (centry s i) = 2) : ∃ u, exec (.sendInstanceStart t i) s =
      .next (startSend u i (padTo (ceD (centry s i)) (le 4 (voteWord s)) ++
        (bareTrailer { s with now := t } (ceVersionSource (centry s i)) (s.csend i).count).1) false) ∧ u.csend i = s.csend i := by
  have hcoll := bareTrailer_coll { s with now := t } (ceVersionSource (centry s i)) (s.csend i).count
  rw [sendInstanceStart_eq h, hsource]
  refine ⟨(bareTrailer { s with now := t } (ceVersionSource (centry s i)) (s.csend i).count).2, rfl, ?_⟩
  exact congrArg (fun c : Coll => sget SendS.reset c.sends i) hcoll

end

/-! ### Signals -/

/-- From s to u a SYNC has signalled once, or has no signal. -/
def SignalledOnce (s u : State) (sy : Nat) : Prop :=
  (Nat.testBit sy 104 = true → s.isLanding (bits sy 33 24) (bits sy 39 34) = false → s.sem (bits sy 33 24) (bits sy 39 34) + 1 < 2 ^ 32 →
    u.sem (bits sy 33 24) (bits sy 39 34) = s.sem (bits sy 33 24) (bits sy 39 34) + 1) ∧
  (Nat.testBit sy 104 = false → u.cores = s.cores)

theorem syncSignal_signals {s v : State} (hr : v.running = true) (hcores : v.cores = s.cores) (sy : Nat) : SignalledOnce s (syncSignal v sy 1 false) sy := by
  have hsem (c k : Nat) : v.sem c k = s.sem c k := by
    unfold State.sem State.core
    rw [hcores]
  have hlanding (c k : Nat) : v.isLanding c k = s.isLanding c k := by
    unfold State.isLanding State.core
    rw [hcores]
  unfold SignalledOnce syncSignal
  refine ⟨fun hpost hland hfits => ?_, fun hpost => ?_⟩
  · rw [if_pos hpost, ← hsem]
    rw [← hsem] at hfits
    exact (incSem_raises hr Nat.one_ne_zero).raised ((hlanding _ _).trans hland) hfits
  · rw [if_neg (by rw [hpost]; decide)]
    exact hcores

/-- The read of an instance done, without its signal. -/
def readTaken (s : State) (i : Nat) : State := s.setCsend i { s.csend i with reading := false, readDone := (s.csend i).readDone + 1 }

theorem sendReadDone_eq {s : State} {t : FTime} {i : Nat} (hnow : s.now ≤ t) (hrun : s.running = true) (hread : (s.csend i).reading = true) :
    exec (.sendReadDone t i) s = .next (syncSignal (readTaken { s with now := t } i) (centry s (syncOf s i)) 1 false) := by
  change execSendReadDone t i s = _
  unfold execSendReadDone
  rw [atTime_of_le s hnow]
  exact if_pos ⟨hrun, hread⟩

/-! ### A local input (R422) -/

section
variable {s : State} {t : FTime} {i : Nat}

/-- The inputs of a group with one more, unless its instance was discarded. -/
def localsWith (y : GroupS) (entry j : Nat) (b : List Byte) : List (Nat × Nat × List Byte) :=
  y.locals ++ if j < y.done then [] else [(entry, j, b)]

/-- The group of a local input takes the instance, and the entry counts it. -/
def State.joined (v : State) (i g j : Nat) (b : List Byte) : State :=
  (if j < (v.cgroup g).done then v else v.setCgroup g { v.cgroup g with locals := (v.cgroup g).locals ++ [(i, j, b)] }).setCrecv i
    { v.crecv i with count := j + 1 }

theorem joined_locals (v : State) (i g j : Nat) (b : List Byte) : ((v.joined i g j b).cgroup g).locals = localsWith (v.cgroup g) i j b := by
  have hkept (w : State) (x : RecvS) : (w.setCrecv i x).cgroup g = w.cgroup g := rfl
  unfold State.joined localsWith
  rw [hkept]
  split
  · exact (List.append_nil _).symm
  · rw [cgroup_setCgroup, if_pos rfl]

theorem joined_count (v : State) (i g j : Nat) (b : List Byte) : ((v.joined i g j b).crecv i).count = j + 1 := by
  unfold State.joined
  rw [crecv_setCrecv, if_pos rfl]

theorem joined_keeps (v : State) (i g j : Nat) (b : List Byte) : (v.joined i g j b).cores = v.cores ∧ (v.joined i g j b).ctl = v.ctl := by
  unfold State.joined
  split <;> exact ⟨rfl, rfl⟩

theorem crecv_of_accounts {s t : State} (h : Accounts s t) (i : Nat) : t.crecv i = s.crecv i := by
  have hrecvs := congrArg Coll.recvs h.coll
  exact congrArg (fun m => sget RecvS.reset m i) hrecvs

theorem cgroup_of_accounts {s t : State} (h : Accounts s t) (i : Nat) : t.cgroup i = s.cgroup i := by
  have hgroups := congrArg Coll.groups h.coll
  exact congrArg (fun m => sget GroupS.reset m i) hgroups

/-- A local input joined and signalled. -/
theorem joined_signals {v : State} (hrun : v.running = true) (hcores : v.cores = s.cores) (i g j : Nat) (b : List Byte) {sy : Nat}
    (hfits : s.sem (bits sy 33 24) (bits sy 39 34) + 1 < 2 ^ 32) :
    ((syncSignal (v.joined i g j b) sy 1 false).crecv i).count = j + 1 ∧
      ((syncSignal (v.joined i g j b) sy 1 false).cgroup g).locals = localsWith (v.cgroup g) i j b ∧
      SignalledOnce s (syncSignal (v.joined i g j b) sy 1 false) sy := by
  obtain ⟨hjcores, hjctl⟩ := joined_keeps v i g j b
  have hcount := joined_count v i g j b
  have hlocals := joined_locals v i g j b
  generalize v.joined i g j b = w at hjcores hjctl hcount hlocals ⊢
  have hsem (c k : Nat) : w.sem c k = s.sem c k := by
    unfold State.sem State.core
    rw [hjcores, hcores]
  rw [← hsem] at hfits
  have hcoll := (syncSignal_keeps hfits false).2.1
  refine ⟨?_, ?_, syncSignal_signals ((running_of_ctl hjctl).trans hrun) (hjcores.trans hcores) sy⟩
  · rw [State.crecv, hcoll]
    exact hcount
  · rw [cgroup_of_coll hcoll]
    exact hlocals

/-- Nothing holds the next instance of a local input of memory back. -/
structure InputDue (w : State) (i : Nat) : Prop where
  running : w.running = true
  drains : w.run.drainSince = none
  op : ceOp (centry w i) = 5
  isLocal : ceLocal (centry w i) = true
  source : ceSource (centry w i) ≠ 2
  gate : syncGate w (centry w (i + 2)) (w.crecv i).count = true

theorem localInputStart_of_read {w v : State} {b : List Byte} (h : InputDue w i)
    (hread : localRead w (bufAddr (centry w (i + 1)) (w.crecv i).count) (ceD (centry w i)) = (b, v, false)) (hkept : v.crecv i = w.crecv i)
    (hentry : centry v (i + 2) = centry w (i + 2)) :
    exec (.localInputStart w.now i) w = .next (syncSignal (v.joined i (groupAbove w i) (w.crecv i).count
      (b ++ sourceTrailer v (if ceVersioned (centry w i) then 1 else 0) (bufShard (centry w (i + 1))) (w.crecv i).count)) (centry w (i + 2)) 1 false) := by
  have hguard : ¬ (w.running = false ∨ w.run.drainSince.isSome = true ∨ ceOp (centry w i) ≠ opInput ∨ ceLocal (centry w i) = false) := by
    rw [h.running, h.drains, h.op, h.isLocal]
    decide
  change execLocalInputStart w.now i w = _
  unfold execLocalInputStart State.joined
  rw [atTime_of_le w (BitVec.le_refl _), show ({ w with now := w.now } : State) = w from rfl, hkept]
  refine (if_neg hguard).trans ((if_neg h.source).trans ((if_neg ?_).trans ?_))
  · change ¬ syncGate w (centry w (i + 2)) (w.crecv i).count = false
    rw [h.gate]
    decide
  · dsimp only
    rw [hread]
    refine (if_neg Bool.false_ne_true).trans ?_
    dsimp only
    split
    · rw [hentry]
    · rw [show ∀ x, centry (v.setCgroup (groupAbove w i) x) (i + 2) = centry w (i + 2) from fun _ => hentry]

end

/-- A local input at t is one of the module at t. -/
theorem localInputStart_at {s : State} {t : FTime} (hnow : s.now ≤ t) (i : Nat) :
    exec (.localInputStart t i) s = exec (.localInputStart t i) { s with now := t } := by
  change execLocalInputStart t i s = execLocalInputStart t i { s with now := t }
  unfold execLocalInputStart
  rw [atTime_of_le s hnow, atTime_of_le { s with now := t } (BitVec.le_refl t)]

/-- A local input of sound memory takes the buffer's bytes and a trailer. -/
theorem localInput_takes {s : State} {t : FTime} {i : Nat} (hnow : s.now ≤ t) (hdue : InputDue { s with now := t } i)
    (hin : bufAddr (centry s (i + 1)) (s.crecv i).count + ceD (centry s i) ≤ hbmSize) (hs : HbmSound s) :
    ∃ (v : State) (tr : List Byte), exec (.localInputStart t i) s = .next (syncSignal (v.joined i (groupAbove s i) (s.crecv i).count
        (hread s (bufAddr (centry s (i + 1)) (s.crecv i).count) (ceD (centry s i)) ++ tr)) (centry s (i + 2)) 1 false) ∧
      tr.length = 16 ∧ v.cores = s.cores ∧ v.ctl = s.ctl ∧ v.cgroup (groupAbove s i) = s.cgroup (groupAbove s i) := by
  have haccounts := lookups_accounts (s := { s with now := t }) (bufAddr (centry s (i + 1)) (s.crecv i).count) (ceD (centry s i)) false true
  have hexec := localInputStart_of_read hdue (localRead_sound (hbmSound_withNow hs t) hin) (crecv_of_accounts haccounts i)
    (centry_of_accounts haccounts (i + 2))
  exact ⟨_, _, (localInputStart_at hnow i).trans hexec, (trailerFor_sourceTrailer ..).length, haccounts.cores, haccounts.ctl,
    cgroup_of_accounts haccounts _⟩

/-- Settles O32: the start of a SEND by its source, its read done, and a local input. -/
theorem collectiveSources : Obligations.CollectiveSources := by
  unfold Obligations.CollectiveSources
  intro s t i hnow hrun
  refine ⟨fun hdrain hop hsource hread hgate hin hs => ?_, fun hdrain hop hsource hactive hread hgate => ?_, fun hread hfits => ?_,
    fun hdrain hop hlocal hsource hgate hin hs hfits => ?_⟩
  · obtain ⟨u, tr, hexec, htr, hsend, hhbm⟩ := sendBuffer_starts ⟨hnow, hrun, hdrain, hop, .inr hsource, hread, hgate⟩ hsource hin hs
    refine ⟨_, tr, hexec, htr.length, htr.valid, htr.names, fun hfree => ?_, fun hbusy => ?_, (congrArg Mem.hbm (startSend_mem ..)).trans hhbm⟩
    · rw [startSend_free (by rw [hsend]; exact hfree), hsend]
    · rw [startSend_busy (by rw [hsend]; exact hbusy), hsend]
  · obtain ⟨u, hexec, hsend⟩ := sendVote_starts ⟨hnow, hrun, hdrain, hop, .inl hactive, hread, hgate⟩ hsource
    obtain ⟨hlength, hversioned, hversion⟩ := bareTrailer_spec { s with now := t } (ceVersionSource (centry s i)) (s.csend i).count
    refine ⟨_, _, hexec, hlength, ?_, hversioned, hversion⟩
    rw [startSend_free (by rw [hsend]; exact hactive), hsend, hread]
  · have hsignals := syncSignal_signals (s := s) (v := readTaken { s with now := t } i) hrun rfl (centry s (syncOf s i))
    refine ⟨_, sendReadDone_eq hnow hrun hread, ?_, hsignals⟩
    have hsem (c k : Nat) : (readTaken { s with now := t } i).sem c k = s.sem c k := rfl
    rw [← hsem] at hfits
    have hcoll := (syncSignal_keeps hfits false).2.1
    refine (congrArg (fun c : Coll => sget SendS.reset c.sends i) hcoll).trans ?_
    exact (csend_setCsend { s with now := t } i _ i).trans (if_pos rfl)
  · obtain ⟨v, tr, hexec, htr, hcores, hctl, hgroup⟩ := localInput_takes hnow ⟨hrun, hdrain, hop, hlocal, hsource, hgate⟩ hin hs
    obtain ⟨hcount, hlocals, hsignals⟩ := joined_signals ((running_of_ctl hctl).trans hrun) hcores i (groupAbove s i) (s.crecv i).count
      (hread s (bufAddr (centry s (i + 1)) (s.crecv i).count) (ceD (centry s i)) ++ tr) hfits
    rw [hgroup] at hlocals
    exact ⟨_, tr, hexec, htr, hcount, hlocals, hsignals⟩

end Sys2Proof.Machine
end

section
/-!
The code of an SRAM word (O47): parity is additive, so a wrong data bit moves the decoder's sum s by its position and a wrong check bit by its power.
-/
namespace Sys2Proof.Machine
open Sys2Proof

/-! ### Parity -/

theorem parity_foldl (l : List Bool) (a : Bool) : l.foldl xor a = xor a (parity l) := by
  induction l generalizing a with
  | nil => exact (Bool.xor_false a).symm
  | cons b l ih =>
    unfold parity
    rw [List.foldl_cons, List.foldl_cons, ih, ih (xor false b), Bool.false_xor, Bool.xor_assoc]

theorem parity_cons (b : Bool) (l : List Bool) : parity (b :: l) = xor b (parity l) := by
  unfold parity
  rw [List.foldl_cons, parity_foldl, Bool.false_xor]
  rfl

theorem parity_append (l m : List Bool) : parity (l ++ m) = xor (parity l) (parity m) := by
  induction l with
  | nil => exact (Bool.false_xor _).symm
  | cons b l ih => rw [List.cons_append, parity_cons, parity_cons, ih, Bool.xor_assoc]

theorem parity_map_xor {α : Type} (f g : α → Bool) (l : List α) :
    parity (l.map fun x => xor (f x) (g x)) = xor (parity (l.map f)) (parity (l.map g)) := by
  induction l with
  | nil => rfl
  | cons x l ih =>
    rw [List.map_cons, List.map_cons, List.map_cons, parity_cons, parity_cons, parity_cons, ih, Bool.xor_assoc, Bool.xor_assoc,
      Bool.xor_left_comm (g x)]

/-- The parity of a list as the count of its ones. -/
theorem toNat_parity (l : List Bool) : (parity l).toNat = (l.map Bool.toNat).sum % 2 := by
  induction l with
  | nil => rfl
  | cons b l ih =>
    rw [parity_cons, List.map_cons, List.sum_cons, Nat.add_mod, ← ih]
    cases b <;> cases parity l <;> rfl

/-- Of a list with one place at most set, the parity is what stands there. -/
theorem parity_single (a : Nat → Bool) (i n : Nat) : parity ((List.range n).map fun j => a j && decide (j = i)) = (decide (i < n) && a i) := by
  induction n with
  | zero => rfl
  | succ n ih =>
    rw [List.range_succ, List.map_append, parity_append, ih, List.map_singleton, parity_cons]
    by_cases h : n = i
    · subst h
      simp [parity]
    · have hlt : i < n + 1 ↔ i < n := by omega
      simp [parity, h, hlt]

/-! ### Positions and check bits (R526) -/

/-- The position of data bit j. -/
def sramPlace (j : Nat) : Nat := sramPos.getD j 0

theorem sramPos_zipIdx : sramPos.zipIdx = (List.range 64).map fun j => (sramPlace j, j) := by decide

theorem sramPlace_facts : ∀ i < 64, sramPlace i < 128 ∧ sramPlace i ≠ 0 ∧ sramPlace i ∉ [1, 2, 4, 8, 16, 32, 64] ∧
    (sramPos.zipIdx.find? fun q => decide (q.1 = sramPlace i)) = some (sramPlace i, i) := by decide

theorem sramPlace_inj {i j : Nat} (hi : i < 64) (hj : j < 64) (h : sramPlace i = sramPlace j) : i = j := by
  obtain ⟨-, -, -, hfi⟩ := sramPlace_facts i hi
  obtain ⟨-, -, -, hfj⟩ := sramPlace_facts j hj
  rw [h, hfj] at hfi
  exact (Prod.mk.inj (Option.some.inj hfi)).2.symm

/-- Check bit k, of 0 to 6, of a word. -/
def lowBit (d : W64) (k : Nat) : Bool := parity ((List.range 64).map fun j => Nat.testBit (sramPlace j) k && d.getLsbD j)

/-- The parity of a word's data bits. -/
def dataParity (d : W64) : Bool := parity ((List.range 64).map d.getLsbD)

theorem sramLow_eq (d : W64) : sramLow d = (List.range 7).map (lowBit d) := by
  unfold sramLow lowBit
  rw [sramPos_zipIdx]
  simp only [List.map_map]
  rfl

theorem getLsbD_oneHot {w : Nat} (i j : Nat) (hj : j < w) : (1#w <<< i).getLsbD j = decide (j = i) := by
  rw [BitVec.getLsbD_shiftLeft, BitVec.getLsbD_one]
  by_cases h : j = i
  · subst h
    simp [hj]
    omega
  · simp [h]
    omega

theorem lowBit_flip (d : W64) {i : Nat} (hi : i < 64) (k : Nat) : lowBit (d ^^^ (1#64 <<< i)) k = xor (lowBit d k) (Nat.testBit (sramPlace i) k) := by
  have hsplit : ((List.range 64).map fun j => Nat.testBit (sramPlace j) k && (d ^^^ (1#64 <<< i)).getLsbD j) =
      (List.range 64).map fun j => xor (Nat.testBit (sramPlace j) k && d.getLsbD j) (Nat.testBit (sramPlace j) k && decide (j = i)) := by
    refine List.map_congr_left fun j hj => ?_
    rw [BitVec.getLsbD_xor, getLsbD_oneHot i j (List.mem_range.1 hj), Bool.and_xor_distrib_left]
  unfold lowBit
  rw [hsplit, parity_map_xor, parity_single (fun j => Nat.testBit (sramPlace j) k), decide_eq_true hi, Bool.true_and]

theorem dataParity_flip (d : W64) {i : Nat} (hi : i < 64) : dataParity (d ^^^ (1#64 <<< i)) = !dataParity d := by
  have hsplit : (List.range 64).map (d ^^^ (1#64 <<< i)).getLsbD = (List.range 64).map fun j => xor (d.getLsbD j) (true && decide (j = i)) := by
    refine List.map_congr_left fun j hj => ?_
    rw [BitVec.getLsbD_xor, getLsbD_oneHot i j (List.mem_range.1 hj), Bool.true_and]
  unfold dataParity
  rw [hsplit, parity_map_xor, parity_single (fun _ => true), decide_eq_true hi]
  exact Bool.xor_true _

/-- The number whose bits are those of a list, bit by bit. -/
theorem testBit_ofBools (l : List Bool) (k : Nat) : Nat.testBit (ofBools l) k = l.getD k false := by
  induction l generalizing k with
  | nil => exact Nat.zero_testBit k
  | cons b l ih =>
    have hcons : ofBools (b :: l) = Nat.bit b (ofBools l) := by
      unfold ofBools
      rw [List.foldr_cons, Nat.bit_val]
      cases b <;> rfl
    rw [hcons]
    cases k with
    | zero => exact Nat.testBit_bit_zero ..
    | succ k => exact (Nat.testBit_bit_succ ..).trans (ih k)

theorem ofBools_testBits {n : Nat} (h : n < 128) : ofBools ((List.range 7).map n.testBit) = n := by
  refine Nat.eq_of_testBit_eq fun k => ?_
  rw [testBit_ofBools]
  by_cases hk : k < 7
  · simp [hk]
  · simp [hk]
    have hpow : 2 ^ 7 ≤ 2 ^ k := Nat.pow_le_pow_right (by decide) (Nat.le_of_not_lt hk)
    exact Nat.testBit_lt_two_pow (by omega)

/-! ### The decoder (R527) -/

/-- The decoder's s and p. -/
def sramSum (d : W64) (c : Byte) : Nat := ofBools ((List.range 7).map fun k => xor (lowBit d k) (c.getLsbD k))
def sramParity (d : W64) (c : Byte) : Bool := xor (dataParity d) (parity ((List.range 8).map c.getLsbD))

/-- What the decoder does with a word by its s and p. -/
def sramVerdict (d : W64) (s : Nat) (p : Bool) : W64 × Found :=
  if !p && decide (s = 0) then (d, .clean)
  else if p then
    match (sramPos.zipIdx).find? fun q => decide (q.1 = s) with
    | some q => (d ^^^ (1#64 <<< q.2), .corrected)
    | none => if s = 0 ∨ s ∈ [1, 2, 4, 8, 16, 32, 64] then (d, .corrected) else (d, .bad false)
  else (d, .bad false)

theorem sramDecode_eq (d : W64) (c : Byte) : sramDecode d c = sramVerdict d (sramSum d c) (sramParity d c) := by
  have hsum : ofBools ((sramLow d).zipIdx.map fun b => xor b.1 (c.getLsbD b.2)) = sramSum d c := by
    rw [sramLow_eq]
    unfold sramSum
    generalize lowBit d = f
    rfl
  unfold sramDecode sramParity dataParity
  rw [hsum]
  generalize sramSum d c = n
  generalize xor (parity ((List.range 64).map d.getLsbD)) (parity ((List.range 8).map c.getLsbD)) = p
  rfl

theorem sramVerdict_place (d : W64) {i : Nat} (hi : i < 64) : sramVerdict d (sramPlace i) true = (d ^^^ (1#64 <<< i), .corrected) := by
  obtain ⟨-, -, -, hfind⟩ := sramPlace_facts i hi
  unfold sramVerdict
  rw [hfind]
  rfl

theorem sramPos_find_none {s : Nat} (h : ∀ i < 64, s ≠ sramPlace i) : (sramPos.zipIdx.find? fun q => decide (q.1 = s)) = none := by
  rw [List.find?_eq_none, sramPos_zipIdx]
  intro q hq
  obtain ⟨i, hi, rfl⟩ := List.mem_map.1 hq
  simpa using (h i (List.mem_range.1 hi)).symm

theorem sramVerdict_power (d : W64) {s : Nat} (h : s = 0 ∨ s ∈ [1, 2, 4, 8, 16, 32, 64]) : sramVerdict d s true = (d, .corrected) := by
  have hnone : (sramPos.zipIdx.find? fun q => decide (q.1 = s)) = none := sramPos_find_none fun i hi hs => by
    obtain ⟨-, hzero, hpower, -⟩ := sramPlace_facts i hi
    exact h.elim (fun h0 => hzero (hs ▸ h0)) fun hp => hpower (hs ▸ hp)
  unfold sramVerdict
  rw [hnone]
  exact if_pos h

theorem sramVerdict_other (d : W64) {s : Nat} (hpower : ¬ (s = 0 ∨ s ∈ [1, 2, 4, 8, 16, 32, 64])) (hplace : ∀ i < 64, s ≠ sramPlace i) :
    sramVerdict d s true = (d, .bad false) := by
  unfold sramVerdict
  rw [sramPos_find_none hplace]
  exact if_neg hpower

theorem sramVerdict_even (d : W64) {s : Nat} (h : s ≠ 0) : sramVerdict d s false = (d, .bad false) := by
  unfold sramVerdict
  rw [decide_eq_false h]
  rfl

/-! ### A word with its own check bits, and wrong bits -/

/-- Check bits 0 to 6 of a word are its low check bits, bit 7 the parity of those and the data. -/
theorem sramCheck_getLsbD (d : W64) (k : Nat) (hk : k < 8) : (sramCheck d).getLsbD k =
    if k < 7 then lowBit d k else xor (parity ((List.range 7).map (lowBit d))) (dataParity d) := by
  unfold sramCheck
  dsimp only
  rw [BitVec.getLsbD_ofNat, decide_eq_true hk, Bool.true_and, testBit_ofBools, sramLow_eq]
  by_cases h : k < 7
  · simp [h, List.getElem?_append]
  · obtain rfl : k = 7 := by omega
    unfold dataParity
    generalize xor _ _ = p
    generalize lowBit d = f
    rfl

theorem parity_sramCheck (d : W64) : parity ((List.range 8).map (sramCheck d).getLsbD) = dataParity d := by
  have hlow : (List.range 7).map (sramCheck d).getLsbD = (List.range 7).map (lowBit d) := List.map_congr_left fun k hk => by
    have hk' := List.mem_range.1 hk
    rw [sramCheck_getLsbD d k (by omega), if_pos hk']
  rw [List.range_succ, List.map_append, parity_append, hlow, List.map_singleton, sramCheck_getLsbD d 7 (by decide), if_neg (by decide), parity_cons]
  exact (congrArg (xor _) (Bool.xor_false _)).trans (by rw [← Bool.xor_assoc, Bool.xor_self, Bool.false_xor])

/-- The sum is e where the low check bits of the word and the stored ones differ in the bits of e. -/
theorem sramSum_eq {d : W64} {c : Byte} {e : Nat} (he : e < 128) (h : ∀ k, k < 7 → xor (lowBit d k) (c.getLsbD k) = Nat.testBit e k) :
    sramSum d c = e := by
  unfold sramSum
  rw [List.map_congr_left fun k hk => h k (List.mem_range.1 hk)]
  exact ofBools_testBits he

section
variable (d : W64)

theorem sramDecode_clean : sramDecode d (sramCheck d) = (d, .clean) := by
  have hsum : sramSum d (sramCheck d) = 0 := sramSum_eq (by decide) fun k hk => by
    rw [sramCheck_getLsbD d k (by omega), if_pos hk, Bool.xor_self, Nat.zero_testBit]
  have hparity : sramParity d (sramCheck d) = false := by
    unfold sramParity
    rw [parity_sramCheck, Bool.xor_self]
  rw [sramDecode_eq, hsum, hparity]
  rfl

/-- One wrong data bit. -/
theorem sramDecode_data {i : Nat} (hi : i < 64) : sramDecode (d ^^^ (1#64 <<< i)) (sramCheck d) = (d, .corrected) := by
  have hsum : sramSum (d ^^^ (1#64 <<< i)) (sramCheck d) = sramPlace i := sramSum_eq (sramPlace_facts i hi).1 fun k hk => by
    rw [sramCheck_getLsbD d k (by omega), if_pos hk, lowBit_flip d hi, Bool.xor_comm (lowBit d k), Bool.xor_assoc, Bool.xor_self, Bool.xor_false]
  have hparity : sramParity (d ^^^ (1#64 <<< i)) (sramCheck d) = true := by
    unfold sramParity
    rw [parity_sramCheck, dataParity_flip d hi, Bool.not_xor_self]
  rw [sramDecode_eq, hsum, hparity, sramVerdict_place _ hi, BitVec.xor_assoc, BitVec.xor_self, BitVec.xor_zero]

/-- The check bits with one of them wrong. -/
theorem parity_flippedCheck (c : Byte) {j : Nat} (hj : j < 8) :
    parity ((List.range 8).map (c ^^^ (1#8 <<< j)).getLsbD) = !parity ((List.range 8).map c.getLsbD) := by
  have hsplit : (List.range 8).map (c ^^^ (1#8 <<< j)).getLsbD = (List.range 8).map fun k => xor (c.getLsbD k) (true && decide (k = j)) := by
    refine List.map_congr_left fun k hk => ?_
    rw [BitVec.getLsbD_xor, getLsbD_oneHot j k (List.mem_range.1 hk), Bool.true_and]
  rw [hsplit, parity_map_xor, parity_single (fun _ => true), decide_eq_true hj]
  exact Bool.xor_true _

/-- The sum that a wrong check bit gives: the bit's power, or 0 for bit 7. -/
def checkPower (j : Nat) : Nat := if j < 7 then 2 ^ j else 0

theorem checkPower_facts : ∀ j < 8, checkPower j < 128 ∧ (checkPower j = 0 ∨ checkPower j ∈ [1, 2, 4, 8, 16, 32, 64]) ∧
    ∀ k < 7, Nat.testBit (checkPower j) k = decide (k = j) := by decide

/-- One wrong check bit. -/
theorem sramDecode_check {j : Nat} (hj : j < 8) : sramDecode d (sramCheck d ^^^ (1#8 <<< j)) = (d, .corrected) := by
  obtain ⟨hlt, hpower, hbits⟩ := checkPower_facts j hj
  have hsum : sramSum d (sramCheck d ^^^ (1#8 <<< j)) = checkPower j := sramSum_eq hlt fun k hk => by
    rw [BitVec.getLsbD_xor, sramCheck_getLsbD d k (by omega), if_pos hk, getLsbD_oneHot j k (by omega), ← Bool.xor_assoc, Bool.xor_self,
      Bool.false_xor, hbits k hk]
  have hparity : sramParity d (sramCheck d ^^^ (1#8 <<< j)) = true := by
    unfold sramParity
    rw [parity_flippedCheck _ hj, parity_sramCheck, Bool.xor_not_self]
  rw [sramDecode_eq, hsum, hparity, sramVerdict_power d hpower]

/-- Two wrong data bits. -/
theorem sramDecode_two {i j : Nat} (hi : i < 64) (hj : j < 64) (h : i ≠ j) :
    (sramDecode (d ^^^ (1#64 <<< i) ^^^ (1#64 <<< j)) (sramCheck d)).2 = .bad false := by
  have hsum : sramSum (d ^^^ (1#64 <<< i) ^^^ (1#64 <<< j)) (sramCheck d) = sramPlace i ^^^ sramPlace j :=
    sramSum_eq (Nat.xor_lt_two_pow (n := 7) (sramPlace_facts i hi).1 (sramPlace_facts j hj).1) fun k hk => by
      rw [sramCheck_getLsbD d k (by omega), if_pos hk, lowBit_flip _ hj, lowBit_flip d hi, Nat.testBit_xor, Bool.xor_assoc (lowBit d k),
        Bool.xor_comm (lowBit d k), Bool.xor_assoc, Bool.xor_self, Bool.xor_false]
  have hparity : sramParity (d ^^^ (1#64 <<< i) ^^^ (1#64 <<< j)) (sramCheck d) = false := by
    unfold sramParity
    rw [parity_sramCheck, dataParity_flip _ hj, dataParity_flip d hi, Bool.not_not, Bool.xor_self]
  have hne : sramPlace i ^^^ sramPlace j ≠ 0 := fun hzero => h (sramPlace_inj hi hj (Nat.xor_eq_zero_iff.1 hzero))
  rw [sramDecode_eq, hsum, hparity, sramVerdict_even _ hne]

end

/-! ### The rule's sums (R527) -/

/-- A bit as a number. -/
theorem toNat_eq_ite (v : Bool) : (if v then 1 else 0) = v.toNat := by cases v <;> rfl

theorem toNat_lowBit (d : W64) (k : Nat) : (lowBit d k).toNat =
    ((List.range 64).map fun j => if Nat.testBit (sramPlace j) k then (if d.getLsbD j then 1 else 0) else 0).sum % 2 := by
  unfold lowBit
  rw [toNat_parity, List.map_map]
  refine congrArg (fun l : List Nat => l.sum % 2) (List.map_congr_left fun j _ => ?_)
  rw [Function.comp_apply, toNat_eq_ite]
  cases Nat.testBit (sramPlace j) k <;> rfl

theorem toNat_xor (a b : Bool) : (xor a b).toNat = (a.toNat + b.toNat) % 2 := by cases a <;> cases b <;> rfl

/-- A number by its seven bits. -/
theorem ofBools_range (f : Nat → Bool) : ofBools ((List.range 7).map f) = ((List.range 7).map fun k => 2 ^ k * (f k).toNat).sum := by
  simp only [List.range_succ, List.range_zero, List.nil_append, List.map_cons, List.map_nil, List.cons_append, ofBools, List.foldr_cons,
    List.foldr_nil, toNat_eq_ite, List.sum_cons, List.sum_nil]
  omega

theorem sramSum_eq_sum (d : W64) (c : Byte) :
    sramSum d c = ((List.range 7).map fun k => 2 ^ k * (((lowBit d k).toNat + (if c.getLsbD k then 1 else 0)) % 2)).sum := by
  unfold sramSum
  rw [ofBools_range]
  simp only [toNat_xor, toNat_eq_ite]

theorem toNat_sramParity (d : W64) (c : Byte) : (sramParity d c).toNat =
    (((List.range 64).map fun j => if d.getLsbD j then 1 else 0).sum + ((List.range 8).map fun k => if c.getLsbD k then 1 else 0).sum) % 2 := by
  unfold sramParity dataParity
  rw [toNat_xor, toNat_parity, toNat_parity, ← Nat.add_mod, List.map_map, List.map_map]
  simp only [toNat_eq_ite]
  rfl

theorem sramPos_filter : ((List.range 72).filter fun p => !decide (p ∈ [0, 1, 2, 4, 8, 16, 32, 64])) = sramPos := by decide

/-- Settles O47: the decoder by its s and p, and these for a word with its own check bits and with one or two wrong bits. -/
theorem sramWordCode : Obligations.SramWordCode := by
  unfold Obligations.SramWordCode
  intro d c
  rw [sramPos_filter]
  dsimp only
  simp only [show ∀ j, sramPos.getD j 0 = sramPlace j from fun _ => rfl, ← toNat_lowBit, ← sramSum_eq_sum, ← toNat_sramParity]
  have hdecode := sramDecode_eq d c
  refine ⟨fun hs hp => ?_, fun j hj hp hs => ?_, fun hp hpower => ?_, fun hclean hcorrect => ?_, fun k hk => ?_, sramDecode_clean d,
    fun i hi => sramDecode_data d hi, fun j hj => sramDecode_check d hj, fun i j hi hj h => sramDecode_two d hi hj h⟩
  · rw [hdecode, hs, show sramParity d c = false from Bool.toNat_eq_zero.1 hp]
    rfl
  · rw [hdecode, hs, show sramParity d c = true from Bool.toNat_eq_one.1 hp]
    exact sramVerdict_place d hj
  · rw [hdecode, show sramParity d c = true from Bool.toNat_eq_one.1 hp]
    exact sramVerdict_power d hpower
  · rw [hdecode]
    cases hp : sramParity d c with
    | true =>
      rw [hp] at hcorrect
      refine congrArg Prod.snd (sramVerdict_other d (fun h => hcorrect ⟨rfl, .inl h⟩) fun i hi hs => hcorrect ⟨rfl, .inr ⟨i, hi, hs⟩⟩)
    | false =>
      rw [hp] at hclean
      exact congrArg Prod.snd (sramVerdict_even d fun hs => hclean ⟨hs, rfl⟩)
  · rw [sramCheck_getLsbD d k (by omega), if_pos hk]
    exact toNat_eq_ite _

end Sys2Proof.Machine
end

section
/-!
The code of an HBM unit (O48): multiplication by α is linear, the check symbols make every syndrome 0, and the syndromes of one wrong symbol name its
place, since α has order 255.
-/
namespace Sys2Proof.Machine
open Sys2Proof

/-! ### Powers of α in GF(2^8) -/

theorem gfx_eq (a : Byte) : gfx a = (a <<< 1) ^^^ (if a.getLsbD 7 then 0x1D#8 else 0#8) := by
  unfold gfx
  split
  · rfl
  · exact (BitVec.xor_zero).symm

theorem gfx_xor (a b : Byte) : gfx (a ^^^ b) = gfx a ^^^ gfx b := by
  rw [gfx_eq, gfx_eq, gfx_eq, BitVec.getLsbD_xor, BitVec.shiftLeft_xor_distrib]
  have hmask : (if xor (a.getLsbD 7) (b.getLsbD 7) then 0x1D#8 else 0#8) =
      (if a.getLsbD 7 then 0x1D#8 else 0#8) ^^^ (if b.getLsbD 7 then 0x1D#8 else 0#8) := by
    cases a.getLsbD 7 <;> cases b.getLsbD 7 <;> rfl
  rw [hmask]
  ac_rfl

theorem gfx_zero : gfx 0 = 0 := by decide

theorem gfPow_eq_iterate (a : Byte) (m : Nat) : gfPow a m = gfx^[m] a := by
  induction m with
  | zero => rfl
  | succ m ih => rw [gfPow, ih, Function.iterate_succ_apply']

theorem gfPow_xor (a b : Byte) (m : Nat) : gfPow (a ^^^ b) m = gfPow a m ^^^ gfPow b m := by
  induction m with
  | zero => rfl
  | succ m ih => rw [gfPow, ih, gfx_xor, gfPow, gfPow]

theorem gfPow_zero (m : Nat) : gfPow 0 m = 0 := by
  induction m with
  | zero => rfl
  | succ m ih => rw [gfPow, ih, gfx_zero]

theorem gfPow_add (a : Byte) (m n : Nat) : gfPow a (m + n) = gfPow (gfPow a m) n := by
  rw [gfPow_eq_iterate, gfPow_eq_iterate, gfPow_eq_iterate, Nat.add_comm, Function.iterate_add_apply]

/-- What holds of 0 and of the powers of 2, and of a sum where it holds of both, holds of every byte. -/
theorem byte_sums {P : Byte → Prop} (hzero : P 0) (hadd : ∀ a b, P a → P b → P (a ^^^ b)) (hpower : ∀ i < 8, P (1#8 <<< i)) (b : Byte) : P b := by
  have hsum : ∀ b : Byte, b = (List.range 8).foldl (fun r k => r ^^^ if b.getLsbD k then 1#8 <<< k else 0) 0 := by decide
  rw [hsum b]
  refine List.foldlRecOn (motive := P) _ _ hzero fun r hr k hk => hadd r _ hr ?_
  split
  · exact hpower k (List.mem_range.1 hk)
  · exact hzero

theorem gfPow_255 (a : Byte) : gfPow a 255 = a :=
  byte_sums (P := fun a => gfPow a 255 = a) (gfPow_zero 255) (fun a b ha hb => by rw [gfPow_xor, ha, hb]) (by decide +kernel) a

/-- No symbol but 0 has a period of 51 or of 15. -/
theorem gfPow_51_15 : ∀ a : Byte, a ≠ 0 → gfPow a 51 ≠ a ∧ gfPow a 15 ≠ a := by decide +kernel

theorem gfx_injective : Function.Injective gfx := by
  refine Function.Injective.of_comp (f := gfx^[254]) fun a b h => ?_
  have ha := gfPow_255 a
  have hb := gfPow_255 b
  rw [gfPow_eq_iterate, Function.iterate_succ] at ha hb
  exact ha.symm.trans (h.trans hb)

/-- Multiplied by α up to 67 times, a symbol other than 0 does not come back. -/
theorem gfPow_ne {a : Byte} (ha : a ≠ 0) {d : Nat} (h0 : 0 < d) (hd : d < 68) : gfPow a d ≠ a := by
  intro h
  have hper : Function.IsPeriodicPt gfx d a := (gfPow_eq_iterate a d).symm.trans h
  have hall : Function.IsPeriodicPt gfx 255 a := (gfPow_eq_iterate a 255).symm.trans (gfPow_255 a)
  have hgcd := hper.gcd hall
  have hdvd : ∀ d < 68, 0 < d → Nat.gcd d 255 ∣ 51 ∨ Nat.gcd d 255 ∣ 15 := by decide
  obtain ⟨h51, h15⟩ := gfPow_51_15 a ha
  rcases hdvd d hd h0 with h | h
  · exact h51 ((gfPow_eq_iterate a 51).trans (hgcd.trans_dvd h))
  · exact h15 ((gfPow_eq_iterate a 15).trans (hgcd.trans_dvd h))

theorem gfPow_inj {a : Byte} (ha : a ≠ 0) {k m : Nat} (hk : k < 68) (hm : m < 68) (h : gfPow a k = gfPow a m) : k = m := by
  have hle : ∀ {k m : Nat}, m < 68 → k ≤ m → gfPow a k = gfPow a m → k = m := fun {k m} hm hkm h => by
    by_contra hne
    obtain ⟨d, rfl⟩ := Nat.exists_eq_add_of_le hkm
    rw [Nat.add_comm, gfPow_add, gfPow_eq_iterate, gfPow_eq_iterate (gfPow a d)] at h
    exact gfPow_ne ha (by omega) (by omega) ((gfx_injective.iterate k h).symm)
  rcases Nat.le_total k m with hkm | hkm
  · exact hle hm hkm h
  · exact (hle hk hkm h.symm).symm

/-! ### Products -/

/-- One step of a product. -/
def mulStep (a b : Byte) (r : Byte) (k : Nat) : Byte := if b.getLsbD k then gfx r ^^^ a else gfx r

theorem gfMul_eq (a b : Byte) : gfMul a b = [7, 6, 5, 4, 3, 2, 1, 0].foldl (mulStep a b) 0 := rfl

theorem mulStep_eq (a b r : Byte) (k : Nat) : mulStep a b r k = gfx r ^^^ (if b.getLsbD k then a else 0) := by
  unfold mulStep
  split
  · rfl
  · exact (BitVec.xor_zero).symm

theorem gfMul_xor_left (a a' b : Byte) : gfMul (a ^^^ a') b = gfMul a b ^^^ gfMul a' b := by
  have hfold (l : List Nat) (r r' : Byte) : l.foldl (mulStep (a ^^^ a') b) (r ^^^ r') = l.foldl (mulStep a b) r ^^^ l.foldl (mulStep a' b) r' := by
    induction l generalizing r r' with
    | nil => rfl
    | cons k l ih =>
      have hstep : mulStep (a ^^^ a') b (r ^^^ r') k = mulStep a b r k ^^^ mulStep a' b r' k := by
        rw [mulStep_eq, mulStep_eq, mulStep_eq, gfx_xor]
        split
        · ac_rfl
        · rw [show (0 : Byte) = 0#8 from rfl, BitVec.xor_zero, BitVec.xor_zero, BitVec.xor_zero]
      rw [List.foldl_cons, hstep, ih, List.foldl_cons, List.foldl_cons]
  exact hfold _ 0 0

theorem gfMul_xor_right (a b b' : Byte) : gfMul a (b ^^^ b') = gfMul a b ^^^ gfMul a b' := by
  have hfold (l : List Nat) (r r' : Byte) : l.foldl (mulStep a (b ^^^ b')) (r ^^^ r') = l.foldl (mulStep a b) r ^^^ l.foldl (mulStep a b') r' := by
    induction l generalizing r r' with
    | nil => rfl
    | cons k l ih =>
      have hbit : (if (b ^^^ b').getLsbD k then a else 0) = (if b.getLsbD k then a else 0) ^^^ (if b'.getLsbD k then a else 0) := by
        rw [BitVec.getLsbD_xor]
        cases b.getLsbD k <;> cases b'.getLsbD k <;> simp
      have hstep : mulStep a (b ^^^ b') (r ^^^ r') k = mulStep a b r k ^^^ mulStep a b' r' k := by
        rw [mulStep_eq, mulStep_eq, mulStep_eq, gfx_xor, hbit]
        ac_rfl
      rw [List.foldl_cons, hstep, ih, List.foldl_cons, List.foldl_cons]
  exact hfold _ 0 0

theorem gfMul_zero_left (b : Byte) : gfMul 0 b = 0 := by
  have h := gfMul_xor_left 0 0 b
  rwa [BitVec.xor_self, BitVec.xor_self] at h

theorem gfMul_zero_right (a : Byte) : gfMul a 0 = 0 := by
  have h := gfMul_xor_right a 0 0
  rwa [BitVec.xor_self, BitVec.xor_self] at h

/-- α may be taken out of either factor. -/
theorem gfMul_gfx (a b : Byte) : gfMul (gfx a) b = gfx (gfMul a b) ∧ gfMul a (gfx b) = gfx (gfMul a b) := by
  refine byte_sums (P := fun a => gfMul (gfx a) b = gfx (gfMul a b) ∧ gfMul a (gfx b) = gfx (gfMul a b)) ?_ ?_ (fun i hi => ?_) a
  · rw [gfx_zero, gfMul_zero_left, gfMul_zero_left, gfx_zero]
    exact ⟨rfl, rfl⟩
  · rintro a a' ⟨hl, hr⟩ ⟨hl', hr'⟩
    rw [gfx_xor, gfMul_xor_left, gfMul_xor_left, gfMul_xor_left, gfx_xor, hl, hr, hl', hr']
    exact ⟨rfl, rfl⟩
  · refine byte_sums (P := fun b => gfMul (gfx (1#8 <<< i)) b = gfx (gfMul (1#8 <<< i) b) ∧ gfMul (1#8 <<< i) (gfx b) = gfx (gfMul (1#8 <<< i) b))
      ?_ ?_ ?_ b
    · rw [gfx_zero, gfMul_zero_right, gfMul_zero_right, gfx_zero]
      exact ⟨rfl, rfl⟩
    · rintro b b' ⟨hl, hr⟩ ⟨hl', hr'⟩
      rw [gfx_xor, gfMul_xor_right, gfMul_xor_right, gfMul_xor_right, gfx_xor, hl, hr, hl', hr']
      exact ⟨rfl, rfl⟩
    · revert i
      decide

theorem gfMul_gfPow_left (a b : Byte) (m : Nat) : gfMul (gfPow a m) b = gfPow (gfMul a b) m := by
  induction m with
  | zero => rfl
  | succ m ih => rw [gfPow, (gfMul_gfx ..).1, ih, gfPow]

theorem gfMul_gfPow_right (a b : Byte) (m : Nat) : gfMul a (gfPow b m) = gfPow (gfMul a b) m := by
  induction m with
  | zero => rfl
  | succ m ih => rw [gfPow, (gfMul_gfx ..).2, ih, gfPow]

/-- The syndromes of one wrong symbol meet the decoder's test. -/
theorem gfMul_oneWrong (e : Byte) (k : Nat) : gfMul (gfPow e k) (gfPow e k) = gfMul e (gfPow e (2 * k)) := by
  rw [gfMul_gfPow_left, gfMul_gfPow_right, gfMul_gfPow_right, ← gfPow_add, Nat.two_mul]

/-! ### Check symbols and syndromes (R524, R525) -/

/-- The divisor has the roots 1, α and α². -/
theorem generator_roots (f : Byte) (j : Nat) (hj : j < 3) :
    gfPow f (3 * j) = gfPow (gfMul 7#8 f) (2 * j) ^^^ gfPow (gfMul 14#8 f) j ^^^ gfMul 8#8 f := by
  refine byte_sums (P := fun f => gfPow f (3 * j) = gfPow (gfMul 7#8 f) (2 * j) ^^^ gfPow (gfMul 14#8 f) j ^^^ gfMul 8#8 f) ?_ (fun a b ha hb => ?_) ?_ f
  · simp only [gfMul_zero_right, gfPow_zero]
    decide
  · rw [gfPow_xor, gfMul_xor_right, gfMul_xor_right, gfMul_xor_right, gfPow_xor, gfPow_xor, ha, hb]
    ac_rfl
  · revert j
    decide

theorem syndrome_append (j : Nat) (l : List Byte) (c : Byte) : syndrome j (l ++ [c]) = gfPow (syndrome j l) j ^^^ c := by
  unfold syndrome
  rw [List.foldl_append]
  rfl

/-- The remainder with one symbol more. -/
theorem rsCheck_append (l : List Byte) (c : Byte) : rsCheck (l ++ [c]) = ((rsCheck l).2.1 ^^^ gfMul 7#8 ((rsCheck l).1 ^^^ c),
    (rsCheck l).2.2 ^^^ gfMul 14#8 ((rsCheck l).1 ^^^ c), gfMul 8#8 ((rsCheck l).1 ^^^ c)) := by
  unfold rsCheck
  rw [List.foldl_append]
  rfl

/-- The remainder's value at α^j is that of the symbols, moved by three places. -/
theorem rsCheck_value (l : List Byte) (j : Nat) (hj : j < 3) :
    gfPow (syndrome j l) (3 * j) = gfPow (rsCheck l).1 (2 * j) ^^^ gfPow (rsCheck l).2.1 j ^^^ (rsCheck l).2.2 := by
  induction l using List.reverseRecOn with
  | nil =>
    change gfPow 0 (3 * j) = gfPow 0 (2 * j) ^^^ gfPow 0 j ^^^ 0
    simp only [gfPow_zero]
    decide
  | append_singleton l c ih =>
    have hroot := generator_roots ((rsCheck l).1 ^^^ c) j hj
    rw [gfPow_xor] at hroot
    have hmoved : gfPow (gfPow (syndrome j l) j) (3 * j) =
        gfPow (rsCheck l).1 (3 * j) ^^^ gfPow (rsCheck l).2.1 (2 * j) ^^^ gfPow (rsCheck l).2.2 j := by
      rw [← gfPow_add, Nat.add_comm, gfPow_add, ih, gfPow_xor, gfPow_xor, ← gfPow_add, ← gfPow_add, show 2 * j + j = 3 * j by omega,
        show j + j = 2 * j by omega]
    rw [syndrome_append, rsCheck_append]
    dsimp only
    calc gfPow (gfPow (syndrome j l) j ^^^ c) (3 * j)
        = (gfPow (rsCheck l).1 (3 * j) ^^^ gfPow c (3 * j)) ^^^ (gfPow (rsCheck l).2.1 (2 * j) ^^^ gfPow (rsCheck l).2.2 j) := by
          rw [gfPow_xor, hmoved]
          ac_rfl
      _ = gfPow ((rsCheck l).2.1 ^^^ gfMul 7#8 ((rsCheck l).1 ^^^ c)) (2 * j) ^^^ gfPow ((rsCheck l).2.2 ^^^ gfMul 14#8 ((rsCheck l).1 ^^^ c)) j ^^^
            gfMul 8#8 ((rsCheck l).1 ^^^ c) := by
          rw [hroot, gfPow_xor, gfPow_xor]
          ac_rfl

/-- Symbols followed by their check symbols. -/
def rsWord (l : List Byte) : List Byte := l ++ [(rsCheck l).1, (rsCheck l).2.1, (rsCheck l).2.2]

theorem syndrome_rsWord (l : List Byte) (j : Nat) (hj : j < 3) : syndrome j (rsWord l) = 0 := by
  have happend : rsWord l = l ++ [(rsCheck l).1] ++ [(rsCheck l).2.1] ++ [(rsCheck l).2.2] := by
    unfold rsWord
    rw [List.append_assoc, List.append_assoc]
    rfl
  have hvalue := rsCheck_value l j hj
  rw [happend, syndrome_append, syndrome_append, syndrome_append, gfPow_xor, gfPow_xor, gfPow_xor, ← gfPow_add, ← gfPow_add, ← gfPow_add,
    show j + (j + j) = 3 * j by omega, show j + j = 2 * j by omega, hvalue]
  generalize gfPow (rsCheck l).1 (2 * j) = a
  generalize gfPow (rsCheck l).2.1 j = b
  calc a ^^^ b ^^^ (rsCheck l).2.2 ^^^ a ^^^ b ^^^ (rsCheck l).2.2 = (a ^^^ b ^^^ (rsCheck l).2.2) ^^^ (a ^^^ b ^^^ (rsCheck l).2.2) := by ac_rfl
    _ = 0 := BitVec.xor_self

/-! ### One wrong symbol -/

/-- The symbols with e added to the one at place p. -/
def wrongAt (l : List Byte) (p : Nat) (e : Byte) : List Byte := l.set p (l.getD p 0 ^^^ e)

theorem syndrome_wrongAt (j : Nat) {l : List Byte} {p : Nat} (hp : p < l.length) (e : Byte) :
    syndrome j (wrongAt l p e) = syndrome j l ^^^ gfPow e (j * (l.length - 1 - p)) := by
  induction l using List.reverseRecOn with
  | nil => exact absurd hp (Nat.not_lt_zero p)
  | append_singleton l c ih =>
    unfold wrongAt at ih ⊢
    rw [List.length_append, List.length_singleton, Nat.add_sub_cancel]
    by_cases hlast : p < l.length
    · have hset : (l ++ [c]).set p ((l ++ [c]).getD p 0 ^^^ e) = l.set p (l.getD p 0 ^^^ e) ++ [c] := by
        rw [List.set_append_left _ _ hlast, List.getD_append _ _ _ _ hlast]
      rw [hset, syndrome_append, syndrome_append, ih hlast, gfPow_xor, ← gfPow_add, ← Nat.mul_succ, show (l.length - 1 - p).succ = l.length - p by omega]
      ac_rfl
    · have hp' : p = l.length := by
        rw [List.length_append, List.length_singleton] at hp
        omega
      have hset : (l ++ [c]).set p ((l ++ [c]).getD p 0 ^^^ e) = l ++ [c ^^^ e] := by
        subst hp'
        simp
      rw [hset, syndrome_append, syndrome_append, hp', Nat.sub_self, Nat.mul_zero]
      exact (BitVec.xor_assoc ..).symm

theorem wrongAt_twice {l : List Byte} {p : Nat} (hp : p < l.length) (e : Byte) : wrongAt (wrongAt l p e) p e = l := by
  unfold wrongAt
  rw [List.set_set, List.getD_eq_getElem _ _ (by rw [List.length_set]; exact hp), List.getElem_set_self, List.getD_eq_getElem _ _ hp, BitVec.xor_assoc,
    BitVec.xor_self, BitVec.xor_zero, List.set_getElem_self]

/-! ### The decoder (R525) -/

/-- What the decoder makes of symbols that it takes as right. -/
def hbmVerdict (sym : List Byte) (f : Found) : List Byte × Found :=
  if sym.getD 64 0 = 0 then (sym.take 64, f) else (sym.take 64, .bad (decide (sym.getD 64 0 = 0xFF#8)))

/-- The decoder on 68 symbols, of a unit with the data d. -/
def hbmDecodeSymbols (d sym : List Byte) : List Byte × Found :=
  if syndrome 0 sym = 0 ∧ syndrome 1 sym = 0 ∧ syndrome 2 sym = 0 then hbmVerdict sym .clean
  else if syndrome 0 sym ≠ 0 ∧ syndrome 1 sym ≠ 0 ∧ syndrome 2 sym ≠ 0 ∧
      gfMul (syndrome 1 sym) (syndrome 1 sym) = gfMul (syndrome 0 sym) (syndrome 2 sym) then
    match (List.range 68).find? fun k => decide (gfPow (syndrome 0 sym) k = syndrome 1 sym) with
    | some k => hbmVerdict (wrongAt sym (67 - k) (syndrome 0 sym)) .corrected
    | none => (d, .bad false)
  else (d, .bad false)

/-- The symbols of a stored unit. -/
def symbolsOf (r : RawCode) : List Byte := padTo 64 r.data ++ [(padTo 4 r.check).getD 3 0] ++ (padTo 4 r.check).take 3

theorem hbmDecode_eq (r : RawCode) : hbmDecode r = hbmDecodeSymbols (padTo 64 r.data) (symbolsOf r) := by
  unfold hbmDecode symbolsOf
  dsimp only
  generalize padTo 64 r.data ++ [(padTo 4 r.check).getD 3 0] ++ (padTo 4 r.check).take 3 = sym
  rfl

/-- A code word reads as its tag says. -/
theorem hbmDecodeSymbols_word (d l : List Byte) : hbmDecodeSymbols d (rsWord l) = hbmVerdict (rsWord l) .clean :=
  if_pos ⟨syndrome_rsWord l 0 (by decide), syndrome_rsWord l 1 (by decide), syndrome_rsWord l 2 (by decide)⟩

/-- A code word with one wrong symbol is corrected. -/
theorem hbmDecodeSymbols_wrong (d : List Byte) {l : List Byte} (hl : l.length = 65) {p : Nat} (hp : p < 68) {e : Byte} (he : e ≠ 0) :
    hbmDecodeSymbols d (wrongAt (rsWord l) p e) = hbmVerdict (rsWord l) .corrected := by
  have hlength : (rsWord l).length = 68 := by
    unfold rsWord
    rw [List.length_append, hl]
    rfl
  have hsyndrome (j : Nat) (hj : j < 3) : syndrome j (wrongAt (rsWord l) p e) = gfPow e (j * (67 - p)) := by
    rw [syndrome_wrongAt j (hlength ▸ hp), syndrome_rsWord l j hj, hlength]
    exact BitVec.zero_xor
  have h0 : syndrome 0 (wrongAt (rsWord l) p e) = e := (hsyndrome 0 (by decide)).trans (by rw [Nat.zero_mul]; rfl)
  have h1 : syndrome 1 (wrongAt (rsWord l) p e) = gfPow e (67 - p) := (hsyndrome 1 (by decide)).trans (by rw [Nat.one_mul])
  have h2 := hsyndrome 2 (by decide)
  have hpow (m : Nat) : gfPow e m ≠ 0 := by
    intro h
    rw [gfPow_eq_iterate] at h
    refine he (gfx_injective.iterate m (h.trans ?_))
    rw [← gfPow_eq_iterate, gfPow_zero]
  have hfind : ((List.range 68).find? fun k => decide (gfPow e k = gfPow e (67 - p))) = some (67 - p) := by
    cases hfound : (List.range 68).find? fun k => decide (gfPow e k = gfPow e (67 - p)) with
    | none =>
      have hnone := List.find?_eq_none.1 hfound (67 - p) (List.mem_range.2 (by omega))
      exact absurd (decide_eq_true rfl) hnone
    | some k =>
      have hk := List.mem_range.1 (List.mem_of_find?_eq_some hfound)
      have heq : decide (gfPow e k = gfPow e (67 - p)) = true := List.find?_some (p := fun k => decide (gfPow e k = gfPow e (67 - p))) hfound
      rw [gfPow_inj he hk (by omega) (of_decide_eq_true heq)]
  unfold hbmDecodeSymbols
  rw [h0, h1, h2, if_neg fun h => he h.1, if_pos ⟨he, hpow _, hpow _, gfMul_oneWrong e (67 - p)⟩, hfind]
  dsimp only
  rw [show 67 - (67 - p) = p by omega, wrongAt_twice (hlength ▸ hp)]

/-! ### Stored units -/

/-- The 65 symbols of a unit that its check symbols protect. -/
def protectedOf (d : List Byte) (tag : Byte) : List Byte := padTo 64 d ++ [tag]

theorem hbmMeta_eq (d : List Byte) (tag : Byte) : hbmMeta d tag =
    [(rsCheck (protectedOf d tag)).1, (rsCheck (protectedOf d tag)).2.1, (rsCheck (protectedOf d tag)).2.2, tag] := rfl

theorem symbolsOf_four (b : List Byte) (x y z tag : Byte) : symbolsOf { data := b, check := [x, y, z, tag] } = padTo 64 b ++ [tag] ++ [x, y, z] := rfl

theorem symbolsOf_hbmMeta (d : List Byte) (tag : Byte) : symbolsOf { data := d, check := hbmMeta d tag } = rsWord (protectedOf d tag) := by
  rw [hbmMeta_eq, symbolsOf_four]
  rfl

section
variable {d : List Byte} (hd : d.length = 64) (tag : Byte)
include hd

theorem protectedOf_eq : protectedOf d tag = d ++ [tag] := by
  unfold protectedOf
  rw [padTo_of_length hd]

theorem length_protectedOf : (protectedOf d tag).length = 65 := by
  rw [protectedOf_eq hd, List.length_append, hd]
  rfl

/-- A word reads as its data, by its tag. -/
theorem hbmVerdict_word (f : Found) :
    hbmVerdict (rsWord (protectedOf d tag)) f = (d, if tag = 0 then f else .bad (decide (tag = 0xFF#8))) := by
  have htake : (rsWord (protectedOf d tag)).take 64 = d := by
    unfold rsWord
    rw [protectedOf_eq hd, List.append_assoc, List.take_left' hd]
  have htag : (rsWord (protectedOf d tag)).getD 64 0 = tag := by
    unfold rsWord
    rw [protectedOf_eq hd, List.append_assoc, List.getD_append_right _ _ _ _ (Nat.le_of_eq hd), hd]
    rfl
  unfold hbmVerdict
  rw [htake, htag]
  split <;> rfl

/-- A wrong data byte is a wrong symbol. -/
theorem symbolsOf_wrongData {i : Nat} (hi : i < 64) (e : Byte) :
    symbolsOf { data := d.set i (d.getD i 0 ^^^ e), check := hbmMeta d 0 } = wrongAt (rsWord (protectedOf d 0)) i e := by
  have hset : (d.set i (d.getD i 0 ^^^ e)).length = 64 := by rw [List.length_set, hd]
  have hlt : i < d.length := hd ▸ hi
  rw [hbmMeta_eq, symbolsOf_four, padTo_of_length hset]
  unfold wrongAt rsWord
  rw [protectedOf_eq hd, List.append_assoc d, List.getD_append _ _ _ _ hlt, List.set_append_left _ _ hlt, List.append_assoc]

/-- A wrong metadata byte is a wrong symbol: the tag at place 64, the check symbols behind it. -/
theorem symbolsOf_wrongMeta {i : Nat} (hi : i < 4) (e : Byte) : symbolsOf { data := d, check := (hbmMeta d 0).set i ((hbmMeta d 0).getD i 0 ^^^ e) } =
    wrongAt (rsWord (protectedOf d 0)) (if i = 3 then 64 else 65 + i) e := by
  have hword : rsWord (protectedOf d 0) =
      d ++ [0, (rsCheck (protectedOf d 0)).1, (rsCheck (protectedOf d 0)).2.1, (rsCheck (protectedOf d 0)).2.2] := by
    unfold rsWord
    rw [protectedOf_eq hd, List.append_assoc]
    rfl
  have hplace (k : Nat) (l : List Byte) : wrongAt (d ++ l) (64 + k) e = d ++ wrongAt l k e := by
    unfold wrongAt
    rw [List.getD_append_right _ _ _ _ (by omega), List.set_append_right _ _ (by omega), hd, Nat.add_sub_cancel_left]
  rw [hbmMeta_eq, hword]
  generalize rsCheck (protectedOf d 0) = r
  have hcases : i = 0 ∨ i = 1 ∨ i = 2 ∨ i = 3 := by omega
  rcases hcases with rfl | rfl | rfl | rfl
  · exact (symbolsOf_four ..).trans (by rw [padTo_of_length hd, List.append_assoc]; exact (hplace 1 [0, r.1, r.2.1, r.2.2]).symm)
  · exact (symbolsOf_four ..).trans (by rw [padTo_of_length hd, List.append_assoc]; exact (hplace 2 [0, r.1, r.2.1, r.2.2]).symm)
  · exact (symbolsOf_four ..).trans (by rw [padTo_of_length hd, List.append_assoc]; exact (hplace 3 [0, r.1, r.2.1, r.2.2]).symm)
  · exact (symbolsOf_four ..).trans (by rw [padTo_of_length hd, List.append_assoc]; exact (hplace 0 [0, r.1, r.2.1, r.2.2]).symm)

end

/-- Settles O48: a unit as a code word, its tag, and a wrong symbol at each of its places. -/
theorem hbmUnitCode : Obligations.HbmUnitCode := by
  unfold Obligations.HbmUnitCode
  intro d e hd he
  refine ⟨?_, fun i hi => ?_, fun i hi => ?_, ?_⟩
  · rw [hbmDecode_eq, symbolsOf_hbmMeta, hbmDecodeSymbols_word, hbmVerdict_word hd, if_pos rfl]
  · rw [hbmDecode_eq, symbolsOf_wrongData hd hi, hbmDecodeSymbols_wrong _ (length_protectedOf hd 0) (by omega) he, hbmVerdict_word hd, if_pos rfl]
  · rw [hbmDecode_eq, symbolsOf_wrongMeta hd hi, hbmDecodeSymbols_wrong _ (length_protectedOf hd 0) (by split <;> omega) he, hbmVerdict_word hd,
      if_pos rfl]
  · unfold poisonCode
    rw [hbmDecode_eq, symbolsOf_hbmMeta, hbmDecodeSymbols_word, hbmVerdict_word hd]
    rfl

end Sys2Proof.Machine
end

section
/-!
The governor (O23): a taper step that falls due beyond the last fabric time.
-/
namespace Sys2Proof.Machine
open Sys2Proof

/-- A module at 5 ns, the last step of whose taper falls due at 2^64 ns, where fabric time is 0 again. -/
def taperPastEnd : State :=
  { State.reset with now := 5, power := { State.reset.power with taperLeft := 1, taper := (BitVec.allOnes 64, 256, 1), sheds := false, ramp := none } }

theorem taperPastEnd_steps : exec .taperStep taperPastEnd =
    .next { taperPastEnd.setEnt 0x2200 5 0 with now := 0, power := { taperPastEnd.power with taperLeft := 0 } } := rfl

/-- Refutes O23, in its clause that a taper step leaves the fabric time where it was or later: the step's instant is the beginning of the taper
and its share of the ramp window, and where that is 2^64 ns the fabric time that the step sets is 0. -/
theorem not_governorAndInputs : ¬ Obligations.GovernorAndInputs := by
  unfold Obligations.GovernorAndInputs
  rintro ⟨hgovernor, -⟩
  obtain ⟨-, htaper, -⟩ := hgovernor taperPastEnd 5 52000 0 0 0
  obtain ⟨-, hfalls⟩ := htaper 0 (BitVec.allOnes 64) 256 1 rfl rfl
  obtain ⟨-, hkept⟩ := hfalls rfl
  obtain ⟨u, hu, -, -, hnow, -⟩ := hkept (.inr (.inl rfl))
  rw [taperPastEnd_steps] at hu
  rw [← Host.Outcome.next.inj hu] at hnow
  exact absurd hnow (by decide)

end Sys2Proof.Machine
end

section
/-!
Supply and heat (O21): the throttle's sources, what an abort leaves of the power unit, and the standby side's start.
-/
namespace Sys2Proof.Machine
open Sys2Proof

/-! ### The throttle's sources (R502, R503, R505) -/

section
variable (s : State) (source : Nat)

/-- The throttle comes into force: the clocks fall. -/
def throttled (t : State) : State :=
  { (t.setEnt 0x2000 1 1000).addEnt 0x2100 9 1 with
    power := { t.power with
      returnLeft := 0
      slowSince := match t.power.slowSince with
        | some x => some x
        | none => some t.now
      throttleAt := some t.now } }

theorem throttleEnter_held {s : State} {source : Nat} (h : Nat.testBit (s.ent 0x2100 7) (source - 1) = true) (announce : Bool) :
    throttleEnter s source announce = s := if_pos h

theorem throttleEnter_next {s : State} {source : Nat} (h : Nat.testBit (s.ent 0x2100 7) (source - 1) = false) (hm : s.ent 0x2100 7 ≠ 0) (announce : Bool) :
    throttleEnter s source announce = s.setEnt 0x2100 7 (s.ent 0x2100 7 + 2 ^ (source - 1)) :=
  (if_neg (by rw [h]; decide)).trans (if_pos hm)

theorem throttleEnter_first {s : State} {source : Nat} (hm : s.ent 0x2100 7 = 0) (announce : Bool) : throttleEnter s source announce =
    if announce then throttleEvent (throttled (s.setEnt 0x2100 7 (2 ^ (source - 1)))) source 0 1000
    else throttled (s.setEnt 0x2100 7 (2 ^ (source - 1))) := by
  unfold throttleEnter
  dsimp only
  rw [hm, if_neg (by rw [Nat.zero_testBit]; decide), if_neg (by decide), Nat.zero_add]
  rfl

theorem throttled_ent (t : State) : (throttled t).ent 0x2100 7 = t.ent 0x2100 7 ∧ (throttled t).ent 0x2000 1 = 1000 ∧
    (throttled t).ent 0x2100 9 = (t.ent 0x2100 9 + 1) % 2 ^ 32 := by
  refine ⟨?_, ?_, ?_⟩
  · exact (State.ent_addEnt_ne _ 0x2100 9 1 _ _ (by decide)).trans (State.ent_setEnt_ne _ _ _ _ _ _ (by decide))
  · exact (State.ent_addEnt_ne _ 0x2100 9 1 _ _ (by decide)).trans (State.ent_setEnt_self ..)
  · refine (State.ent_addEnt_self _ 0x2100 9 1).trans ?_
    rw [State.ent_setEnt_ne _ _ _ _ _ _ (by decide), show entryMod 0x2100 9 = 2 ^ 32 by decide]

theorem throttled_ent_ne (t : State) {i j : Nat} (hi : i ≠ 0x2000) (hi' : i ≠ 0x2100) (hj : j < 256) : (throttled t).ent i j = t.ent i j := by
  refine (State.ent_addEnt_ne _ 0x2100 9 1 _ _ ?_).trans (State.ent_setEnt_ne _ _ _ _ _ _ ?_)
  · rw [ne_eq, ekey_inj hj (by decide)]
    exact fun h => hi' h.1
  · rw [ne_eq, ekey_inj hj (by decide)]
    exact fun h => hi h.1

/-- The source is in force. -/
theorem throttleEnter_bit (announce : Bool) : Nat.testBit ((throttleEnter s source announce).ent 0x2100 7) (source - 1) = true := by
  cases hbit : Nat.testBit (s.ent 0x2100 7) (source - 1) with
  | true =>
    rw [throttleEnter_held hbit]
    exact hbit
  | false =>
    by_cases hm : s.ent 0x2100 7 = 0
    · have hshown : (throttled (s.setEnt 0x2100 7 (2 ^ (source - 1)))).ent 0x2100 7 = 2 ^ (source - 1) :=
        (throttled_ent _).1.trans (State.ent_setEnt_self ..)
      rw [throttleEnter_first hm]
      cases announce
      · exact (congrArg (Nat.testBit · (source - 1)) hshown).trans (Nat.testBit_two_pow_self ..)
      · exact (congrArg (Nat.testBit · (source - 1)) hshown).trans (Nat.testBit_two_pow_self ..)
    · rw [throttleEnter_next hbit hm, State.ent_setEnt_self, Nat.add_comm, Nat.testBit_two_pow_add_eq, hbit]
      rfl

/-- Beside the throttle's own entries and its times, what the entry of a source leaves. -/
theorem throttleEnter_keeps (announce : Bool) : (throttleEnter s source announce).power.mv = s.power.mv ∧
    ∀ i j, i ≠ 0x2000 → i ≠ 0x2100 → j < 256 → (throttleEnter s source announce).ent i j = s.ent i j := by
  have hset (v : Nat) {i j : Nat} (hi : i ≠ 0x2100) (hj : j < 256) : (s.setEnt 0x2100 7 v).ent i j = s.ent i j :=
    State.ent_setEnt_ne _ _ _ _ _ _ (by rw [ne_eq, ekey_inj hj (by decide)]; exact fun h => hi h.1)
  cases hbit : Nat.testBit (s.ent 0x2100 7) (source - 1) with
  | true =>
    rw [throttleEnter_held hbit]
    exact ⟨rfl, fun _ _ _ _ _ => rfl⟩
  | false =>
    by_cases hm : s.ent 0x2100 7 = 0
    · have hkept (i j : Nat) (hi : i ≠ 0x2000) (hi' : i ≠ 0x2100) (hj : j < 256) :
          (throttled (s.setEnt 0x2100 7 (2 ^ (source - 1)))).ent i j = s.ent i j := (throttled_ent_ne _ hi hi' hj).trans (hset _ hi' hj)
      rw [throttleEnter_first hm]
      cases announce <;> exact ⟨rfl, hkept⟩
    · rw [throttleEnter_next hbit hm]
      exact ⟨rfl, fun i j _ hi' hj => hset _ hi' hj⟩

theorem throttleEnter_announced {s : State} (hm : s.ent 0x2100 7 = 0) (source : Nat) : (throttleEnter s source true).ent 0x2000 1 = 1000 ∧
    (throttleEnter s source true).ent 0x2100 9 = (s.ent 0x2100 9 + 1) % 2 ^ 32 := by
  obtain ⟨-, hclock, hcount⟩ := throttled_ent (s.setEnt 0x2100 7 (2 ^ (source - 1)))
  rw [State.ent_setEnt_ne _ _ _ _ _ _ (by decide)] at hcount
  rw [throttleEnter_first hm]
  exact ⟨hclock, hcount⟩

/-- What a step of the clock's return leaves. -/
theorem clockStep_keeps (t : State) : (∀ i j, i ≠ 0x2000 → j < 256 → (clockStep t).ent i j = t.ent i j) ∧ (clockStep t).power.mv = t.power.mv ∧
    (clockStep t).power.supplyHalt = t.power.supplyHalt ∧ (clockStep t).power.thermalHold = t.power.thermalHold := by
  have hset (v : Nat) (i j : Nat) (hi : i ≠ 0x2000) (hj : j < 256) : (t.setEnt 0x2000 1 v).ent i j = t.ent i j :=
    State.ent_setEnt_ne _ _ _ _ _ _ (by rw [ne_eq, ekey_inj hj (by decide)]; exact fun h => hi h.1)
  unfold clockStep
  dsimp only
  split <;> exact ⟨hset _, rfl, rfl, rfl⟩

/-- What the release of a source leaves, and that it is in force no more. -/
theorem throttleRelease_spec : Nat.testBit ((throttleRelease s source).ent 0x2100 7) (source - 1) = false ∧
    (∀ i j, i ≠ 0x2000 → i ≠ 0x2100 → j < 256 → (throttleRelease s source).ent i j = s.ent i j) ∧
    (throttleRelease s source).power.mv = s.power.mv ∧ (throttleRelease s source).power.supplyHalt = s.power.supplyHalt ∧
    (throttleRelease s source).power.thermalHold = s.power.thermalHold := by
  unfold throttleRelease
  dsimp only
  cases hbit : Nat.testBit (s.ent 0x2100 7) (source - 1) with
  | false => exact ⟨hbit, fun _ _ _ _ _ => rfl, rfl, rfl, rfl⟩
  | true =>
    have hclear : Nat.testBit (s.ent 0x2100 7 - 2 ^ (source - 1)) (source - 1) = false := by
      have hge := Nat.ge_two_pow_of_testBit hbit
      have hsum : Nat.testBit (2 ^ (source - 1) + (s.ent 0x2100 7 - 2 ^ (source - 1))) (source - 1) = true := by
        rw [Nat.add_sub_cancel' hge]
        exact hbit
      rw [Nat.testBit_two_pow_add_eq] at hsum
      exact Bool.not_eq_true' _ ▸ hsum
    have hset (i j : Nat) (hi : i ≠ 0x2100) (hj : j < 256) :
        (s.setEnt 0x2100 7 (s.ent 0x2100 7 - 2 ^ (source - 1))).ent i j = s.ent i j :=
      State.ent_setEnt_ne _ _ _ _ _ _ (by rw [ne_eq, ekey_inj hj (by decide)]; exact fun h => hi h.1)
    rw [if_neg (by decide)]
    split
    · obtain ⟨hent, hmv, hsupply, hhold⟩ := clockStep_keeps { s.setEnt 0x2100 7 (s.ent 0x2100 7 - 2 ^ (source - 1)) with
        power := { s.power with returnLeft := 10, returnAt := s.now } }
      refine ⟨?_, fun i j hi hi' hj => (hent i j hi hj).trans (hset i j hi' hj), hmv, hsupply, hhold⟩
      refine (congrArg (Nat.testBit · (source - 1)) ((hent 0x2100 7 (by decide) (by decide)).trans ?_)).trans hclear
      exact State.ent_setEnt_self ..
    · exact ⟨(congrArg (Nat.testBit · (source - 1)) (State.ent_setEnt_self ..)).trans hclear, fun i j _ hi' hj => hset i j hi' hj, rfl, rfl, rfl⟩

end

/-! ### What an abort leaves of the power unit -/

/-- The conditions of supply and heat that hold beyond a run. -/
def heldPower (s : State) : Option Nat × Bool × Bool := (s.power.supplyHalt, s.power.thermalHold, s.power.holdup)

theorem heldPower_of_power {s t : State} (h : t.power = s.power) : heldPower t = heldPower s := by
  unfold heldPower
  rw [h]

theorem haltCores_power (s : State) : (haltCores s).power = s.power := by
  have hreleased : Accounts s (s.cores.foldl (fun t c => touchLeft (releaseMoves t c.2) c) s) :=
    .foldl (fun t (c : Nat × CoreS) => (releaseMoves_accounts t c.2).trans (touchLeft_accounts _ c)) _ s
  exact hreleased.power

theorem openPorts_power (s : State) : (openPorts s).power = s.power := by
  unfold openPorts
  refine foldl_keeps _ State.power (fun t p => ?_) _ s
  rfl

theorem stepDropped_power (s : State) : (stepDropped s).power = s.power := by
  unfold stepDropped
  rw [State.setEnt_power, State.addEnt_power, State.setEnt_power, openPorts_power, haltCores_power]
  exact ((hitRates_accounts s).trans (waitBallast_accounts _)).power

theorem enterEff_power (s : State) (d : Dev) : (s.enterEff d).power = s.power := by
  rcases s.enterEff_cases d with ⟨-, h⟩ | ⟨-, h⟩
  · rw [h]
  · rw [h, State.enter_power]

theorem abandon_heldPower (s : State) : heldPower (abandon s) = heldPower s := by
  have hdropped := stepDropped_power s
  rw [abandon_eq]
  generalize stepDropped s = d at hdropped ⊢
  have hentered := enterEff_power (unitsFreed d) .aborting
  generalize (unitsFreed d).enterEff .aborting = v at hentered ⊢
  have hheld : heldPower (unitsFreed d) = heldPower s := (show heldPower (unitsFreed d) = heldPower d from rfl).trans (heldPower_of_power hdropped)
  exact (show heldPower (startTaper v) = heldPower v from rfl).trans ((heldPower_of_power hentered).trans hheld)

theorem abortRun_heldPower (s : State) (reason : Nat) : heldPower (abortRun s reason) = heldPower s := by
  unfold abortRun
  split
  · obtain ⟨l, h⟩ := floodAbort_eq s s.device reason s.now.toNat (s.ent 0x5010 1 % 2 ^ 32) none
    have hheld : heldPower (holdAbort { s with links := l } s.now.toNat) = heldPower s := by
      unfold holdAbort
      dsimp only
      split <;> rfl
    rw [actAbort_eq, h]
    unfold decideAbort
    split
    · exact hheld
    · split
      · exact (abandon_heldPower _).trans hheld
      · exact hheld
  · rfl

/-- An abort of the run at its time abandons the step or is deferred (R71). -/
theorem abortRun_decides {s : State} (hr : s.running = true) (reason : Nat) :
    (abandons s.run s.now.toNat = true → (abortRun s reason).eff = .aborting) ∧
      (abandons s.run s.now.toNat = false → (abortRun s reason).eff = .run ∧ (abortRun s reason).run.deferred.isSome = true) := by
  rw [abortRun_of_running reason hr]
  refine ⟨fun h => (actAbort_abandons _ _ _ hr h).1, fun h => ?_⟩
  obtain ⟨heff, hdeferred, -⟩ := actAbort_defers s.device reason none hr h
  exact ⟨heff.trans (eff_of_running hr), hdeferred⟩

/-! ### The standby side's start and loss (R490, R520, Table 17-2) -/

/-- What a choice of images leaves. -/
structure ImagesOnly (s t : State) : Prop where
  ctl : t.ctl = s.ctl
  mem : t.mem = s.mem
  cores : t.cores = s.cores
  fdp : t.fdp = s.fdp
  audit : t.audit = s.audit
  ring : t.ev.ring = s.ev.ring
  volts : t.ent 0x2000 2 = s.ent 0x2000 2

theorem ImagesOnly.trans {s t u : State} (h : ImagesOnly s t) (h' : ImagesOnly t u) : ImagesOnly s u :=
  ⟨h'.ctl.trans h.ctl, h'.mem.trans h.mem, h'.cores.trans h.cores, h'.fdp.trans h.fdp, h'.audit.trans h.audit, h'.ring.trans h.ring,
    h'.volts.trans h.volts⟩

theorem ImagesOnly.setEnt (s : State) {i j : Nat} (v : Nat) (h : ekey 0x2000 2 ≠ ekey i j) : ImagesOnly s (s.setEnt i j v) :=
  ⟨rfl, rfl, rfl, rfl, rfl, rfl, State.ent_setEnt_ne _ _ _ _ _ _ h⟩

theorem ImagesOnly.setOct (s : State) (i j : Nat) (b : List Byte) : ImagesOnly s (s.setOct i j b) := ⟨rfl, rfl, rfl, rfl, rfl, rfl, rfl⟩

theorem trySlots_imagesOnly (l : List Nat) (s : State) : ImagesOnly s (trySlots 1 l s).1 := by
  induction l generalizing s with
  | nil => exact (ImagesOnly.setEnt s 0xFF (by decide)).trans (.setEnt _ 0 (by decide))
  | cons k l ih =>
    unfold trySlots
    dsimp only
    split
    · exact ((ImagesOnly.setEnt s k (by decide)).trans (.setEnt _ _ (by decide))).trans (.setOct ..)
    · have hfail : ImagesOnly s (sigFail s 1 k (imageFailure s (imageBytes s 1 k) 1)) := ⟨rfl, rfl, rfl, rfl, rfl, rfl, rfl⟩
      exact hfail.trans (ih _)

theorem selectImage_imagesOnly (s : State) : ImagesOnly s (selectImage s 1).1 := trySlots_imagesOnly _ s

/-- The standby side as the power finds it: volatile entries at their defaults, no event, no session, the log at its last durable entry. -/
def refreshed (s : State) (mv : Nat) : State :=
  { s with
    dict := keepSaved s.dict
    octs := keepSaved s.octs
    ev := { raised := [], ring := [], count := 0, alertLow := false }
    fdp := { s.fdp with sessions := [] }
    audit := { s.audit.dropWaiting with failed := false }
    trust := { s.trust with install := none, signing := 0, reportBody := none, report := [], chunks := [], token := [],
                            challengeLive := false, startSlots := [] }
    ctl := { s.ctl with everLocked := false, galenaHeld := false }
    mem := { s.mem with eccEvents := [], uncorrected := [], lapEvent := none }
    power := { Power.reset with mv := mv } }

/-- The module in STANDBY, before Galena's image is chosen. -/
def standingBy (s : State) (mv : Nat) : State :=
  { freshSram (mainReset (sampleSupply (refreshed s mv) mv)) 9 0 with
    ctl := { (freshSram (mainReset (sampleSupply (refreshed s mv) mv)) 9 0).ctl with dev := .standby } }

/-- Galena's registers, once its image is chosen. -/
def galenaShown (s : State) (ok : Bool) : State :=
  let t := (s.setEnt 0x2400 3 (if ok then 2 else 1)).setOct 0x8210 8 (Config.sha384 ([1, 2, 3, 4].flatMap (s.oct 0x8110)))
  let t := if t.ent 0x8130 7 = 1 then t.setOct 0x8210 6 (Config.sha384 t.trust.owner) else t
  if ok then t else { t with ctl := { t.ctl with galenaHeld := true }, ev := { t.ev with alertLow := true } }

theorem powerApplied_eq {s : State} {mv : Nat} (hoff : s.ctl.dev = .off) (hlow : 46000 ≤ mv) (hhigh : mv ≤ 58000) :
    exec (.powerApplied mv) s = .next (galenaShown (selectImage (standingBy s mv) 1).1 (selectImage (standingBy s mv) 1).2) := by
  change execPowerApplied mv s = _
  unfold execPowerApplied rated
  rw [if_neg (by omega), if_pos ⟨hoff, by omega, by omega⟩]
  dsimp only
  rw [Int.toNat_natCast]
  unfold galenaShown standingBy refreshed
  generalize selectImage _ 1 = p
  cases p
  rfl

theorem ite_ring {c : Prop} [Decidable c] {s t : State} {l : List EvRec} (hs : s.ev.ring = l) (ht : t.ev.ring = l) :
    (if c then s else t).ev.ring = l := by
  split
  · exact hs
  · exact ht

theorem noteCorrected_ring (s : State) (kind unit addr : Nat) : (noteCorrected s kind unit addr).ev.ring = s.ev.ring := by
  unfold noteCorrected
  exact ite_ring rfl rfl

theorem mergeChecked_ring (kind c a n : Nat) (s : State) (u : Nat × Option RawCode) : (mergeChecked kind c a n s u).ev.ring = s.ev.ring := by
  unfold mergeChecked
  dsimp only
  split
  · rfl
  · split
    · rfl
    · split
      · rfl
      · split
        · rfl
        · exact noteCorrected_ring ..

theorem touchSram_ring (s : State) (kind c a n : Nat) : (touchSram s kind c a n).ev.ring = s.ev.ring := by
  unfold touchSram
  split
  · rfl
  · exact foldl_keeps _ (fun t : State => t.ev.ring) (mergeChecked_ring kind c a n) _ s

theorem fdp_of_accounts {s t : State} (h : Accounts s t) : t.fdp = s.fdp :=
  show (besideAccounts t).fdp = (besideAccounts s).fdp from congrArg State.fdp h.kept

theorem audit_of_accounts {s t : State} (h : Accounts s t) : t.audit = s.audit :=
  show (besideAccounts t).audit = (besideAccounts s).audit from congrArg State.audit h.kept

/-- What the reset of the main side leaves, and what it clears. -/
theorem mainReset_spec (s : State) : (mainReset s).fdp = s.fdp ∧ (mainReset s).audit = s.audit ∧ (mainReset s).ev = s.ev ∧
    (mainReset s).mem.hbm = [] ∧ (mainReset s).cores = [] ∧ (∀ j, 1 ≤ j → j < 8 → (mainReset s).ent 0x2000 j = s.ent 0x2000 j) := by
  have hdark := darkPorts_besideEntries (clearEnts [(0x3000, 2, 7), (0x3021, 1, 0x30), (0x3300, 1, 0x30), (0x3301, 1, 0x30), (0x3302, 1, 0x30),
    (0x2200, 5, 5), (0x3100, 2, 2), (0x4600, 6, 6), (0x5220, 1, 0x80), (0x5221, 1, 0x80)] s)
  refine ⟨?_, ?_, mainReset_ev s, rfl, rfl, fun j hj hj' => ?_⟩
  · exact show (besideEntries _).fdp = (besideEntries _).fdp from congrArg State.fdp hdark
  · exact show (besideEntries _).audit = (besideEntries _).audit from congrArg State.audit hdark
  · refine (darkPorts_ent_below _ (by unfold ekey; omega)).trans (State.ent_clearEnts_outside s ?_)
    unfold ekey
    simp only [List.forall_mem_cons, List.not_mem_nil, false_imp_iff, implies_true, and_true]
    omega

theorem sampleSupply_refreshed (s : State) (mv : Nat) : (sampleSupply (refreshed s mv) mv).ent 0x2000 2 = mv := by
  refine (State.ent_setEnt_self _ 0x2000 2 _).trans ?_
  change (([mv].take 1000).sum / ([mv].take 1000).length) = mv
  simp

/-- The module in STANDBY: nothing of the main side, no event, no session, no waiting audit entry, and the input voltage shown. -/
structure Standing (u : State) (mv : Nat) : Prop where
  dev : u.ctl.dev = .standby
  volts : u.ent 0x2000 2 = mv
  ring : u.ev.ring = []
  sessions : u.fdp.sessions = []
  waiting : u.audit.waiting = []
  hbm : u.mem.hbm = []
  cores : u.cores = []

theorem standingBy_stands (s : State) (mv : Nat) : Standing (standingBy s mv) mv := by
  obtain ⟨hfdp, haudit, hev, hhbm, hcores, hent⟩ := mainReset_spec (sampleSupply (refreshed s mv) mv)
  have hvolts := (hent 2 (by decide) (by decide)).trans (sampleSupply_refreshed s mv)
  have hsessions := congrArg Fdp.sessions hfdp
  have hwaiting := congrArg Audit.waiting haudit
  have hring := congrArg Events.ring hev
  unfold standingBy
  generalize mainReset (sampleSupply (refreshed s mv) mv) = t at hhbm hcores hvolts hsessions hwaiting hring ⊢
  have haccounts : Accounts t (freshSram t 9 0) := touchSram_accounts t 9 0 0 (8 * 2 ^ 24)
  exact ⟨rfl, (haccounts.low 0x2000 2 (by decide) (by decide)).trans hvolts, (touchSram_ring t 9 0 0 (8 * 2 ^ 24)).trans hring,
    (congrArg Fdp.sessions (fdp_of_accounts haccounts)).trans hsessions, (congrArg Audit.waiting (audit_of_accounts haccounts)).trans hwaiting,
    (freshSram_hbm t 9 0).trans hhbm, haccounts.cores.trans hcores⟩

theorem Standing.of_images {s t : State} {mv : Nat} (h : Standing s mv) (hi : ImagesOnly s t) : Standing t mv :=
  ⟨(congrArg Ctl.dev hi.ctl).trans h.dev, hi.volts.trans h.volts, hi.ring.trans h.ring, (congrArg Fdp.sessions hi.fdp).trans h.sessions,
    (congrArg Audit.waiting hi.audit).trans h.waiting, (congrArg Mem.hbm hi.mem).trans h.hbm, hi.cores.trans h.cores⟩

theorem galenaShown_stands {s : State} {mv : Nat} (h : Standing s mv) (ok : Bool) : Standing (galenaShown s ok) mv := by
  have hshown : Standing ((s.setEnt 0x2400 3 (if ok then 2 else 1)).setOct 0x8210 8 (Config.sha384 ([1, 2, 3, 4].flatMap (s.oct 0x8110)))) mv :=
    h.of_images ((ImagesOnly.setEnt s _ (by decide)).trans (.setOct ..))
  unfold galenaShown
  dsimp only
  generalize (s.setEnt 0x2400 3 (if ok then 2 else 1)).setOct 0x8210 8 (Config.sha384 ([1, 2, 3, 4].flatMap (s.oct 0x8110))) = t at hshown ⊢
  have howned : Standing (if t.ent 0x8130 7 = 1 then t.setOct 0x8210 6 (Config.sha384 t.trust.owner) else t) mv := by
    split
    · exact hshown.of_images (.setOct ..)
    · exact hshown
  generalize (if t.ent 0x8130 7 = 1 then t.setOct 0x8210 6 (Config.sha384 t.trust.owner) else t) = v at howned ⊢
  split
  · exact howned
  · exact ⟨howned.dev, howned.volts, howned.ring, howned.sessions, howned.waiting, howned.hbm, howned.cores⟩

theorem powerApplied_stands {s : State} {mv : Nat} (hoff : s.ctl.dev = .off) (hlow : 46000 ≤ mv) (hhigh : mv ≤ 58000) :
    ∃ u, exec (.powerApplied mv) s = .next u ∧ Standing u mv :=
  ⟨_, powerApplied_eq hoff hlow hhigh, galenaShown_stands ((standingBy_stands s mv).of_images (selectImage_imagesOnly _)) _⟩

/-- Everything but what the streams and the count of free values touch. -/
theorem disableStreams_keeps (s : State) : (disableStreams s).fdp = s.fdp ∧ (disableStreams s).audit = s.audit := by
  have hcuts := countCuts_besideEntries s fun d => decide (d.1 = 1)
  unfold disableStreams
  dsimp only
  rw [State.clearEnts_fdp, State.clearEnts_audit]
  generalize countCuts s (fun d => decide (d.1 = 1)) = t at hcuts ⊢
  exact ⟨show (besideEntries t).fdp = (besideEntries s).fdp from congrArg State.fdp hcuts,
    show (besideEntries t).audit = (besideEntries s).audit from congrArg State.audit hcuts⟩

theorem endWaits_keeps (s : State) : (endWaits s).fdp = s.fdp ∧ (endWaits s).audit = s.audit := by
  have hwaits := endWaits_besideEntries s
  generalize endWaits s = t at hwaits ⊢
  exact ⟨show (besideEntries t).fdp = (besideEntries s).fdp from congrArg State.fdp hwaits,
    show (besideEntries t).audit = (besideEntries s).audit from congrArg State.audit hwaits⟩

/-- The main side's memories and cores are gone, and Galena's log and sessions stay. -/
theorem toStandby_resets (s : State) : (toStandby s).mem.hbm = [] ∧ (toStandby s).cores = [] ∧ (toStandby s).audit = s.audit ∧
    (toStandby s).fdp = s.fdp := by
  obtain ⟨hfdp, haudit, -, hhbm, hcores, -⟩ := mainReset_spec (disableStreams (endWaits s))
  obtain ⟨hfdp', haudit'⟩ := disableStreams_keeps (endWaits s)
  obtain ⟨hfdp'', haudit''⟩ := endWaits_keeps s
  unfold toStandby
  dsimp only
  rw [State.setOct_mem, State.enter_mem, State.setOct_cores, State.enter_cores, State.setOct_audit, State.enter_audit, State.setOct_fdp, State.enter_fdp]
  exact ⟨hhbm, hcores, haudit.trans (haudit'.trans haudit''), hfdp.trans (hfdp'.trans hfdp'')⟩

theorem standbyPowerLoss_clears {s : State} (hon : s.ctl.dev ≠ .off) : ∃ u, exec .standbyPowerLoss s = .next u ∧ u.ctl.dev = .off ∧
    u.ctl.powered = false ∧ u.fdp.sessions = [] ∧ u.ev.ring = [] ∧ u.mem.hbm = [] ∧ u.cores = [] ∧ u.audit.ring = s.audit.ring := by
  obtain ⟨-, haudit, -, hhbm, hcores, -⟩ := mainReset_spec (disableStreams (endWaits s))
  have hring := congrArg Audit.ring (haudit.trans ((disableStreams_keeps _).2.trans (endWaits_keeps s).2))
  have hexec : exec .standbyPowerLoss s = execStandbyPowerLoss s := rfl
  rw [hexec]
  unfold execStandbyPowerLoss
  rw [if_neg hon]
  generalize mainReset (disableStreams (endWaits s)) = t at hhbm hcores hring ⊢
  exact ⟨_, rfl, rfl, rfl, rfl, rfl, hhbm, hcores, hring⟩

/-! ### Supply low, halt and recovery -/

theorem supplyLow_throttles {s : State} {mv : Nat} (hon : s.ctl.dev ≠ .off) (hlow : 44000 ≤ mv) (hhigh : mv < 46000) :
    exec (.supplyLow mv) s = .next (throttleEnter (noteSupply s mv) 4 true) := if_pos ⟨hon, hlow, hhigh⟩

/-- The state in which a supply halt raises its abort. -/
def supplyHalted (s : State) (t : FTime) (mv : Nat) : State :=
  haltEvent ({ noteSupply { s with now := t } mv with
    power := { (noteSupply { s with now := t } mv).power with supplyHalt := some (if mv < 44000 then 2 else 3) } }.addEnt 0x2000 7 1)
    (if mv < 44000 then 2 else 3) 0 mv

section
variable {s : State} {t : FTime} {mv : Nat} (hon : s.ctl.dev ≠ .off) (hnow : s.now ≤ t) (hout : mv < 44000 ∨ (60000 < mv ∧ mv ≤ 64000))
  (hnone : s.power.supplyHalt = none)
include hon hnow hout hnone

/-- The condition noted. -/
def supplyNoted (s : State) (t : FTime) (mv : Nat) : State :=
  { noteSupply { s with now := t } mv with
    power := { (noteSupply { s with now := t } mv).power with supplyHalt := some (if mv < 44000 then 2 else 3) } }

theorem supplyHalt_eq : exec (.supplyHalt t mv) s = if (noteSupply { s with now := t } mv).ctl.powered then
    .next { abortRun (supplyHalted s t mv) 0x1102 with power := { (abortRun (supplyHalted s t mv) 0x1102).power with holdup := true } }
    else .next (supplyNoted s t mv) := by
  have hguard : ¬ (({ s with now := t } : State).ctl.dev = .off ∨ (44000 ≤ mv ∧ mv ≤ 60000) ∨ ({ s with now := t } : State).power.supplyHalt.isSome) := by
    rintro (h | h | h)
    · exact hon h
    · omega
    · rw [show ({ s with now := t } : State).power.supplyHalt = none from hnone] at h
      exact Bool.false_ne_true h
  change execSupplyHalt t mv s = _
  unfold execSupplyHalt rated
  rw [if_neg (by omega), atTime_of_le s hnow]
  exact if_neg hguard

/-- What a supply halt leaves. -/
theorem supplyHalt_spec : ∃ u, exec (.supplyHalt t mv) s = .next u ∧ u.power.supplyHalt = some (if mv < 44000 then 2 else 3) ∧
    u.power.holdup = (s.power.holdup || s.ctl.powered) ∧
    (s.ctl.powered = true → u.ent 0x2000 7 = (s.ent 0x2000 7 + 1) % 2 ^ 32 ∧ ∃ e ∈ u.ev.raised, e.code = 0x1102 ∧ e.time = t) ∧
    (s.ctl.powered = true → s.running = true → (abandons s.run t.toNat = true → u.eff = .aborting) ∧
      (abandons s.run t.toNat = false → u.eff = .run ∧ u.run.deferred.isSome = true)) := by
  have hexec := supplyHalt_eq hon hnow hout hnone
  cases hpowered : s.ctl.powered with
  | false =>
    rw [if_neg (by rw [show (noteSupply { s with now := t } mv).ctl.powered = false from hpowered]; decide)] at hexec
    exact ⟨_, hexec, rfl, (Bool.or_false _).symm, fun h => absurd h Bool.false_ne_true, fun h => absurd h Bool.false_ne_true⟩
  | true =>
    rw [if_pos (show (noteSupply { s with now := t } mv).ctl.powered = true from hpowered)] at hexec
    refine ⟨_, hexec, ?_⟩
    have hspares := abortRun_spares (supplyHalted s t mv) 0x1102
    have hheld := abortRun_heldPower (supplyHalted s t mv) 0x1102
    have hcount : (supplyHalted s t mv).ent 0x2000 7 = (s.ent 0x2000 7 + 1) % 2 ^ 32 := by
      refine (State.ent_addEnt_self _ 0x2000 7 1).trans ?_
      rw [show entryMod 0x2000 7 = 2 ^ 32 by decide]
      rfl
    have hraised : ∃ e ∈ (supplyHalted s t mv).ev.raised, e.code = 0x1102 ∧ e.time = t := ⟨_, List.mem_append_right _ (List.mem_singleton_self _), rfl, rfl⟩
    have hdecides := fun hr => abortRun_decides (s := supplyHalted s t mv) hr 0x1102
    have hrunning : (supplyHalted s t mv).running = s.running := rfl
    have hrun : (supplyHalted s t mv).run = s.run := rfl
    have hat : (supplyHalted s t mv).now = t := rfl
    have hpower : heldPower (supplyHalted s t mv) = (some (if mv < 44000 then 2 else 3), s.power.thermalHold, s.power.holdup) := rfl
    rw [hrunning, hrun, hat] at hdecides
    rw [hpower] at hheld
    generalize supplyHalted s t mv = w at hspares hheld hcount hraised hdecides
    generalize abortRun w 0x1102 = v at hspares hheld hdecides ⊢
    obtain ⟨e, he, hcode, htime⟩ := hraised
    obtain ⟨hsupply, -⟩ := Prod.mk.inj hheld
    refine ⟨hsupply, (Bool.or_true _).symm, fun _ => ⟨?_, e, hspares.mem_raised he, hcode, htime⟩, fun _ hr => hdecides hr⟩
    exact (hspares.low 0x2000 7 (by decide) (by decide) (by decide)).trans hcount

end

theorem supplyRecovered_spec {s : State} {mv : Nat} (hon : s.ctl.dev ≠ .off) (hlow : 46000 ≤ mv) (hhigh : mv ≤ 58000) :
    ∃ u, exec (.supplyRecovered mv) s = .next u ∧ u.power.supplyHalt = none ∧ Nat.testBit (u.ent 0x2100 7) 3 = false ∧ u.power.mv = mv := by
  obtain ⟨hbit, -, hmv, hsupply, -⟩ := throttleRelease_spec { noteSupply s mv with power := { (noteSupply s mv).power with supplyHalt := none } } 4
  exact ⟨_, if_pos ⟨hon, hlow, hhigh⟩, hsupply, hbit, hmv⟩

/-! ### Heat (R507, Table 17-3) -/

theorem thermalThrottle_spec {s : State} {t : FTime} {die : Fin 7} {mC : Nat} (hnow : s.now ≤ t) (hon : s.ctl.dev ≠ .off) (hlow : 100000 ≤ mC)
    (hhigh : mC < 2 ^ 31) : ∃ u, exec (.thermalThrottle t die mC) s = .next u ∧ Nat.testBit (u.ent 0x2100 7) 2 = true ∧
      u.ent 0x2300 (die.val + 1) = mC := by
  have hexec : exec (.thermalThrottle t die mC) s = .next (throttleEnter (noteTemp { s with now := t } (die.val + 1) mC) 3 true) := by
    change execThermalThrottle t die mC s = _
    unfold execThermalThrottle
    rw [atTime_of_le s hnow]
    refine if_neg ?_
    rintro (h | h | h)
    · exact hon h
    · omega
    · omega
  refine ⟨_, hexec, throttleEnter_bit _ 3 true, ?_⟩
  refine ((throttleEnter_keeps _ 3 true).2 0x2300 (die.val + 1) (by decide) (by decide) (by omega)).trans ?_
  exact State.ent_setEnt_self ({ s with now := t } : State) 0x2300 (die.val + 1) mC

/-- The readings of the dies, noted from die n on. -/
def noteTemps (l : List (Int × Nat)) (s : State) : State := l.foldl (fun s x => noteTemp s (x.2 + 1) (unsigned 32 x.1)) s

theorem noteTemps_ent (l : List Int) (n : Nat) (s : State) {k : Nat} (hn : n + l.length ≤ 7) :
    (noteTemps (l.zipIdx n) s).ent 0x2300 (k + 1) = if n ≤ k ∧ k < n + l.length then unsigned 32 (l.getD (k - n) 0) else s.ent 0x2300 (k + 1) := by
  induction l generalizing n s with
  | nil =>
    rw [if_neg (by simp)]
    rfl
  | cons x l ih =>
    rw [List.length_cons] at hn ⊢
    have hset : (noteTemp s (n + 1) (unsigned 32 x)).ent 0x2300 (k + 1) = if k = n then unsigned 32 x else s.ent 0x2300 (k + 1) := by
      by_cases hkn : k = n
      · rw [if_pos hkn, hkn]
        exact State.ent_setEnt_self s 0x2300 (n + 1) (unsigned 32 x)
      · rw [if_neg hkn]
        exact State.ent_setEnt_ne s _ _ _ _ _ (by unfold ekey; omega)
    rw [List.zipIdx_cons]
    refine (ih (n + 1) (noteTemp s (n + 1) (unsigned 32 x)) (by omega)).trans ?_
    rw [hset]
    by_cases hkn : k = n
    · subst hkn
      rw [if_neg (by omega), if_pos rfl, if_pos (by omega), Nat.sub_self]
      rfl
    · rw [if_neg hkn]
      by_cases hin : n + 1 ≤ k ∧ k < n + 1 + l.length
      · rw [if_pos hin, if_pos (by omega), show k - n = k - (n + 1) + 1 by omega]
        rfl
      · rw [if_neg hin, if_neg (by omega)]

theorem signed_unsigned {x : Int} (hlow : -273150 ≤ x) (hhigh : x < 95000) : signed 32 (unsigned 32 x) = x := by
  unfold signed unsigned
  split <;> omega

/-- What the release of the source heat leaves. -/
theorem thermalRelease_spec {s : State} {t : FTime} {temps : List Int} (hnow : s.now ≤ t) (hon : s.ctl.dev ≠ .off) (hlength : temps.length = 7)
    (htemps : ∀ x ∈ temps, -273150 ≤ x ∧ x < 95000) : ∃ u, exec (.thermalRelease t temps) s = .next u ∧ Nat.testBit (u.ent 0x2100 7) 2 = false ∧
      (∀ k, k < 7 → signed 32 (u.ent 0x2300 (k + 1)) = temps.getD k 0) ∧ (u.power.thermalHold = true → ∃ x ∈ temps, 60000 ≤ x) := by
  have hexec : exec (.thermalRelease t temps) s = .next (throttleRelease { noteTemps temps.zipIdx { s with now := t } with
      power := { (noteTemps temps.zipIdx { s with now := t }).power with
        thermalHold := (noteTemps temps.zipIdx { s with now := t }).power.thermalHold && dieHot (noteTemps temps.zipIdx { s with now := t }) 60000 } } 3) := by
    change execThermalRelease t temps s = _
    unfold execThermalRelease
    rw [atTime_of_le s hnow]
    refine if_neg ?_
    rintro (h | h | h)
    · exact hon h
    · exact h hlength
    · obtain ⟨x, hx, hhot⟩ := List.any_eq_true.1 h
      have := (htemps x hx).2
      have := of_decide_eq_true hhot
      omega
  have hread (k : Nat) (hk : k < 7) : signed 32 ((noteTemps temps.zipIdx { s with now := t }).ent 0x2300 (k + 1)) = temps.getD k 0 := by
    have hent := noteTemps_ent temps 0 { s with now := t } (k := k) (by omega)
    rw [if_pos (by omega), Nat.sub_zero] at hent
    have hmem : temps.getD k 0 ∈ temps := by
      rw [List.getD_eq_getElem _ _ (by omega)]
      exact List.getElem_mem _
    obtain ⟨hlow, hhigh⟩ := htemps _ hmem
    rw [hent]
    exact signed_unsigned hlow hhigh
  refine ⟨_, hexec, ?_⟩
  generalize noteTemps temps.zipIdx { s with now := t } = v at hread ⊢
  obtain ⟨hbit, hent, -, -, hhold⟩ := throttleRelease_spec { v with
    power := { v.power with thermalHold := v.power.thermalHold && dieHot v 60000 } } 3
  refine ⟨hbit, fun k hk => ?_, fun h => ?_⟩
  · rw [hent 0x2300 (k + 1) (by decide) (by decide) (by omega)]
    exact hread k hk
  · rw [hhold] at h
    obtain ⟨-, hhot⟩ := (Bool.and_eq_true _ _).mp h
    obtain ⟨k, hk, hdie⟩ := List.any_eq_true.1 hhot
    have hdie := of_decide_eq_true hdie
    have hrange : 1 ≤ k ∧ k < 8 := by
      simp only [List.mem_cons, List.not_mem_nil, or_false] at hk
      omega
    obtain ⟨j, rfl⟩ : ∃ j, k = j + 1 := ⟨k - 1, by omega⟩
    rw [hread j (by omega)] at hdie
    refine ⟨temps.getD j 0, ?_, hdie⟩
    rw [List.getD_eq_getElem _ _ (by omega)]
    exact List.getElem_mem _

/-! ### The power-down of Table 17-4 -/

theorem cancelArming_thermalHold (s : State) : (cancelArming s).power.thermalHold = s.power.thermalHold := by
  have hstopped : (rampStopped s).power.thermalHold = s.power.thermalHold := by
    unfold rampStopped
    split <;> rfl
  rw [cancelArming_eq, enterEff_power]
  exact hstopped

section
variable {w : State} (hpowered : w.ctl.powered = true)
include hpowered

theorem haltPowerDown_run (h : w.eff = .run) : haltPowerDown w =
    { abortRun w 0x1102 with power := { (abortRun w 0x1102).power with downAfterAbort := true } } := by
  unfold haltPowerDown
  rw [hpowered, if_neg (by decide), h]

theorem haltPowerDown_aborting (h : w.eff = .aborting) : haltPowerDown w = { w with power := { w.power with downAfterAbort := true } } := by
  unfold haltPowerDown
  rw [hpowered, if_neg (by decide), h]

/-- Outside a run and its abort the draw tapers, from a state that has cancelled an arming. -/
theorem haltPowerDown_other (hrun : w.eff ≠ .run) (haborting : w.eff ≠ .aborting) : ∃ v, haltPowerDown w = powerDown v ∧
    v.power.thermalHold = w.power.thermalHold ∧ v.ev = w.ev := by
  unfold haltPowerDown
  rw [hpowered, if_neg (by decide)]
  split
  · exact ⟨cancelArming w, rfl, cancelArming_thermalHold w, (cancelArming_leaves w).2.2.2.2.1⟩
  · exact absurd ‹_› hrun
  · exact absurd ‹_› haborting
  · exact ⟨w, rfl, rfl, rfl⟩

/-- What the power-down leaves: in RUN with the abort, in ABORTING after it, else with the taper begun. -/
theorem haltPowerDown_spec : (haltPowerDown w).power.thermalHold = w.power.thermalHold ∧ (∀ e ∈ w.ev.raised, e ∈ (haltPowerDown w).ev.raised) ∧
    (w.eff = .run ∨ w.eff = .aborting → (haltPowerDown w).power.downAfterAbort = true) ∧
    (w.eff = .run → (abandons w.run w.now.toNat = true → (haltPowerDown w).eff = .aborting) ∧
      (abandons w.run w.now.toNat = false → (haltPowerDown w).eff = .run ∧ (haltPowerDown w).run.deferred.isSome = true)) ∧
    (w.eff ≠ .run → w.eff ≠ .aborting → (haltPowerDown w).power.sheds = true ∧ (haltPowerDown w).power.taperLeft = 256) := by
  by_cases hrun : w.eff = .run
  · have hspares := abortRun_spares w 0x1102
    have hheld := abortRun_heldPower w 0x1102
    have hdecides := abortRun_decides (s := w) (decide_eq_true hrun) 0x1102
    rw [haltPowerDown_run hpowered hrun]
    generalize abortRun w 0x1102 = v at hspares hheld hdecides ⊢
    obtain ⟨-, hheld⟩ := Prod.mk.inj hheld
    obtain ⟨hthermal, -⟩ := Prod.mk.inj hheld
    exact ⟨hthermal, fun e he => hspares.mem_raised he, fun _ => rfl, fun _ => hdecides, fun h => absurd hrun h⟩
  · by_cases haborting : w.eff = .aborting
    · rw [haltPowerDown_aborting hpowered haborting]
      exact ⟨rfl, fun _ he => he, fun _ => rfl, fun h => absurd h hrun, fun _ h => absurd haborting h⟩
    · obtain ⟨v, hv, hthermal, hev⟩ := haltPowerDown_other hpowered hrun haborting
      rw [hv]
      refine ⟨hthermal, fun e he => ?_, fun h => h.elim (absurd · hrun) (absurd · haborting), fun h => absurd h hrun, fun _ _ => ⟨rfl, rfl⟩⟩
      change e ∈ v.ev.raised
      rwa [hev]

end

theorem thermalHalt_spec {s : State} {t : FTime} {die : Fin 7} {mC : Nat} (hnow : s.now ≤ t) (hon : s.ctl.dev ≠ .off)
    (hpowered : s.ctl.powered = true) (hlow : 110000 ≤ mC) (hhigh : mC < 2 ^ 31) :
    ∃ u, exec (.thermalHalt t die mC) s = .next u ∧ u.power.thermalHold = true ∧ (∃ e ∈ u.ev.raised, e.code = 0x1102 ∧ e.time = t) ∧
      (s.eff = .run ∨ s.eff = .aborting → u.power.downAfterAbort = true) ∧
      (s.eff = .run → (abandons s.run t.toNat = true → u.eff = .aborting) ∧
        (abandons s.run t.toNat = false → u.eff = .run ∧ u.run.deferred.isSome = true)) ∧
      (s.eff ≠ .run → s.eff ≠ .aborting → u.power.sheds = true ∧ u.power.taperLeft = 256) := by
  have hexec : exec (.thermalHalt t die mC) s = .next (haltPowerDown { haltEvent (noteTemp { s with now := t } (die.val + 1) mC) 4 0 mC with
      power := { (noteTemp { s with now := t } (die.val + 1) mC).power with thermalHold := true } }) := by
    change execThermalHalt t die mC s = _
    unfold execThermalHalt
    rw [atTime_of_le s hnow]
    refine if_neg ?_
    rintro (h | h | h | h)
    · exact hon h
    · omega
    · omega
    · exact Bool.false_ne_true (h.symm.trans hpowered)
  obtain ⟨hthermal, hraised, hdown, hdecides, htapers⟩ := haltPowerDown_spec (w := { haltEvent (noteTemp { s with now := t } (die.val + 1) mC) 4 0 mC with
    power := { (noteTemp { s with now := t } (die.val + 1) mC).power with thermalHold := true } }) hpowered
  exact ⟨_, hexec, hthermal, ⟨_, hraised _ (List.mem_append_right _ (List.mem_singleton_self _)), rfl, rfl⟩, hdown, hdecides, htapers⟩

/-- Settles O21: the supply by its voltage, and heat by its readings. -/
theorem supplyAndHeat : Obligations.SupplyAndHeat := by
  unfold Obligations.SupplyAndHeat
  refine ⟨fun s mv t v => ⟨fun hoff hlow hv => ?_, fun hv => if_pos (.inr hv), fun hoff hlow hhigh => ?_, fun hv => ⟨?_, ?_⟩,
    fun hon => standbyPowerLoss_clears hon, fun hon hlow hhigh => ?_, fun hon hnow hout hnone => supplyHalt_spec hon hnow hout hnone, fun hhold => ?_,
    fun hon hlow hhigh => supplyRecovered_spec hon hlow hhigh⟩,
    fun s t die mC temps hnow hon => ⟨fun hlow hhigh => thermalThrottle_spec hnow hon hlow hhigh,
      fun hlength htemps => thermalRelease_spec hnow hon hlength htemps,
      fun hpowered hlow hhigh => thermalHalt_spec hnow hon hpowered hlow hhigh⟩⟩
  · exact (if_neg (by omega)).trans (if_neg (by omega))
  · obtain ⟨u, hu, hstands⟩ := powerApplied_stands hoff hlow hhigh
    exact ⟨u, hu, hstands.dev, hstands.volts, hstands.ring, hstands.sessions, hstands.waiting, hstands.hbm, hstands.cores⟩
  · exact if_pos (.inl (by omega))
  · exact if_pos (.inl (by omega))
  · have hexec := supplyLow_throttles hon hlow hhigh
    refine ⟨_, hexec, throttleEnter_bit _ 4 true, (throttleEnter_keeps _ 4 true).1, fun hm => ?_⟩
    exact throttleEnter_announced (s := noteSupply s mv) hm 4
  · obtain ⟨hdev, hpowered, hev⟩ := toStandby_spec s
    obtain ⟨hhbm, hcores, haudit, hfdp⟩ := toStandby_resets s
    exact ⟨_, if_pos hhold, hdev, hpowered, hhbm, hcores, haudit, hfdp, hev⟩

end Sys2Proof.Machine
end


section
/-!
Answers to requests of this module, and messages of the host (R400, R401, R407): what an answer leaves where no descriptor waits to go on, and
what is left of a request that is given up.
-/
namespace Sys2Proof.Machine
open Sys2Proof

/-! ### The port that takes a flit -/

/-- Only ports differ, and no flit that waits on one. -/
structure PortsOnly (s t : State) : Prop where
  same : ∃ ps, t = { s with links := { s.links with ports := ps } }
  waiting : ∀ q, (t.port q).waiting = (s.port q).waiting

namespace PortsOnly

theorem trans {s t u : State} (h : PortsOnly s t) (h' : PortsOnly t u) : PortsOnly s u := by
  obtain ⟨⟨ps, rfl⟩, hw⟩ := h
  obtain ⟨⟨qs, rfl⟩, hw'⟩ := h'
  exact ⟨⟨qs, rfl⟩, fun q => (hw' q).trans (hw q)⟩

theorem setPort (s : State) (p : Nat) {x : PortS} (h : x.waiting = (s.port p).waiting) : PortsOnly s (s.setPort p x) := by
  refine ⟨⟨_, rfl⟩, fun q => ?_⟩
  rw [State.port_setPort]
  split
  · next e => rw [h, e]
  · rfl

end PortsOnly

theorem acceptedPort_waiting (x : PortS) (f : Flit) : (acceptedPort x f).waiting = x.waiting := by
  unfold acceptedPort
  split <;> rfl

/-- A flit that a port accepts changes ports alone before it is handed on. -/
theorem accepted_hands {s : State} {p : Port} {f : Flit} {k : Nat} (h : Accepts s p f k) :
    ∃ v, PortsOnly s v ∧ ∀ g, accepted s p.val f k g = g v := by
  have htaken := PortsOnly.setPort s p.val (acceptedPort_waiting (s.port p.val) f)
  refine ⟨_, ?_, accepted_of_accepts h⟩
  split
  · exact htaken.trans (.setPort _ _ rfl)
  · exact htaken

/-! ### Descriptors that wait for nothing -/

theorem quietMovers_of_cores {s t : State} (h : t.cores = s.cores) (hq : QuietMovers s) : QuietMovers t := fun c m hm =>
  hq c m (by rwa [core_of_cores h] at hm)

theorem mem_of_move {x : CoreS} {id : Nat} {m : Move} (h : x.move id = some m) : m ∈ x.moves := List.mem_of_find?_eq_some h

/-- With nothing to request and nothing to send, a free tag is of no use to a descriptor. -/
theorem pump_idle {s : State} (h : QuietMovers s) (n : Nat) (c : Core) (id : Nat) : pump n s c id = s := by
  cases n with
  | zero => rfl
  | succ n =>
    unfold pump
    split
    · next m tag hm _ =>
      obtain ⟨hreads, hwrites⟩ := h _ m (mem_of_move hm)
      rw [hreads, hwrites]
      exact ite_self s
    · rfl

theorem pumpAll_idle {s : State} (h : QuietMovers s) : pumpAll s = s := by
  unfold pumpAll
  refine List.foldlRecOn (motive := (· = s)) _ _ rfl fun t ht c _ => ?_
  subst ht
  split
  · refine List.foldlRecOn (motive := (· = t)) _ _ rfl fun u hu m _ => ?_
    subst hu
    split
    · exact pump_idle h ..
    · rfl
  · rfl

/-- What a core's change keeps of its descriptors' reads and writes. -/
theorem quietMovers_modCore {s : State} (h : QuietMovers s) (c : Nat) {f : CoreS → CoreS}
    (hf : ∀ m ∈ (f (s.core c)).moves, m.reads = [] ∧ m.writes = []) : QuietMovers (s.modCore c f) := fun c' m hm => by
  rw [State.core_modCore] at hm
  split at hm
  · exact hf m hm
  · exact h c' m hm

theorem quietMovers_modMove {s : State} (h : QuietMovers s) (c id : Nat) {f : Move → Move}
    (hf : ∀ m, (f m).reads = m.reads ∧ (f m).writes = m.writes) : QuietMovers (s.modMove c id f) := by
  refine quietMovers_modCore h c fun m hm => ?_
  obtain ⟨m', hm', rfl⟩ := List.mem_map.1 hm
  have hquiet := h c m' hm'
  split
  · rwa [(hf m').1, (hf m').2]
  · exact hquiet

theorem quietMovers_sweepMoves {s : State} (h : QuietMovers s) (c : Nat) : QuietMovers (sweepMoves s c) :=
  quietMovers_modCore h c fun m hm => h c m (List.mem_filter.1 hm).1

/-! ### RESP and ACK (R400, R401) -/

/-- A request once a flit of its answer is in. -/
def Request.answered (r : Request) (f : Flit) : Request :=
  { r with
    got := if f.index = 0 then slice (padTo 240 f.payload) 16 224 else r.got ++ padTo 240 f.payload
    status := if f.index = 0 then some (BitVec.ofNat 8 (field f.payload 0 1)) else r.status }

section
variable {s : State} {f : Flit} {r : Request}

theorem index_toNat_eq_zero : f.index.toNat = 0 ↔ f.index = 0 :=
  ⟨fun h => BitVec.eq_of_toNat_eq h, fun h => by rw [h]; rfl⟩

/-- What a flit of an answer does once its port has taken it, its request known. -/
theorem respReceive_eq {t : FTime} {p : Port} (hnow : s.now ≤ t) (h : Accepts s p f 5) (hmine : f.dst.toNat = s.device)
    (hrequest : requestOf s f = some r) (hkind : r.kind = .read) : ∃ v, PortsOnly { s with now := t } v ∧ exec (.respReceive t p f) s =
      .next (if f.last = false then { v with links := { v.links with requests := sset none v.links.requests f.tag.toNat (some (r.answered f)) } }
        else pumpAll (if ((r.answered f).status.getD 7).toNat = 0 then
            readDone (dropRequest v f.tag.toNat) (r.answered f) (padTo r.bytes (r.answered f).got)
          else requestFailed (dropRequest v f.tag.toNat) (r.answered f) ((r.answered f).status.getD 7).toNat)) := by
  obtain ⟨v, hv, haccepted⟩ := accepted_hands (s := { s with now := t }) h
  refine ⟨v, hv, ?_⟩
  have hanswered : (if f.index.toNat = 0 then
      { r with status := some (BitVec.ofNat 8 (field (padTo 240 f.payload) 0 1)), got := slice (padTo 240 f.payload) 16 224 }
      else { r with got := r.got ++ padTo 240 f.payload }) = r.answered f := by
    unfold Request.answered
    rw [field_padTo (by decide)]
    by_cases hi : f.index = 0
    · rw [if_pos (index_toNat_eq_zero.2 hi), if_pos hi, if_pos hi]
    · rw [if_neg fun h => hi (index_toNat_eq_zero.1 h), if_neg hi, if_neg hi]
  have hmineV : isMine v f = true := by
    obtain ⟨⟨ps, rfl⟩, -⟩ := hv
    exact decide_eq_true hmine
  have hrequestV : requestOf v f = some r := by
    obtain ⟨⟨ps, rfl⟩, -⟩ := hv
    exact hrequest
  have hexec : exec (.respReceive t p f) s = execRespReceive t p f s := rfl
  rw [hexec]
  unfold execRespReceive
  rw [atTime_of_le _ hnow, show kResp = 5 from rfl, haccepted]
  rw [if_neg (by rw [hmineV]; decide), hrequestV]
  dsimp only
  rw [if_neg (not_not.2 hkind), hanswered]
  exact (apply_ite Host.Outcome.next ..).symm

/-- What an ACK without a refusal does once its port has taken it, its request known. -/
theorem ackReceive_eq {t : FTime} {p : Port} (hnow : s.now ≤ t) (h : Accepts s p f 6) (hmine : f.dst.toNat = s.device)
    (hrequest : requestOf s f = some r) (hok : field f.payload 0 1 = 0) (hread : r.kind ≠ .read) (hhost : r.kind ≠ .hostmsg) :
    ∃ v, PortsOnly { s with now := t } v ∧ exec (.ackReceive t p f) s =
      .next (if r.kind = .post then pumpAll (dropRequest v f.tag.toNat)
        else pumpAll (sweepMoves (((dropRequest v f.tag.toNat).addEnt 0x4030 (r.core.val + 1) r.bytes).modMove r.core.val r.moveId
          fun m => { m with remote := m.remote - 1 }) r.core.val)) := by
  obtain ⟨v, hv, haccepted⟩ := accepted_hands (s := { s with now := t }) h
  refine ⟨v, hv, ?_⟩
  have hmineV : isMine v f = true := by
    obtain ⟨⟨ps, rfl⟩, -⟩ := hv
    exact decide_eq_true hmine
  have hrequestV : requestOf v f = some r := by
    obtain ⟨⟨ps, rfl⟩, -⟩ := hv
    exact hrequest
  have hexec : exec (.ackReceive t p f) s = execAckReceive t p f s := rfl
  rw [hexec]
  unfold execAckReceive
  rw [atTime_of_le _ hnow, show kAck = 6 from rfl, haccepted]
  rw [if_neg (by rw [hmineV]; decide), hrequestV]
  dsimp only
  rw [if_neg hread, if_neg hhost, if_neg (not_not.2 hok)]
  exact (apply_ite Host.Outcome.next ..).symm

end

/-! ### Requests given up (R401) -/

theorem haltCores_requests (s : State) : (haltCores s).links.requests = s.links.requests := by
  have hreleased (t : State) (c : Nat × CoreS) : besideMemory (touchLeft (releaseMoves t c.2) c) = besideMemory t := by
    unfold touchLeft releaseMoves
    rw [foldl_keeps _ besideMemory (fun _ _ => touchPass_besideMemory ..), foldl_keeps _ besideMemory releasePage_besideMemory]
  obtain ⟨hlinks, -⟩ := besideMemory_inj (foldl_keeps _ besideMemory hreleased s.cores s)
  have hkept := congrArg Links.requests hlinks
  exact hkept

theorem openPorts_requests (s : State) : (openPorts s).links.requests = s.links.requests := by
  unfold openPorts
  refine foldl_keeps _ (fun t => t.links.requests) (fun t p => ?_) _ s
  rfl

theorem stepDropped_requests (s : State) : (stepDropped s).links.requests = s.links.requests := by
  unfold stepDropped
  rw [State.setEnt_links, State.addEnt_links, State.setEnt_links, openPorts_requests, haltCores_requests, waitBallast_links, hitRates_links]

theorem abandon_requests (s : State) : (abandon s).links.requests = s.links.requests := by
  have hdropped := stepDropped_requests s
  rw [abandon_eq, startTaper_links, enterEff_links]
  generalize stepDropped s = d at hdropped ⊢
  exact hdropped

theorem floodAbort_requests (s : State) (orig reason raise step : Nat) (except : Option Nat) :
    (floodAbort s orig reason raise step except).links.requests = s.links.requests := by
  unfold floodAbort
  dsimp only
  generalize List.range 48 = ps
  generalize bareFlit 0xA _ = f
  exact foldl_keeps _ (fun t => t.links.requests) (fun t p => by split <;> rfl) ps s

/-- An abort gives up no request. -/
theorem abortRun_requests (s : State) (reason : Nat) : (abortRun s reason).links.requests = s.links.requests := by
  unfold abortRun
  split
  · have hflood : ∃ l, l.requests = s.links.requests ∧
        floodAbort s s.device reason s.now.toNat (s.ent 0x5010 1 % 2 ^ 32) none = { s with links := l } := by
      obtain ⟨l, hl⟩ := floodAbort_eq s s.device reason s.now.toNat (s.ent 0x5010 1 % 2 ^ 32) none
      refine ⟨l, ?_, hl⟩
      have hkept := floodAbort_requests s s.device reason s.now.toNat (s.ent 0x5010 1 % 2 ^ 32) none
      rwa [hl] at hkept
    obtain ⟨l, hkept, hl⟩ := hflood
    have hheld : (holdAbort { s with links := l } s.now.toNat).links.requests = s.links.requests := by
      rw [← hkept]
      unfold holdAbort
      dsimp only
      split <;> rfl
    rw [actAbort_eq, hl]
    unfold decideAbort
    split
    · exact hheld
    · split
      · exact (abandon_requests _).trans hheld
      · exact hheld
  · rfl

theorem dropRequest_gone (s : State) (tag : Nat) : sget none (dropRequest s tag).links.requests tag = none := by
  unfold dropRequest
  rw [sget_sset, if_pos rfl]

/-- A request without its answer in time. -/
def requestLost (s : State) (tag : Nat) : State := ((dropRequest s tag).addEnt 0x3320 2 1).raise 0x3303 []

theorem completionTimeout_spec {s : State} {t : FTime} {tag : BitVec 12} {r : Request} (hnow : s.now ≤ t)
    (hrequest : sget none s.links.requests tag.toNat = some r) (hlate : r.deadline ≤ t) :
    ∃ u, exec (.completionTimeout t tag) s = .next u ∧ sget none u.links.requests tag.toNat = none ∧
      u.ent 0x3320 2 = (s.ent 0x3320 2 + 1) % 2 ^ 32 ∧ ∃ e ∈ u.ev.raised, e.code = 0x3303 ∧ e.time = t := by
  have hexec : exec (.completionTimeout t tag) s = .next (abortRun (requestLost { s with now := t } tag.toNat) 0x3303) := by
    refine (show exec (.completionTimeout t tag) s = execCompletionTimeout t tag s from rfl).trans ?_
    unfold execCompletionTimeout
    rw [atTime_of_le _ hnow]
    dsimp only
    rw [hrequest]
    exact if_neg (BitVec.not_lt.2 hlate)
  have hgone : sget none (requestLost { s with now := t } tag.toNat).links.requests tag.toNat = none := dropRequest_gone { s with now := t } _
  have hcount : (requestLost { s with now := t } tag.toNat).ent 0x3320 2 = (s.ent 0x3320 2 + 1) % 2 ^ 32 := by
    refine (State.ent_addEnt_self _ 0x3320 2 1).trans ?_
    rw [show entryMod 0x3320 2 = 2 ^ 32 by decide]
    rfl
  have hraised : ∃ e ∈ (requestLost { s with now := t } tag.toNat).ev.raised, e.code = 0x3303 ∧ e.time = t :=
    ⟨_, List.mem_append_right _ (List.mem_singleton_self _), rfl, rfl⟩
  generalize requestLost { s with now := t } tag.toNat = w at hexec hgone hcount hraised
  obtain ⟨e, he, hcode, htime⟩ := hraised
  have hspares := abortRun_spares w 0x3303
  exact ⟨_, hexec, (congrArg (sget none · tag.toNat) (abortRun_requests w 0x3303)).trans hgone,
    (hspares.low 0x3320 2 (by decide) (by decide) (by decide)).trans hcount, e, hspares.mem_raised he, hcode, htime⟩

/-! ### A message of the host (R407) -/

section
variable {s : State}

theorem emit_galenaIn (dst : Nat) (fs : List Flit) : (emit s dst fs).1.links.galenaIn = s.links.galenaIn := by
  unfold emit
  split
  · next p _ => exact foldl_keeps (fun s f => sendOpen s p f) (fun t => t.links.galenaIn) (fun _ _ => rfl) fs s
  · rfl

/-- A message in one flit joins those that Galena has in, and its ACK leaves open transfers as they are. -/
theorem takeHostmsg_whole {p : Nat} {f : Flit} (hw : NothingWaits s) (hsrc : f.src = 0xFFFF#16) (hindex : f.index = 0) (hlast : f.last = true)
    (hlow : 1 ≤ field f.payload 2 2) (hhigh : field f.payload 2 2 ≤ 224) : NothingWaits (takeHostmsg s p f) ∧
      (takeHostmsg s p f).links.galenaIn = s.links.galenaIn ++
        [(BitVec.ofNat 16 (field f.payload 0 2), slice (padTo 240 f.payload) 16 (field f.payload 2 2))] := by
  have hlength : (slice (padTo 240 f.payload) 16 224).length = 224 := by
    rw [slice, List.length_take, List.length_drop, length_padTo]
    rfl
  have htake : (slice (padTo 240 f.payload) 16 224).take (field f.payload 2 2) = slice (padTo 240 f.payload) 16 (field f.payload 2 2) := by
    rw [slice, List.take_take, min_eq_left hhigh, slice]
  have hfirst : f.index.toNat = 0 := index_toNat_eq_zero.2 hindex
  unfold takeHostmsg
  dsimp only
  rw [if_pos hfirst]
  generalize field f.payload 2 2 = n at *
  have hgood : ¬ (f.src ≠ 0xFFFF#16 ∨ n = 0 ∨ 2048 < n ∨ (slice (padTo 240 f.payload) 16 224).length < n) := by
    rw [hlength]
    rintro (h | h | h | h)
    · exact h hsrc
    · omega
    · omega
    · omega
  dsimp only
  rw [if_neg (by rw [hlast]; decide), if_neg hgood, htake, sendAck_ok, emit_galenaIn]
  refine ⟨?_, rfl⟩
  rw [← sendAck_ok]
  exact sendAck_keeps.2.2.2 fun q => hw q

end

/-- Settles O30: an answer changes the request that it belongs to and ports, and a descriptor without reads and writes left takes no freed tag; an abort
keeps every other request; a message in one flit is taken at once, since no flit waits. -/
theorem answersTaken : Obligations.AnswersTaken := by
  unfold Obligations.AnswersTaken
  intro s t p f hnow
  refine ⟨fun r h hmine hrequest hkind => ⟨fun hlast => ?_, fun k g d hlast hstatus hmove hbytes hq hwait => ?_⟩,
    fun r h hmine hrequest hok hq => ⟨fun hkind => ?_, fun hkind => ?_⟩, fun r => completionTimeout_spec hnow,
    fun h hmine hw hsrc hindex hlast => ?_⟩
  · obtain ⟨v, -, hexec⟩ := respReceive_eq hnow h hmine hrequest hkind
    rw [if_pos hlast] at hexec
    exact ⟨_, hexec, (sget_sset ..).trans (if_pos rfl)⟩
  · obtain ⟨v, hv, hexec⟩ := respReceive_eq hnow h hmine hrequest hkind
    have hzero : ((r.answered f).status.getD 7).toNat = 0 := by
      rw [show (r.answered f).status = some 0 from hstatus]
      rfl
    obtain ⟨⟨ps, hps⟩, -⟩ := hv
    have hcores : (dropRequest v f.tag.toNat).cores = s.cores := by rw [hps]; rfl
    have hgone := dropRequest_gone v f.tag.toNat
    rw [if_neg (by rw [hlast]; decide), if_pos hzero] at hexec
    generalize dropRequest v f.tag.toNat = w at hexec hcores hgone
    have hdone : readDone w (r.answered f) (padTo r.bytes (r.answered f).got) = w.modCore r.core.val fun x => { x with wait := match x.wait with
        | .shape k g d none => .shape k g d (some (BitVec.ofNat 32 (ofLe (padTo r.bytes (r.answered f).got))))
        | w => w } := if_pos hmove
    rw [hdone, pumpAll_idle (quietMovers_modCore (quietMovers_of_cores hcores hq) _ fun m hm => hq r.core.val m (by rwa [core_of_cores hcores] at hm))]
      at hexec
    refine ⟨_, hexec, hgone, ?_⟩
    rw [State.core_modCore, if_pos rfl, core_of_cores hcores, hwait, hbytes]
    rfl
  · obtain ⟨v, hv, hexec⟩ := ackReceive_eq hnow h hmine hrequest hok (by rw [hkind]; decide) (by rw [hkind]; decide)
    obtain ⟨⟨ps, hps⟩, -⟩ := hv
    have hcores : (dropRequest v f.tag.toNat).cores = s.cores := by rw [hps]; rfl
    rw [if_pos hkind, pumpAll_idle (quietMovers_of_cores hcores hq)] at hexec
    exact ⟨_, hexec, dropRequest_gone .., hcores⟩
  · obtain ⟨v, hv, hexec⟩ := ackReceive_eq hnow h hmine hrequest hok (by rw [hkind]; decide) (by rw [hkind]; decide)
    obtain ⟨⟨ps, hps⟩, -⟩ := hv
    have hcores : (dropRequest v f.tag.toNat).cores = s.cores := by rw [hps]; rfl
    have hent : (dropRequest v f.tag.toNat).ent 0x4030 (r.core.val + 1) = s.ent 0x4030 (r.core.val + 1) := by rw [hps]; rfl
    have hgone := dropRequest_gone v f.tag.toNat
    rw [if_neg (by rw [hkind]; decide)] at hexec
    generalize dropRequest v f.tag.toNat = w at hexec hcores hent hgone
    have hquiet : QuietMovers (w.addEnt 0x4030 (r.core.val + 1) r.bytes) := quietMovers_of_cores hcores hq
    have hacked := quietMovers_modMove hquiet r.core.val r.moveId (f := fun m => { m with remote := m.remote - 1 }) fun _ => ⟨rfl, rfl⟩
    rw [pumpAll_idle (quietMovers_sweepMoves hacked _)] at hexec
    refine ⟨_, hexec, hgone, ?_⟩
    refine (State.ent_addEnt_self w ..).trans ?_
    rw [hent, entryMod_moverBytes r.core.isLt]
  · intro n hlow hhigh
    obtain ⟨v, hv, haccepted⟩ := accepted_hands (s := { s with now := t }) h
    have hexec : exec (.hostmsgReceive t p f) s = .next (arriveRequest v p.val f) := by
      refine (show exec (.hostmsgReceive t p f) s = execHostmsgReceive t p f s from rfl).trans ?_
      unfold execHostmsgReceive
      rw [atTime_of_le _ hnow, show kHostmsg = 8 from rfl, haccepted]
    obtain ⟨hin, hkind, -⟩ := h
    have hwaits : NothingWaits v := fun q => (hv.waiting q).trans (hw q)
    have hgalena : v.links.galenaIn = s.links.galenaIn := by
      obtain ⟨⟨ps, rfl⟩, -⟩ := hv
      rfl
    have hmineV : isMine v f = true := by
      obtain ⟨⟨ps, rfl⟩, -⟩ := hv
      exact decide_eq_true hmine
    have hfree : mustWait v p.val f = false := by
      unfold mustWait opensTooMany
      rw [hwaits, hkind]
      rfl
    have hhandled : handleRequest v p.val f = takeHostmsg v p.val f := by
      unfold handleRequest
      rw [hmineV, hkind]
      rfl
    obtain ⟨hquiet, htaken⟩ := takeHostmsg_whole (p := p.val) hwaits hsrc hindex hlast hlow hhigh
    have harrived : arriveRequest v p.val f = takeHostmsg v p.val f := by
      unfold arriveRequest
      dsimp only
      rw [drainAll_idle hwaits, hfree, if_neg Bool.false_ne_true, hhandled, drainAll_idle hquiet]
    exact ⟨_, hexec.trans (congrArg Host.Outcome.next harrived), htaken.trans (congrArg (· ++ _) hgalena)⟩

end Sys2Proof.Machine
end


section
/-!
Scheduled flits received (R389, R418, R419, R421): what the landing of a part of an instance leaves, an instance of one flit, a relayed flit, and an
instance that is cut short.
-/
namespace Sys2Proof.Machine
open Sys2Proof

/-! ### Bytes stored in two parts -/

/-- Bytes stored at an address and, in what follows, behind them, are stored together. -/
theorem Stored.append {s v v' u : State} {a : Nat} {b b' : List Byte} (h : Stored s v a b) (h' : Stored v' u (a + b.length) b')
    (ha : a + b.length + b'.length ≤ hbmSize) (hhbm : v'.mem.hbm = v.mem.hbm) (hv : ∀ j, j < 256 → v.ent 0x4010 j = s.ent 0x4010 j)
    (hv' : ∀ j, j < 256 → v'.ent 0x4010 j = s.ent 0x4010 j) (hu : ∀ j, j < 256 → u.ent 0x4010 j = s.ent 0x4010 j) : Stored s u a (b ++ b') := by
  obtain ⟨hbytes, hothers⟩ := h
  obtain ⟨hbytes', hothers'⟩ := h'
  have hplace {x : Nat} (hx : x < hbmSize) : phys v' x = phys s x := phys_of_accounts hv' hx
  refine ⟨fun i hi => ?_, fun k hk => ?_⟩
  · rw [List.length_append] at hi
    by_cases hfirst : i < b.length
    · have hkept : hbyte u (a + i) = hbyte v (a + i) := by
        unfold hbyte
        rw [phys_of_accounts hu (by omega), phys_of_accounts hv (by omega), ← hhbm]
        refine hothers' _ fun j hj he => ?_
        rw [hplace (by omega)] at he
        have := phys_inj s (by omega) (by omega) he
        omega
      rw [hkept, hbytes i hfirst, List.getD_append _ _ _ _ hfirst]
    · have hlater := hbytes' (i - b.length) (by omega)
      rw [show a + b.length + (i - b.length) = a + i by omega] at hlater
      rw [hlater, List.getD_append_right _ _ _ _ (by omega)]
  · rw [hothers' k fun j hj he => ?_, hhbm, hothers k fun j hj => hk j (by rw [List.length_append]; omega)]
    rw [hplace (by omega), Nat.add_assoc] at he
    exact hk _ (by rw [List.length_append]; omega) he

theorem hwrite_sound {s : State} (h : HbmSound s) (a : Nat) (b : List Byte) : HbmSound (hwrite s a b) := by
  obtain ⟨hraw, hcache⟩ := h
  unfold hwrite
  split
  · exact ⟨hraw, hcache⟩
  · rw [hraw]
    exact ⟨hraw, hcache⟩

theorem localWrite_sound {s : State} (h : HbmSound s) {a : Nat} {b : List Byte} (ha : a + b.length ≤ hbmSize) : HbmSound (localWrite s a b) := by
  rw [localWrite_hbm s ha]
  exact hwrite_sound (lookups_sound h ..) a b

/-! ### Landings and their signals (R147, R418) -/

/-- What a landing of n units for a SYNC does to the semaphores, where it cannot overflow. -/
structure LandSignal (s t : State) (sy n : Nat) : Prop where
  mem : t.mem = s.mem
  coll : t.coll = s.coll
  ctl : t.ctl = s.ctl
  low : ∀ i j, i < 0x4020 → j < 256 → t.ent i j = s.ent i j
  fits : t.sem (bits sy 33 24) (bits sy 39 34) ≤ s.sem (bits sy 33 24) (bits sy 39 34) + n
  landing : t.isLanding (bits sy 33 24) (bits sy 39 34) = s.isLanding (bits sy 33 24) (bits sy 39 34)
  signals : Nat.testBit sy 104 = true → s.isLanding (bits sy 33 24) (bits sy 39 34) = true →
    t.sem (bits sy 33 24) (bits sy 39 34) = s.sem (bits sy 33 24) (bits sy 39 34) + n
  silent : Nat.testBit sy 104 = false → t.cores = s.cores

theorem misdirect_fields (s : State) (c k n : Nat) : (misdirect s c k n).mem = s.mem ∧ (misdirect s c k n).coll = s.coll ∧
    (misdirect s c k n).ctl = s.ctl ∧ (∀ i j, i < 0x4020 → j < 256 → (misdirect s c k n).ent i j = s.ent i j) ∧
    (misdirect s c k n).isLanding c k = s.isLanding c k := by
  have hent (i j : Nat) (hi : i < 0x4020) (hj : j < 256) : (s.addEnt 0x5520 1 n).ent i j = s.ent i j :=
    State.ent_addEnt_ne s _ _ _ _ _ (by rw [ne_eq, ekey_inj hj (by decide)]; omega)
  unfold misdirect
  dsimp only
  split
  · exact ⟨rfl, rfl, rfl, hent, rfl⟩
  · refine ⟨rfl, rfl, rfl, hent, ?_⟩
    unfold State.isLanding
    rw [show (((s.addEnt 0x5520 1 n).modCore c fun x => { x with misdirected := k :: x.misdirected }).raise 0x5506 []).core c =
      ((s.addEnt 0x5520 1 n).modCore c fun x => { x with misdirected := k :: x.misdirected }).core c from rfl, State.core_modCore, if_pos rfl]
    rfl

theorem syncSignal_lands {s : State} (hr : s.running = true) {sy n : Nat} (hfits : s.sem (bits sy 33 24) (bits sy 39 34) + n < 2 ^ 32) :
    LandSignal s (syncSignal s sy n true) sy n := by
  have hidle (hsame : n = 0 ∨ Nat.testBit sy 104 = false) : LandSignal s s sy n :=
    ⟨rfl, rfl, rfl, fun _ _ _ _ => rfl, Nat.le_add_right .., rfl, fun h _ => by
      rcases hsame with rfl | h'
      · rfl
      · exact absurd (h.symm.trans h') (by decide), fun _ => rfl⟩
  unfold syncSignal
  split
  · next hsend =>
    have hloud (h : Nat.testBit sy 104 = false) {p : Prop} : p := absurd (h.symm.trans hsend) (by decide)
    by_cases hn : n = 0
    · rw [show incSem s (bits sy 33 24) (bits sy 39 34) n true = s from if_pos hn]
      exact hidle (.inl hn)
    · by_cases hl : s.isLanding (bits sy 33 24) (bits sy 39 34) = true
      · have hinc : incSem s (bits sy 33 24) (bits sy 39 34) n true =
            s.setSem (bits sy 33 24) (bits sy 39 34) (s.sem (bits sy 33 24) (bits sy 39 34) + n) := by
          unfold incSem
          rw [if_neg hn, hr, hl, if_neg (by simp), if_pos hfits]
        have hself := incSem_landing hr hfits hl
        rw [hinc] at hself ⊢
        refine ⟨rfl, rfl, rfl, fun _ _ _ _ => rfl, hself.le, ?_, fun _ _ => hself, fun h => hloud h⟩
        unfold State.isLanding State.setSem
        rw [State.core_modCore, if_pos rfl]
      · have hinc : incSem s (bits sy 33 24) (bits sy 39 34) n true = misdirect s (bits sy 33 24) (bits sy 39 34) n := by
          unfold incSem
          rw [if_neg hn, hr, Bool.eq_false_of_not_eq_true hl, if_pos (by simp)]
        obtain ⟨hmem, hcoll, hctl, hlow, hlanding⟩ := misdirect_fields s (bits sy 33 24) (bits sy 39 34) n
        rw [hinc]
        exact ⟨hmem, hcoll, hctl, hlow, by rw [(misdirect_holds s _ _ n).sem]; exact Nat.le_add_right .., hlanding, fun _ h => absurd h hl, fun h => hloud h⟩
  · next hquiet => exact hidle (.inr (Bool.eq_false_of_not_eq_true hquiet))

/-- What the landing of the bytes b at base, with n units signalled, leaves of a state that it reads. -/
structure Lands (s t : State) (base : Nat) (b : List Byte) (sy n : Nat) : Prop where
  stored : Stored s t base b
  sound : HbmSound t
  ctl : t.ctl = s.ctl
  image : t.coll.image = s.coll.image
  recvs : ∀ i, t.crecv i = s.crecv i
  low : ∀ i j, i < 0x4020 → j < 256 → t.ent i j = s.ent i j
  fits : t.sem (bits sy 33 24) (bits sy 39 34) ≤ s.sem (bits sy 33 24) (bits sy 39 34) + n
  landing : t.isLanding (bits sy 33 24) (bits sy 39 34) = s.isLanding (bits sy 33 24) (bits sy 39 34)
  signals : Nat.testBit sy 104 = true → s.isLanding (bits sy 33 24) (bits sy 39 34) = true →
    t.sem (bits sy 33 24) (bits sy 39 34) = s.sem (bits sy 33 24) (bits sy 39 34) + n
  silent : Nat.testBit sy 104 = false → t.cores = s.cores

theorem sem_of_cores {s t : State} (h : t.cores = s.cores) (c k : Nat) : t.sem c k = s.sem c k := by
  unfold State.sem
  rw [core_of_cores h]

theorem isLanding_of_cores {s t : State} (h : t.cores = s.cores) (c k : Nat) : t.isLanding c k = s.isLanding c k := by
  unfold State.isLanding
  rw [core_of_cores h]

theorem crecv_of_coll {s t : State} (h : t.coll = s.coll) (i : Nat) : t.crecv i = s.crecv i := by
  unfold State.crecv
  rw [h]

theorem stored_nothing (s : State) (a : Nat) : Stored s s a [] := ⟨fun _ hi => absurd hi (Nat.not_lt_zero _), fun _ _ => rfl⟩

theorem landPart_written {s : State} (hs : HbmSound s) {base start till : Nat} {data : List Byte} (hin : base + till ≤ hbmSize)
    (hdata : till ≤ data.length) (hle : start ≤ till) :
    let w := if start < till then localWrite s (base + start) (slice data start (till - start)) else s
    Accounts s w ∧ HbmSound w ∧ Stored s w (base + start) (slice data start (till - start)) := by
  have hlength : (slice data start (till - start)).length = till - start := by
    rw [slice, List.length_take, List.length_drop]
    omega
  have hinside : base + start + (slice data start (till - start)).length ≤ hbmSize := by omega
  intro w
  by_cases h : start < till
  · obtain ⟨hstored, haccounts, -⟩ := localWrite_commits hs hinside
    rw [show w = localWrite s (base + start) (slice data start (till - start)) from if_pos h]
    exact ⟨haccounts, localWrite_sound hs hinside, hstored⟩
  · rw [show w = s from if_neg h, List.length_eq_zero_iff.1 (hlength.trans (by omega))]
    exact ⟨.refl s, hs, stored_nothing s _⟩

theorem landPart_lands {s : State} (hr : s.running = true) (hs : HbmSound s) {base d start till sync landed : Nat} {data : List Byte}
    (hin : base + till ≤ hbmSize) (hdata : till ≤ data.length) (hle : start ≤ till) (hlanded : landed ≤ landUnits d till)
    (hfits : s.sem (bits (centry s sync) 33 24) (bits (centry s sync) 39 34) + (landUnits d till - landed) < 2 ^ 32) :
    (landPart s base data d start till sync landed true).2 = landUnits d till ∧
      Lands s (landPart s base data d start till sync landed true).1 (base + start) (slice data start (till - start)) (centry s sync)
        (landUnits d till - landed) := by
  obtain ⟨haccounts, hsound, hstored⟩ := landPart_written hs hin hdata hle
  have hlength : (slice data start (till - start)).length = till - start := by
    rw [slice, List.length_take, List.length_drop]
    omega
  unfold landPart
  dsimp only
  generalize (if start < till then localWrite s (base + start) (slice data start (till - start)) else s) = w at haccounts hsound hstored ⊢
  have hentry := centry_of_accounts haccounts sync
  have hcores := haccounts.cores
  have hsem := sem_of_cores hcores
  obtain ⟨hmem, hcoll, hctl, hlow, hfits', hlanding, hsignals, hsilent⟩ :=
    syncSignal_lands (s := w) (haccounts.running.trans hr) (sy := centry s sync) (n := landUnits d till - landed) (by rwa [hsem])
  rw [hsem] at hfits' hsignals
  rw [isLanding_of_cores hcores] at hlanding hsignals
  have himage := congrArg Coll.image haccounts.coll
  have hlands : Lands s (syncSignal w (centry s sync) (landUnits d till - landed) true) (base + start) (slice data start (till - start))
      (centry s sync) (landUnits d till - landed) :=
    { stored := hstored.later (by omega) hmem fun j hj => hlow 0x4010 j (by decide) hj
      sound := hbmSound_of_eq hsound (congrArg Mem.hbmRaw hmem) (congrArg Mem.cache hmem)
      ctl := hctl.trans haccounts.ctl
      image := (congrArg Coll.image hcoll).trans himage
      recvs := fun k => (crecv_of_coll hcoll k).trans (crecv_of_accounts haccounts k)
      low := fun j k hj hk => (hlow j k hj hk).trans (haccounts.low j k hj hk)
      fits := hfits'
      landing := hlanding
      signals := hsignals
      silent := fun h => (hsilent h).trans hcores }
  by_cases hmore : landed < landUnits d till
  · rw [if_pos ⟨rfl, hmore⟩, hentry]
    exact ⟨rfl, hlands⟩
  · rw [if_neg fun h => hmore h.2]
    have hnone : landUnits d till - landed = 0 := by omega
    have hstill : syncSignal w (centry s sync) (landUnits d till - landed) true = w := by
      rw [hnone]
      unfold syncSignal
      split
      · rfl
      · rfl
    rw [hstill] at hlands
    exact ⟨by omega, hlands⟩

/-! ### An instance of one flit (R418) -/

/-- A receiving entry once an instance of one flit is in, with the units that its first bytes have landed. -/
def RecvS.whole (r : RecvS) (landed : Nat) : RecvS :=
  { r with count := r.count + 1, active := false, got := 240, bytes := [], dropped := false, landed := landed }

/-- What the end of an unstaged instance in memory does before its last unit lands. -/
def counted (s : State) (nf : Bool) : State := (takeNonfinite s nf).addEnt 0x3420 2 1

/-- The first bytes of an instance of one flit, all but its last unit, land. -/
def landFirst (s : State) (i : Nat) (data : List Byte) : State × Nat :=
  landPart s (bufAddr (centry s (i + 1)) (s.crecv i).count) data (ceD (centry s i)) 0 (lastUnit (ceD (centry s i))) (i + 2) 0 true

theorem putFlit_first (b : List Byte) : putFlit [] 0 b = padTo 240 b := by
  simp [putFlit, padTo]

theorem recvDone_lands {s : State} {i j : Nat} {r : RecvS} (hsource : ceSource (centry s i) = 0) (hcheck : ceCheck (centry s i) = 0)
    (hstaged : ceStaged (centry s i) = false) : ∃ nf, recvDone s i j r =
      (landPart (counted s nf) (bufAddr (centry s (i + 1)) j) r.bytes (ceD (centry s i)) (lastUnit (ceD (centry s i))) (ceD (centry s i))
        (i + 2) r.landed true).1 := by
  refine ⟨trNonfinite (slice r.bytes (ceD (centry s i)) 16), ?_⟩
  have hsync : syncOf s i = i + 2 := by
    unfold syncOf
    simp [hsource, hstaged]
  have hentry (nf : Bool) (k : Nat) : centry (counted s nf) k = centry s k := by
    unfold counted takeNonfinite
    split <;> rfl
  have hsyncCounted (nf : Bool) : syncOf (counted s nf) i = i + 2 := by
    unfold syncOf
    rw [hentry]
    exact hsync
  unfold recvDone
  dsimp only
  rw [if_pos hsource, hcheck, show ∀ t dev, trailerCheck s 0 t dev = (s, true) from fun _ _ => rfl]
  dsimp only
  rw [show ∀ nf, (takeNonfinite s nf).addEnt 0x3420 2 1 = counted s nf from fun _ => rfl, if_neg (by decide), hsource, if_neg (by decide),
    if_neg (by decide), hstaged, if_neg (by decide), hentry, hsyncCounted]
  rfl

theorem instanceFlit_one {s : State} {i : Nat} {f : Flit} (hop : ceOp (centry s i) = 2) (hsource : ceSource (centry s i) = 0)
    (hstaged : ceStaged (centry s i) = false) (hlow : 1 ≤ ceD (centry s i)) (hhigh : ceD (centry s i) ≤ 224) (hindex : f.index = 0)
    (hlast : f.last = true) (hgate : syncGate s (centry s (i + 2)) (s.crecv i).count = true)
    (hwhole : field (padTo 240 f.payload) (ceD (centry s i)) 1 = 1) :
    instanceFlit s i f = recvDone ((landFirst s i (padTo 240 f.payload)).1.setCrecv i ((s.crecv i).whole (landFirst s i (padTo 240 f.payload)).2)) i
      (s.crecv i).count { (s.crecv i).whole (landFirst s i (padTo 240 f.payload)).2 with bytes := padTo 240 f.payload } := by
  have hzero : f.index.toNat = 0 := by rw [hindex]; rfl
  have hflits : flitsOf (ceD (centry s i)) = 1 := by
    unfold flitsOf ceilDiv
    omega
  have hsync : syncOf s i = i + 2 := by
    unfold syncOf
    simp [hsource, hstaged]
  unfold instanceFlit
  dsimp only
  have hrecv : ceOp (centry s i) = opRecv := hop
  have hbegin : (if 0 < lastUnit (ceD (centry s i)) then 0 else lastUnit (ceD (centry s i))) = 0 := by
    split
    · rfl
    · omega
  have hend : ¬ ceD (centry s i) < lastUnit (ceD (centry s i)) := by
    unfold lastUnit
    omega
  have hfit : ¬ 240 * (0 + 1) < ceD (centry s i) := by omega
  rw [hzero, hflits, hlast, if_pos rfl]
  dsimp only
  rw [if_neg (by decide), if_neg (by decide), if_neg (by decide), if_pos hrecv, Nat.add_sub_cancel, hsync, hgate, if_neg (by simp),
    if_neg (by decide), putFlit_first, if_neg (not_not.2 hwhole), hsource, hstaged, if_pos rfl, if_pos (show 0 < ceD (centry s i) from hlow), if_neg hfit,
    hbegin, if_neg hend]
  rfl

theorem counted_keeps (s : State) (nf : Bool) : (counted s nf).mem = s.mem ∧ (counted s nf).cores = s.cores ∧ (counted s nf).coll = s.coll ∧
    (counted s nf).ctl = s.ctl ∧ (∀ j, j < 256 → (counted s nf).ent 0x4010 j = s.ent 0x4010 j) ∧
    (counted s nf).ent 0x3420 2 = (s.ent 0x3420 2 + 1) % 2 ^ 64 := by
  have hcount (t : State) : (t.addEnt 0x3420 2 1).ent 0x3420 2 = (t.ent 0x3420 2 + 1) % 2 ^ 64 :=
    (State.ent_addEnt_self t 0x3420 2 1).trans (by rw [show entryMod 0x3420 2 = 2 ^ 64 by decide])
  have hother (t : State) (j : Nat) (hj : j < 256) : (t.addEnt 0x3420 2 1).ent 0x4010 j = t.ent 0x4010 j :=
    State.ent_addEnt_ne t _ _ _ _ _ (by rw [ne_eq, ekey_inj hj (by decide)]; omega)
  unfold counted takeNonfinite
  split
  · exact ⟨rfl, rfl, rfl, rfl, hother _, hcount _⟩
  · exact ⟨rfl, rfl, rfl, rfl, hother _, hcount _⟩

theorem centry_of_image {s t : State} (h : t.coll.image = s.coll.image) (i : Nat) : centry t i = centry s i := by
  unfold centry
  rw [h]

theorem landUnits_last {d : Nat} (h : 1 ≤ d) : landUnits d (lastUnit d) ≤ ceilDiv d 64 ∧ landUnits d d = ceilDiv d 64 := by
  unfold landUnits lastUnit ceilDiv
  rw [if_pos le_rfl, if_neg (by omega)]
  omega

/-- What an instance of one flit of an unstaged RECV of memory leaves. -/
structure Received (s u : State) (i : Nat) (data : List Byte) : Prop where
  stored : Stored s u (bufAddr (centry s (i + 1)) (s.crecv i).count) (data.take (ceD (centry s i)))
  count : (u.crecv i).count = (s.crecv i).count + 1
  active : (u.crecv i).active = false
  shown : u.ent 0x3420 2 = (s.ent 0x3420 2 + 1) % 2 ^ 64
  signals : Nat.testBit (centry s (i + 2)) 104 = true → s.isLanding (bits (centry s (i + 2)) 33 24) (bits (centry s (i + 2)) 39 34) = true →
    u.sem (bits (centry s (i + 2)) 33 24) (bits (centry s (i + 2)) 39 34) =
      s.sem (bits (centry s (i + 2)) 33 24) (bits (centry s (i + 2)) 39 34) + ceilDiv (ceD (centry s i)) 64
  silent : Nat.testBit (centry s (i + 2)) 104 = false → u.cores = s.cores

theorem instanceFlit_receives {s : State} {i : Nat} {f : Flit} (hr : s.running = true) (hs : HbmSound s) (hop : ceOp (centry s i) = 2)
    (hsource : ceSource (centry s i) = 0) (hstaged : ceStaged (centry s i) = false) (hcheck : ceCheck (centry s i) = 0)
    (hlow : 1 ≤ ceD (centry s i)) (hhigh : ceD (centry s i) ≤ 224) (hindex : f.index = 0) (hlast : f.last = true)
    (hgate : syncGate s (centry s (i + 2)) (s.crecv i).count = true) (hwhole : field (padTo 240 f.payload) (ceD (centry s i)) 1 = 1)
    (hin : bufAddr (centry s (i + 1)) (s.crecv i).count + ceD (centry s i) ≤ hbmSize)
    (hfits : s.sem (bits (centry s (i + 2)) 33 24) (bits (centry s (i + 2)) 39 34) + ceilDiv (ceD (centry s i)) 64 < 2 ^ 32) :
    Received s (instanceFlit s i f) i (padTo 240 f.payload) := by
  have hdata : (padTo 240 f.payload).length = 240 := length_padTo ..
  have hflit := instanceFlit_one hop hsource hstaged hlow hhigh hindex hlast hgate hwhole
  generalize padTo 240 f.payload = data at hdata hflit
  obtain ⟨hunits, hall⟩ := landUnits_last hlow
  have hpart : lastUnit (ceD (centry s i)) ≤ ceD (centry s i) := by
    unfold lastUnit
    omega
  obtain ⟨hlanded, hfirst⟩ := landPart_lands hr hs (d := ceD (centry s i)) (data := data) (start := 0) (sync := i + 2) (landed := 0)
    (hin := (Nat.add_le_add_left hpart _).trans hin) (by omega) (Nat.zero_le _) (Nat.zero_le _) (by omega)
  unfold landFirst at hflit
  rw [hlanded] at hflit
  generalize (landPart s (bufAddr (centry s (i + 1)) (s.crecv i).count) data (ceD (centry s i)) 0 (lastUnit (ceD (centry s i))) (i + 2) 0 true).1
    = v at hfirst hflit
  rw [Nat.sub_zero] at hfirst
  have hentry (r : RecvS) (k : Nat) : centry (v.setCrecv i r) k = centry s k := centry_of_image hfirst.image k
  obtain ⟨nf, hdone⟩ := recvDone_lands (s := v.setCrecv i ((s.crecv i).whole (landUnits (ceD (centry s i)) (lastUnit (ceD (centry s i))))))
    (i := i) (j := (s.crecv i).count) (r := { (s.crecv i).whole (landUnits (ceD (centry s i)) (lastUnit (ceD (centry s i)))) with bytes := data })
    (by rwa [hentry]) (by rwa [hentry]) (by rwa [hentry])
  rw [hdone] at hflit
  simp only [hentry] at hflit
  generalize hw : v.setCrecv i ((s.crecv i).whole (landUnits (ceD (centry s i)) (lastUnit (ceD (centry s i))))) = w at hflit hentry
  obtain ⟨hmem, hcores, hcoll, hctl, hmodes, hshown⟩ := counted_keeps w nf
  generalize counted w nf = c at hflit hmem hcores hcoll hctl hmodes hshown
  have hwmem : w.mem = v.mem := by rw [← hw]; rfl
  have hwcores : w.cores = v.cores := by rw [← hw]; rfl
  have hwctl : w.ctl = v.ctl := by rw [← hw]; rfl
  have hwent (a b : Nat) : w.ent a b = v.ent a b := by rw [← hw]; rfl
  have hwimage : w.coll.image = v.coll.image := by rw [← hw]; rfl
  have hwrecv : w.crecv i = (s.crecv i).whole (landUnits (ceD (centry s i)) (lastUnit (ceD (centry s i)))) := by rw [← hw, crecv_setCrecv, if_pos rfl]
  have himage : c.coll.image = s.coll.image := by rw [hcoll, hwimage, hfirst.image]
  have hsync : centry c (i + 2) = centry s (i + 2) := centry_of_image himage _
  have hsem := sem_of_cores (hcores.trans hwcores)
  have hlanding := isLanding_of_cores (hcores.trans hwcores)
  have hfits' := hfirst.fits
  have hmodes' (j : Nat) (hj : j < 256) : c.ent 0x4010 j = s.ent 0x4010 j := (hmodes j hj).trans ((hwent ..).trans (hfirst.low _ _ (by decide) hj))
  obtain ⟨-, hlast'⟩ := landPart_lands (s := c) (base := bufAddr (centry s (i + 1)) (s.crecv i).count) (d := ceD (centry s i))
    (start := lastUnit (ceD (centry s i))) (till := ceD (centry s i)) (sync := i + 2) (landed := landUnits (ceD (centry s i)) (lastUnit (ceD (centry s i))))
    (data := data) ((running_of_ctl (hctl.trans (hwctl.trans hfirst.ctl))).trans hr)
    (hbmSound_of_eq hfirst.sound (congrArg Mem.hbmRaw (hmem.trans hwmem)) (congrArg Mem.cache (hmem.trans hwmem))) hin (by omega) hpart
    (hunits.trans hall.ge) (by rw [hsync, hsem, hall]; omega)
  rw [hsync, hall] at hlast'
  replace hflit : instanceFlit s i f = (landPart c (bufAddr (centry s (i + 1)) (s.crecv i).count) data (ceD (centry s i)) (lastUnit (ceD (centry s i)))
    (ceD (centry s i)) (i + 2) (landUnits (ceD (centry s i)) (lastUnit (ceD (centry s i)))) true).1 := hflit
  generalize (landPart c (bufAddr (centry s (i + 1)) (s.crecv i).count) data (ceD (centry s i)) (lastUnit (ceD (centry s i))) (ceD (centry s i))
    (i + 2) (landUnits (ceD (centry s i)) (lastUnit (ceD (centry s i)))) true).1 = u at hflit hlast'
  rw [hflit]
  have hbytes : slice data 0 (lastUnit (ceD (centry s i))) ++ slice data (lastUnit (ceD (centry s i))) (ceD (centry s i) - lastUnit (ceD (centry s i))) =
      data.take (ceD (centry s i)) := by
    have hsplit := List.take_add (l := data) (i := lastUnit (ceD (centry s i))) (j := ceD (centry s i) - lastUnit (ceD (centry s i)))
    rw [Nat.add_sub_cancel' hpart] at hsplit
    exact hsplit.symm
  have hlength : (slice data 0 (lastUnit (ceD (centry s i)))).length = lastUnit (ceD (centry s i)) := by
    rw [slice, List.length_take, List.length_drop]
    omega
  have hlength' : (slice data (lastUnit (ceD (centry s i))) (ceD (centry s i) - lastUnit (ceD (centry s i)))).length =
      ceD (centry s i) - lastUnit (ceD (centry s i)) := by
    rw [slice, List.length_take, List.length_drop]
    omega
  have hstored := hfirst.stored
  rw [Nat.add_zero] at hstored
  refine ⟨?_, ?_, ?_, ?_, fun hb hl => ?_, fun hb => ?_⟩
  · rw [← hbytes]
    refine hstored.append (v' := c) (by rw [hlength]; exact hlast'.stored) (by rw [hlength, hlength']; omega) (congrArg Mem.hbm (hmem.trans hwmem))
      (fun j hj => hfirst.low _ _ (by decide) hj) hmodes' fun j hj => (hlast'.low _ _ (by decide) hj).trans (hmodes' j hj)
  · rw [hlast'.recvs, crecv_of_coll hcoll, hwrecv]
    rfl
  · rw [hlast'.recvs, crecv_of_coll hcoll, hwrecv]
    rfl
  · rw [hlast'.low _ _ (by decide) (by decide), hshown, hwent, hfirst.low _ _ (by decide) (by decide)]
  · rw [hlast'.signals hb (by rw [hlanding, hfirst.landing]; exact hl), hsem, hfirst.signals hb hl]
    omega
  · rw [hlast'.silent hb, hcores, hwcores, hfirst.silent hb]

/-! ### A relayed flit (R421) -/

/-- A RELAY once the first flit of an instance waits in a slot. -/
def RecvS.relayed (r : RecvS) (last : Bool) (data : List Byte) : RecvS :=
  { r with count := r.count + 1, active := !last, got := 0, bytes := if last then [] else data, dropped := false, landed := 0,
           slots := r.slots ++ [(r.count, 0, last, data)] }

theorem notePeak_keeps (s : State) (die : Nat) : (notePeak s die).mem = s.mem ∧ (notePeak s die).coll = s.coll := by
  unfold notePeak
  dsimp only
  split
  · exact ⟨rfl, rfl⟩
  · exact ⟨rfl, rfl⟩

theorem shareOf_of_coll {s t : State} (h : t.coll = s.coll) (i : Nat) : shareOf t i = shareOf s i := by
  have hslots (k : Nat) : slotsOf t k = slotsOf s k := by
    unfold slotsOf
    rw [crecv_of_coll h]
  have hgroup (k : Nat) : groupAbove t k = groupAbove s k := by
    unfold groupAbove
    simp only [centry_of_coll h]
  unfold shareOf
  dsimp only
  rw [hgroup, groupInputs_of_coll h, centry_of_coll h, centry_of_coll h, centry_of_coll h, hslots, show slotsOf t = slotsOf s from funext hslots]

theorem instanceFlit_relays {s : State} {i : Nat} {f : Flit} (hop : ceOp (centry s i) = 3) (hindex : f.index = 0)
    (hlast : f.last = decide (flitsOf (ceD (centry s i)) = 1)) (hshare : (shareOf s i).2 < (shareOf s i).1) :
    (instanceFlit s i f).crecv i = (s.crecv i).relayed f.last (padTo 240 f.payload) ∧ (instanceFlit s i f).mem.hbm = s.mem.hbm := by
  have hzero : f.index.toNat = 0 := by rw [hindex]; rfl
  have hflits : ¬ (flitsOf (ceD (centry s i)) ≤ 0 ∨ f.last = true ∧ 0 + 1 ≠ flitsOf (ceD (centry s i))) := by
    have hpos : 1 ≤ flitsOf (ceD (centry s i)) := by
      unfold flitsOf ceilDiv
      omega
    rintro (h | ⟨h, hne⟩)
    · omega
    · exact hne (of_decide_eq_true (hlast.symm.trans h)).symm
  have hrelay : ¬ ceOp (centry s i) = opRecv := by rw [hop]; decide
  have hinput : ¬ ceOp (centry s i) = opInput := by rw [hop]; decide
  have hflit : instanceFlit s i f = touchSram (notePeak (s.setCrecv i ((s.crecv i).relayed f.last (padTo 240 f.payload))) (poolDie s i)) 7 (poolDie s i)
      (256 * slotAt s i ((s.crecv i).count + 1 - 1) 0) 240 := by
    unfold instanceFlit
    dsimp only
    rw [hzero, if_pos rfl]
    dsimp only
    rw [if_neg hflits, if_neg (by decide), if_neg (by decide), if_neg hrelay, if_neg fun h => hinput h.1, if_neg (Nat.not_le.2 hshare),
      if_neg fun h => hinput h.1, putFlit_first]
    rfl
  obtain ⟨hmem, hcoll⟩ := notePeak_keeps (s.setCrecv i ((s.crecv i).relayed f.last (padTo 240 f.payload))) (poolDie s i)
  rw [hflit]
  refine ⟨?_, (touchSram_hbm ..).trans (congrArg Mem.hbm hmem)⟩
  rw [crecv_of_accounts (touchSram_accounts ..), crecv_of_coll hcoll, crecv_setCrecv, if_pos rfl]

/-! ### The first fault of a run stays shown (R419, R420) -/

/-- From s to t no event is lost, and a collective fault that is shown stays the one shown. -/
structure FaultHeld (s t : State) : Prop where
  events : s.ev.raised <+: t.ev.raised
  flag : s.run.collFault = true → t.run.collFault = true
  shown : s.run.collFault = true → ∀ j, j < 256 → t.ent 0x3430 j = s.ent 0x3430 j

namespace FaultHeld

theorem refl (s : State) : FaultHeld s s := ⟨List.prefix_rfl, id, fun _ _ _ => rfl⟩

theorem trans {s t u : State} (h : FaultHeld s t) (h' : FaultHeld t u) : FaultHeld s u :=
  ⟨h.events.trans h'.events, fun hf => h'.flag (h.flag hf), fun hf j hj => (h'.shown (h.flag hf) j hj).trans (h.shown hf j hj)⟩

theorem foldl {α : Type} {f : State → α → State} (h : ∀ s x, FaultHeld s (f s x)) (l : List α) (s : State) : FaultHeld s (l.foldl f s) := by
  induction l generalizing s with
  | nil => exact refl s
  | cons x l ih => exact (h s x).trans (ih _)

theorem of_same {s t : State} (hd : t.dict = s.dict) (he : t.ev = s.ev) (hf : t.run.collFault = s.run.collFault) : FaultHeld s t :=
  ⟨he ▸ List.prefix_rfl, fun h => hf.trans h, fun _ _ _ => State.ent_of_dict hd ..⟩

theorem of_accounts {s t : State} (h : Accounts s t) : FaultHeld s t :=
  ⟨h.events, fun hf => (congrArg Run.collFault h.run).trans hf, fun _ _ hj => h.low _ _ (by decide) hj⟩

theorem setEnt (s : State) {i j : Nat} (v : Nat) (hj : j < 256) (hi : i ≠ 0x3430) : FaultHeld s (s.setEnt i j v) :=
  ⟨List.prefix_rfl, id, fun _ _ hk => State.ent_setEnt_ne s _ _ _ _ _ (by rw [ne_eq, ekey_inj hk hj]; exact fun h => hi h.1.symm)⟩

theorem addEnt (s : State) {i j : Nat} (n : Nat) (hj : j < 256) (hi : i ≠ 0x3430) : FaultHeld s (s.addEnt i j n) := setEnt s _ hj hi

theorem raise (s : State) (code : Nat) (vs : List (Nat × Nat)) : FaultHeld s (s.raise code vs) :=
  ⟨List.prefix_append .., id, fun _ _ _ => rfl⟩

theorem modCore (s : State) (c : Nat) (f : CoreS → CoreS) : FaultHeld s (s.modCore c f) := of_same rfl rfl rfl

theorem withRun (s : State) (r : Run) (h : r.collFault = s.run.collFault) : FaultHeld s { s with run := r } := of_same rfl rfl h

theorem repair (s : State) (digests : SMap W64) (repaired : List (Nat × Nat)) :
    FaultHeld s { s with run := { s.run with digests := digests, repaired := repaired, voteRepaired := true } } := of_same rfl rfl rfl

end FaultHeld

theorem abandon_collFault (s : State) : (abandon s).run.collFault = s.run.collFault := by
  have hdropped : (stepDropped s).run = s.run := by
    have hopen (t : State) : (openPorts t).run = t.run := by
      unfold openPorts
      refine foldl_keeps _ State.run (fun t p => ?_) _ t
      rfl
    have hreleased (t : State) : (haltCores t).run = t.run :=
      (Accounts.foldl (fun t (c : Nat × CoreS) => (releaseMoves_accounts t c.2).trans (touchLeft_accounts _ c)) t.cores t).run
    unfold stepDropped
    rw [State.setEnt_run, State.addEnt_run, State.setEnt_run, hopen, hreleased]
    exact ((hitRates_accounts s).trans (waitBallast_accounts _)).run
  have hentered (t : State) : (t.enterEff .aborting).run = t.run := by
    rcases t.enterEff_cases .aborting with ⟨-, h⟩ | ⟨-, h⟩
    · rw [h]
    · rw [h, State.enter_run]
  rw [abandon_eq]
  generalize stepDropped s = d at hdropped ⊢
  have hfreed : (unitsFreed d).run.collFault = s.run.collFault := (show _ = d.run.collFault from rfl).trans (congrArg Run.collFault hdropped)
  exact (show (startTaper ((unitsFreed d).enterEff .aborting)).run.collFault = ((unitsFreed d).enterEff .aborting).run.collFault from rfl).trans
    ((congrArg Run.collFault (hentered _)).trans hfreed)

theorem abortRun_collFault (s : State) (reason : Nat) : (abortRun s reason).run.collFault = s.run.collFault := by
  unfold abortRun
  split
  · obtain ⟨l, h⟩ := floodAbort_eq s s.device reason s.now.toNat (s.ent 0x5010 1 % 2 ^ 32) none
    have hheld : (holdAbort { s with links := l } s.now.toNat).run.collFault = s.run.collFault := by
      unfold holdAbort
      dsimp only
      split <;> rfl
    rw [actAbort_eq, h]
    unfold decideAbort
    split
    · exact hheld
    · split
      · exact (abandon_collFault _).trans hheld
      · exact hheld
  · rfl

theorem faultHeld_abortRun (s : State) (reason : Nat) : FaultHeld s (abortRun s reason) := by
  have hspares := abortRun_spares s reason
  refine ⟨hspares.events, fun h => (abortRun_collFault s reason).trans h, fun _ j hj => hspares.low _ _ (by decide) hj ?_⟩
  simp [abortEntries, abandonEntries]

theorem faultHeld_collFault (s : State) (code port stream j : Nat) : FaultHeld s (collFault s code port stream j) := by
  rw [collFault_eq]
  refine FaultHeld.trans ?_ (faultHeld_abortRun _ _)
  obtain ⟨-, -, hrun, -⟩ := faultShown_keeps s code port stream j
  have hev : (faultShown s code port stream j).ev = s.ev := by
    unfold faultShown
    split <;> rfl
  refine ⟨?_, fun _ => rfl, fun h k hk => ?_⟩
  · rw [← hev]
    exact List.prefix_append ..
  · refine (show (faultRaised s code port stream j).ent 0x3430 k = (faultShown s code port stream j).ent 0x3430 k from rfl).trans ?_
    unfold faultShown
    rw [if_pos h]

section
variable (s : State)

theorem faultHeld_setCrecv (i : Nat) (r : RecvS) : FaultHeld s (s.setCrecv i r) := .of_same rfl rfl rfl

theorem faultHeld_malformed (i : Nat) (r : RecvS) (more : Bool) : FaultHeld s (malformed s i r more) :=
  (faultHeld_setCrecv ..).trans (faultHeld_collFault ..)

theorem faultHeld_localWrite (a : Nat) (b : List Byte) : FaultHeld s (localWrite s a b) := by
  unfold localWrite
  split
  · exact .of_accounts (memWrite_accounts s a b)
  · exact (FaultHeld.modCore s _ _).trans (.of_accounts (touchSram_accounts ..))
  · split
    · exact .refl s
    · exact (FaultHeld.modCore s _ _).trans (.of_accounts (touchSram_accounts ..))
  · exact .refl s

theorem faultHeld_misdirect (c k n : Nat) : FaultHeld s (misdirect s c k n) := by
  have hcounted : FaultHeld s (s.addEnt 0x5520 1 n) := .addEnt s n (by decide) (by decide)
  unfold misdirect
  dsimp only
  split
  · exact hcounted
  · exact (hcounted.trans (.modCore _ _ _)).trans (.raise _ _ _)

theorem faultHeld_syncSignal (sy n : Nat) (landing : Bool) : FaultHeld s (syncSignal s sy n landing) := by
  unfold syncSignal incSem
  split
  · split
    · exact .refl s
    · split
      · exact faultHeld_misdirect ..
      · split
        · exact .modCore ..
        · exact ((FaultHeld.modCore _ _ _).trans (.raise _ _ _)).trans (faultHeld_abortRun _ _)
  · exact .refl s

theorem faultHeld_landPart (base : Nat) (data : List Byte) (d start till sync landed : Nat) (signals : Bool) :
    FaultHeld s (landPart s base data d start till sync landed signals).1 := by
  have hwritten : FaultHeld s (if start < till then localWrite s (base + start) (slice data start (till - start)) else s) := by
    split
    · exact faultHeld_localWrite ..
    · exact .refl s
  unfold landPart
  dsimp only
  generalize (if start < till then localWrite s (base + start) (slice data start (till - start)) else s) = w at hwritten ⊢
  split
  · exact hwritten.trans (faultHeld_syncSignal ..)
  · exact hwritten

theorem faultHeld_versionFault (shard expected found sender : Nat) : FaultHeld s (versionFault s shard expected found sender) := by
  have hshown : FaultHeld s (if s.run.versionFault then s
      else (((s.setEnt 0x5401 1 shard).setEnt 0x5401 2 expected).setEnt 0x5401 3 found).setEnt 0x5401 4 sender) := by
    split
    · exact .refl s
    · exact (((FaultHeld.setEnt s _ (by decide) (by decide)).trans (.setEnt _ _ (by decide) (by decide))).trans
        (.setEnt _ _ (by decide) (by decide))).trans (.setEnt _ _ (by decide) (by decide))
  unfold versionFault
  dsimp only
  generalize (if s.run.versionFault then s
    else (((s.setEnt 0x5401 1 shard).setEnt 0x5401 2 expected).setEnt 0x5401 3 found).setEnt 0x5401 4 sender) = v at hshown ⊢
  have hflagged : FaultHeld v { v with run := { v.run with versionFault := true } } := .withRun v _ rfl
  generalize ({ v with run := { v.run with versionFault := true } } : State) = w at hflagged ⊢
  exact ((hshown.trans hflagged).trans (.raise w 0x5401 [])).trans (faultHeld_abortRun _ _)

theorem faultHeld_trailerCheck (kind : Nat) (t : List Byte) (sender : Nat) : FaultHeld s (trailerCheck s kind t sender).1 := by
  have hagainst (n want : Nat) : FaultHeld s (if trVersioned t ∧ trVersion t = want then (s, true)
      else (versionFault s n want (trVersion t) sender, false)).1 := by
    split
    · exact .refl s
    · exact faultHeld_versionFault ..
  unfold trailerCheck
  dsimp only
  split
  · exact .refl s
  · split
    · exact .of_same rfl rfl rfl
    · exact faultHeld_versionFault ..
  · split
    · exact hagainst ..
    · exact faultHeld_versionFault ..
  · exact hagainst ..
  · split
    · exact .refl s
    · exact hagainst ..

theorem faultHeld_takeNonfinite (nf : Bool) : FaultHeld s (takeNonfinite s nf) := by
  unfold takeNonfinite
  split
  · exact .of_same rfl rfl rfl
  · exact .refl s

theorem faultHeld_compareRecord (r : List Byte) : FaultHeld s (compareRecord s r) := by
  unfold compareRecord
  split
  · exact .refl s
  · next i e _ =>
    dsimp only
    split
    · exact .refl s
    · split
      · exact .withRun s _ rfl
      · split
        · exact .refl s
        · have hshown : FaultHeld s ((((s.addEnt 0x7200 2 1).setEnt 0x7200 3 (field r 0 4)).setEnt 0x7200 4 (field r 4 2)).raise 0x7201 []) :=
            (((FaultHeld.addEnt s 1 (by decide) (by decide)).trans (.setEnt _ _ (by decide) (by decide))).trans
              (.setEnt _ _ (by decide) (by decide))).trans (.raise _ _ _)
          generalize (((s.addEnt 0x7200 2 1).setEnt 0x7200 3 (field r 0 4)).setEnt 0x7200 4 (field r 4 2)).raise 0x7201 [] = v at hshown ⊢
          generalize (if (i, field r 4 2) ∈ v.run.divergent then v.run.divergent else v.run.divergent ++ [(i, field r 4 2)]) = d
          have hmarked : FaultHeld s { v with run := { v.run with divergent := d } } := hshown.trans (.withRun v _ rfl)
          split
          · exact (hmarked.trans (.setEnt _ 1 (by decide) (by decide))).trans (.withRun _ _ rfl)
          · exact hmarked

theorem faultHeld_of_memWrite {t u : State} {a : Nat} {b : List Byte} (h : memWrite t a b = u) : FaultHeld t u := h ▸ .of_accounts (memWrite_accounts t a b)

theorem faultHeld_recvDone (i j : Nat) (r : RecvS) : FaultHeld s (recvDone s i j r) := by
  have hchecked : FaultHeld s (if ceSource (centry s i) = 0 then trailerCheck s (ceCheck (centry s i)) (slice r.bytes (ceD (centry s i)) 16)
      (s.ent 0x3301 (cePort (centry s i) + 1)) else (s, true)).1 := by
    split
    · exact faultHeld_trailerCheck ..
    · exact .refl s
  unfold recvDone
  dsimp only
  generalize (if ceSource (centry s i) = 0 then trailerCheck s (ceCheck (centry s i)) (slice r.bytes (ceD (centry s i)) 16)
    (s.ent 0x3301 (cePort (centry s i) + 1)) else (s, true)) = checked at hchecked ⊢
  obtain ⟨v, ok⟩ := checked
  have hcounted : FaultHeld v ((takeNonfinite v (trNonfinite (slice r.bytes (ceD (centry s i)) 16))).addEnt 0x3420 2 1) :=
    (faultHeld_takeNonfinite v _).trans (.addEnt _ 1 (by decide) (by decide))
  dsimp only
  generalize (takeNonfinite v (trNonfinite (slice r.bytes (ceD (centry s i)) 16))).addEnt 0x3420 2 1 = w at hcounted ⊢
  by_cases hbad : (!ok) = true
  · rw [if_pos hbad]
    exact hchecked
  rw [if_neg hbad]
  refine hchecked.trans (hcounted.trans ?_)
  by_cases hdigest : ceSource (centry s i) = 1
  · rw [if_pos hdigest]
    exact .foldl (fun u k => faultHeld_compareRecord u _) _ w
  rw [if_neg hdigest]
  by_cases hrepair : ceSource (centry s i) = 3
  · rw [if_pos hrepair]
    refine FaultHeld.trans ?_ (faultHeld_syncSignal ..)
    split
    · exact .refl w
    · generalize hm : memWrite w _ _ = m
      refine (faultHeld_of_memWrite hm).trans ?_
      split
      · exact .refl m
      · exact (FaultHeld.raise m 0x7202 []).trans (.repair ..)
  rw [if_neg hrepair]
  split
  · generalize hland : landPart w _ _ _ _ _ _ _ _ = p
    have hlanded : FaultHeld w p.1 := by
      rw [← hland]
      exact faultHeld_landPart ..
    exact hlanded.trans (.of_same rfl rfl rfl)
  · exact faultHeld_landPart ..

theorem faultHeld_notePeak (die : Nat) (h : die < 2) : FaultHeld s (notePeak s die) := by
  unfold notePeak
  dsimp only
  split
  · exact .setEnt s _ (by omega) (by decide)
  · exact .refl s

theorem poolDie_lt (i : Nat) : poolDie s i < 2 := by
  unfold poolDie linkDie grDie bits
  split
  · split <;> decide
  · exact Nat.mod_lt _ (by decide)

theorem faultHeld_instanceFlit (i : Nat) (f : Flit) : FaultHeld s (instanceFlit s i f) := by
  unfold instanceFlit
  extract_lets e d n k before fault r j data got now cut held pooled
  have hfault (code : Nat) (x : RecvS) : FaultHeld s (fault code x) := (faultHeld_setCrecv ..).trans (faultHeld_collFault ..)
  by_cases hcut : n ≤ k ∨ f.last = true ∧ k + 1 ≠ n
  · rw [if_pos hcut]
    exact faultHeld_malformed ..
  rw [if_neg hcut]
  by_cases hidle : (!r.active) = true
  · rw [if_pos hidle]
    exact .refl s
  rw [if_neg hidle]
  by_cases hdropped : r.dropped = true
  · rw [if_pos hdropped]
    exact faultHeld_setCrecv ..
  rw [if_neg hdropped]
  by_cases hrecv : ceOp e = opRecv
  · rw [if_pos hrecv]
    split
    · exact hfault ..
    · generalize hland : (if ceSource e = 0 then landPart s _ _ _ _ _ _ _ _ else (s, 0)) = p
      have hlanded : FaultHeld s p.1 := by
        rw [← hland]
        split
        · exact faultHeld_landPart ..
        · exact .refl s
      obtain ⟨v, landed⟩ := p
      dsimp only
      split
      · exact hlanded.trans (faultHeld_setCrecv ..)
      · split
        · exact hlanded.trans (faultHeld_malformed ..)
        · exact (hlanded.trans (faultHeld_setCrecv ..)).trans (faultHeld_recvDone ..)
  · rw [if_neg hrecv]
    have hpooled : FaultHeld s pooled :=
      ((faultHeld_setCrecv s i held).trans (faultHeld_notePeak _ _ (poolDie_lt s i))).trans (.of_accounts (touchSram_accounts ..))
    split
    next most used _ =>
    split
    · exact faultHeld_setCrecv ..
    · split
      · exact hfault ..
      · split
        · exact hpooled.trans (faultHeld_malformed ..)
        · exact hpooled

end

/-! ### SCHED_FLIT_RECEIVE -/

/-- The state once a port has taken a flit that uses no credit: the sequence, the Ack and the credits of the port alone have changed. -/
def flitTaken (s : State) (t : FTime) (p : Port) (f : Flit) : State := ({ s with now := t } : State).setPort p.val (acceptedPort (s.port p.val) f)

section
variable {s : State} {t : FTime} {p : Port} {f : Flit} (hnow : s.now ≤ t) (h : Accepts s p f 1) (hadapter : (s.port p.val).adapter = false)
include hnow h hadapter

theorem schedFlitReceive_eq : exec (.schedFlitReceive t p f) s = match findEntry s receives p.val f.stream.toNat with
    | none => .next ((flitTaken s t p f).addEnt 0x3320 3 1)
    | some i => if s.running then .next (recvFlit (flitTaken s t p f) i f) else .next ((flitTaken s t p f).addEnt 0x3320 3 1) := by
  have hexec : exec (.schedFlitReceive t p f) s = execSchedFlitReceive t p f s := rfl
  have hport : ((flitTaken s t p f).port p.val).adapter = false := by
    unfold flitTaken
    rw [State.port_setPort, if_pos rfl, acceptedPort_adapter]
    exact hadapter
  have hentry : findEntry (flitTaken s t p f) receives p.val f.stream.toNat = findEntry s receives p.val f.stream.toNat := rfl
  have hrunning : (flitTaken s t p f).running = s.running := rfl
  rw [hexec]
  unfold execSchedFlitReceive
  rw [atTime_of_le _ hnow, show kSched = 1 from rfl, accepted_uncredited (s := { s with now := t }) h rfl]
  change (if ((flitTaken s t p f).port p.val).adapter = true then _ else match findEntry (flitTaken s t p f) receives p.val f.stream.toNat with
    | none => Host.Outcome.next ((flitTaken s t p f).addEnt 0x3320 3 1)
    | some i => if (flitTaken s t p f).running = true then .next (recvFlit (flitTaken s t p f) i f) else .next ((flitTaken s t p f).addEnt 0x3320 3 1)) = _
  rw [hport, if_neg Bool.false_ne_true, hentry, hrunning]

theorem schedFlitReceive_stray (hstray : findEntry s receives p.val f.stream.toNat = none ∨ s.running = false) :
    ∃ u, exec (.schedFlitReceive t p f) s = .next u ∧ u.ent 0x3320 3 = (s.ent 0x3320 3 + 1) % 2 ^ 64 ∧ u.mem = s.mem ∧ u.cores = s.cores ∧
      u.coll = s.coll := by
  have hexec : exec (.schedFlitReceive t p f) s = .next ((flitTaken s t p f).addEnt 0x3320 3 1) := by
    rw [schedFlitReceive_eq hnow h hadapter]
    rcases hstray with hnone | hidle
    · rw [hnone]
    · cases findEntry s receives p.val f.stream.toNat with
      | none => rfl
      | some i => exact if_neg (by rw [hidle]; decide)
  refine ⟨_, hexec, (State.ent_addEnt_self _ 0x3320 3 1).trans ?_, rfl, rfl, rfl⟩
  rw [show entryMod 0x3320 3 = 2 ^ 64 by decide]
  rfl

theorem schedFlitReceive_received {i : Nat} (hentry : findEntry s receives p.val f.stream.toNat = some i) (hr : s.running = true) :
    exec (.schedFlitReceive t p f) s = .next (recvFlit (flitTaken s t p f) i f) := by
  rw [schedFlitReceive_eq hnow h hadapter, hentry]
  exact if_pos hr

end

theorem recvFlit_idle {s : State} {i : Nat} (h : (s.crecv i).active = false) (f : Flit) : recvFlit s i f = instanceFlit s i f :=
  if_neg fun hc => Bool.false_ne_true (h.symm.trans hc.2)

theorem malformed_faults (s : State) (i : Nat) (r : RecvS) (more : Bool) : ∃ x, malformed s i r more =
    collFault (s.setCrecv i x) 0x3404 (cePort (centry s i)) (ceStream (centry s i)) (r.count - 1) := ⟨_, rfl⟩

/-- A first flit before LAST of the instance in progress leaves that one malformed, which is the fault shown (R419, R420). -/
theorem recvFlit_malformed {s : State} {i : Nat} {f : Flit} (hr : s.running = true) (hindex : f.index = 0) (hactive : (s.crecv i).active = true) :
    (∃ a ∈ (recvFlit s i f).ev.raised, a.code = 0x3404 ∧ a.time = s.now) ∧
      (abandons s.run s.now.toNat = true → (recvFlit s i f).eff = .aborting) ∧
      (s.run.collFault = false → (recvFlit s i f).ent 0x3430 1 = 0x3404 ∧ (recvFlit s i f).ent 0x3430 4 = ((s.crecv i).count - 1) % 2 ^ 32) := by
  have hflit : recvFlit s i f = (if (malformed s i (s.crecv i) false).running then instanceFlit (malformed s i (s.crecv i) false) i f
      else malformed s i (s.crecv i) false) := if_pos ⟨hindex, hactive⟩
  have hheld : FaultHeld (malformed s i (s.crecv i) false) (recvFlit s i f) := by
    rw [hflit]
    split
    · exact faultHeld_instanceFlit ..
    · exact .refl _
  have hfault : ∃ v port stream, v.ctl = s.ctl ∧ v.now = s.now ∧ v.run = s.run ∧
      malformed s i (s.crecv i) false = collFault v 0x3404 port stream ((s.crecv i).count - 1) := by
    obtain ⟨x, hx⟩ := malformed_faults s i (s.crecv i) false
    exact ⟨s.setCrecv i x, _, _, rfl, rfl, rfl, hx⟩
  obtain ⟨v, port, stream, hctl, hnow, hrun, hmalformed⟩ := hfault
  rw [hmalformed] at hheld hflit
  obtain ⟨hctl', hnow', habandons, -, -, a, ha, hcode, htime⟩ := faultRaised_spec v 0x3404 port stream ((s.crecv i).count - 1)
  obtain ⟨habandoned, -⟩ := abortRun_cases (s := faultRaised v 0x3404 port stream ((s.crecv i).count - 1))
    ((running_of_ctl (hctl'.trans hctl)).trans hr) 0x3404
  rw [habandons, hnow', hnow, hrun, ← collFault_eq] at habandoned
  have hraised := faultHeld_abortRun (faultRaised v 0x3404 port stream ((s.crecv i).count - 1)) 0x3404
  have hshown := (abortRun_spares (faultRaised v 0x3404 port stream ((s.crecv i).count - 1)) 0x3404).low
  rw [← collFault_eq] at hraised hshown
  refine ⟨⟨a, hheld.events.subset (hraised.events.subset ha), hcode, htime.trans hnow⟩, fun hab => ?_, fun hfirst => ?_⟩
  · have heff := habandoned hab
    rw [hflit, if_neg]
    · exact heff
    · unfold State.running
      rw [heff]
      decide
  · have hflag : (collFault v 0x3404 port stream ((s.crecv i).count - 1)).run.collFault = true := hraised.flag rfl
    have hkept := hheld.shown hflag
    have hfirst' : ¬ v.run.collFault = true := by rw [hrun, hfirst]; decide
    have hentry (j : Nat) : (faultRaised v 0x3404 port stream ((s.crecv i).count - 1)).ent 0x3430 j =
        ((((v.setEnt 0x3430 1 0x3404).setEnt 0x3430 2 port).setEnt 0x3430 3 stream).setEnt 0x3430 4 (((s.crecv i).count - 1) % 2 ^ 32)).ent 0x3430 j := by
      refine (show _ = (faultShown v 0x3404 port stream ((s.crecv i).count - 1)).ent 0x3430 j from rfl).trans ?_
      unfold faultShown
      rw [if_neg hfirst']
    refine ⟨?_, ?_⟩
    · rw [hkept 1 (by decide), hshown 0x3430 1 (by decide) (by decide) (by decide), hentry, State.ent_setEnt_ne _ _ _ _ _ _ (by decide),
        State.ent_setEnt_ne _ _ _ _ _ _ (by decide), State.ent_setEnt_ne _ _ _ _ _ _ (by decide), State.ent_setEnt_self]
    · rw [hkept 4 (by decide), hshown 0x3430 4 (by decide) (by decide) (by decide), hentry, State.ent_setEnt_self]

/-- Settles O31: the port that takes the flit is all that changes before it is a stray, lands, or waits in a slot; an instance that is cut short is the
first fault of the run, and what follows in the same step keeps that fault shown. -/
theorem scheduledReceive : Obligations.ScheduledReceive := by
  unfold Obligations.ScheduledReceive
  intro s t p f hnow h hadapter
  refine ⟨schedFlitReceive_stray hnow h hadapter, fun i hentry hr => ?_⟩
  have hexec := schedFlitReceive_received hnow h hadapter hentry hr
  refine ⟨?_, ?_, ?_⟩
  · intro hop hsource hstaged hcheck hlow hhigh hindex hlast hidle hgate hwhole hin hs hfits
    have hreceived := instanceFlit_receives (s := flitTaken s t p f) (f := f) hr (hbmSound_of_eq hs rfl rfl) hop hsource hstaged hcheck hlow hhigh
      hindex hlast hgate hwhole hin hfits
    rw [recvFlit_idle (s := flitTaken s t p f) hidle] at hexec
    generalize instanceFlit (flitTaken s t p f) i f = u at hexec hreceived
    obtain ⟨⟨hbytes, hothers⟩, hcount, hactive, hshown, hsignals, hsilent⟩ := hreceived
    have hlength : ((padTo 240 f.payload).take (ceD (centry s i))).length = ceD (centry s i) := by
      rw [List.length_take, length_padTo]
      omega
    refine ⟨u, hexec, fun m hm => ?_, fun m hm => hothers m fun a ha => hm a (hlength ▸ ha), hcount, hactive, hshown, hsignals, hsilent⟩
    refine (hbytes m (hlength.symm ▸ hm)).trans ?_
    change ((padTo 240 f.payload).take (ceD (centry s i))).getD m 0 = _
    rw [List.getD_eq_getElem?_getD, List.getElem?_take_of_lt hm, ← List.getD_eq_getElem?_getD]
  · intro hop hindex hlast hidle hshare
    rw [← shareOf_of_coll (show (flitTaken s t p f).coll = s.coll from rfl)] at hshare
    obtain ⟨hrecv, hhbm⟩ := instanceFlit_relays (s := flitTaken s t p f) hop hindex hlast hshare
    rw [recvFlit_idle (s := flitTaken s t p f) hidle] at hexec
    exact ⟨_, hexec, congrArg RecvS.slots hrecv, congrArg RecvS.count hrecv, hhbm⟩
  · intro hindex hactive
    exact ⟨_, hexec, recvFlit_malformed (s := flitTaken s t p f) hr hindex hactive⟩

end Sys2Proof.Machine
end


section
/-!
Ports that leave service, replays and credits (R378, R381 to R385, R387, R394).
-/
namespace Sys2Proof.Machine
open Sys2Proof

/-! ### A port that leaves service (R378, R394) -/

theorem entryMod_linkDowns {p : Nat} (h : p < 48) : entryMod 0x3304 (p + 1) = 2 ^ 32 := by
  have hall : ∀ p : Port, entryMod 0x3304 (p.val + 1) = 2 ^ 32 := by decide +kernel
  exact hall ⟨p, h⟩

theorem entryMod_replays {p : Nat} (h : p < 48) : entryMod 0x3303 (p + 1) = 2 ^ 64 := by
  have hall : ∀ p : Port, entryMod 0x3303 (p.val + 1) = 2 ^ 64 := by decide +kernel
  exact hall ⟨p, h⟩

/-- What a port that leaves service keeps and counts. -/
structure LeftService (s u : State) (p : Nat) (st : Nat) : Prop where
  portSt : u.portSt p = st
  replay : (u.port p).replay = []
  vcs : (u.port p).vcs = (s.port p).vcs
  count : u.ent 0x3304 (p + 1) = (s.ent 0x3304 (p + 1) + 1) % 2 ^ 32
  noSched : s.running = true → (u.port p).noSched = true
  ports : ∀ q, q ≠ p → u.port q = s.port q
  states : ∀ q, q < 255 → q ≠ p → u.portSt q = s.portSt q
  lasers : u.links.lasers = s.links.lasers
  raised : ∃ e, u.ev.raised = s.ev.raised ++ [e] ∧ e.code = 0x3101 ∧ e.time = s.now

/-- The port once it is out of service: its open flits stay, and in RUN it carries no SCHED flits before the next start. -/
def outOfService (s : State) (p : Nat) : PortS :=
  let x := s.port p
  { PortS.reset with
    vcs := x.vcs, waiting := x.waiting, held := x.held, inForce := x.inForce, holdRaised := x.holdRaised, replayTimes := x.replayTimes,
    degradedAt := x.degradedAt, noSched := x.noSched || s.running }

theorem leaveService_leaves (s : State) {p : Nat} (st : Nat) (hp : p < 48) : LeftService s (leaveService s p st) p st := by
  obtain ⟨hst, hreplay, -⟩ := leaveService_spec s st hp
  have hport : (leaveService s p st).port p = outOfService s p := by
    unfold leaveService
    rw [State.port_modPort, if_pos rfl]
    rfl
  refine
    { portSt := hst
      replay := hreplay
      vcs := (congrArg PortS.vcs hport).trans rfl
      count := ?_
      noSched := fun hr => (congrArg PortS.noSched hport).trans ?_
      ports := fun q hq => leaveService_port s p st q hq
      states := fun q hq hne => leaveService_portSt_ne s st hne (by omega) hq
      lasers := rfl
      raised := ⟨_, rfl, rfl, rfl⟩ }
  · refine (show _ = ((s.setEnt 0x3300 (p + 1) st).addEnt 0x3304 (p + 1) 1).ent 0x3304 (p + 1) from rfl).trans ?_
    rw [State.ent_addEnt_self, entryMod_linkDowns hp, State.ent_setEnt_ne _ _ _ _ _ _ (by rw [ne_eq, ekey_inj (by omega) (by omega)]; omega)]
  · unfold outOfService
    rw [hr]
    exact Bool.or_true _

theorem loseLock_inService {s : State} {p : Nat} (h : s.inService p = true) (st : Nat) : loseLock s p st = leaveService s p st := if_pos h

theorem linkDown_leaves {s : State} {t : FTime} {p : Port} (hnow : s.now ≤ t) (hin : s.inService p.val = true) :
    ∃ u, exec (.linkDown t p) s = .next u ∧ LeftService { s with now := t } u p.val 1 := by
  have hexec : exec (.linkDown t p) s = .next (leaveService { s with now := t } p.val 1) := by
    refine (show exec (.linkDown t p) s = execLinkDown t p s from rfl).trans ?_
    unfold execLinkDown
    rw [atTime_of_le _ hnow, loseLock_inService (by exact hin)]
  exact ⟨_, hexec, leaveService_leaves _ 1 p.isLt⟩

theorem linkDown_retrains {s : State} {t : FTime} {p : Port} (hnow : s.now ≤ t) (hin : s.inService p.val = false)
    (hst : s.portSt p.val = 2 ∨ s.portSt p.val = 3) : ∃ u, exec (.linkDown t p) s = .next u ∧ u.portSt p.val = 1 ∧
      u.port p.val = forgetTraining (s.port p.val) ∧ u.ev = s.ev := by
  have hexec : exec (.linkDown t p) s =
      .next ((({ s with now := t } : State).setEnt 0x3300 (p.val + 1) 1).modPort p.val forgetTraining) := by
    refine (show exec (.linkDown t p) s = execLinkDown t p s from rfl).trans ?_
    unfold execLinkDown loseLock
    rw [atTime_of_le _ hnow, withNow_inService, hin, if_neg Bool.false_ne_true, if_pos (by exact hst)]
  refine ⟨_, hexec, State.ent_setEnt_self _ 0x3300 (p.val + 1) 1, ?_, rfl⟩
  rw [State.port_modPort, if_pos rfl]
  rfl

/-! ### The failure of a laser source (R378) -/

theorem laserPorts_spec (src : Fin 6) : (laserPorts src.val).length = 8 ∧ ∀ q ∈ laserPorts src.val, q < 48 := by
  revert src
  decide

/-- Ports that leave service one after another. -/
theorem foldl_leaveService (st : Nat) : ∀ (ps : List Nat) (s : State), (∀ q ∈ ps, q < 48) →
    let u := ps.foldl (fun s p => leaveService s p st) s
    u.links.lasers = s.links.lasers ∧ s.ev.raised <+: u.ev.raised ∧
      (∀ q, q < 48 → (q ∈ ps ∨ s.portSt q = st ∧ (s.port q).replay = []) → u.portSt q = st ∧ (u.port q).replay = []) ∧
      ∀ q, q < 48 → q ∉ ps → u.portSt q = s.portSt q ∧ u.port q = s.port q
  | [], _, _ => ⟨rfl, List.prefix_rfl, fun _ _ h => h.elim (fun hm => absurd hm List.not_mem_nil) id, fun _ _ _ => ⟨rfl, rfl⟩⟩
  | p :: ps, s, hps => by
    obtain ⟨hp, hrest⟩ := List.forall_mem_cons.1 hps
    have hleft := leaveService_leaves s st hp
    obtain ⟨hlasers, hraised, hdown, hkept⟩ := foldl_leaveService st ps (leaveService s p st) hrest
    rw [List.foldl_cons]
    obtain ⟨e, he, -⟩ := hleft.raised
    refine ⟨hlasers.trans hleft.lasers, (he ▸ List.prefix_append ..).trans hraised, fun q hq h => hdown q hq ?_, fun q hq h => ?_⟩
    · by_cases hqp : q = p
      · rw [hqp]
        exact .inr ⟨hleft.portSt, hleft.replay⟩
      · rw [hleft.states q (by omega) hqp, hleft.ports q hqp]
        exact h.imp_left fun hm => (List.mem_cons.1 hm).resolve_left hqp
    · obtain ⟨hqp, hqs⟩ := not_or.1 (mt List.mem_cons.2 h)
      obtain ⟨hst, hport⟩ := hkept q hq hqs
      exact ⟨hst.trans (hleft.states q (by omega) hqp), hport.trans (hleft.ports q hqp)⟩

theorem laserFault_down {s : State} {src : Fin 6} (hpowered : s.ctl.powered = true) (hnew : src.val ∉ s.links.lasers) :
    ∃ u, exec (.laserFault src) s = .next u ∧ src.val ∈ u.links.lasers ∧ (laserPorts src.val).length = 8 ∧
      (∀ q ∈ laserPorts src.val, u.portSt q = 6 ∧ (u.port q).replay = []) ∧
      (∀ q, q < 48 → q ∉ laserPorts src.val → u.portSt q = s.portSt q ∧ u.port q = s.port q) ∧ ∃ e ∈ u.ev.raised, e.code = 0x3105 := by
  obtain ⟨hlength, hports⟩ := laserPorts_spec src
  have hguard : ¬ (s.ctl.powered = false ∨ src.val ∈ s.links.lasers) := by
    rw [hpowered]
    rintro (h | h)
    · exact absurd h (by decide)
    · exact hnew h
  obtain ⟨hlasers, hraised, hdown, hkept⟩ := foldl_leaveService 6 (laserPorts src.val)
    ({ s with links := { s.links with lasers := src.val :: s.links.lasers } }.raise 0x3105 [(1, src.val)]) hports
  refine ⟨_, if_neg hguard, ?_, hlength, fun q hq => hdown q (hports q hq) (.inl hq), hkept, ?_⟩
  · rw [hlasers]
    exact List.mem_cons_self
  · exact ⟨_, hraised.subset (List.mem_append_right _ (List.mem_singleton_self _)), rfl⟩

/-! ### Windows that fail (R381, R382, R384) -/

section
variable {s : State} {p : Port} {w : List Byte} {bad : Bool}

/-- Windows in a row that failed the test of R381, with this one. -/
def failuresWith (s : State) (p : Port) (w : List Byte) : Nat := if goodWindow w then 0 else (s.port p.val).failures + 1

theorem corruptFlit_eq (hin : s.inService p.val = true) (hbad : bad = true ∨ goodWindow w = false ∨ badHeader (flitOf w) = true) :
    exec (.corruptFlit ⟨p, w, bad⟩) s = .next (if 8 ≤ failuresWith s p w then leaveService s p.val 2
      else s.modPort p.val fun x => { askReplay x with failures := failuresWith s p w }) := by
  have hwindow : (!bad && goodWindow w && !badHeader (flitOf w)) = false := by
    rcases hbad with h | h | h <;> simp [h]
  refine (show exec (.corruptFlit ⟨p, w, bad⟩) s = execCorruptFlit ⟨p, w, bad⟩ s from rfl).trans ?_
  unfold execCorruptFlit
  rw [if_neg (by rw [hin]; exact fun h => absurd h.1 (by decide)), if_neg (by rw [hwindow]; decide)]
  change (if 8 ≤ failuresWith s p w then _ else _) = _
  rw [loseLock_inService hin, if_pos hin]
  exact (apply_ite Host.Outcome.next ..).symm

theorem corruptFlit_discards (hin : s.inService p.val = true) (hbad : bad = true ∨ goodWindow w = false ∨ badHeader (flitOf w) = true)
    (hfew : failuresWith s p w < 8) : ∃ u, exec (.corruptFlit ⟨p, w, bad⟩) s = .next u ∧ (u.port p.val).discarding = true ∧
      (u.port p.val).retryDue = (!(s.port p.val).discarding || (s.port p.val).retryDue) ∧ (u.port p.val).rxSeq = (s.port p.val).rxSeq ∧
      (u.port p.val).failures = failuresWith s p w := by
  refine ⟨_, (corruptFlit_eq hin hbad).trans (congrArg Host.Outcome.next (if_neg (Nat.not_le.2 hfew))), ?_⟩
  rw [State.port_modPort, if_pos rfl]
  unfold askReplay
  by_cases hd : (s.port p.val).discarding = true
  · rw [if_pos hd, hd]
    exact ⟨rfl, rfl, rfl, rfl⟩
  · rw [if_neg hd, Bool.eq_false_of_not_eq_true hd]
    exact ⟨rfl, rfl, rfl, rfl⟩

theorem corruptFlit_unlocks (hin : s.inService p.val = true) (hbad : bad = true ∨ goodWindow w = false ∨ badHeader (flitOf w) = true)
    (hmany : 8 ≤ failuresWith s p w) : ∃ u, exec (.corruptFlit ⟨p, w, bad⟩) s = .next u ∧ u.portSt p.val = 2 ∧ (u.port p.val).replay = [] ∧
      ∃ e ∈ u.ev.raised, e.code = 0x3101 := by
  obtain ⟨hst, hreplay, hraised⟩ := leaveService_spec s 2 p.isLt
  exact ⟨_, (corruptFlit_eq hin hbad).trans (congrArg Host.Outcome.next (if_pos hmany)), hst, hreplay, hraised⟩

theorem corruptFlit_good (hgood : goodWindow w = true) (hheader : badHeader (flitOf w) = false) :
    exec (.corruptFlit ⟨p, w, false⟩) s = .next s := by
  refine (show exec (.corruptFlit ⟨p, w, false⟩) s = execCorruptFlit ⟨p, w, false⟩ s from rfl).trans ?_
  unfold execCorruptFlit
  rw [hgood, hheader]
  exact ite_self _

end

/-! ### Acks, credits and replays (R383, R385, R387) -/

/-- The port once it has taken the Ack and the credits of a flit. -/
def acked (x : PortS) (f : Flit) : PortS := takeCredits (takeAck { x with failures := 0 } f.ack.toNat) f.creditVc.toNat f.credits.toNat

theorem acked_releases (x : PortS) (f : Flit) : (∃ gone, x.replay = gone ++ (acked x f).replay) ∧
    ∀ e rest, (acked x f).replay = e :: rest → ¬ (1 ≤ seqDiff f.ack.toNat e.1.seq.toNat ∧ seqDiff f.ack.toNat e.1.seq.toNat ≤ 1024) := by
  have hreplay : (acked x f).replay =
      x.replay.dropWhile fun e => decide (1 ≤ seqDiff f.ack.toNat e.1.seq.toNat ∧ seqDiff f.ack.toNat e.1.seq.toNat ≤ 1024) := rfl
  rw [hreplay]
  refine ⟨⟨_, (List.takeWhile_append_dropWhile ..).symm⟩, fun e rest he hpassed => ?_⟩
  have hkept := List.head?_dropWhile_not (p := fun e : Flit × Nat =>
    decide (1 ≤ seqDiff f.ack.toNat e.1.seq.toNat ∧ seqDiff f.ack.toNat e.1.seq.toNat ≤ 1024)) (l := x.replay)
  rw [he] at hkept
  exact absurd (decide_eq_true hpassed) (by simpa using hkept)

theorem acked_credits {x : PortS} {f : Flit} (h : f.creditVc.toNat < x.credits.length) :
    (acked x f).credits.getD f.creditVc.toNat 0 = x.credits.getD f.creditVc.toNat 0 + f.credits.toNat := by
  have hset : (acked x f).credits = x.credits.set f.creditVc.toNat (x.credits.getD f.creditVc.toNat 0 + f.credits.toNat) := rfl
  rw [hset, List.getD_eq_getElem?_getD, List.getElem?_set_self h]
  rfl

theorem acceptedPort_unsequenced {x : PortS} {f : Flit} (h : sequenced f.kind.toNat = false) : acceptedPort x f = acked x f := by
  unfold acceptedPort
  rw [h]
  rfl

theorem idleReceive_spec {s : State} {p : Port} {f : Flit} (h : Accepts s p f 0) :
    ∃ u, exec (.idleReceive p f) s = .next u ∧ u.port p.val = acked (s.port p.val) f := by
  obtain ⟨-, hkind, -⟩ := id h
  refine ⟨_, accepted_uncredited h rfl _, ?_⟩
  rw [State.port_setPort, if_pos rfl, acceptedPort_unsequenced (by rw [hkind]; rfl)]

/-- A replay is counted, whether or not the link counts as degraded. -/
theorem noteReplay_spec (s : State) {p : Nat} (hp : p < 48) : ((noteReplay s p).port p).replay = (s.port p).replay ∧
    (noteReplay s p).ent 0x3303 (p + 1) = (s.ent 0x3303 (p + 1) + 1) % 2 ^ 64 := by
  have hcount : (s.addEnt 0x3303 (p + 1) 1).ent 0x3303 (p + 1) = (s.ent 0x3303 (p + 1) + 1) % 2 ^ 64 := by
    rw [State.ent_addEnt_self, entryMod_replays hp]
  have hport (t : State) (x : PortS) : (t.setPort p x).port p = x := (State.port_setPort ..).trans (if_pos rfl)
  unfold noteReplay
  dsimp only
  split
  · refine ⟨?_, hcount⟩
    exact (congrArg PortS.replay (hport (s.addEnt 0x3303 (p + 1) 1) _)).trans rfl
  · refine ⟨?_, hcount⟩
    exact (congrArg PortS.replay (hport (s.addEnt 0x3303 (p + 1) 1) _)).trans rfl

theorem retryReceive_spec {s : State} {t : FTime} {p : Port} {f : Flit} {i : Nat} {e : Flit × Nat} (hnow : s.now ≤ t) (h : Accepts s p f 0xC)
    (hfind : ((acked (s.port p.val) f).replay.findIdx? fun e => decide (e.1.seq = f.seq)) = some i)
    (hget : (acked (s.port p.val) f).replay[i]? = some e) :
    (e.2 < 8 → ∃ u, exec (.retryReceive t p f) s = .next u ∧ (u.port p.val).resend = some i ∧
      (u.port p.val).replay = (acked (s.port p.val) f).replay ∧ u.ent 0x3303 (p.val + 1) = (s.ent 0x3303 (p.val + 1) + 1) % 2 ^ 64) ∧
    (8 ≤ e.2 → ∃ u, exec (.retryReceive t p f) s = .next u ∧ u.portSt p.val = 3 ∧ (u.port p.val).replay = []) := by
  obtain ⟨-, hkind, -⟩ := id h
  have hport : (flitTaken s t p f).port p.val = acked (s.port p.val) f := by
    unfold flitTaken
    rw [State.port_setPort, if_pos rfl, acceptedPort_unsequenced (by rw [hkind]; rfl)]
  have hent : (flitTaken s t p f).ent 0x3303 (p.val + 1) = s.ent 0x3303 (p.val + 1) := rfl
  have haccepted (g : State → Out) : accepted { s with now := t } p.val f 0xC g = g (flitTaken s t p f) :=
    accepted_uncredited (s := { s with now := t }) h rfl g
  have hexec : exec (.retryReceive t p f) s = execRetryReceive t p f s := rfl
  unfold execRetryReceive at hexec
  rw [atTime_of_le _ hnow, show kRetry = 0xC from rfl, haccepted] at hexec
  generalize flitTaken s t p f = v at hexec hport hent
  obtain ⟨hreplay, hcount⟩ := noteReplay_spec v p.isLt
  rw [hport] at hreplay
  rw [hent] at hcount
  rw [hport, hfind] at hexec
  dsimp only at hexec
  rw [hreplay, List.getD_eq_getElem?_getD, hget] at hexec
  generalize noteReplay v p.val = w at hexec hreplay hcount
  refine ⟨fun hfew => ⟨_, hexec.trans (if_neg (Nat.not_le.2 hfew)), ?_, ?_, hcount⟩, fun hmany => ?_⟩
  · rw [State.port_modPort, if_pos rfl]
  · rw [State.port_modPort, if_pos rfl]
    exact hreplay
  · obtain ⟨hst, hgone, -⟩ := leaveService_spec w 3 p.isLt
    exact ⟨_, hexec.trans (if_pos hmany), hst, hgone⟩

/-- Settles O27: a port out of service keeps its open flits and nothing of its replays; a window that fails discards, or costs the lock; an Ack drops
the flits before it. -/
theorem linkLossAndReplay : Obligations.LinkLossAndReplay := by
  unfold Obligations.LinkLossAndReplay
  refine ⟨fun s t p src => ⟨fun hnow hin => ?_, linkDown_retrains, laserFault_down, fun _ h => if_pos (.inr h)⟩, fun s t p f w bad =>
    ⟨fun hin hbad => ⟨corruptFlit_discards hin hbad, corruptFlit_unlocks hin hbad⟩, corruptFlit_good, fun hin hd => if_pos ⟨hin, hd⟩,
      fun hnow h i hfind e hget => retryReceive_spec hnow h hfind hget, fun h hvc => ?_⟩⟩
  · obtain ⟨u, hexec, hleft⟩ := linkDown_leaves hnow hin
    exact ⟨u, hexec, hleft.portSt, hleft.replay, hleft.vcs, hleft.count, hleft.noSched, hleft.ports, hleft.raised⟩
  · obtain ⟨u, hexec, hport⟩ := idleReceive_spec h
    obtain ⟨hgone, hrest⟩ := acked_releases (s.port p.val) f
    exact ⟨u, hexec, hport, acked_credits hvc, hrest, hgone⟩

end Sys2Proof.Machine
end


section
/-!
Training of a port, from PCS lock to service (R381, R387, R390 to R393).
-/
namespace Sys2Proof.Machine
open Sys2Proof

/-! ### The credits of a training (R387) -/

/-- Credits of a training for n VCs, of which the first hold flits as `held` says: with those at least 16, and never more than the VC's share. -/
def GrantsOk (held : List Nat) (n : Nat) (gs : List Nat) : Prop :=
  gs.length = n ∧ ∀ v, v < n → 16 ≤ gs.getD v 0 + held.getD v 0 ∧ gs.getD v 0 ≤ 170 - held.getD v 0

/-- One VC's credits are drawn. -/
def drawGrant (held : List Nat) (a : List Nat × State) (v : Nat) : List Nat × State :=
  let h := held.getD v 0
  let d := drawNat a.2 (Nat.max 1 (171 - h - (16 - h)))
  (a.1 ++ [16 - h + d.1], d.2)

theorem drawGrants_ok (held : List Nat) (s : State) : ∀ n, GrantsOk held n ((List.range n).foldl (drawGrant held) ([], s)).1 ∧
    ∃ k, ((List.range n).foldl (drawGrant held) ([], s)).2 = { s with freeCtr := k }
  | 0 => ⟨⟨rfl, fun _ h => absurd h (Nat.not_lt_zero _)⟩, s.freeCtr, rfl⟩
  | n + 1 => by
    obtain ⟨⟨hlength, hgrants⟩, k, hk⟩ := drawGrants_ok held s n
    rw [List.range_succ, List.foldl_append, List.foldl_cons, List.foldl_nil]
    generalize (List.range n).foldl (drawGrant held) ([], s) = a at hlength hgrants hk
    obtain ⟨gs, w⟩ := a
    have hdrawn : (drawNat w (Nat.max 1 (171 - held.getD n 0 - (16 - held.getD n 0)))).1 < Nat.max 1 (171 - held.getD n 0 - (16 - held.getD n 0)) :=
      Nat.mod_lt _ (lt_of_lt_of_le Nat.one_pos (Nat.le_max_left ..))
    unfold drawGrant
    dsimp only at hk hlength hgrants ⊢
    generalize (drawNat w (Nat.max 1 (171 - held.getD n 0 - (16 - held.getD n 0)))).1 = d at hdrawn
    refine ⟨⟨by rw [List.length_append, hlength]; rfl, fun v hv => ?_⟩, k + 1, by rw [hk]; rfl⟩
    by_cases hlast : v < n
    · rw [List.getD_append _ _ _ _ (by omega)]
      exact hgrants v hlast
    · have hvn : v = n := by omega
      rw [List.getD_append_right _ _ _ _ (by omega), hlength, hvn, Nat.sub_self]
      change 16 ≤ 16 - held.getD n 0 + d + held.getD n 0 ∧ 16 - held.getD n 0 + d ≤ 170 - held.getD n 0
      change d < max 1 (171 - held.getD n 0 - (16 - held.getD n 0)) at hdrawn
      omega

/-- What the choice of credits leaves of a port and of the module. -/
structure Granted (s u : State) (p : Nat) : Prop where
  dict : u.dict = s.dict
  control : (u.port p).control = (s.port p).control
  fresh : (s.port p).grants = [] → GrantsOk (s.port p).held 6 (u.port p).grants
  kept : (s.port p).grants ≠ [] → (u.port p).grants = (s.port p).grants

theorem chooseGrants_granted (s : State) (p : Nat) : Granted s (chooseGrants s p) p := by
  obtain ⟨hok, k, hk⟩ := drawGrants_ok (s.port p).held s 6
  by_cases hnew : (s.port p).grants = []
  · have hchosen : chooseGrants s p = ((List.range 6).foldl (drawGrant (s.port p).held) ([], s)).2.modPort p fun x =>
        { x with grants := ((List.range 6).foldl (drawGrant (s.port p).held) ([], s)).1, owed := List.replicate 6 0 } := if_neg (not_not.2 hnew)
    rw [hchosen, hk]
    generalize ((List.range 6).foldl (drawGrant (s.port p).held) ([], s)).1 = gs at hok
    have hport : (({ s with freeCtr := k } : State).modPort p fun x => { x with grants := gs, owed := List.replicate 6 0 }).port p =
        { s.port p with grants := gs, owed := List.replicate 6 0 } := by
      rw [State.port_modPort, if_pos rfl]
      rfl
    exact ⟨rfl, (congrArg PortS.control hport).trans rfl, fun _ => by rw [hport]; exact hok, fun h => absurd hnew h⟩
  · rw [show chooseGrants s p = s from if_pos hnew]
    exact ⟨rfl, rfl, fun h => absurd h hnew, fun _ => rfl⟩

/-! ### The TRAIN flits that a port sends (R390, Table 13-7) -/

theorem field_set {b : List Byte} {i o n : Nat} (v : Byte) (h : i < o ∨ o + n ≤ i) : field (b.set i v) o n = field b o n := by
  refine field_congr fun j hj => ?_
  rw [List.getD_eq_getElem?_getD, List.getElem?_set_ne (by omega), List.getD_eq_getElem?_getD]

theorem field_set_self {b : List Byte} {i : Nat} (v : Byte) (h : i < b.length) : field (b.set i v) i 1 = v.toNat := by
  have hdrop : (b.set i v).drop i = v :: (b.set i v).drop (i + 1) := by
    rw [List.drop_eq_getElem_cons (by rwa [List.length_set]), List.getElem_set_self]
  rw [field, slice, hdrop]
  rfl

/-- Fields of two bytes laid out one after another. -/
theorem field_flatMap_le2 (b : List Byte) : ∀ (gs : List Nat) (v : Nat), v < gs.length →
    field (gs.flatMap (le 2) ++ b) (2 * v) 2 = gs.getD v 0 % 65536
  | [], _, h => absurd h (Nat.not_lt_zero _)
  | g :: gs, 0, _ => by
    rw [List.flatMap_cons, List.append_assoc]
    exact field_le_append 2 g _
  | g :: gs, v + 1, h => by
    rw [List.flatMap_cons, List.append_assoc, field_append_of_le (by rw [length_le]; omega), length_le, show 2 * (v + 1) - 2 = 2 * v by omega,
      field_flatMap_le2 b gs v (Nat.lt_of_succ_lt_succ h)]
    rfl

/-- The first eight bytes of a TRAIN payload, before the sender's port is put in. -/
def trainLead (phase chosen generation role : Nat) : List Byte :=
  le 1 1 ++ (le 1 phase ++ (le 1 1 ++ le 1 1 ++ le 1 chosen ++ le 1 generation ++ le 1 role ++ le 1 0))

/-- What stands between the device address and the credits. -/
def trainMiddle (fingerprint : List Byte) : List Byte := le 2 0 ++ le 4 7 ++ padTo 8 fingerprint

/-- A TRAIN payload before the sender's port is put in (Table 13-7). -/
def trainBytes (lead : List Byte) (device : Nat) (middle : List Byte) (grants : List Nat) : List Byte :=
  padTo 240 (lead ++ (le 2 device ++ (middle ++ (grants.flatMap (le 2) ++ le 2 1024))))

theorem length_trainLead (phase chosen generation role : Nat) : (trainLead phase chosen generation role).length = 8 := rfl

theorem length_trainMiddle (fingerprint : List Byte) : (trainMiddle fingerprint).length = 14 := by
  rw [trainMiddle, List.length_append, length_padTo]
  rfl

section
variable {lead middle : List Byte} {device : Nat} {grants : List Nat}

theorem field_trainBytes_lead {o : Nat} (hlead : lead.length = 8) (h : o + 1 ≤ 8) : field (trainBytes lead device middle grants) o 1 = field lead o 1 := by
  rw [trainBytes, field_padTo (by omega), field_append_of_lt (by omega)]

theorem field_trainBytes_device (hlead : lead.length = 8) : field (trainBytes lead device middle grants) 8 2 = device % 65536 := by
  rw [trainBytes, field_padTo (by decide), field_append_of_le (by omega), hlead]
  exact field_le_append 2 device _

theorem field_trainBytes_credits (hlead : lead.length = 8) (hmiddle : middle.length = 14) {v : Nat} (hv : v < 6) (hg : grants.length = 6) :
    field (trainBytes lead device middle grants) (24 + 2 * v) 2 = grants.getD v 0 % 65536 := by
  rw [trainBytes, field_padTo (by omega), field_append_of_le (by omega), hlead, field_append_of_le (by rw [length_le]; omega), length_le,
    field_append_of_le (by omega), hmiddle, show 24 + 2 * v - 8 - 2 - 14 = 2 * v by omega, field_flatMap_le2 _ _ _ (by omega)]

end

theorem trainPayload_eq (s : State) (p phase chosen : Nat) : trainPayload s p phase chosen =
    (trainBytes (trainLead phase chosen ((chooseGrants s p).ent 0x1008 1) ((chooseGrants s p).ent 0x3200 5)) (chooseGrants s p).device
      (trainMiddle (Config.sha384 Config.rsaCertificate)) ((chooseGrants s p).port p).grants, chooseGrants s p) := by
  unfold trainPayload trainBytes trainLead trainMiddle
  simp only [List.append_assoc]

theorem field_trainLead (phase chosen generation role : Nat) : field (trainLead phase chosen generation role) 0 1 = 1 ∧
    field (trainLead phase chosen generation role) 1 1 = phase % 256 := by
  unfold trainLead
  refine ⟨field_le_append 1 1 _, ?_⟩
  rw [field_append_of_le (by rw [length_le]), length_le]
  exact field_le_append 1 phase _

/-- The first eight bytes of what a port that trains sends next. -/
def advertLead (s : State) (p : Nat) : List Byte :=
  trainLead (if (s.port p).chosen.isSome then 2 else 1) (match (s.port p).chosen with | some v => v.toNat | none => 0)
    ((chooseGrants s p).ent 0x1008 1) ((chooseGrants s p).ent 0x3200 5)

/-- The TRAIN flit that a port sends next. -/
def advertFlit (s : State) (p : Nat) : Flit :=
  bareFlit kTrain ((trainBytes (advertLead s p) (chooseGrants s p).device (trainMiddle (Config.sha384 Config.rsaCertificate))
    ((chooseGrants s p).port p).grants).set 7 (BitVec.ofNat 8 p))

theorem length_advertLead (s : State) (p : Nat) : (advertLead s p).length = 8 := length_trainLead ..

theorem trainAdvertise_eq {s : State} {p : Port} (halive : portsAlive s = true) (htrains : trains s p.val = true) :
    exec (.trainAdvertise p) s =
      .next ((chooseGrants s p.val).modPort p.val fun x => { x with control := x.control ++ [advertFlit s p.val] }) := by
  refine (show exec (.trainAdvertise p) s = execTrainAdvertise p s from rfl).trans ?_
  unfold execTrainAdvertise
  rw [if_pos ⟨halive, htrains⟩]
  dsimp only
  rw [trainPayload_eq]
  rfl

/-- What a TRAIN flit of a port carries (R390, Table 13-7). -/
theorem advertFlit_fields (s : State) {p : Nat} (hp : p < 48) : field (advertFlit s p).payload 0 1 = 1 ∧
    field (advertFlit s p).payload 1 1 = (if (s.port p).chosen = none then 1 else 2) ∧ field (advertFlit s p).payload 7 1 = p ∧
    field (advertFlit s p).payload 8 2 = s.device % 65536 ∧
    ∀ v, v < 6 → ((chooseGrants s p).port p).grants.length = 6 →
      field (advertFlit s p).payload (24 + 2 * v) 2 = ((chooseGrants s p).port p).grants.getD v 0 % 65536 := by
  have hpayload : (advertFlit s p).payload = (trainBytes (advertLead s p) (chooseGrants s p).device
    (trainMiddle (Config.sha384 Config.rsaCertificate)) ((chooseGrants s p).port p).grants).set 7 (BitVec.ofNat 8 p) := rfl
  have hdevice : (chooseGrants s p).device = s.device := State.ent_of_dict (chooseGrants_granted s p).dict 0x3200 4
  have hlead := length_advertLead s p
  obtain ⟨hversion, hphase⟩ : field (advertLead s p) 0 1 = 1 ∧ field (advertLead s p) 1 1 = (if (s.port p).chosen = none then 1 else 2) := by
    obtain ⟨hversion, hphase⟩ := field_trainLead (if (s.port p).chosen.isSome then 2 else 1)
      (match (s.port p).chosen with | some v => v.toNat | none => 0) ((chooseGrants s p).ent 0x1008 1) ((chooseGrants s p).ent 0x3200 5)
    refine ⟨hversion, hphase.trans ?_⟩
    cases (s.port p).chosen with
    | none => rfl
    | some v => rfl
  rw [hpayload, hdevice]
  refine ⟨?_, ?_, ?_, ?_, fun v hv hg => ?_⟩
  · rw [field_set _ (.inr (by decide)), field_trainBytes_lead hlead (by decide), hversion]
  · rw [field_set _ (.inr (by decide)), field_trainBytes_lead hlead (by decide), hphase]
  · rw [field_set_self _ (by rw [trainBytes, length_padTo]; decide), BitVec.toNat_ofNat, Nat.mod_eq_of_lt (by omega)]
  · rw [field_set _ (.inl (by decide)), field_trainBytes_device hlead]
  · rw [field_set _ (.inl (by omega)), field_trainBytes_credits hlead (length_trainMiddle _) hv hg]

/-- A port that trains sends an ADVERTISE, or a CONFIRM once it has accepted its peer's, always with the same credits (R387, R390). -/
theorem trainAdvertise_spec {s : State} {p : Port} (halive : portsAlive s = true) (htrains : trains s p.val = true) :
    ∃ u g, exec (.trainAdvertise p) s = .next u ∧ (u.port p.val).control = (s.port p.val).control ++ [g] ∧ g.kind = 0xB ∧
      field g.payload 0 1 = 1 ∧ field g.payload 1 1 = (if (s.port p.val).chosen = none then 1 else 2) ∧ field g.payload 7 1 = p.val ∧
      field g.payload 8 2 = s.device % 65536 ∧
      ∀ v, v < 6 → ((s.port p.val).grants = [] → 16 ≤ field g.payload (24 + 2 * v) 2 + (s.port p.val).held.getD v 0 ∧
          field g.payload (24 + 2 * v) 2 ≤ 170 - (s.port p.val).held.getD v 0 ∧ (u.port p.val).grants.getD v 0 = field g.payload (24 + 2 * v) 2) ∧
        ((s.port p.val).grants.length = 6 → field g.payload (24 + 2 * v) 2 = (s.port p.val).grants.getD v 0 % 65536 ∧
          (u.port p.val).grants = (s.port p.val).grants) := by
  obtain ⟨hdict, hcontrol, hfresh, hkept⟩ := chooseGrants_granted s p.val
  obtain ⟨hversion, hphase, hport, hdevice, hcredits⟩ := advertFlit_fields s p.isLt
  have hgrants : (((chooseGrants s p.val).modPort p.val fun x => { x with control := x.control ++ [advertFlit s p.val] }).port p.val).grants =
      ((chooseGrants s p.val).port p.val).grants := by
    rw [State.port_modPort, if_pos rfl]
  refine ⟨_, _, trainAdvertise_eq halive htrains, ?_, rfl, hversion, hphase, hport, hdevice, fun v hv => ⟨fun hnew => ?_, fun hold => ?_⟩⟩
  · rw [State.port_modPort, if_pos rfl, ← hcontrol]
  · obtain ⟨hlength, hbounds⟩ := hfresh hnew
    obtain ⟨hlow, hhigh⟩ := hbounds v hv
    rw [hgrants, hcredits v hv hlength, Nat.mod_eq_of_lt (by omega)]
    exact ⟨hlow, hhigh, rfl⟩
  · have hsame := hkept fun h => by rw [h] at hold; cases hold
    rw [hgrants, hcredits v hv (by rw [hsame, hold]), hsame]
    exact ⟨rfl, rfl⟩

/-! ### TRAIN flits received (R390 to R392) -/

theorem duplicate_modPort (s : State) (p : Nat) (f : PortS → PortS) (m : TrainP) : duplicate (s.modPort p f) p m = duplicate s p m := by
  unfold duplicate
  refine congrArg (decide (m.role ≠ 0x10#8) && ·) (congrArg (decide (m.device.toNat = s.device) || ·) (congrArg (List.any (List.range 48)) (funext fun q => ?_)))
  by_cases h : q = p
  · rw [decide_eq_false (not_not.2 h), Bool.false_and, Bool.false_and]
  · rw [State.port_modPort, if_neg h]

/-- A port's own part of the training is no matter of the checks. -/
theorem holdCode_modPort (s : State) (p : Nat) (f : PortS → PortS) (m : TrainP) : holdCode (s.modPort p f) p m = holdCode s p m := by
  unfold holdCode
  rw [duplicate_modPort]
  rfl

/-- A port that is held: out of service, and training no more before its retrain. -/
structure HeldPort (s u : State) (p code : Nat) : Prop where
  portSt : u.portSt p = 5
  trains : trains u p = false
  chosen : (u.port p).chosen = none
  raised : (s.port p).holdRaised = false → ∃ e ∈ u.ev.raised, e.code = BitVec.ofNat 16 code

theorem holdPort_held (s : State) {p : Nat} (hp : p < 48) (code : Nat) : HeldPort s (holdPort s p code) p code := by
  have hport (t : State) (x : PortS) : (t.setPort p x).port p = x := (State.port_setPort ..).trans (if_pos rfl)
  unfold holdPort
  dsimp only
  generalize hw : (s.setEnt 0x3300 (p + 1) 5).setPort p { forgetTraining (s.port p) with holdRaised := true, retraining := false } = w
  have hst : w.portSt p = 5 := by
    rw [← hw]
    exact State.ent_setEnt_self s 0x3300 (p + 1) 5
  have hwport : w.port p = { forgetTraining (s.port p) with holdRaised := true, retraining := false } := by rw [← hw, hport]
  have hidle (u : State) (hu : u.port p = w.port p) (hs : u.portSt p = 5) : Machine.trains u p = false := by
    unfold Machine.trains
    rw [hs, hu, hwport]
    rfl
  have hchosen : (w.port p).chosen = none := by rw [hwport]; rfl
  split
  · next hraised => exact ⟨hst, hidle w rfl hst, hchosen, fun h => absurd (h.symm.trans hraised) (by decide)⟩
  · have hst' : ((w.setEnt 0x3305 (p + 1) code).raise code []).portSt p = 5 :=
      (portSt_setEnt_other w code p (by decide) (by omega) (by omega)).trans hst
    exact ⟨hst', hidle _ rfl hst', hchosen, fun _ => ⟨_, List.mem_append_right _ (List.mem_singleton_self _), rfl⟩⟩

/-- The port's failures in a row are over. -/
def unfailed (s : State) (p : Nat) : State := s.modPort p fun x => { x with failures := 0 }

/-- The peer's ADVERTISE is in. -/
def advertHeard (s : State) (p : Nat) (m : TrainP) : State := (unfailed s p).modPort p fun x => { x with advert := some m }

/-- The peer's CONFIRM is in. -/
def confirmHeard (s : State) (p : Nat) (m : TrainP) : State := (unfailed s p).modPort p fun x => { x with confirmed := some m.chosen }

section
variable {s : State} {p : Port} {f : Flit} (halive : portsAlive s = true) (hkind : f.kind = 0xB) (hheader : badHeader f = false)
include halive hkind hheader

theorem trainReceive_eq : exec (.trainReceive p f) s =
    (if trains (unfailed s p.val) p.val = false ∨ (trainOf f.payload).version ≠ 1 ∨ decide ((trainOf f.payload).role.toNat ∈ [1, 2, 3, 0x10]) = false then
      .next (unfailed s p.val)
    else if (trainOf f.payload).phase = 1 then match holdCode (advertHeard s p.val (trainOf f.payload)) p.val (trainOf f.payload) with
      | some c => .next (holdPort (advertHeard s p.val (trainOf f.payload)) p.val c)
      | none => .next ((advertHeard s p.val (trainOf f.payload)).modPort p.val fun x => { x with chosen := some 1 })
    else if (trainOf f.payload).phase = 2 ∧ ((unfailed s p.val).port p.val).chosen.isSome then
      match holdCode (unfailed s p.val) p.val (trainOf f.payload) with
      | some c => .next (holdPort (unfailed s p.val) p.val c)
      | none => .next (tryService (confirmHeard s p.val (trainOf f.payload)) p.val)
    else .next (unfailed s p.val)) := by
  refine (show exec (.trainReceive p f) s = execTrainReceive p f s from rfl).trans ?_
  unfold execTrainReceive
  dsimp only
  rw [if_neg]
  · rfl
  · rw [halive, hheader, hkind]
    rintro (h | h | h)
    · exact h rfl
    · exact absurd h (by decide)
    · exact absurd h (by decide)

end

/-! ### Entry into service (R390, R393) -/

/-- The entries of a conflict of roles and of the port that it takes out of service. -/
theorem roleConflict_ent (s : State) (position : Nat) {i j : Nat} (hi : i ≠ 0x3200 ∧ i ≠ 0x3300 ∧ i ≠ 0x3304) (hj : j < 256) :
    (roleConflict s position).ent i j = s.ent i j := by
  obtain ⟨hrole, hstate, hdowns⟩ := hi
  have hset {t : State} {k l : Nat} (v : Nat) (h : i ≠ k) (hl : l < 256) : (t.setEnt k l v).ent i j = t.ent i j :=
    State.ent_setEnt_ne _ _ _ _ _ _ (by rw [ne_eq, ekey_inj hj hl]; exact fun hc => h hc.1)
  have hworker : ((s.setEnt 0x3200 5 1).raise 0x3301 []).ent i j = s.ent i j := hset 1 hrole (by decide)
  rcases roleConflict_cases s position with e | e | e | e <;> rw [e]
  · exact (show _ = ((((s.setEnt 0x3200 5 1).raise 0x3301 []).setEnt 0x3300 48 1).addEnt 0x3304 48 1).ent i j from rfl).trans
      ((hset _ hdowns (by decide)).trans ((hset _ hstate (by decide)).trans hworker))
  · exact hworker
  · exact hworker

/-- What a port that enters service shows, by its peer's ADVERTISE. -/
structure Serves (u : State) (p : Nat) (m : TrainP) : Prop where
  portSt : u.portSt p = 4
  device : u.ent 0x3301 (p + 1) = m.device.toNat
  peer : u.ent 0x3302 (p + 1) = m.port.toNat
  credits : (u.port p).credits = m.credits.map BitVec.toNat
  txSeq : (u.port p).txSeq = 0
  rxSeq : (u.port p).rxSeq = 0
  replay : (u.port p).replay = []

/-- What is in an entry of no port, or is done about another, leaves a port in service. -/
theorem Serves.later {u w : State} {p : Nat} {m : TrainP} (h : Serves u p m) (hst : w.portSt p = u.portSt p)
    (hdevice : w.ent 0x3301 (p + 1) = u.ent 0x3301 (p + 1)) (hpeer : w.ent 0x3302 (p + 1) = u.ent 0x3302 (p + 1)) (hport : w.port p = u.port p) :
    Serves w p m :=
  ⟨hst.trans h.portSt, hdevice.trans h.device, hpeer.trans h.peer, hport ▸ h.credits, hport ▸ h.txSeq, hport ▸ h.rxSeq, hport ▸ h.replay⟩

theorem tryService_serves {s : State} {p : Nat} {m : TrainP} {v : Byte} (h : MayServe s p m v) (hp : p < 48) : Serves (tryService s p) p m := by
  obtain ⟨ha, hc, hs, hcf, hpast, hw⟩ := h
  unfold tryService
  simp only [ha, hc, hs, hcf, hpast, hw, not_false_eq_true, and_self, if_true]
  generalize hu : State.setEnt _ 0x3302 (p + 1) m.port.toNat = u
  have hserves : Serves u p m ∧ u.isBridge = s.isBridge := by
    rw [← hu]
    refine ⟨⟨?_, ?_, State.ent_setEnt_self .., ?_, ?_, ?_, ?_⟩, ?_⟩
    · rw [portSt_setEnt_other _ _ _ (by decide) (by omega) (by omega), portSt_setEnt_other _ _ _ (by decide) (by omega) (by omega)]
      exact State.ent_setEnt_self ..
    · rw [State.ent_setEnt_ne _ _ _ _ _ _ (by rw [ne_eq, ekey_inj (by omega) (by omega)]; omega)]
      exact State.ent_setEnt_self ..
    · change ((s.setPort p _).port p).credits = _
      rw [State.port_setPort, if_pos rfl]
    · change ((s.setPort p _).port p).txSeq = 0
      rw [State.port_setPort, if_pos rfl]
    · change ((s.setPort p _).port p).rxSeq = 0
      rw [State.port_setPort, if_pos rfl]
    · change ((s.setPort p _).port p).replay = []
      rw [State.port_setPort, if_pos rfl]
    · rw [isBridge_setEnt_other _ _ (by decide) (by omega), isBridge_setEnt_other _ _ (by decide) (by omega),
        isBridge_setEnt_other _ _ (by decide) (by omega)]
      rfl
  clear hu
  generalize hstage : (if u.ctl.dev = Dev.start then u.setEnt 0x2400 3 9 else u) = w
  obtain ⟨hserves, hbridge⟩ := hserves
  have hstaged : Serves w p m ∧ w.isBridge = s.isBridge := by
    have hother {i : Nat} (hi : i ≠ 0x2400) : (u.setEnt 0x2400 3 9).ent i (p + 1) = u.ent i (p + 1) :=
      State.ent_setEnt_ne _ _ _ _ _ _ (by rw [ne_eq, ekey_inj (by omega) (by decide)]; exact fun h => hi h.1)
    rw [← hstage]
    split
    · exact ⟨hserves.later (hother (by decide)) (hother (by decide)) (hother (by decide)) rfl,
        (isBridge_setEnt_other u 9 (by decide) (by decide)).trans hbridge⟩
    · exact ⟨hserves, hbridge⟩
  obtain ⟨hstaged, hbridge'⟩ := hstaged
  split
  · next hrole =>
    have hnot : p = 47 → w.isBridge = false := by
      rintro rfl
      rw [hbridge', Bool.eq_false_iff]
      exact fun hbr => absurd (hrole.1.symm.trans (wiringOk_bridge hw hbr)) (by decide)
    obtain ⟨hport, hst⟩ := roleConflict_entering hnot hp (positionOf m.device.toNat)
    exact hstaged.later hst (roleConflict_ent w _ (by decide) (by omega)) (roleConflict_ent w _ (by decide) (by omega)) hport
  · exact hstaged

/-! ### TRAIN_RECEIVE -/

section
variable {s : State} {p : Port} {f : Flit} (halive : portsAlive s = true) (htrains : trains s p.val = true) (hkind : f.kind = 0xB)
  (hheader : badHeader f = false) (hversion : (trainOf f.payload).version = 1) (hrole : (trainOf f.payload).role.toNat ∈ [1, 2, 3, 0x10])

theorem unfailed_port (s : State) (p : Nat) : (unfailed s p).port p = { s.port p with failures := 0 } := by
  unfold unfailed
  rw [State.port_modPort, if_pos rfl]

theorem unfailed_trains (s : State) (p : Nat) : trains (unfailed s p) p = trains s p := by
  unfold trains
  rw [unfailed_port]
  rfl

include halive htrains hkind hheader hversion hrole

/-- An ADVERTISE that a port which trains takes (R390, R391). -/
theorem trainReceive_advertise (hphase : (trainOf f.payload).phase = 1) : exec (.trainReceive p f) s =
    match holdCode s p.val (trainOf f.payload) with
    | some c => .next (holdPort (advertHeard s p.val (trainOf f.payload)) p.val c)
    | none => .next ((advertHeard s p.val (trainOf f.payload)).modPort p.val fun x => { x with chosen := some 1 }) := by
  have hhold : holdCode (advertHeard s p.val (trainOf f.payload)) p.val (trainOf f.payload) = holdCode s p.val (trainOf f.payload) :=
    (holdCode_modPort ..).trans (holdCode_modPort ..)
  rw [trainReceive_eq halive hkind hheader, if_neg, if_pos hphase, hhold]
  rw [unfailed_trains, htrains, hversion, decide_eq_true hrole]
  decide

/-- A CONFIRM that a port which trains takes, once it has accepted the peer's ADVERTISE (R390, R392). -/
theorem trainReceive_confirm (hphase : (trainOf f.payload).phase = 2) (hchosen : (s.port p.val).chosen ≠ none) : exec (.trainReceive p f) s =
    match holdCode s p.val (trainOf f.payload) with
    | some c => .next (holdPort (unfailed s p.val) p.val c)
    | none => .next (tryService (confirmHeard s p.val (trainOf f.payload)) p.val) := by
  have hhold : holdCode (unfailed s p.val) p.val (trainOf f.payload) = holdCode s p.val (trainOf f.payload) := holdCode_modPort ..
  rw [trainReceive_eq halive hkind hheader, if_neg, if_neg (by rw [hphase]; decide), if_pos, hhold]
  · rw [unfailed_port]
    exact ⟨hphase, Option.isSome_iff_ne_none.2 hchosen⟩
  · rw [unfailed_trains, htrains, hversion, decide_eq_true hrole]
    decide

/-- A TRAIN flit of neither phase, or a CONFIRM before an ADVERTISE, changes nothing of the training. -/
theorem trainReceive_other (hadvert : (trainOf f.payload).phase ≠ 1) (hconfirm : (trainOf f.payload).phase = 2 → (s.port p.val).chosen = none) :
    exec (.trainReceive p f) s = .next (unfailed s p.val) := by
  rw [trainReceive_eq halive hkind hheader, if_neg, if_neg hadvert, if_neg]
  · rw [unfailed_port]
    rintro ⟨h, hsome⟩
    exact Option.isSome_iff_ne_none.1 hsome (hconfirm h)
  · rw [unfailed_trains, htrains, hversion, decide_eq_true hrole]
    decide

end

theorem advertHeard_port (s : State) (p : Nat) (m : TrainP) : (advertHeard s p m).port p = { s.port p with failures := 0, advert := some m } := by
  unfold advertHeard
  rw [State.port_modPort, if_pos rfl, unfailed_port]

theorem confirmHeard_port (s : State) (p : Nat) (m : TrainP) :
    (confirmHeard s p m).port p = { s.port p with failures := 0, confirmed := some m.chosen } := by
  unfold confirmHeard
  rw [State.port_modPort, if_pos rfl, unfailed_port]

theorem flitLockAcquired_locks {s : State} {p : Port} {ws : List (List Byte)} (halive : portsAlive s = true) (hst : s.portSt p.val = 2)
    (hfour : ws.length = 4) (hgood : ∀ w ∈ ws, goodWindow w = true) :
    ∃ u, exec (.flitLockAcquired ⟨p, ws⟩) s = .next u ∧ u.portSt p.val = 3 ∧ u.port p.val = forgetTraining (s.port p.val) := by
  refine ⟨_, if_pos ⟨halive, hst, hfour, List.all_eq_true.2 hgood⟩, State.ent_setEnt_self s 0x3300 (p.val + 1) 3, ?_⟩
  rw [State.port_modPort, if_pos rfl]
  rfl

theorem flitLockAcquired_bad {s : State} {p : Port} {ws : List (List Byte)} {w : List Byte} (hw : w ∈ ws) (hbad : goodWindow w = false) :
    exec (.flitLockAcquired ⟨p, ws⟩) s = .next s :=
  if_neg fun ⟨_, _, _, hall⟩ => Bool.false_ne_true (hbad.symm.trans (List.all_eq_true.1 hall w hw))

/-- A held port before its retrain takes no TRAIN flit (R391). -/
theorem trainReceive_held {s : State} {p : Port} (f : Flit) (hst : s.portSt p.val = 5) (hidle : (s.port p.val).retraining = false) :
    ∃ u, exec (.trainReceive p f) s = .next u ∧ u.dict = s.dict ∧ u.ev = s.ev ∧
      u.port p.val = { s.port p.val with failures := (u.port p.val).failures } := by
  have htrains : trains (unfailed s p.val) p.val = false := by
    rw [unfailed_trains, trains, hst, hidle]
    rfl
  have hexec : exec (.trainReceive p f) s = execTrainReceive p f s := rfl
  unfold execTrainReceive at hexec
  dsimp only at hexec
  by_cases hguard : f.kind.toNat ≠ kTrain ∨ badHeader f = true ∨ portsAlive s = false
  · exact ⟨s, hexec.trans (if_pos hguard), rfl, rfl, rfl⟩
  · refine ⟨unfailed s p.val, (hexec.trans (if_neg hguard)).trans (if_pos (.inl htrains)), rfl, rfl, ?_⟩
    rw [unfailed_port]

/-- Settles O26: credits are drawn within R387 once for a training; a TRAIN flit is checked against the wiring and the other ports alone, and what
enters service is as the peer's ADVERTISE has it. -/
theorem linkTraining : Obligations.LinkTraining := by
  unfold Obligations.LinkTraining
  intro s p f ws
  refine ⟨fun halive hst => if_pos ⟨halive, hst⟩, fun halive hst => ⟨flitLockAcquired_locks halive hst, fun w => flitLockAcquired_bad⟩,
    trainAdvertise_spec, ?_, ?_, ?_, fun hst => if_pos hst, trainReceive_held f⟩
  · rintro halive htrains ⟨hkind, hheader, hversion, hrole⟩
    refine ⟨fun k hhold hphase => ?_, fun hphase hhold => ?_⟩
    · rcases hphase with hphase | ⟨hphase, hchosen⟩
      · have hexec := trainReceive_advertise halive htrains hkind hheader hversion hrole hphase
        rw [hhold] at hexec
        obtain ⟨hst, hidle, hnone, hraised⟩ := holdPort_held (advertHeard s p.val (trainOf f.payload)) p.isLt k
        exact ⟨_, hexec, hst, hidle, hnone, fun h => hraised (by rw [advertHeard_port]; exact h)⟩
      · have hexec := trainReceive_confirm halive htrains hkind hheader hversion hrole hphase hchosen
        rw [hhold] at hexec
        obtain ⟨hst, hidle, hnone, hraised⟩ := holdPort_held (unfailed s p.val) p.isLt k
        exact ⟨_, hexec, hst, hidle, hnone, fun h => hraised (by rw [unfailed_port]; exact h)⟩
    · have hexec := trainReceive_advertise halive htrains hkind hheader hversion hrole hphase
      rw [hhold] at hexec
      refine ⟨_, hexec, ?_, ?_, rfl⟩
      · rw [State.port_modPort, if_pos rfl, advertHeard_port]
      · rw [State.port_modPort, if_pos rfl]
  · rintro a v halive htrains ⟨hkind, hheader, hversion, hrole⟩ hphase hhold hadvert hchosen hsent hsame hpast hwired
    have hexec := trainReceive_confirm halive htrains hkind hheader hversion hrole hphase (by rw [hchosen]; exact Option.some_ne_none v)
    rw [hhold] at hexec
    have hmay : MayServe (confirmHeard s p.val (trainOf f.payload)) p.val a v := by
      unfold MayServe
      rw [confirmHeard_port]
      exact ⟨hadvert, hchosen, hsent, congrArg some hsame, hpast, hwired⟩
    obtain ⟨hst, hdevice, hpeer, hcredits, htx, hrx, hreplay⟩ := tryService_serves hmay p.isLt
    exact ⟨_, hexec, hst, hdevice, hpeer, hcredits, htx, hrx, hreplay⟩
  · rintro halive htrains ⟨hkind, hheader, hversion, hrole⟩ hpast
    have hout : s.portSt p.val ≠ 4 := fun h => by
      rw [trains, h] at htrains
      exact Bool.false_ne_true htrains
    by_cases hadvert : (trainOf f.payload).phase = 1
    · have hexec := trainReceive_advertise halive htrains hkind hheader hversion hrole hadvert
      cases hhold : holdCode s p.val (trainOf f.payload) with
      | some k =>
        rw [hhold] at hexec
        exact ⟨_, hexec, by rw [(holdPort_held _ p.isLt k).portSt]; decide⟩
      | none =>
        rw [hhold] at hexec
        exact ⟨_, hexec, hout⟩
    · by_cases hconfirm : (trainOf f.payload).phase = 2 ∧ (s.port p.val).chosen ≠ none
      · have hexec := trainReceive_confirm halive htrains hkind hheader hversion hrole hconfirm.1 hconfirm.2
        cases hhold : holdCode s p.val (trainOf f.payload) with
        | some k =>
          rw [hhold] at hexec
          exact ⟨_, hexec, by rw [(holdPort_held _ p.isLt k).portSt]; decide⟩
        | none =>
          have hkept : tryService (confirmHeard s p.val (trainOf f.payload)) p.val = confirmHeard s p.val (trainOf f.payload) :=
            tryService_of_not fun m v ⟨_, _, _, _, hfresh, _⟩ => hfresh hpast
          rw [hhold, hkept] at hexec
          exact ⟨_, hexec, hout⟩
      · exact ⟨_, trainReceive_other halive htrains hkind hheader hversion hrole hadvert fun h => by_contra fun hc => hconfirm ⟨h, hc⟩, hout⟩

end Sys2Proof.Machine
end


section
/-!
The check-bit test mode (O46): what `0x4600:01` and `:02` name, and what WRITE_RAW and READ_RAW leave (R539, R540).
-/
namespace Sys2Proof.Machine
open Sys2Proof

/-! ### The location named -/

/-- The location that `0x4600:01` and `:02` name is an HBM unit at the address, or a word of CLM or of a wide buffer. -/
inductive RawNames (s : State) : Nat → Nat → Prop
  | unit (inside : s.ent 0x4600 2 < hbmSize) (fits : s.ent 0x4600 2 + 64 ≤ hbmSize) (aligned : s.ent 0x4600 2 % 64 = 0) :
      RawNames s 1 (unitOf s (s.ent 0x4600 2))
  | word {kind c w : Nat} (sram : kind = 2 ∨ kind = 3) (core : c < 192) (inside : w < 2 ^ 24) : RawNames s kind (sramKey kind c w)

theorem placeOf_bounds (a n : Nat) :
    (∀ c o, placeOf a n = .clm c o → c < 192 ∧ o < 2 ^ 24 ∨ n = 0) ∧ (∀ c o, placeOf a n = .wide c o → c < 192 ∧ o < 2 ^ 24 ∨ n = 0) := by
  unfold placeOf windowBase
  refine ⟨fun c o h => ?_, fun c o h => ?_⟩
  all_goals
    split at h
    · cases h
    · split at h
      · cases h
      · split at h
        · next hwindow =>
          dsimp only at h
          split at h
          · cases h
            try omega
          · split at h
            · cases h
              try omega
            · cases h
        · split at h <;> cases h

theorem rawTarget_names {s : State} {kind key : Nat} (h : rawTarget s = some (kind, key)) : RawNames s kind key := by
  have hclm := (placeOf_bounds (s.ent 0x4600 2) 8).1
  have hwide := (placeOf_bounds (s.ent 0x4600 2) 8).2
  unfold rawTarget at h
  dsimp only at h
  split at h
  · split at h
    · next hplace =>
      cases h
      simp only [inHbm, Bool.and_eq_true, decide_eq_true_eq] at hplace
      exact .unit (by omega) hplace.1 hplace.2
    · cases h
  · split at h
    · next c o hplace =>
      obtain ⟨hc, ho⟩ := (hclm c o hplace).resolve_right (by decide)
      split at h
      · cases h
        exact .word (.inl rfl) hc (by omega)
      · cases h
    · cases h
  · split at h
    · next c o hplace =>
      obtain ⟨hc, ho⟩ := (hwide c o hplace).resolve_right (by decide)
      split at h
      · cases h
        exact .word (.inr rfl) hc (by omega)
      · cases h
    · cases h

theorem sramWhere_sramKey {kind c w : Nat} (hc : c < 2 ^ 24) (hw : w < 2 ^ 24) : sramWhere (sramKey kind c w) = (kind, c) := by
  unfold sramWhere sramKey
  exact Prod.ext (by dsimp only; omega) (by dsimp only; omega)

theorem sramKey_mod {kind c w : Nat} (hw : w < 2 ^ 24) : sramKey kind c w % 2 ^ 24 = w := by
  unfold sramKey
  omega

/-! ### The words and units stored -/

theorem word64_setWord64 (x : CoreS) {kind : Nat} (w : Nat) (v : W64) : (x.setWord64 kind w v).word64 kind w = v := by
  unfold CoreS.setWord64 CoreS.word64
  split
  · have hread : (x.setClm (8 * w) (le 8 v.toNat)).clmBytes (8 * w) 8 = le 8 v.toNat := clmBytes_setClm x (8 * w) (le 8 v.toNat)
    rw [hread, ofLe_le, Nat.mod_eq_of_lt (by exact v.isLt)]
    exact BitVec.ofNat_toNat ..
  · have hv := v.isLt
    dsimp only
    rw [sget_swrite, sget_swrite, if_pos ⟨by omega, by rw [List.length_cons, List.length_singleton]; omega⟩,
      if_pos ⟨by omega, by rw [List.length_cons, List.length_singleton]; omega⟩, Nat.sub_self, Nat.add_sub_cancel_left]
    apply BitVec.eq_of_toNat_eq
    simp only [List.getD_cons_zero, List.getD_cons_succ, BitVec.toNat_ofNat]
    omega

theorem length_hbmVerdict {sym : List Byte} (h : sym.length = 68) (f : Found) : (hbmVerdict sym f).1.length = 64 := by
  unfold hbmVerdict
  split <;> rw [List.length_take, h] <;> rfl

theorem length_hbmDecode (r : RawCode) : (hbmDecode r).1.length = 64 := by
  have hsym : (symbolsOf r).length = 68 := by simp [symbolsOf]
  rw [hbmDecode_eq]
  unfold hbmDecodeSymbols
  split
  · exact length_hbmVerdict hsym _
  · split
    · split
      · exact length_hbmVerdict (by rw [wrongAt, List.length_set, hsym]) _
      · exact length_padTo ..
    · exact length_padTo ..

/-! ### The cached line of a raw access -/

theorem poisonUnits_of_good {x : CacheLine} (h : x.bad = []) (s : State) : poisonUnits s x = s := by
  unfold poisonUnits
  rw [h]
  rfl

theorem writeBack_hbmRaw {x : CacheLine} (h : x.bad = []) (s : State) : (writeBack s x).mem.hbmRaw = s.mem.hbmRaw := by
  unfold writeBack
  rw [poisonUnits_of_good h]
  split <;> rfl

/-- What a state's drop of the cached line of an address leaves of it. -/
structure LineDropped (s : State) (a : Nat) (t : State) : Prop where
  accounts : Accounts s t
  octs : t.octs = s.octs
  hbm : t.mem.hbm = s.mem.hbm
  rawList : t.mem.rawList = s.mem.rawList
  gone : ∀ x ∈ t.mem.cache, x.line ≠ lineOf s a
  codes : (∀ x ∈ s.mem.cache, x.bad = []) → t.mem.hbmRaw = s.mem.hbmRaw

theorem poisonUnits_keeps (s : State) (x : CacheLine) : (poisonUnits s x).octs = s.octs ∧ (poisonUnits s x).mem.rawList = s.mem.rawList := by
  unfold poisonUnits
  dsimp only
  refine ⟨foldl_keeps _ State.octs (fun t w => ?_) _ s, foldl_keeps _ (fun t => t.mem.rawList) (fun t w => ?_) _ s⟩
  all_goals rfl

theorem writeBack_keeps (s : State) (x : CacheLine) : (writeBack s x).octs = s.octs ∧ (writeBack s x).mem.rawList = s.mem.rawList := by
  unfold writeBack
  split
  · exact poisonUnits_keeps ..
  · exact ⟨rfl, rfl⟩

theorem foldl_writeBack_hbmRaw : ∀ (l : List CacheLine) (s : State), (∀ x ∈ l, x.bad = []) → (l.foldl writeBack s).mem.hbmRaw = s.mem.hbmRaw
  | [], _, _ => rfl
  | x :: l, s, h => (foldl_writeBack_hbmRaw l _ fun y hy => h y (List.mem_cons_of_mem _ hy)).trans (writeBack_hbmRaw (h x List.mem_cons_self) s)

theorem dropLine_drops (s : State) (a : Nat) : LineDropped s a (dropLine s a) where
  accounts := (Accounts.foldl (fun s x => writeBack_accounts s x) _ s).trans (.withMem _ _)
  octs := foldl_keeps writeBack State.octs (fun t x => (writeBack_keeps t x).1) _ s
  hbm := dropLine_hbm s a
  rawList := foldl_keeps writeBack (fun t => t.mem.rawList) (fun t x => (writeBack_keeps t x).2) _ s
  gone := fun _ hx => of_decide_eq_true (List.mem_filter.1 hx).2
  codes := fun h => foldl_writeBack_hbmRaw _ s fun x hx => h x (List.mem_filter.1 hx).1

/-! ### WRITE_RAW -/

/-- What u holds of the unit at a once the data d and the check symbols m are stored there. -/
structure UnitStored (s : State) (a : Nat) (d m : List Byte) (u : State) : Prop where
  bytes : hread u a 64 = (hbmDecode { data := d, check := m }).1
  gone : ∀ x ∈ u.mem.cache, x.line ≠ lineOf s a
  code : sget none u.mem.hbmRaw (unitOf s a) =
    if (hbmDecode { data := d, check := m }).2 = .clean then none else some { data := d, check := m }

theorem putRawHbm_stores (s : State) {a : Nat} (ha : a < hbmSize) (hfits : a + 64 ≤ hbmSize) (haligned : a % 64 = 0) {d m : List Byte}
    (hd : d.length = 64) (hm : m.length = 4) : UnitStored s a d m (putRawHbm (dropLine s a) (unitOf s a) d m) := by
  have hdrop := dropLine_drops s a
  generalize dropLine s a = t at hdrop ⊢
  have hunit : unitOf t a = unitOf s a := by
    unfold unitOf
    rw [phys_of_accounts (fun j hj => hdrop.accounts.low _ j (by decide) hj) ha]
  have hplace : localOf t (unitOf s a) = a := hunit ▸ localOf_unitOf t ha haligned
  have hlength := length_hbmDecode { data := d, check := m }
  have hread := hread_hput t a (hbmDecode { data := d, check := m }).1 (by omega)
  rw [hlength] at hread
  unfold putRawHbm
  rw [padTo_of_length hd, padTo_of_length hm, hplace]
  exact ⟨hread, hdrop.gone, (sget_sset ..).trans (if_pos rfl)⟩

/-- What u holds of the word of an SRAM key once the word d and the check byte c are stored there. -/
structure WordStored (kind key : Nat) (d : W64) (c : Byte) (u : State) : Prop where
  word : (u.core (sramWhere key).2).word64 kind (key % 2 ^ 24) = (sramDecode d c).1
  code : sget none u.mem.sramRaw key = if (sramDecode d c).2 = .clean then none else some { data := le 8 d.toNat, check := [c] }

theorem putRawSram_stores (s : State) {kind key : Nat} (hkind : (sramWhere key).1 = kind) (d : W64) (c : Byte) :
    WordStored kind key d c (putRawSram s key d c) := by
  subst hkind
  have hcore (f : CoreS → CoreS) : (s.modCore (sramWhere key).2 f).core (sramWhere key).2 = f (s.core (sramWhere key).2) := by
    rw [State.core_modCore, if_pos rfl]
  have hput := hcore fun x => x.setWord64 (sramWhere key).1 (key % 2 ^ 24) (sramDecode d c).1
  constructor
  · unfold putRawSram
    dsimp only
    generalize s.modCore (sramWhere key).2 _ = t at hput ⊢
    generalize (if (sramDecode d c).2 = .clean then (none : Option RawCode) else _) = r
    have hkeeps : (t.setSramWord key r).core (sramWhere key).2 = t.core (sramWhere key).2 := rfl
    rw [hkeeps, hput]
    exact word64_setWord64 ..
  · unfold putRawSram
    dsimp only
    generalize s.modCore (sramWhere key).2 _ = t
    unfold State.setSramWord
    dsimp only
    rw [sget_sset, if_pos rfl]

/-- The state with the bytes of `0x4600:03` and `:04` stored at a location. -/
def rawStored (s : State) (kind key : Nat) : State :=
  if kind = 1 then putRawHbm (dropLine s (localOf s key)) key (s.oct 0x4600 3) ((s.oct 0x4600 4).take 4)
  else
    let t := putRawSram s key (BitVec.ofNat 64 (field (s.oct 0x4600 3) 0 8)) ((s.oct 0x4600 4).getD 0 0)
    { t with mem := { t.mem with rewrites := t.mem.rewrites.filter fun k => decide (k ≠ key) } }

/-- The state with a location listed (R540). -/
def rawListed (s : State) (kind key : Nat) : State :=
  let list := if (kind, key) ∈ s.mem.rawList then s.mem.rawList else s.mem.rawList ++ [(kind, key)]
  { s with mem := { s.mem with rawList := list } }.setEnt 0x4600 6 list.length

theorem writeRaw_full {s : State} {kind key : Nat} (hnew : (kind, key) ∉ s.mem.rawList) (hfull : 64 ≤ s.mem.rawList.length) :
    writeRaw s kind key = (stRange, s) := if_pos ⟨hnew, hfull⟩

theorem writeRaw_stores {s : State} {kind key : Nat} (h : (kind, key) ∈ s.mem.rawList ∨ s.mem.rawList.length < 64) :
    writeRaw s kind key = (stOk, rawListed (rawStored s kind key) kind key) :=
  if_neg fun ⟨hnew, hfull⟩ => h.elim hnew (by omega)

theorem rawListed_lists (s : State) (kind key : Nat) :
    (kind, key) ∈ (rawListed s kind key).mem.rawList ∧ (rawListed s kind key).ent 0x4600 6 = (rawListed s kind key).mem.rawList.length := by
  unfold rawListed
  dsimp only
  rw [State.ent_setEnt_self, State.setEnt_mem]
  dsimp only
  refine ⟨?_, rfl⟩
  split
  · assumption
  · simp

theorem rawListed_accounts (s : State) (kind key : Nat) : Accounts s (rawListed s kind key) := (Accounts.withMem s _).trans (.setEnt _ 6 _ (by decide))

theorem UnitStored.listed {s u : State} {a : Nat} {d m : List Byte} (h : UnitStored s a d m u) (ha : a + 64 ≤ hbmSize) (kind key : Nat) :
    UnitStored s a d m (rawListed u kind key) where
  bytes := (List.map_congr_left fun k hk => hbyte_of_accounts (fun j hj => (rawListed_accounts u kind key).low _ j (by decide) hj) rfl
    (by have := List.mem_range.1 hk; omega)).trans h.bytes
  gone := h.gone
  code := h.code

theorem WordStored.listed {u : State} {kind key : Nat} {d : W64} {c : Byte} (h : WordStored kind key d c u) (kind' key' : Nat) :
    WordStored kind key d c (rawListed u kind' key') := ⟨h.word, h.code⟩

theorem WordStored.withRewrites {u : State} {kind key : Nat} {d : W64} {c : Byte} (h : WordStored kind key d c u) (l : List Nat) :
    WordStored kind key d c { u with mem := { u.mem with rewrites := l } } := ⟨h.word, h.code⟩

theorem rawStored_word (s : State) {kind key : Nat} (hkind : kind ≠ 1) (hkey : (sramWhere key).1 = kind) :
    WordStored kind key (BitVec.ofNat 64 (field (s.oct 0x4600 3) 0 8)) ((s.oct 0x4600 4).getD 0 0) (rawStored s kind key) := by
  have hstored := putRawSram_stores s hkey (BitVec.ofNat 64 (field (s.oct 0x4600 3) 0 8)) ((s.oct 0x4600 4).getD 0 0)
  unfold rawStored
  rw [if_neg hkind]
  exact hstored.withRewrites _

theorem length_oct_raw (s : State) : (s.oct 0x4600 3).length = 64 ∧ (s.oct 0x4600 4).length = 8 := ⟨length_padTo .., length_padTo ..⟩

/-- What u holds once WRITE_RAW has stored and listed a location. -/
structure RawWritten (s : State) (kind key : Nat) (u : State) : Prop where
  listed : (kind, key) ∈ u.mem.rawList
  counted : u.ent 0x4600 6 = u.mem.rawList.length
  unit : kind = 1 → UnitStored s (s.ent 0x4600 2) (s.oct 0x4600 3) ((s.oct 0x4600 4).take 4) u
  word : kind ≠ 1 → WordStored kind key (BitVec.ofNat 64 (field (s.oct 0x4600 3) 0 8)) ((s.oct 0x4600 4).getD 0 0) u

theorem writeRaw_written {s : State} {kind key : Nat} (h : RawNames s kind key) : RawWritten s kind key (rawListed (rawStored s kind key) kind key) := by
  obtain ⟨hlisted, hcounted⟩ := rawListed_lists (rawStored s kind key) kind key
  refine ⟨hlisted, hcounted, fun hkind => ?_, fun hkind => ?_⟩
  · cases h with
    | unit ha hfits haligned =>
      obtain ⟨hd, hc⟩ := length_oct_raw s
      have hstored := putRawHbm_stores s ha hfits haligned hd (m := (s.oct 0x4600 4).take 4) (by rw [List.length_take, hc]; rfl)
      unfold rawStored
      rw [if_pos rfl, localOf_unitOf s ha haligned]
      exact hstored.listed hfits 1 _
    | word hsram => omega
  · cases h with
    | unit => exact absurd rfl hkind
    | word hsram hcore hinside =>
      exact (rawStored_word s hkind (congrArg Prod.fst (sramWhere_sramKey (by omega) hinside))).listed kind _

/-! ### READ_RAW -/

/-- What u holds once READ_RAW has shown a location. -/
structure RawShown (s : State) (kind key : Nat) (u : State) : Prop where
  hbm : u.mem.hbm = s.mem.hbm
  cores : u.cores = s.cores
  gone : kind = 1 → ∀ x ∈ u.mem.cache, x.line ≠ lineOf s (s.ent 0x4600 2)
  codes : (∀ x ∈ s.mem.cache, x.bad = []) → u.mem.hbmRaw = s.mem.hbmRaw
  listed : (∀ x ∈ s.mem.cache, x.bad = []) → kind = 1 → ∀ r, sget none s.mem.hbmRaw key = some r →
    u.oct 0x4600 3 = padTo 64 r.data ∧ u.oct 0x4600 4 = padTo 8 r.check
  unlisted : (∀ x ∈ s.mem.cache, x.bad = []) → kind = 1 → sget none s.mem.hbmRaw key = none →
    u.oct 0x4600 3 = hread s (s.ent 0x4600 2) 64 ∧ u.oct 0x4600 4 = padTo 8 (hbmMeta (hread s (s.ent 0x4600 2) 64) 0)

/-- The state with data and check bytes shown in `0x4600:03` and `:04`. -/
def showRaw (s : State) (r : List Byte × List Byte) : State := (s.setOct 0x4600 3 (padTo 64 r.1)).setOct 0x4600 4 (padTo 8 r.2)

theorem showRaw_shows (s : State) (r : List Byte × List Byte) :
    (showRaw s r).oct 0x4600 3 = padTo 64 r.1 ∧ (showRaw s r).oct 0x4600 4 = padTo 8 r.2 := by
  have hdata := oct_setOct_self s (i := 0x4600) (j := 3) (b := padTo 64 r.1) (e := (entryOf 0x4600 3).get (by decide)) (by decide) (length_padTo ..)
  exact ⟨(oct_setOct_ne _ (by decide)).trans hdata,
    oct_setOct_self _ (i := 0x4600) (j := 4) (e := (entryOf 0x4600 4).get (by decide)) (by decide) (length_padTo ..)⟩

theorem readRaw_unit (s : State) (key : Nat) :
    readRaw s 1 key = (stOk, showRaw (dropLine s (localOf s key)) (getRawHbm (dropLine s (localOf s key)) key)) := rfl

theorem readRaw_word (s : State) {kind : Nat} (h : kind ≠ 1) (key : Nat) : readRaw s kind key = (stOk, showRaw s (getRawSram s key)) := by
  unfold readRaw
  simp only [if_neg h]
  rfl

theorem readRaw_shows {s : State} {kind key : Nat} (h : RawNames s kind key) :
    ∃ u, readRaw s kind key = (stOk, u) ∧ RawShown s kind key u := by
  cases h with
  | unit ha hfits haligned =>
    rw [readRaw_unit, localOf_unitOf s ha haligned]
    have hdrop := dropLine_drops s (s.ent 0x4600 2)
    generalize dropLine s (s.ent 0x4600 2) = t at hdrop ⊢
    generalize hkey : unitOf s (s.ent 0x4600 2) = key
    have hlow (j : Nat) (hj : j < 256) := hdrop.accounts.low 0x4010 j (by decide) hj
    have hplace : localOf t key = s.ent 0x4600 2 := by
      have hunit : unitOf t (s.ent 0x4600 2) = key := by
        rw [← hkey, unitOf, phys_of_accounts hlow ha, unitOf]
      rw [← hunit, localOf_unitOf t ha haligned]
    have hbytes : hread t (s.ent 0x4600 2) 64 = hread s (s.ent 0x4600 2) 64 := List.map_congr_left fun k hk =>
      hbyte_of_accounts hlow hdrop.hbm (by have := List.mem_range.1 hk; omega)
    obtain ⟨hdata, hcheck⟩ := showRaw_shows t (getRawHbm t key)
    refine ⟨_, rfl, hdrop.hbm, hdrop.accounts.cores, fun _ => hdrop.gone, hdrop.codes, fun hgood _ r hr => ?_, fun hgood _ hr => ?_⟩
    · have hcode : getRawHbm t key = (r.data, r.check) := by
        unfold getRawHbm
        rw [hdrop.codes hgood, hr]
      rw [hdata, hcheck, hcode]
      exact ⟨rfl, rfl⟩
    · have hcode : getRawHbm t key = (hread s (s.ent 0x4600 2) 64, hbmMeta (hread s (s.ent 0x4600 2) 64) 0) := by
        unfold getRawHbm
        rw [hdrop.codes hgood, hr, hplace, hbytes]
      rw [hdata, hcheck, hcode]
      exact ⟨padTo_of_length (length_hread ..), rfl⟩
  | word hsram =>
    have hkind : kind ≠ 1 := by omega
    exact ⟨_, readRaw_word s hkind _, rfl, rfl, fun h => absurd h hkind, fun _ => rfl, fun _ h => absurd h hkind, fun _ h => absurd h hkind⟩

/-! ### The command entry -/

theorem rawCommand_closed {s : State} (h : rawOpen s = false) {v : Nat} (hv : v = 1 ∨ v = 2) : rawCommand s v = (stState, s) := by
  unfold rawCommand
  rw [if_neg (by omega), h]
  rfl

theorem rawCommand_nowhere {s : State} (hopen : rawOpen s = true) (h : rawTarget s = none) {v : Nat} (hv : v = 1 ∨ v = 2) :
    rawCommand s v = (stRange, s) := by
  unfold rawCommand
  rw [if_neg (by omega), hopen, h]
  rfl

theorem rawCommand_at {s : State} (hopen : rawOpen s = true) {kind key : Nat} (h : rawTarget s = some (kind, key)) {v : Nat} (hv : v = 1 ∨ v = 2) :
    rawCommand s v = if v = 1 then writeRaw s kind key else readRaw s kind key := by
  unfold rawCommand
  rw [if_neg (by omega), hopen, h]
  rfl

theorem writeEntry_raw (s : State) (slot : Fin 8) (req : W32) (ver : Byte) {v : Byte} (hv : v.toNat = 1 ∨ v.toNat = 2) :
    writeEntry s (.fdp slot req ver) 0x4600 5 [v] [] = rawCommand s v.toNat := by
  refine (writeEntry_applies (e := (entryOf 0x4600 5).get (by decide)) (by decide) rfl (by decide) (by decide) (by decide)
    (classBit_fdp_of_both ..) ?_).trans rfl
  exact decide_eq_true ⟨show 1 ≤ v.toNat by omega, show v.toNat ≤ 2 by omega⟩

section
variable {s : State} {slot : Fin 8} {req : W32} {ver : Byte} {t : FTime} (hw : SessionWrite s slot req ver t) {i : Instr} {v : Byte}
  (hv : v.toNat = 1 ∨ v.toNat = 2) (hi : exec i s = writeCommand (.fdp slot req ver) t 0x4600 5 [v] s)
include hw hv hi

theorem rawWrite_gives {status : Nat} {P : State → Prop}
    (h : ∀ f g k, ∃ r, rawCommand (s.takenUp t f g k) v.toNat = (status, r) ∧ ∀ a, P { r with audit := a }) : Gives s i slot req status P :=
  sessionWrite_gives hw hi (by decide) fun f g k => (h f g k).imp fun _ hr => ⟨(writeEntry_raw _ slot req ver hv).trans hr.1, hr.2⟩

theorem rawWrite_refuses {status : Nat} (h : ∀ f g k, rawCommand (s.takenUp t f g k) v.toNat = (status, s.takenUp t f g k)) :
    Gives s i slot req status (Untouched s) :=
  rawWrite_gives hw hv hi fun f g k => ⟨_, h f g k, untouched_takenUp s t f g k⟩

end

theorem rawOpen_takenUp (s : State) (t : FTime) (f : Fdp) (g : List (W16 × List Byte)) (k : Option (FTime × Nat)) :
    rawOpen (s.takenUp t f g k) = rawOpen s := rfl
theorem rawTarget_takenUp (s : State) (t : FTime) (f : Fdp) (g : List (W16 × List Byte)) (k : Option (FTime × Nat)) :
    rawTarget (s.takenUp t f g k) = rawTarget s := rfl

theorem writeRaw_gives {s : State} {slot : Fin 8} {req : W32} {ver : Byte} {t : FTime} (hw : SessionWrite s slot req ver t) (hopen : rawOpen s = true)
    {kind key : Nat} (htarget : rawTarget s = some (kind, key)) (hroom : (kind, key) ∈ s.mem.rawList ∨ s.mem.rawList.length < 64) :
    Gives s (.writeRaw (.fdp slot req ver) t) slot req stOk (RawWritten s kind key) := by
  refine rawWrite_gives hw (v := 1) (.inl rfl) rfl fun f g k => ?_
  have htarget' : rawTarget (s.takenUp t f g k) = some (kind, key) := htarget
  have hcommand := rawCommand_at (s := s.takenUp t f g k) hopen htarget' (v := 1) (.inl rfl)
  rw [if_pos rfl, writeRaw_stores (s := s.takenUp t f g k) hroom] at hcommand
  have hwritten := writeRaw_written (rawTarget_names htarget')
  generalize rawListed (rawStored (s.takenUp t f g k) kind key) kind key = r at hcommand hwritten
  exact ⟨r, hcommand, fun a => ⟨hwritten.listed, hwritten.counted, fun h => ⟨(hwritten.unit h).bytes, (hwritten.unit h).gone, (hwritten.unit h).code⟩,
    fun h => ⟨(hwritten.word h).word, (hwritten.word h).code⟩⟩⟩

theorem readRaw_gives {s : State} {slot : Fin 8} {req : W32} {ver : Byte} {t : FTime} (hw : SessionWrite s slot req ver t) (hopen : rawOpen s = true)
    {kind key : Nat} (htarget : rawTarget s = some (kind, key)) :
    Gives s (.readRaw (.fdp slot req ver) t) slot req stOk (RawShown s kind key) := by
  refine rawWrite_gives hw (v := 2) (.inr rfl) rfl fun f g k => ?_
  have htarget' : rawTarget (s.takenUp t f g k) = some (kind, key) := htarget
  have hcommand := rawCommand_at (s := s.takenUp t f g k) hopen htarget' (v := 2) (.inr rfl)
  rw [if_neg (by decide)] at hcommand
  obtain ⟨r, hr, hshown⟩ := readRaw_shows (rawTarget_names htarget')
  exact ⟨r, hcommand.trans hr, fun a => ⟨hshown.hbm, hshown.cores, hshown.gone, hshown.codes, hshown.listed, hshown.unlisted⟩⟩

end Sys2Proof.Machine
end

section
/-!
Scrubbing (O46): what a scrubber's read, a rewrite, a lap that ends and one that is overdue leave (R530, R531, R533, R535 to R538).
-/
namespace Sys2Proof.Machine
open Sys2Proof

/-! ### Counts and reports -/

/-- The module's memory without what reports of stored errors keep there. -/
def Mem.besideReports (m : Mem) : Mem := { m with eccEvents := [], uncorrected := [], candidates := [], corrected := [], scrubbed := [] }

/-- What a read that found a stored error leaves, apart from the code itself: one count more of its kind in entry i (R532, R534). -/
structure Reported (i kind : Nat) (s t : State) : Prop where
  accounts : Accounts s t
  mem : t.mem.besideReports = s.mem.besideReports
  count : t.ent i kind = (s.ent i kind + 1) % 2 ^ 64

section
variable {i kind : Nat} {s t : State} (h : Reported i kind s t)
include h

theorem Reported.hbm : t.mem.hbm = s.mem.hbm := show t.mem.besideReports.hbm = s.mem.besideReports.hbm by rw [h.mem]
theorem Reported.hbmRaw : t.mem.hbmRaw = s.mem.hbmRaw := show t.mem.besideReports.hbmRaw = s.mem.besideReports.hbmRaw by rw [h.mem]
theorem Reported.sramRaw : t.mem.sramRaw = s.mem.sramRaw := show t.mem.besideReports.sramRaw = s.mem.besideReports.sramRaw by rw [h.mem]
theorem Reported.cache : t.mem.cache = s.mem.cache := show t.mem.besideReports.cache = s.mem.besideReports.cache by rw [h.mem]
theorem Reported.rewrites : t.mem.rewrites = s.mem.rewrites := show t.mem.besideReports.rewrites = s.mem.besideReports.rewrites by rw [h.mem]
theorem Reported.laps : t.mem.laps = s.mem.laps := show t.mem.besideReports.laps = s.mem.besideReports.laps by rw [h.mem]

end

/-- The kinds of Table 18-2. -/
def StoredKind (kind : Nat) : Prop := 1 ≤ kind ∧ kind ≤ 9

theorem entryMod_errorCounts : ∀ kind : Fin 10, 1 ≤ kind.val → entryMod 0x4100 kind.val = 2 ^ 64 ∧ entryMod 0x4101 kind.val = 2 ^ 64 := by decide +kernel

theorem entryMod_corrected {kind : Nat} (h : StoredKind kind) : entryMod 0x4100 kind = 2 ^ 64 :=
  (entryMod_errorCounts ⟨kind, Nat.lt_succ_of_le h.2⟩ h.1).1

theorem entryMod_uncorrected {kind : Nat} (h : StoredKind kind) : entryMod 0x4101 kind = 2 ^ 64 :=
  (entryMod_errorCounts ⟨kind, Nat.lt_succ_of_le h.2⟩ h.1).2

theorem noteCorrected_reports (s : State) {kind : Nat} (hk : StoredKind kind) (unit addr : Nat) :
    Reported 0x4100 kind s (noteCorrected s kind unit addr) where
  accounts := noteCorrected_accounts s kind unit addr
  mem := by
    unfold noteCorrected
    dsimp only
    split <;> split <;> rfl
  count := by
    have hcount : (s.addEnt 0x4100 kind 1).ent 0x4100 kind = (s.ent 0x4100 kind + 1) % 2 ^ 64 := by rw [State.ent_addEnt_self, entryMod_corrected hk]
    rw [← hcount]
    unfold noteCorrected
    dsimp only
    split <;> split <;> rfl

theorem recordBad_keeps (s : State) (kind cause unit addr : Nat) {j : Nat} (hj : j < 256) :
    (recordBad s kind cause unit addr).mem = s.mem ∧ (recordBad s kind cause unit addr).ent 0x4101 j = s.ent 0x4101 j := by
  unfold recordBad
  split
  · refine ⟨rfl, ?_⟩
    iterate 5 rw [State.ent_setEnt_ne _ _ _ _ _ _ (by unfold ekey; omega)]
  · exact ⟨rfl, rfl⟩

theorem reportBad_keeps (s : State) (kind cause unit addr : Nat) :
    (reportBad s kind cause unit addr).mem.besideReports = s.mem.besideReports ∧ (reportBad s kind cause unit addr).dict = s.dict := by
  unfold reportBad
  dsimp only
  split <;> exact ⟨rfl, rfl⟩

theorem noteBad_reports (s : State) {kind : Nat} (hk : StoredKind kind) (cause unit addr : Nat) :
    Reported 0x4101 kind s (noteBad s kind cause unit addr) := by
  have hcount : (s.addEnt 0x4101 kind 1).ent 0x4101 kind = (s.ent 0x4101 kind + 1) % 2 ^ 64 := by rw [State.ent_addEnt_self, entryMod_uncorrected hk]
  have haccounts := noteBad_accounts s kind cause unit addr
  rw [noteBad_eq] at haccounts ⊢
  obtain ⟨hmem, hent⟩ := recordBad_keeps (s.addEnt 0x4101 kind 1) kind cause unit addr (j := kind) (by have := hk.2; omega)
  generalize recordBad (s.addEnt 0x4101 kind 1) kind cause unit addr = t at hmem hent haccounts ⊢
  obtain ⟨hreport, hdict⟩ := reportBad_keeps t kind cause unit addr
  refine ⟨haccounts, hreport.trans (congrArg Mem.besideReports hmem), ?_⟩
  rw [← hcount, ← hent]
  unfold State.ent
  rw [hdict]

theorem addCandidate_keeps (s : State) (kind origin unit key : Nat) {j : Nat} (hj : j < 256) :
    (addCandidate s kind origin unit key).mem.besideReports = s.mem.besideReports ∧ (addCandidate s kind origin unit key).ent 0x4100 j = s.ent 0x4100 j := by
  unfold addCandidate
  split
  · exact ⟨rfl, rfl⟩
  · split
    · exact ⟨rfl, State.ent_setEnt_ne _ _ _ _ _ _ (by unfold ekey; omega)⟩
    · exact ⟨rfl, State.ent_setEnt_ne _ _ _ _ _ _ (by unfold ekey; omega)⟩

/-- A location that a scrubber corrected is remembered, and on its second lap a candidate (R541): a matter of reports. -/
theorem Reported.corrected {kind : Nat} {s t : State} (h : Reported 0x4100 kind s t) (hk : StoredKind kind) (b kind' unit key : Nat) :
    Reported 0x4100 kind s (scrubCorrected t b kind' unit key) := by
  have hcandidate : Reported 0x4100 kind s (addCandidate t kind' 3 unit key) := by
    obtain ⟨hmem, hent⟩ := addCandidate_keeps t kind' 3 unit key (j := kind) (by have := hk.2; omega)
    exact ⟨h.accounts.trans (addCandidate_accounts ..), hmem.trans h.mem, hent.trans h.count⟩
  unfold scrubCorrected
  dsimp only
  split
  · exact ⟨hcandidate.accounts.trans (.withMem _ _), hcandidate.mem, hcandidate.count⟩
  · exact ⟨h.accounts.trans (.withMem _ _), h.mem, h.count⟩

/-- An uncorrectable location counts on every read (R537). -/
theorem scrubBad_reports (s : State) {kind : Nat} (hk : StoredKind kind) (unit key addr : Nat) : Reported 0x4101 kind s (scrubBad s kind unit key addr) := by
  unfold scrubBad
  dsimp only
  split
  · exact ⟨.addEnt s kind 1 (by decide), rfl, by rw [State.ent_addEnt_self, entryMod_uncorrected hk]⟩
  · have hbad := noteBad_reports s hk 2 unit addr
    exact ⟨hbad.accounts.trans (.withMem _ _), hbad.mem, hbad.count⟩

/-! ### One read -/

theorem storedKind_locKind (loc : EccLoc) : StoredKind (locKind loc) := by
  cases loc <;> simp [StoredKind, locKind]

theorem scrubHbm_of_none {s : State} {u : Nat} (h : sget none s.mem.hbmRaw u = none) (b : Nat) : scrubHbm s b u = s := by
  unfold scrubHbm
  rw [h]

/-- What a scrubber's read of a listed HBM unit leaves. -/
structure UnitScrubbed (s : State) (u : Nat) (r : RawCode) (v : State) : Prop where
  hbm : v.mem.hbm = s.mem.hbm
  clean : (hbmDecode r).2 = .clean → v.mem = s.mem
  corrected : (hbmDecode r).2 = .corrected → sget none v.mem.hbmRaw u = none ∧ v.ent 0x4100 1 = (s.ent 0x4100 1 + 1) % 2 ^ 64
  bad : (hbmDecode r).2 = .bad false → sget none v.mem.hbmRaw u = some (poisonCode r.data) ∧ v.ent 0x4101 1 = (s.ent 0x4101 1 + 1) % 2 ^ 64
  poisoned : (hbmDecode r).2 = .bad true → v.mem = s.mem

theorem sget_setUnit (s : State) (u : Nat) (r : Option RawCode) : sget none (s.setUnit u r).mem.hbmRaw u = r := (sget_sset ..).trans (if_pos rfl)

/-- A unit's code replaced after its error was reported: the report stands. -/
theorem Reported.setUnit {i kind : Nat} {s t : State} (h : Reported i kind s t) (u : Nat) (r : Option RawCode) :
    Reported i kind (s.setUnit u r) (t.setUnit u r) where
  accounts := ⟨h.accounts.kept, h.accounts.low, h.accounts.events⟩
  mem := by
    have hraw := h.hbmRaw
    have hmem := h.mem
    have hset (x : State) : (x.setUnit u r).mem.besideReports = { x.mem.besideReports with hbmRaw := sset none x.mem.hbmRaw u r } := rfl
    rw [hset, hset, hraw, hmem]
  count := h.count

theorem scrubHbm_scrubs {s : State} {u : Nat} {r : RawCode} (h : sget none s.mem.hbmRaw u = some r) (b : Nat) :
    UnitScrubbed s u r (scrubHbm s b u) := by
  have hk : StoredKind 1 := ⟨by decide, by decide⟩
  unfold scrubHbm
  rw [h]
  dsimp only
  split
  · next hfound => exact ⟨rfl, fun _ => rfl, fun h => Found.noConfusion (hfound.symm.trans h), fun h => Found.noConfusion (hfound.symm.trans h), fun h => Found.noConfusion (hfound.symm.trans h)⟩
  · next hfound =>
    have hreport := ((noteCorrected_reports s hk (u * 64 / stackSize) (globalOf s (localOf s u))).setUnit u none).corrected hk b 1
      (u * 64 / stackSize) u
    refine ⟨hreport.hbm, fun h => Found.noConfusion (hfound.symm.trans h), fun _ => ⟨?_, hreport.count⟩, fun h => Found.noConfusion (hfound.symm.trans h), fun h => Found.noConfusion (hfound.symm.trans h)⟩
    rw [hreport.hbmRaw]
    exact sget_setUnit ..
  · next hfound => exact ⟨rfl, fun h => Found.noConfusion (hfound.symm.trans h), fun h => Found.noConfusion (hfound.symm.trans h), fun h => absurd (hfound.symm.trans h) (by decide), fun _ => rfl⟩
  · next hfound =>
    have hreport := scrubBad_reports s hk (u * 64 / stackSize) u (globalOf s (localOf s u))
    exact ⟨hreport.hbm, fun h => Found.noConfusion (hfound.symm.trans h), fun h => Found.noConfusion (hfound.symm.trans h), fun _ => ⟨sget_setUnit .., hreport.count⟩, fun h => absurd (hfound.symm.trans h) (by decide)⟩

/-- What a scrubber's read of a listed SRAM word leaves. -/
structure WordScrubbed (s : State) (kind key : Nat) (found : Found) (v : State) : Prop where
  cores : v.cores = s.cores
  sramRaw : v.mem.sramRaw = s.mem.sramRaw
  corrected : found = .corrected → key ∈ v.mem.rewrites ∧ v.ent 0x4100 kind = (s.ent 0x4100 kind + 1) % 2 ^ 64
  bad : found = .bad false → v.mem.rewrites = s.mem.rewrites ∧ v.ent 0x4101 kind = (s.ent 0x4101 kind + 1) % 2 ^ 64

/-- The state in which an SRAM word waits to be rewritten (R530). -/
def awaitRewrite (s : State) (key : Nat) : State :=
  { s with mem := { s.mem with rewrites := key :: s.mem.rewrites.filter fun k => decide (k ≠ key) } }

theorem Reported.awaitRewrite {i kind : Nat} {s t : State} (h : Reported i kind s t) (key : Nat) :
    Reported i kind (awaitRewrite s key) (awaitRewrite t key) where
  accounts := ⟨h.accounts.kept, h.accounts.low, h.accounts.events⟩
  mem := by
    have hrewrites := h.rewrites
    have hmem := h.mem
    have hset (x : State) : (Machine.awaitRewrite x key).mem.besideReports =
        { x.mem.besideReports with rewrites := key :: x.mem.rewrites.filter fun k => decide (k ≠ key) } := rfl
    rw [hset, hset, hrewrites, hmem]
  count := h.count

theorem scrubSram_scrubs {s : State} {kind key : Nat} (hk : StoredKind kind) {r : RawCode} (h : sget none s.mem.sramRaw key = some r) (b : Nat) :
    WordScrubbed s kind key (sramDecode (BitVec.ofNat 64 (ofLe r.data)) (r.check.getD 0 0)).2 (scrubSram s b kind key) := by
  unfold scrubSram
  rw [h]
  dsimp only
  split
  · next hfound => exact ⟨rfl, rfl, fun h => Found.noConfusion (hfound.symm.trans h), fun h => Found.noConfusion (hfound.symm.trans h)⟩
  · next hfound =>
    have hreport := ((noteCorrected_reports s hk (sramWhere key).2 (sramAddr s key)).awaitRewrite key).corrected hk b kind (sramWhere key).2 key
    refine ⟨hreport.accounts.cores, hreport.sramRaw, fun _ => ⟨?_, hreport.count⟩, fun h => Found.noConfusion (hfound.symm.trans h)⟩
    exact hreport.rewrites ▸ List.mem_cons_self
  · next hfound =>
    have hreport := scrubBad_reports s hk (sramWhere key).2 key (sramAddr s key)
    exact ⟨hreport.accounts.cores, hreport.sramRaw, fun h => Found.noConfusion (hfound.symm.trans h), fun _ => ⟨hreport.rewrites, hreport.count⟩⟩

/-- What a scrubber's read of an uncorrectable word of a cached line leaves. -/
structure LineScrubbed (s : State) (l : Nat) (dirty : Bool) (v : State) : Prop where
  hbm : v.mem.hbm = s.mem.hbm
  clean : dirty = false → (∀ y ∈ v.mem.cache, y.line = l → y.bad = []) ∧ v.ent 0x4100 5 = (s.ent 0x4100 5 + 1) % 2 ^ 64
  dirty : dirty = true → v.mem.cache = s.mem.cache ∧ v.ent 0x4101 5 = (s.ent 0x4101 5 + 1) % 2 ^ 64

theorem scrubCache_scrubs {s : State} {l w : Nat} {x : CacheLine} (h : s.mem.cache.find? (fun x => decide (x.line = l)) = some x) (hw : w ∈ x.bad) :
    LineScrubbed s l x.dirty (scrubCache s l w) := by
  have hk : StoredKind 5 := ⟨by decide, by decide⟩
  unfold scrubCache
  rw [h]
  dsimp only
  rw [if_neg (not_not_intro hw)]
  split
  · next hdirty =>
    have hreport := scrubBad_reports s hk (lineDie l) (32 * l + w) (globalOf s (localOf s (4 * l) + 8 * w))
    exact ⟨hreport.hbm, by simp [hdirty], fun _ => ⟨hreport.cache, hreport.count⟩⟩
  · next hclean =>
    have hreport := noteCorrected_reports (s.setCache (s.mem.cache.map fun y => if y.line = l then { y with bad := [] } else y)) hk (lineDie l)
      (globalOf s (localOf s (4 * l) + 8 * w))
    refine ⟨hreport.hbm, fun _ => ⟨fun y hy hline => ?_, hreport.count⟩, fun hdirty => absurd hdirty hclean⟩
    rw [hreport.cache] at hy
    obtain ⟨z, -, rfl⟩ := List.mem_map.1 hy
    split
    · rfl
    · next hother => rw [if_neg hother] at hline; exact absurd hline hother

/-! ### Laps -/

/-- A read keeps the laps, and is of its instant. -/
theorem scrubLoc_keeps (s : State) (b : Nat) (loc : EccLoc) : (scrubLoc s b loc).mem.laps = s.mem.laps ∧ (scrubLoc s b loc).now = s.now := by
  have hword (loc : EccLoc) : (scrubSram s b (locKind loc) (locKey loc)).mem.laps = s.mem.laps ∧ (scrubSram s b (locKind loc) (locKey loc)).now = s.now := by
    have hk := storedKind_locKind loc
    generalize locKind loc = kind at hk ⊢
    generalize locKey loc = key
    unfold scrubSram
    dsimp only
    split
    · exact ⟨rfl, rfl⟩
    · split
      · exact ⟨rfl, rfl⟩
      · have hreport := ((noteCorrected_reports s hk (sramWhere key).2 (sramAddr s key)).awaitRewrite key).corrected hk b kind (sramWhere key).2 key
        exact ⟨hreport.laps, hreport.accounts.now⟩
      · have hreport := scrubBad_reports s hk (sramWhere key).2 key (sramAddr s key)
        exact ⟨hreport.laps, hreport.accounts.now⟩
  cases loc with
  | hbm u =>
    have hk : StoredKind 1 := ⟨by decide, by decide⟩
    change (scrubHbm s b u).mem.laps = _ ∧ (scrubHbm s b u).now = _
    unfold scrubHbm
    dsimp only
    split
    · exact ⟨rfl, rfl⟩
    · split
      · exact ⟨rfl, rfl⟩
      · have hreport := ((noteCorrected_reports s hk (u * 64 / stackSize) (globalOf s (localOf s u))).setUnit u none).corrected hk b 1
          (u * 64 / stackSize) u
        exact ⟨hreport.laps, hreport.accounts.now⟩
      · exact ⟨rfl, rfl⟩
      · have hreport := scrubBad_reports s hk (u * 64 / stackSize) u (globalOf s (localOf s u))
        exact ⟨hreport.laps, hreport.accounts.now⟩
  | cache l w =>
    have hk : StoredKind 5 := ⟨by decide, by decide⟩
    change (scrubCache s l w).mem.laps = _ ∧ (scrubCache s l w).now = _
    unfold scrubCache
    dsimp only
    split
    · exact ⟨rfl, rfl⟩
    · split
      · exact ⟨rfl, rfl⟩
      · split
        · have hreport := scrubBad_reports s hk (lineDie l) (32 * l + w) (globalOf s (localOf s (4 * l) + 8 * w))
          exact ⟨hreport.laps, hreport.accounts.now⟩
        · have hreport := noteCorrected_reports (s.setCache (s.mem.cache.map fun y => if y.line = l then { y with bad := [] } else y)) hk (lineDie l)
            (globalOf s (localOf s (4 * l) + 8 * w))
          exact ⟨hreport.laps, hreport.accounts.now⟩
  | clm c w => exact hword (.clm c w)
  | wide c w => exact hword (.wide c w)
  | acc c w => exact hword (.acc c w)
  | store c w => exact hword (.store c w)
  | link d w => exact hword (.link d w)
  | front w => exact hword (.front w)
  | mgmt w => exact hword (.mgmt w)

/-- What the end of a scrubber's lap leaves. -/
structure LapEnded (s : State) (b ms : Nat) (v : State) : Prop where
  laps : sget 0 v.mem.laps b = sget 0 s.mem.laps b + 1
  shown : v.ent 0x4201 (b + 1) = ms % 2 ^ 32
  reported : b ∉ v.mem.overdue
  next : sget 0 v.mem.lapStart b = s.now

/-- The lap time of a scrubber shown, and the next lap begun. -/
def lapTurned (s : State) (b ms : Nat) : State :=
  let mine (e : Nat × Nat) : Bool := decide (e.1 = b)
  let s := s.setEnt 0x4201 (b + 1) (ms % 2 ^ 32)
  { s with mem := { s.mem with
    laps := sset 0 s.mem.laps b (sget 0 s.mem.laps b + 1)
    lapStart := sset 0 s.mem.lapStart b s.now
    overdue := s.mem.overdue.filter fun o => decide (o ≠ b)
    correctedLast := (s.mem.correctedLast.filter fun e => !mine e) ++ s.mem.corrected.filter mine
    corrected := s.mem.corrected.filter fun e => !mine e } }

theorem lapTurned_ends (s : State) (b ms : Nat) : LapEnded s b ms (lapTurned s b ms) where
  laps := (sget_sset ..).trans (if_pos rfl)
  shown := State.ent_setEnt_self ..
  reported := fun h => of_decide_eq_true (List.mem_filter.1 h).2 rfl
  next := (sget_sset ..).trans (if_pos rfl)

/-- What a lap of the module's shows: the longest lap of its scrubbers, and with a module lap its number and the event of R536. -/
def lapShown (s : State) (before : Nat) : State :=
  let time := (List.range 6).foldl (fun m k => Nat.max m (s.ent 0x4201 (k + 1))) 0
  let s := s.setEnt 0x4200 1 time
  if moduleLaps s.mem.laps = before then s
  else
    let s := s.addEnt 0x4200 3 1
    let due := match s.mem.lapEvent with
      | some t => decide (t.toNat + 3600000000000 ≤ s.now.toNat)
      | none => true
    if due then { s with mem := { s.mem with lapEvent := some s.now } }.raise 0x4301 [(4, time), (4, 0), (8, s.ent 0x4200 3)]
    else s

theorem endLap_eq (s : State) (b ms : Nat) : endLap s b ms = lapShown (lapTurned s b ms) (moduleLaps s.mem.laps) := rfl

theorem lapEnded_ite (c : Prop) [Decidable c] {s t u : State} {b ms : Nat} (ht : LapEnded s b ms t) (hu : LapEnded s b ms u) :
    LapEnded s b ms (if c then t else u) := by
  split
  · exact ht
  · exact hu

theorem LapEnded.lapShown {s t : State} {b ms : Nat} (h : LapEnded s b ms t) (hb : b < 6) (before : Nat) : LapEnded s b ms (lapShown t before) := by
  have hlongest (n : Nat) : (t.setEnt 0x4200 1 n).ent 0x4201 (b + 1) = ms % 2 ^ 32 := by
    rw [State.ent_setEnt_ne _ _ _ _ _ _ (by unfold ekey; omega)]
    exact h.shown
  unfold Machine.lapShown
  dsimp only
  generalize (List.range 6).foldl (fun m k => Nat.max m (t.ent 0x4201 (k + 1))) 0 = time
  have hturned : LapEnded s b ms (t.setEnt 0x4200 1 time) := ⟨h.laps, hlongest time, h.reported, h.next⟩
  generalize t.setEnt 0x4200 1 time = u at hturned ⊢
  have hcounted : (u.addEnt 0x4200 3 1).ent 0x4201 (b + 1) = ms % 2 ^ 32 :=
    (State.ent_setEnt_ne _ _ _ _ _ _ (by unfold ekey; omega)).trans hturned.shown
  split
  · exact hturned
  · exact lapEnded_ite _ ⟨hturned.laps, hcounted, hturned.reported, hturned.next⟩ ⟨hturned.laps, hcounted, hturned.reported, hturned.next⟩

theorem endLap_ends (s : State) {b : Nat} (hb : b < 6) (ms : Nat) : LapEnded s b ms (endLap s b ms) :=
  endLap_eq s b ms ▸ (lapTurned_ends s b ms).lapShown hb _

/-! ### The commands -/

theorem scrubRead_due {b ms n : Nat} {loc : EccLoc} {ends : Bool} (hdie : locDie loc = b) (hvalid : locValid loc = true) (hms : ends = true → ms = n) :
    ¬ (locDie loc ≠ b ∨ locValid loc = false ∨ (ends = true ∧ ms ≠ n)) := by
  rintro (h | h | ⟨hends, h⟩)
  · exact h hdie
  · exact absurd (h.symm.trans hvalid) Bool.false_ne_true
  · exact h (hms hends)

/-- A scrubber's read of a location of its die (R535). -/
theorem scrubRead_reads {s : State} (hs : scrubs s = true) {t : FTime} (ht : s.now ≤ t) {b : Fin 6} {loc : EccLoc} (hdie : locDie loc = b.val)
    (hvalid : locValid loc = true) (ms : Nat) : exec (.scrubRead t b loc ms false) s = .next (scrubLoc { s with now := t } b.val loc) := by
  change execScrubRead t b loc ms false s = _
  have hs' : scrubs { s with now := t } = true := hs
  unfold execScrubRead
  rw [atTime_of_le s ht, hs']
  exact if_neg (scrubRead_due hdie hvalid fun h => absurd h Bool.false_ne_true)

/-- The read that ends a lap (R536). -/
theorem scrubRead_ends {s : State} (hs : scrubs s = true) {t : FTime} (ht : s.now ≤ t) {b : Fin 6} {loc : EccLoc} (hdie : locDie loc = b.val)
    (hvalid : locValid loc = true) {ms : Nat} (hms : ms = lapElapsed { s with now := t } b.val) :
    exec (.scrubRead t b loc ms true) s = .next (endLap (scrubLoc { s with now := t } b.val loc) b.val ms) := by
  change execScrubRead t b loc ms true s = _
  have hs' : scrubs { s with now := t } = true := hs
  unfold execScrubRead
  rw [atTime_of_le s ht, hs']
  dsimp only
  rw [if_neg (show ¬ (!true) = true from Bool.false_ne_true), if_neg (scrubRead_due hdie hvalid fun _ => hms), if_pos rfl]

theorem scrubLoc_word {loc : EccLoc} (hunit : locKind loc ≠ 1) (hline : locKind loc ≠ 5) (s : State) (b : Nat) :
    scrubLoc s b loc = scrubSram s b (locKind loc) (locKey loc) := by
  cases loc with
  | hbm u => exact absurd rfl hunit
  | cache l w => exact absurd rfl hline
  | _ => rfl

/-- The state with an SRAM word rewritten (R530). -/
def rewritten (s : State) (key : Nat) : State :=
  { s with mem := { s.mem with sramRaw := sset none s.mem.sramRaw key none, rewrites := s.mem.rewrites.filter fun k => decide (k ≠ key) } }

theorem sramRewrite_rewrites {s : State} {loc : EccLoc} (hunit : locKind loc ≠ 1) (hline : locKind loc ≠ 5) (h : locKey loc ∈ s.mem.rewrites) :
    exec (.sramRewrite loc) s = .next (rewritten s (locKey loc)) := by
  change execSramRewrite loc s = _
  cases loc with
  | hbm u => exact absurd rfl hunit
  | cache l w => exact absurd rfl hline
  | _ => exact if_pos h

theorem rewritten_fresh (s : State) (key : Nat) : sget none (rewritten s key).mem.sramRaw key = none ∧ key ∉ (rewritten s key).mem.rewrites :=
  ⟨(sget_sset ..).trans (if_pos rfl), fun h => of_decide_eq_true (List.mem_filter.1 h).2 rfl⟩

theorem le_lapTime (s : State) (b ms : Nat) : s.now ≤ lapTime s b ms := by
  have hnow := s.now.isLt
  unfold lapTime
  rw [BitVec.le_def, BitVec.toNat_ofNat]
  rcases Nat.le_total (Nat.max s.now.toNat ((sget 0 s.mem.lapStart b).toNat + ms * 1000000)) (2 ^ 64 - 1) with h | h
  · rw [show Nat.min _ _ = _ from Nat.min_eq_left h, Nat.mod_eq_of_lt (by omega)]
    exact Nat.le_max_left ..
  · rw [show Nat.min _ _ = _ from Nat.min_eq_right h]
    omega

/-- The state in which a lap is reported as overdue (R538). -/
def overdueReported (s : State) (b : Nat) (elapsed : W32) : State :=
  ({ s with now := lapTime s b elapsed.toNat, mem := { s.mem with overdue := b :: s.mem.overdue } } : State).raise 0x4302
    [(1, b), (1, 0), (1, 0), (1, 0), (4, elapsed.toNat), (4, s.ent 0x4200 2)]

theorem scrubOverdue_reports {s : State} (hs : scrubs s = true) {b : Fin 6} {elapsed : W32} (hlimit : s.ent 0x4200 2 < elapsed.toNat)
    (hreached : lapElapsed s b.val ≤ elapsed.toNat) (hnew : b.val ∉ s.mem.overdue) :
    exec (.scrubOverdue b elapsed) s = .next (overdueReported s b.val elapsed) := by
  change execScrubOverdue b elapsed s = _
  unfold execScrubOverdue
  dsimp only
  rw [if_neg (by omega), atTime_of_le s (le_lapTime ..)]
  exact if_pos ⟨hs, hlimit, hnew⟩

/-- The event's detail gives the milliseconds behind the scrubber and three bytes of 0. -/
theorem field_overdue_elapsed (b limit : Nat) (elapsed : W32) :
    field (detail [(1, b), (1, 0), (1, 0), (1, 0), (4, elapsed.toNat), (4, limit)]) 4 4 = elapsed.toNat := by
  have helapsed := elapsed.isLt
  unfold detail
  rw [field_padTo (by decide)]
  simp only [detailAux, List.nil_append, List.length_nil, List.length_append, length_le, List.length_replicate]
  rw [field_append_of_lt (by simp), field_append_of_lt (by simp), field_append_of_le (by simp)]
  simp only [List.length_append, length_le, List.length_replicate]
  rw [show 4 - _ = 0 by omega, ← List.append_nil (le 4 elapsed.toNat), field_le_append]
  exact Nat.mod_eq_of_lt helapsed

theorem toNat_field64 (b : List Byte) : (BitVec.ofNat 64 (field b 0 8)).toNat = field b 0 8 := by
  have hlt : field b 0 8 < 256 ^ (padTo 8 (slice b 0 8)).length := ofLe_lt _
  rw [length_padTo] at hlt
  rw [BitVec.toNat_ofNat, Nat.mod_eq_of_lt (by omega)]

/-- Settles O46: WRITE_RAW and READ_RAW by the location named, a scrubber's read by the kind of its location, and the laps. -/
theorem rawAndScrubbing : Obligations.RawAndScrubbing := by
  unfold Obligations.RawAndScrubbing
  refine ⟨fun s slot req ver t hw => ?_, fun s t b loc ms elapsed hs => ?_⟩
  · refine ⟨fun hclosed => ⟨?_, ?_⟩, fun hopen hnowhere => ⟨?_, ?_⟩, fun kind key hopen htarget => ⟨fun hnew hfull => ?_, fun hroom => ?_, ?_⟩⟩
    · exact rawWrite_refuses hw (v := 1) (.inl rfl) rfl fun f g k => rawCommand_closed (s := s.takenUp t f g k) hclosed (.inl rfl)
    · exact rawWrite_refuses hw (v := 2) (.inr rfl) rfl fun f g k => rawCommand_closed (s := s.takenUp t f g k) hclosed (.inr rfl)
    · exact rawWrite_refuses hw (v := 1) (.inl rfl) rfl fun f g k => rawCommand_nowhere (s := s.takenUp t f g k) hopen hnowhere (.inl rfl)
    · exact rawWrite_refuses hw (v := 2) (.inr rfl) rfl fun f g k => rawCommand_nowhere (s := s.takenUp t f g k) hopen hnowhere (.inr rfl)
    · refine rawWrite_refuses hw (v := 1) (.inl rfl) rfl fun f g k => ?_
      exact ((rawCommand_at (s := s.takenUp t f g k) hopen htarget (.inl rfl)).trans (if_pos rfl)).trans (writeRaw_full hnew hfull)
    · obtain ⟨u, hu, hlogged, hwritten⟩ := writeRaw_gives hw hopen htarget hroom
      refine ⟨u, hu, hlogged, hwritten.listed, hwritten.counted, fun hkind => ?_, fun hkind => ?_⟩
      · have hnames := rawTarget_names htarget
        subst hkind
        cases hnames with
        | unit => exact ⟨(hwritten.unit rfl).bytes, (hwritten.unit rfl).gone, (hwritten.unit rfl).code⟩
        | word hsram => omega
      · refine ⟨(hwritten.word hkind).word, ?_⟩
        have hcode := (hwritten.word hkind).code
        rw [toNat_field64] at hcode
        exact hcode
    · obtain ⟨u, hu, hlogged, hshown⟩ := readRaw_gives hw hopen htarget
      exact ⟨u, hu, hlogged, hshown.hbm, hshown.cores, hshown.gone, fun hgood => ⟨hshown.codes hgood, hshown.listed hgood, hshown.unlisted hgood⟩⟩
  · refine ⟨fun ht hdie hvalid => ⟨fun u r hloc hr => ?_, fun r hunit hline hr => ?_, fun l w x hloc hx hw => ?_, fun hms => ?_⟩,
      fun hunit hline hwaits => ?_, fun hlimit hreached hnew => ?_⟩
    · subst hloc
      have hscrub := scrubHbm_scrubs (s := { s with now := t }) hr b.val
      exact ⟨_, scrubRead_reads hs ht hdie hvalid ms, hscrub.hbm, hscrub.clean, hscrub.corrected, hscrub.bad, hscrub.poisoned⟩
    · have hscrub := scrubSram_scrubs (s := { s with now := t }) (storedKind_locKind loc) hr b.val
      rw [← scrubLoc_word hunit hline] at hscrub
      exact ⟨_, scrubRead_reads hs ht hdie hvalid ms, hscrub.cores, hscrub.sramRaw, hscrub.corrected, hscrub.bad⟩
    · subst hloc
      have hscrub := scrubCache_scrubs (s := { s with now := t }) hx hw
      exact ⟨_, scrubRead_reads hs ht hdie hvalid ms, hscrub.hbm, hscrub.clean, hscrub.dirty⟩
    · obtain ⟨hlaps, hnow⟩ := scrubLoc_keeps { s with now := t } b.val loc
      have hended := endLap_ends (scrubLoc { s with now := t } b.val loc) b.isLt ms
      exact ⟨_, scrubRead_ends hs ht hdie hvalid hms, hended.laps.trans (by rw [hlaps]), hended.shown, hended.reported, hended.next.trans hnow⟩
    · obtain ⟨hfresh, hgone⟩ := rewritten_fresh s (locKey loc)
      exact ⟨_, sramRewrite_rewrites hunit hline hwaits, hfresh, hgone, rfl⟩
    · exact ⟨_, _, scrubOverdue_reports hs hlimit hreached hnew, List.mem_cons_self, rfl, rfl, field_overdue_elapsed .., rfl⟩

end Sys2Proof.Machine
end
